-- ==== Sys2Proof/Word.lean ====
section
/-! DEFINITION. Sys2Proof/Word.lean: the word types of the device (R7, R8) and the sparse map that
every keyed piece of state uses. -/

namespace Sys2Proof

/-- A 32-bit word: a register, a mailbox word, a scalar register of a core (R8, R22, R108). -/
abbrev Word := BitVec 32

/-- One byte of device memory (R7). -/
abbrev Byte := BitVec 8

/-- A sparse map: keys strictly rising; what an unlisted key holds is said where the map is read.
The operations over it are in Machine/Ops.lean. -/
abbrev SMap (α : Type) := List (Nat × α)

end Sys2Proof
end

