-- ==== Sys2Proof/Types.lean ====
section
/-! DEFINITION. Sys2Proof/Types.lean: the types of the operands that commands carry, shared by the syntax and
the state. -/

namespace Sys2Proof

/-- Who makes a bus access or sends a message (R19, R23). -/
inductive Req where
  | keeper (h : Fin 4)      -- Keeper hart h
  | sec                     -- security controller
  | dsp                     -- Buoy DSP, through the AON bridge
  | coreSeq (n : Fin 32)    -- sequencer of core n (mailboxes)
  | coreDma (n : Fin 32)    -- DMA engines of core n
  | tct                     -- TCT engine
  | proxy (p : Fin 4)       -- fabric proxy of Agcon port p
  | sched                   -- SCHED block
  | semUnit (c : Fin 4)     -- semaphore unit of cluster c
  | memMgr                  -- memory manager and object-move DMA
  | isp                     -- image signal processor
  deriving DecidableEq, Repr

/-- The four power modes (R27); their encoding is that of AON_MODE (R418). -/
inductive Mode where
  | buoy | beacon | lantern | lighthouse
  deriving DecidableEq, Repr

/-- Which of the queued-instruction queues of a core (R88). -/
inductive QueueName where
  | matrix | element | dma0 | dma1
  deriving DecidableEq, Repr

/-- What a promotion, a demotion or a deep write moves: an object of a partition, or the sealed page whose level-2 entry
lies at an address (R258). -/
inductive Item where
  | obj (part n : Nat)
  | page (l2 : Nat)
  deriving DecidableEq, Repr

/-- What the reads of one deep block find that is not a good block without errors (R263, R270, R470): 0 good, 1 the block
fails its check, 2 an uncorrectable error; `corrected`: the last read had a corrected error. -/
structure DeepRead where
  block : Nat
  first : Fin 3
  second : Fin 3
  corrected : Bool
  deriving DecidableEq, Repr

/-- A tile with its 16-byte check tag (R68). -/
structure Tile where
  tag : List Byte
  payload : List Byte
  deriving DecidableEq, Repr

/-- A host request as Keeper takes it from a complete request message (R337, R339): the association, the tag to
answer with, the argument block and the data tiles. -/
structure Request where
  assoc : Nat
  hostTag : Word := 0
  args : List Byte := []
  tiles : List Tile := []
  deriving DecidableEq, Repr

/-- How a frame came in on a host port: the port, whether it passed MACsec and under whose connectivity association
(R331, R332). -/
structure HostRx where
  port : Fin 2
  secured : Bool
  principal : Nat := 0
  deriving DecidableEq, Repr

/-- A TCT frame with its header fields (R333). -/
structure TctFrame where
  type : Nat
  assoc : Nat := 0
  seq : Nat := 0
  ack : Nat := 0
  sack : BitVec 32 := 0
  msg : Nat := 0
  seg : Nat := 0
  segs : Nat := 1
  payload : List Byte := []
  handles : List Nat := []        -- handles whose completion records it carries (the model's note, R347)
  deriving DecidableEq, Repr

/-- A stage of a placement (R376); `queue` is its relay queue, known once the stage has confirmed. -/
structure Stage where
  addr : Nat
  first : Nat
  last : Nat
  mirror : Nat := 0                -- 0: no mirror partner
  queue : Nat := 0xFFFF
  deriving DecidableEq, Repr

/-- A placement as its front device describes it to the stages (R376): LOAD_MODEL's 24 bytes, the partition, mirroring, credits,
the spare, the stages, and the key identifiers that the front device holds for the partition (R459). -/
structure PlacePlan where
  load : List Byte
  part : Nat
  mirrored : Bool
  credits : Nat
  spare : Nat
  stages : List Stage
  keyIds : List (BitVec 64)
  deriving DecidableEq, Repr

/-- What the tiles of a MOVE belong to (R377 to R379): the image that a stage without a store loads from, a sealed page of a session, or the A16
head part of a staging slot with its fill.  Sessions are numbered as on the front device. -/
inductive MoveWhat where
  | image (size : Nat)
  | page (session k ix format firstPos : Nat)
  | slot (session k filled : Nat)
  deriving DecidableEq, Repr

/-- One tile of a MOVE: the placement and stage, what it belongs to, whether it is a mirror copy, its index and how many there
are. -/
structure MoveTile where
  place : Nat
  stage : Nat
  what : MoveWhat
  mirror : Bool
  index : Nat
  count : Nat
  tile : Tile
  deriving DecidableEq, Repr

/-- What Keepers say to one another in PLACE and KEY_RETIRE frames (R377 to R380, R459 to R462).  The spec names what the frames
carry and gives them no layout, so the messages are the model's own (DESIGN CHOICE, log 34). -/
inductive FabMsg where
  -- tenant keys (R459 to R462)
  | keyAsk (t : Nat)                                    -- to the fabric head: does another member hold tenant t?
  | keyWho (t holder : Nat)                             -- its answer; 0: none
  | keyFetch (t : Nat)                                  -- to a holder
  | keyGive (t : Nat) (gens : List (Nat × BitVec 64))   -- its generations, wrapped
  | holds (t : Nat) (yes : Bool)                        -- the sender holds tenant t, or no longer does
  | keyNew (t gen : Nat) (id : BitVec 64)
  | keySealed (t gen : Nat)
  | keyUse (t gen : Nat)
  | keyClean (t gen : Nat)                              -- no block of an older generation remains
  | retiredIds (ids : List (BitVec 64))                 -- to the fabric head
  | retire (t : Nat) (gen : Option Nat)                 -- KEY_RETIRE of one generation, or of both
  | retireAck (t : Nat) (gen : Option Nat) (phase : Nat)
  -- placements (R376, R377)
  | load (place stage : Nat) (plan : PlacePlan)
  | loaded (place stage status queue : Nat)
  | drop (place : Nat)
  | dropStage (place stage : Nat)
  | commit (place : Nat) (plan : PlacePlan)
  | openSession (place stage session format : Nat)
  | sessionOpen (place stage session : Nat) (ok : Bool)
  | closeSession (place session : Nat)
  | job (place stage job kind session len add : Nat) (noKv : Bool)
  | jobDone (place stage job : Nat) (ok : Bool) (detail : Nat)
  | grown (place session len : Nat)                     -- the session's length at its token boundary
  | endJob (place job : Nat)                            -- the front device has stopped it
  | pageStored (place stage session k ix : Nat)         -- a mirror partner has stored a page
  -- leaving, loss, recovery (R379, R380)
  | leave (addr repl : Nat) (buoyOk : Bool)
  | left (addr places pages : Nat) (last bad : Bool)
  | adopt (place stage : Nat) (plan : PlacePlan) (sessions : List (Nat × Nat × Nat))   -- session, format, length
  | adopted (place stage : Nat) (ok : Bool) (queue : Nat) (have_ : List (Nat × Nat))   -- session, position held up to
  | give (place stage dst_ : Nat)
  | given (place stage pages : Nat) (have_ : List (Nat × Nat))
  | lostFrom (place stage session pos : Nat)            -- positions from here on are gone on a stage (R201, R263, R275)
  deriving DecidableEq, Repr

/-- An Agcon frame with its header fields (R363); the link and end-to-end cryptography is outside the model, so
the payload is the plaintext (log 11). -/
structure FabFrame where
  type : Nat
  retrans : Bool := false
  dest : Nat := 0
  src : Nat := 0
  epoch : Nat := 0
  counter : Nat := 0
  destQueue : Nat := 0
  srcQueue : Nat := 0
  part : Nat := 0
  gen : Nat := 0
  e2e : Bool := false
  tag : Nat := 0
  frameIx : Nat := 0
  frames : Nat := 0
  creditReturn : Nat := 0
  creditQueue : Nat := 0
  job : Nat := 0
  command : Nat := 0
  sendIx : Nat := 0
  payload : List Byte := []
  msg : Option FabMsg := none      -- what a PLACE or KEY_RETIRE frame says
  move : Option MoveTile := none   -- what a MOVE frame carries
  deriving DecidableEq, Repr

/-- A register of the AON block that is written only while recording is off (R400). -/
inductive AonReg where
  | ringCfg
  | ringSize
  | pdm (a : Fin 2)
  | trim (c : Fin 16)
  deriving DecidableEq, Repr

/-- What a start meets, as far as the device does not decide it: how often each step reports a failure (R499), where an interruption
leaves it, and what some steps find. -/
structure StartObs where
  fails : List Nat := []           -- steps that report a failure, once for every failure
  stop : Option Nat := none        -- a step that never ends
  cacheBad : Bool := false         -- the cached Keeper image fails verification (R503)
  calFails : Bool := false         -- the failure of B13 is one of loading entries, not of starting to record (R500)
  stack : Nat := 0                 -- the HBM stack that does not train (R500)
  reached : Mode := .beacon        -- the highest mode reached where B21 fails (R500)
  aonCfg : List (AonReg × Word) := []   -- the recording configuration that Keeper firmware writes (R400)
  deriving DecidableEq, Repr

/-- A message that the Buoy DSP posts in mailbox 16 (R408). -/
structure DspMsg where
  number : BitVec 16
  mark : BitVec 64
  length : Word := 0
  score : BitVec 16 := 0
  cls : BitVec 16 := 0
  channels : BitVec 16 := 0
  post : Word := 0
  deriving DecidableEq, Repr

/-- A light-list entry (R374). -/
structure LightEntry where
  address : Nat
  state : Nat := 1                 -- 0 empty, 1 member, 2 leaving, 3 departed, 4 lost
  ports : Nat := 0                 -- links [3:0]: ports up
  closed : Bool := false           -- links [4]
  sysId : Word := 0
  serial : BitVec 64 := 0
  keyId : BitVec 64 := 0
  cores : Nat := 0
  deepGib : Nat := 0
  peer2 : Nat := 0
  peer3 : Nat := 0
  deriving DecidableEq, Repr

/-- What a LIGHT frame carries (R372, R375, R459): the generation, the list by index, the route words by
16 × segment + destination segment, and the key identifiers retired latest. -/
structure LightMsg where
  origin : Nat
  gen : Nat
  entries : SMap LightEntry
  routes : SMap Word
  retired : List (BitVec 64) := []
  deriving DecidableEq, Repr

/-- A self-test slice and its target (R486): the ports of a loopback slice are 0 to 3 Agcon, 4 and 5 host, 6 to 9 CSI-2; the
PLLs are 0 the root PLL, 1 to 4 those of the Agcon ports, 5 and 6 those of the host ports (DESIGN CHOICE, log 32). -/
inductive Slice where
  | logic (core : Fin 32)
  | spadBank (core : Fin 32) (bank : Fin 16)
  | accQuarter (core : Fin 32) (quarter : Fin 4)
  | weightBanks (core : Fin 32)
  | ssrWay (way : Fin 16)
  | pll (target : Fin 7)
  | loopback (port : Fin 10)
  | pdm (channel : Fin 16)
  | temperature
  | voltage (monitor : Fin 8)
  deriving DecidableEq, Repr

/-- Where an SRAM scrub finds an error (R470, R481): resident rows are those of a core. -/
inductive SramPlace where
  | ssr (way : Fin 16)
  | semaphore (n : Fin 1024)
  | sessionTable
  | keeperSram
  | aonSram
  | rows (core : Fin 32)
  deriving DecidableEq, Repr

/-- What stops Keeper's work for the alarm path (R480); the number is the bit of RAS_ALARM. -/
inductive AlarmCause where
  | keeper | pll | vdd
  deriving DecidableEq, Repr

end Sys2Proof
end

