-- ==== Sys2Proof/Syntax.lean ====
section
/-! DEFINITION. Sys2Proof/Syntax.lean: the commands of the block with their operands, one constructor per row of
spec/opcode_table.json, in the table's order.  A row that reports an event carries what the event brings; a Kuner
row carries the core and the 64-bit word that the core's sequencer has fetched (R103). -/

namespace Sys2Proof

/-- The commands of the block, one constructor per row of the opcode table. -/
inductive Instr where
  | registerWrite (by_ : Req) (addr : BitVec 48) (v : Word)   -- REGISTER_WRITE, R9
  | mailboxWordWrite (by_ : Req) (m : Fin 128) (w : Fin 7) (v : Word)   -- MAILBOX_WORD_WRITE, R23
  | mailboxPost (by_ : Req) (m : Fin 128) (v : Word)   -- MAILBOX_POST, R23
  | mailboxTake (by_ : Req) (m : Fin 128)   -- MAILBOX_TAKE, R24
  | heldMessagePost (by_ : Req)   -- HELD_MESSAGE_POST, R25
  | mbxMaskLock (by_ : Req) (ix : Fin 4) (v : Word)   -- MBX_MASK_LOCK, R465
  | commandDispatch (core : Fin 32)   -- COMMAND_DISPATCH, R133
  | queueEntryStart (core : Fin 32) (q : QueueName)   -- QUEUE_ENTRY_START, R89
  | dmaTransferComplete (core : Fin 32) (engine : Fin 2)   -- DMA_TRANSFER_COMPLETE, R93
  | watchdog (core : Fin 32)   -- WATCHDOG, R99
  | coreStop (by_ : Req) (core : Fin 32)   -- CORE_STOP, R98
  | coreClearResident (by_ : Req) (core : Fin 32)   -- CORE_CLEAR_RESIDENT, R86
  | coreBistHold (by_ : Req) (core : Fin 32) (v : Bool)   -- CORE_BIST_HOLD, R97
  | coreRetire (by_ : Req) (core : Fin 32)   -- CORE_RETIRE, R97
  | coreEnable (by_ : Req) (core : Fin 32) (v : Bool)   -- CORE_ENABLE, R97
  | coreArrayDutyWrite (by_ : Req) (core : Fin 32) (v : Word)   -- CORE_ARRAY_DUTY_WRITE, R81
  | stopIdleTimeout (core : Fin 32)   -- STOP_IDLE_TIMEOUT, R315
  | add (core : Fin 32) (w : BitVec 64)   -- ADD, R115
  | sub (core : Fin 32) (w : BitVec 64)   -- SUB, R115
  | and (core : Fin 32) (w : BitVec 64)   -- AND, R115
  | or (core : Fin 32) (w : BitVec 64)   -- OR, R115
  | xor (core : Fin 32) (w : BitVec 64)   -- XOR, R115
  | sll (core : Fin 32) (w : BitVec 64)   -- SLL, R115
  | srl (core : Fin 32) (w : BitVec 64)   -- SRL, R115
  | sra (core : Fin 32) (w : BitVec 64)   -- SRA, R115
  | mul (core : Fin 32) (w : BitVec 64)   -- MUL, R115
  | mulh (core : Fin 32) (w : BitVec 64)   -- MULH, R115
  | mulhu (core : Fin 32) (w : BitVec 64)   -- MULHU, R115
  | min (core : Fin 32) (w : BitVec 64)   -- MIN, R115
  | max (core : Fin 32) (w : BitVec 64)   -- MAX, R115
  | minu (core : Fin 32) (w : BitVec 64)   -- MINU, R115
  | maxu (core : Fin 32) (w : BitVec 64)   -- MAXU, R115
  | cmpEq (core : Fin 32) (w : BitVec 64)   -- CMP_EQ, R116
  | cmpNe (core : Fin 32) (w : BitVec 64)   -- CMP_NE, R116
  | cmpLt (core : Fin 32) (w : BitVec 64)   -- CMP_LT, R116
  | cmpGe (core : Fin 32) (w : BitVec 64)   -- CMP_GE, R116
  | cmpLtu (core : Fin 32) (w : BitVec 64)   -- CMP_LTU, R116
  | cmpGeu (core : Fin 32) (w : BitVec 64)   -- CMP_GEU, R116
  | pand (core : Fin 32) (w : BitVec 64)   -- PAND, R117
  | por (core : Fin 32) (w : BitVec 64)   -- POR, R117
  | pxor (core : Fin 32) (w : BitVec 64)   -- PXOR, R117
  | pandn (core : Fin 32) (w : BitVec 64)   -- PANDN, R117
  | pnot (core : Fin 32) (w : BitVec 64)   -- PNOT, R117
  | sld (core : Fin 32) (w : BitVec 64)   -- SLD, R118
  | sst (core : Fin 32) (w : BitVec 64)   -- SST, R118
  | sget (core : Fin 32) (w : BitVec 64)   -- SGET, R119
  | b (core : Fin 32) (w : BitVec 64)   -- B, R120
  | bl (core : Fin 32) (w : BitVec 64)   -- BL, R120
  | br (core : Fin 32) (w : BitVec 64)   -- BR, R120
  | brl (core : Fin 32) (w : BitVec 64)   -- BRL, R120
  | loop (core : Fin 32) (w : BitVec 64)   -- LOOP, R122
  | tld (core : Fin 32) (w : BitVec 64)   -- TLD, R125
  | tst (core : Fin 32) (w : BitVec 64)   -- TST, R126
  | tpf (core : Fin 32) (w : BitVec 64)   -- TPF, R127
  | tchk (core : Fin 32) (w : BitVec 64)   -- TCHK, R128
  | tdescLoad (core : Fin 32) (w : BitVec 64)   -- TDESC_LOAD, R129
  | tdescCopy (core : Fin 32) (w : BitVec 64)   -- TDESC_COPY, R129
  | tdescSet (core : Fin 32) (w : BitVec 64)   -- TDESC_SET, R129
  | tdescAdd (core : Fin 32) (w : BitVec 64)   -- TDESC_ADD, R129
  | tdescSeti (core : Fin 32) (w : BitVec 64)   -- TDESC_SETI, R129
  | mwl (core : Fin 32) (w : BitVec 64)   -- MWL, R139
  | mma (core : Fin 32) (w : BitVec 64)   -- MMA, R141
  | mmas (core : Fin 32) (w : BitVec 64)   -- MMAS, R141
  | maccZero (core : Fin 32) (w : BitVec 64)   -- MACC_ZERO, R142
  | maccRes (core : Fin 32) (w : BitVec 64)   -- MACC_RES, R85
  | maccUnres (core : Fin 32) (w : BitVec 64)   -- MACC_UNRES, R142
  | maccCkpt (core : Fin 32) (w : BitVec 64)   -- MACC_CKPT, R143
  | maccRestore (core : Fin 32) (w : BitVec 64)   -- MACC_RESTORE, R143
  | kapp (core : Fin 32) (w : BitVec 64)   -- KAPP, R182
  | kseal (core : Fin 32) (w : BitVec 64)   -- KSEAL, R189
  | kmap (core : Fin 32) (w : BitVec 64)   -- KMAP, R195
  | kmapPrefetch (core : Fin 32) (w : BitVec 64)   -- KMAP_PREFETCH, R195
  | eopMov (core : Fin 32) (w : BitVec 64)   -- EOP_MOV, R149
  | eopAdd (core : Fin 32) (w : BitVec 64)   -- EOP_ADD, R149
  | eopSub (core : Fin 32) (w : BitVec 64)   -- EOP_SUB, R149
  | eopMul (core : Fin 32) (w : BitVec 64)   -- EOP_MUL, R149
  | eopMin (core : Fin 32) (w : BitVec 64)   -- EOP_MIN, R149
  | eopMax (core : Fin 32) (w : BitVec 64)   -- EOP_MAX, R149
  | eopAbs (core : Fin 32) (w : BitVec 64)   -- EOP_ABS, R149
  | eopNeg (core : Fin 32) (w : BitVec 64)   -- EOP_NEG, R149
  | eopRelu (core : Fin 32) (w : BitVec 64)   -- EOP_RELU, R149
  | eopExp2 (core : Fin 32) (w : BitVec 64)   -- EOP_EXP2, R150
  | eopExp (core : Fin 32) (w : BitVec 64)   -- EOP_EXP, R150
  | eopLog2 (core : Fin 32) (w : BitVec 64)   -- EOP_LOG2, R150
  | eopRcp (core : Fin 32) (w : BitVec 64)   -- EOP_RCP, R150
  | eopRsqrt (core : Fin 32) (w : BitVec 64)   -- EOP_RSQRT, R150
  | eopSqrt (core : Fin 32) (w : BitVec 64)   -- EOP_SQRT, R150
  | eopSigmoid (core : Fin 32) (w : BitVec 64)   -- EOP_SIGMOID, R150
  | eopTanh (core : Fin 32) (w : BitVec 64)   -- EOP_TANH, R150
  | eopSilu (core : Fin 32) (w : BitVec 64)   -- EOP_SILU, R150
  | eopGelu (core : Fin 32) (w : BitVec 64)   -- EOP_GELU, R150
  | eopAnd (core : Fin 32) (w : BitVec 64)   -- EOP_AND, R149
  | eopOr (core : Fin 32) (w : BitVec 64)   -- EOP_OR, R149
  | eopXor (core : Fin 32) (w : BitVec 64)   -- EOP_XOR, R149
  | eopShl (core : Fin 32) (w : BitVec 64)   -- EOP_SHL, R149
  | eopSra (core : Fin 32) (w : BitVec 64)   -- EOP_SRA, R149
  | erq (core : Fin 32) (w : BitVec 64)   -- ERQ, R152
  | esmx (core : Fin 32) (w : BitVec 64)   -- ESMX, R154
  | enormRms (core : Fin 32) (w : BitVec 64)   -- ENORM_RMS, R155
  | enormLayer (core : Fin 32) (w : BitVec 64)   -- ENORM_LAYER, R155
  | egateLstm (core : Fin 32) (w : BitVec 64)   -- EGATE_LSTM, R157
  | egateGru (core : Fin 32) (w : BitVec 64)   -- EGATE_GRU, R157
  | egateDssm (core : Fin 32) (w : BitVec 64)   -- EGATE_DSSM, R157
  | escanScan (core : Fin 32) (w : BitVec 64)   -- ESCAN_SCAN, R158
  | escanCombine (core : Fin 32) (w : BitVec 64)   -- ESCAN_COMBINE, R158
  | eredSum (core : Fin 32) (w : BitVec 64)   -- ERED_SUM, R159
  | eredMax (core : Fin 32) (w : BitVec 64)   -- ERED_MAX, R159
  | eredMin (core : Fin 32) (w : BitVec 64)   -- ERED_MIN, R159
  | eredArgmax (core : Fin 32) (w : BitVec 64)   -- ERED_ARGMAX, R159
  | eredSumsq (core : Fin 32) (w : BitVec 64)   -- ERED_SUMSQ, R159
  | wquantRange (core : Fin 32) (w : BitVec 64)   -- WQUANT_RANGE, R160
  | wquantEncode (core : Fin 32) (w : BitVec 64)   -- WQUANT_ENCODE, R160
  | swait (core : Fin 32) (w : BitVec 64)   -- SWAIT, R163
  | swaitPeek (core : Fin 32) (w : BitVec 64)   -- SWAIT_PEEK, R163
  | swaitSatisfy (sem : Fin 1024)   -- SWAIT_SATISFY, R163
  | spost (core : Fin 32) (w : BitVec 64)   -- SPOST, R164
  | fence (core : Fin 32) (w : BitVec 64)   -- FENCE, R166
  | endCmd (core : Fin 32) (w : BitVec 64)   -- END, R135
  | csend (core : Fin 32) (w : BitVec 64)   -- CSEND, R169
  | crecv (core : Fin 32) (w : BitVec 64)   -- CRECV, R169
  | streamPairTransfer (a : Fin 32) (b : Fin 32) (ch : Fin 8) (crcBad : Bool)   -- STREAM_PAIR_TRANSFER, R169
  | lsend (core : Fin 32) (w : BitVec 64)   -- LSEND, R171
  | lrecv (core : Fin 32) (w : BitVec 64)   -- LRECV, R172
  | keeperEndReport (core : Fin 32) (outs : List Tile)   -- KEEPER_END_REPORT, R297
  | scaleShift (model : Nat) (tensor : Fin 65536)   -- SCALE_SHIFT, R64
  | sessionReingest (session : Fin 65536)   -- SESSION_REINGEST, R201
  | jobAdmission (job : Nat)   -- JOB_ADMISSION, R265
  | rotationStart (p : Fin 9)   -- ROTATION_START, R303
  | schedTableArm (by_ : Req) (p : Fin 9) (v : Word)   -- SCHED_TABLE_ARM, R304
  | sectorOpen (p : Fin 9) (ix : Fin 512)   -- SECTOR_OPEN, R305
  | sectorClose (p : Fin 9) (ix : Fin 512)   -- SECTOR_CLOSE, R305
  | semWaitReport (core : Fin 32)   -- SEM_WAIT_REPORT, R554
  | telemetryInterval (principal : Fin 9)   -- TELEMETRY_INTERVAL, R355
  | otuFill (core : Fin 32) (obj : Fin 65536)   -- OTU_FILL, R256
  | promotionDispatch (part : Fin 9)   -- PROMOTION_DISPATCH, R261
  | promotionComplete (item : Item) (reads : List DeepRead)   -- PROMOTION_COMPLETE, R258
  | demotionComplete (item : Item)   -- DEMOTION_COMPLETE, R259
  | deepCopyWriteComplete (item : Item)   -- DEEP_COPY_WRITE_COMPLETE, R259
  | objectDelete (part : Fin 9) (obj : Fin 65536)   -- OBJECT_DELETE, R260
  | pageWalkerPromote (session : Fin 65536)   -- PAGE_WALKER_PROMOTE, R203
  | otcInvalidate (by_ : Req)   -- OTC_INVALIDATE, R288
  | promoPause (by_ : Req) (v : Bool)   -- PROMO_PAUSE, R288
  | pcieCfgRead (by_ : Req)   -- PCIE_CFG_READ, R292
  | pcieCfgWrite (by_ : Req) (v : Word)   -- PCIE_CFG_WRITE, R292
  | pcieRetrain (by_ : Req)   -- PCIE_RETRAIN, R293
  | pciePerst (by_ : Req) (v : Bool)   -- PCIE_PERST, R293
  | pcieEnable (by_ : Req) (v : Bool)   -- PCIE_ENABLE, R293
  | pcieMsixArrival (vector : Fin 32)   -- PCIE_MSIX_ARRIVAL, R292
  | pcieInboundRequest (addr : BitVec 64) (len : Fin 4097) (wr : Option (List Byte))   -- PCIE_INBOUND_REQUEST, R282
  | nvmeCommandComplete (id : Nat) (ok : Bool)   -- NVME_COMMAND_COMPLETE, R282
  | arpRequest (rx : HostRx)   -- ARP_REQUEST, R327
  | ndSolicitation (rx : HostRx)   -- ND_SOLICITATION, R327
  | icmpEcho (rx : HostRx) (data : List Byte)   -- ICMP_ECHO, R327
  | hostLinkLoss (port : Fin 2)   -- HOST_LINK_LOSS, R329
  | hostLinkReturn   -- HOST_LINK_RETURN, R329
  | hostFailover (by_ : Req)   -- HOST_FAILOVER, R329
  | hostPortRestart (by_ : Req) (port : Fin 2)   -- HOST_PORT_RESTART, R358
  | tc10SleepRequest (port : Fin 2)   -- TC10_SLEEP_REQUEST, R330
  | tc10Wakeup (port : Fin 2)   -- TC10_WAKEUP, R330
  | mkaFrame (port : Fin 2) (principal : Fin 9) (valid : Bool) (up : Bool)   -- MKA_FRAME, R331
  | tctOpen (rx : HostRx) (hostSeq : Nat) (resume : Nat)   -- TCT_OPEN, R335
  | tctClose (rx : HostRx) (f : TctFrame)   -- TCT_CLOSE, R335
  | tctRequestFrame (rx : HostRx) (f : TctFrame)   -- TCT_REQUEST_FRAME, R336
  | tctAck (rx : HostRx) (f : TctFrame)   -- TCT_ACK, R336
  | tctTime (rx : HostRx) (f : TctFrame)   -- TCT_TIME, R338
  | tctKeepalive (rx : HostRx) (f : TctFrame)   -- TCT_KEEPALIVE, R336
  | tctRetransmitTimeout (assoc : Nat)   -- TCT_RETRANSMIT_TIMEOUT, R336
  | keepaliveTimer (assoc : Nat)   -- KEEPALIVE_TIMER, R336
  | associationLost (assoc : Nat)   -- ASSOCIATION_LOST, R336
  | associationExpiry (assoc : Nat)   -- ASSOCIATION_EXPIRY, R335
  | tctOutboundMessage (assoc : Nat) (type : Nat) (payload : List Byte)   -- TCT_OUTBOUND_MESSAGE, R26
  | loadModel (rq : Request) (head : List Byte)   -- LOAD_MODEL, R341
  | unloadModel (rq : Request)   -- UNLOAD_MODEL, R342
  | queueCreate (rq : Request)   -- QUEUE_CREATE, R341
  | queueDestroy (rq : Request)   -- QUEUE_DESTROY, R341
  | queueSettings (rq : Request)   -- QUEUE_SETTINGS, R295
  | scheduleSet (rq : Request)   -- SCHEDULE_SET, R304
  | loadData (rq : Request)   -- LOAD_DATA, R343
  | loadImageTimeout (handle : Nat)   -- LOAD_IMAGE_TIMEOUT, R343
  | storeImage (rq : Request) (head : List Byte)   -- STORE_IMAGE, R344
  | storeDelete (rq : Request)   -- STORE_DELETE, R344
  | storeList (rq : Request)   -- STORE_LIST, R344
  | storeFormat (rq : Request)   -- STORE_FORMAT, R344
  | openSession (rq : Request)   -- OPEN_SESSION, R341
  | closeSession (rq : Request)   -- CLOSE_SESSION, R342
  | sessionSettings (rq : Request)   -- SESSION_SETTINGS, R341
  | invoke (rq : Request)   -- INVOKE, R296
  | submitInput (rq : Request)   -- SUBMIT_INPUT, R218
  | cancel (rq : Request)   -- CANCEL, R342
  | queryHandle (rq : Request)   -- QUERY_HANDLE, R347
  | readOutput (rq : Request)   -- READ_OUTPUT, R353
  | tenantCreate (rq : Request)   -- TENANT_CREATE, R456
  | tenantRemove (rq : Request)   -- TENANT_REMOVE, R461
  | setMode (rq : Request)   -- SET_MODE, R409
  | readRecords (rq : Request)   -- READ_RECORDS, R508
  | calibrationWrite (rq : Request)   -- CALIBRATION_WRITE, R510
  | calibrationErase (rq : Request)   -- CALIBRATION_ERASE, R510
  | calibrationRead (rq : Request)   -- CALIBRATION_READ, R510
  | attest (rq : Request)   -- ATTEST, R453
  | telemetrySet (rq : Request)   -- TELEMETRY_SET, R341
  | fabricPlace (rq : Request)   -- FABRIC_PLACE, R376
  | memberLeave (rq : Request)   -- MEMBER_LEAVE, R379
  | updateInstall (rq : Request)   -- UPDATE_INSTALL, R517
  | updateCommit (rq : Request)   -- UPDATE_COMMIT, R517
  | updateRevert (rq : Request)   -- UPDATE_REVERT, R517
  | ispParameterUpdate (rq : Request)   -- ISP_PARAMETER_UPDATE, R515
  | modelSwitch (rq : Request)   -- MODEL_SWITCH, R516
  | tenantKeyRotation (rq : Request)   -- TENANT_KEY_ROTATION, R460
  | lifeCycleChange (rq : Request)   -- LIFE_CYCLE_CHANGE, R439
  | revokeRoot (rq : Request)   -- REVOKE_ROOT, R447
  | provisionRootDigest (rq : Request)   -- PROVISION_ROOT_DIGEST, R451
  | provisionDeviceKey (rq : Request)   -- PROVISION_DEVICE_KEY, R451
  | provisionCertificate (rq : Request)   -- PROVISION_CERTIFICATE, R451
  | provisionSystemCak (rq : Request)   -- PROVISION_SYSTEM_CAK, R451
  | bootStepClear (rq : Request)   -- BOOT_STEP_CLEAR, R501
  | retirementMapClear (rq : Request)   -- RETIREMENT_MAP_CLEAR, R515
  | updateAutoCommit (cls : Fin 4)   -- UPDATE_AUTO_COMMIT, R517
  | updateTrialExpiry (cls : Fin 4)   -- UPDATE_TRIAL_EXPIRY, R517
  | agconLinkTrained (port : Fin 4) (lanes : Fin 16)   -- AGCON_LINK_TRAINED, R366
  | auth (port : Fin 4) (root : Fin 2) (ok : Bool) (role : Fin 4) (peer : BitVec 16)   -- AUTH, R366
  | key (port : Fin 4) (f : FabFrame)   -- KEY, R367
  | agconRekey (port : Fin 4)   -- AGCON_REKEY, R367
  | data (port : Fin 4) (f : FabFrame)   -- DATA, R171
  | credit (port : Fin 4) (f : FabFrame)   -- CREDIT, R314
  | idle (port : Fin 4) (f : FabFrame)   -- IDLE, R365
  | linkAck (port : Fin 4) (f : FabFrame) (n : Nat)   -- LINK_ACK, R365
  | linkNak (port : Fin 4) (f : FabFrame) (n : Nat)   -- LINK_NAK, R365
  | agconLinkDown (port : Fin 4)   -- AGCON_LINK_DOWN, R365
  | peerLost (port : Fin 4)   -- PEER_LOST, R369
  | moor (port : Fin 4) (f : FabFrame) (seg : Fin 16) (stn : Fin 256)   -- MOOR, R372
  | moorEnd (port : Fin 4) (f : FabFrame) (entries : List LightEntry) (closed : Bool)   -- MOOR_END, R372
  | probe (port : Fin 4) (f : FabFrame) (addr : BitVec 16)   -- PROBE, R372
  | segReport (port : Fin 4) (f : FabFrame) (origin : Nat) (gen : Nat) (entries : List LightEntry)   -- SEG_REPORT, R372
  | lightBuild   -- LIGHT_BUILD, R372
  | light (port : Fin 4) (f : FabFrame) (m : LightMsg)   -- LIGHT, R374
  | memberLost (port : Fin 4) (f : FabFrame) (origin : Nat) (gen : Nat) (addr : BitVec 16)   -- MEMBER_LOST, R380
  | placeTimeout (member : BitVec 16)   -- PLACE_TIMEOUT, R380
  | rerun (port : Fin 4) (f : FabFrame)   -- RERUN, R370
  | place (port : Fin 4) (f : FabFrame)   -- PLACE, R377
  | move (port : Fin 4) (f : FabFrame)   -- MOVE, R378
  | keyRetire (port : Fin 4) (f : FabFrame) (tenant : Fin 9) (gen : Option Nat)   -- KEY_RETIRE, R461
  | keyRetireAck (port : Fin 4) (f : FabFrame) (tenant : Fin 9) (gen : Option Nat) (phase : Nat)   -- KEY_RETIRE_ACK, R461
  | fabricControlSend (port : Fin 4) (f : FabFrame)   -- FABRIC_CONTROL_SEND, R26
  | moorStart (by_ : Req)   -- MOOR_START, R372
  | routeCommit (by_ : Req)   -- ROUTE_COMMIT, R386
  | agconPortRestart (by_ : Req) (mask : Fin 16)   -- AGCON_PORT_RESTART, R369
  | aonReset   -- AON_RESET, R392
  | ringFrameRecord (samples : List Int)   -- RING_FRAME_RECORD, R401
  | aonRunStart (by_ : Req)   -- AON_RUN_START, R402
  | aonRunStop (by_ : Req)   -- AON_RUN_STOP, R400
  | aonLatch (by_ : Req)   -- AON_LATCH, R403
  | dspResetAssert (by_ : Req)   -- DSP_RESET_ASSERT, R394
  | dspResetRelease (by_ : Req)   -- DSP_RESET_RELEASE, R394
  | aonConfigWrite (by_ : Req) (reg : AonReg) (v : Word)   -- AON_CONFIG_WRITE, R400
  | ringGatedRead (by_ : Req) (off : Fin 0x600000) (n : Fin 4)   -- RING_GATED_READ, R404
  | aonPosLowRead (by_ : Req) (r : Fin 7)   -- AON_POS_LOW_READ, R416
  | gateServiceOpen (by_ : Req)   -- GATE_SERVICE_OPEN, R405
  | gateClose (by_ : Req)   -- GATE_CLOSE, R405
  | gateExpiry   -- GATE_EXPIRY, R405
  | candidateOpen (by_ : Req)   -- CANDIDATE_OPEN, R407
  | candidateClose (by_ : Req)   -- CANDIDATE_CLOSE, R407
  | candidateExpiry   -- CANDIDATE_EXPIRY, R407
  | wake (m : DspMsg)   -- WAKE, R408
  | event (m : DspMsg)   -- EVENT, R408
  | closed (m : DspMsg)   -- CLOSED, R408
  | wakeVerdict (number : BitVec 16) (confirmed : Bool)   -- WAKE_VERDICT, R408
  | dspPing   -- DSP_PING, R490
  | modeRequest (by_ : Req) (mode : Mode)   -- MODE_REQUEST, R409
  | modeTransitionComplete   -- MODE_TRANSITION_COMPLETE, R29
  | backgroundTrainingDone   -- BACKGROUND_TRAINING_DONE, R411
  | idleHoldExpiry   -- IDLE_HOLD_EXPIRY, R32
  | deferredDownTimeout   -- DEFERRED_DOWN_TIMEOUT, R410
  | csiFrameStart (port : Fin 4) (vc : Fin 4) (hdr : Fin 3) (number : BitVec 16)   -- CSI_FRAME_START, R430
  | csiFrameEnd (port : Fin 4) (vc : Fin 4) (hdr : Fin 3)   -- CSI_FRAME_END, R431
  | csiLinePacket (port : Fin 4) (vc : Fin 4) (hdr : Fin 3) (dt : Fin 64) (px : List Nat) (crcBad : Bool) (full : Bool)   -- CSI_LINE_PACKET, R432
  | csiShortPacketIgnored (port : Fin 4) (hdr : Fin 2)   -- CSI_SHORT_PACKET_IGNORED, R422
  | camFrameTimeout (ctx : Fin 16)   -- CAM_FRAME_TIMEOUT, R432
  | camFrameDone (ctx : Fin 16)   -- CAM_FRAME_DONE, R431
  | camBufferRelease (by_ : Req) (ctx : Fin 16) (mask : BitVec 16)   -- CAM_BUFFER_RELEASE, R430
  | camContextEnable (by_ : Req) (ctx : Fin 16) (v : Bool)   -- CAM_CONTEXT_ENABLE, R437
  | camParamHold (by_ : Req) (ctx : Fin 16) (v : Bool)   -- CAM_PARAM_HOLD, R433
  | camLowRate (by_ : Req) (v : Bool)   -- CAM_LOW_RATE, R424
  | camPortEnable (by_ : Req) (port : Fin 4) (v : Bool)   -- CAM_PORT_ENABLE, R436
  | secZeroiseAll (by_ : Req)   -- SEC_ZEROISE_ALL, R467
  | secOwnerUnlock (by_ : Req) (v : Bool)   -- SEC_OWNER_UNLOCK, R467
  | secRequest   -- SEC_REQUEST, R26
  | secResult   -- SEC_RESULT, R26
  | secRestart (header : List Byte)   -- SEC_RESTART, R458
  | trngHealthFail   -- TRNG_HEALTH_FAIL, R467
  | tenantDrainComplete (tenant : Fin 9)   -- TENANT_DRAIN_COMPLETE, R461
  | tenantScrubComplete (tenant : Fin 9)   -- TENANT_SCRUB_COMPLETE, R461
  | quenchAckTimeout (tenant : Fin 9) (member : BitVec 16)   -- QUENCH_ACK_TIMEOUT, R462
  | keeperRestart (ok : Bool)   -- KEEPER_RESTART, R480
  | alarmPath (cause : AlarmCause)   -- ALARM_PATH, R480
  | alarmForce (by_ : Req) (v : Word)   -- ALARM_FORCE, R493
  | healthMonitorSample   -- HEALTH_MONITOR_SAMPLE, R490
  | hbmPatrolScrub (corr uncorr : List Nat) (done : Nat)   -- HBM_PATROL_SCRUB, R481
  | deepPatrolScrub (item : Item) (reads : List DeepRead) (done : Nat)   -- DEEP_PATROL_SCRUB, R481
  | sramScrub (found : List (SramPlace × Bool))   -- SRAM_SCRUB, R481
  | scrubLate (deep : Bool)   -- SCRUB_LATE, R482
  | mramWearRemap (block : Fin 2048)   -- MRAM_WEAR_REMAP, R481
  | interfaceCalibration (ifc : Fin 10) (temp : Int)   -- INTERFACE_CALIBRATION, R484
  | monitorRecalibration (trims : List (Nat × List Byte))   -- MONITOR_RECALIBRATION, R481
  | selftestSlice (slice : Slice) (vdd : Nat) (pass : Bool)   -- SELFTEST_SLICE, R486
  | selftestDeferRetry (slice : Slice) (vdd : Nat) (pass : Bool)   -- SELFTEST_DEFER_RETRY, R485
  | coldStart (obs : StartObs)   -- COLD_START, R497
  | memoryTrainingDone (hbm : Bool)   -- MEMORY_TRAINING_DONE, R497
  | bootWatchdog   -- BOOT_WATCHDOG, R498
  | warmStart (obs : StartObs)   -- WARM_START, R503
  | logbookDropSummary   -- LOGBOOK_DROP_SUMMARY, R506
  | mainPgRise   -- MAIN_PG_RISE, R528
  | mainPgFall   -- MAIN_PG_FALL, R531
  | mainPgTimeout   -- MAIN_PG_TIMEOUT, R531
  | mainEnRetry   -- MAIN_EN_RETRY, R531
  | porstNAssert   -- PORST_N_ASSERT, R532
  | porstNRelease   -- PORST_N_RELEASE, R532
  | throttleNChange (low : Bool)   -- THROTTLE_N_CHANGE, R534
  | powerCapStep (p : Word) (temps : List Int)   -- POWER_CAP_STEP, R533
  | powerCapUnmet   -- POWER_CAP_UNMET, R534
  | thermalTrip   -- THERMAL_TRIP, R538
  | thermalTripRelease   -- THERMAL_TRIP_RELEASE, R538
  | thermalTripTimeout   -- THERMAL_TRIP_TIMEOUT, R538
  | sysTickRead (by_ : Req)   -- SYS_TICK_READ, R524
  | periOspiGo (by_ : Req) (v : Word)   -- PERI_OSPI_GO, R549
  | ospiWindowRead (by_ : Req) (off : BitVec 28)   -- OSPI_WINDOW_READ, R549
  | ospiCommandDone (data : List Byte) (ch : List (Nat × Byte))   -- OSPI_COMMAND_DONE, R549
  | ospiCommandTimeout   -- OSPI_COMMAND_TIMEOUT, R549
  | i2cTransfer (by_ : Req) (b : Fin 4) (v : Word)   -- I2C_TRANSFER, R550
  | i2cTransferDone (b : Fin 4) (sent : Nat) (data : List Byte) (nack arbLost : Bool)   -- I2C_TRANSFER_DONE, R550
  | i2cStretchTimeout (b : Fin 4) (sent : Nat) (data : List Byte)   -- I2C_STRETCH_TIMEOUT, R550
  | i2cFifoWrite (by_ : Req) (b : Fin 4) (v : Byte)   -- I2C_FIFO_WRITE, R550
  | i2cFifoRead (by_ : Req) (b : Fin 4)   -- I2C_FIFO_READ, R550
  | spiTransfer (by_ : Req) (b : Fin 2) (v : Word)   -- SPI_TRANSFER, R551
  | spiTransferDone (b : Fin 2) (data : List Byte)   -- SPI_TRANSFER_DONE, R551
  | spiFifoWrite (by_ : Req) (b : Fin 2) (v : Byte)   -- SPI_FIFO_WRITE, R551
  | spiFifoRead (by_ : Req) (b : Fin 2)   -- SPI_FIFO_READ, R551
  | gpioInterrupt (pin : Fin 16) (level : Bool)   -- GPIO_INTERRUPT, R552
  | uartDataWrite (by_ : Req) (v : Byte)   -- UART_DATA_WRITE, R552
  | uartDataRead (by_ : Req)   -- UART_DATA_READ, R552
  | uartRxByte (v : Byte)   -- UART_RX_BYTE, R552
  | queuedInstructionComplete (core : Fin 32) (element : Bool)   -- QUEUED_INSTRUCTION_COMPLETE, R89
  | hostLinkUp (port : Fin 2) (sqi : Fin 8)   -- HOST_LINK_UP, R329
  | hostFrameDropped (port : Fin 2) (cause : Fin 5)   -- HOST_FRAME_DROPPED, R327
  | agconFrameRejected (port : Fin 4) (cause : Fin 4)   -- AGCON_FRAME_REJECTED, R365
  | csiLaneStateChange (port : Fin 4) (st : Fin 4) (lanes : Fin 16)   -- CSI_LANE_STATE_CHANGE, R422
  | pcieLinkChange (up : Bool) (speed : Fin 4) (width : Fin 3)   -- PCIE_LINK_CHANGE, R293
  | uartTxByteDone   -- UART_TX_BYTE_DONE, R552
  | keyRewriteComplete (tenant : Fin 9)   -- KEY_REWRITE_COMPLETE, R460
  deriving DecidableEq, Repr

end Sys2Proof
end

