-- ==== Sys2Proof/Decode.lean ====
section
/-! DEFINITION. Sys2Proof/Decode.lean: the reading of a word by the table's bits.  spec/opcode_table.json gives no row any
bits, so no word spells a command.  (The fields of Kuner words, which the spec does give, are read in
Machine/Operands.lean from the word that a Kuner row carries.) -/

namespace Sys2Proof

/-- The command that a word spells by the bits of the opcode table: none, since every row's field list is empty. -/
def decodeTableWord (_nbits _w : Nat) : Option Instr := none

end Sys2Proof
end

