-- ==== Sys2Proof/Config.lean ====
section
/-! DEFINITION. Sys2Proof/Config.lean: what the spec leaves open and the model leaves free.  Each constant has no
body: no proof can know its value (log 3).  The first argument `c` of most is `State.freeCtr`, which the step
that uses the value advances, so that each use is a fresh value. -/

namespace Sys2Proof.Config

/-- Which of the old (false) and new (true) content of a 64 B line an access sees that overlaps another
access without order (R91, R173). -/
opaque lineMix (c : Nat) (line : Nat) : Bool

/-- The element functions within their accuracy (R150): the same input gives the same bits on every core
(R151), but which value within the stated accuracy is not given (`near` keeps to the accuracy). -/
opaque exp2F (x : Word) : Word
/-- EXP (R150). -/
opaque expF (x : Word) : Word
/-- LOG2 (R150). -/
opaque log2F (x : Word) : Word
/-- RSQRT of −0, which R150 does not give. -/
opaque rsqrtNegZero : Word
/-- SIGMOID (R150). -/
opaque sigmoidF (x : Word) : Word
/-- TANH (R150). -/
opaque tanhF (x : Word) : Word
/-- SILU (R150). -/
opaque siluF (x : Word) : Word
/-- GELU (R150). -/
opaque geluF (x : Word) : Word

/-- The correctly rounded reciprocal of x plus this many ulps, clipped to -1, 0, 1, is RCP(x) (R150: at most 1 ulp). -/
opaque rcpUlp (x : Word) : Int
/-- The same for RSQRT. -/
opaque rsqrtUlp (x : Word) : Int
/-- Which of two zeros of different sign MIN and MAX give (R149 does not say). -/
opaque zeroPick (isMax : Bool) (a b : Word) : Bool
/-- |a| and −a of the least I32 value (R149 does not say). -/
opaque i32Edge (op : Nat) : Word

/-- A 32-bit value that the spec leaves open. -/
opaque freeWord (c : Nat) : Word
/-- A number that the spec leaves open. -/
opaque freeNat (c : Nat) : Nat
/-- A truth value that the spec leaves open. -/
opaque freeBool (c : Nat) : Bool

/-- The tensor whose saturations a slot of a program counts, by model key, program and slot; the image's declarations
name it in a layout that the spec does not give (R61, R62). -/
opaque slotTensor (model program slot : Nat) : Nat
/-- Does a slot of a program count ESMX flushes (R154)? -/
opaque slotFlush (model program slot : Nat) : Bool

/-- The scale of a tensor in a model's image section 0x06, by model key and tensor (R53, R62, R284). -/
opaque imageScale (model tensor : Nat) : Word
/-- The tensor whose A16 values a resident row of a queue on a core holds, by model key, core and row (R64). -/
opaque rowTensor (model core row : Nat) : Nat
/-- The tensors of the staged keys and values of layer and head k (R181). -/
opaque keyTensor (model k : Nat) : Nat
/-- The tensor of a stream model's input ring frames (R218, R220). -/
opaque ringTensor (model : Nat) : Nat
/-- The tensor of the staged values of layer and head k (R181). -/
opaque valueTensor (model k : Nat) : Nat
/-- The tiles in HBM outside rows, slots and rings that hold A16 values of a tensor between jobs (carry buffers, initial
states): payload address, tag address and number of values (R64, R220). -/
opaque tensorTiles (model tensor : Nat) : List (Nat × Nat × Nat)
/-- Which sealing command of a job seals a page, of n commands (R190): by model, job kind, k and page index. -/
opaque sealer (model kind k ix n : Nat) : Nat
/-- What the codec makes of a block, in bytes (R269). -/
opaque codecLen (block : List Byte) : Nat

/-- What LOAD_MODEL finds in the sections whose layout the spec does not give (tap tables, scales, declarations): 2, 3 or
4 refuses the image with that detail (R231, R350). -/
opaque imageVerdict (image : List Byte) : Nat
/-- Load report entries on channels, scales and forget values (R345): type, tensor, channel or layer, value. -/
opaque reportEntries (image : List Byte) : List (Nat × Nat × Nat × Nat)
/-- An object of BF16 weights after WQUANT has converted it at load (R58, R284). -/
opaque quantised (bytes : List Byte) : List Byte

/-- Positions that the payload of an input tile of an INVOKE holds (R296, R341). -/
opaque positionsIn (payload : List Byte) : Nat
/-- Resident rows per stream, r of R209, and Plivel's T of R217, of a model; its declarations hold them in a layout that the
spec does not give. -/
opaque streamRows (model : Nat) : Nat
/-- T. -/
opaque streamSteps (model : Nat) : Nat

/-- Does the Beacon stage use a camera context (R424)? -/
opaque beaconContext (x : Nat) : Bool

/-- SHA-512. -/
opaque sha512 (m : List Byte) : BitVec 512
/-- The layer of an image that object n belongs to, and the credits per route that Plivel declares for it (R376); its declarations
hold them in a layout that the spec does not give. -/
opaque layerOf (image : List Byte) (n : Nat) : Nat
/-- The credits. -/
opaque creditNeed (image : List Byte) : Nat
/-- Does a blob decrypt under the private half of a public key (RSA-OAEP) to a 32-byte CAK and a 16-byte CKN (R455)? -/
opaque oaepOk (pub blob : List Byte) : Bool
/-- The 512 bytes of an RSASSA-PSS signature by the private half of a public key (R453). -/
opaque sign (pub m : List Byte) : BitVec 4096
/-- The public half of a key pair that SEC generates (R449): 516 bytes, the modulus and the exponent. -/
opaque newKeyPair (c : Nat) : BitVec 4128
/-- Does an RSASSA-PSS signature over m verify under a modulus (R442, R444)? -/
opaque rsaOk (modulus m sig : List Byte) : Bool

end Sys2Proof.Config
end

