-- ==== Sys2Proof/Machine/Ops.lean ====
section
/-! DEFINITION. Sys2Proof/Machine/Ops.lean: bit fields, the sparse map, device memory as a canonical
list of bytes, little-endian access (R7), CRC-32C, and small list operations shared by every family. -/

namespace Sys2Proof.Machine

/-- Bits [hi:lo] of a word as a number (R5). -/
def bits (w : Nat) (hi lo : Nat) : Nat := (w >>> lo) % 2 ^ (hi + 1 - lo)

/-- Bit k of a word (R5). -/
def bitOf (w : Nat) (k : Nat) : Bool := w.testBit k

/-- The w with its bits [hi:lo] replaced by v. -/
def setBits (w : Nat) (hi lo : Nat) (v : Nat) : Nat :=
  let m := 2 ^ (hi + 1 - lo)
  w - (bits w hi lo) * 2 ^ lo + (v % m) * 2 ^ lo

/-- A number as a word, modulo 2^32. -/
def word (n : Nat) : Word := BitVec.ofNat 32 n

/-- 1 or 0 of a truth value. -/
def b2n (b : Bool) : Nat := if b then 1 else 0

/-- Two's-complement reading of the low n bits of w. -/
def signed (n : Nat) (w : Nat) : Int :=
  let v := w % 2 ^ n
  if v < 2 ^ (n - 1) then (v : Int) else (v : Int) - 2 ^ n

/-- The low n bits of an integer as an unsigned number. -/
def unsigned (n : Nat) (x : Int) : Nat := (x % (2 ^ n : Int)).toNat

/-- A count that stops at 0xFFFF_FFFF (R22, R61, R95 and the other saturating counters). -/
def satAdd (w : Word) (n : Nat) : Word := word (min (w.toNat + n) 0xFFFFFFFF)

/-! ### The sparse map -/

/-- The value under key k, if listed. -/
def SMap.get? {α : Type} : SMap α → Nat → Option α
  | [], _ => none
  | (k, v) :: r, x => if x = k then some v else if x < k then none else SMap.get? r x

/-- The value under key k, or d. -/
def SMap.getD {α : Type} (m : SMap α) (k : Nat) (d : α) : α := (SMap.get? m k).getD d

/-- Put v under key k, keeping the keys strictly rising. -/
def SMap.set {α : Type} : SMap α → Nat → α → SMap α
  | [], x, v => [(x, v)]
  | (k, w) :: r, x, v =>
    if x < k then (x, v) :: (k, w) :: r
    else if x = k then (x, v) :: r
    else (k, w) :: SMap.set r x v

/-- Drop key k. -/
def SMap.erase {α : Type} : SMap α → Nat → SMap α
  | [], _ => []
  | (k, w) :: r, x =>
    if x < k then (k, w) :: r
    else if x = k then r
    else (k, w) :: SMap.erase r x

/-- Put v under key k where d is what an unlisted key reads as: writing d drops the key. -/
def SMap.put {α : Type} [DecidableEq α] (m : SMap α) (k : Nat) (v d : α) : SMap α :=
  if v = d then SMap.erase m k else SMap.set m k v

/-- Change the value under key k, where listed. -/
def SMap.modify {α : Type} (m : SMap α) (k : Nat) (f : α → α) : SMap α :=
  match SMap.get? m k with
  | some v => SMap.set m k (f v)
  | none => m

/-- The first number not below lo and below lo + n that is not a key (lowest free number). -/
def SMap.firstFree {α : Type} (m : SMap α) (lo : Nat) : Nat → Option Nat
  | 0 => none
  | n + 1 => match SMap.get? m lo with
    | none => some lo
    | some _ => SMap.firstFree m (lo + 1) n

/-- Keys strictly rising and all at least lo. -/
def SMap.sortedFrom {α : Type} : Nat → SMap α → Bool
  | _, [] => true
  | lo, (k, _) :: r => decide (lo ≤ k) && SMap.sortedFrom (k + 1) r

/-- The canonical form of a sparse map: keys strictly rising. -/
def SMap.wf {α : Type} (m : SMap α) : Bool := SMap.sortedFrom 0 m

/-! ### Device memory -/

/-- What a byte that nothing has written reads as.  DESIGN CHOICE (log 4): the spec gives RAM no
contents after power-on; the model fixes 0.  Claims must not rest on it. -/
def unlistedByte : Byte := 0

/-- Memory: bytes by 48-bit device address (R19), keys rising, no byte equal to `unlistedByte` listed. -/
abbrev Memory := List Host.Cell

/-- The byte at an address. -/
def Memory.read (m : Memory) (a : Nat) : Byte := SMap.getD m a unlistedByte

/-- Write one byte, keeping the canonical form. -/
def Memory.write (m : Memory) (a : Nat) (b : Byte) : Memory := SMap.put m a b unlistedByte

/-- n bytes from address a, in rising address order. -/
def Memory.readBytes (m : Memory) (a : Nat) : Nat → List Byte
  | 0 => []
  | n + 1 => Memory.read m a :: Memory.readBytes m (a + 1) n

/-- Write bytes at rising addresses from a. -/
def Memory.writeBytes (m : Memory) (a : Nat) : List Byte → Memory
  | [] => m
  | b :: r => Memory.writeBytes (Memory.write m a b) (a + 1) r

/-- Write the bytes of a sparse list of cells. -/
def Memory.writeCells (m : Memory) : List Host.Cell → Memory
  | [] => m
  | (a, b) :: r => Memory.writeCells (Memory.write m a b) r

/-- Drop every byte whose address is in [lo, hi): the bytes read `unlistedByte` (a scrub to zero). -/
def Memory.clear (m : Memory) (lo hi : Nat) : Memory :=
  m.filter fun c => !(decide (lo ≤ c.1) && decide (c.1 < hi))

/-- The canonical form of memory: addresses strictly rising, no listed byte equal to `unlistedByte`. -/
def Memory.wf (m : Memory) : Bool := SMap.wf m && m.all fun c => c.2 != unlistedByte

/-- The number that little-endian bytes spell (R7). -/
def leNat : List Byte → Nat
  | [] => 0
  | b :: r => b.toNat + 256 * leNat r

/-- The n little-endian bytes of a number (R7). -/
def leBytes : Nat → Nat → List Byte
  | 0, _ => []
  | n + 1, v => BitVec.ofNat 8 v :: leBytes n (v / 256)

/-- A little-endian field of n bytes at address a (R7). -/
def Memory.le (m : Memory) (a n : Nat) : Nat := leNat (Memory.readBytes m a n)

/-- Write an n-byte little-endian field at address a (R7). -/
def Memory.setLe (m : Memory) (a n v : Nat) : Memory := Memory.writeBytes m a (leBytes n v)

/-! ### CRC-32C -/

/-- One bit of the reflected CRC-32C division (polynomial 0x82F6_3B78, the reflection of 0x1EDC_6F41). -/
def crcBit (c : Nat) : Nat := if c % 2 = 1 then (c / 2) ^^^ 0x82F63B78 else c / 2

/-- One byte of CRC-32C. -/
def crcByte (c : Nat) (b : Byte) : Nat :=
  let c := c ^^^ b.toNat
  crcBit (crcBit (crcBit (crcBit (crcBit (crcBit (crcBit (crcBit c)))))))

/-- CRC-32C of bytes: initial value and final inversion 0xFFFF_FFFF (R69). -/
def crc32c (bs : List Byte) : Word := word ((bs.foldl crcByte 0xFFFFFFFF) ^^^ 0xFFFFFFFF)

/-! ### Lists -/

/-- The list with element k replaced by v. -/
def setAt {α : Type} : List α → Nat → α → List α
  | [], _, _ => []
  | _ :: r, 0, v => v :: r
  | a :: r, k + 1, v => a :: setAt r k v

/-- The list with element k changed by f. -/
def modAt {α : Type} : List α → Nat → (α → α) → List α
  | [], _, _ => []
  | a :: r, 0, f => f a :: r
  | a :: r, k + 1, f => a :: modAt r k f

/-- The numbers lo, lo + 1, ..., lo + n - 1. -/
def span (lo : Nat) : Nat → List Nat
  | 0 => []
  | n + 1 => lo :: span (lo + 1) n

/-- The list without its first element equal to a. -/
def dropFirst {α : Type} [DecidableEq α] (l : List α) (a : α) : List α := l.erase a

/-- The number with exactly the bits set that f names, below n. -/
def maskOf (n : Nat) (f : Nat → Bool) : Nat :=
  (span 0 n).foldl (fun acc k => if f k then acc + 2 ^ k else acc) 0

/-- How many bits below n are set in m. -/
def popcount (n m : Nat) : Nat := ((span 0 n).filter fun k => m.testBit k).length

/-- Insert before the first element that does not precede a. -/
def insertBy {α : Type} (le : α → α → Bool) (a : α) : List α → List α
  | [] => [a]
  | b :: r => if le a b then a :: b :: r else b :: insertBy le a r

/-- A stable sort. -/
def sortBy {α : Type} (le : α → α → Bool) (l : List α) : List α := l.foldr (insertBy le) []

/-- Integer division rounding up. -/
def ceilDiv (a b : Nat) : Nat := (a + b - 1) / b

/-- x rounded up to a multiple of a. -/
def alignUp (x a : Nat) : Nat := ceilDiv x a * a

end Sys2Proof.Machine
end

