-- ==== Sys2Proof/Machine/Num.lean ====
section
/-! DEFINITION. Sys2Proof/Machine/Num.lean: the number formats and conversions of chapter 02 (R38 to R64):
the helper functions, F32 and BF16 arithmetic exactly and rounded once, weight and KV encoding, requantisation. -/

namespace Sys2Proof.Machine

/-- An exact rational: num / den, den positive. -/
structure Q where
  num : Int
  den : Nat
  deriving DecidableEq, Repr

/-- An integer as a rational. -/
def Q.ofInt (n : Int) : Q := ⟨n, 1⟩
/-- Exact sum. -/
def Q.add (a b : Q) : Q := ⟨a.num * b.den + b.num * a.den, a.den * b.den⟩
/-- Exact difference. -/
def Q.sub (a b : Q) : Q := ⟨a.num * b.den - b.num * a.den, a.den * b.den⟩
/-- Exact product. -/
def Q.mul (a b : Q) : Q := ⟨a.num * b.num, a.den * b.den⟩
/-- Exact quotient; the divisor is not 0 where this is used. -/
def Q.div (a b : Q) : Q :=
  if b.num < 0 then ⟨-(a.num * b.den), a.den * b.num.natAbs⟩ else ⟨a.num * b.den, a.den * b.num.natAbs⟩
/-- a < b, exactly. -/
def Q.lt (a b : Q) : Bool := decide (a.num * b.den < b.num * a.den)
/-- a ≤ b, exactly. -/
def Q.le (a b : Q) : Bool := decide (a.num * b.den ≤ b.num * a.den)
/-- The value of 2^e. -/
def Q.pow2 (e : Int) : Q := if 0 ≤ e then ⟨2 ^ e.toNat, 1⟩ else ⟨1, 2 ^ (-e).toNat⟩

/-- R38 rne of n / d: the nearest integer, ties to the even integer. -/
def rneDiv (n : Int) (d : Nat) : Int :=
  let f := n / (d : Int)
  let r := n % (d : Int)
  if 2 * r > d ∨ (2 * r = d ∧ f % 2 = 1) then f + 1 else f

/-- R38 rne of an exact rational. -/
def rne (x : Q) : Int := rneDiv x.num x.den

/-- R38 shr_rne(x, n). -/
def shrRne (x : Int) (n : Int) : Int :=
  if n ≤ 0 then x * 2 ^ (-n).toNat else rneDiv x (2 ^ n.toNat)

/-- R38 clamp. -/
def clampI (x lo hi : Int) : Int := if x < lo then lo else if x > hi then hi else x

/-- R38 sat16. -/
def sat16 (x : Int) : Int := clampI x (-32768) 32767

/-- R38 zp_sub. -/
def zpSub (code zp : Int) : Int := code - zp

/-- R38 blk_shift. -/
def blkShift (p : Int) (s : Nat) : Int := p * 2 ^ s

/-- The ACC48 bounds (R52). -/
def accMin : Int := -(2 ^ 47)
/-- The largest ACC48 value (R52). -/
def accMax : Int := 2 ^ 47 - 1

/-- R46: an accumulator that passes the range holds the saturated bound; the flag says that it did. -/
def accAdd (acc term : Int) : Int × Bool :=
  let x := acc + term
  (clampI x accMin accMax, decide (x < accMin ∨ x > accMax))

/-! ### F32 and BF16 (R48) -/

/-- The canonical NaN (R48). -/
def f32NaN : Word := 0x7FC00000
/-- +1.0. -/
def f32One : Word := 0x3F800000
/-- Sign bit. -/
def f32Neg (w : Word) : Bool := w.toNat.testBit 31
/-- Exponent field. -/
def f32Exp (w : Word) : Nat := bits w.toNat 30 23
/-- Fraction field. -/
def f32Frac (w : Word) : Nat := bits w.toNat 22 0
/-- Is w a NaN? -/
def f32IsNaN (w : Word) : Bool := f32Exp w == 255 && f32Frac w != 0
/-- Is w an infinity? -/
def f32IsInf (w : Word) : Bool := f32Exp w == 255 && f32Frac w == 0
/-- Is w read as zero?  A subnormal input is read as zero of the same sign (R48). -/
def f32IsZero (w : Word) : Bool := f32Exp w == 0
/-- Is w positive, finite and normal (R42, R47)? -/
def f32PosNormal (w : Word) : Bool := !f32Neg w && decide (0 < f32Exp w) && decide (f32Exp w < 255)
/-- The zero of a sign. -/
def f32Zero (neg : Bool) : Word := if neg then 0x80000000 else 0
/-- The infinity of a sign. -/
def f32Inf (neg : Bool) : Word := if neg then 0xFF800000 else 0x7F800000

/-- The exact value of a finite F32, subnormals read as zero (R48). -/
def f32Q (w : Word) : Q :=
  if f32IsZero w then ⟨0, 1⟩
  else
    let m : Int := ((2 ^ 23 + f32Frac w : Nat) : Int)
    Q.mul ⟨if f32Neg w then -m else m, 1⟩ (Q.pow2 ((f32Exp w : Int) - 150))

/-- Bits [30:0] of the F32 nearest to n / d, ties to even; a subnormal result is zero (R48), an
overflow is the infinity.  The result is rounded as IEEE 754 rounds it and flushed if it is then
subnormal (DEDUCED, log 5). -/
def f32RoundMag (n d : Nat) : Nat :=
  if n = 0 then 0
  else
    let l : Int := (Nat.log2 n : Int) - (Nat.log2 d : Int)
    let ge : Bool := if 0 ≤ l then decide (d * 2 ^ l.toNat ≤ n) else decide (d ≤ n * 2 ^ (-l).toNat)
    let e : Int := if ge then l else l - 1
    if e < -126 then
      let m := (rneDiv ((n * 2 ^ 149 : Nat) : Int) d).toNat
      if m ≥ 2 ^ 23 then 2 ^ 23 else 0
    else
      let s : Int := 23 - e
      let m := if 0 ≤ s then (rneDiv ((n * 2 ^ s.toNat : Nat) : Int) d).toNat
        else (rneDiv (n : Int) (d * 2 ^ (-s).toNat)).toNat
      let v := ((e + 127).toNat) * 2 ^ 23 + (m - 2 ^ 23)
      if v ≥ 0x7F800000 then 0x7F800000 else v

/-- F32(x): the exact value rounded once; an exact zero takes the sign given. -/
def f32Of (x : Q) (negZero : Bool := false) : Word :=
  if x.num = 0 then f32Zero negZero
  else
    let m := f32RoundMag x.num.natAbs x.den
    word (if x.num < 0 then m + 2 ^ 31 else m)

/-- F32 negation: the sign bit flipped; a NaN stays the canonical NaN (R48). -/
def f32NegOp (a : Word) : Word :=
  if f32IsNaN a then f32NaN
  else if f32IsZero a then f32Zero (!f32Neg a) else a ^^^ 0x80000000

/-- F32 magnitude. -/
def f32Abs (a : Word) : Word :=
  if f32IsNaN a then f32NaN else if f32IsZero a then 0 else a &&& 0x7FFFFFFF

/-- An F32 operand passed through unchanged but for R48: subnormals to zero, NaN canonical. -/
def f32Canon (a : Word) : Word :=
  if f32IsNaN a then f32NaN else if f32IsZero a then f32Zero (f32Neg a) else a

/-- F32 sum (R48). -/
def f32Add (a b : Word) : Word :=
  if f32IsNaN a || f32IsNaN b then f32NaN
  else if f32IsInf a then (if f32IsInf b && f32Neg a != f32Neg b then f32NaN else a)
  else if f32IsInf b then b
  else f32Of (Q.add (f32Q a) (f32Q b)) (f32IsZero a && f32IsZero b && f32Neg a && f32Neg b)

/-- F32 difference (R48). -/
def f32Sub (a b : Word) : Word := if f32IsNaN b then f32NaN else f32Add a (f32NegOp b)

/-- F32 product (R48). -/
def f32Mul (a b : Word) : Word :=
  let neg := f32Neg a != f32Neg b
  if f32IsNaN a || f32IsNaN b then f32NaN
  else if f32IsInf a || f32IsInf b then
    (if f32IsZero a || f32IsZero b then f32NaN else f32Inf neg)
  else f32Of (Q.mul (f32Q a) (f32Q b)) neg

/-- F32 quotient (R48). -/
def f32Div (a b : Word) : Word :=
  let neg := f32Neg a != f32Neg b
  if f32IsNaN a || f32IsNaN b then f32NaN
  else if f32IsInf a then (if f32IsInf b then f32NaN else f32Inf neg)
  else if f32IsInf b then f32Zero neg
  else if f32IsZero b then (if f32IsZero a then f32NaN else f32Inf neg)
  else f32Of (Q.div (f32Q a) (f32Q b)) neg

/-- The exact value of a F32 that is not a NaN, an infinity as a value beyond every finite one. -/
def f32Ext (a : Word) : Q :=
  if f32IsInf a then ⟨if f32Neg a then -(2 ^ 200) else 2 ^ 200, 1⟩ else f32Q a

/-- a < b as values; false if either is a NaN. -/
def f32Lt (a b : Word) : Bool := !f32IsNaN a && !f32IsNaN b && Q.lt (f32Ext a) (f32Ext b)

/-- BF16 to F32: append 16 zero bits (R48). -/
def bf16ToF32 (h : Nat) : Word := word ((h % 65536) * 65536)

/-- F32 to BF16: nearest even on the 16 discarded bits, NaN to 0x7FC0 (R48). -/
def f32ToBf16 (w : Word) : Nat :=
  if f32IsNaN w then 0x7FC0
  else if f32IsZero w then (if f32Neg w then 0x8000 else 0)
  else (rneDiv (w.toNat : Int) 65536).toNat

/-- R49: x enters A16 through the stored reciprocal r; the flag counts a saturation. -/
def toA16 (x r : Word) : Int × Bool :=
  if f32IsNaN x || f32IsNaN r then (0, true)
  else if f32IsInf x || (f32IsInf r && !f32IsZero x) then (if f32Neg x != f32Neg r then -32768 else 32767, true)
  else if f32IsInf r then (0, true)
  else
    let q := rne (Q.mul (f32Q x) (f32Q r))
    (sat16 q, decide (sat16 q ≠ q))

/-- R50: A16 leaves as F32(S_a × q). -/
def ofA16 (scale : Word) (q : Int) : Word := f32Mul scale (f32Of (Q.ofInt q))

/-! ### Requantisation (R53, R54) -/

/-- R54: (out, residual extension, saturated, |q|). -/
def requantise (acc : Int) (m : Nat) (n : Int) (carry : Bool) (e : Int) : Int × Int × Bool × Nat :=
  let x0 := acc * (m : Int)
  let x := if carry && decide (n ≥ 8) then x0 + e * 2 ^ (n - 8).toNat else x0
  let q := shrRne x n
  let out := sat16 q
  let sat := decide (out ≠ q)
  let e' := if carry then
      if sat || decide (n < 8) then 0
      else clampI (shrRne (x - q * 2 ^ n.toNat) (n - 8)) (-128) 127
    else e
  (out, e', sat, q.natAbs)

/-- The significand of a requantisation word (R53). -/
def rqSig (w : Word) : Nat := bits w.toNat 31 8
/-- The shift of a requantisation word, two's complement (R53). -/
def rqShift (w : Word) : Int := signed 8 w.toNat

/-- R53: the requantisation word of S_c, S_a and S_o. -/
def rqWord (sc sa so : Word) : Word :=
  let m := f32Div (f32Mul sc sa) so
  if f32IsZero m then 0
  else if f32IsInf m then 0xFFFFFFF8
  else
    let n := clampI (23 - ((f32Exp m : Int) - 127)) (-8) 127
    word ((2 ^ 23 + f32Frac m) * 256 + unsigned 8 n)

/-! ### Encoding (R57 to R59) -/

/-- One encoded block or channel part: zero point, block shift, codes. -/
structure EncBlock where
  zp : Nat
  shift : Nat
  codes : List Nat
  deriving DecidableEq, Repr

/-- R59: the constant encoding of n elements of value c: block and scale. -/
def constEncode (w8 : Bool) (c : Word) (n : Nat) : EncBlock × Word :=
  let zp := if w8 then 128 else 8
  if f32IsZero c then (⟨zp, 0, List.replicate n zp⟩, f32One)
  else (⟨zp, 0, List.replicate n (if f32Neg c then zp - 1 else zp + 1)⟩, f32Abs c)

/-- The least of a list of integers and 0 (R57). -/
def minZ (l : List Int) : Int := l.foldl min 0
/-- The greatest of a list of integers and 0 (R57). -/
def maxZ (l : List Int) : Int := l.foldl max 0

/-- Are all elements equal? -/
def allSame {α : Type} [DecidableEq α] : List α → Bool
  | [] => true
  | a :: r => r.all (· = a)

/-- R57: quantise one complete KV block from its A16 staging values. -/
def kvEncode (kv8 : Bool) (sa : Word) (qs : List Int) : EncBlock × Word :=
  if allSame qs then constEncode kv8 (ofA16 sa (qs.headD 0)) qs.length
  else
    let l : Nat := if kv8 then 255 else 15
    let lo := minZ qs
    let hi := maxZ qs
    let t := f32Of ⟨hi - lo, l⟩
    let tq := f32Q t
    let zp := clampI (rne (Q.div (Q.ofInt (-lo)) tq)) 0 l
    let codes := qs.map fun q => (clampI (rne (Q.div (Q.ofInt q) tq) + zp) 0 l).toNat
    (⟨zp.toNat, 0, codes⟩, f32Mul sa t)

/-- The least of F32 values and 0, exactly. -/
def qMinZ (l : List Q) : Q := l.foldl (fun a b => if Q.lt b a then b else a) ⟨0, 1⟩
/-- The greatest of F32 values and 0, exactly. -/
def qMaxZ (l : List Q) : Q := l.foldl (fun a b => if Q.lt a b then b else a) ⟨0, 1⟩

/-- R58: the smallest shift s in 0 to 7 with r ≤ F32(L × S) × 2^s, else 7; tried from s, k times. -/
def wShift (r ls : Q) (s : Nat) : Nat → Nat
  | 0 => 7
  | k + 1 => if Q.le r (Q.mul ls (Q.pow2 s)) then s else wShift r ls (s + 1) k

/-- R58: the channel scale S = F32(R / (L × 128)) of the block ranges. -/
def wScale (w8 : Bool) (ranges : List Q) : Word :=
  let l : Nat := if w8 then 255 else 15
  f32Of (Q.div (qMaxZ ranges) (Q.ofInt (l * 128 : Nat)))

/-- R58: encode one block of a channel of scale S. -/
def wEncodeBlock (w8 : Bool) (s : Word) (ws : List Word) : EncBlock :=
  let l : Nat := if w8 then 255 else 15
  let qs := ws.map f32Q
  let lo := qMinZ qs
  let hi := qMaxZ qs
  let r := Q.sub hi lo
  let ls := f32Q (f32Of (Q.mul (Q.ofInt l) (f32Q s)))
  let sh := wShift r ls 0 8
  let step := Q.mul (f32Q s) (Q.pow2 sh)
  let zp := clampI (rne (Q.div (Q.sub ⟨0, 1⟩ lo) step)) 0 l
  ⟨zp.toNat, sh, qs.map fun w => (clampI (rne (Q.div w step) + zp) 0 l).toNat⟩

/-- R41: pad a block to 32 codes with its zero point. -/
def padBlock (b : EncBlock) : EncBlock :=
  { b with codes := b.codes ++ List.replicate (32 - b.codes.length) b.zp }

/-- R64: k = ceil(log2(max_mag / 32,767)), at least 1; tried from k, n times. -/
def widenBy (maxMag k : Nat) : Nat → Nat
  | 0 => k
  | n + 1 => if maxMag ≤ 32767 * 2 ^ k then k else widenBy maxMag (k + 1) n

end Sys2Proof.Machine
end

