-- ==== Sys2Proof/Machine/State.lean ====
section
/-! DEFINITION. Sys2Proof/Machine/State.lean: the state of the block as plain data, every piece that the spec gives
it, with its reset value as the field's default, and the state after reset.  Numbers that the spec holds in a
bounded field are kept in Nat where the device counts with them and in a BitVec where software reads them as a
word.  A map lists only what differs from its default, in rising key order (Machine/Ops.lean). -/

namespace Sys2Proof.Machine

/-- A fault of the block.  Nothing in the spec stops the block without a next state: command faults, bus
errors, boot failures and alarms are states.  No meaning raises it. -/
inductive Fault where
  /-- Kept so that the type is inhabited; raised by nothing; safe. -/
  | none
  deriving DecidableEq, Repr

/-- Why a command has no outcome. -/
inductive Refusal where
  /-- The row has no meaning yet; raised by the dispatch alone; safe. -/
  | notModelled (mnemonic : String)
  /-- The operands do not spell the row's command (a Kuner word of another row, a register that the row does
  not write): `WellFormed` says when; raised by the meanings; safe. -/
  | illFormed
  deriving DecidableEq, Repr

/-- What the last bus access answered (R20). -/
inductive Resp where
  | none
  | ok
  | data (w : Word)
  | busError
  deriving DecidableEq, Repr

/-- An interrupt or doorbell that the block raised (R23, R24 and the chapters that name interrupts). -/
inductive Irq where
  | doorbell (target : Req) (mailbox : Nat)   -- a message arrived (R23)
  | taken (target : Req) (mailbox : Nat)      -- the receiver took it (R24)
  | senderFault                               -- MBX_FAULT became valid: Keeper hart 0 (R23)
  | camera                                    -- CAM_STATUS.frame_done (R431, R435)
  | gpio (pin : Nat)                          -- R552
  | i2c (ctl : Nat)                           -- R550
  | spi (ctl : Nat)                           -- R551
  | msix (vector : Nat)                       -- R292
  | aonMode                                   -- mode change seen by Keeper (R409)
  | wakeLine                                  -- NMI or power warnings (R531)
  deriving DecidableEq, Repr

/-! ### Mailboxes (chapter 01, R22 to R26, R464, R465) -/

/-- A message that a hardware sender holds until its mailbox is free (R25). -/
structure HeldMsg where
  sender : Nat
  mailbox : Nat
  words : List Word
  deriving DecidableEq, Repr

/-- The mailbox block.  Word w of mailbox m is key 8m + w; unlisted words read 0 (DESIGN CHOICE, log 6: the
spec gives MBX_WORD no reset value). -/
structure Mbx where
  words : SMap Word := []
  full : BitVec 128 := 0
  lock : BitVec 128 := 0
  senderMask : SMap (BitVec 64) := []
  recv : SMap Word := []
  fault : Word := 0
  faultCount : Word := 0
  held : List HeldMsg := []
  deriving DecidableEq, Repr

/-! ### Compute cores (chapters 02 to 05) -/

/-- CORE_STATUS.state (R96). -/
inductive CoreSt where
  | off | idle | running | stopping | retired | held
  deriving DecidableEq, Repr

/-- Which queued instruction an entry is (R136). -/
inductive QOp where
  | mwl | mma | mmas | macc | kapp | kseal | kmap
  | eop | erq | esmx | enorm | egate | escan | ered | wquant
  | tld | tst | tpf | tchk | csend | crecv | lsend | lrecv
  deriving DecidableEq, Repr

/-- One entry of an issue queue, with what it captured at issue (R88). -/
structure QEntry where
  op : QOp
  w : BitVec 64
  pc : Nat
  v0 : Nat := 0          -- captured scalar values
  v1 : Nat := 0
  v2 : Nat := 0
  seq : Nat := 0         -- program order within the core
  bank : Nat := 0        -- weight bank of MWL, MMA, MMAS (R80)
  discard : Bool := false        -- the command ended while the transfer was in the mesh (R98)
  old : List Host.Cell := []     -- scratchpad bytes as they were before this entry changed them (R91)
  mrk : Bool := false    -- KSEAL or CKPT: rows read, writes not yet acknowledged (R143)
  deriving DecidableEq, Repr

/-- One accumulator row that is not clean: 128 ACC48 values and 128 residual extensions (R52, R84). -/
structure AccRow where
  acc : List Int
  ext : List Int
  deriving DecidableEq, Repr

/-- A filled weight bank: the format field of MWL, the codes and the metadata bytes by offset (R71, R74, R138). -/
structure Bank where
  fmt : Nat
  codes : List Host.Cell
  metad : List Host.Cell
  deriving DecidableEq, Repr

/-- A saturation counter slot (R61). -/
structure SatSlot where
  satCount : Word := 0
  elems : Word := 0
  maxMag : Word := 0
  deriving DecidableEq, Repr

/-- An active hardware loop: counter, body range of program addresses, iterations left after this one (R122). -/
structure LoopAct where
  ln : Nat
  start : Nat
  stop : Nat             -- program address after the last body instruction
  left : Nat
  deriving DecidableEq, Repr

/-- How a command is ending (R131, R135). -/
inductive Ending where
  | clean | fault | stop
  deriving DecidableEq, Repr

/-- One compute core (R65, R95, R108).  Resets are those of R66 and R95 to R102; CORE_CMD_* and the cycle counters
have none given and read 0 (DESIGN CHOICE, log 7). -/
structure Core where
  st : CoreSt := .off
  enable : Bool := false          -- CORE_CTRL fields in force (R97)
  retire : Bool := false
  bistHold : Bool := false
  shEnable : Bool := false        -- their shadows: the values last written (R9, R10)
  shRetire : Bool := false
  shBistHold : Bool := false
  clearPending : Bool := false    -- clear_resident written, core not idle yet
  cmdId : Word := 0
  cmdQueue : Word := 0
  cmdBudget : Word := 0
  cmdStart : Nat := 0             -- device tick at command start; CORE_CMD_START shows bits [31:0]
  cycTotal : Word := 0
  cycShared : Word := 0
  cycWeightWait : Word := 0
  cycBankConflict : Word := 0
  stallCause : Word := 0
  fault : Word := 0
  faulted : Bool := false         -- the running command has recorded a fault
  faultPc : Word := 0
  faultAddr : Nat := 0
  eccCorr : Word := 0
  uninitReads : Word := 0
  duty : Word := 0xFF
  sat : SMap SatSlot := []
  spad : List Host.Cell := []     -- scratchpad bytes by offset; unlisted reads 0
  valid : SMap Unit := []         -- valid 64 B lines (R67)
  acc : SMap AccRow := []         -- an unlisted row is clean (R84)
  rowOwner : SMap Nat := []       -- resident rows and their queues (R85, R102)
  bank0 : Option Bank := none     -- R80
  bank1 : Option Bank := none
  lastFill : Option Nat := none   -- bank of the latest MWL issued
  lastUse : Option Nat := none    -- bank of the latest MMA or MMAS issued
  s : SMap Word := []             -- S1 to S31; unlisted reads 0 (R108)
  p : SMap Unit := []             -- P1 to P7 that are true
  t : SMap (BitVec 256) := []     -- T0 to T15; unlisted is all zero
  l : SMap Word := []             -- indices of L0 to L7
  loops : List LoopAct := []      -- active loops, innermost first
  tickHi : Word := 0              -- SGET selector 5 latch (R119); reset not given: 0 (DESIGN CHOICE, log 7)
  pc : Nat := 0                   -- program address of the next instruction
  progBase : Nat := 0
  progLen : Nat := 0
  seq : Nat := 0
  mq : List QEntry := []          -- issue queues, oldest first (R88)
  eq : List QEntry := []
  d0 : List QEntry := []
  d1 : List QEntry := []
  mIn : List QEntry := []         -- entries that left their queue and have not completed
  eIn : List QEntry := []
  d0In : List QEntry := []
  d1In : List QEntry := []
  ending : Option Ending := none
  swait : Option Nat := none      -- the sequencer waits on this semaphore (R163)
  otc : List Nat := []            -- object translation cache, most recently used first (R256)
  otcInval : Bool := false        -- MEM_CTRL.otc_inval written while running (R288)
  kpins : List Nat := []          -- level-2 entry addresses of pages this command mapped (R195)
  icache : List Nat := []         -- physical 256 B lines held by the instruction cache (R103)
  sendIx : Nat := 0               -- sends issued by the command (R171)
  ecc : SMap Bool := []           -- words with a single (false) or double (true) bit error (R78), by `eccKey`
  adder : Option (Nat × Int) := none  -- an error in the adder of a column: what it adds to the next sum (R83)
  deriving DecidableEq, Repr

/-- A semaphore waiter: core, amount, peek (R163). -/
structure SemWait where
  core : Nat
  amount : Nat
  peek : Bool
  deriving DecidableEq, Repr

/-- A semaphore (R162 to R164).  An unlisted one is not allocated. -/
structure Sem where
  count : Nat := 0
  part : Nat := 0
  ownerQueue : Nat := 0
  waiters : List SemWait := []
  deriving DecidableEq, Repr

/-! ### Board, ownership, memory (chapters 00, 01, 09, 15) -/

/-- What the board fits and the factory fixes (R1, R267, R278, R282, R440, R448).  The spec gives no one value: the
resets are a DESIGN CHOICE (log 8), and statements hold for every board. -/
structure Board where
  revB : Bool := true               -- silicon revision B (TVK32-72-IB), else A (R3)
  psram0 : Nat := 64                -- MiB on PSRAM port 0
  psram1 : Nat := 64
  lpGib : Nat := 32                 -- GiB on each LPDDR5X channel
  nvme : Bool := true               -- an NVMe drive is fitted
  stackOff : Option Nat := none     -- the HBM stack that a start leaves out, its training having failed (R500)
  serial : BitVec 64 := 0
  mac : BitVec 48 := 0
  deriving DecidableEq, Repr

/-- The owner registers (R289, R454, R466): partition of each core, SSR way, HBM unit, LPDDR5X channel and
camera port; unlisted is the system partition 0. -/
structure Owners where
  core : SMap Nat := []
  ssr : SMap Nat := []
  hbm : SMap Nat := []
  lp : SMap Nat := []
  cam : SMap Nat := []
  lock : Bool := true               -- MEM_STATUS.owner_lock (R287)
  deriving DecidableEq, Repr

/-! ### Memory tiers (chapter 09) -/

/-- Residency of an object or page (R255, R258); a free one is not listed. -/
inductive ObjSt where
  | deep | promoting | resident | demoting
  deriving DecidableEq, Repr

/-- A block of a deep copy in the deep block map (R268). -/
structure DeepBlk where
  channel : Nat
  gen : Nat
  count : Nat
  granule : Nat
  deriving DecidableEq, Repr

/-- The deep copy of an object or page: its blocks, and the plaintext they hold by offset.  The stored
stream is the codec's own (R269), so the model keeps what it decodes to (log 10). -/
structure DeepCopy where
  blocks : List DeepBlk
  bytes : List Host.Cell
  deriving DecidableEq, Repr

/-- An object table entry with its frame list and deep copy (R255). -/
structure Obj where
  size : Nat
  st : ObjSt
  frames : List Nat := []          -- frame numbers, one per 64 KiB, while in HBM
  deep : Option DeepCopy := none   -- has_deep is 1 where listed
  fixed : Bool := false
  dying : Bool := false
  failed : Bool := false
  model : Nat := 0
  pinMask : Nat := 0
  claims : Nat := 0
  lastRef : Nat := 0
  deadline : Option Nat := none
  deriving DecidableEq, Repr

/-- The record of a sealed page (R202, R258): of a PAGED session, keyed by the address of its level-2 entry (R194); of a
HEAD_STRIPED one, keyed by the address of its place (R193). -/
structure Page where
  part : Nat
  session : Nat
  k : Nat                          -- layer × n_kv + kv_head (R193)
  ix : Nat                         -- page index
  st : ObjSt
  frame : Nat := 0                 -- HBM frame number, while in HBM
  deepFrame : Nat := 0             -- frame number in the KV spill pool, while deep
  format : Nat := 0
  firstPos : Nat := 0
  striped : Bool := false          -- a page of a HEAD_STRIPED session: never moved
  walked : Bool := false           -- promoted by the page walker or a KMAP hint (R203)
  deep : Option DeepCopy := none
  mirrored : Bool := false
  failed : Bool := false
  pinMask : Nat := 0
  lastRef : Nat := 0
  deadline : Option Nat := none
  deriving DecidableEq, Repr

/-- A queued or dispatched promotion (R261). -/
structure Promo where
  item : Item
  deadline : Nat
  late : Nat                       -- earliest deadline of any request for it (R262)
  deriving DecidableEq, Repr

/-- Event counts of a pool record since the previous one (R285). -/
structure PoolEv where
  promotions : Nat := 0
  promoLate : Nat := 0
  evictions : Nat := 0
  sessionsCold : Nat := 0
  deriving DecidableEq, Repr

/-- MEM_OBJT[p]: base and limit of a partition's object table (R286). -/
structure ObjTable where
  base : Nat := 0
  limit : Nat := 0
  deriving DecidableEq, Repr

/-- A mirror copy of another member's sealed page (R378), in this device's deep pool, or in fixed HBM frames without one. -/
structure MirrorPage where
  part : Nat
  place : Nat
  stage : Nat
  session : Nat
  k : Nat
  ix : Nat
  format : Nat
  firstPos : Nat
  deep : DeepCopy                  -- without blocks while it lies in HBM
  frames : List Nat := []
  deriving DecidableEq, Repr

/-- The memory manager, the OTU and the MEM registers. -/
structure Mem where
  objs : SMap Obj := []            -- key 65,536 × partition + object number
  pages : SMap Page := []
  mirrors : List MirrorPage := []
  fixedF : SMap Nat := []          -- fixed frames and their partitions (R254)
  reserved : SMap Nat := []        -- frames reserved for seals and their partitions (R190, R264)
  retired : SMap Unit := []        -- retired frames (R472)
  frameErrs : SMap (List Nat) := []   -- ticks of corrected errors by frame (R472)
  promoQ : List Promo := []        -- in order of arrival
  promoIn : List Promo := []
  otuQ : List (Nat × Nat) := []    -- misses: core, object key (R256)
  deepWrites : List Item := []     -- background deep copies (R259, R273)
  promoPause : Bool := false       -- MEM_CTRL.promo_pause (R288)
  objt : SMap ObjTable := []
  hbmTrained : Bool := false       -- MEM_STATUS (R287)
  lpTrained : Bool := false
  psramReady : Bool := false
  noDeep : Bool := false           -- step B09 is disabled: no deep tier in this start (R500)
  dtEccCorr : Word := 0
  dtEccUncorr : Word := 0
  dtcFail : Word := 0
  promoLate : Word := 0
  evictCount : Word := 0
  otcMiss : Word := 0
  dtcPlain : SMap Nat := []        -- plaintext and stored bytes of the blocks written, by channel (R291)
  dtcStored : SMap Nat := []
  keyGen : SMap Nat := []          -- current key generation of each partition's slot pair (R271, R460)
  pool : SMap PoolEv := []
  psramMiss : SMap (List Nat) := []   -- ticks of mismatches by PSRAM tile tag (R279)
  deriving DecidableEq, Repr

/-- A directory entry of the NVMe store (R283). -/
structure DirEntry where
  number : Nat
  tokenLog : Bool
  valid : Bool
  part : Nat
  firstBlock : Nat
  blocks : Nat
  length : Nat
  digest : BitVec 128
  session : Nat
  seq : Nat
  dying : Bool := false            -- to be freed once no LOAD_MODEL reads it (R344)
  deleter : Option Nat := none     -- handle of the STORE_DELETE that waits
  deriving DecidableEq, Repr

/-- An NVMe command in flight (R282): the request and the entry it serves, and how often it has ended with an error. -/
structure NvmeCmd where
  id : Nat
  handle : Nat
  entry : Nat
  write : Bool
  fails : Nat := 0
  deriving DecidableEq, Repr

/-- The NVMe store (R283): label, directory, the bytes of each extent by entry, commands in flight. -/
structure Store where
  enumerated : Bool := false       -- step B15 has found the drive
  formatted : Bool := false
  serial : BitVec 64 := 0
  blocks : Nat := 0x10000000       -- store blocks of the namespace (the board's: DESIGN CHOICE, log 8)
  dir : SMap DirEntry := []
  bytes : SMap (List Byte) := []
  cmds : List NvmeCmd := []
  nextCmd : Nat := 0
  deriving DecidableEq, Repr

/-- The PCIe root port (R281, R292, R293). -/
structure Pcie where
  ltssm : Nat := 0
  speed : Nat := 0
  width : Nat := 0
  perst : Bool := true
  linkUp : Bool := false
  en : Bool := false
  cfgAddr : Word := 0
  outBase : BitVec 64 := 0
  inBase : Nat := 0
  inLimit : Nat := 0
  msi : Word := 0
  inReject : Word := 0
  errCorr : Word := 0
  errUncorr : Word := 0
  retrains : Word := 0
  cfg : SMap Word := []            -- configuration dwords written, by PCIE_CFG_ADDR
  store : Store := {}
  deriving DecidableEq, Repr

/-! ### Running commands (R300, R302) -/

/-- What Keeper knows of the command on a core. -/
structure Run where
  job : Nat                        -- job number (key of the job table)
  cmd : Nat                        -- command identifier within the job
  queue : Nat
  launched : Nat                   -- device tick of the launch
  donated : Option Nat := none     -- launched on donated time: the job that waits (R312, R313)
  opened : List (Nat × Nat × Nat) := []   -- sectors that opened on its core meanwhile: index, start, guard (R309)
  run : Nat := 0                   -- run number: 0 for the first (R477)
  stopped : Bool := false          -- Keeper has stopped it for a re-run or a cancel
  reset : Bool := false            -- a reset of its partition stopped it (R316)
  stored : List Nat := []          -- tag addresses that its TSTs have written (R474)
  deriving DecidableEq, Repr

/-- A donation in force (R312): the semaphore waited on, the sector and its queue, the queue that receives the time. -/
structure Donation where
  sem : Nat
  sector : Nat
  recipient : Nat
  job : Nat                        -- the job that waits (R313)
  owner : Nat
  deriving DecidableEq, Repr

/-! ### Fuses (R439, R440, R446 to R448) -/

/-- The OTP fuses.  They have no reset; the model starts with a device in PROVISION whose root 0 is programmed (DESIGN
CHOICE, log 8). -/
structure Otp where
  lcProvision : BitVec 8 := 0xFF
  lcField : BitVec 8 := 0
  lcRetired : BitVec 8 := 0
  serviceIn : Nat := 0             -- fuses blown of 64
  serviceOut : Nat := 0
  root0 : Option (BitVec 512) := some 0
  root1 : Option (BitVec 512) := none
  revoked0 : BitVec 8 := 0
  revoked1 : BitVec 8 := 0
  rollback : SMap Nat := []        -- by image class
  deviceSecret : Bool := true      -- drawn and not destroyed
  deriving DecidableEq, Repr

/-! ### The security controller and tenants (chapter 15) -/

/-- A key generation (R457, R469). -/
structure KeySlot where
  part : Nat
  count : Nat := 0
  keyId : BitVec 64 := 0
  retiring : Bool := false
  deriving DecidableEq, Repr

/-- A tenant as it was created (R341, R454, R455). -/
structure Tenant where
  perms : Nat
  limit : Nat
  cores : Nat
  ways : Nat
  chans : Nat
  units : Nat
  sensors : Nat
  deriving DecidableEq, Repr

/-- SEC's working state (R452, R453, R458, R466, R467). -/
structure Sec where
  slots : SMap KeySlot := []       -- tenant key slots 0 to 15 that hold a generation
  engines : SMap KeySlot := []     -- the working copies in the XTS and GCM engines, by slot
  meas : SMap (BitVec 512) := []   -- M0 to M7; unlisted 0
  nonce : Option (BitVec 256 × Nat) := none    -- the unspent token nonce and the device tick of its quote
  ready : Bool := false
  restarting : Bool := false
  trngFail : Bool := false
  trngEn : Bool := true
  ownerUnlock : Bool := false
  authFail : Word := 0
  trngFails : Word := 0
  deriving DecidableEq, Repr

/-- The security store in MRAM (R449, R450, R451, R458, R496), and the tenants, which the next start finds there (DESIGN
CHOICE, log 19). -/
structure SecStore where
  deviceKey : Option (List Byte) := none   -- public modulus and exponent of the sealed pair
  cert : Option (List Byte) := none
  systemCak : Bool := false
  keys : SMap KeySlot := []        -- sealed key store, by slot
  tenants : SMap Tenant := []      -- a tenant listed here has its CAK installed
  retired : List (BitVec 64) := [] -- key identifiers retired latest, newest first (R459)
  deriving DecidableEq, Repr

/-- A quench under way (R461, R462), keyed by the tenant. -/
structure Quench where
  handle : Option Nat := none      -- the removal that waits
  origin : Option Nat := none      -- the removing device, on another member
  zeroised : Bool := false         -- step 3 is done
  scrubbed : Bool := false         -- step 7 is done
  acks1 : List Nat := []           -- members whose acknowledgement of phase 1 is awaited
  acks2 : List Nat := []
  deriving DecidableEq, Repr

/-- A key rotation under way (R460), keyed by the tenant. -/
structure KeyRot where
  handle : Option Nat := none      -- on the device that the request came to
  origin : Nat := 0
  gen : Nat                        -- the count of the new generation
  sealed : List Nat := []          -- members whose acknowledgement of the new generation is awaited
  rewrites : List Nat := []        -- members that have not reported the end of their rewrite
  active : Bool := false           -- new blocks and frames are written under the new generation
  retiring : List Nat := []        -- members whose acknowledgement of KEY_RETIRE is awaited
  clean : Bool := false            -- every member has reported, and KEY_RETIRE is sent
  deriving DecidableEq, Repr

/-- A model switch under way (R516): the handle, the models by key, the sessions moved so far. -/
structure ModelSwitch where
  handle : Nat
  old : Nat
  new : Nat
  moved : Nat := 0
  deriving DecidableEq, Repr

/-- A tenant creation under way (R456): it waits for system commands to end, and then for the tenant's keys. -/
structure Creation where
  handle : Nat
  t : Nat
  tenant : Tenant
  args : List Byte                 -- the argument block less its CAK blob
  waitKeys : Bool := false
  deriving DecidableEq, Repr

/-! ### Models, queues, jobs, sessions (chapters 06, 07, 09, 10) -/

/-- A command of a command graph (R284). -/
structure GCmd where
  id : Nat
  program : Nat
  gang : Nat := 0
  entry : Nat := 0
  budget : Nat
  flags : Nat := 0                 -- [0] resident rows, [1] seals pages, [2] stream group, [3] halo group
  pinSet : Nat := 0
  preds : List Nat := []
  sems : List (Nat × Nat × Int) := []   -- semaphore slot of the job, initial value, declared net effect
  sMask : Nat := 0
  tMask : Nat := 0
  args : List Byte := []           -- the argument-block template: bytes 0x20 to 0x15F of the launch block
  deriving DecidableEq, Repr

/-- A loaded model (R265, R284, R341), keyed by 65,536 × partition + model number. -/
structure Model where
  part : Nat
  kind : Nat := 4
  weights : Nat := 0
  layers : Nat := 0
  kvHeads : Nat := 0
  tokenSet : List Byte := []
  layout : Nat := 0                -- 0 HEAD_STRIPED, 1 PAGED (R192)
  flags : Nat := 0                 -- of LOAD_MODEL
  sMax : Nat := 0
  cMax : Nat := 0
  logLimit : Nat := 0
  log2W : Nat := 0
  sealFmt : Nat := 0
  steps : Nat := 0                 -- T
  objects : List Nat := []         -- object numbers of the partition
  programs : List (Nat × Nat × Nat) := []   -- program number, base address, length
  graphs : SMap (List GCmd) := []  -- by job kind
  fallback : SMap (List GCmd) := []
  fixedFrames : List Nat := []
  pinMax : Nat := 0
  image : Nat := 0xFFFFFFFF        -- image number on the store, or from the host
  digest : BitVec 512 := 0
  stripes : List Nat := []         -- bases B_u of a HEAD_STRIPED model (R193)
  recalNew : Bool := false         -- the next job starts under a new scale (R64)
  unload : Option Nat := none      -- handle of the UNLOAD_MODEL that waits
  report : List Byte := []         -- load report (R345)
  loadedAt : Nat := 0              -- device tick of its loading (R33)
  deriving DecidableEq, Repr

/-- Settings that wait for the rotation start (R295, R342). -/
structure QSet where
  handle : Nat
  mask : Nat
  cls : Nat
  prio : Nat
  depth : Nat
  thresh : Nat
  deriving DecidableEq, Repr

/-- A queue (R295, R296), keyed by its number. -/
structure Queue where
  part : Nat
  cls : Nat := 0                   -- 0 best-effort, 1 real-time, 2 system
  prio : Nat := 3
  depth : Nat := 1
  thresh : Nat := 0x0180
  model : Nat := 0
  sCap : Nat := 0
  steps : Nat := 0                 -- T (R217)
  flags : Nat := 0                 -- [0] residual carry off, [1] re-anchoring
  ckptN : Nat := 0                 -- N
  ringCap : Nat := 0
  nRoutes : Nat := 0
  rptr : Nat := 0                  -- read and write pointers of the ring of 256 (R296)
  wptr : Nat := 0
  jobs : List Nat := []            -- job numbers from the read pointer on
  demoted : Bool := false
  demotedAt : Nat := 0             -- device tick of the demotion (R310)
  pend : List QSet := []
  viols : List Nat := []           -- ticks of the violations that ended in the current rotation (R310)
  destroy : Option Nat := none     -- handle of the QUEUE_DESTROY that waits
  aggT : Nat := 0                  -- sums of the telemetry interval (R320)
  aggS : Nat := 0
  aggMax : Nat := 0
  aggCause : Nat := 0
  aggJobs : Nat := 0
  aggOver : Nat := 0
  aggViol : Nat := 0
  aggDon : Nat := 0
  ckptSlot : Nat := 0              -- current checkpoint slot: 0 A, 1 B (R219)
  ckptRows : List (Nat × SMap AccRow) := []   -- the row images of the current slot by core
  nextModel : Option Nat := none   -- the model that its next job admission points it to (R516)
  replay : Bool := false           -- replay groups run before any new group (R221)
  restore : Bool := false          -- its rows come back from the checkpoint slot before its next command (R86, R221)
  groupKind : Nat := 0             -- job kind of its latest group (R221)
  frames : List Nat := []          -- fixed frames of its job ring and its routes' receive buffers here (R296, R314)
  deriving DecidableEq, Repr

/-- Progress of a command of a job (R296). -/
inductive CmdSt where
  | waiting | running (core : Nat) | done
  deriving DecidableEq, Repr

/-- A page that a sealing command was given (R190): layer and head number k, page index, page address, first position. -/
structure SealPage where
  k : Nat
  ix : Nat
  addr : Nat
  firstPos : Nat
  deriving DecidableEq, Repr

/-- A command in the job record (R296). -/
structure JCmd where
  g : GCmd
  st : CmdSt := .waiting
  runs : Nat := 0                  -- runs that have ended (R477)
  again : Bool := false            -- its next run is a re-run (R315)
  told : Bool := false             -- its outputs have gone out already (R222)
  after : List Nat := []           -- commands of the job that are run again before it (R474)
  pages : List SealPage := []
  deriving DecidableEq, Repr

/-- What a relay job stands for (R377): the placement, the stage, the front device's job. -/
structure RelayOf where
  place : Nat
  stage : Nat
  job : Nat
  deriving DecidableEq, Repr

/-- A job (R296, R319), keyed by its job number. -/
structure Job where
  handle : Nat
  part : Nat
  queue : Nat
  model : Nat
  kind : Nat := 0
  session : Option Nat := none
  minPrec : Nat := 0
  retain : Bool := false
  limit : Nat := 0
  args : List Byte := []           -- S1 to S15
  inputs : List Tile := []
  admitted : Bool := false         -- its reservations are made (R265)
  started : Bool := false          -- its semaphores have been set (R317)
  cmds : List JCmd := []
  sems : List (Nat × Nat) := []    -- semaphore slot of the job, semaphore
  sumT : Nat := 0
  sumS : Nat := 0
  weightWait : Nat := 0
  haloWait : Nat := 0
  donatedIn : Nat := 0
  donatedOut : Nat := 0
  sectorLate : Nat := 0
  readySince : Option Nat := none  -- the tick from which it has had a ready command (R319)
  lateIn : Option (Nat × Nat) := none   -- the sector, by index and start, whose wait it has counted (R319)
  ring : Option Nat := none        -- its entry of the queue's ring (R296)
  reruns : Nat := 0
  cause : Nat := 0
  flush : Nat := 0
  lenAtStart : Nat := 0            -- the session's length at job start (R201)
  sealed : List SealPage := []     -- pages it has sealed
  outs : List Tile := []
  outFlags : Nat := 0              -- flags of its record (R348)
  cold : Bool := false             -- it began with a re-ingest of a cold session (R276)
  cancelled : Bool := false
  refill : Bool := false           -- Keeper's own re-ingest of its session (R201, R276)
  lost : Nat := 0                  -- the first position that a re-ingest takes
  relay : Option RelayOf := none   -- a relay job (R377)
  relays : List Nat := []          -- on the front device: stages whose relay job has not reported (R377)
  noKv : Bool := false             -- KAPP and KSEAL are suppressed (R380)
  members : List Nat := []         -- streams that its group advances (R213, R215)
  replaySteps : Nat := 0           -- a replay group: steps that are still to be replayed (R221)
  fault : Option (Nat × Nat × Nat) := none   -- detail, command, CORE_FAULT_PC (R350)
  stored : SMap Nat := []          -- the job record's producers: tag address to the command that stored the tile (R474)
  bad : List Nat := []             -- tags of tiles that are not rebuilt and failed once (R474)
  badInput : Option Nat := none    -- such a tile failed twice: its index (R474)
  deriving DecidableEq, Repr

/-- An input frame in a stream's ring (R218): its tile and its reset mark. -/
structure RingFrame where
  tile : Tile
  reset : Bool
  deriving DecidableEq, Repr

/-- A session (R192, R201, R217, R274), keyed by its index. -/
structure Session where
  part : Nat
  model : Nat
  queue : Nat := 0xFFFF
  sealFmt : Nat := 0
  place : Nat := 0                 -- session place, or stream slot (R193, R209)
  len : Nat := 0                   -- positions held
  tokens : List Word := []         -- the token log (R274)
  reingest : Option Nat := none    -- positions from this one on are to be ingested again (R201, R276)
  cold : Bool := false
  sealNext : Option Nat := none    -- a seal format that takes effect at the next empty slot (R199)
  l1 : Nat := 0                    -- level-1 table of a PAGED session (R194)
  slots : Nat := 0                 -- its first head part (R180)
  kvFrames : List Nat := []        -- fixed frames of its page table and head parts
  logFrames : List Nat := []       -- fixed frames of its token log (R274)
  jobs : List Nat := []            -- admitted jobs in order
  lastRef : Nat := 0
  closing : Option Nat := none     -- handle of the CLOSE_SESSION that waits
  ring : List RingFrame := []      -- frames from the committed checkpoint on
  ringBase : Nat := 0              -- step of the first frame in the ring
  step : Nat := 0                  -- steps done
  ckptStep : Nat := 0              -- step count of the committed checkpoint (R219)
  kept : List Nat := []            -- stages that kept the positions that are ingested again (R380)
  deriving DecidableEq, Repr

/-! ### Requests and records (chapter 11) -/

/-- A completion record (R348); its CRC is made of the rest. -/
structure Record where
  handle : Nat
  status : Nat
  detail : Nat := 0
  request : Nat
  flags : Nat := 0
  slowdown : Nat := 0
  slowCause : Nat := 0
  reruns : Nat := 0
  narrow : Nat := 0
  tickDone : Nat
  weightWait : Nat := 0
  haloWait : Nat := 0
  donatedIn : Nat := 0
  donatedOut : Nat := 0
  sectorLate : Nat := 0
  flush : Nat := 0
  result0 : Nat := 0
  result1 : Nat := 0
  tickAccept : Nat
  deriving DecidableEq, Repr

/-- The states of a handle but for free ones, which hold no record (R347). -/
inductive HandleSt where
  | opened | done | released
  deriving DecidableEq, Repr

/-- A handle slot that has been taken at least once (R346, R347), keyed by its slot. -/
structure Handle where
  gen : Nat
  st : HandleSt
  principal : Nat
  part : Nat                       -- the partition that it acts on
  assoc : Nat
  code : Nat
  hostTag : Word := 0
  tickAccept : Nat
  record : Option Record := none
  outs : List Tile := []           -- retained outputs and report tiles (R345, R353)
  releasedAt : Nat := 0
  deriving DecidableEq, Repr

/-- A part of a message that is not complete (R333). -/
structure RxSeg where
  msg : Nat
  seg : Nat
  segs : Nat
  seq : Nat
  payload : List Byte
  deriving DecidableEq, Repr

/-- An association (R335, R336), keyed by its number. -/
structure Assoc where
  principal : Nat
  port : Nat
  rxNext : Nat := 0                -- next frame number expected
  rxAhead : List Nat := []         -- numbers received beyond it
  rxSegs : List RxSeg := []
  txSeq : Nat := 0                 -- number of the next frame to send
  txMsg : Nat := 0
  waiting : List TctFrame := []
  unacked : List TctFrame := []    -- oldest first
  retryMs : Nat := 1               -- interval of the next retransmission
  lastRx : Nat := 0
  lastTx : Nat := 0
  lastTime : Option Nat := none
  lostAt : Option Nat := none
  deriving DecidableEq, Repr

/-- What leaves a host port (R327, R334). -/
inductive HostOut where
  | tct (port : Nat) (f : TctFrame)
  | arpReply (port : Nat)
  | neighborAdvert (port : Nat)
  | gratuitousArp (port : Nat)
  | unsolicitedAdvert (port : Nat)
  | echoReply (port : Nat) (data : List Byte)
  | sleepRequest (port : Nat)
  | sleepAnswer (port : Nat) (accept : Bool)
  | wakeup (port : Nat)
  | mka (port : Nat)
  deriving DecidableEq, Repr

/-- A host port (R327 to R331, R360). -/
structure HostPort where
  state : Nat := 0                 -- HOST_PORT_STATUS.state
  sqi : Nat := 0
  upSince : Nat := 0               -- device tick of the latest link up
  saks : List Nat := []            -- principals with a live secure association
  deriving DecidableEq, Repr

/-- The principal of a partition (R332). -/
structure Principal where
  perms : Nat
  limit : Nat                      -- handle limit
  telemetryMs : Nat := 100
  telemetryMask : Nat := 0x7E
  nextTelemetry : Nat := 0
  held : List Record := []         -- records with no association to send them on (R351)
  deriving DecidableEq, Repr

/-- An opening request whose image arrives (R343). -/
structure Opening where
  handle : Nat
  store : Bool                     -- STORE_IMAGE, else LOAD_MODEL
  part : Nat
  args : List Byte
  head : List Byte                 -- image header and section table
  n : Nat                          -- image tiles
  tiles : SMap Tile := []
  image : Nat := 0xFFFFFFFF        -- LOAD_MODEL from the store: the image number
  model : Nat := 0                 -- LOAD_MODEL: the model number set aside
  objs : List Nat := []            -- and the object numbers, in the order of the sections
  writing : Bool := false          -- STORE_IMAGE: the image is being written
  lastTile : Nat := 0              -- device tick of the latest new tile
  deriving DecidableEq, Repr

/-- A sector as a table holds it (R325). -/
structure Sector where
  valid : Bool := false
  releaseIdle : Bool := false
  start : Nat := 0
  queue : Nat := 0
  length : Nat := 0
  coreSet : Nat := 0
  guardUs : Nat := 0x14
  deriving DecidableEq, Repr

/-- A partition's rotation (R303, R324): the table in force, its shadow and the rotation start. -/
structure Rot where
  period : Nat := 0
  count : Nat := 0
  first : Nat := 0
  shPeriod : Nat := 0
  shCount : Nat := 0
  shFirst : Nat := 0
  armed : Bool := false
  table : SMap Sector := []        -- the sectors in force, by index
  lastStart : Nat := 0             -- words 2 and 3
  opened : List Nat := []          -- sectors that have opened in this rotation (R305)
  waiting : List (Nat × Nat) := [] -- SCHEDULE_SET requests that wait: handle, first sector
  deriving DecidableEq, Repr

/-- An open sector (R305). -/
structure OpenSector where
  part : Nat
  ix : Nat
  openedAt : Nat
  deriving DecidableEq, Repr

/-- The SCHED block and Keeper's schedule (chapter 10). -/
structure Sched where
  rots : SMap Rot := []
  shSectors : SMap Sector := []    -- shadows of SCHED_SECTOR
  open_ : List OpenSector := []
  reportedWaits : List (Nat × Nat) := []   -- core and semaphore of the waits reported (R554)
  deriving DecidableEq, Repr

/-- The saturation record of a tensor (R62). -/
structure SatRec where
  satTotal : Word := 0
  maxMag : Word := 0
  winSat : Word := 0
  winElems : Nat := 0
  events : Word := 0
  scale : Word
  version : Nat := 0               -- scale changes so far (R181)
  active : Bool := false           -- merged since its last telemetry record
  deriving DecidableEq, Repr

/-- Work whose rows must be shifted before the first job under a new scale (R64): model, tensor, k. -/
structure Rescale where
  model : Nat
  tensor : Nat
  k : Nat
  deriving DecidableEq, Repr

/-- A firmware component that is to be started from its slot in force: the class and the handle that waits (R517). -/
structure Handover where
  cls : Nat
  handle : Option Nat := none
  deriving DecidableEq, Repr

/-- Keeper's tables. -/
structure Keeper where
  models : SMap Model := []
  queues : SMap Queue := []
  jobs : SMap Job := []
  jobNext : Nat := 0
  sessions : SMap Session := []
  handles : SMap Handle := []
  assocs : SMap Assoc := []
  principals : SMap Principal := [(0, { perms := 0x3F, limit := 1024 })]   -- R332
  openings : List Opening := []
  inbox : List Request := []       -- complete request messages that Keeper has not taken
  quenches : SMap Quench := []
  creations : List Creation := []
  switches : List ModelSwitch := []
  rotations : SMap KeyRot := []
  rotWait : List (Nat × Nat) := []          -- rotations that wait for one of the same tenant: tenant, handle (R460)
  lifeChange : Option (Nat × Nat) := none   -- a life-cycle change that waits for quenches: handle, target (R462)
  setMode : Option (Nat × Mode) := none     -- a SET_MODE whose mode is not reached: handle, mode (R409)
  lowering : Option Mode := none   -- a lower mode that Keeper will request once its commands have ended (R409)
  holdBeacon : Nat := 2000         -- idle holds in ms (R32, R409)
  holdLantern : Nat := 10000
  holdLighthouse : Nat := 60000
  handovers : List Handover := []  -- components that wait to be started from their slot in force (R517, R518)
  phyHost : Option Nat := none     -- a host port that restarts once the other is up (R515)
  stageFrom : Option Nat := none   -- first frame in the audio staging area (R406)
  stageNext : Nat := 0             -- next frame to copy into it
  launchBase : SMap Nat := []      -- launch block area of each partition
  satRecs : SMap SatRec := []      -- by 65,536 × model key + tensor
  rescales : List Rescale := []
  coreFaults : SMap (List Nat) := []   -- ticks of core hardware faults (R478)
  lastFault : SMap Nat := []       -- CORE_FAULT of the latest faulted run, by 8,192 × job + command (R477)
  avoid : SMap Nat := []           -- the core that the latest run faulted on, by the same key (R476)
  deriving DecidableEq, Repr

/-! ### The fabric (chapter 12, R171, R172, R314) -/

/-- A route of a queue (R314), keyed by 16 × queue + route: destination and the credits left. -/
structure Route where
  dest : Nat
  destQueue : Nat
  credits : Nat
  total : Nat
  deriving DecidableEq, Repr

/-- A message received on a route and not yet consumed (R171, R172). -/
structure InMsg where
  src : Nat
  srcQueue : Nat
  queue : Nat
  tag : Nat
  job : Nat
  command : Nat
  sendIx : Nat
  frames : Nat
  data : List Byte
  taken : Option Nat := none       -- the core whose running command has received it
  deriving DecidableEq, Repr

/-- A message of which frames have come in (R171). -/
structure PartMsg where
  msg : InMsg
  got : Nat                        -- frames received, in order
  deriving DecidableEq, Repr

/-- A message that was delivered: later copies are discarded (R171); the job that consumed it, once known. -/
structure SeenMsg where
  src : Nat
  job : Nat
  command : Nat
  sendIx : Nat
  queue : Nat
  consumer : Option Nat := none
  deriving DecidableEq, Repr

/-- An Agcon port (R361 to R369, R389). -/
structure FabPort where
  state : Nat := 0                 -- FAB_PORT_STATUS.state
  lanes : Nat := 0                 -- lanes_ok
  peer : Nat := 0
  epoch : Nat := 0                 -- FAB_PORT_EPOCH: 0 while the port is down
  txNext : Nat := 0                -- counter of the next frame to send
  rxEpoch : Nat := 0
  rxNext : Nat := 0                -- counter expected
  unacked : List FabFrame := []    -- frames sent and not acknowledged, oldest first
  waiting : List FabFrame := []    -- frames that wait for room
  resends : Nat := 0               -- resends of the oldest of them
  epochAt : Nat := 0               -- device tick at which the sending epoch began
  rekey : Option Nat := none       -- counter of the KEY frame that is not acknowledged (R367)
  rxKey : Bool := false            -- the next receiving key is held (R367)
  downAt : Option Nat := none      -- device tick at which the link went down (R369)
  faulty : Bool := false           -- marked by a loopback slice (R486)
  deriving DecidableEq, Repr

/-- A stage that this device holds (R377), keyed by 64 × placement + stage: its model and its relay queue, or, for stage 0,
the front queue, and the sessions here by those of the front device. -/
structure HeldStage where
  plan : PlacePlan
  model : Nat
  queue : Nat
  up : Bool := false               -- the placement is committed
  sessions : SMap Nat := []
  deriving DecidableEq, Repr

/-- An OPEN_SESSION on the front device that waits for the stages (R377). -/
structure StageOpen where
  handle : Nat
  session : Nat
  waiting : List Nat
  deriving DecidableEq, Repr

/-- A stage that goes to another member (R379, R380). -/
structure StageMove where
  stage : Nat
  tries : List Nat                 -- members that may take it, the one being asked first
  lost : Bool                      -- after a loss; else by planned leave
  asked : Bool := false            -- the new holder has been asked
  queue : Nat := 0xFFFF            -- its relay queue, once it has answered
  deriving DecidableEq, Repr

/-- A placement on its front device (R376, R377), keyed by the placement: 65,536 × front address + number. -/
structure Front where
  plan : PlacePlan
  handle : Option Nat := none      -- the FABRIC_PLACE that waits
  waiting : List Nat := []         -- stages whose confirmation is awaited
  status : Nat := 0                -- the worst answer so far
  up : Bool := false
  opens : List StageOpen := []
  moves : List StageMove := []     -- while there is one, no new step is admitted
  orphans : List Nat := []         -- lost stages that nothing can take: the placement waits (R380)
  deriving DecidableEq, Repr

/-- A job of the front device that a stage has been told of and whose first frame has not come (R377). -/
structure RelayInfo where
  place : Nat
  stage : Nat
  job : Nat
  kind : Nat
  session : Nat
  len : Nat
  add : Nat
  noKv : Bool
  deriving DecidableEq, Repr

/-- A stage that waits for the tiles of its image (R377): for a placement, or, with the sessions, for a stage it takes over. -/
structure WantImage where
  place : Nat
  stage : Nat
  plan : PlacePlan
  sessions : Option (List (Nat × Nat × Nat)) := none
  deriving DecidableEq, Repr

/-- The tiles of a moved object, page or head part that have come in. -/
structure PartMove where
  src : Nat
  place : Nat
  stage : Nat
  what : MoveWhat
  mirror : Bool
  tiles : SMap Tile
  deriving DecidableEq, Repr

/-- A planned leave at the fabric head (R379): the handle, the leaving member, the members whose report is awaited, and the
placements and pages moved so far. -/
structure Leave where
  handle : Nat
  addr : Nat
  waiting : List Nat
  places : Nat := 0
  pages : Nat := 0
  deriving DecidableEq, Repr

/-- The FAB block and Keeper's part of mooring. -/
structure Fab where
  en : Bool := false               -- FAB_CTRL.en
  addr : Nat := 0                  -- FAB_ADDR
  segment : Nat := 0               -- FAB_MOOR_CFG
  closed : Bool := false           -- FAB_STATUS
  lightValid : Bool := false
  departed : Bool := false
  buoyOk : Bool := false           -- the planned leave permits BUOY once departed (R379)
  lightGen : Nat := 0              -- FAB_LIGHT_GEN
  ports : SMap FabPort := []
  light : SMap LightEntry := []    -- by index 16 × segment + station − 1
  token : Bool := false            -- a MOOR token waits for the downstream link (R372)
  mooring : Bool := false          -- this head has started mooring and MOOR_END has not come
  reports : SMap (List LightEntry) := []   -- SEG_REPORT by segment, at the fabric head
  seen : List (Nat × Nat × Nat) := []      -- flooded frames seen: type, origin, generation
  floodGen : Nat := 0              -- generation of the latest frame that this device flooded
  partMsgs : List PartMsg := []
  seenMsgs : List SeenMsg := []
  holders : SMap (List Nat) := []          -- other members that hold a tenant, by tenant (R459)
  fronts : SMap Front := []
  stages : SMap HeldStage := []
  placeNext : Nat := 0
  infos : List RelayInfo := []             -- oldest first
  starts : List (Nat × Nat × Nat) := []    -- first frames at relay queues without such news: source, job, queue
  begun : List (Nat × Nat × Nat) := []     -- source and job of the relay jobs begun, by queue
  wants : List WantImage := []
  moveNext : Nat := 0                      -- number of the next MOVE frame, in its command field
  partMoves : List PartMove := []
  selfQ : List FabFrame := []              -- frames of this device to its own address, oldest first
  asked : SMap Nat := []                   -- device ticks of PLACE frames that members have not answered (R380)
  leaves : List Leave := []
  wire : List (Nat × FabFrame) := []       -- frames sent, with their ports, newest first
  deriving DecidableEq, Repr

/-! ### The always-on domain, power and start-up (chapters 13, 17, 18) -/

/-- The AON registers and the mode controller (R391 to R421).  Resets are those of an AON reset (R392). -/
structure Aon where
  cfgWhileBusy : Bool := false     -- AON_STATUS
  ringCfgErr : Bool := false
  dspReset : Bool := true          -- AON_CTRL
  run : Bool := false
  ringCfg : Word := 0x10
  ringSize : Word := 0x04000000
  pos : Nat := 0                   -- AON_RING_POS
  runPos : Nat := 0
  latchPos : Nat := 0
  latchTick : Nat := 0
  hi : SMap Word := []             -- high words latched by reads of low words, by register number (R416)
  gateOpen : Bool := false
  gateStart : Nat := 0
  gateEnd : Nat := 0
  gateDenied : Word := 0
  candOpen : Bool := false
  candMark : Nat := 0
  candStart : Nat := 0             -- the start mark of the open candidate
  pdm0 : Word := 0
  pdm1 : Word := 0
  trim : SMap Word := []           -- AON_CH_TRIM; unlisted 0x4000
  trimDue : List Nat := []         -- channels whose trim Keeper writes once recording is off (R509)
  pdmExcluded : Nat := 0           -- channels that failed the reference check (R486)
  mode : Mode := .buoy             -- the mode reached (R418)
  target : Mode := .buoy
  goal : Mode := .buoy             -- the mode asked for, beyond the step under way
  busy : Bool := false
  up : Bool := false               -- direction of the transition under way
  cause : Nat := 5
  deferred : Option Mode := none   -- R410
  deferredAt : Nat := 0            -- device tick of the deferred request
  wanted : Option Mode := none     -- the pending request of R30
  deriving DecidableEq, Repr

/-- An entry of the boot record for a start-up step (R504). -/
structure BootStep where
  state : Nat := 0
  fails : Nat := 0
  flags : Nat := 0                 -- [0] alternate, [1] second alternate, [2] disabled
  tStarted : Nat := 0
  tDone : Nat := 0
  deriving DecidableEq, Repr

/-- A region of the PSRAM window (R504). -/
structure PsRegion where
  kind : Nat
  offset : Nat
  length : Nat
  deriving DecidableEq, Repr

/-- A session as it goes to the store at BUOY entry (R33): its index, its entry and its descriptor. -/
structure SavedSession where
  ix : Nat
  entry : Nat
  sess : Session
  deriving DecidableEq, Repr

/-- A model to reload after BUOY: the LOAD_MODEL arguments and the partition (R504), with its number and the sessions that
name it (DESIGN CHOICE, log 21). -/
structure Resume where
  args : List Byte
  part : Nat
  model : Nat
  sessions : List SavedSession := []
  deriving DecidableEq, Repr

/-- A calibration entry (R509); its crc is made of the rest, and an entry whose crc failed is not listed. -/
structure CalEntry where
  origin : Nat                     -- 1 factory, 2 written in the field
  writes : Nat := 0
  data : List Byte
  deriving DecidableEq, Repr

/-- A/B metadata of a firmware component (R513); the images themselves lie in the flash window of memory (R511). -/
structure Firmware where
  active : Nat := 0                -- 0 slot A, 1 slot B
  state : Nat := 0                 -- 0 committed, 1 trial, 2 writing the inactive slot
  seq : Nat := 0
  trialStarts : Nat := 0
  verA : Nat := 0                  -- 0xFFFF_FFFF where the slot is invalid
  verB : Nat := 0xFFFFFFFF
  digestA : BitVec 128 := 0
  digestB : BitVec 128 := 0
  trialTick : Nat := 0
  autoCommit : Bool := false       -- of the UPDATE that began the trial
  age : Nat := 0                   -- device ticks of the trial before the latest main reset (the model's own)
  ageFrom : Nat := 0               -- device tick from which the rest is counted
  startedAt : Nat := 0             -- device tick of the component's latest start (R517)
  deriving DecidableEq, Repr

/-- The MRAM but for the logbook, and the A/B slots (R496, R504, R509, R513).  The boot record has no reset: the model
starts with a device whose PSRAM regions are laid out (DESIGN CHOICE, log 8). -/
structure Boot where
  kind : Nat := 0                  -- 0 cold, 1 warm
  bootCount : Nat := 0
  quench : Nat := 0                -- quench_mask
  steps : SMap BootStep := []      -- by step number, 1 to 21
  regions : List PsRegion := [⟨1, 0, 0x180000⟩, ⟨2, 0x180000, 0x180000⟩, ⟨3, 0x300000, 0x2000000⟩,
                              ⟨4, 0x2400000, 0x400000⟩, ⟨5, 0x2800000, 0x800000⟩]
  resume : List Resume := []
  cal : SMap CalEntry := []        -- calibration store by slot
  fw : SMap Firmware := []         -- by component class 0x00 to 0x03
  halted : Option Nat := none      -- the step that halted the start (R502)
  bank : Nat := 0                  -- Keeper SRAM bank, and PSRAM cache, of the running image: 0 A, 1 B (R512)
  unretireCores : Nat := 0         -- cores and ways that the next start takes off the retirement map (R515)
  unretireWays : Nat := 0
  clear : List Nat := []           -- steps that the next start clears (R501)
  console : List Nat := []         -- steps printed on the UART console by halts (R502), newest first
  deriving DecidableEq, Repr

/-- Power pins, reset and the power controller (R519 to R547). -/
structure Power where
  mainEn : Bool := false
  mainPg : Bool := false
  mainReset : Bool := true
  porstLow : Bool := false
  cold : Bool := true              -- the next start is a cold start
  started : Bool := false          -- the start that follows the latest release of main reset has run
  pgTries : Nat := 0               -- power-good failures of the present request (R531)
  retryDue : Bool := false         -- MAIN_EN is to be driven high again (R531)
  failLatch : Bool := false        -- the power-failure latch
  tripped : Bool := false          -- R538
  ceiling : Option Mode := none    -- the highest mode reached while B21 is disabled (R500)
  startAt : Option Nat := none     -- the start-up step that the start waits in (R497)
  found : List Nat := []           -- the steps that this start found STARTED (R499)
  late : Bool := false             -- B15 to B19 of a warm start are still to run (R503)
  obs : StartObs := {}             -- what the start under way meets (the model's own)
  tc10 : Nat := 3                  -- TC10 enables of both ports as they were at BUOY entry (R330)
  throttleLow : Bool := false
  afterAon : Bool := true          -- no start has run since the AON reset
  resetCause : Word := 1           -- SYS_RESET_CAUSE (R545)
  tickHi : Word := 0               -- SYS_TICK_HI's latch (R524); no reset is given: 0 (DESIGN CHOICE, log 7)
  powerMw : Nat := 0               -- SYS_PWR_NOW
  duty : Nat := 0xFF               -- SYS_PWR_DUTY
  unmet : Bool := false
  limited : Bool := false          -- the thermal cap lay below the cap at the latest control step (R537)
  lastThrottle : Option Nat := none    -- device tick of the latest THERMAL_THROTTLE (R537)
  temps : SMap Int := []           -- SYS_TEMP readings, 0.125 °C units
  deriving DecidableEq, Repr

/-! ### Cameras (chapter 14) -/

/-- A frame that a context is taking (R430 to R432): its lines so far as the ISP reads them, one value per pixel of a raw
line and three of another, and the lines flagged. -/
structure CamFrame where
  buf : Nat
  csi : Nat                        -- frame number of the Frame Start
  tickFs : Nat
  lines : List (List Nat) := []
  flags : List Bool := []
  written : Nat := 0               -- output lines written
  deriving DecidableEq, Repr

/-- A camera context (R424, R429 to R433, R437).  The windows hold the words of the parameter block in force and of its
shadow by word number; an unlisted word is 0 (DESIGN CHOICE, log 29: no reset is given). -/
structure CamCtx where
  en : Bool := false
  hold : Bool := false
  part : Nat := 0
  win : SMap Word := []
  shadow : SMap Word := []
  st : Nat := 0                    -- CAM_CTX_STATUS.state
  buf : Nat := 0                   -- buffer in use or last used
  used : Bool := false             -- a buffer has been used since reset
  seq : Nat := 0
  free : Nat := 0xFFFF
  dropped : Word := 0
  skip : Nat := 0                  -- frames still to be skipped
  frame : Option CamFrame := none
  ended : List Nat := []           -- buffers of ended frames whose writes are not acknowledged (R431)
  deriving DecidableEq, Repr

/-- A CSI-2 port (R422, R436); its CAM_PORT_CFG is held by address. -/
structure CamPort where
  en : Bool := false
  state : Nat := 0
  lanesOk : Nat := 0
  sync : Bool := true              -- false after an uncorrectable header, until the next start of transmission (R432)
  faulty : Bool := false           -- marked by a loopback slice (R486)
  deriving DecidableEq, Repr

/-- The CAM block. -/
structure Cam where
  frameDone : Nat := 0             -- CAM_STATUS
  cfgErr : Bool := false
  irq : Bool := true               -- CAM_CTRL
  lowRate : Bool := false
  en : Bool := false
  ports : SMap CamPort := []
  ctxs : SMap CamCtx := []
  rested : List Nat := []          -- contexts that Keeper disabled for BEACON (R424)
  deriving DecidableEq, Repr

/-! ### Integrity (chapter 16) -/

/-- Keeper's retirement maps (R478, R479; those of frames are in `Mem.retired`) and the RAS block's records. -/
structure Ras where
  coresRetired : SMap Unit := []
  waysRetired : SMap Unit := []
  wayFaults : SMap (List Nat) := []    -- ticks of unbounded faults of SSR ways (R479)
  checkHold : SMap Unit := []          -- cores held for the full check (R488)
  wayHold : SMap Unit := []            -- SSR ways held for the full check
  passed : SMap (List Nat) := []       -- slices of the full check that a held core has passed: slice × 16 + part (R488)
  alarm : Word := 0                    -- RAS_ALARM (R493)
  alarmForced : Bool := false          -- ALARM_N by RAS_CTRL.alarm_force (R493)
  pllLocked : Bool := false            -- RAS_STATUS
  vmon : Nat := 0                      -- RAS_VMON, mV
  stResult : Word := 0                 -- RAS_ST_RESULT
  stDeferred : Word := 0               -- RAS_ST_DEFERRED
  deferred : SMap Nat := []            -- device tick of the first deferral of a slice, by slice × 64 + target (R485)
  lateTold : SMap Unit := []           -- slices whose SELFTEST_LATE has been raised
  bistAt : SMap Nat := []              -- device tick of the last passed logic BIST of a core (R495)
  checkAddr : Nat := 0                 -- RAS_CHECK_ADDR
  eccCorr : SMap Word := []            -- RAS_ECC_CORR, by source
  eccUncorr : SMap Word := []
  hbmPass : Nat := 0                   -- permille of the HBM pass done (R491)
  deepPass : Nat := 0
  hbmLate : Bool := false              -- SCRUB_LATE has been raised for the pass under way
  deepLate : Bool := false
  keeperRestarts : List Nat := []      -- ticks of Keeper restarts that failed (R480)
  slices : Nat := 0                    -- since the previous reliability record (R491)
  reruns : Nat := 0                    -- commands re-run since then
  corrTold : Nat := 0                  -- corrected and uncorrectable errors and deferrals told so far
  uncorrTold : Nat := 0
  deferredTold : Nat := 0
  mailSince : SMap Nat := []           -- device tick at which the health monitor first saw a mailbox FULL (R490)
  portFaults : SMap Unit := []         -- host ports that failed a loopback slice (R486)
  pllFaults : SMap Unit := []          -- PLL targets of ports whose PHY PLL has failed
  sensorOff : Nat := 0                 -- temperature sensors excluded (R486)
  vmonOff : Nat := 0                   -- voltage monitors excluded (R486); 0 is that of VDD_CORE
  trims : SMap (List Byte) := []       -- trims in force of temperature sensors, voltage monitors and PLLs, by slot of R509
  remap : SMap Nat := []               -- MRAM blocks and the reserve blocks that stand for them
  lastCal : SMap Int := []             -- temperature of an interface at its last calibration, by stack or channel (R484)
  deriving DecidableEq, Repr

/-! ### Logbook and events (R355, R505 to R507) -/

/-- A logbook record (R505); its crc and commit words are made of the rest. -/
structure LogRec where
  seq : Nat
  tick : Nat
  boot : Nat
  type : Nat
  part : Nat
  args : List Nat
  deriving DecidableEq, Repr

/-- The logbook (R505, R506): committed records by slot, the next sequence number, the second of the last append
and how many fell into it, and records dropped in it. -/
structure Logbook where
  recs : SMap LogRec := []
  next : Nat := 0
  second : Nat := 0
  inSecond : Nat := 0
  dropped : Nat := 0
  deriving DecidableEq, Repr

/-- An event that telemetry reports (R355). -/
structure Event where
  code : Nat
  queue : Nat := 0xFFFF
  arg : Nat := 0
  tick : Nat := 0
  told : List Nat := []           -- principals that have been told
  deriving DecidableEq, Repr
/-! ### Peripherals (R548 to R552) -/

/-- A read of the flash window that waits for a command to end (R549). -/
structure FlashRead where
  by_ : Req
  addr : Nat
  deriving DecidableEq, Repr

/-- The OSPI controller (R549). -/
structure Ospi where
  cfg : Word := 0x03000090
  cmd : Word := 0
  addr : Word := 0
  buf : SMap Byte := []            -- PERI_OSPI_BUF by byte; unlisted 0 (DESIGN CHOICE, log 31: no reset is given)
  busy : Bool := false
  err : Bool := false
  len : Nat := 0                   -- data bytes of the command that runs
  waits : List FlashRead := []     -- window reads that wait, oldest first
  deriving DecidableEq, Repr

/-- An I2C controller (R550).  The FIFOs are empty after reset. -/
structure I2c where
  speed : Nat := 0
  cmd : Word := 0x20000000         -- PERI_I2C_CMD but for go
  busy : Bool := false
  nack : Bool := false
  arbLost : Bool := false
  timeout : Bool := false
  done : Bool := false
  held : Bool := false             -- the bus is held: the next command begins with a repeated start
  repeated : Bool := false         -- the running transfer began with a repeated start
  tx : List Byte := []
  rx : List Byte := []
  deriving DecidableEq, Repr

/-- An SPI controller (R551).  The FIFOs are empty after reset. -/
structure Spi where
  cfg : Word := 0x0B00
  hold : Bool := false
  len : Nat := 0
  busy : Bool := false
  done : Bool := false
  cs : Option Nat := none          -- the chip select that is asserted
  tx : List Byte := []
  rx : List Byte := []
  deriving DecidableEq, Repr

/-- The PERI block (R548). -/
structure Peri where
  ospi : Ospi := {}
  i2c : SMap I2c := []             -- by controller, 0 to 3
  spi : SMap Spi := []             -- by controller, 0 and 1
  gpioDir : Nat := 0
  gpioOut : Nat := 0
  gpioIn : Nat := 0
  gpioEn : Nat := 0
  gpioType : Nat := 0
  gpioIrq : Nat := 0
  uartCfg : Word := 0x10088        -- en 1, div 136
  uartOverrun : Bool := false
  uartTx : List Byte := []         -- transmit FIFO, the byte being sent first
  uartRx : List Byte := []
  uartSent : List Byte := []       -- bytes that have left on the UART, newest first
  deriving DecidableEq, Repr


/-! ### The block -/

/-- The state of the block. -/
structure State where
  pending : List Instr := []      -- commands waiting, first in first out (the model's own)
  freeCtr : Nat := 0              -- uses of free values so far (the model's own, log 3)
  resp : Resp := .none            -- answer of the last bus access (R20)
  irqs : List Irq := []           -- interrupts raised, newest first
  board : Board := {}
  own : Owners := {}
  otp : Otp := {}
  tick : Nat := 0                 -- device tick, 64 bits (R6, R524)
  mem : List Host.Cell := []      -- device memory by 48-bit address (R19)
  poison : SMap Unit := []        -- poisoned 64-bit HBM words, by address / 8 (R553)
  mbx : Mbx := {}
  cores : SMap Core := []         -- an unlisted core is as after reset
  sems : SMap Sem := []
  mm : Mem := {}
  pcie : Pcie := {}
  ras : Ras := {}
  log : Logbook := {}
  aon : Aon := {}
  boot : Boot := {}
  power : Power := {}
  events : List Event := []       -- raised and not yet reported, newest first (R355)
  runs : SMap Run := []           -- the command on each core
  donations : List Donation := []
  k : Keeper := {}
  sched : Sched := {}
  port0 : HostPort := {}
  port1 : HostPort := {}
  activePort : Nat := 0           -- R328
  hostOut : List HostOut := []    -- frames sent on the host ports, newest first
  regs : SMap Word := []          -- registers written or counted, by address; unlisted at its reset value
  shadow : SMap Word := []        -- shadows of RWB fields that differ from the values in force, by address
  routes : SMap Route := []
  inMsgs : List InMsg := []       -- oldest first
  fab : Fab := {}
  cam : Cam := {}
  sec : Sec := {}
  secStore : SecStore := {}
  peri : Peri := {}
  deriving DecidableEq, Repr

/-- The state right after VDD_AON power-up: every field at its reset value (R392, R31 and the register
tables; the values that the spec does not give are named in the assumption log). -/
def State.reset : State := {}

end Sys2Proof.Machine
end

