-- ==== Sys2Proof/Machine/Operands.lean ====
section
/-! DEFINITION. Sys2Proof/Machine/Operands.lean: the operand forms of Kuner words (R104 to R106, R114, R117, R120,
R121, R124, R127 to R129, R138, R140, R142, R144, R146, R162, R166 to R168), the decode checks of R107, and the
tile descriptor with its addresses (R109 to R112). -/

namespace Sys2Proof.Machine

/-- Bits [hi:lo] of an instruction word. -/
def fld (w : BitVec 64) (hi lo : Nat) : Nat := bits w.toNat hi lo

/-- Major opcode (R104). -/
def major (w : BitVec 64) : Nat := fld w 63 58
/-- Minor opcode of the scalar formats (R114, R117, R120). -/
def minor (w : BitVec 64) : Nat := fld w 53 48

/-! ### State access of one core -/

/-- Core n; an unlisted core is as after reset. -/
def coreOf (s : State) (n : Nat) : Core := SMap.getD s.cores n {}

/-- Replace core n. -/
def setCore (s : State) (n : Nat) (c : Core) : State := { s with cores := SMap.put s.cores n c {} }

/-- Change core n by f. -/
def onCore (s : State) (n : Nat) (f : Core → Core) : State := setCore s n (f (coreOf s n))

/-- The partition that owns core n (R28, R454). -/
def corePart (s : State) (n : Nat) : Nat := SMap.getD s.own.core n 0

/-- S0 to S31; S0 reads 0 (R108). -/
def getS (c : Core) (k : Nat) : Word := if k = 0 then 0 else SMap.getD c.s k 0

/-- A write to S0 is discarded (R106). -/
def setS (c : Core) (k : Nat) (v : Word) : Core := if k = 0 then c else { c with s := SMap.put c.s k v 0 }

/-- P0 to P7; P0 reads true (R108). -/
def getP (c : Core) (k : Nat) : Bool := k == 0 || (SMap.get? c.p k).isSome

/-- A write to P0 is discarded (R106). -/
def setP (c : Core) (k : Nat) (v : Bool) : Core :=
  if k = 0 then c else { c with p := if v then SMap.set c.p k () else SMap.erase c.p k }

/-- The index of loop counter Lk; one that has never run reads 0 (R122). -/
def getL (c : Core) (k : Nat) : Word := SMap.getD c.l k 0

/-- The value of a 6-bit scalar source: S0 to S31, then L0 to L7 (R106). -/
def srcVal (c : Core) (f : Nat) : Word := if f < 32 then getS c f else getL c (f - 32)

/-- T0 to T15 (R108). -/
def getT (c : Core) (k : Nat) : BitVec 256 := SMap.getD c.t k 0

/-- Write a descriptor register. -/
def setT (c : Core) (k : Nat) (v : BitVec 256) : Core := { c with t := SMap.put c.t k v 0 }

/-- R105: does the guard of w pass? -/
def guardOk (c : Core) (w : BitVec 64) : Bool :=
  let p := getP c (fld w 56 54)
  if fld w 57 57 = 1 then !p else p

/-! ### Which row a word spells (R104, R136) -/

/-- The row that a word spells, as a number the meanings name: 64 × major (the register form's) + selector;
none if the opcode is reserved or unassigned. -/
def rowCode (w : BitVec 64) : Option Nat :=
  let m := major w
  let k := minor w
  let code (sel : Nat) : Option Nat := some (64 * m + sel)
  if m = 0 ∨ m = 1 then (if k ≤ 0x0E then some k else none)
  else if m = 2 ∨ m = 3 then (if k ≤ 5 then some (64 * 2 + k) else none)
  else if m = 4 then (if k ≤ 4 then code k else none)
  else if m = 5 then (if k ≤ 1 then code k else none)
  else if m = 6 then (if k = 0 then code 0 else none)
  else if m = 8 then (if k ≤ 3 then code k else none)
  else if m = 0x14 then (if fld w 53 51 ≤ 4 then code (fld w 53 51) else none)
  else if m = 0x18 then code (fld w 0 0)
  else if m = 0x23 then (if fld w 53 51 ≤ 4 then code (fld w 53 51) else none)
  else if m = 0x26 then code (fld w 30 30)
  else if m = 0x30 then
    let op := fld w 20 15
    if op ≤ 8 ∨ (0x10 ≤ op ∧ op ≤ 0x19) ∨ (0x20 ≤ op ∧ op ≤ 0x24) then code op else none
  else if m = 0x33 then code (fld w 14 14)
  else if m = 0x34 then (if fld w 20 19 ≤ 2 then code (fld w 20 19) else none)
  else if m = 0x35 then code (fld w 20 20)
  else if m = 0x36 then (if fld w 20 18 ≤ 4 then code (fld w 20 18) else none)
  else if m = 0x37 then code (fld w 20 20)
  else if m = 9 ∨ m = 0x10 ∨ m = 0x11 ∨ m = 0x12 ∨ m = 0x13 ∨ (0x19 ≤ m ∧ m ≤ 0x22) ∨ m = 0x24 ∨ m = 0x25
      ∨ m = 0x31 ∨ m = 0x32 then code 0
  else none

/-- A scalar source field is at most 0x27 (R107). -/
def srcOk (f : Nat) : Bool := decide (f < 0x28)
/-- A scalar destination field is at most 0x1F (R107). -/
def dstOk (f : Nat) : Bool := decide (f < 0x20)

/-- Is an operand specifier a scratchpad descriptor (R147)? -/
def isDescSpec (f : Nat) : Bool := decide (f < 0x10)
/-- Is an operand specifier an accumulator window (R147)? -/
def isWinSpec (f : Nat) : Bool := f == 0x10 || f == 0x11

/-- The decode checks of the element words: operand specifiers (R147) and undefined bits of ctl (R146). -/
def legalElem (w : BitVec 64) : Bool :=
  let m := major w
  let dst := fld w 53 49
  let sa := fld w 48 44
  let sb := fld w 43 39
  let ctl := fld w 20 0
  let desc := isDescSpec
  let win := isWinSpec
  let src (f : Nat) : Bool := desc f || win f || f == 0x12
  let out (f : Nat) : Bool := desc f || win f
  let zero (hi lo : Nat) : Bool := bits ctl hi lo == 0
  srcOk (fld w 38 33) && srcOk (fld w 32 27) && srcOk (fld w 26 21)
  && !((dst == 0x11 || sa == 0x11 || sb == 0x11) && (dst == 0x12 || sa == 0x12 || sb == 0x12))
  && (if m = 0x30 then
        let op := bits ctl 20 15
        let i32 := bitOf ctl 14
        let unary := op == 0 || op == 6 || op == 7 || op == 8 || (decide (0x10 ≤ op) && decide (op ≤ 0x19))
        zero 12 0 && out dst && src sa && (if unary then sb == 0x1F else src sb)
        && (if decide (0x10 ≤ op) && decide (op ≤ 0x19) then !i32 else true)
        && (if decide (0x20 ≤ op) then i32 else true)
      else if m = 0x31 then zero 13 0 && win sa && desc sb && desc dst
      else if m = 0x32 then zero 10 0 && win sa && desc sb && desc dst
      else if m = 0x33 then zero 13 0 && out dst && src sa && src sb
      else if m = 0x34 then zero 10 0 && win sa && desc sb && desc dst
      else if m = 0x35 then zero 11 0 && (out dst || dst == 0x1F) && src sa && src sb
      else if m = 0x36 then zero 15 0 && out dst && src sa && sb == 0x1F
      else
        zero 11 0 && src sa && (if bitOf ctl 20 then src sb && desc dst else sb == 0x1F && out dst))

/-- R107 for a word whose opcode is assigned: reserved fields are 0, scalar fields are in range and no field holds a
value that its instruction forbids. -/
def legal (w : BitVec 64) : Bool :=
  let m := major w
  let k := minor w
  let z (hi lo : Nat) : Bool := fld w hi lo == 0
  if m = 0 then dstOk (fld w 47 42) && srcOk (fld w 41 36) && srcOk (fld w 35 30) && z 29 0
  else if m = 1 then dstOk (fld w 47 42) && srcOk (fld w 41 36) && z 35 32
  else if m = 2 then decide (fld w 47 42 < 8) && srcOk (fld w 41 36) && srcOk (fld w 35 30) && z 29 0
  else if m = 3 then decide (fld w 47 42 < 8) && srcOk (fld w 41 36) && z 35 32
  else if m = 4 then z 38 0 && (k != 4 || z 41 39)
  else if m = 5 then (if k = 0 then dstOk (fld w 47 42) else srcOk (fld w 47 42)) && srcOk (fld w 41 36)
  else if m = 6 then dstOk (fld w 47 42) && z 41 36 && z 35 32 && decide (fld w 31 0 ≤ 8)
  else if m = 8 then
    z 35 24 && dstOk (fld w 47 42) && srcOk (fld w 41 36)
  else if m = 9 then srcOk (fld w 50 45) && !z 44 29 && z 7 0
  else if m = 0x10 ∨ m = 0x11 then srcOk (fld w 44 39) && srcOk (fld w 38 33) && z 8 0
  else if m = 0x12 then srcOk (fld w 48 43) && z 4 0
  else if m = 0x13 then z 49 49 && srcOk (fld w 44 39) && z 38 33 && z 20 0
  else if m = 0x14 then
    srcOk (fld w 38 33) && z 32 32 && (!(decide (2 ≤ fld w 53 51)) || fld w 42 39 != 0xF)
  else if m = 0x18 then srcOk (fld w 53 48) && srcOk (fld w 37 32) && z 15 1
  else if m = 0x19 then srcOk (fld w 53 48) && srcOk (fld w 37 32) && z 15 0
  else if m = 0x1A then z 48 0
  else if m = 0x1F then z 53 0
  else if 0x1B ≤ m ∧ m ≤ 0x1E then srcOk (fld w 48 43) && srcOk (fld w 39 34) && z 9 0
  else if m = 0x20 then fld w 53 51 != 7 && srcOk (fld w 42 37) && z 14 0
  else if m = 0x21 ∨ m = 0x22 then
    srcOk (fld w 49 44) && srcOk (fld w 43 38) && srcOk (fld w 37 32) && z 0 0
  else if m = 0x23 then
    srcOk (fld w 45 40) && srcOk (fld w 39 34) && srcOk (fld w 12 7) && z 6 0
    && (decide (3 ≤ fld w 53 51) || (z 50 50 && z 49 46))
  else if 0x24 ≤ m ∧ m ≤ 0x26 then srcOk (fld w 44 39) && srcOk (fld w 38 33) && z 29 0 && z 32 31
  else legalElem w

/-- A row, count, offset or tile index: a scalar value plus an immediate, in 32-bit arithmetic that wraps (R108, R137;
DEDUCED, log 169). -/
def plus32 (v imm : Nat) : Nat := (v + imm) % 2 ^ 32

/-! ### Tile descriptors (R109 to R112) -/

/-- A tile descriptor, its fields decoded; minus-one fields hold their counts. -/
structure Desc where
  format : Nat
  space : Nat
  base : Nat
  padValue : Nat
  viewW : Nat
  h : Nat
  w : Nat
  rowBytes : Nat
  lineStride : Nat
  colStride : Nat
  tileBytes : Nat
  tagPtr : Nat
  padConst : Bool
  padMask : Nat
  padBottom : Nat
  padTop : Nat
  padRight : Nat
  padLeft : Nat
  stepRow : Nat
  stepCol : Nat
  viewRow : Int
  viewCol : Int
  reserved : Bool        -- some reserved field is not 0
  deriving DecidableEq, Repr

/-- R109, R110: the fields of a descriptor.  A field that R109 requires to be 0 (the height and line stride of a memory
descriptor, the upper half of a U8 pad value) counts as a reserved one (DEDUCED, log 62). -/
def descOf (t : BitVec 256) : Desc :=
  let f (word hi lo : Nat) : Nat := bits t.toNat (64 * word + hi) (64 * word + lo)
  let space := f 0 49 48
  { format := f 0 57 50, space := space, base := f 0 47 0,
    padValue := f 2 63 48, viewW := f 2 47 36 + 1, h := f 2 35 24 + 1, w := f 2 23 12 + 1,
    rowBytes := f 2 11 0 + 1, lineStride := f 3 53 32, colStride := f 3 31 0,
    tileBytes := f 1 59 48 + 1, tagPtr := f 1 47 0,
    padConst := f 1 58 58 == 1, padMask := f 1 57 54, padBottom := f 1 53 48, padTop := f 1 47 42,
    padRight := f 1 41 36, padLeft := f 1 35 30, stepRow := f 1 29 27 + 1, stepCol := f 1 26 24 + 1,
    viewRow := signed 12 (f 1 23 12), viewCol := signed 12 (f 1 11 0),
    reserved := f 0 63 58 != 0 || f 3 63 54 != 0
      || (if space = 0 then f 1 63 59 != 0 || (f 0 57 50 == 2 && f 2 63 56 != 0)
          else f 1 63 60 != 0 || f 2 35 24 != 0 || f 3 53 32 != 0) }

/-- Is a tile format code assigned (R68)? -/
def formatOk (f : Nat) : Bool := decide (1 ≤ f) && decide (f ≤ 0x0B)

/-- R112: a scratchpad descriptor that an instruction may use. -/
def spadDescOk (d : Desc) : Bool :=
  d.space == 0 && formatOk d.format && !d.reserved && decide (d.base < 2 ^ 22)

/-- R112: a memory descriptor (physical or object) that an instruction may use, but for its addresses. -/
def memDescOk (d : Desc) : Bool :=
  (d.space == 1 || d.space == 2) && formatOk d.format && !d.reserved
  && (if d.space = 1 then d.base % 64 == 0 else (d.base % 2 ^ 32) % 64 == 0 && decide (d.tagPtr < 2 ^ 32))
  && d.colStride % 64 == 0 && d.tagPtr % 16 == 0

/-- R111 row_addr: the scratchpad offset of row j. -/
def rowAddr (d : Desc) (j : Nat) : Nat := d.base + (j / d.w) * d.lineStride + (j % d.w) * d.colStride

/-- Number of rows of a scratchpad descriptor (R110). -/
def rowsOf (d : Desc) : Nat := d.w * d.h

/-- R111 tile_addr: payload offset from the base, tag offset, length of tile i. -/
def tileAddr (d : Desc) (i : Nat) : Nat × Nat × Nat :=
  (d.base + i * d.colStride, d.tagPtr + 16 * i, if i = d.w - 1 then d.rowBytes else d.tileBytes)

/-- What view_row answers for a stream position (R111). -/
inductive ViewAt where
  | fault
  | pad
  | at (a : Int)
  deriving DecidableEq, Repr

/-- R111 view_row. -/
def viewRowAt (d : Desc) (i : Nat) : ViewAt :=
  let y : Int := d.viewRow + ((i / d.viewW) * d.stepRow : Nat)
  let x : Int := d.viewCol + ((i % d.viewW) * d.stepCol : Nat)
  let outside : Bool :=
    decide (y < -(d.padTop : Int)) || decide (y ≥ (d.h + d.padBottom : Nat))
    || decide (x < -(d.padLeft : Int)) || decide (x ≥ (d.w + d.padRight : Nat))
  let pad : Bool :=
    (decide (y < 0) && bitOf d.padMask 2) || (decide (y ≥ (d.h : Int)) && bitOf d.padMask 3)
    || (decide (x < 0) && bitOf d.padMask 0) || (decide (x ≥ (d.w : Int)) && bitOf d.padMask 1)
  if outside then .fault
  else if pad then .pad
  else .at ((d.base : Int) + y * d.lineStride + x * d.colStride)

/-- The size of a scratchpad (R14). -/
def spadSize : Nat := 0x400000

/-- R112: rows j0 to j0 + n - 1 lie inside the scratchpad. -/
def rowsInside (d : Desc) (j0 n : Nat) : Bool :=
  (span j0 n).all fun j => decide (rowAddr d j + d.rowBytes ≤ spadSize)

/-- The extent end of a descriptor: one past the last byte of its last row (R118, R139). -/
def extentEnd (d : Desc) : Nat := rowAddr d (rowsOf d - 1) + d.rowBytes

end Sys2Proof.Machine
end

