-- ==== Sys2Proof/Machine/Map.lean ====
section
/-! DEFINITION. Sys2Proof/Machine/Map.lean: the device physical address map (R19 to R21), who reaches what (R20), and the
bus answers. -/

namespace Sys2Proof.Machine

/-- A range of the map (R19). -/
inductive Region where
  | hbm (unit : Nat) | deep (ch : Nat) | psram (port : Nat) | spad (n : Nat) | ssr (way : Nat)
  | sessTable | keeperSram | aonSram | mram | flash | pcieWin
  | sysRegs | coreRegs (n : Nat) | memRegs | schedRegs | fabRegs | hostRegs | aonRegs | camRegs | secRegs
  | mbxRegs | rasRegs | pcieRegs | periRegs
  deriving DecidableEq, Repr

/-- One of 16 MiB register blocks, by its number from 0x00FF_0000_0000 (R19). -/
def regBlock : Nat → Option Region
  | 0x0 => some .sysRegs | 0x2 => some .memRegs | 0x3 => some .schedRegs | 0x4 => some .fabRegs
  | 0x5 => some .hostRegs | 0x6 => some .aonRegs | 0x7 => some .camRegs | 0x8 => some .secRegs
  | 0x9 => some .mbxRegs | 0xA => some .rasRegs | 0xB => some .pcieRegs | 0xC => some .periRegs
  | _ => none

/-- Size of an HBM allocation unit (R21). -/
def hbmUnit : Nat := 0x90000000
/-- Size of HBM (R19). -/
def hbmSize : Nat := 32 * hbmUnit
/-- Base of SSR (R19). -/
def ssrBase : Nat := 0x00F010000000
/-- Base of the PSRAM window (R19). -/
def psramBase : Nat := 0x008000000000
/-- Base of the deep-tier window (R19). -/
def deepBase : Nat := 0x004000000000

/-- R19, R20: the range that holds an address; none in a hole or where no memory is fitted. -/
def regionOf (b : Board) (a : Nat) : Option Region :=
  if a < hbmSize then (if b.stackOff = some (a / hbmUnit / 16) then none else some (.hbm (a / hbmUnit)))
  else if deepBase ≤ a ∧ a < 0x008000000000 then
    let c := (a - deepBase) / 0x800000000
    if (a - deepBase) % 0x800000000 < b.lpGib * 2 ^ 30 then some (.deep c) else none
  else if psramBase ≤ a ∧ a < 0x008008000000 then
    let o := a - psramBase
    if o < 0x4000000 then (if o < b.psram0 * 2 ^ 20 then some (.psram 0) else none)
    else (if o - 0x4000000 < b.psram1 * 2 ^ 20 then some (.psram 1) else none)
  else if 0x00F000000000 ≤ a ∧ a < 0x00F008000000 then some (.spad ((a - 0x00F000000000) / 0x400000))
  else if ssrBase ≤ a ∧ a < ssrBase + 0x2000000 then some (.ssr ((a - ssrBase) / 0x200000))
  else if 0x00F020000000 ≤ a ∧ a < 0x00F020400000 then some .sessTable
  else if 0x00F030000000 ≤ a ∧ a < 0x00F030200000 then some .keeperSram
  else if 0x00F040000000 ≤ a ∧ a < 0x00F040600000 then some .aonSram
  else if 0x00F050000000 ≤ a ∧ a < 0x00F050800000 then some .mram
  else if 0x00F060000000 ≤ a ∧ a < 0x00F070000000 then some .flash
  else if 0x00F080000000 ≤ a ∧ a < 0x00F090000000 then some .pcieWin
  else if 0x00FF01000000 ≤ a ∧ a < 0x00FF01200000 then some (.coreRegs ((a - 0x00FF01000000) / 0x10000))
  else if 0x00FF00000000 ≤ a ∧ a < 0x00FF0D000000 then regBlock ((a - 0x00FF00000000) / 0x1000000)
  else none

/-- The partition that owns the resource behind a range; the system partition 0 for what is not owned (R454). -/
def ownerOf (o : Owners) : Region → Nat
  | .hbm u => SMap.getD o.hbm u 0
  | .deep c => SMap.getD o.lp c 0
  | .ssr w => SMap.getD o.ssr w 0
  | _ => 0

/-- Does a requester reach a range at all (R19, column "Reached by")?  `wr`: for a write. -/
def reaches (r : Req) (wr : Bool) : Region → Bool
  | .hbm _ => match r with
    | .coreDma _ | .memMgr | .isp | .tct | .proxy _ | .keeper _ => true
    | _ => false
  | .deep _ => r == .memMgr
  | .psram _ => match r with
    | .dsp | .keeper _ => true
    | .coreDma _ => !wr
    | _ => false
  | .spad n => match r with
    | .coreDma m => decide (m.val = n)
    | _ => false
  | .ssr _ => match r with
    | .coreDma _ | .keeper _ => true
    | _ => false
  | .sessTable | .keeperSram | .pcieWin => match r with
    | .keeper _ => true
    | _ => false
  | .aonSram => match r with
    | .dsp | .keeper _ => true
    | _ => false
  | .mram => match r with
    | .keeper _ | .sec => true
    | _ => false
  | .flash => match r with
    | .keeper _ | .sec => !wr
    | _ => false
  | .aonRegs => match r with
    | .keeper _ | .dsp => true
    | _ => false
  | .secRegs => match r with
    | .sec => true
    | .keeper _ => !wr
    | _ => false
  | .mbxRegs => match r with
    | .keeper _ | .sec | .dsp | .coreSeq _ | .tct | .proxy _ | .sched | .semUnit _ => true
    | _ => false
  | _ => match r with
    | .keeper _ => true
    | _ => false

/-- The bus answers an error and nothing changes (R20). -/
def busError (s : State) : State := { s with resp := .busError }
/-- The bus answers that a write was taken. -/
def busOk (s : State) : State := { s with resp := .ok }
/-- The bus answers with read data. -/
def busData (s : State) (w : Word) : State := { s with resp := .data w }

/-- May core n's DMA engines touch the n bytes from a (R20, R112, R126)?  The DSP's PSRAM region is the DSP's alone (R394).  Both ends are checked; a range of at
most 4 KiB meets at most two resources. -/
def dmaReach (s : State) (core a len : Nat) (wr : Bool) : Bool :=
  let one (x : Nat) : Bool := match regionOf s.board x with
    | some (.hbm u) => SMap.getD s.own.hbm u 0 == corePart s core
    | some (.ssr w) => SMap.getD s.own.ssr w 0 == corePart s core
    | some (.psram _) => !wr && corePart s core == 0 && !s.boot.regions.any fun r =>
        r.kind == 4 && decide (0x008000000000 + r.offset ≤ x) && decide (x < 0x008000000000 + r.offset + r.length)
    | _ => false
  one a && one (a + len - 1)

/-- Is any 64-bit word of the n bytes from a poisoned (R553)? -/
def poisoned (s : State) (a n : Nat) : Bool :=
  s.poison.any fun k => decide (a / 8 ≤ k.1) && decide (k.1 ≤ (a + n - 1) / 8)

/-- A write to HBM by any engine replaces the words it covers whole, which clears their poison. -/
def writeMem (s : State) (a : Nat) (bs : List Byte) : State :=
  { s with mem := Memory.writeBytes s.mem a bs,
           poison := s.poison.filter fun k => !(decide (a ≤ 8 * k.1) && decide (8 * k.1 + 8 ≤ a + bs.length)) }

/-- Bytes of device memory. -/
def readMem (s : State) (a n : Nat) : List Byte := Memory.readBytes s.mem a n

/-- The check tag that goes with a tile (R68). -/
def tagBytes (payload : List Byte) (format origin originId index : Nat) : List Byte :=
  leBytes 4 (crc32c payload).toNat ++ leBytes 2 payload.length ++ leBytes 1 format ++ leBytes 1 origin
    ++ leBytes 1 originId ++ leBytes 3 0 ++ leBytes 4 index

/-- Store a tile and its tag (R68, R70). -/
def writeTile (s : State) (a tag : Nat) (payload : List Byte) (format origin originId index : Nat) : State :=
  writeMem (writeMem s a payload) tag (tagBytes payload format origin originId index)

/-- What a tile check finds (R69). -/
inductive TileCheck where
  | good
  | formatErr
  | mismatch
  deriving DecidableEq, Repr

/-- R69, R553: compare the tag at `tag` and the payload at `a` with the length, format and index asked. -/
def checkTile (s : State) (a tag len format index : Nat) : TileCheck :=
  if poisoned s tag 16 then .mismatch
  else if Memory.le s.mem (tag + 4) 2 ≠ len ∨ Memory.le s.mem (tag + 6) 1 ≠ format
      ∨ Memory.le s.mem (tag + 12) 4 ≠ index then .formatErr
  else if poisoned s a len ∨ Memory.le s.mem tag 4 ≠ (crc32c (readMem s a len)).toNat then .mismatch
  else .good

end Sys2Proof.Machine
end

