-- ==== Sys2Proof/Machine/Mailbox.lean ====
section
/-! DEFINITION. Sys2Proof/Machine/Mailbox.lean: the mailboxes (R22 to R25, R464, R465). -/

namespace Sys2Proof.Machine

/-- The sender ID of a requester (R23); 0 for one that sends no messages. -/
def senderId : Req → Nat
  | .keeper h => 1 + h.val
  | .sec => 0x08
  | .dsp => 0x10
  | .coreSeq n => 0x20 + n.val
  | .tct => 0x40
  | .proxy p => 0x41 + p.val
  | .sched => 0x48
  | .semUnit c => 0x49 + c.val
  | .coreDma _ | .memMgr | .isp => 0

/-- The bit of MBX_SENDER_MASK that names a sender, word 1 counted from bit 32 (R465). -/
def maskBit : Req → Option Nat
  | .coreSeq n => some n.val
  | .keeper h => some (32 + h.val)
  | .sec => some 36
  | .dsp => some 37
  | .tct => some 38
  | .proxy p => some (39 + p.val)
  | .sched => some 43
  | .semUnit c => some (44 + c.val)
  | .coreDma _ | .memMgr | .isp => none

/-- MBX_RECV[m]; reset: receiver 0x00, harts 0b0001 (R22). -/
def mbxRecv (b : Mbx) (m : Nat) : Nat := (SMap.getD b.recv m 0x1000).toNat
/-- The receiver field (R22). -/
def mbxReceiver (b : Mbx) (m : Nat) : Nat := bits (mbxRecv b m) 7 0
/-- Is mailbox m FULL? -/
def mbxFull (b : Mbx) (m : Nat) : Bool := b.full.getLsbD m
/-- Is mailbox m locked (R465)? -/
def mbxLocked (b : Mbx) (m : Nat) : Bool := b.lock.getLsbD m
/-- Word w of mailbox m. -/
def mbxWord (b : Mbx) (m w : Nat) : Word := SMap.getD b.words (8 * m + w) 0

/-- Does the mask of mailbox m allow a sender (R464)? -/
def mbxAllows (b : Mbx) (m : Nat) (r : Req) : Bool :=
  match maskBit r with
  | some k => (SMap.getD b.senderMask m 0).getLsbD k
  | none => false

/-- The receiver code of a requester (R22). -/
def receiverCode : Req → Option Nat
  | .keeper _ => some 0x00
  | .sec => some 0x08
  | .dsp => some 0x10
  | .coreSeq n => some (0x20 + n.val)
  | .tct => some 0x40
  | .proxy p => some (0x41 + p.val)
  | _ => none

/-- Is this a value that MBX_RECV.receiver takes (R22)? -/
def receiverOk (v : Nat) : Bool :=
  v == 0 || v == 0x08 || v == 0x10 || (decide (0x20 ≤ v) && decide (v ≤ 0x3F))
    || (decide (0x40 ≤ v) && decide (v ≤ 0x44)) || v == 0xFF

/-- R23: a sender fault counts, and the first one is recorded and interrupts Keeper hart 0. -/
def senderFault (s : State) (cause sender m w : Nat) : State :=
  let b := s.mbx
  let b1 := { b with faultCount := satAdd b.faultCount 1 }
  if bitOf b.fault.toNat 31 then { s with mbx := b1 }
  else
    { s with
      mbx := { b1 with fault := word (2 ^ 31 + cause * 2 ^ 24 + sender * 2 ^ 16 + m * 2 ^ 8 + w) },
      irqs := .senderFault :: s.irqs }

/-- Store one mailbox word. -/
def mbxStore (s : State) (m w : Nat) (v : Word) : State :=
  { s with mbx := { s.mbx with words := SMap.put s.mbx.words (8 * m + w) v 0 } }

/-- The doorbells of a message in mailbox m (R23). -/
def doorbells (b : Mbx) (m : Nat) : List Irq :=
  let r := mbxReceiver b m
  let harts := bits (mbxRecv b m) 15 12
  if r = 0 then
    ([0, 1, 2, 3] : List (Fin 4)).filterMap fun h =>
      if bitOf harts h.val then some (.doorbell (.keeper h) m) else none
  else if r = 0x08 then [.doorbell .sec m]
  else if r = 0x10 then [.doorbell .dsp m]
  else []

/-- R23: why a write of word w is refused, in the order the record takes. -/
def mbxRefusal (b : Mbx) (by_ : Req) (m w : Nat) : Option Nat :=
  if !mbxAllows b m by_ then some 1
  else if w = 7 ∧ mbxReceiver b m = 0xFF then some 3
  else if mbxFull b m then some 0
  else none

/-- R23: set FULL, stamp the sender ID over word 0 bits [31:24] and ring the receiver. -/
def mbxPostNow (s : State) (by_ : Req) (m : Nat) (v : Word) : State :=
  let s1 := mbxStore s m 7 v
  let w0 := bits (mbxWord s1.mbx m 0).toNat 23 0 + senderId by_ * 2 ^ 24
  let s2 := mbxStore s1 m 0 (word w0)
  { s2 with mbx := { s2.mbx with full := s2.mbx.full ||| (1#128 <<< m) },
            irqs := doorbells s2.mbx m ++ s2.irqs }

/-- A sender's write of one mailbox word (R23); a requester that is no sender does not reach the block (R19, R20). -/
def mbxWrite (s : State) (by_ : Req) (m w : Nat) (v : Word) : State :=
  match mbxRefusal s.mbx by_ m w with
  | some c => busError (if (maskBit by_).isSome then senderFault s c (senderId by_) m w else s)
  | none => busOk (if w = 7 then mbxPostNow s by_ m v else mbxStore s m w v)

/-- MAILBOX_WORD_WRITE: words 0 to 6. -/
def execMailboxWordWrite (by_ : Req) (m : Fin 128) (w : Fin 7) (v : Word) (s : State) :
    Host.Outcome State Fault Refusal := .next (mbxWrite s by_ m.val w.val v)

/-- MAILBOX_POST: the write of word 7. -/
def execMailboxPost (by_ : Req) (m : Fin 128) (v : Word) (s : State) : Host.Outcome State Fault Refusal :=
  .next (mbxWrite s by_ m.val 7 v)

/-- The processor behind a sender ID that takes TAKEN as an interrupt (R24). -/
def takenIrq (id m : Nat) : List Irq :=
  if 1 ≤ id ∧ id ≤ 4 then [.taken (.keeper ⟨(id - 1) % 4, Nat.mod_lt _ (by decide)⟩) m]
  else if id = 0x08 then [.taken .sec m]
  else if id = 0x10 then [.taken .dsp m]
  else []

/-- R24: the effect of a read of word 7 on a FULL mailbox. -/
def mbxClear (s : State) (m : Nat) : State :=
  let id := bits (mbxWord s.mbx m 0).toNat 31 24
  { s with mbx := { s.mbx with full := s.mbx.full &&& ~~~(1#128 <<< m) }, irqs := takenIrq id m ++ s.irqs }

/-- R24: a read of word 7 by the receiver or a Keeper hart; another reader gets a bus error. -/
def mbxTake (s : State) (by_ : Req) (m : Nat) : State :=
  let isKeeper := match by_ with | .keeper _ => true | _ => false
  if isKeeper || receiverCode by_ == some (mbxReceiver s.mbx m) then
    let v := mbxWord s.mbx m 7
    busData (if mbxFull s.mbx m then mbxClear s m else s) v
  else busError s

/-- MAILBOX_TAKE: a read of word 7. -/
def execMailboxTake (by_ : Req) (m : Fin 128) (s : State) : Host.Outcome State Fault Refusal :=
  .next (mbxTake s by_ m.val)

/-- Write the words of a hardware sender's message in rising order (DESIGN CHOICE, log 9), from word k. -/
def mbxWords (s : State) (m k : Nat) : List Word → State
  | [] => s
  | v :: r => mbxWords (mbxStore s m k v) m (k + 1) r

/-- R25: a hardware sender writes its whole message into a mailbox that is not FULL; a refused write drops it. -/
def hwWrite (s : State) (by_ : Req) (m : Nat) (ws : List Word) : State :=
  if !mbxAllows s.mbx m by_ then senderFault s 1 (senderId by_) m 0
  else
    let s1 := mbxWords s m 0 (ws.take 7)
    if mbxReceiver s.mbx m = 0xFF then senderFault s1 3 (senderId by_) m 7
    else mbxPostNow s1 by_ m (ws.getD 7 0)

/-- How many messages a hardware sender holds (R25). -/
def heldCount (s : State) (id : Nat) : Nat := (s.mbx.held.filter fun h => h.sender == id).length

/-- R25: does this hardware sender drop what it cannot keep?  The SCHED block and the semaphore units do; the others take on no
work that would produce another message, and what waits at them is kept here as the messages it will become (log 43). -/
def dropsBeyond (id : Nat) : Bool := decide (0x48 ≤ id) && decide (id ≤ 0x4C)

/-- R25: messages that the SCHED block and a semaphore unit keep. -/
def holdLimit : Nat := 32

/-- R25: post a hardware sender's message, or hold it while the mailbox is FULL or older messages wait; a 33rd message of the
SCHED block or a semaphore unit is dropped with cause 2. -/
def hwPost (s : State) (by_ : Req) (m : Nat) (ws : List Word) : State :=
  let id := senderId by_
  let waits := mbxFull s.mbx m || s.mbx.held.any fun h => h.sender == id && h.mailbox == m
  if !waits then hwWrite s by_ m ws
  else if dropsBeyond id && decide (holdLimit ≤ heldCount s id) then senderFault s 2 id m 7
  else { s with mbx := { s.mbx with held := s.mbx.held ++ [⟨id, m, ws⟩] } }

/-- The oldest held message of a sender whose mailbox is free. -/
def heldReady (s : State) (id : Nat) : Option HeldMsg :=
  match s.mbx.held.find? fun h => h.sender == id with
  | some h => if mbxFull s.mbx h.mailbox then none else some h
  | none => none

/-- Post the oldest held message of a sender, if its mailbox is free (R25). -/
def releaseHeld (s : State) (by_ : Req) : State :=
  match heldReady s (senderId by_) with
  | some h => hwWrite { s with mbx := { s.mbx with held := s.mbx.held.erase h } } by_ h.mailbox h.words
  | none => s

/-- MBX_MASK_LOCK[i] (R465): W1S, by SEC only. -/
def execMbxMaskLock (by_ : Req) (i : Fin 4) (v : Word) (s : State) : Host.Outcome State Fault Refusal :=
  .next (if by_ = .sec then
    busOk { s with mbx := { s.mbx with lock := s.mbx.lock ||| (v.setWidth 128 <<< (32 * i.val)) } }
  else busError s)

end Sys2Proof.Machine
end

