-- ==== Sys2Proof/Machine/Flags.lean ====
section
/-! DEFINITION. Sys2Proof/Machine/Flags.lean: the flags that commands and instructions set: CORE_FAULT (R99, R131), W1C bits
(R9, R11), saturation counter slots (R61), the residue check (R82), and the free-value counter. -/

namespace Sys2Proof.Machine

/-- The bit numbers of CORE_FAULT (R99). -/
inductive FaultBit where
  | arithResidue | checkMismatch | eccUncorr | watchdog
  | accOverflow | illegalInstr | tileFault | tileFormat | rowNotOwned | misaligned | rowLimit
  deriving DecidableEq, Repr

/-- R99: the place of a fault in CORE_FAULT. -/
def faultBitNo : FaultBit → Nat
  | .arithResidue => 0 | .checkMismatch => 1 | .eccUncorr => 2 | .watchdog => 3
  | .accOverflow => 8 | .illegalInstr => 9 | .tileFault => 10 | .tileFormat => 11
  | .rowNotOwned => 12 | .misaligned => 13 | .rowLimit => 14

/-- A fault of an instruction, with the address that R69, R20 or R82 names for it, if one does. -/
structure CmdFault where
  bit : FaultBit
  addr : Option Nat := none
  deriving DecidableEq, Repr

/-- A fault without an address. -/
def faultOf {α : Type} (b : FaultBit) : Except CmdFault α := .error { bit := b }
/-- A fault that names an address. -/
def faultAt {α : Type} (b : FaultBit) (a : Nat) : Except CmdFault α := .error { bit := b, addr := some a }

/-- Go on if a check holds, else the fault. -/
def need (ok : Bool) (b : FaultBit) : Except CmdFault Unit := if ok then .ok () else faultOf b

/-- Note that a free value was used (log 3). -/
def nextFree (s : State) : State := { s with freeCtr := s.freeCtr + 1 }

/-- R99, R131: record a fault of the running command: the first sets CORE_FAULT afresh with its program address
and address, a later one only sets its bit.  An address that the spec does not give is a free value. -/
def recordFault (s : State) (n : Nat) (f : CmdFault) (pc : Nat) : State :=
  let c := coreOf s n
  let bit : Word := word (2 ^ faultBitNo f.bit)
  if c.faulted then setCore s n { c with fault := c.fault ||| bit }
  else
    let a := f.addr.getD (Config.freeNat s.freeCtr % 2 ^ 48)
    nextFree (setCore s n { c with faulted := true, fault := bit, faultPc := word pc, faultAddr := a })

/-- R9: a W1C write: a 1 clears the bit. -/
def w1c (old v mask : Word) : Word := old &&& ~~~(v &&& mask)

/-- R61: count into a saturation slot: saturated elements, elements, largest magnitude. -/
def satCount (c : Core) (slot sats elems maxMag : Nat) : Core :=
  let x := SMap.getD c.sat slot {}
  let y : SatSlot := { satCount := satAdd x.satCount sats, elems := satAdd x.elems elems,
                       maxMag := word (max x.maxMag.toNat (min maxMag 0xFFFFFFFF)) }
  { c with sat := SMap.put c.sat slot y {} }

/-- res3 (R82). -/
def res3 (v : Int) : Nat := (v % 3).toNat

/-- R82: the residue of one product of a stationary element and a streamed element under shift s. -/
def residueTerm (w a : Int) (s : Nat) : Nat := res3 w * res3 a * (if s % 2 = 0 then 1 else 2)

/-- R82: does an accumulator write pass the residue check? -/
def residueOk (old new : Int) (r : Nat) : Bool := res3 new == (res3 old + r) % 3

end Sys2Proof.Machine
end

