-- ==== Sys2Proof/Machine/Objects.lean ====
section
/-! DEFINITION. Sys2Proof/Machine/Objects.lean: objects, pages, frames and promotion requests, as far as the cores and
Keeper share them (R252 to R262). -/

namespace Sys2Proof.Machine

/-- The key of object n of a partition. -/
def objKey (part n : Nat) : Nat := 65536 * part + n

/-- The object under a number, if it exists: the number lies below MEM_OBJT's limit and names one (R286). -/
def objOf (s : State) (part n : Nat) : Option Obj :=
  if n < (SMap.getD s.mm.objt part {}).limit then SMap.get? s.mm.objs (objKey part n) else none

/-- Change an object that exists. -/
def modObj (s : State) (key : Nat) (f : Obj → Obj) : State :=
  { s with mm := { s.mm with objs := SMap.modify s.mm.objs key f } }

/-- Change a page record that exists. -/
def modPage (s : State) (l2 : Nat) (f : Page → Page) : State :=
  { s with mm := { s.mm with pages := SMap.modify s.mm.pages l2 f } }

/-- R256: the physical address of offset o of an object whose frames are given. -/
def objAddr (frames : List Nat) (o : Nat) : Nat := frames.getD (o / 0x10000) 0 * 0x10000 + o % 0x10000

/-- n bytes of an object from offset o, split at frame boundaries (R256). -/
def readObj (m : Memory) (frames : List Nat) (o : Nat) : Nat → List Byte
  | 0 => []
  | n + 1 => Memory.read m (objAddr frames o) :: readObj m frames (o + 1) n

/-- Are bytes of an object poisoned (R553)? -/
def objPoisoned (s : State) (frames : List Nat) (o n : Nat) : Bool :=
  (span 0 (n / 8 + 2)).any fun k =>
    decide (8 * k < n + 8) && poisoned s (objAddr frames (min (o + 8 * k) (o + n - 1))) 1

/-- R69 for a tile of an object: the tag at offset `tag`, the payload at offset `o`. -/
def checkObjTile (s : State) (frames : List Nat) (o tag len format index : Nat) : TileCheck :=
  let t := readObj s.mem frames tag 16
  let fieldOf (at_ n : Nat) : Nat := leNat ((t.drop at_).take n)
  if objPoisoned s frames tag 16 then .mismatch
  else if fieldOf 4 2 ≠ len ∨ fieldOf 6 1 ≠ format ∨ fieldOf 12 4 ≠ index then .formatErr
  else if objPoisoned s frames o len ∨ fieldOf 0 4 ≠ (crc32c (readObj s.mem frames o len)).toNat then .mismatch
  else .good

/-- The residency of an item. -/
def itemSt (s : State) : Item → Option ObjSt
  | .obj p n => (SMap.get? s.mm.objs (objKey p n)).map Obj.st
  | .page a => (SMap.get? s.mm.pages a).map Page.st

/-- Change the residency of an item. -/
def setItemSt (s : State) (i : Item) (v : ObjSt) : State :=
  match i with
  | .obj p n => modObj s (objKey p n) fun o => { o with st := v }
  | .page a => modPage s a fun g => { g with st := v }

/-- The partition of an item. -/
def itemPart (s : State) : Item → Nat
  | .obj p _ => p
  | .page a => match SMap.get? s.mm.pages a with
    | some g => g.part
    | none => 0

/-- The earlier of a pending deadline and a new one. -/
def earlier (d : Option Nat) (n : Nat) : Option Nat := some (match d with | some x => min x n | none => n)

/-- Note a promotion deadline in the entry (R255). -/
def noteDeadline (s : State) (i : Item) (d : Nat) : State :=
  match i with
  | .obj p n => modObj s (objKey p n) fun o => { o with deadline := earlier o.deadline d }
  | .page a => modPage s a fun g => { g with deadline := earlier g.deadline d }

/-- Lower the deadline of a queued or dispatched promotion of an item. -/
def lowerDeadline (l : List Promo) (i : Item) (d : Nat) : List Promo :=
  l.map fun p => if p.item = i then { p with deadline := min p.deadline d, late := min p.late d } else p

/-- R258, R261: a promotion request for an item with an absolute deadline (one already past counts as now). -/
def promote (s : State) (i : Item) (deadline : Nat) : State :=
  let d := max deadline s.tick
  match itemSt s i with
  | some .demoting => setItemSt s i .resident
  | some .deep =>
    let s1 := noteDeadline s i d
    if s.mm.promoQ.any fun p => p.item == i then
      { s1 with mm := { s1.mm with promoQ := lowerDeadline s1.mm.promoQ i d } }
    else { s1 with mm := { s1.mm with promoQ := s1.mm.promoQ ++ [⟨i, d, d⟩] } }
  | some .promoting =>
    let s1 := noteDeadline s i d
    { s1 with mm := { s1.mm with promoIn := lowerDeadline s1.mm.promoIn i d } }
  | _ => s

/-- Put an object at the front of a core's translation cache, dropping the least recently used (R256). -/
def otcTouch (c : Core) (key : Nat) : Core := { c with otc := (key :: c.otc.erase key).take 64 }

/-- R256: core n looks an object up: a hit is noted, a miss joins the OTU's queue and counts. -/
def otcLookup (s : State) (n key : Nat) : State :=
  let c := coreOf s n
  if c.otc.contains key then setCore s n (otcTouch c key)
  else if s.mm.otuQ.contains (n, key) then s
  else { s with mm := { s.mm with otuQ := s.mm.otuQ ++ [(n, key)], otcMiss := satAdd s.mm.otcMiss 1 } }

/-- Frame numbers in use: fixed, retired, of objects and of pages. -/
def frameUsed (s : State) (f : Nat) : Bool :=
  (SMap.get? s.mm.fixedF f).isSome || (SMap.get? s.mm.retired f).isSome || (SMap.get? s.mm.reserved f).isSome
    || s.mm.objs.any (fun o => o.2.frames.contains f)
    || s.mm.pages.any (fun g => g.2.st != .deep && !g.2.striped && g.2.frame == f)

/-- The lowest free frame at or above f, k tries. -/
def freeFrameFrom (s : State) (f : Nat) : Nat → Option Nat
  | 0 => none
  | k + 1 => if frameUsed s f then freeFrameFrom s (f + 1) k else some f

/-- Frames of one allocation unit (R252). -/
def framesPerUnit : Nat := 36864

/-- The HBM units of a partition, ascending (R253); units of a stack that is left out are absent (R500). -/
def unitsOf (s : State) (part : Nat) : List Nat :=
  (span 0 32).filter fun u => SMap.getD s.own.hbm u 0 == part && s.board.stackOff != some (u / 16)

/-- A free frame in the first unit of a list that has one (R253: the next unit is taken). -/
def freeFrameIn (s : State) : List Nat → Option Nat
  | [] => none
  | u :: r => match freeFrameFrom s (u * framesPerUnit) framesPerUnit with
    | some f => some f
    | none => freeFrameIn s r

/-- The units of a partition in the order R253 tries them for number x. -/
def unitOrder (s : State) (part x : Nat) : List Nat :=
  let l := unitsOf s part
  l.drop (x % l.length) ++ l.take (x % l.length)

/-- Mark a frame fixed for a partition. -/
def fixFrame (s : State) (f part : Nat) : State :=
  { s with mm := { s.mm with fixedF := SMap.set s.mm.fixedF f part } }

/-- R253: give an object k more frames from its frame i on; none if one cannot be found. -/
def allocFrames (s : State) (part n i : Nat) : Nat → Option State
  | 0 => some s
  | k + 1 => match freeFrameIn s (unitOrder s part (n + i)) with
    | none => none
    | some f =>
      allocFrames (modObj s (objKey part n) fun o => { o with frames := o.frames ++ [f] }) part n (i + 1) k

/-- k fixed frames of a partition, lowest first; none if there are too few. -/
def allocFixed (s : State) (part : Nat) : Nat → Option (State × List Nat)
  | 0 => some (s, [])
  | k + 1 => match freeFrameIn s (unitsOf s part) with
    | none => none
    | some f => match allocFixed (fixFrame s f part) part k with
      | some (t, fs) => some (t, f :: fs)
      | none => none

/-- The level-2 entry that a page record stands for (R194). -/
def pageEntry (g : Page) : Nat :=
  let tier := match g.st with | .resident | .demoting => 1 | _ => 2
  let fr := if tier = 1 then g.frame * 0x10000 else g.deepFrame
  tier * 2 ^ 62 + b2n g.mirrored * 2 ^ 61 + g.format * 2 ^ 58 + fr

/-- Write a page's level-2 entry back to HBM (R194, R258). -/
def syncPage (s : State) (l2 : Nat) : State :=
  match SMap.get? s.mm.pages l2 with
  | some g => if g.striped then s else writeMem s l2 (leBytes 8 (pageEntry g))
  | none => s

/-- Change a partition's pool event counts. -/
def poolEv (s : State) (part : Nat) (f : PoolEv → PoolEv) : State :=
  { s with mm := { s.mm with pool := SMap.put s.mm.pool part (f (SMap.getD s.mm.pool part {})) {} } }

end Sys2Proof.Machine
end

