-- ==== Sys2Proof/Machine/Records.lean ====
section
/-! DEFINITION. Sys2Proof/Machine/Records.lean: appending to the logbook (R505 to R507) and raising telemetry events (R355). -/

namespace Sys2Proof.Machine

/-- Device ticks per second (R6). -/
def ticksPerSecond : Nat := 250000000
/-- Device ticks per microsecond (R6). -/
def ticksPerUs : Nat := 250

/-- R505, R506: append a record: at most 1,000 per second, the rest are dropped and counted. -/
def logAppend (s : State) (type part : Nat) (args : List Nat) : State :=
  let l := s.log
  let sec := s.tick / ticksPerSecond
  let same := l.second == sec
  let n := if same then l.inSecond else 0
  if 1000 ≤ n then { s with log := { l with dropped := l.dropped + 1 } }
  else
    let r : LogRec := { seq := l.next, tick := s.tick, boot := s.boot.bootCount, type := type, part := part, args := args }
    { s with log := { l with recs := SMap.set l.recs (l.next % 65536) r, next := l.next + 1, second := sec,
                             inSecond := n + 1 } }

/-- Raise an event for telemetry (R355). -/
def raiseEvent (s : State) (code : Nat) (queue : Nat := 0xFFFF) (arg : Nat := 0) : State :=
  { s with events := { code := code, queue := queue, arg := arg, tick := s.tick } :: s.events }

/-- A check event of the RAS block (R128, R473, R507 type 0x06): tag address and kind (0 TCHK, 1 data, 2 core); that of a TCHK
stands in RAS_CHECK_ADDR. -/
def logCheck (s : State) (part tag kind : Nat) : State :=
  let s1 := if kind = 0 then { s with ras := { s.ras with checkAddr := tag } } else s
  logAppend s1 0x06 part [tag % 2 ^ 32, tag / 2 ^ 32, kind]

end Sys2Proof.Machine
end

