-- ==== Sys2Proof/Machine/Regs.lean ====
section
/-! DEFINITION. Sys2Proof/Machine/Regs.lean: the register file: 32-bit registers by address, an unlisted one at its reset
value, counters that stop at 0xFFFF_FFFF. -/

namespace Sys2Proof.Machine

/-- Bases of the register blocks (R19). -/
def sysRegBase : Nat := 0x00FF00000000
/-- Core registers. -/
def coreRegBase : Nat := 0x00FF01000000
/-- MEM. -/
def memRegBase : Nat := 0x00FF02000000
/-- SCHED. -/
def schedRegBase : Nat := 0x00FF03000000
/-- FAB. -/
def fabRegBase : Nat := 0x00FF04000000
/-- HOST. -/
def hostRegBase : Nat := 0x00FF05000000
/-- AON. -/
def aonRegBase : Nat := 0x00FF06000000
/-- CAM. -/
def camRegBase : Nat := 0x00FF07000000
/-- SEC. -/
def secRegBase : Nat := 0x00FF08000000
/-- MBX. -/
def mbxRegBase : Nat := 0x00FF09000000
/-- RAS. -/
def rasRegBase : Nat := 0x00FF0A000000
/-- PCIE. -/
def pcieRegBase : Nat := 0x00FF0B000000
/-- PERI. -/
def periRegBase : Nat := 0x00FF0C000000

/-- A row of the register tables: count registers from base, a stride apart; the masks of the fields by access
(R9): RW, W1C, RWB; and the reset value.  A field of another access, and a reserved one, is in no mask. -/
structure RegDesc where
  base : Nat
  count : Nat := 1
  stride : Nat := 4
  rw : Nat := 0
  w1c : Nat := 0
  rwb : Nat := 0
  reset : Nat := 0
  deriving DecidableEq, Repr

/-- SCHED registers that are held by address (R321 to R326). -/
def schedRegs : List RegDesc := [
  { base := schedRegBase, w1c := 0x1FF },
  { base := schedRegBase + 4, rw := 0xFF01, reset := 0x0A01 },
  { base := schedRegBase + 8, count := 5 },
  { base := schedRegBase + 0x4000, count := 1024, stride := 8, rw := 0xFE00000F, reset := 0x06000000 },
  { base := schedRegBase + 0x4004, count := 1024, stride := 8, rw := 0xFFFF, reset := 0x0180 }]

/-- HOST registers that are held by address (R356 to R359). -/
def hostRegs : List RegDesc := [
  { base := hostRegBase + 4, rw := 0x71 },
  { base := hostRegBase + 8, rw := 0xFFFF, reset := 0x12E0 },
  { base := hostRegBase + 0xC, count := 5, rw := 0xFFFFFFFF },
  { base := hostRegBase + 0x20, rw := 0x60, rwb := 0x13, reset := 0x41 },
  { base := hostRegBase + 0x24, rw := 0x60, rwb := 0x13, reset := 0x42 },
  { base := hostRegBase + 0x100, count := 7 }]

/-- FAB registers that are held by address (R384 to R390). -/
def fabRegs : List RegDesc := [
  { base := fabRegBase + 0x20, rw := 4, rwb := 3, reset := 5 },
  { base := fabRegBase + 0x24, rw := 4, rwb := 3, reset := 6 },
  { base := fabRegBase + 0x28, count := 2, rw := 4, rwb := 3, reset := 7 },
  { base := fabRegBase + 0x100, count := 16, rwb := 0x9F0300FF },
  { base := fabRegBase + 0x200, count := 8 }]

/-- SYS registers that are held by address (R546). -/
def sysRegs : List RegDesc := [{ base := sysRegBase + 0x20, rw := 0xFF00FF, reset := 0x28003C }]

/-- CAM registers that are held by address (R434, R436). -/
def camRegs : List RegDesc := [
  { base := camRegBase + 0x10, count := 4, rwb := 0xFFFE, reset := 0xE40A },
  { base := camRegBase + 0x100, count := 4 }, { base := camRegBase + 0x110, count := 4 }, { base := camRegBase + 0x120, count := 4 },
  { base := camRegBase + 0x130, count := 4 }, { base := camRegBase + 0x140, count := 4 }]

/-- RAS registers that are held by address (R493, R494). -/
def rasRegs : List RegDesc := [
  { base := rasRegBase + 4, rw := 3, reset := 3 },
  { base := rasRegBase + 0x50, rw := 0xFFFFFF, reset := 0x063C3C },
  { base := rasRegBase + 0x54, rw := 0xFFFF, reset := 0x0A18 }]

/-- Every register held by address. -/
def regTable : List RegDesc := schedRegs ++ hostRegs ++ fabRegs ++ sysRegs ++ camRegs ++ rasRegs

/-- Does a row of the table describe the register at a? -/
def RegDesc.holds (d : RegDesc) (a : Nat) : Bool :=
  decide (d.base ≤ a) && decide ((a - d.base) / d.stride < d.count) && (a - d.base) % d.stride == 0

/-- The table row of the register at a. -/
def regDesc (a : Nat) : Option RegDesc := regTable.find? fun d => d.holds a

/-- Reset value of the register at a. -/
def regReset (a : Nat) : Word := word ((regDesc a).elim 0 RegDesc.reset)

/-- The value in force of the register at a. -/
def rget (s : State) (a : Nat) : Word := SMap.getD s.regs a (regReset a)
/-- Set the value in force. -/
def rset (s : State) (a : Nat) (v : Word) : State := { s with regs := SMap.put s.regs a v (regReset a) }
/-- A bit of a register. -/
def rbit (s : State) (a k : Nat) : Bool := bitOf (rget s a).toNat k
/-- Bits of a register. -/
def rbits (s : State) (a hi lo : Nat) : Nat := bits (rget s a).toNat hi lo
/-- Replace bits of a register. -/
def rsetBits (s : State) (a hi lo v : Nat) : State := rset s a (word (setBits (rget s a).toNat hi lo v))
/-- Count in a register that stops at 0xFFFF_FFFF. -/
def rcount (s : State) (a n : Nat) : State := rset s a (satAdd (rget s a) n)
/-- The shadow of a register with RWB fields: what was written last. -/
def rshadow (s : State) (a : Nat) : Word := SMap.getD s.shadow a (rget s a)
/-- R10: the boundary of a register's block: its RWB fields take the values written last. -/
def rboundary (s : State) (a : Nat) : State :=
  { rset s a (rshadow s a) with shadow := SMap.erase s.shadow a }

/-- R9: a write by the access codes of the table: RW fields at once, RWB fields into the shadow, W1C bits cleared. -/
def rwrite (s : State) (a : Nat) (v : Word) : State :=
  match regDesc a with
  | none => s
  | some d =>
    let old := rget s a
    let m : Word := word d.rw
    let now := ((old &&& ~~~m) ||| (v &&& m)) &&& ~~~(v &&& word d.w1c)
    let sh := (rshadow s a &&& ~~~(word (d.rwb + d.rw))) ||| (v &&& word (d.rwb + d.rw))
    let s1 := rset s a now
    if d.rwb = 0 then s1
    else { s1 with shadow := if sh = now then SMap.erase s1.shadow a else SMap.set s1.shadow a sh }

end Sys2Proof.Machine
end

