-- ==== Sys2Proof/Machine/FabLink.lean ====
section
/-! DEFINITION. Sys2Proof/Machine/FabLink.lean: the Agcon ports and links (R361 to R369, R375, R384 to R390): paths, counters,
acknowledgements, resends, epochs and floods. -/

namespace Sys2Proof.Machine

/-- Change the FAB block. -/
def onFab (s : State) (f : Fab → Fab) : State := { s with fab := f s.fab }
/-- Agcon port p. -/
def fabPort (s : State) (p : Nat) : FabPort := SMap.getD s.fab.ports p {}
/-- Change Agcon port p. -/
def modFabPort (s : State) (p : Nat) (f : FabPort → FabPort) : State :=
  onFab s fun x => { x with ports := SMap.put x.ports p (f (SMap.getD x.ports p {})) {} }
/-- FAB_PORT_CFG[p]. -/
def fabPortCfg (p : Nat) : Nat := fabRegBase + 0x20 + 4 * p
/-- R362: the role of port p: 0 disabled, 1 upstream, 2 downstream, 3 cross. -/
def fabRole (s : State) (p : Nat) : Nat := rbits s (fabPortCfg p) 1 0
/-- The four ports. -/
def fabPorts : List Nat := [0, 1, 2, 3]
/-- Is port p up and authenticated? -/
def fabUp (s : State) (p : Nat) : Bool := (fabPort s p).state == 3
/-- The first port with a role. -/
def fabPortOf (s : State) (r : Nat) : Option Nat := fabPorts.find? fun p => fabRole s p == r
/-- Count in a counter of the FAB block. -/
def fabCount (s : State) (off n : Nat) : State := rcount s (fabRegBase + off) n

/-! ### Addresses and paths (R371, R375) -/

/-- Segment of a fabric address. -/
def segOf (a : Nat) : Nat := a / 256 % 256
/-- Station of a fabric address. -/
def stnOf (a : Nat) : Nat := a % 256
/-- The address of a station. -/
def fabAddrOf (seg stn : Nat) : Nat := 256 * seg + stn
/-- Light-list index of an address (R374). -/
def lightIx (a : Nat) : Nat := 16 * segOf a + stnOf a - 1
/-- The light-list entry of an address. -/
def lightOf (s : State) (a : Nat) : Option LightEntry := SMap.get? s.fab.light (lightIx a)
/-- Stations of a segment: the highest one entered in a light list. -/
def stationsOf (l : SMap LightEntry) (seg : Nat) : Nat :=
  l.foldl (fun n e => if e.2.state ≠ 0 ∧ segOf e.2.address = seg then max n (stnOf e.2.address) else n) 0
/-- Is a segment closed, by the light list? -/
def segClosed (l : SMap LightEntry) (seg : Nat) : Bool := l.any fun e => segOf e.2.address == seg && e.2.closed

/-- R375: the role of the port toward another station of the own segment. -/
def towards (s : State) (stn : Nat) : Nat :=
  let d : Int := (stn : Int) - stnOf s.fab.addr
  let seg := segOf s.fab.addr
  if !segClosed s.fab.light seg then (if 0 < d then 2 else 1)
  else
    let n := stationsOf s.fab.light seg
    let down := (d % (n : Int)).toNat
    if down ≤ n - down then 2 else 1

/-- FAB_ROUTE[s]. -/
def fabRouteReg (seg : Nat) : Nat := fabRegBase + 0x100 + 4 * seg

/-- R375: the port of the path to an address; none where the segment has no route. -/
def nextPort (s : State) (dest : Nat) : Option Nat :=
  if segOf dest = segOf s.fab.addr then fabPortOf s (towards s (stnOf dest))
  else
    let r := (rget s (fabRouteReg (segOf dest % 16))).toNat
    if !bitOf r 31 then none
    else if stnOf s.fab.addr = bits r 28 24 then some (bits r 17 16)
    else fabPortOf s (towards s (bits r 28 24))

/-! ### Sending (R363, R365) -/

/-- Frames that a sender keeps unacknowledged (R365). -/
def linkWindow : Nat := 64

/-- R365, R367: may a frame leave port p now?  Acknowledgements always may (DESIGN CHOICE, log 20). -/
def linkOpen (x : FabPort) (type : Nat) : Bool := type == 0x04 || (decide (x.unacked.length < linkWindow) && x.rekey.isNone)

/-- Put a frame on the wire of port p under the next counter. -/
def linkEmit (s : State) (p : Nat) (f : FabFrame) : State :=
  let x := fabPort s p
  let g := { f with epoch := x.epoch, counter := x.txNext, retrans := false }
  let s1 := modFabPort s p fun x => { x with txNext := x.txNext + 1, unacked := x.unacked ++ [g] }
  fabCount (onFab s1 fun b => { b with wire := (p, g) :: b.wire }) 0x200 1

/-- Send a frame on port p, if its link is up; it waits where the window is full. -/
def linkSend (s : State) (p : Nat) (f : FabFrame) : State :=
  if !fabUp s p then s
  else if linkOpen (fabPort s p) f.type then linkEmit s p f
  else modFabPort s p fun x => { x with waiting := x.waiting ++ [f] }

/-- Send the frames that waited, as far as the window allows. -/
def linkPump (s : State) (p : Nat) : Nat → State
  | 0 => s
  | n + 1 =>
    match (fabPort s p).waiting with
    | [] => s
    | f :: r => if fabUp s p && linkOpen (fabPort s p) f.type then
        linkPump (linkEmit (modFabPort s p fun x => { x with waiting := r }) p f) p n
      else s

/-- Send several frames on port p. -/
def linkSendAll (s : State) (p : Nat) : List FabFrame → State
  | [] => s
  | f :: r => linkSendAll (linkSend s p f) p r

/-- R375: a frame goes toward its destination; without a route it is dropped at its source.  A frame to this device itself stays
on it. -/
def fabSend (s : State) (f : FabFrame) : State :=
  if f.dest = s.fab.addr ∧ f.dest ≠ 0 then onFab s fun x => { x with selfQ := x.selfQ ++ [f] }
  else match nextPort s f.dest with
  | some p => linkSend s p f
  | none => s

/-- Send several frames toward their destinations. -/
def fabSendAll (s : State) : List FabFrame → State
  | [] => s
  | f :: r => fabSendAll (fabSend s f) r

/-- R171, R375: how many frames toward an address the local proxy can accept now. -/
def fabRoom (s : State) (dest : Nat) : Nat :=
  if dest = s.fab.addr ∧ dest ≠ 0 then linkWindow
  else match nextPort s dest with
  | some p => if fabUp s p && (fabPort s p).rekey.isNone then linkWindow - (fabPort s p).unacked.length else 0
  | none => 0

/-- R372: send a flooded frame on every other authenticated link. -/
def floodFrom (s : State) (from_ : Option Nat) (f : FabFrame) : State :=
  (fabPorts.filter fun p => from_ != some p && fabUp s p).foldl (fun s p => linkSend s p f) s

/-- Flood a frame of this device under its next generation. -/
def flood (s : State) (type : Nat) : State :=
  let g := s.fab.floodGen + 1
  let s1 := onFab s fun x => { x with floodGen := g, seen := (type, x.addr, g) :: x.seen }
  floodFrom s1 none { type := type, src := s.fab.addr, counter := 0, job := g }

/-- R372: the first sight of a flooded frame goes on and acts; a later copy is dropped. -/
def onFlood (s : State) (p : Nat) (f : FabFrame) (origin gen : Nat) (go : State → State) : State :=
  if s.fab.seen.contains (f.type, origin, gen) then s
  else go (floodFrom (onFab s fun x => { x with seen := (f.type, origin, gen) :: x.seen }) (some p) f)

/-! ### Receiving (R365) -/

/-- R365: acknowledge on port p with the counter expected next. -/
def linkAck (s : State) (p : Nat) : State :=
  linkSend s p { type := 0x04, src := s.fab.addr, payload := leBytes 8 (fabPort s p).rxNext ++ [0] }

/-- R365: a NAK names the counter expected. -/
def linkNak (s : State) (p : Nat) : State :=
  linkSend s p { type := 0x04, src := s.fab.addr, payload := leBytes 8 (fabPort s p).rxNext ++ [1] }

/-- R365, R367: is the counter of a frame the next one expected, in the epoch in force or as the first of the next? -/
def counterOk (x : FabPort) (f : FabFrame) : Bool :=
  (f.epoch == x.rxEpoch && f.counter == x.rxNext) || (x.rxKey && f.epoch == x.rxEpoch + 1 && f.counter == 0)

/-- R171, R314: credits come back to the route of a queue whose destination is the frame's source. -/
def giveCredits (s : State) (f : FabFrame) : State :=
  if f.creditReturn = 0 ∨ f.dest ≠ s.fab.addr then s
  else
    match s.routes.find? fun r => r.1 / 16 == f.creditQueue && r.2.dest == f.src
        && (f.type != 0x02 || r.2.destQueue == f.srcQueue) with
    | some r => { s with routes := SMap.set s.routes r.1
                           { r.2 with credits := min r.2.total (r.2.credits + f.creditReturn) } }
    | none => s

/-- A frame whose CRC and GCM tag pass arrives on port p: accepted, acknowledged and acted on if its counter is the one
expected, else counted and answered with a NAK. -/
def onLink (s : State) (p : Nat) (f : FabFrame) (go : State → State) : State :=
  let x := fabPort s p
  if !s.fab.en || x.state != 3 then s
  else
    let s0 := fabCount s 0x204 1
    if !counterOk x f then linkNak (fabCount s0 0x20C 1) p
    else
      let s1 := modFabPort s0 p fun x =>
        if f.epoch = x.rxEpoch then { x with rxNext := x.rxNext + 1 }
        else { x with rxEpoch := f.epoch, rxNext := 1, rxKey := false }
      go (giveCredits (if f.type = 0x04 then s1 else linkAck s1 p) f)

/-- R26: the proxy of port p posts a received control frame in mailbox 1 + p; what the words hold is not given. -/
def ctlPost (s : State) (p : Nat) : State :=
  let ws := (span 0 7).map fun k => Config.freeWord (s.freeCtr + k)
  hwPost { s with freeCtr := s.freeCtr + 8 } (.proxy ⟨p % 4, Nat.mod_lt _ (by decide)⟩) (1 + p) (ws ++ [0])

/-- A control frame arrives on port p: accepted, posted to Keeper, and acted on. -/
def onControl (s : State) (p : Nat) (f : FabFrame) (go : State → State) : State :=
  onLink s p f fun s => go (ctlPost s p)

/-! ### Acknowledgement, resends and epochs (R365, R367) -/

/-- R367: the KEY frame is acknowledged: the next epoch begins. -/
def newEpoch (s : State) (p : Nat) : State :=
  let s1 := modFabPort s p fun x =>
    { x with epoch := x.epoch + 1, txNext := 0, unacked := [], resends := 0, rekey := none, epochAt := s.tick }
  linkPump (fabCount s1 0x218 1) p (fabPort s p).waiting.length

/-- R365: the peer expects counter n: every older frame is acknowledged. -/
def takeLinkAck (s : State) (p n : Nat) : State :=
  let x := fabPort s p
  let rest := x.unacked.filter fun f => decide (n ≤ f.counter)
  let s1 := modFabPort s p fun x =>
    { x with unacked := rest, resends := if rest.length < x.unacked.length then 0 else x.resends }
  match x.rekey with
  | some k => if k < n then newEpoch s1 p else s1
  | none => linkPump s1 p x.waiting.length

/-- R369: restart the link of port p: its configuration takes effect, it retrains and authenticates anew. -/
def linkRestart (s : State) (p : Nat) : State :=
  let s1 := rboundary s (fabPortCfg p)
  modFabPort s1 p fun x =>
    { x with state := if fabRole s1 p = 0 ∨ x.faulty then 0 else 1, lanes := 0, epoch := 0, rekey := none, rxKey := false,
             downAt := match x.downAt with | some t => some t | none => some s.tick }

/-- R365: resend from counter n, byte for byte, with the retransmission flag. -/
def resendFrom (s : State) (p n : Nat) : State :=
  let fs := ((fabPort s p).unacked.filter fun f => decide (n ≤ f.counter)).map fun f => { f with retrans := true }
  let s1 := modFabPort s p fun x => { x with resends := x.resends + 1 }
  fabCount (fabCount (onFab s1 fun b => { b with wire := (fs.map fun f => (p, f)).reverse ++ b.wire }) 0x200 fs.length)
    0x208 fs.length

/-- Resends of one frame before the port restarts its link (R365). -/
def resendLimit : Nat := 8

/-- R366: both directions start at epoch 1 and counter 0, and the unacknowledged frames go again under the new key. -/
def linkUp (s : State) (p peer : Nat) : State :=
  let x := fabPort s p
  let again := x.unacked.filter fun f => f.type != 0x04 && f.type != 0x03 && f.type != 0x11
  let s1 := modFabPort s p fun x =>
    { x with state := 3, peer := peer, epoch := 1, txNext := 0, rxEpoch := 1, rxNext := 0, unacked := [], waiting := [],
             resends := 0, rekey := none, rxKey := false, epochAt := s.tick, downAt := none }
  linkSendAll s1 p (again ++ x.waiting)

end Sys2Proof.Machine
end

