-- ==== Sys2Proof/Machine/Requests.lean ====
section
/-! DEFINITION. Sys2Proof/Machine/Requests.lean: host requests as Keeper takes them (R332, R339 to R351): principals, handles,
replies, completion records and how messages leave (R333 to R336). -/

namespace Sys2Proof.Machine

/-! ### Arguments -/

/-- A field of an argument block (R341). -/
def arg (args : List Byte) (off n : Nat) : Nat := leNat ((args.drop off).take n)

/-- Are the fields listed present and every other byte 0 (R341)? -/
def argsOk (args : List Byte) (fields : List (Nat × Nat)) : Bool :=
  (fields.all fun f => decide (f.1 + f.2 ≤ args.length))
    && (span 0 args.length).all fun i =>
      (fields.any fun f => decide (f.1 ≤ i) && decide (i < f.1 + f.2)) || args.getD i 0 == 0

/-! ### Replacing parts of Keeper's state -/

/-- Change Keeper's tables. -/
def onK (s : State) (f : Keeper → Keeper) : State := { s with k := f s.k }
/-- Change an association that exists. -/
def modAssoc (s : State) (a : Nat) (f : Assoc → Assoc) : State :=
  onK s fun k => { k with assocs := SMap.modify k.assocs a f }
/-- Change a queue that exists. -/
def modQueue (s : State) (q : Nat) (f : Queue → Queue) : State :=
  onK s fun k => { k with queues := SMap.modify k.queues q f }
/-- Change a job that exists. -/
def modJob (s : State) (j : Nat) (f : Job → Job) : State :=
  onK s fun k => { k with jobs := SMap.modify k.jobs j f }
/-- Change a session that exists. -/
def modSession (s : State) (x : Nat) (f : Session → Session) : State :=
  onK s fun k => { k with sessions := SMap.modify k.sessions x f }
/-- Change a model that exists. -/
def modModel (s : State) (m : Nat) (f : Model → Model) : State :=
  onK s fun k => { k with models := SMap.modify k.models m f }

/-! ### Sending on an association (R333, R336) -/

/-- Frames that an association keeps unacknowledged (R336). -/
def txWindow : Nat := 256

/-- Largest TCT payload of one datagram: 1,440 B, or what an MTU of 9,000 leaves (R327; the second is DEDUCED). -/
def tctPayload (s : State) : Nat := if rbit s (hostRegBase + 4) 6 then 8940 else 1440

/-- The state of port p. -/
def portOf (s : State) (p : Nat) : HostPort := if p = 0 then s.port0 else s.port1
/-- Change port p. -/
def modPort (s : State) (p : Nat) (f : HostPort → HostPort) : State :=
  if p = 0 then { s with port0 := f s.port0 } else { s with port1 := f s.port1 }
/-- Is port p's link up? -/
def portUp (s : State) (p : Nat) : Bool := (portOf s p).state == 2

/-- R328: the port that frames of an association leave through. -/
def txPort (s : State) (a : Assoc) : Nat :=
  if rbit s (hostRegBase + 4) 4 then (if portUp s a.port then a.port else 1 - a.port) else s.activePort

/-- R333: the sack field. -/
def sackOf (a : Assoc) : BitVec 32 :=
  BitVec.ofNat 32 (maskOf 32 fun k => a.rxAhead.contains (a.rxNext + 1 + k))

/-- Put a frame of association n on the wire with its acknowledgement fields. -/
def emit (s : State) (n : Nat) (f : TctFrame) : State :=
  match SMap.get? s.k.assocs n with
  | none => s
  | some a =>
    let g := { f with assoc := n, ack := a.rxNext, sack := sackOf a }
    rcount (modAssoc { s with hostOut := .tct (txPort s a) g :: s.hostOut } n
      fun a => { a with lastTx := s.tick }) (hostRegBase + 0x104) 1

/-- Put several frames on the wire, in order. -/
def emitAll (s : State) (n : Nat) : List TctFrame → State
  | [] => s
  | f :: r => emitAll (emit s n f) n r

/-- R336: frames that wait go out while fewer than 256 are unacknowledged and the association is not lost. -/
def pump (s : State) (n : Nat) : State :=
  match SMap.get? s.k.assocs n with
  | none => s
  | some a =>
    if a.lostAt.isSome then s
    else
      let go := a.waiting.take (txWindow - a.unacked.length)
      emitAll (modAssoc s n fun a => { a with waiting := a.waiting.drop go.length, unacked := a.unacked ++ go }) n go

/-- Cut a payload into segments. -/
def segments (sz : Nat) (b : List Byte) : Nat → List (List Byte)
  | 0 => [b]
  | k + 1 => if b.length ≤ sz then [b] else b.take sz :: segments sz (b.drop sz) k

/-- R333, R336: send a message on association n. -/
def sendMsg (s : State) (n type : Nat) (payload : List Byte) (handles : List Nat) : State :=
  match SMap.get? s.k.assocs n with
  | none => s
  | some a =>
    let sz := tctPayload s
    let parts := segments sz payload (payload.length / sz + 1)
    let frames := (span 0 parts.length).map fun i =>
      { type := type, seq := (a.txSeq + i) % 2 ^ 32, msg := a.txMsg, seg := i, segs := parts.length,
        payload := parts.getD i [], handles := if i + 1 = parts.length then handles else [] : TctFrame }
    pump (modAssoc s n fun a =>
      { a with waiting := a.waiting ++ frames, txSeq := (a.txSeq + parts.length) % 2 ^ 32,
               txMsg := (a.txMsg + 1) % 2 ^ 32 }) n

/-! ### Replies and records -/

/-- R340: the reply to a request. -/
def replyTo (s : State) (n : Nat) (hostTag : Word) (status handle : Nat) (result : List Byte) : State :=
  sendMsg s n 0x11 (leBytes 4 hostTag.toNat ++ leBytes 1 status ++ leBytes 3 0 ++ leBytes 4 handle ++ result) []

/-- R348: the 64 bytes of a completion record. -/
def recordBytes (r : Record) : List Byte :=
  let b := leBytes 4 r.handle ++ leBytes 2 r.status ++ leBytes 2 r.detail ++ leBytes 1 r.request
    ++ leBytes 1 r.flags ++ leBytes 2 r.slowdown ++ leBytes 1 r.slowCause ++ leBytes 1 r.reruns
    ++ leBytes 2 r.narrow ++ leBytes 8 r.tickDone ++ leBytes 4 r.weightWait ++ leBytes 4 r.haloWait
    ++ leBytes 4 r.donatedIn ++ leBytes 4 r.donatedOut ++ leBytes 4 r.sectorLate ++ leBytes 4 r.flush
    ++ leBytes 4 r.result0 ++ leBytes 4 r.result1 ++ leBytes 4 r.tickAccept
  b ++ leBytes 4 (crc32c b).toNat

/-- R346: the number of a handle. -/
def handleNo (slot gen : Nat) : Nat := slot * 2 ^ 20 + gen
/-- The slot of a handle number. -/
def slotOf (h : Nat) : Nat := h / 2 ^ 20

/-- The handle of a number, if its generation matches (R347). -/
def handleOf (s : State) (h : Nat) : Option Handle :=
  match SMap.get? s.k.handles (slotOf h) with
  | some x => if x.gen = h % 2 ^ 20 then some x else none
  | none => none

/-- Change the handle of a number. -/
def modHandle (s : State) (h : Nat) (f : Handle → Handle) : State :=
  onK s fun k => { k with handles := SMap.modify k.handles (slotOf h) f }

/-- Is an association open and not lost? -/
def assocLive (s : State) (n : Nat) : Bool :=
  match SMap.get? s.k.assocs n with
  | some a => a.lostAt.isNone
  | none => false

/-- R351: the association that a record goes out on: the request's, else another of the principal. -/
def recordRoute (s : State) (x : Handle) : Option Nat :=
  if assocLive s x.assoc then some x.assoc
  else (s.k.assocs.find? fun a => a.2.principal == x.principal && a.2.lostAt.isNone).map Prod.fst

/-- R347, R351: send a handle's record, or hold it until an association opens. -/
def deliver (s : State) (r : Record) (x : Handle) : State :=
  match recordRoute s x with
  | some n =>
    sendMsg (modHandle s r.handle fun x => { x with st := .done, record := some r }) n 0x12 (recordBytes r) [r.handle]
  | none =>
    onK (modHandle s r.handle fun x => { x with record := some r }) fun k =>
      { k with principals := SMap.modify k.principals x.principal fun p => { p with held := p.held ++ [r] } }

/-- A record of a request that is no job. -/
def recordOf (s : State) (h : Nat) (x : Handle) (status detail r0 r1 : Nat) : Record :=
  { handle := h, status := status, detail := detail, request := x.code, tickDone := s.tick,
    result0 := r0 % 2 ^ 32, result1 := r1 % 2 ^ 32, tickAccept := x.tickAccept % 2 ^ 32 }

/-- The request of an open handle completes. -/
def complete (s : State) (h status : Nat) (r0 : Nat := 0) (r1 : Nat := 0) (detail : Nat := 0) : State :=
  match handleOf s h with
  | some x => if x.st = .opened ∧ x.record.isNone then deliver s (recordOf s h x status detail r0 r1) x else s
  | none => s

/-- Keep output tiles with a handle (R345, R353). -/
def keepOuts (s : State) (h : Nat) (ts : List Tile) : State := modHandle s h fun x => { x with outs := ts }

/-! ### Accepting a request (R332, R340, R346) -/

/-- Handles open or done of a principal. -/
def handlesOf (s : State) (p : Nat) : Nat :=
  (s.k.handles.filter fun h => h.2.principal == p && h.2.st != .released).length
/-- Handles open or done. -/
def handlesAll (s : State) : Nat := (s.k.handles.filter fun h => h.2.st != .released).length

/-- Slots of the device (R346). -/
def slotCount : Nat := 4096

/-- R346, R347: the slot that has been free longest: one never taken, else one released at least 1 s ago. -/
def freeSlot (s : State) : Option Nat :=
  match SMap.firstFree s.k.handles 0 slotCount with
  | some k => some k
  | none =>
    (s.k.handles.foldl (fun (b : Option (Nat × Nat)) h =>
      if h.2.st = .released ∧ h.2.releasedAt + ticksPerSecond ≤ s.tick then
        match b with
        | some (_, t) => if h.2.releasedAt < t then some (h.1, h.2.releasedAt) else b
        | none => some (h.1, h.2.releasedAt)
      else b) none).map Prod.fst

/-- R346: the generation after g, skipping 0. -/
def nextGen (g : Nat) : Nat := if g + 1 < 2 ^ 20 then g + 1 else 1

/-- R332: the permissions and the handle limit of a principal; the system principal has every permission. -/
def principalOf (s : State) (p : Nat) : Option Principal :=
  match SMap.get? s.k.principals p with
  | some x => some x
  | none => if p = 0 then some { perms := 0x3F, limit := 1024 } else none

/-- The result of offering a request. -/
inductive Offer where
  | refused (s : State)
  | taken (s : State) (handle principal : Nat)

/-- R340, R346: take a request from its association: a handle and ACCEPTED, or NO_SLOT. -/
def offer (s0 : State) (rq : Request) (code : Nat) : Offer :=
  let s := onK s0 fun k => { k with inbox := k.inbox.erase rq }
  match SMap.get? s.k.assocs rq.assoc with
  | none => .refused s
  | some a =>
    match principalOf s a.principal, freeSlot s with
    | some p, some slot =>
      if slotCount ≤ handlesAll s ∨ p.limit ≤ handlesOf s a.principal then
        .refused (replyTo s rq.assoc rq.hostTag 0x01 0 [])
      else
        let g := nextGen ((SMap.get? s.k.handles slot).elim 0 Handle.gen)
        let h := handleNo slot g
        let x : Handle := { gen := g, st := .opened, principal := a.principal, part := a.principal,
                            assoc := rq.assoc, code := code, hostTag := rq.hostTag, tickAccept := s.tick }
        .taken (replyTo (onK s fun k => { k with handles := SMap.set k.handles slot x })
          rq.assoc rq.hostTag 0x00 h []) h a.principal
    | _, _ => .refused (replyTo s rq.assoc rq.hostTag 0x01 0 [])

/-- R332: does a principal hold permission bit k? -/
def permitted (s : State) (p k : Nat) : Bool :=
  match principalOf s p with
  | some x => bitOf x.perms k
  | none => false

/-- A request row: offered; then NOT_PERMITTED without permission bit `perm`, BAD_REQUEST if the arguments are not
as `ok` says, else what the request does with its handle and principal. -/
def onRequest (s : State) (rq : Request) (code : Nat) (perm : Option Nat) (ok : List Byte → Bool)
    (run : State → Nat → Nat → State) : State :=
  match offer s rq code with
  | .refused t => t
  | .taken t h p =>
    if !(perm.all fun k => permitted t p k) then complete t h 0x0015
    else if !ok rq.args then complete t h 0x001D
    else run t h p

/-! ### Data tiles (R352) -/

/-- Fields of a tile's tag (R68). -/
def tagCheck (t : Tile) : Nat := leNat (t.tag.take 4)
/-- Length. -/
def tagLen (t : Tile) : Nat := leNat ((t.tag.drop 4).take 2)
/-- Format. -/
def tagFormat (t : Tile) : Nat := leNat ((t.tag.drop 6).take 1)
/-- Origin. -/
def tagOrigin (t : Tile) : Nat := leNat ((t.tag.drop 7).take 1)
/-- Origin ID. -/
def tagOriginId (t : Tile) : Nat := leNat ((t.tag.drop 8).take 1)
/-- Index. -/
def tagIndex (t : Tile) : Nat := leNat ((t.tag.drop 12).take 4)

/-- R352: is a tile good as tile i of a request, with an origin and a format test? -/
def tileGood (t : Tile) (origin i : Nat) (fmt : Nat → Bool) : Bool :=
  t.tag.length == 16 && tagOrigin t == origin && tagOriginId t == 0 && tagIndex t == i && fmt (tagFormat t)
    && tagLen t == t.payload.length && decide (1 ≤ t.payload.length) && decide (t.payload.length ≤ 4096)
    && tagCheck t == (crc32c t.payload).toNat

/-- The indices of the tiles that fail, the tiles being numbered from `first`. -/
def badTiles (ts : List Tile) (origin first : Nat) (fmt : Nat → Bool) : List Nat :=
  (span 0 ts.length).filter fun i => !((ts[i]?).any fun t => tileGood t origin (first + i) fmt)

/-- R352: complete INPUT_CHECK_FAIL if a tile fails, else go on. -/
def withTiles (s : State) (h : Nat) (ts : List Tile) (origin first : Nat) (fmt : Nat → Bool)
    (go : State → State) : State :=
  match badTiles ts origin first fmt with
  | [] => go s
  | i :: r => complete (rcount s (hostRegBase + 0x110) (r.length + 1)) h 0x0013 (first + i)

/-- A tile of format 0x0B made by a system command on core 0 (R508): tag and payload. -/
def reportTile (i : Nat) (payload : List Byte) : Tile := ⟨tagBytes payload 0x0B 0x04 0 i, payload⟩

/-- Cut bytes into report tiles of at most n bytes. -/
def reportTiles (n : Nat) (b : List Byte) : List Tile :=
  let parts := if b = [] then [] else segments n b (b.length / n + 1)
  (span 0 parts.length).map fun i => reportTile i (parts.getD i [])

end Sys2Proof.Machine
end

