-- ==== Sys2Proof/Machine/HostLink.lean ====
section
/-! DEFINITION. Sys2Proof/Machine/HostLink.lean: the host ports below TCT (R327 to R331, R356 to R360): ARP, Neighbor
Discovery, echo, fail-over, restart, TC10 and MKA. -/

namespace Sys2Proof.Machine

/-- How many of the 8 fuses of a group are blown; the group counts as blown from 5 on (R440). -/
def blown (g : BitVec 8) : Bool := decide (5 ≤ popcount 8 g.toNat)

/-- R440: the life-cycle state by its code (R438): 0 RAW, 1 PROVISION, 2 FIELD, 3 SERVICE, 4 RETIRED. -/
def lifeCycle (s : State) : Nat :=
  let o := s.otp
  if blown o.lcRetired then 4
  else if blown o.lcField then (if o.serviceOut < o.serviceIn then 3 else 2)
  else if blown o.lcProvision then 1
  else 0

/-- Base of HOST_CTRL. -/
def hostCtrl : Nat := hostRegBase + 4
/-- HOST_PORT_CFG[p]. -/
def portCfg (p : Nat) : Nat := hostRegBase + 0x20 + 4 * p

/-- R331: is MACsec off on port p? -/
def macsecOff (s : State) (p : Nat) : Bool :=
  (lifeCycle s == 1 || lifeCycle s == 3) && rbit s (portCfg p) 5

/-- R331, R332: the principal that a received frame belongs to, or none if the frame is not accepted. -/
def rxPrincipal (s : State) (m : HostRx) : Option Nat :=
  if macsecOff s m.port.val then some 0
  else if m.secured && (portOf s m.port.val).saks.contains m.principal then some m.principal
  else none

/-- Does port p answer ARP and ND and carry TCT (R328)? -/
def carries (s : State) (p : Nat) : Bool :=
  portUp s p && (rbit s hostCtrl 4 || s.activePort == p)

/-- Take a frame that came in: count it; drop it if MACsec refuses it (R331). -/
def received (s : State) (m : HostRx) (f : State → Nat → State) : State :=
  let s1 := rcount s (hostRegBase + 0x100) 1
  match rxPrincipal s1 m with
  | some p => f s1 p
  | none => rcount s1 (hostRegBase + 0x114) 1

/-- A frame leaves a host port. -/
def hostSend (s : State) (o : HostOut) : State :=
  rcount { s with hostOut := o :: s.hostOut } (hostRegBase + 0x104) 1

/-- ARP_REQUEST for a device address. -/
def execArpRequest (rx : HostRx) (s : State) : Host.Outcome State Fault Refusal :=
  .next (received s rx fun s _ => if carries s rx.port.val then hostSend s (.arpReply rx.port.val) else s)

/-- ND_SOLICITATION for a device address. -/
def execNdSolicitation (rx : HostRx) (s : State) : Host.Outcome State Fault Refusal :=
  .next (received s rx fun s _ => if carries s rx.port.val then hostSend s (.neighborAdvert rx.port.val) else s)

/-- ICMP_ECHO: a port whose link is up answers. -/
def execIcmpEcho (rx : HostRx) (data : List Byte) (s : State) : Host.Outcome State Fault Refusal :=
  .next (received s rx fun s _ => if portUp s rx.port.val then hostSend s (.echoReply rx.port.val data) else s)

/-- Why a host frame is dropped (R327, R333, R334). -/
def dropCounted (cause : Nat) : Bool := cause == 4

/-- HOST_FRAME_DROPPED: 802.1Q (0), a fragment (1), a UDP checksum (2), a wrong TCT version or type (3), or MACsec (4),
which alone is counted as dropped (R331). -/
def execHostFrameDropped (_port : Fin 2) (cause : Fin 5) (s : State) : Host.Outcome State Fault Refusal :=
  let s1 := rcount s (hostRegBase + 0x100) 1
  .next (if dropCounted cause.val then rcount s1 (hostRegBase + 0x114) 1 else s1)

/-! ### The active port (R328, R329) -/

/-- The port with a role. -/
def portWithRole (s : State) (r : Nat) : Option Nat :=
  if rbits s (portCfg 0) 1 0 = r then some 0
  else if rbits s (portCfg 1) 1 0 = r then some 1
  else none

/-- R336: send every unacknowledged frame of association n again, counting each in HOST_RETX. -/
def resend (s : State) (n : Nat) : State :=
  match SMap.get? s.k.assocs n with
  | none => s
  | some a =>
    if a.lostAt.isSome then s
    else emitAll (rcount s (hostRegBase + 0x108) a.unacked.length) n a.unacked

/-- Every unacknowledged frame goes out again (R329). -/
def resendAll (s : State) : State := (s.k.assocs.map Prod.fst).foldl resend s

/-- R329: traffic moves to port p: gratuitous ARP and an unsolicited advertisement, retransmission, the event. -/
def moveTo (s : State) (p : Nat) : State :=
  let s1 := { s with activePort := p }
  let s2 := hostSend (hostSend s1 (.gratuitousArp p)) (.unsolicitedAdvert p)
  raiseEvent (resendAll s2) 0x0009 0xFFFF p

/-- R486: is host port p out of use: marked faulty by a loopback slice, or taken down by its PHY PLL? -/
def portBad (s : State) (p : Nat) : Bool := (SMap.get? s.ras.portFaults p).isSome || (SMap.get? s.ras.pllFaults (5 + p)).isSome

/-- R329: fail over to port p, unless that is disabled (R486). -/
def failTo (s : State) (p : Nat) : State := if portBad s p then s else moveTo (rcount s (hostRegBase + 0x118) 1) p

/-- HOST_LINK_LOSS: the PHY of port p reports link loss. -/
def execHostLinkLoss (port : Fin 2) (s : State) : Host.Outcome State Fault Refusal :=
  let p := port.val
  let s1 := modPort s p fun x => { x with state := 0, saks := [], sqi := 0 }
  .next (if !rbit s hostCtrl 4 && s.activePort == p && portUp s p && portUp s (1 - p) then failTo s1 (1 - p) else s1)

/-- R515: port p has linked up with new PHY microcode: traffic moves to it and the other port restarts. -/
def phyTurn (s : State) (p : Nat) : State :=
  let s1 := if !rbit s hostCtrl 4 && s.activePort != p then failTo s p else s
  modPort (onK s1 fun k => { k with phyHost := none }) (1 - p) fun x =>
    if x.state = 0 then x else { x with state := 1, saks := [] }

/-- HOST_LINK_UP: port p gains link and starts MKA; if it is the only port up it becomes active. -/
def execHostLinkUp (port : Fin 2) (sqi : Fin 8) (s : State) : Host.Outcome State Fault Refusal :=
  let p := port.val
  if rbits s (portCfg p) 1 0 = 0 ∨ portBad s p = true then .next s
  else
    let s1 := hostSend (modPort s p fun x => { x with state := 2, sqi := sqi.val, upSince := s.tick }) (.mka p)
    let s2 := if !rbit s hostCtrl 4 && s.activePort != p && !portUp s (1 - p) then moveTo s1 p else s1
    .next (if s2.k.phyHost == some (1 - p) then phyTurn s2 p else s2)

/-- Ten seconds in ticks (R329). -/
def returnHold : Nat := 10 * ticksPerSecond

/-- HOST_LINK_RETURN: after 10 s of unbroken link traffic moves back to the preferred port. -/
def execHostLinkReturn (s : State) : Host.Outcome State Fault Refusal :=
  .next (match portWithRole s 1 with
  | some p =>
    if !rbit s hostCtrl 4 && s.activePort != p && portUp s p
        && decide ((portOf s p).upSince + returnHold ≤ s.tick) then failTo s p
    else s
  | none => s)

/-- Is a requester one that may write HOST registers (R19)? -/
def mayWrite (s : State) (by_ : Req) (r : Region) (f : State → State) : State :=
  if reaches by_ true r then busOk (f s) else busError s

/-- HOST_FAILOVER: HOST_CTRL.failover swaps the active port at once. -/
def execHostFailover (by_ : Req) (s : State) : Host.Outcome State Fault Refusal :=
  .next (mayWrite s by_ .hostRegs fun s => failTo s (1 - s.activePort))

/-- HOST_CTRL.restart retrains port p: its RWB fields take effect, the link goes down and trains. -/
def portRestart (s : State) (p : Nat) : State :=
  let s1 := rboundary s (portCfg p)
  let s2 := modPort s1 p fun x =>
    { x with state := if rbits s1 (portCfg p) 1 0 = 0 then 0 else 1, saks := [] }
  if !rbit s hostCtrl 4 && s.activePort == p && portUp s p && portUp s (1 - p) then failTo s2 (1 - p) else s2

/-- HOST_PORT_RESTART. -/
def execHostPortRestart (by_ : Req) (port : Fin 2) (s : State) : Host.Outcome State Fault Refusal :=
  .next (mayWrite s by_ .hostRegs fun s => portRestart s port.val)

/-! ### TC10 (R330) -/

/-- Is any handle open or done? -/
def handlesBusy (s : State) : Bool := s.k.handles.any fun h => h.2.st != .released

/-- TC10_SLEEP_REQUEST from the link partner. -/
def execTc10SleepRequest (port : Fin 2) (s : State) : Host.Outcome State Fault Refusal :=
  let p := port.val
  .next (if !rbit s (portCfg p) 6 || !portUp s p then s
  else if handlesBusy s then { s with hostOut := .sleepAnswer p false :: s.hostOut }
  else modPort { s with hostOut := .sleepAnswer p true :: s.hostOut } p fun x => { x with state := 3, saks := [] })

/-! ### MKA (R331) -/

/-- Is the CAK of a principal installed: the system's in PROVISION, a tenant's by TENANT_CREATE (R332)? -/
def hasCak (s : State) (p : Nat) : Bool := if p = 0 then s.secStore.systemCak else (principalOf s p).isSome

/-- MKA_FRAME: the key server agrees (`up`) or withdraws the keys of a principal's connectivity association on a port;
a frame under no installed CAK is dropped and counted. -/
def execMkaFrame (port : Fin 2) (principal : Fin 9) (valid up : Bool) (s : State) :
    Host.Outcome State Fault Refusal :=
  let p := port.val
  let s1 := rcount s (hostRegBase + 0x100) 1
  .next (if !valid || !hasCak s principal.val then rcount s1 (hostRegBase + 0x114) 1
  else if !portUp s p then s1
  else hostSend (modPort s1 p fun x =>
    { x with saks := if up then principal.val :: x.saks.erase principal.val else x.saks.erase principal.val }) (.mka p))

end Sys2Proof.Machine
end

