-- ==== Sys2Proof/Machine/Sec.lean ====
section
/-! DEFINITION. Sys2Proof/Machine/Sec.lean: what SEC does (R438 to R453, R457, R458, R466, R467): roots, tokens, images,
measurements, quotes, key slots and the rows of the SEC block. -/

namespace Sys2Proof.Machine

/-- Change SEC's working state. -/
def onSec (s : State) (f : Sec → Sec) : State := { s with sec := f s.sec }
/-- Change the security store. -/
def onStore (s : State) (f : SecStore → SecStore) : State := { s with secStore := f s.secStore }
/-- SEC_AUTH_FAIL counts (R466). -/
def countAuthFail (s : State) : State := onSec s fun x => { x with authFail := satAdd x.authFail 1 }

/-! ### Roots (R445 to R447) -/

/-- The digest of root k, if programmed. -/
def rootDigest (s : State) (k : Nat) : Option (BitVec 512) := if k = 0 then s.otp.root0 else if k = 1 then s.otp.root1 else none
/-- R447: is root k revoked? -/
def rootRevoked (s : State) (k : Nat) : Bool := blown (if k = 0 then s.otp.revoked0 else s.otp.revoked1)
/-- Is root k programmed and not revoked? -/
def rootLive (s : State) (k : Nat) : Bool := (rootDigest s k).isSome && !rootRevoked s k
/-- The exponent 65,537, big-endian (R442). -/
def exponentBytes : List Byte := [0, 1, 0, 1]
/-- A part of a byte list. -/
def part (b : List Byte) (off n : Nat) : List Byte := (b.drop off).take n
/-- Are n bytes from an offset all 0? -/
def zerosAt (b : List Byte) (off n : Nat) : Bool := (part b off n).all (· == 0)

/-! ### Measurements (R452) -/

/-- The bytes of a digest, the first at the low end. -/
def digestBytes (d : BitVec 512) : List Byte := leBytes 64 d.toNat
/-- M_i. -/
def meas (s : State) (i : Nat) : BitVec 512 := SMap.getD s.sec.meas i 0
/-- R452: extend M_i with an event. -/
def extend (s : State) (i : Nat) (event : List Byte) : State :=
  onSec s fun x => { x with meas := SMap.set x.meas i (Config.sha512 (digestBytes (meas s i) ++ digestBytes (Config.sha512 event))) }
/-- R452: what M4 is extended with: life-cycle state, revocation fuses and rollback counts. -/
def lifeEvent (s : State) : List Byte :=
  [BitVec.ofNat 8 (lifeCycle s), s.otp.revoked0, s.otp.revoked1]
    ++ (span 0 4).map fun c => BitVec.ofNat 8 (SMap.getD s.otp.rollback c 0)

/-! ### Images (R444 to R446) -/

/-- Bytes of an image header (R444). -/
def headerLen : Nat := 1280
/-- The digest that a header gives for its body. -/
def bodyDigest (h : List Byte) : BitVec 512 := BitVec.ofNat 512 (leNat (part h 0x10 64))
/-- sec_version of a header. -/
def secVersion (h : List Byte) : Nat := leNat (part h 4 4)
/-- body_len of a header. -/
def bodyLen (h : List Byte) : Nat := leNat (part h 8 8)

/-- R445 steps 1 to 5: the first that fails. -/
def headerFail (s : State) (cls : Nat) (h : List Byte) : Option Nat :=
  let root := leNat (part h 3 1)
  if h.length < headerLen ∨ leNat (part h 0 2) ≠ 0x4D49 ∨ leNat (part h 2 1) ≠ cls ∨ 1 < root
      ∨ zerosAt h 0x50 48 = false ∨ zerosAt h 0x284 124 = false then some 1
  else if !rootLive s root then some 2
  else if rootDigest s root ≠ some (Config.sha512 (part h 0x80 516)) then some 3
  else if part h 0x280 4 ≠ exponentBytes ∨ !Config.rsaOk (part h 0x80 512) (part h 0 0x300) (part h 0x300 512) then some 4
  else if 128 < secVersion h ∨ (cls < 4 ∧ secVersion h < SMap.getD s.otp.rollback cls 0) ∨ (cls = 4 ∧ secVersion h ≠ 0) then
    some 5
  else none

/-- R445 steps 1 to 6 of a whole image. -/
def imageFail (s : State) (cls : Nat) (image : List Byte) : Option Nat :=
  match headerFail s cls image with
  | some k => some k
  | none => if bodyLen image = image.length - headerLen ∧ Config.sha512 (image.drop headerLen) = bodyDigest image then none
            else some 6

/-- R445: a refused image counts and is recorded with the step (R507). -/
def imageRefused (s : State) (step : Nat) : State := logAppend (countAuthFail s) 0x0C 0 [1, step]

/-! ### Tokens (R442, R443) -/

/-- Types of tokens permitted in a life-cycle state: an UNLOCK in FIELD, a RETIRE in PROVISION, FIELD and SERVICE (R439), a
REVOKE_ROOT there too, an AUDIO_GATE in SERVICE (R441). -/
def tokenPermitted (s : State) (type : Nat) : Bool :=
  let lc := lifeCycle s
  if type = 1 then lc == 2
  else if type = 2 ∨ type = 3 then lc == 1 || lc == 2 || lc == 3
  else type == 4 && lc == 3

/-- R443: does SEC accept a token of a type? -/
def tokenOk (s : State) (type : Nat) (t : List Byte) : Bool :=
  let root := leNat (part t 3 1)
  t.length == 1152 && leNat (part t 0 2) == 0x544B && leNat (part t 2 1) == type && tokenPermitted s type
    && leNat (part t 8 8) == s.board.serial.toNat
    && (s.sec.nonce.any fun n => leNat (part t 0x10 32) == n.1.toNat && decide (s.tick < n.2 + 600 * ticksPerSecond))
    && zerosAt t 0x30 16 && zerosAt t 0x244 60
    && rootLive s root && rootDigest s root == some (Config.sha512 (part t 0x40 516))
    && part t 0x240 4 == exponentBytes && Config.rsaOk (part t 0x40 512) (part t 0 0x280) (part t 0x280 512)

/-- R443: check a token: its nonce is spent either way; a refused one counts and is recorded. -/
def takeToken (s : State) (type : Nat) (t : List Byte) : State × Bool :=
  let s1 := onSec s fun x => { x with nonce := none }
  if tokenOk s type t then (s1, true) else (logAppend (countAuthFail s1) 0x0C 0 [0], false)

/-! ### Identity (R2, R374, R449, R453) -/

/-- SYS_ID (R2, R3). -/
def sysId (s : State) : Word := if s.board.revB then 0x4B320B00 else 0x4B320A00
/-- R449: the key_id of a public key. -/
def keyIdOf (pub : List Byte) : BitVec 64 := BitVec.ofNat 64 (Config.sha512 pub).toNat
/-- The device's own key_id; 0 without a device key. -/
def deviceKeyId (s : State) : BitVec 64 := s.secStore.deviceKey.elim 0 keyIdOf

/-! ### Tenant keys (R457, R458) -/

/-- The slot of generation g of tenant t (R457). -/
def keySlotOf (t g : Nat) : Nat := 2 * t - 2 + g % 2
/-- Is a generation bit of a partition held, for a frame (R368) or a deep block? -/
def keyHeld (s : State) (t genBit : Nat) : Bool := t == 0 || (SMap.get? s.sec.engines (keySlotOf t genBit)).isSome

/-- SEC_KEY_SLOT[s] as it reads (R469), word w. -/
def keySlotWord (s : State) (k w : Nat) : Word :=
  match SMap.get? s.sec.slots k with
  | none => 0
  | some x => match w with
    | 0 => word (2 ^ 31 + b2n x.retiring * 2 ^ 30 + x.part)
    | 1 => word x.count
    | 2 => word x.keyId.toNat
    | _ => word (x.keyId.toNat / 2 ^ 32)

/-- Make a new generation of tenant t in its slot, seal it and load the engines (R457, R458). -/
def makeKey (s : State) (t g : Nat) (id : BitVec 64) : State :=
  let x : KeySlot := { part := t, count := g, keyId := id }
  let k := keySlotOf t g
  onStore (onSec s fun v => { v with slots := SMap.set v.slots k x, engines := SMap.set v.engines k x })
    fun v => { v with keys := SMap.set v.keys k x }

/-- Zero slot k with its engine copies and its store entry. -/
def zeroKey (s : State) (k : Nat) : State :=
  onStore (onSec s fun v => { v with slots := SMap.erase v.slots k, engines := SMap.erase v.engines k })
    fun v => { v with keys := SMap.erase v.keys k }

/-- R459: zero every slot and store entry whose key_id is on the list. -/
def zeroRetired (s : State) (ids : List (BitVec 64)) : State :=
  (span 0 16).foldl (fun s k =>
    if ((SMap.get? s.sec.slots k).any fun x => ids.contains x.keyId)
        || ((SMap.get? s.secStore.keys k).any fun x => ids.contains x.keyId) then zeroKey s k else s) s

/-! ### Rows of the SEC block -/

/-- A write to a SEC register: SEC alone writes the block (R466). -/
def secWrite (s : State) (by_ : Req) (f : State → State) : State := if by_ = .sec then busOk (f s) else busError s

/-- SEC_CTRL.zeroise_all: every tenant slot and engine copy is zeroed. -/
def zeroiseAll (s : State) : State := onSec s fun x => { x with slots := [], engines := [] }

/-- SEC_ZEROISE_ALL. -/
def execSecZeroiseAll (by_ : Req) (s : State) : Host.Outcome State Fault Refusal := .next (secWrite s by_ zeroiseAll)

/-- SEC_CTRL.owner_unlock and with it MEM_STATUS.owner_lock. -/
def ownerUnlock (s : State) (v : Bool) : State :=
  { onSec s fun x => { x with ownerUnlock := v } with own := { s.own with lock := !v } }

/-- SEC_OWNER_UNLOCK. -/
def execSecOwnerUnlock (by_ : Req) (v : Bool) (s : State) : Host.Outcome State Fault Refusal :=
  .next (secWrite s by_ fun s => ownerUnlock s v)

/-- R458: SEC restarts: it loses its nonce, measures its image again and reloads the slots from the sealed key store. -/
def secRestart (s : State) (header : List Byte) : State :=
  extend (onSec s fun x => { x with slots := s.secStore.keys, nonce := none, ready := true, restarting := false }) 0 header

/-- TRNG_HEALTH_FAIL: trng_fail is set and SEC_TRNG_FAIL counts; without a running entropy source nothing fails. -/
def execTrngHealthFail (s : State) : Host.Outcome State Fault Refusal :=
  .next (if s.sec.trngEn then onSec s fun x => { x with trngFail := true, trngFails := satAdd x.trngFails 1 } else s)

end Sys2Proof.Machine
end

