-- ==== Sys2Proof/Machine/Agcon.lean ====
section
/-! DEFINITION. Sys2Proof/Machine/Agcon.lean: the link rows of the Agcon ports and mooring (R361 to R375, R381, R386). -/

namespace Sys2Proof.Machine

/-! ### The light list (R374) -/

/-- Cores in service: not retired. -/
def coresInService (s : State) : Nat :=
  ((span 0 32).filter fun n => (SMap.get? s.ras.coresRetired n).isNone).length

/-- R374: the entry of this device. -/
def ownEntry (s : State) : LightEntry :=
  { address := s.fab.addr, state := if s.fab.departed then 3 else 1, ports := maskOf 4 fun p => fabUp s p,
    closed := s.fab.closed, sysId := sysId s, serial := s.board.serial, keyId := deviceKeyId s,
    cores := coresInService s, deepGib := if s.mm.lpTrained then s.board.lpGib else 0,
    peer2 := if fabUp s 2 && fabRole s 2 == 3 then (fabPort s 2).peer else 0,
    peer3 := if fabUp s 3 && fabRole s 3 == 3 then (fabPort s 3).peer else 0 }

/-- Is this device the fabric head: head of segment 0 (R371, R385)? -/
def fabricHead (s : State) : Bool := s.fab.addr == fabAddrOf 0 1 && rbit s hostCtrl 5

/-! ### Mooring (R372, R373) -/

/-- Send MOOR with the next station number on the downstream port. -/
def sendMoor (s : State) : State :=
  match fabPortOf s 2 with
  | some p => linkSend (onFab s fun x => { x with token := false }) p
      { type := 0x20, src := s.fab.addr, payload := [BitVec.ofNat 8 (segOf s.fab.addr), BitVec.ofNat 8 (stnOf s.fab.addr + 1)] }
  | none => s

/-- Keep a segment's report at the fabric head. -/
def keepReport (s : State) (seg : Nat) (es : List LightEntry) : State :=
  if fabricHead s then onFab s fun x => { x with reports := SMap.set x.reports seg es } else s

/-- R372 steps 5 and 6: the entries of the segment have reached its head, which floods SEG_REPORT. -/
def headMoored (s : State) (es : List LightEntry) (closed : Bool) : State :=
  let s1 := onFab s fun x => { x with closed := closed, mooring := false }
  flood (keepReport s1 (segOf s.fab.addr) ({ ownEntry s1 with closed := closed } :: es)) 0x23

/-- R372 steps 4 and 5: the tail begins MOOR_END, another station adds its entry; at the head it ends. -/
def endMoor (s : State) (es : List LightEntry) (closed : Bool) : State :=
  let s1 := onFab s fun x => { x with token := false }
  if stnOf s.fab.addr = 1 ∧ rbit s hostCtrl 5 then headMoored s1 es closed
  else
    match fabPortOf s1 1 with
    | some p => linkSend s1 p { type := 0x21, src := s.fab.addr, payload := [BitVec.ofNat 8 (es.length + 1)] }
    | none => s1

/-- R372 steps 3 and 4: with the token in hand, extend it downstream, wait for the link there, or be the tail. -/
def extendToken (s : State) : State :=
  match fabPortOf s 2 with
  | none => endMoor s [] false
  | some p =>
    let x := fabPort s p
    if x.state = 3 then
      if x.peer = fabAddrOf (segOf s.fab.addr) 1 ∧ stnOf s.fab.addr ≠ 1 then endMoor s [] true else sendMoor s
    else if x.state = 5 ∨ x.faulty then endMoor s [] false
    else onFab (modFabPort s p fun x => { x with state := if x.state = 0 then 1 else x.state }) fun x => { x with token := true }

/-- R372: the cross ports probe: this device's address and port go to the peer of an authenticated cross port. -/
def sendProbe (s : State) (p : Nat) : State :=
  if fabRole s p = 3 ∧ s.fab.addr ≠ 0 then
    linkSend s p { type := 0x22, src := s.fab.addr, payload := leBytes 2 s.fab.addr ++ [BitVec.ofNat 8 p] }
  else s

/-- Probe on every authenticated cross port. -/
def probeAll (s : State) : State := (fabPorts.filter fun p => fabUp s p).foldl sendProbe s

/-- This device takes a fabric address (R371). -/
def takeAddress (s : State) (a : Nat) : State := probeAll (onFab s fun x => { x with addr := a })

/-- MOOR_START: FAB_CTRL.moor_start on a segment head; ignored on another device. -/
def moorStart (s : State) : State :=
  if rbit s hostCtrl 5 then
    extendToken (onFab (takeAddress s (fabAddrOf s.fab.segment 1)) fun x => { x with mooring := true })
  else s

/-- MOOR_START. -/
def execMoorStart (by_ : Req) (s : State) : Host.Outcome State Fault Refusal :=
  .next (mayWrite s by_ .fabRegs moorStart)

/-- MOOR: a token that names an address reaches this device on port p (R372, R373, R381). -/
def takeMoor (s : State) (p : Nat) (f : FabFrame) (seg stn : Nat) : State :=
  let a := fabAddrOf seg stn
  if fabRole s p ≠ 1 then raiseEvent s 0x0206 0xFFFF f.src
  else if rbit s hostCtrl 5 then raiseEvent s 0x0203 0xFFFF f.src
  else if 17 ≤ stn then
    raiseEvent (modFabPort s p fun x => { x with state := 5 }) 0x0202 0xFFFF a
  else if s.fab.addr ≠ 0 ∧ s.fab.addr ≠ a then raiseEvent s 0x0204 0xFFFF a
  else extendToken (takeAddress s a)

/-- MOOR. -/
def execMoor (port : Fin 4) (f : FabFrame) (seg : Fin 16) (stn : Fin 256) (s : State) :
    Host.Outcome State Fault Refusal :=
  .next (onControl s port.val f fun s => takeMoor s port.val f seg.val stn.val)

/-- MOOR_END: the entries of the stations below, and whether the segment is closed. -/
def execMoorEnd (port : Fin 4) (f : FabFrame) (entries : List LightEntry) (closed : Bool) (s : State) :
    Host.Outcome State Fault Refusal :=
  .next (onControl s port.val f fun s => if s.fab.addr = 0 then s else endMoor s entries closed)

/-- R362: port p is refused for its cabling. -/
def cablingFault (s : State) (p : Nat) : State :=
  raiseEvent (modFabPort s p fun x => { x with state := 5 }) 0x0207 0xFFFF p

/-- PROBE: the peer of a cross port gives its address and port; a peer of the own segment is refused (R362). -/
def execProbe (port : Fin 4) (f : FabFrame) (addr : BitVec 16) (s : State) : Host.Outcome State Fault Refusal :=
  let p := port.val
  .next (onControl s p f fun s =>
    if fabRole s p ≠ 3 then s
    else if s.fab.addr ≠ 0 ∧ segOf addr.toNat = segOf s.fab.addr then cablingFault s p
    else modFabPort s p fun x => { x with peer := addr.toNat })

/-- SEG_REPORT: a segment's entries, flooded. -/
def execSegReport (port : Fin 4) (f : FabFrame) (origin gen : Nat) (entries : List LightEntry) (s : State) :
    Host.Outcome State Fault Refusal :=
  .next (onControl s port.val f fun s => onFlood s port.val { f with type := 0x23 } origin gen fun s =>
    keepReport s (segOf origin) entries)

/-! ### Light lists and routes (R372, R375) -/

/-- Hops along a segment between two stations (R375). -/
def walk (l : SMap LightEntry) (seg a b : Nat) : Nat :=
  let d := if a ≤ b then b - a else a - b
  if segClosed l seg then min d (stationsOf l seg - d) else d

/-- A route being computed: hops, gateway station, gateway port. -/
structure RouteTry where
  hops : Nat
  stn : Nat
  port : Nat
  deriving DecidableEq, Repr

/-- Fewer hops first, then the lower gateway station, then the lower port (R375). -/
def tryLe (a b : RouteTry) : Bool :=
  decide (a.hops < b.hops) || (a.hops == b.hops && (decide (a.stn < b.stn) || (a.stn == b.stn && decide (a.port ≤ b.port))))

/-- The ways from segment `from_` to segment `to` over its cross links, given the best routes with fewer cross links. -/
def routeTries (l : SMap LightEntry) (best : SMap RouteTry) (from_ dst_ : Nat) : List RouteTry :=
  l.flatMap fun e =>
    if segOf e.2.address ≠ from_ ∨ (e.2.state ≠ 1 ∧ e.2.state ≠ 2 ∧ e.2.state ≠ 3) then []
    else [(2, e.2.peer2), (3, e.2.peer3)].filterMap fun q =>
      if q.2 = 0 ∨ segOf q.2 = from_ then none
      else if segOf q.2 = dst_ then some ⟨1, stnOf e.2.address, q.1⟩
      else (SMap.get? best (16 * segOf q.2 + dst_)).map fun r =>
        ⟨1 + walk l (segOf q.2) (stnOf q.2) r.stn + r.hops, stnOf e.2.address, q.1⟩

/-- The least of a list of tries. -/
def bestTry : List RouteTry → Option RouteTry
  | [] => none
  | a :: r => some (match bestTry r with | some b => if tryLe a b then a else b | none => a)

/-- The best routes between all segments with at most one more cross link. -/
def routeRound (l : SMap LightEntry) (best : SMap RouteTry) : SMap RouteTry :=
  (span 0 256).foldl (fun m k =>
    if k / 16 = k % 16 then m
    else match bestTry (routeTries l best (k / 16) (k % 16)) with
      | some r => SMap.set m k r
      | none => m) []

/-- Repeat rounds. -/
def routeRounds (l : SMap LightEntry) : Nat → SMap RouteTry
  | 0 => []
  | n + 1 => routeRound l (routeRounds l n)

/-- R375, R390: the route words of every segment, by 16 × segment + destination. -/
def routeWords (l : SMap LightEntry) : SMap Word :=
  (routeRounds l 15).map fun e => (e.1, word (2 ^ 31 + e.2.stn * 2 ^ 24 + e.2.port * 2 ^ 16 + e.2.hops % 256))

/-- ROUTE_COMMIT: the shadows of every FAB_ROUTE take effect (R10, R386). -/
def routeCommit (s : State) : State := (span 0 16).foldl (fun s k => rboundary s (fabRouteReg k)) s

/-- ROUTE_COMMIT. -/
def execRouteCommit (by_ : Req) (s : State) : Host.Outcome State Fault Refusal := .next (mayWrite s by_ .fabRegs routeCommit)

/-- R372 step 8, R459: install a light list: retired key generations are zeroed first, then the list and its routes. -/
def installLight (s : State) (m : LightMsg) : State :=
  let s1 := onStore (zeroRetired s m.retired) fun x => { x with retired := m.retired }
  let own := SMap.get? m.entries (lightIx s.fab.addr)
  let s2 := onFab s1 fun x =>
    { x with light := m.entries, lightValid := true, lightGen := m.gen,
             closed := segClosed m.entries (segOf s.fab.addr), departed := own.any fun e => e.state == 3 }
  let s3 := (span 0 16).foldl (fun s k =>
    { s with shadow := SMap.set s.shadow (fabRouteReg k) (SMap.getD m.routes (16 * segOf s.fab.addr + k) 0) }) s2
  routeCommit s3

/-- The fabric head installs a new list of the next generation and floods it (R372, R374). -/
def floodLight (s : State) (l : SMap LightEntry) : State :=
  flood (installLight s { origin := s.fab.addr, gen := s.fab.lightGen + 1, entries := l, routes := routeWords l,
                          retired := s.secStore.retired }) 0x24

/-- LIGHT_BUILD: the fabric head builds the list from the reports; a member new in it raises MEMBER_JOINED. -/
def execLightBuild (s : State) : Host.Outcome State Fault Refusal :=
  .next (if !fabricHead s || s.fab.reports.isEmpty then s
  else
    let es := s.fab.reports.flatMap Prod.snd
    let l := es.foldl (fun m e => SMap.set m (lightIx e.address) e) s.fab.light
    let new := es.filter fun e => !((lightOf s e.address).any fun o => o.state != 0)
    let s1 := new.foldl (fun s e => raiseEvent s 0x0200 0xFFFF e.address) s
    floodLight (onFab s1 fun x => { x with reports := [] }) l)

/-! ### Links (R361, R365 to R369) -/

/-- The downstream link that a token waits for cannot be used: this station is the tail (R372). -/
def tokenLost (s : State) (p : Nat) : State :=
  if s.fab.token && fabRole s p == 2 then endMoor s [] false else s

/-- AGCON_LINK_TRAINED: training of a port ends with these lanes; with all four each side sends AUTH, else the port is
down. -/
def execAgconLinkTrained (port : Fin 4) (lanes : Fin 16) (s : State) : Host.Outcome State Fault Refusal :=
  let p := port.val
  .next (if !s.fab.en || fabRole s p == 0 || (fabPort s p).faulty || decide (1 < (fabPort s p).state) then s
  else if lanes.val = 15 then
    let s1 := modFabPort s p fun x => { x with state := 2, lanes := 15 }
    fabCount (onFab s1 fun b => { b with wire := (p, { type := 0x10, src := b.addr }) :: b.wire }) 0x200 1
  else tokenLost (modFabPort s p fun x => { x with state := 0, lanes := lanes.val }) p)

/-- R362: may ports of these roles be linked? -/
def rolesOk (a b : Nat) : Bool := (a == 1 && b == 2) || (a == 2 && b == 1) || (a == 3 && b == 3)

/-- R366, R372: port p is authenticated: moored stations go on with what waits for it. -/
def portReady (s : State) (p : Nat) : State :=
  if fabRole s p = 3 then sendProbe s p
  else if fabRole s p = 2 ∧ s.fab.addr ≠ 0 then extendToken s
  else s

/-- AUTH: the peer's certificate verifies under a root or not, and its signature holds or not; its role and address. -/
def execAuth (port : Fin 4) (root : Fin 2) (ok : Bool) (role : Fin 4) (peer : BitVec 16) (s : State) :
    Host.Outcome State Fault Refusal :=
  let p := port.val
  .next (if !s.fab.en || (fabPort s p).state != 2 then s
  else
    let s1 := fabCount s 0x204 1
    if !ok || !rootLive s root.val then
      let s2 := fabCount (modFabPort s1 p fun x => { x with state := 5 }) 0x210 1
      tokenLost (raiseEvent (logAppend s2 0x0C 0 [2]) 0x0205 0xFFFF peer.toNat) p
    else if !rolesOk (fabRole s p) role.val
        || (fabRole s p == 3 && peer != 0 && s.fab.addr != 0 && segOf peer.toNat == segOf s.fab.addr) then
      tokenLost (cablingFault s1 p) p
    else portReady (linkUp s1 p peer.toNat) p)

/-- KEY: the next link key of the receiving direction. -/
def execKey (port : Fin 4) (f : FabFrame) (s : State) : Host.Outcome State Fault Refusal :=
  .next (onLink s port.val f fun s => modFabPort s port.val fun x => { x with rxKey := true })

/-- R367: counter and age at which a sending epoch ends. -/
def epochEnds (s : State) (x : FabPort) : Bool :=
  decide (2 ^ 40 ≤ x.txNext) || decide (x.epochAt + 3600 * ticksPerSecond ≤ s.tick)

/-- AGCON_REKEY: a sending direction sends a fresh key under the old epoch; no key can be made after trng_fail (R467). -/
def execAgconRekey (port : Fin 4) (s : State) : Host.Outcome State Fault Refusal :=
  let p := port.val
  let x := fabPort s p
  .next (if fabUp s p && epochEnds s x && x.rekey.isNone && !s.sec.trngFail then
    linkEmit (modFabPort s p fun x => { x with rekey := some x.txNext }) p { type := 0x11, src := s.fab.addr }
  else s)

/-- IDLE keeps the link alive. -/
def execIdle (port : Fin 4) (f : FabFrame) (s : State) : Host.Outcome State Fault Refusal :=
  .next (onLink s port.val f id)

/-- LINK_ACK: frames before counter n are acknowledged. -/
def execLinkAck (port : Fin 4) (f : FabFrame) (n : Nat) (s : State) : Host.Outcome State Fault Refusal :=
  .next (onLink s port.val { f with type := 0x04 } fun s => takeLinkAck s port.val n)

/-- LINK_NAK: resend from counter n; after 8 resends of one frame the port restarts its link. -/
def execLinkNak (port : Fin 4) (f : FabFrame) (n : Nat) (s : State) : Host.Outcome State Fault Refusal :=
  let p := port.val
  .next (onLink s p { f with type := 0x04 } fun s =>
    let s1 := takeLinkAck s p n
    if resendLimit ≤ (fabPort s1 p).resends then linkRestart s1 p else resendFrom s1 p n)

/-- CREDIT returns credits to a sending queue's route, here or farther on. -/
def execCredit (port : Fin 4) (f : FabFrame) (s : State) : Host.Outcome State Fault Refusal :=
  .next (onLink s port.val { f with type := 0x02 } fun s =>
    if f.dest = s.fab.addr then s else fabSend s { f with type := 0x02 })

/-- AGCON_LINK_DOWN: no valid frame for 1 ms. -/
def execAgconLinkDown (port : Fin 4) (s : State) : Host.Outcome State Fault Refusal :=
  let p := port.val
  let x := fabPort s p
  .next (if x.state = 0 ∨ x.state = 5 then s
  else
    tokenLost (modFabPort s p fun x =>
      { x with state := 0, lanes := 0, epoch := 0, rekey := none,
               downAt := match x.downAt with | some t => some t | none => some s.tick }) p)

/-- FAB_CTRL.restart (R369). -/
def fabRestart (s : State) (mask : Nat) : State := (fabPorts.filter fun p => bitOf mask p).foldl (fun s p => linkRestart s p) s

/-- AGCON_PORT_RESTART. -/
def execAgconPortRestart (by_ : Req) (mask : Fin 16) (s : State) : Host.Outcome State Fault Refusal :=
  .next (mayWrite s by_ .fabRegs fun s => fabRestart s mask.val)

/-- AGCON_FRAME_REJECTED: a wrong counter (0), a failed CRC (1), a failed GCM tag (2) or an unknown type (3). -/
def execAgconFrameRejected (port : Fin 4) (cause : Fin 4) (s : State) : Host.Outcome State Fault Refusal :=
  let p := port.val
  .next (if fabUp s p then
    linkNak (fabCount (fabCount s 0x204 1) (if cause.val = 2 then 0x210 else 0x20C) 1) p
  else s)

/-- FABRIC_CONTROL_SEND: the proxy of port p takes a control frame from mailbox 112 + p and sends it; how the words
name the frame is not given. -/
def execFabricControlSend (port : Fin 4) (f : FabFrame) (s : State) : Host.Outcome State Fault Refusal :=
  let p := port.val
  let m := 112 + p
  .next (if mbxFull s.mbx m && mbxReceiver s.mbx m == 0x41 + p then
    linkSend (mbxTake s (.proxy port) m) p f
  else s)

end Sys2Proof.Machine
end

