-- ==== Sys2Proof/Machine/CoreCtl.lean ====
section
/-! DEFINITION. Sys2Proof/Machine/CoreCtl.lean: how a command begins and ends (R66, R131 to R135), stop, watchdog and the
fields of CORE_CTRL (R97 to R100). -/

namespace Sys2Proof.Machine

/-- Is core n the sequencer of a 5-bit number? -/
def coreReq (n : Nat) : Req := .coreSeq ⟨n % 32, Nat.mod_lt _ (by decide)⟩

/-- Entries that have left their queues. -/
def inFlight (c : Core) : List QEntry := c.mIn ++ c.eIn ++ c.d0In ++ c.d1In
/-- Entries still in their queues. -/
def queued (c : Core) : List QEntry := c.mq ++ c.eq ++ c.d0 ++ c.d1

/-- R135: are the four queues empty and every transfer acknowledged? -/
def drained (c : Core) : Bool := (inFlight c).isEmpty && (queued c).isEmpty

/-- R256: unpin every object that a command touched, and note the reference. -/
def unpinObjs (n tick : Nat) (objs : SMap Obj) : SMap Obj :=
  objs.map fun e =>
    if bitOf e.2.pinMask n then (e.1, { e.2 with pinMask := e.2.pinMask - 2 ^ n, lastRef := tick }) else e

/-- R195, R256: unpin every page that a command mapped. -/
def unpinPages (n tick : Nat) (pages : SMap Page) : SMap Page :=
  pages.map fun e =>
    if bitOf e.2.pinMask n then (e.1, { e.2 with pinMask := e.2.pinMask - 2 ^ n, lastRef := tick }) else e

/-- R96, R97: the state of a core at rest, by its CORE_CTRL fields in force.  Retired lasts until reset. -/
def restState (c : Core) : CoreSt :=
  match c.st with
  | .off => .off
  | .retired => .retired
  | _ => if c.retire then .retired else if c.bistHold then .held else .idle

/-- R86: clear and release every resident row. -/
def clearResident (c : Core) : Core :=
  { c with acc := c.acc.filter fun r => (SMap.get? c.rowOwner r.1).isNone, rowOwner := [], clearPending := false }

/-- R10, R97: the command boundary: shadows take effect, a pending clear_resident runs. -/
def atBoundary (c : Core) : Core :=
  let c1 := { c with enable := c.shEnable, retire := c.shRetire, bistHold := c.shBistHold }
  let c2 := if c1.clearPending then clearResident c1 else c1
  { c2 with st := restState c2 }

/-- The command is over: pins are released, the core comes to rest (R135, R256, R288). -/
def coreRest (s : State) (n : Nat) : State :=
  let c := coreOf s n
  let s1 := { s with mm := { s.mm with objs := unpinObjs n s.tick s.mm.objs,
                                       pages := unpinPages n s.tick s.mm.pages,
                                       otuQ := s.mm.otuQ.filter fun q => q.1 != n } }
  setCore s1 n (atBoundary { c with ending := none, otc := [], otcInval := false, kpins := [] })

/-- R135: the end report of core n. -/
def endReport (s : State) (n : Nat) : List Word :=
  let c := coreOf s n
  [0, if c.faulted then c.fault else 0, c.cycTotal, c.cycShared, c.cycWeightWait,
   word (b2n (c.ending == some .stop) * 2 ^ 31 + bits c.stallCause.toNat 6 0), word s.tick, c.cmdId]

/-- R25, R135: send the end report; if its mailbox is FULL the core holds it and stays in state 0x3, else it
comes to rest (also if the report is dropped). -/
def sendReport (s : State) (n : Nat) : State :=
  if mbxFull s.mbx (64 + n) then
    { s with mbx := { s.mbx with held := s.mbx.held ++ [⟨0x20 + n, 64 + n, endReport s n⟩] } }
  else coreRest (hwWrite s (coreReq n) (64 + n) (endReport s n)) n

/-- Does core n hold its end report? -/
def holdsReport (s : State) (n : Nat) : Bool := s.mbx.held.any fun h => h.sender == 0x20 + n

/-- R135: once nothing is left of the command, report. -/
def finish (s : State) (n : Nat) : State :=
  let c := coreOf s n
  if c.st == .stopping && drained c && !holdsReport s n then sendReport s n else s

/-- R98, R131: end the command: issue stops, the queues are emptied, transfers in the mesh are discarded. -/
def endCommand (s : State) (n : Nat) (e : Ending) : State :=
  let c := coreOf s n
  let drop (l : List QEntry) := l.map fun x => { x with discard := true }
  let s1 := setCore s n { c with st := .stopping, ending := some e, mq := [], eq := [], d0 := [], d1 := [],
                                 mIn := [], eIn := [], d0In := drop c.d0In, d1In := drop c.d1In,
                                 loops := [], swait := none }
  let unwait (m : Sem) : Sem := { m with waiters := m.waiters.filter fun x => x.core != n }
  finish { s1 with sems := s1.sems.map fun v => (v.1, unwait v.2) } n

/-- R131: a fault of the running command of core n, raised by the instruction at pc.  The first one ends the
command; one that follows only sets its bit. -/
def faultCmd (s : State) (n : Nat) (f : CmdFault) (pc : Nat) : State :=
  let c := coreOf s n
  let s1 := recordFault s n f pc
  if c.st == .running || c.ending == some .clean then endCommand s1 n .fault else s1

/-- R66: the state of a core at command start. -/
def freshCore (c : Core) (tick : Nat) (id queue budget : Word) : Core :=
  { c with st := .running, cmdId := id, cmdQueue := queue, cmdBudget := budget, cmdStart := tick,
           cycTotal := 0, cycShared := 0, cycWeightWait := 0, cycBankConflict := 0, stallCause := 0,
           faulted := false, sat := [], spad := [], valid := [],
           acc := c.acc.filter fun r => (SMap.get? c.rowOwner r.1).isSome,
           bank0 := none, bank1 := none, lastFill := none, lastUse := none,
           s := [], p := [], t := [], l := [], loops := [], pc := 0, progBase := 0, progLen := 0, seq := 0,
           mq := [], eq := [], d0 := [], d1 := [], mIn := [], eIn := [], d0In := [], d1In := [],
           ending := none, swait := none, otc := [], kpins := [], sendIx := 0 }

/-- R132, R134: load S1 to S15 named by s_mask from the launch block at a. -/
def loadS (m : Memory) (a mask : Nat) (c : Core) : Core :=
  (span 1 15).foldl (fun c k =>
    if bitOf mask k then setS c k (word (Memory.le m (a + 0x20 + 4 * (k - 1)) 4)) else c) c

/-- R132, R134: load T0 to T7 named by t_mask from the launch block at a. -/
def loadT (m : Memory) (a mask : Nat) (c : Core) : Core :=
  (span 0 8).foldl (fun c k =>
    if bitOf mask k then setT c k (BitVec.ofNat 256 (Memory.le m (a + 0x60 + 32 * k) 32)) else c) c

/-- R132: are the reserved fields of the launch block at a all 0? -/
def launchReservedOk (m : Memory) (a : Nat) : Bool :=
  Memory.le m (a + 0x13) 13 == 0 && Memory.le m (a + 0x5C) 4 == 0 && Memory.le m (a + 0x10) 2 % 2 == 0

/-- R134: start the command whose launch block lies at a, on a fresh core. -/
def launch (s : State) (n a : Nat) : State :=
  let m := s.mem
  let base := Memory.le m a 8
  let len := Memory.le m (a + 8) 4
  let entry := Memory.le m (a + 0xC) 4
  if !dmaReach s n a 352 false then faultCmd s n { bit := .illegalInstr, addr := some a } 0
  else if poisoned s a 352 then faultCmd s n { bit := .eccUncorr, addr := some a } 0
  else if !launchReservedOk m a || base % 64 != 0 || decide (2 ^ 48 ≤ base) || len % 8 != 0 || entry % 8 != 0
      || decide (len ≤ entry) then faultCmd s n { bit := .illegalInstr } entry
  else onCore s n fun c =>
    let c1 := loadT m a (Memory.le m (a + 0x12) 1) (loadS m a (Memory.le m (a + 0x10) 2) c)
    { c1 with progBase := base, progLen := len, pc := entry }

/-- R133: the dispatch message of words 1 to 5. -/
def dispatch (s : State) (n : Nat) (w1 w2 w3 w4 w5 : Word) : State :=
  let a := w1.toNat + bits w2.toNat 15 0 * 2 ^ 32
  let budget := bits w5.toNat 12 0
  let s1 := setCore s n (freshCore (coreOf s n) s.tick w4 (word (bits w3.toNat 9 0)) (word budget))
  let bad := bits w2.toNat 31 16 != 0 || bits w3.toNat 31 10 != 0 || bits w5.toNat 31 13 != 0
    || a % 64 != 0 || budget == 0 || decide (5000 < budget)
  if bad then faultCmd s1 n { bit := .illegalInstr, addr := some a } 0 else launch s1 n a

/-- R133: may core n take its dispatch mailbox: idle, enabled, FULL, and the core is the receiver? -/
def mayDispatch (s : State) (n : Nat) : Bool :=
  let c := coreOf s n
  c.st == .idle && c.enable && mbxFull s.mbx (32 + n) && mbxReceiver s.mbx (32 + n) == 0x20 + n

/-- COMMAND_DISPATCH: core n reads its dispatch mailbox, whose words go with it, and starts the command. -/
def execCommandDispatch (core : Fin 32) (s : State) : Host.Outcome State Fault Refusal :=
  let n := core.val
  .next (if mayDispatch s n then
    let w (k : Nat) := mbxWord s.mbx (32 + n) k
    dispatch (mbxTake s (.coreSeq core) (32 + n)) n (w 1) (w 2) (w 3) (w 4) (w 5)
  else s)

/-- The program address of the oldest issued instruction that has not completed, else of the next one (R99). -/
def oldestPc (c : Core) : Nat :=
  let l := inFlight c ++ queued c
  match l.foldl (fun (b : Option QEntry) e => match b with
      | some x => if e.seq < x.seq then some e else b
      | none => some e) none with
  | some e => e.pc
  | none => c.pc

/-- Has core n run past four times its budget (R99)?  250 device ticks are one µs. -/
def overBudget (s : State) (n : Nat) : Bool :=
  let c := coreOf s n
  (c.st == .running || c.st == .stopping) && decide (c.cmdStart + 1000 * c.cmdBudget.toNat < s.tick)

/-- WATCHDOG. -/
def execWatchdog (core : Fin 32) (s : State) : Host.Outcome State Fault Refusal :=
  .next (if overBudget s core.val && !holdsReport s core.val then
    faultCmd s core.val { bit := .watchdog, addr := some 0 } (oldestPc (coreOf s core.val))
  else s)

/-- Is a requester a Keeper hart? -/
def isKeeper : Req → Bool
  | .keeper _ => true
  | _ => false

/-- R98: a write of 1 to stop. -/
def stopCore (s : State) (n : Nat) : State :=
  let c := coreOf s n
  if c.st == .running || (c.st == .stopping && c.ending == some .clean && !holdsReport s n) then
    endCommand s n .stop
  else s

/-- Is the core at rest, so that CORE_CTRL acts at once (R97)? -/
def atRest (c : Core) : Bool := c.st != .running && c.st != .stopping

/-- Apply a change of CORE_CTRL shadows: at once if the core is idle, else at its command boundary. -/
def ctrlWrite (s : State) (n : Nat) (f : Core → Core) : State :=
  let c := f (coreOf s n)
  setCore s n (if atRest c then atBoundary c else c)

/-- Answer a register write that only Keeper may make. -/
def keeperWrite (by_ : Req) (s : State) (f : State → State) : State :=
  if isKeeper by_ then busOk (f s) else busError s

/-- CORE_STOP. -/
def execCoreStop (by_ : Req) (core : Fin 32) (s : State) : Host.Outcome State Fault Refusal :=
  .next (keeperWrite by_ s fun s => stopCore s core.val)

/-- CORE_CLEAR_RESIDENT. -/
def execCoreClearResident (by_ : Req) (core : Fin 32) (s : State) : Host.Outcome State Fault Refusal :=
  .next (keeperWrite by_ s fun s => ctrlWrite s core.val fun c => { c with clearPending := true })

/-- CORE_BIST_HOLD. -/
def execCoreBistHold (by_ : Req) (core : Fin 32) (v : Bool) (s : State) : Host.Outcome State Fault Refusal :=
  .next (keeperWrite by_ s fun s => ctrlWrite s core.val fun c => { c with shBistHold := v })

/-- CORE_RETIRE: a write of 1. -/
def execCoreRetire (by_ : Req) (core : Fin 32) (s : State) : Host.Outcome State Fault Refusal :=
  .next (keeperWrite by_ s fun s => ctrlWrite s core.val fun c => { c with shRetire := true })

/-- CORE_ENABLE. -/
def execCoreEnable (by_ : Req) (core : Fin 32) (v : Bool) (s : State) : Host.Outcome State Fault Refusal :=
  .next (keeperWrite by_ s fun s => ctrlWrite s core.val fun c => { c with shEnable := v })

/-- CORE_ARRAY_DUTY_WRITE (R81, R100). -/
def execCoreArrayDutyWrite (by_ : Req) (core : Fin 32) (v : Word) (s : State) : Host.Outcome State Fault Refusal :=
  .next (keeperWrite by_ s fun s => onCore s core.val fun c => { c with duty := v &&& 0xFF })

end Sys2Proof.Machine
end

