-- ==== Sys2Proof/Machine/Tct.lean ====
section
/-! DEFINITION. Sys2Proof/Machine/Tct.lean: TCT associations and frames (R333 to R338). -/

namespace Sys2Proof.Machine

/-- Ticks per millisecond (R6). -/
def ticksPerMs : Nat := 250000

/-! ### Acknowledgements (R336) -/

/-- Is frame number a before b, counted modulo 2^32? -/
def seqBefore (a b : Nat) : Bool :=
  let d := (b + 2 ^ 32 - a) % 2 ^ 32
  decide (0 < d) && decide (d < 2 ^ 31)

/-- Does (ack, sack) acknowledge frame number q? -/
def acked (ack : Nat) (sack : BitVec 32) (q : Nat) : Bool :=
  seqBefore q ack || ((span 0 32).any fun k => sack.getLsbD k && (ack + 1 + k) % 2 ^ 32 == q)

/-- R347: the host has acknowledged the record of handle h. -/
def releaseHandle (s : State) (h : Nat) : State :=
  match handleOf s h with
  | some x => if x.st = .done then modHandle s h fun x => { x with st := .released, releasedAt := s.tick } else s
  | none => s

/-- R336, R347: the ack and sack fields of a frame of association n. -/
def takeAck (s : State) (n : Nat) (f : TctFrame) : State :=
  match SMap.get? s.k.assocs n with
  | none => s
  | some a =>
    let gone := a.unacked.filter fun g => acked f.ack f.sack g.seq
    if gone = [] then s
    else
      let s1 := modAssoc s n fun a =>
        { a with unacked := a.unacked.filter fun g => !acked f.ack f.sack g.seq, retryMs := 1 }
      pump ((gone.flatMap TctFrame.handles).foldl releaseHandle s1) n

/-- A frame of an association arrived (R328, R333, R336): accepted by MACsec, under the association's own principal, while
TCT is on; its acknowledgements count. -/
def onFrame (s : State) (rx : HostRx) (f : TctFrame) (go : State → State) : State :=
  received s rx fun s p =>
    match SMap.get? s.k.assocs f.assoc with
    | some a =>
      if rbit s hostCtrl 0 && carries s rx.port.val && a.principal == p && a.lostAt.isNone then
        go (takeAck (modAssoc s f.assoc fun a => { a with port := rx.port.val, lastRx := s.tick }) f.assoc f)
      else s
    | none => s

/-- R336: frame numbers received in order are no longer ahead. -/
def advanceRx (a : Assoc) : Nat → Assoc
  | 0 => a
  | k + 1 =>
    if a.rxAhead.contains a.rxNext then
      advanceRx { a with rxAhead := a.rxAhead.erase a.rxNext, rxNext := (a.rxNext + 1) % 2 ^ 32 } k
    else a

/-- Was frame number q received before? -/
def seen (a : Assoc) (q : Nat) : Bool := seqBefore q a.rxNext || a.rxAhead.contains q

/-- R336: a reliable frame is taken once; a duplicate is counted; either is acknowledged. -/
def reliable (s : State) (f : TctFrame) (go : State → State) : State :=
  match SMap.get? s.k.assocs f.assoc with
  | none => s
  | some a =>
    let ackIt (s : State) : State := match SMap.get? s.k.assocs f.assoc with
      | some a => emit s f.assoc { type := 0x15, seq := (a.txSeq + 2 ^ 32 - 1) % 2 ^ 32 }
      | none => s
    if seen a f.seq then ackIt (rcount s (hostRegBase + 0x10C) 1)
    else ackIt (go (modAssoc s f.assoc fun a => advanceRx { a with rxAhead := f.seq :: a.rxAhead } 257))

/-! ### Opening and closing (R335) -/

/-- Limits on associations (R335). -/
def assocPerPrincipal : Nat := 4
/-- Associations of the device. -/
def assocPerDevice : Nat := 36

/-- Sixty seconds (R335). -/
def resumeTicks : Nat := 60 * ticksPerSecond

/-- R334, R332: the payload of OPEN_ACK. -/
def openAck (n p perms seq : Nat) : List Byte :=
  leBytes 4 n ++ leBytes 1 p ++ leBytes 1 perms ++ leBytes 2 0 ++ leBytes 4 seq

/-- R351: records that were held go out once an association of the principal opens. -/
def sendHeld (s : State) (p : Nat) : State :=
  match SMap.get? s.k.principals p with
  | none => s
  | some x =>
    x.held.foldl (fun s r => match handleOf s r.handle with
      | some h => deliver s r h
      | none => s)
      (onK s fun k => { k with principals := SMap.set k.principals p { x with held := [] } })

/-- May association n be resumed by principal p now? -/
def resumable (s : State) (n p : Nat) : Bool :=
  match SMap.get? s.k.assocs n with
  | some a => a.principal == p && (match a.lostAt with
    | some t => decide (s.tick < t + resumeTicks)
    | none => false)
  | none => false

/-- TCT_OPEN (R335). -/
def execTctOpen (rx : HostRx) (hostSeq resume : Nat) (s : State) : Host.Outcome State Fault Refusal :=
  .next (received s rx fun s p =>
    if !(rbit s hostCtrl 0 && carries s rx.port.val) then s
    else match principalOf s p with
    | none => s
    | some x =>
      if resume ≠ 0 ∧ resumable s resume p then
        let s1 := modAssoc s resume fun a => { a with lostAt := none, port := rx.port.val, lastRx := s.tick, retryMs := 1 }
        let seq := (SMap.get? s1.k.assocs resume).elim 0 Assoc.txSeq
        sendHeld (sendMsg (resend s1 resume) resume 0x02 (openAck resume p x.perms seq) []) p
      else if assocPerDevice ≤ s.k.assocs.length
          ∨ assocPerPrincipal ≤ (s.k.assocs.filter fun a => a.2.principal == p).length then
        hostSend s (.tct rx.port.val { type := 0x03 })
      else match SMap.firstFree s.k.assocs 1 (assocPerDevice + 1) with
      | none => s
      | some n =>
        let seq := Config.freeNat s.freeCtr % 2 ^ 32
        let a : Assoc := { principal := p, port := rx.port.val, rxNext := hostSeq % 2 ^ 32, txSeq := seq,
                           lastRx := s.tick, lastTx := s.tick }
        let s1 := onK (nextFree s) fun k => { k with assocs := SMap.set k.assocs n a }
        sendHeld (sendMsg s1 n 0x02 (openAck n p x.perms seq) []) p)

/-- TCT_CLOSE: acknowledged (R336), it ends the association; no request is cancelled. -/
def execTctClose (rx : HostRx) (f : TctFrame) (s : State) : Host.Outcome State Fault Refusal :=
  .next (onFrame s rx f fun s => onK (reliable s f id) fun k => { k with assocs := SMap.erase k.assocs f.assoc })

/-! ### Requests (R336, R337, R339, R340) -/

/-- Request codes that are assigned (R341). -/
def codeOk (c : Nat) : Bool :=
  (decide (1 ≤ c) && decide (c ≤ 0xB)) || (decide (0x10 ≤ c) && decide (c ≤ 0x17)) || (decide (0x20 ≤ c) && decide (c ≤ 0x29))

/-- R339: the tiles of a message, each a tag and its padded payload; none if they do not fit. -/
def parseTiles (b : List Byte) : Nat → Option (List Tile)
  | 0 => if b = [] then some [] else none
  | k + 1 =>
    if b = [] then some []
    else
      let len := leNat ((b.drop 4).take 2)
      let pad := alignUp len 4
      if b.length < 16 + pad ∨ len = 0 ∨ 4096 < len then none
      else (parseTiles (b.drop (16 + pad)) k).map fun r => ⟨b.take 16, (b.drop 16).take len⟩ :: r

/-- R340: the status of a message that is refused, if it is: 2 MALFORMED, 3 UNKNOWN_REQUEST. -/
def msgRefusal (b : List Byte) : Option Nat :=
  let argLen := leNat ((b.drop 2).take 2)
  if b.length < 8 then some 2
  else if argLen % 4 ≠ 0 ∨ 4096 < argLen ∨ b.length < 8 + argLen ∨ 0x1000000 + 8 + argLen < b.length
      ∨ (parseTiles (b.drop (8 + argLen)) b.length).isNone then some 2
  else if !codeOk (leNat (b.take 1)) then some 3
  else none

/-- R339: the request that a message holds. -/
def msgRequest (n : Nat) (b : List Byte) : Request :=
  let argLen := leNat ((b.drop 2).take 2)
  { assoc := n, hostTag := word (leNat ((b.drop 4).take 4)), args := (b.drop 8).take argLen,
    tiles := (parseTiles (b.drop (8 + argLen)) b.length).getD [] }

/-- R26, R340: a complete request message is refused, or goes to Keeper through mailbox 0; where its buffer lies is the
firmware's own. -/
def messageDone (s : State) (n : Nat) (b : List Byte) : State :=
  match msgRefusal b with
  | some st => replyTo s n (word (leNat ((b.drop 4).take 4))) st 0 []
  | none =>
    let s1 := onK s fun k => { k with inbox := k.inbox ++ [msgRequest n b] }
    hwPost (nextFree s1) .tct 0 [0, Config.freeWord s.freeCtr, word b.length, 0, 0, 0, 0, 0]

/-- The segments of message m of an association, if all are there. -/
def joined (a : Assoc) (m segs : Nat) : Option (List Byte) :=
  let parts := (span 0 segs).map fun i => a.rxSegs.find? fun x => x.msg == m && x.seg == i && x.segs == segs
  if parts.all Option.isSome then some (parts.flatMap fun p => p.elim [] RxSeg.payload) else none

/-- A REQUEST frame's segment joins its message. -/
def joinSegment (s : State) (f : TctFrame) : State :=
  let s1 := modAssoc s f.assoc fun a => { a with rxSegs := ⟨f.msg, f.seg, f.segs, f.seq, f.payload⟩ :: a.rxSegs }
  match SMap.get? s1.k.assocs f.assoc with
  | none => s1
  | some a =>
    match joined a f.msg f.segs with
    | none => s1
    | some b => messageDone (modAssoc s1 f.assoc fun a => { a with rxSegs := a.rxSegs.filter fun x => x.msg != f.msg }) f.assoc b

/-- TCT_REQUEST_FRAME. -/
def execTctRequestFrame (rx : HostRx) (f : TctFrame) (s : State) : Host.Outcome State Fault Refusal :=
  .next (onFrame s rx f fun s => reliable s f fun s => joinSegment s f)

/-! ### The other frames and the timers (R336, R338) -/

/-- TCT_ACK. -/
def execTctAck (rx : HostRx) (f : TctFrame) (s : State) : Host.Outcome State Fault Refusal :=
  .next (onFrame s rx f fun s => s)

/-- TCT_KEEPALIVE. -/
def execTctKeepalive (rx : HostRx) (f : TctFrame) (s : State) : Host.Outcome State Fault Refusal :=
  .next (onFrame s rx f fun s => s)

/-- TCT_TIME: answered with the ticks of arrival and departure, once per millisecond and association. -/
def execTctTime (rx : HostRx) (f : TctFrame) (s : State) : Host.Outcome State Fault Refusal :=
  .next (onFrame s rx f fun s =>
    match SMap.get? s.k.assocs f.assoc with
    | none => s
    | some a =>
      if a.lastTime.any fun t => decide (s.tick < t + ticksPerMs) then s
      else
        let leave := s.tick + Config.freeNat s.freeCtr
        emit (nextFree (modAssoc s f.assoc fun a => { a with lastTime := some s.tick })) f.assoc
          { type := 0x16, seq := (a.txSeq + 2 ^ 32 - 1) % 2 ^ 32,
            payload := f.payload.take 8 ++ leBytes 8 s.tick ++ leBytes 8 leave })

/-- TCT_RETRANSMIT_TIMEOUT: the frames not acknowledged go out again; the interval doubles up to 64 ms. -/
def execTctRetransmitTimeout (assoc : Nat) (s : State) : Host.Outcome State Fault Refusal :=
  .next (match SMap.get? s.k.assocs assoc with
  | some a =>
    if a.unacked = [] ∨ a.lostAt.isSome then s
    else modAssoc (resend s assoc) assoc fun a => { a with retryMs := min 64 (2 * a.retryMs) }
  | none => s)

/-- KEEPALIVE_TIMER: 250 ms without sending. -/
def execKeepaliveTimer (assoc : Nat) (s : State) : Host.Outcome State Fault Refusal :=
  .next (match SMap.get? s.k.assocs assoc with
  | some a =>
    if a.lostAt.isNone && decide (a.lastTx + 250 * ticksPerMs ≤ s.tick) then
      emit s assoc { type := 0x17, seq := (a.txSeq + 2 ^ 32 - 1) % 2 ^ 32 }
    else s
  | none => s)

/-- ASSOCIATION_LOST: nothing heard for 2 s. -/
def execAssociationLost (assoc : Nat) (s : State) : Host.Outcome State Fault Refusal :=
  .next (match SMap.get? s.k.assocs assoc with
  | some a =>
    if a.lostAt.isNone && decide (a.lastRx + 2 * ticksPerSecond ≤ s.tick) then
      modAssoc s assoc fun a => { a with lostAt := some s.tick }
    else s
  | none => s)

/-- ASSOCIATION_EXPIRY: lost for 60 s. -/
def execAssociationExpiry (assoc : Nat) (s : State) : Host.Outcome State Fault Refusal :=
  .next (match SMap.get? s.k.assocs assoc with
  | some a =>
    if a.lostAt.any fun t => decide (t + resumeTicks ≤ s.tick) then
      onK s fun k => { k with assocs := SMap.erase k.assocs assoc }
    else s
  | none => s)

/-- TCT_OUTBOUND_MESSAGE (R26): the TCT engine takes mailbox 12 and sends the message that it names. -/
def execTctOutboundMessage (assoc type : Nat) (payload : List Byte) (s : State) : Host.Outcome State Fault Refusal :=
  .next (if mbxFull s.mbx 12 && mbxReceiver s.mbx 12 == 0x40 then sendMsg (mbxTake s .tct 12) assoc type payload [] else s)

end Sys2Proof.Machine
end

