-- ==== Sys2Proof/Machine/Sched.lean ====
section
/-! DEFINITION. Sys2Proof/Machine/Sched.lean: readiness, admission around sectors, placement and launch (R297 to R308),
which Keeper runs whenever R300 says so. -/

namespace Sys2Proof.Machine

/-- Ticks of one schedule unit of 10 µs (R303). -/
def schedUnit : Nat := 2500

/-! ### Tables (R303, R304, R324, R325) -/

/-- Partition p's rotation. -/
def rotOf (s : State) (p : Nat) : Rot := SMap.getD s.sched.rots p {}
/-- Change the SCHED block. -/
def onSched (s : State) (f : Sched → Sched) : State := { s with sched := f s.sched }
/-- Replace partition p's rotation. -/
def setRot (s : State) (p : Nat) (r : Rot) : State :=
  onSched s fun x => { x with rots := SMap.put x.rots p r {} }

/-- The shadow of sector entry i. -/
def shSector (s : State) (i : Nat) : Sector := SMap.getD s.sched.shSectors i {}

/-- The shadow sectors first to first + count − 1. -/
def shTable (s : State) (first count : Nat) : SMap Sector :=
  (span first count).map fun i => (i, shSector s i)

/-- The partition that owns core c (R454). -/
def coreOfPart (s : State) (p c : Nat) : Bool := corePart s c == p

/-- Do two sectors clash (R304)? -/
def sectorsClash (a b : Sector) : Bool :=
  a.valid && b.valid && a.coreSet &&& b.coreSet != 0
    && decide (a.start < b.start + b.length) && decide (b.start < a.start + a.length)

/-- Does any pair of a list of sectors clash? -/
def anyClash : List Sector → Bool
  | [] => false
  | a :: r => r.any (sectorsClash a) || anyClash r

/-- R304: is a table of partition p acceptable? -/
def tableOk (s : State) (p period count first : Nat) (table : SMap Sector) : Bool :=
  let secs := table.map Prod.snd
  (secs.all fun x => !x.valid || (x.length != 0 && decide (x.start + x.length ≤ period)
      && (span 0 32).all fun c => !bitOf x.coreSet c || coreOfPart s p c))
    && !anyClash secs
    && decide (first + count ≤ 512) && decide (count ≤ 64)
    && (s.sched.rots.all fun r => r.1 == p || r.2.count == 0 || count == 0
        || decide (first + count ≤ r.2.first) || decide (r.2.first + r.2.count ≤ first))
    && ((period == 0 && count == 0) || (decide (100 ≤ period) && decide (period ≤ 10000)))

/-- The shadow table of partition p is acceptable (R304). -/
def shadowOk (s : State) (p : Nat) : Bool :=
  let r := rotOf s p
  tableOk s p r.shPeriod r.shCount r.shFirst (shTable s r.shFirst r.shCount)

/-! ### Sectors ahead (chapter 10, Admission around sectors) -/

/-- Start ticks, guards and queues of the valid sectors on core c in a rotation that starts at t. -/
def sectorsOn (table : SMap Sector) (c t : Nat) : List (Nat × Nat × Nat) :=
  table.filterMap fun e =>
    if e.2.valid && bitOf e.2.coreSet c then some (t + e.2.start * schedUnit, e.2.guardUs, e.2.queue) else none

/-- next(c): the start and the guard, in ticks, of the next sector on c of another queue, in the current rotation and the
next one. -/
def nextSector (s : State) (p c queue : Nat) : Option (Nat × Nat) :=
  let r := rotOf s p
  if r.period = 0 then none
  else
    let base := r.lastStart + r.period * schedUnit
    let later := if r.armed then shTable s r.shFirst r.shCount else r.table
    let all := sectorsOn r.table c r.lastStart ++ sectorsOn later c base
    (all.filter fun x => decide (s.tick ≤ x.1) && x.2.2 != queue).foldl (fun b x => match b with
      | some (t, g) => if x.1 < t then some (x.1, x.2.1 * ticksPerUs) else some (t, g)
      | none => some (x.1, x.2.1 * ticksPerUs)) none

/-- R306: may a command of a budget start on core c now? -/
def fitsBefore (s : State) (p c queue budget : Nat) : Bool :=
  match nextSector s p c queue with
  | some (t, g) => decide (s.tick + budget * ticksPerUs + g ≤ t)
  | none => true

/-- The close tick of an open sector at its full length (R305). -/
def closeTick (s : State) (o : OpenSector) : Nat :=
  o.openedAt + ((SMap.getD (rotOf s o.part).table o.ix {}).length) * schedUnit

/-- The sector of an open sector entry. -/
def sectorOf (s : State) (o : OpenSector) : Sector := SMap.getD (rotOf s o.part).table o.ix {}

/-- R307: the same for a command of the open sector's queue. -/
def fitsSector (s : State) (o : OpenSector) (c queue budget : Nat) : Bool :=
  bitOf (sectorOf s o).coreSet c && decide (s.tick + budget * ticksPerUs ≤ closeTick s o)
    && fitsBefore s o.part c queue budget

/-- The open sectors of partition p by start, then table index (R300). -/
def openSectors (s : State) (p : Nat) : List OpenSector :=
  let l := s.sched.open_.filter fun o => o.part == p
  sortBy (fun a b => decide (a.openedAt < b.openedAt) || (a.openedAt == b.openedAt && decide (a.ix ≤ b.ix))) l

/-- Is core c reserved by an open sector of another queue (R305)? -/
def reservedElse (s : State) (p c queue : Nat) : Bool :=
  (openSectors s p).any fun o => bitOf (sectorOf s o).coreSet c && (sectorOf s o).queue != queue

/-! ### Readiness (R296, R297, R201) -/

/-- A queue that exists. -/
def queueAt (s : State) (q : Nat) : Option Queue := SMap.get? s.k.queues q
/-- A job that exists. -/
def jobAt (s : State) (j : Nat) : Option Job := SMap.get? s.k.jobs j

/-- R297, R201: may commands of an active job be ready as far as its session goes? -/
def sessionFree (s : State) (j : Nat) (x : Job) : Bool :=
  match x.session with
  | none => true
  | some n => match SMap.get? s.k.sessions n with
    | some v => v.jobs.head? == some j && (v.reingest.isNone || (x.refill && v.reingest == some x.lost))
    | none => true

/-- The active jobs of a queue, in order (R296). -/
def activeJobs (s : State) (q : Queue) : List (Nat × Job) :=
  (q.jobs.take q.depth).filterMap fun j => (jobAt s j).map fun x => (j, x)

/-- Has command g of a job all its predecessors done (R297), and those that run again before it (R474)? -/
def predsDone (x : Job) (c : JCmd) : Bool :=
  (c.g.preds ++ c.after).all fun p => x.cmds.any fun d => d.g.id == p && d.st == .done

/-! What a job needs powered (R27, R34) -/

/-- The mode that powers core c (R27). -/
def coreMode (c : Nat) : Mode := if c < 2 then .beacon else if c < 8 then .lantern else .lighthouse
/-- The mode that powers the HBM stack of an allocation unit. -/
def unitMode (u : Nat) : Mode := if u < 16 then .lantern else .lighthouse
/-- The mode that powers an SSR way. -/
def wayMode (w : Nat) : Mode := if w < 4 then .lantern else .lighthouse
/-- The code of a mode (R418). -/
def modeNo : Mode → Nat
  | .buoy => 0 | .beacon => 1 | .lantern => 2 | .lighthouse => 3
/-- The mode of a code. -/
def modeOf : Nat → Mode
  | 0 => .buoy | 1 => .beacon | 2 => .lantern | _ => .lighthouse
/-- The k-th lowest of some mode codes; 3 where there are fewer. -/
def kthMode (l : List Nat) (k : Nat) : Nat := (sortBy (fun a b => decide (a ≤ b)) l).getD (k - 1) 3

/-- Cores of a partition that take work, if they are powered (R97, R478). -/
def coresUsable (s : State) (p : Nat) : List Nat :=
  (span 0 32).filter fun c => coreOfPart s p c && (coreOf s c).st != .retired && (SMap.get? s.ras.coresRetired c).isNone

/-- Frames that a model's commands use: fixed ones and those of its objects in HBM. -/
def modelFrames (s : State) (m : Model) : List Nat :=
  m.fixedFrames ++ m.objects.flatMap fun n => (SMap.get? s.mm.objs (objKey m.part n)).elim [] Obj.frames

/-- R34: the lowest mode that powers the cores, SSR ways and HBM stacks that a job needs. -/
def neededMode (s : State) (x : Job) : Mode :=
  let gang := x.cmds.foldl (fun n c =>
    max n (if c.g.gang = 0 then 1 else (x.cmds.filter fun d => d.g.gang == c.g.gang).length)) 0
  let cores := if gang = 0 then 1 else kthMode ((coresUsable s x.part).map fun c => modeNo (coreMode c)) gang
  let rows := if x.cmds.any (fun c => bitOf c.g.flags 0) then
      ((span 0 32).filter fun c => coreOfPart s x.part c && (coreOf s c).rowOwner.any fun r => r.2 == x.queue).foldl
        (fun n c => max n (modeNo (coreMode c))) 0
    else 0
  let ways := if x.cmds.any (fun c => bitOf c.g.flags 3) then
      kthMode (((span 0 16).filter fun w => SMap.getD s.own.ssr w 0 == x.part).map fun w => modeNo (wayMode w)) 1
    else 0
  let hbm := ((SMap.get? s.k.models x.model).elim [] (modelFrames s)).foldl
    (fun n f => max n (modeNo (unitMode (f / framesPerUnit)))) 0
  modeOf (max (max cores rows) (max ways hbm))

/-- R34, R297, R409: is what a job needs powered, and the mode not on its way below it? -/
def powered (s : State) (x : Job) : Bool :=
  decide (modeNo (neededMode s x) ≤ modeNo s.aon.mode)
    && (s.k.lowering.all fun m => decide (modeNo (neededMode s x) ≤ modeNo m))
    && (!s.aon.busy || s.aon.up || decide (modeNo (neededMode s x) ≤ modeNo s.aon.target))

/-- R221: does a job wait for the replay groups of its queue? -/
def replayWaits (s : State) (x : Job) : Bool := x.replaySteps == 0 && (queueAt s x.queue).any Queue.replay

/-- R64: does a job wait for the shift of its model's stored values? -/
def rescaleWaits (s : State) (x : Job) : Bool := !x.started && s.k.rescales.any fun r => r.model == x.model

/-- The placement whose front queue a queue is (R377), with the placement's number. -/
def frontOf (s : State) (q : Nat) : Option (Nat × Front) :=
  s.fab.fronts.find? fun f => (SMap.get? s.fab.stages (64 * f.1)).any fun h => h.queue == q

/-- R379, R380: does a job wait for a stage of its placement that moves or is lost? -/
def placeWaits (s : State) (x : Job) : Bool :=
  !x.started && (frontOf s x.queue).any fun f => f.2.moves != [] || f.2.orphans != []

/-- R317, R318: do runs of a job that Keeper has stopped still last, or runs of its queue that are to run again? -/
def stopWaits (s : State) (j : Nat) (x : Job) : Bool :=
  s.runs.any fun r => r.2.stopped && (r.2.job == j || (r.2.queue == x.queue && !(jobAt s r.2.job).any Job.cancelled))

/-- The ready commands of a job, by identifier (R297). -/
def readyCmds (s : State) (j : Nat) (x : Job) : List JCmd :=
  if x.admitted && !x.cancelled && x.fault.isNone && x.badInput.isNone && sessionFree s j x && powered s x && !rescaleWaits s x && !replayWaits s x
      && !placeWaits s x && !stopWaits s j x then
    x.cmds.filter fun c => c.st == .waiting && predsDone x c
  else []

/-- A candidate: one command or one gang of a job (R299), and the job that waits where it runs on donated time. -/
structure Work where
  job : Nat
  queue : Nat
  cmds : List JCmd
  sector : Option OpenSector := none
  donated : Option Nat := none
  deriving DecidableEq, Repr

/-- R299: commands become work: those of a gang together, once every one of it is ready. -/
def toWork (j : Nat) (x : Job) (ready : List JCmd) : List (List JCmd) → List JCmd → List (List JCmd)
  | acc, [] => acc
  | acc, c :: r =>
    if c.g.gang = 0 then toWork j x ready (acc ++ [[c]]) r
    else
      let gang := x.cmds.filter fun d => d.g.gang == c.g.gang
      if acc.any (fun w => w.any fun d => d.g.gang == c.g.gang) || !(gang.all fun d => ready.contains d) then
        toWork j x ready acc r
      else toWork j x ready (acc ++ [gang]) r

/-- The ready work of a queue in R297's order. -/
def readyWork (s : State) (q : Nat) (sector : Option OpenSector) (donated : Option Nat) : List Work :=
  match queueAt s q with
  | none => []
  | some v => (activeJobs s v).flatMap fun (j, x) =>
      let ready := readyCmds s j x
      (toWork j x ready [] ready).map fun l => { job := j, queue := q, cmds := l, sector := sector, donated := donated }

/-- Does a queue offer any ready command? -/
def hasReady (s : State) (q : Nat) : Bool := !(readyWork s q none none).isEmpty

/-- Is a queue best-effort now (class 0, or demoted)? -/
def bestEffort (q : Queue) : Bool := q.cls == 0 || (q.cls == 1 && q.demoted)

/-- R300: best-effort queues of a partition, all of its host queues where it has no rotation (R303): priority 7 first, then
the age of the oldest ready job. -/
def bestEffortQueues (s : State) (p : Nat) : List Nat :=
  let l := (s.k.queues.filter fun q =>
      decide (16 ≤ q.1) && q.2.part == p && (bestEffort q.2 || (rotOf s p).period == 0)).map fun q =>
    (q.1, q.2.prio, ((activeJobs s q.2).find? fun x => !(readyCmds s x.1 x.2).isEmpty).elim (2 ^ 64) Prod.fst)
  (sortBy (fun a b => decide (b.2.1 < a.2.1) || (a.2.1 == b.2.1 && decide (a.2.2 ≤ b.2.2))) l).map Prod.fst

/-- R315, R476: re-runs come ahead of all other work of their class. -/
def rerunsFirst (l : List Work) : List Work :=
  (l.filter fun w => w.cmds.any JCmd.again) ++ l.filter fun w => !w.cmds.any JCmd.again

/-- R300: the candidates of a partition in order. -/
def candidates (s : State) (p : Nat) : List Work :=
  (s.donations.flatMap fun d => match (openSectors s p).find? fun o => o.ix == d.sector with
      | some o => readyWork s d.owner (some o) (some d.job)
      | none => [])
    ++ rerunsFirst ((openSectors s p).flatMap fun o => readyWork s (sectorOf s o).queue (some o) none)
    ++ rerunsFirst (if p = 0 then (span 0 16).flatMap fun q => readyWork s q none none else [])
    ++ rerunsFirst ((bestEffortQueues s p).flatMap fun q => readyWork s q none none)

/-! ### Placement (R299 to R301, R476) -/

/-- Is core c free to take a command: idle, enabled, no run on it, its dispatch mailbox empty, and not named by a tenant's
creation that waits (R456)? -/
def coreIdle (s : State) (c : Nat) : Bool :=
  let x := coreOf s c
  x.st == .idle && x.enable && (SMap.get? s.runs c).isNone && !mbxFull s.mbx (32 + c)
    && !s.k.creations.any fun v => bitOf v.tenant.cores c

/-- May core c take work of partition p at all (R97, R478)? -/
def coreInService (s : State) (p c : Nat) : Bool :=
  coreOfPart s p c && (coreOf s c).st != .off && (coreOf s c).st != .retired && (coreOf s c).st != .held
    && s.k.lowering.all fun m => decide (modeNo (coreMode c) ≤ modeNo m)

/-- Does the checkpoint slot of a queue hold rows of core c that are to come back (R221)? -/
def rowsDue (s : State) (q c : Nat) : Bool :=
  (queueAt s q).any fun v => v.restore && v.ckptRows.any fun e => e.1 == c

/-- Cores of a partition that hold resident rows of a queue, or will before its next command, ascending. -/
def rowCores (s : State) (p q : Nat) : List Nat :=
  (span 0 32).filter fun c => coreOfPart s p c && (rowsDue s q c || (coreOf s c).rowOwner.any fun r => r.2 == q)

/-- Does a command use resident rows (R284 flags)? -/
def usesRows (c : JCmd) : Bool := bitOf c.g.flags 0

/-- R299: is work bound, and to which cores, in the order of its commands: the k-th command of the job that uses
resident rows runs on the k-th core that holds them (DEDUCED, log 14). -/
def boundCores (s : State) (p : Nat) (w : Work) : Option (List Nat) :=
  let rows := rowCores s p w.queue
  if rows = [] || !(w.cmds.any usesRows) then none
  else
    let all := ((jobAt s w.job).elim [] Job.cmds).filter usesRows
    some (w.cmds.filterMap fun c => rows[(all.findIdx fun d => d.g.id == c.g.id) % rows.length]?)

/-- Key of a command of a job. -/
def cmdKey (j c : Nat) : Nat := 8192 * j + c

/-- R476: did the latest run of a command fault on this core? -/
def avoided (s : State) (w : Work) (c : Nat) : Bool :=
  w.cmds.any fun d => SMap.get? s.k.avoid (cmdKey w.job d.g.id) == some c

/-- Largest budget of a piece of work. -/
def workBudget (w : Work) : Nat := w.cmds.foldl (fun b c => max b c.g.budget) 0

/-- Cores of a partition in service that work may use: not the one its latest run faulted on, unless the partition has but
one (R476); a bound command keeps its own. -/
def serviceCores (s : State) (p : Nat) (w : Work) : List Nat :=
  let base := (span 0 32).filter fun c => coreInService s p c
  if (coresUsable s p).length ≤ 1 || w.cmds.any usesRows then base else base.filter fun c => !avoided s w c

/-- R306, R307, R312: the cores that work may start on now, ascending; a gang by its largest budget (DEDUCED, log 45). -/
def allowedCores (s : State) (p : Nat) (w : Work) : List Nat :=
  let b := workBudget w
  let base := serviceCores s p w
  match w.sector with
  | some o =>
    let inside := base.filter fun c => fitsSector s o c w.queue b
    if w.donated.isSome ∧ (inside.filter (coreIdle s)).length < w.cmds.length then
      base.filter fun c => fitsSector s o c w.queue b
        || (!reservedElse s p c w.queue && fitsBefore s p c w.queue b && decide (s.tick + b * ticksPerUs ≤ closeTick s o))
    else inside
  | none => base.filter fun c => !reservedElse s p c w.queue && fitsBefore s p c w.queue b

/-- The frames of a partition (R264). -/
def framesTotal (s : State) (p : Nat) : Nat :=
  (unitsOf s p).length * framesPerUnit
    - (s.mm.retired.filter fun f => SMap.getD s.own.hbm (f.1 / framesPerUnit) 0 == p).length
/-- Fixed frames of a partition, those of its fixed objects among them (R254). -/
def framesFixed (s : State) (p : Nat) : Nat :=
  (s.mm.fixedF.filter fun f => f.2 == p).length
    + (s.mm.objs.filter fun o => o.1 / 65536 == p && o.2.fixed).foldl (fun n o => n + o.2.frames.length) 0
/-- Reserved frames of a partition. -/
def framesReserved (s : State) (p : Nat) : Nat := (s.mm.reserved.filter fun f => f.2 == p).length

/-- R265: do the pin sets of the running commands of a partition and of w fit? -/
def pinsFit (s : State) (p : Nat) (w : Work) : Bool :=
  let running := s.runs.foldl (fun n r => match jobAt s r.2.job with
    | some x => if x.part = p then n + ((x.cmds.find? fun c => c.g.id == r.2.cmd).elim 0 fun c => c.g.pinSet) else n
    | none => n) 0
  let new := w.cmds.foldl (fun n c => n + c.g.pinSet) 0
  decide (running + new ≤ (framesTotal s p - framesFixed s p - framesReserved s p) * 0x10000)

/-! ### Launch (R132, R133, R302, R317) -/

/-- The launch block area of a partition: a fixed frame of 32 blocks of 512 B, taken when it is first needed. -/
def launchArea (s : State) (p : Nat) : Option (State × Nat) :=
  match SMap.get? s.k.launchBase p with
  | some a => some (s, a)
  | none => match allocFixed s p 1 with
    | some (t, f :: _) =>
      some (onK t fun k => { k with launchBase := SMap.set k.launchBase p (f * 0x10000) }, f * 0x10000)
    | _ => none

/-- R341, R132: the scalar arguments: a job argument that is not 0 replaces the template's (DEDUCED, log 15). -/
def launchArgs (x : Job) (c : JCmd) : List Byte :=
  let tmpl := (span 0 320).map fun i => c.g.args.getD i 0
  (span 0 15).flatMap (fun k =>
      let own := (x.args.drop (4 * k)).take 4
      if leNat own = 0 then (tmpl.drop (4 * k)).take 4 else own) ++ tmpl.drop 60

/-- The program of a command: base address and length. -/
def programOf (s : State) (x : Job) (c : JCmd) : Nat × Nat :=
  match SMap.get? s.k.models x.model with
  | some m => match m.programs.find? fun p => p.1 == c.g.program with
    | some (_, a, n) => (a, n)
    | none => (0, 0)
  | none => (0, 0)

/-- R132: the launch block of a command. -/
def launchBlock (s : State) (x : Job) (c : JCmd) : List Byte :=
  let (a, n) := programOf s x c
  leBytes 8 a ++ leBytes 4 n ++ leBytes 4 c.g.entry ++ leBytes 2 c.g.sMask ++ leBytes 1 c.g.tMask ++ leBytes 13 0
    ++ launchArgs x c

/-- R133: Keeper posts a message of words 0 to 7 in mailbox m, as hart 0. -/
def keeperPost (s : State) (m : Nat) (ws : List Word) : State :=
  (span 0 8).foldl (fun s w => mbxWrite s (.keeper 0) m w (ws.getD w 0)) s

/-- R317: at job start every semaphore that the job declares takes its initial value. -/
def startSems (s : State) (x : Job) : State :=
  (x.cmds.flatMap fun c => c.g.sems).foldl (fun s d =>
    match x.sems.find? fun m => m.1 == d.1 with
    | some (_, v) => { s with sems := SMap.modify s.sems v fun m => { m with count := d.2.1 } }
    | none => s) s

/-- Positions of the input tiles of a job. -/
def inputPositions (l : List Tile) : Nat := (l.map fun t => Config.positionsIn t.payload).sum

/-- R213, R215: the streams of a queue that a group of T steps advances: those whose rings hold T frames. -/
def groupMembers (s : State) (q steps : Nat) : List Nat :=
  (s.k.sessions.filter fun v => v.2.queue == q && decide (v.2.step + steps ≤ v.2.ringBase + v.2.ring.length)).map Prod.fst

/-- Send a PLACE frame to a member; the tick of the oldest one that it has not answered is kept (R380). -/
def placeSend (s : State) (dest : Nat) (m : FabMsg) (answer : Bool) : State :=
  let s1 := fabSend s { type := 0x30, dest := dest, src := s.fab.addr, msg := some m }
  if !answer || dest == s.fab.addr || (SMap.get? s.fab.asked dest).isSome then s1
  else onFab s1 fun b => { b with asked := SMap.set b.asked dest s.tick }

/-- Tell every stage of a placement but the front device's own. -/
def tellOthers (s : State) (f : Front) (m : FabMsg) (answer : Bool) : State :=
  (f.plan.stages.drop 1).foldl (fun s t => placeSend s t.addr m answer) s

/-- The placement of which a model is the front device's own stage. -/
def frontOfModel (s : State) (m : Nat) : Option (Nat × Front) :=
  s.fab.fronts.find? fun f => (SMap.get? s.fab.stages (64 * f.1)).any fun h => h.model == m

/-- The stage whose session here is n, with its key and the session's number on the front device. -/
def stageOfSession (s : State) (n : Nat) : Option (Nat × HeldStage × Nat) :=
  match s.fab.stages.find? fun h => h.1 % 64 != 0 && h.2.sessions.any fun e => e.2 == n with
  | some (k, h) => (h.sessions.find? fun e => e.2 == n).map fun e => (k, h, e.1)
  | none => none

/-- R380: what the loss of a session's positions from one on means for the other stages of its placement: on the front device
they keep theirs while the positions are ingested again; on another stage the front device hears of it. -/
def noteLoss (s : State) (n pos : Nat) : State :=
  match stageOfSession s n with
  | some (k, _, fs) =>
    let s1 := onK s fun q => { q with sessions := SMap.modify q.sessions n fun v => { v with reingest := none } }
    placeSend s1 (k / 64 / 65536) (.lostFrom (k / 64) (k % 64) fs pos) false
  | none => match (SMap.get? s.k.sessions n).bind fun v => frontOfModel s v.model with
    | some (_, f) => onK s fun q => { q with sessions := SMap.modify q.sessions n fun v =>
        { v with kept := span 1 (f.plan.stages.length - 1) } }
    | none => s

/-- Positions that a job may add to its session (R190): those of its input and those it may generate. -/
def mayAdd (v : Session) (x : Job) : Nat :=
  if x.refill then v.len - v.reingest.getD v.len else inputPositions x.inputs + x.limit

/-- R377: the stages of a placement hear of a job of the front queue; a re-ingest after a loss runs on the surviving stages with
KAPP and KSEAL suppressed (R380). -/
def tellStages (s : State) (j : Nat) (x : Job) : State :=
  match frontOf s x.queue with
  | none => s
  | some (pl, f) =>
    let v := x.session.bind fun n => (SMap.get? s.k.sessions n).map fun v => (n, v)
    let others := (span 1 (f.plan.stages.length - 1)).filter fun i => (f.plan.stages[i]?).isSome
    let len := v.elim 0 fun y => if x.refill then y.2.reingest.getD y.2.len else y.2.len
    let s1 := others.foldl (fun s i =>
      let off := x.refill && v.any fun y => y.2.kept.contains i
      placeSend s ((f.plan.stages[i]?).elim 0 Stage.addr)
        (.job pl i j x.kind (v.elim 0xFFFFFFFF Prod.fst) len (v.elim 0 fun y => mayAdd y.2 x) off) true) s
    modJob s1 j fun x => { x with relays := others, noKv := x.refill && v.any fun y => y.2.kept.contains 0 }

/-- R64, R201, R317: a job starts: its semaphores are set, its session's length is noted, and the first job under a new
scale says so in its record. -/
def startJob (s : State) (j : Nat) (x : Job) : State :=
  let fresh := (SMap.get? s.k.models x.model).any Model.recalNew
  let len := (x.session.bind fun n => SMap.get? s.k.sessions n).elim 0 Session.len
  let steps := (queueAt s x.queue).elim 0 Queue.steps
  let s1 := modJob (startSems s x) j fun x =>
    { x with started := true, lenAtStart := len, outFlags := if fresh then setBits x.outFlags 1 1 1 else x.outFlags,
             members := groupMembers s x.queue steps }
  let s2 := modQueue (modModel s1 x.model fun m => { m with recalNew := false }) x.queue fun v => { v with groupKind := x.kind }
  tellStages s2 j x

/-- R86, R221: the rows of a queue come back from the current checkpoint slot. -/
def restoreNow (s : State) (q : Nat) : State :=
  match queueAt s q with
  | none => s
  | some v =>
    if !v.restore then s
    else
      let back (s : State) (e : Nat × SMap AccRow) : State := onCore s e.1 fun c =>
        { c with acc := e.2.foldl (fun a r => SMap.set a r.1 r.2) c.acc,
                 rowOwner := e.2.foldl (fun o r => SMap.set o r.1 q) c.rowOwner }
      modQueue (v.ckptRows.foldl back s) q fun v => { v with restore := false }

/-- Launch one command on core c (R302). -/
def launchOne (s : State) (p : Nat) (w : Work) (cmd : JCmd) (c : Nat) : State :=
  match jobAt s w.job, launchArea (restoreNow s w.queue) p with
  | some x, some (s1, area) =>
    let a := area + 512 * c
    let s2 := if x.started then s1 else startJob s1 w.job x
    let s3 := writeMem s2 a (launchBlock s2 x cmd)
    let s4 := keeperPost s3 (32 + c) [0, word a, word (a / 2 ^ 32), word w.queue, word cmd.g.id, word cmd.g.budget, 0, 0]
    let s5 := modJob s4 w.job fun x =>
      { x with cmds := x.cmds.map fun d => if d.g.id = cmd.g.id then { d with st := .running c, again := false } else d }
    { s5 with runs := SMap.set s5.runs c { job := w.job, cmd := cmd.g.id, queue := w.queue, launched := s.tick,
                                           donated := w.donated, run := cmd.runs } }
  | _, _ => s

/-- R319: a job's first launch in a sector of its queue adds the ticks from the later of the sector's start and the job's
readiness (log 16). -/
def noteFirst (s : State) (w : Work) : State :=
  match w.sector, w.donated with
  | some o, none => modJob s w.job fun x =>
      if x.lateIn = some (o.ix, o.openedAt) then x
      else { x with lateIn := some (o.ix, o.openedAt),
                    sectorLate := x.sectorLate + (s.tick - max o.openedAt (x.readySince.getD s.tick)) }
  | _, _ => s

/-- Launch the commands of a piece of work on the cores picked, in order. -/
def launchAll (s : State) (p : Nat) (w : Work) (cores : List Nat) : State :=
  (w.cmds.zip cores).foldl (fun s x => launchOne s p w x.1 x.2) (noteFirst s w)

/-- R300: the cores that a piece of work gets, if it can start. -/
def pick (s : State) (p : Nat) (w : Work) (held : List Nat) : Option (List Nat) :=
  let allowed := (allowedCores s p w).filter fun c => !held.contains c
  match boundCores s p w with
  | some cs => if cs.length = w.cmds.length ∧ (cs.all fun c => coreIdle s c && allowed.contains c) then some cs else none
  | none =>
    let free := (allowed.filter (coreIdle s)).take w.cmds.length
    if free.length = w.cmds.length then some free else none

/-- R301: the cores held for a gang that cannot start. -/
def holdFor (s : State) (p : Nat) (w : Work) (held : List Nat) : List Nat :=
  match boundCores s p w with
  | some cs => cs
  | none => ((allowedCores s p w).filter fun c => !held.contains c).take w.cmds.length

/-- R300: the placement procedure over the candidates left. -/
def placeAll (s : State) (p : Nat) (held : List Nat) : List Work → State
  | [] => s
  | w :: r =>
    match pick s p w held with
    | some cs => if pinsFit s p w then placeAll (launchAll s p w cs) p held r
                 else placeAll s p (if decide (1 < w.cmds.length) && held.isEmpty then holdFor s p w held else held) r
    | none => placeAll s p (if decide (1 < w.cmds.length) && held.isEmpty then holdFor s p w held else held) r

/-- R319: the tick from which each job of a partition has had a ready command. -/
def noteReady (s : State) (p : Nat) : State :=
  let one (e : Nat × Job) : Nat × Job :=
    if e.2.part ≠ p then e
    else (e.1, { e.2 with readySince := if readyCmds s e.1 e.2 = [] then none else e.2.readySince.or (some s.tick) })
  onK s fun k => { k with jobs := k.jobs.map one }

/-- R316: does a reset of partition p still wait for cores to come to rest? -/
def resetting (s : State) (p : Nat) : Bool := s.runs.any fun r => r.2.reset && corePart s r.1 == p

/-- R300, R316: Keeper runs the placement procedure for a partition, but not while it is being reset. -/
def dispatchPart (s : State) (p : Nat) : State :=
  if resetting s p then s else placeAll (noteReady s p) p [] (candidates (noteReady s p) p)

end Sys2Proof.Machine
end

