-- ==== Sys2Proof/Machine/Aon.lean ====
section
/-! DEFINITION. Sys2Proof/Machine/Aon.lean: the always-on domain (R391 to R406, R416 to R421): recording, the audio ring, the
read gate, the audio staging area, and how the mode controller takes an upward request. -/

namespace Sys2Proof.Machine

/-- Change the AON block. -/
def onAon (s : State) (f : Aon → Aon) : State := { s with aon := f s.aon }

/-- A write to an AON register (R19, R416): the DSP's write to a field of Keeper's alone is ignored, and the other way round. -/
def aonWrite (s : State) (by_ : Req) (keeper dsp : Bool) (f : State → State) : State :=
  if !reaches by_ true .aonRegs then busError s
  else if (if by_ == .dsp then dsp else keeper) then busOk (f s)
  else busOk s

/-! ### The ring (R395 to R404) -/

/-- Base of the AON SRAM (R19). -/
def aonSramBase : Nat := 0x00F040000000
/-- Its size, 6 MiB. -/
def aonSramSize : Nat := 0x600000
/-- AON_RING_CFG.ch_mask. -/
def chMask (a : Aon) : Nat := bits a.ringCfg.toNat 31 16
/-- Output rate in samples per second (R419). -/
def outRate (a : Aon) : Nat := ([8000, 16000, 32000, 48000] : List Nat).getD (bits a.ringCfg.toNat 5 4) 8000
/-- Bytes of a sample (R401). -/
def sampleBytes (a : Aon) : Nat := if bitOf a.ringCfg.toNat 0 then 3 else 2
/-- Bytes of a frame, F (R401). -/
def frameBytes (a : Aon) : Nat := popcount 16 (chMask a) * sampleBytes a
/-- Ring base as an offset into the AON SRAM. -/
def ringBase (a : Aon) : Nat := bits a.ringSize.toNat 10 0 * 4096
/-- Ring length in bytes. -/
def ringLen (a : Aon) : Nat := bits a.ringSize.toNat 26 16 * 4096
/-- Frames that the ring holds, D (R401). -/
def ringFrames (a : Aon) : Nat := ringLen a / frameBytes a

/-- R396: may output rate code r be made at PDM clock code k? -/
def ratePair (r k : Nat) : Bool :=
  (r == 0 && (k == 1 || k == 2)) || (r == 1 && (k == 1 || k == 2 || k == 3)) || (r == 2 && (k == 2 || k == 3))
    || (r == 3 && k == 3)

/-- R396, R402: do the clocks of the ports that the channels use go with the rate? -/
def clocksOk (a : Aon) : Bool :=
  let r := bits a.ringCfg.toNat 5 4
  (bits (chMask a) 7 0 == 0 || ratePair r (bits a.pdm0.toNat 1 0))
    && (bits (chMask a) 15 8 == 0 || ratePair r (bits a.pdm1.toNat 1 0))

/-- R402: is a run accepted?  One that records no channel is not (log 17). -/
def runOk (a : Aon) : Bool :=
  clocksOk a && decide (bits a.ringSize.toNat 10 0 + bits a.ringSize.toNat 26 16 ≤ 1536)
    && decide (0 < frameBytes a) && decide (8 * outRate a ≤ ringFrames a)

/-- R399: the trim stage after the phase trim. -/
def gainTrim (y : Int) (g : Nat) : Int := clampI (shrRne (y * g) 14) (-(2 ^ 23)) (2 ^ 23 - 1)

/-- AON_CH_TRIM[c].gain. -/
def trimGain (a : Aon) (c : Nat) : Nat := bits (SMap.getD a.trim c 0x4000).toNat 15 0

/-- R401: the bytes of a sample. -/
def sampleOf (a : Aon) (y : Int) : List Byte :=
  if bitOf a.ringCfg.toNat 0 then leBytes 3 (unsigned 24 y) else leBytes 2 (unsigned 16 (sat16 (shrRne y 8)))

/-- The recorded channels, ascending (R401). -/
def channels (a : Aon) : List Nat := (span 0 16).filter fun c => bitOf (chMask a) c

/-- R397: the first 64 output samples of a run are 0. -/
def warmupSamples : Nat := 64

/-- R401: the bytes of the frame at the ring position; sample k is that of the k-th recorded channel, after its chain and
phase trim. -/
def frameOf (a : Aon) (samples : List Int) : List Byte :=
  let cs := channels a
  ((span 0 cs.length).map fun k =>
    let y := if a.pos < a.runPos + warmupSamples then 0 else gainTrim (samples.getD k 0) (trimGain a (cs.getD k 0))
    sampleOf a y).flatten

/-- RING_FRAME_RECORD: one frame of the samples that the chains put out. -/
def execRingFrameRecord (samples : List Int) (s : State) : Host.Outcome State Fault Refusal :=
  let a := s.aon
  .next (if !a.run then s
  else
    let at_ := aonSramBase + ringBase a + (a.pos % ringFrames a) * frameBytes a
    { s with mem := Memory.writeBytes s.mem at_ (frameOf a samples), aon := { a with pos := (a.pos + 1) % 2 ^ 64 } })

/-- R402: a write of 1 to run. -/
def runStart (s : State) : State :=
  if s.aon.run then s
  else if runOk s.aon then onAon s fun a => { a with run := true, runPos := a.pos }
  else onAon s fun a => { a with ringCfgErr := true }

/-- AON_RUN_START. -/
def execAonRunStart (by_ : Req) (s : State) : Host.Outcome State Fault Refusal := .next (aonWrite s by_ true false runStart)

/-- R399, R509: the word of AON_CH_TRIM that a calibration entry gives: the built-in default where it is absent. -/
def trimWord (s : State) (c : Nat) : Word :=
  match SMap.get? s.boot.cal c with
  | some e => if e.data.length = 4 then word (leNat e.data) &&& 0xFF00FFFF else 0x4000
  | none => 0x4000

/-- Keeper writes AON_CH_TRIM of the channels that are due, while recording is off (R400, R509). -/
def writeTrims (s : State) : State :=
  s.aon.trimDue.foldl (fun s c => onAon s fun a => { a with trim := SMap.put a.trim c (trimWord s c) 0x4000 })
    (onAon s fun a => { a with trimDue := [] })

/-- R402: a write of 0 to run. -/
def runStop (s : State) : State := writeTrims (onAon s fun a => { a with run := false })

/-- AON_RUN_STOP. -/
def execAonRunStop (by_ : Req) (s : State) : Host.Outcome State Fault Refusal := .next (aonWrite s by_ true false runStop)

/-- R403: latch the position and the device tick. -/
def latch (s : State) : State := onAon s fun a => { a with latchPos := a.pos, latchTick := s.tick }

/-- AON_LATCH. -/
def execAonLatch (by_ : Req) (s : State) : Host.Outcome State Fault Refusal := .next (aonWrite s by_ true true latch)

/-- R394: zero the AON SRAM outside the ring. -/
def clearDspSram (s : State) : State :=
  let lo := aonSramBase + ringBase s.aon
  let hi := lo + ringLen s.aon
  { s with mem := Memory.clear (Memory.clear s.mem aonSramBase lo) hi (aonSramBase + aonSramSize) }

/-- R394: a write of dsp_reset, ignored while a candidate is open. -/
def dspReset (s : State) (v : Bool) : State :=
  if s.aon.candOpen then onAon s fun a => { a with cfgWhileBusy := true }
  else onAon (if v then clearDspSram s else s) fun a => { a with dspReset := v }

/-- DSP_RESET_ASSERT. -/
def execDspResetAssert (by_ : Req) (s : State) : Host.Outcome State Fault Refusal :=
  .next (aonWrite s by_ true false fun s => dspReset s true)

/-- DSP_RESET_RELEASE. -/
def execDspResetRelease (by_ : Req) (s : State) : Host.Outcome State Fault Refusal :=
  .next (aonWrite s by_ true false fun s => dspReset s false)

/-- R419, R421: the register takes the bits of its fields; excluded channels stay out of ch_mask (R486). -/
def aonConfig (a : Aon) (r : AonReg) (v : Word) : Aon :=
  match r with
  | .ringCfg => { a with ringCfg := v &&& 0xFFFF0031 &&& ~~~(word (a.pdmExcluded * 65536)) }
  | .ringSize => { a with ringSize := v &&& 0x07FF07FF }
  | .pdm p => if p = 0 then { a with pdm0 := v &&& 3 } else { a with pdm1 := v &&& 3 }
  | .trim c => { a with trim := SMap.put a.trim c.val (v &&& 0xFF00FFFF) 0x4000 }

/-- R400: a write of a configuration register, ignored while recording. -/
def aonConfigWrite (s : State) (reg : AonReg) (v : Word) : State :=
  onAon s fun a => if a.run then { a with cfgWhileBusy := true } else aonConfig a reg v

/-- AON_CONFIG_WRITE. -/
def execAonConfigWrite (by_ : Req) (reg : AonReg) (v : Word) (s : State) : Host.Outcome State Fault Refusal :=
  .next (aonWrite s by_ true true fun s => aonConfigWrite s reg v)

/-! ### The read gate (R404, R405) -/

/-- R404: the frame stored in slot q: the latest position below pos that maps to it. -/
def frameInSlot (a : Aon) (q : Nat) : Option Nat :=
  let d := ringFrames a
  if q < d ∧ q < a.pos then some (a.pos - 1 - (a.pos - 1 - q) % d) else none

/-- R404: is the byte at an offset into the ring readable? -/
def ringReadable (a : Aon) (o : Nat) : Bool :=
  a.gateOpen && decide (0 < frameBytes a) &&
    match frameInSlot a (o / frameBytes a) with
    | some p => decide (a.gateStart ≤ p) && decide (a.runPos ≤ p)
    | none => false

/-- A read that the gate refuses (R404, R507). -/
def gateDenied (s : State) : State :=
  logAppend (onAon s fun a => { a with gateDenied := satAdd a.gateDenied 1 }) 0x0C 0 [5]

/-- RING_GATED_READ of n + 1 bytes at an offset into the AON SRAM; the DSP reads all of it (R394). -/
def execRingGatedRead (by_ : Req) (off : Fin 0x600000) (n : Fin 4) (s : State) : Host.Outcome State Fault Refusal :=
  let a := s.aon
  let o := off.val
  let v := word (leNat (readMem s (aonSramBase + o) (n.val + 1)))
  .next (if by_ = .dsp then busData s v
  else if !reaches by_ false .aonSram || decide (o < ringBase a) || decide (ringBase a + ringLen a < o + n.val + 1) then
    busError s
  else if (span (o - ringBase a) (n.val + 1)).all (ringReadable a) then busData s v
  else busError (gateDenied s))

/-- R416: the 64-bit AON registers. -/
def aonLong (a : Aon) : Nat → Nat
  | 0 => a.pos
  | 1 => a.runPos
  | 2 => a.latchPos
  | 3 => a.latchTick
  | 4 => a.gateStart
  | 5 => a.gateEnd
  | _ => a.candMark

/-- AON_POS_LOW_READ of register r: AON_RING_POS, AON_RUN_POS, AON_LATCH_POS, AON_LATCH_TICK, AON_GATE_START, AON_GATE_END,
AON_CAND_MARK. -/
def execAonPosLowRead (by_ : Req) (r : Fin 7) (s : State) : Host.Outcome State Fault Refusal :=
  let v := aonLong s.aon r.val
  .next (if reaches by_ false .aonRegs then
    busData (onAon s fun a => { a with hi := SMap.put a.hi r.val (word (v / 2 ^ 32)) 0 }) (word v)
  else busError s)

/-- R405: open the gate from start to end_, or widen it, and record the opening. -/
def openGate (s : State) (start end_ : Nat) : State :=
  logAppend (onAon s fun a =>
    if a.gateOpen then { a with gateStart := min a.gateStart start, gateEnd := max a.gateEnd end_ }
    else { a with gateOpen := true, gateStart := start, gateEnd := end_ }) 0x0C 0 [3]

/-- R405: a write of 1 to service_open. -/
def serviceOpen (s : State) : State :=
  let a := s.aon
  if lifeCycle s = 3 then openGate s (a.pos - 2 * outRate a) (a.pos + 30 * outRate a)
  else onAon s fun a => { a with gateDenied := satAdd a.gateDenied 1 }

/-- GATE_SERVICE_OPEN. -/
def execGateServiceOpen (by_ : Req) (s : State) : Host.Outcome State Fault Refusal := .next (aonWrite s by_ true false serviceOpen)

/-! ### The staging area (R406) -/

/-- The region of a kind in the PSRAM window: address and length (R504). -/
def psRegion (s : State) (kind : Nat) : Nat × Nat :=
  match s.boot.regions.find? fun r => r.kind == kind with
  | some r => (psramBase + r.offset, r.length)
  | none => (psramBase, 0)

/-- Tiles of 4,096 B, with their tags at the end, that the staging area holds (DESIGN CHOICE, log 18). -/
def stageTiles (s : State) : Nat := (psRegion s 5).2 / 4112

/-- The frames of the ring that the gate lets Keeper read, from position p, n of them at most. -/
def readableFrom (a : Aon) (p : Nat) : Nat → List Nat
  | 0 => []
  | n + 1 => if a.pos ≤ p then [] else p :: readableFrom a (p + 1) n

/-- The bytes of the frame at a position. -/
def ringFrame (s : State) (p : Nat) : List Byte :=
  readMem s (aonSramBase + ringBase s.aon + (p % ringFrames s.aon) * frameBytes s.aon) (frameBytes s.aon)

/-- Write tag k of a staging area that holds n bytes. -/
def stageTag (s : State) (n k : Nat) : State :=
  let b := psRegion s 5
  let len := min 4096 (n - 4096 * k)
  let f := if bitOf s.aon.ringCfg.toNat 0 then 0x0B else 0x01
  { s with mem := Memory.writeBytes s.mem (b.1 + 4096 * stageTiles s + 16 * k)
                    (tagBytes (readMem s (b.1 + 4096 * k) len) f 0x01 0 k) }

/-- R406: Keeper copies the readable frames that it has not copied, in position order, and tags the tiles. -/
def stageCopy (s : State) : State :=
  let a := s.aon
  let f := frameBytes a
  let lo := max (max a.gateStart a.runPos) (a.pos - ringFrames a)
  if !a.gateOpen || f == 0 then s
  else
    let start := s.k.stageFrom.getD lo
    let next := if s.k.stageFrom.isSome then max s.k.stageNext lo else lo
    let ps := (readableFrom a next (ringFrames a)).filter fun p =>
      decide (start ≤ p) && decide ((p + 1 - start) * f ≤ 4096 * stageTiles s)
    let s1 := ps.foldl (fun s p =>
      { s with mem := Memory.writeBytes s.mem ((psRegion s 5).1 + (p - start) * f) (ringFrame s p) }) s
    let end_ := match ps.getLast? with | some p => p + 1 | none => next
    let n := (end_ - start) * f
    let s2 := (span 0 (ceilDiv n 4096)).foldl (fun s k => stageTag s n k) s1
    { s2 with k := { s2.k with stageFrom := some start, stageNext := end_ } }

/-- R406: the staging area is overwritten with zeros. -/
def stageZero (s : State) : State :=
  let b := psRegion s 5
  { s with mem := Memory.clear s.mem b.1 (b.1 + b.2), k := { s.k with stageFrom := none, stageNext := 0 } }

/-- R405, R406: the gate closes; the closing is recorded and the staging area zeroed. -/
def closeGate (s : State) : State :=
  if s.aon.gateOpen then logAppend (stageZero (onAon s fun a => { a with gateOpen := false })) 0x0C 0 [4] else s

/-- GATE_CLOSE. -/
def execGateClose (by_ : Req) (s : State) : Host.Outcome State Fault Refusal := .next (aonWrite s by_ true false closeGate)

/-- GATE_EXPIRY: the ring position has reached AON_GATE_END. -/
def execGateExpiry (s : State) : Host.Outcome State Fault Refusal :=
  .next (if s.aon.gateEnd ≤ s.aon.pos then closeGate s else s)

/-! ### Upward requests to the mode controller (R30, R409 to R413, R415) -/

/-- R411 step 1: leaving BUOY drives MAIN_EN high and sends a wake-up on both ports (R330). -/
def leaveBuoy (s : State) : State :=
  { s with power := { s.power with mainEn := true, pgTries := if s.power.pgTries < 2 then 0 else 1 },
           hostOut := .wakeup 1 :: .wakeup 0 :: s.hostOut }

/-- R29: begin the upward step from the present mode towards a goal; a step that was stopped on its way down goes back up
to where the device was at least. -/
def stepUp (s : State) (goal : Mode) : State :=
  let a := s.aon
  let t := modeOf (min (modeNo a.mode + 1) (modeNo goal))
  let s1 := { s with aon := { a with target := t, goal := goal, busy := true, up := true, wanted := none, deferred := none } }
  if a.mode = .buoy ∧ !s.power.mainEn then leaveBuoy s1 else s1

/-- R30: the pending request after an upward request for m while an upward transition is under way. -/
def pendUp (a : Aon) (m : Mode) : Option Mode :=
  match a.wanted with
  | some w => if modeNo a.goal < modeNo m then (if modeNo m < modeNo w then some w else some m)
              else if modeNo w < modeNo m then none else some w
  | none => if modeNo a.goal < modeNo m then some m else none

/-- R30, R409: a request for at least mode m; the latest upward cause is kept where the request has an effect. -/
def askUp (s : State) (m : Mode) (cause : Nat) : State :=
  let a := s.aon
  if a.busy then
    if a.up then
      let w := pendUp a m
      { s with aon := { a with wanted := w, deferred := none,
                               cause := if modeNo a.goal < modeNo m then cause else a.cause } }
    else if modeNo a.target < modeNo m then
      stepUp { s with aon := { a with cause := cause } } m
    else { s with aon := { a with goal := if modeNo a.goal < modeNo m then m else a.goal } }
  else if modeNo a.mode < modeNo m then stepUp { s with aon := { a with cause := cause } } m
  else { s with aon := { a with deferred := match a.deferred with
    | some d => if modeNo d < modeNo m then none else some d
    | none => none } }

end Sys2Proof.Machine
end

