-- ==== Sys2Proof/Machine/Camera.lean ====
section
/-! DEFINITION. Sys2Proof/Machine/Camera.lean: camera input and the image pipeline (R422 to R437): packets, the pixel path, frame
buffers and records, parameters. -/

namespace Sys2Proof.Machine

/-- Change the CAM block. -/
def onCam (s : State) (f : Cam → Cam) : State := { s with cam := f s.cam }
/-- Context x. -/
def ctxOf (s : State) (x : Nat) : CamCtx := SMap.getD s.cam.ctxs x {}
/-- Change context x. -/
def modCtx (s : State) (x : Nat) (f : CamCtx → CamCtx) : State :=
  onCam s fun c => { c with ctxs := SMap.set c.ctxs x (f (SMap.getD c.ctxs x {})) }
/-- Port p. -/
def camPort (s : State) (p : Nat) : CamPort := SMap.getD s.cam.ports p {}
/-- Change port p. -/
def modCamPort (s : State) (p : Nat) (f : CamPort → CamPort) : State :=
  onCam s fun c => { c with ports := SMap.set c.ports p (f (SMap.getD c.ports p {})) }
/-- A counter of port p: 0 CAM_HDR_ECC_CORR, 1 CAM_HDR_ECC_UNCORR, 2 CAM_CRC_ERR, 3 CAM_OVERFLOW, 4 CAM_STRAY_PKT. -/
def camCount (s : State) (k p : Nat) : State := rcount s (camRegBase + 0x100 + 0x10 * k + 4 * p) 1
/-- CAM_PORT_CFG[p]. -/
def camPortCfg (p : Nat) : Nat := camRegBase + 0x10 + 4 * p

/-! ### The parameter block (R433) -/

/-- The word offsets of a parameter window that hold a register; the reserved ones hold none (R433). -/
def winHas (w : Nat) : Bool :=
  decide (w < 0x20) || (decide (0x400 ≤ w) && decide (w < 0xA72)) || (decide (0xC00 ≤ w) && decide (w < 0x1200))
    || (decide (0x1400 ≤ w) && decide (w < 0x1500))

/-- Byte o of a parameter window. -/
def winByte (w : SMap Word) (o : Nat) : Byte := BitVec.ofNat 8 ((SMap.getD w (o / 4) 0).toNat / 256 ^ (o % 4))
/-- A field of n bytes. -/
def pfield (w : SMap Word) (o n : Nat) : Nat := leNat ((span o n).map (winByte w))
/-- A signed 16-bit field. -/
def pint (w : SMap Word) (o : Nat) : Int := signed 16 (pfield w o 2)

/-- in_width. -/
def inWidth (w : SMap Word) : Nat := pfield w 0 2
/-- in_height. -/
def inHeight (w : SMap Word) : Nat := pfield w 2 2
/-- data_type. -/
def camType (w : SMap Word) : Nat := pfield w 6 1
/-- Bits of a raw data type; 0 for one that is not raw (R423). -/
def rawBits (t : Nat) : Nat := if t = 0x2A then 8 else if t = 0x2B then 10 else if t = 0x2C then 12 else 0
/-- Values of a pixel: one in a raw line, three in another. -/
def comps (w : SMap Word) : Nat := if rawBits (camType w) = 0 then 3 else 1
/-- out_w. -/
def outW (w : SMap Word) : Nat := pfield w 0x10 2
/-- out_h. -/
def outH (w : SMap Word) : Nat := pfield w 0x12 2
/-- pitch. -/
def pitchOf (w : SMap Word) : Nat := pfield w 0x1E 2
/-- Bytes of the tensor (R428, R429). -/
def tensorLen (w : SMap Word) : Nat := outW w * outH w * pitchOf w
/-- The address of buffer k. -/
def bufAddr (w : SMap Word) (k : Nat) : Nat := pfield w 0x60 8 + k * pfield w 0x68 4
/-- nbuf. -/
def nbufOf (w : SMap Word) : Nat := pfield w 0x55 1

/-- Do n bytes from a lie in HBM of a partition (R429)? -/
def inPart (s : State) (part a n : Nat) : Bool :=
  let one (x : Nat) : Bool := match regionOf s.board x with
    | some (.hbm u) => SMap.getD s.own.hbm u 0 == part
    | _ => false
  one a && one (a + n - 1)

/-- R433: are the values of a parameter block within their ranges? -/
def rangesOk (w : SMap Word) : Bool :=
  let dim (n : Nat) : Bool := decide (16 ≤ n) && decide (n ≤ 4096)
  let step (n : Nat) : Bool := decide (0x2000 ≤ n) && decide (n ≤ 0x80000)
  dim (inWidth w) && dim (inHeight w) && decide (pfield w 4 1 ≤ 3) && decide (pfield w 5 1 ≤ 3)
    && ([0x2A, 0x2B, 0x2C, 0x1E, 0x24, 0x12] : List Nat).contains (camType w) && decide (pfield w 7 1 ≤ 4)
    && decide (1 ≤ pfield w 0xC 2) && decide (1 ≤ pfield w 0xE 2)
    && decide (pfield w 8 2 + pfield w 0xC 2 ≤ inWidth w) && decide (pfield w 0xA 2 + pfield w 0xE 2 ≤ inHeight w)
    && dim (outW w) && dim (outH w) && step (pfield w 0x14 4) && step (pfield w 0x18 4)
    && decide (pfield w 0x1C 1 ≤ 1) && decide (pfield w 0x1D 1 ≤ 2)
    && decide (64 ≤ pitchOf w) && decide (pitchOf w ≤ 512) && pitchOf w % 64 == 0
    && decide (2 ≤ nbufOf w) && decide (nbufOf w ≤ 16)
    && decide (1000 ≤ pfield w 0x58 4) && decide (pfield w 0x58 4 ≤ 1000000)

/-- R429, R433: do the addresses of a parameter block satisfy their rules for a partition? -/
def addressesOk (s : State) (part : Nat) (w : SMap Word) : Bool :=
  pfield w 0x60 8 % 0x10000 == 0 && pfield w 0x68 4 % 0x10000 == 0 && pfield w 0x78 8 % 64 == 0
    && decide (tensorLen w ≤ 0x4000000)
    && (span 0 (nbufOf w)).all fun k =>
      inPart s part (bufAddr w k) (tensorLen w)
        && inPart s part (bufAddr w k + pfield w 0x6C 4) (16 * ceilDiv (tensorLen w) 4096)
        && inPart s part (bufAddr w k + pfield w 0x70 4) 528 && inPart s part (pfield w 0x78 8 + 32 * k) 32

/-- R433: the boundary of context x: the shadow takes effect unless hold keeps it or it breaks a range. -/
def camBoundary (s : State) (x : Nat) : State :=
  let c := ctxOf s x
  if c.hold || c.shadow == c.win then s
  else if rangesOk c.shadow && addressesOk s c.part c.shadow then modCtx s x fun c => { c with win := c.shadow }
  else onCam s fun b => { b with cfgErr := true }

/-! ### The pixel path (R426) -/

/-- A 16-bit unsigned result. -/
def u16 (x : Int) : Int := clampI x 0 65535

/-- Mirrored position within n pixels (R426). -/
def mirror (n : Nat) (i : Int) : Nat := if i < 0 then (-i).toNat else if (n : Int) ≤ i then (2 * (n : Int) - 2 - i).toNat else i.toNat

/-- A value of an input line that has not come, which a valid output line can still read (R431; free, log 30). -/
def unseen (c y i : Nat) : Int := (Config.freeNat (c + 4096 * y + i) % 65536 : Nat)

/-- Value i of input line y of a frame. -/
def camAt (c : Nat) (f : CamFrame) (y i : Nat) : Int :=
  match f.lines[y]? with
  | some l => (l.getD i 0 : Nat)
  | none => unseen c y i

/-- The CFA position of a pixel (R426). -/
def cfaPos (x y : Nat) : Nat := 2 * (y % 2) + x % 2
/-- The colour at a CFA position: 0 red, 1 green, 2 blue. -/
def cfaColour (w : SMap Word) (k : Nat) : Nat :=
  (([[0, 1, 1, 2], [1, 0, 2, 1], [1, 2, 0, 1], [2, 1, 1, 0]] : List (List Nat)).getD (pfield w 7 1) []).getD k 0

/-- A shading gain of the grid. -/
def shadeGain (w : SMap Word) (c j i : Nat) : Int := (pfield w (0x1000 + 2 * (4 * (33 * j + i) + c)) 2 : Nat)

/-- shade(c, px, py). -/
def shade (w : SMap Word) (c px py : Nat) : Int :=
  let gx := px * 32 * 1024 / (inWidth w - 1)
  let gy := py * 24 * 1024 / (inHeight w - 1)
  let i := gx / 1024
  let j := gy / 1024
  let fx : Int := (gx % 1024 : Nat)
  let fy : Int := (gy % 1024 : Nat)
  let g (j i : Nat) : Int := shadeGain w c (min j 24) (min i 32)
  shrRne ((g j i * (1024 - fx) + g j (i + 1) * fx) * (1024 - fy) + (g (j + 1) i * (1024 - fx) + g (j + 1) (i + 1) * fx) * fy) 20

/-- v of a raw pixel: black level, gain and shading. -/
def blackShade (fc : Nat) (w : SMap Word) (f : CamFrame) (px py : Nat) : Int :=
  let c := cfaPos px py
  let x := camAt fc f py px
  let v := u16 (shrRne ((x - (pfield w (0x20 + 2 * c) 2 : Nat)) * (pfield w (0x28 + 2 * c) 2 : Nat)) 14)
  u16 (shrRne (v * shade w c px py) 14)

/-- The mean of 2 or 4 values, rounded to even. -/
def meanOf (l : List Int) : Int := rneDiv (l.foldl (· + ·) 0) (max 1 l.length)

/-- A colour at a pixel by bilinear demosaic. -/
def demosaic (fc : Nat) (w : SMap Word) (f : CamFrame) (col px py : Nat) : Int :=
  let mx (d : Int) : Nat := mirror (inWidth w) ((px : Int) + d)
  let my (d : Int) : Nat := mirror (inHeight w) ((py : Int) + d)
  let has (q : Nat × Nat) : Bool := cfaColour w (cfaPos q.1 q.2) == col
  let v (q : Nat × Nat) : Int := blackShade fc w f q.1 q.2
  if pfield w 7 1 = 4 ∨ has (px, py) then v (px, py)
  else
    let near := [(mx (-1), py), (mx 1, py), (px, my (-1)), (px, my 1)].filter has
    meanOf ((if near = [] then [(mx (-1), my (-1)), (mx 1, my (-1)), (mx (-1), my 1), (mx 1, my 1)] else near).map v)

/-- R, G, B of a pixel at the entry of the colour matrix; a pair of YUV422 pixels has the U and V of its first. -/
def rgbIn (fc : Nat) (w : SMap Word) (f : CamFrame) (px py : Nat) : List Int :=
  let a (k : Nat) : Int := camAt fc f py (3 * px + k)
  if camType w = 0x1E then
    let y := a 0
    let u := camAt fc f py (3 * (px - px % 2) + 1) - 128
    let v := camAt fc f py (3 * (px - px % 2) + 2) - 128
    [u16 (rneDiv (257 * (1000 * y + 1402 * v)) 1000), u16 (rneDiv (257 * (1000000 * y - 344136 * u - 714136 * v)) 1000000),
     u16 (rneDiv (257 * (1000 * y + 1772 * u)) 1000)]
  else if camType w = 0x24 then [257 * a 0, 257 * a 1, 257 * a 2]
  else (span 0 3).map fun k => u16 (shrRne (demosaic fc w f k px py * (pfield w (0x30 + 2 * k) 2 : Nat)) 12)

/-- tone(lut, u), the table at a window offset. -/
def tone (w : SMap Word) (off : Nat) (u : Nat) : Int :=
  let t (i : Nat) : Int := (pfield w (off + 2 * i) 2 : Nat)
  let i := u / 64
  if i = 1023 then t 1023 else t i + shrRne ((t (i + 1) - t i) * (u % 64 : Nat)) 6

/-- R3, G3 or B3 of a pixel. -/
def toned (fc : Nat) (w : SMap Word) (f : CamFrame) (ch px py : Nat) : Int :=
  let v := rgbIn fc w f px py
  let m (k : Nat) : Int := pint w (0x36 + 2 * (3 * ch + k)) * v.getD k 0
  tone w (0x3000 + 0x800 * ch) (u16 (shrRne (m 0 + m 1 + m 2) 12)).toNat

/-! ### The scaler (R427) -/

/-- Pixels that are averaged first. -/
def avgOf (step : Nat) : Nat := if 0x20000 ≤ step then step / 65536 else 1

/-- The source position of output pixel o in 16.16. -/
def srcPos (step o : Nat) : Int :=
  let p : Int := (step / avgOf step : Nat)
  (o : Int) * p + (p - 65536) / 2

/-- One axis: n crop pixels read by `get`, the step, the coefficient table, output pixel o. -/
def scaleAxis (w : SMap Word) (coef n step : Nat) (get : Nat → Int) (o : Nat) : Int :=
  let k := avgOf step
  let s := srcPos step o
  let i := s / 65536
  let ph := ((s / 1024) % 64).toNat
  let at_ (j : Int) : Int := get (clampI j 0 ((n : Int) - 1)).toNat
  let avg (j : Int) : Int := meanOf ((span 0 k).map fun (t : Nat) => at_ (j * (k : Int) + (t : Int)))
  let tap (t : Nat) : Int := pint w (coef + 8 * ph + 2 * t) * avg (i - 1 + (t : Int))
  u16 (shrRne (tap 0 + tap 1 + tap 2 + tap 3) 14)

/-- The last crop row that the taps of output line o read. -/
def lastRow (w : SMap Word) (o : Nat) : Nat :=
  let step := pfield w 0x18 4
  let k := avgOf step
  (clampI ((srcPos step o / 65536 + 2) * k + ((k : Int) - 1)) 0 ((pfield w 0xE 2 : Int) - 1)).toNat

/-- R431: output lines that are valid, from line 0, with n input lines. -/
def validLines (w : SMap Word) (n : Nat) : Nat :=
  ((span 0 (outH w)).takeWhile fun o => decide (pfield w 0xA 2 + lastRow w o < n)).length

/-- R427: a channel of an output pixel, scaled horizontally, then vertically. -/
def scaled (fc : Nat) (w : SMap Word) (f : CamFrame) (ch ox oy : Nat) : Int :=
  let row (y : Nat) : Int :=
    scaleAxis w 0x5000 (pfield w 0xC 2) (pfield w 0x14 4)
      (fun x => toned fc w f ch (pfield w 8 2 + x) (pfield w 0xA 2 + y)) ox
  scaleAxis w 0x5200 (pfield w 0xE 2) (pfield w 0x18 4) row oy

/-! ### The output (R428) -/

/-- The channels that order writes. -/
def orderOf (w : SMap Word) (r g b : Int) : List Int :=
  match pfield w 0x1D 1 with
  | 0 => [r, g, b]
  | 1 => [b, g, r]
  | _ => [u16 (shrRne (19595 * r + 38470 * g + 7471 * b) 16)]

/-- The colour channel whose off and gain the k-th channel written has. -/
def gainIx (w : SMap Word) (k : Nat) : Nat := if pfield w 0x1D 1 = 1 then 2 - k else k

/-- The bytes of an output pixel, filled up to the pitch. -/
def pixelBytes (w : SMap Word) (r g b : Int) : List Byte :=
  let vs := orderOf w r g b
  let b := (span 0 vs.length).flatMap fun k =>
    let v := vs.getD k 0
    if pfield w 0x1C 1 = 0 then leBytes 1 (clampI (shrRne v 8) 0 255).toNat
    else leBytes 2 (unsigned 16 (sat16 (shrRne ((v - (pfield w (0x48 + 2 * gainIx w k) 2 : Nat)) * pint w (0x4E + 2 * gainIx w k)) 16)))
  b ++ List.replicate (pitchOf w - b.length) 0

/-- The bytes of output line oy. -/
def lineBytes (fc : Nat) (w : SMap Word) (f : CamFrame) (oy : Nat) : List Byte :=
  (span 0 (outW w)).flatMap fun ox =>
    pixelBytes w (scaled fc w f 0 ox oy) (scaled fc w f 1 ox oy) (scaled fc w f 2 ox oy)

/-- Bytes of an output line. -/
def lineLen (w : SMap Word) : Nat := outW w * pitchOf w

/-- Write the output lines of a frame from `a` up to `b`. -/
def writeLines (s : State) (w : SMap Word) (f : CamFrame) (a b : Nat) : State :=
  (span a (b - a)).foldl (fun s y => writeMem s (bufAddr w f.buf + y * lineLen w) (lineBytes s.freeCtr w f y)) s

/-! ### Frames (R430 to R432) -/

/-- R430: the lowest-numbered free buffer after the one used last, wrapping round. -/
def nextBuf (c : CamCtx) : Option Nat :=
  let n := nbufOf c.win
  let first := if c.used then (c.buf + 1) % n else 0
  (span 0 n).findSome? fun k => if bitOf c.free ((first + k) % n) then some ((first + k) % n) else none

/-- The bytes of the line-flag tile (R429). -/
def flagTile (f : CamFrame) : List Byte :=
  (span 0 512).map fun b => BitVec.ofNat 8 (maskOf 8 fun k => f.flags.getD (8 * b + k) false)

/-- R429: tensor format of the tags. -/
def camFormat (w : SMap Word) : Nat := if pfield w 0x1C 1 = 0 then 2 else 1

/-- R429: write tag i of the tensor of buffer k. -/
def writeCamTag (s : State) (w : SMap Word) (k i : Nat) : State :=
  let a := bufAddr w k
  let n := min 4096 (tensorLen w - 4096 * i)
  writeMem s (a + pfield w 0x6C 4 + 16 * i)
    (tagBytes (readMem s (a + 4096 * i) n) (camFormat w) 0x03 (pfield w 4 1) i)

/-- R431: the 32-byte frame record. -/
def camRecord (s : State) (x : Nat) (c : CamCtx) (f : CamFrame) (cause valid : Nat) : List Byte :=
  let flagged := (f.flags.filter id).length
  let b := leBytes 4 (c.seq + c.ended.length + 1) ++ leBytes 2 f.csi ++ leBytes 1 x
    ++ leBytes 1 (b2n (cause != 0) + 2 * b2n (flagged != 0)) ++ leBytes 8 f.tickFs ++ leBytes 2 f.lines.length
    ++ leBytes 2 valid ++ leBytes 2 flagged ++ leBytes 1 cause ++ leBytes 1 f.buf ++ leBytes 4 (s.tick - f.tickFs)
  b ++ leBytes 4 (crc32c b).toNat

/-- R431: the open frame of context x ends with a cut cause (0: none); `st` is the context's state afterwards. -/
def endFrame (s : State) (x cause st : Nat) : State :=
  let c := ctxOf s x
  match c.frame with
  | none => s
  | some f =>
    let w := c.win
    let valid := validLines w f.lines.length
    let s1 := nextFree (writeLines s w f f.written valid)
    let s2 := writeMem s1 (bufAddr w f.buf + valid * lineLen w) (List.replicate ((outH w - valid) * lineLen w) 0)
    let s3 := (span 0 (ceilDiv (tensorLen w) 4096)).foldl (fun s i => writeCamTag s w f.buf i) s2
    let fa := bufAddr w f.buf + pfield w 0x70 4
    let s4 := writeTile s3 fa (fa + 512) (flagTile f) 0x0B 0x03 (pfield w 4 1) 0
    let s5 := writeMem s4 (pfield w 0x78 8 + 32 * f.buf) (camRecord s x c f cause valid)
    modCtx s5 x fun c => { c with frame := none, st := st, ended := c.ended ++ [f.buf] }

/-- The contexts that are enabled, on a port and virtual channel. -/
def ctxsOn (s : State) (p vc : Nat) : List Nat :=
  (span 0 16).filter fun x => (ctxOf s x).en && pfield (ctxOf s x).win 4 1 == p && pfield (ctxOf s x).win 5 1 == vc
/-- Enabled contexts. -/
def ctxsEnabled (s : State) : List Nat := (span 0 16).filter fun x => (ctxOf s x).en

/-- R432: an uncorrectable header truncates every open frame on the port; the receiver waits for the next start of
transmission. -/
def headerBad (s : State) (p : Nat) : State :=
  let xs := (span 0 16).filter fun x => (ctxOf s x).frame.isSome && pfield (ctxOf s x).win 4 1 == p
  modCamPort (xs.foldl (fun s x => endFrame s x 1 3) (camCount s 1 p)) p fun v => { v with sync := false }

/-- R432: a packet with its header: 0 without error, 1 corrected, 2 uncorrectable; nothing passes a receiver that is off or not
synchronised, or an ISP that does not run. -/
def onPacket (s : State) (p hdr : Nat) (go : State → State) : State :=
  let v := camPort s p
  if !v.en || !v.sync || !s.cam.en || v.faulty then s
  else if hdr = 2 then headerBad s p
  else go (if hdr = 1 then camCount s 0 p else s)

/-- R425, R430, R433: context x receives a Frame Start. -/
def takeStart (s : State) (p vc num x : Nat) : State :=
  let s1 := camBoundary (endFrame s x 4 3) x
  let c := ctxOf s1 x
  if pfield c.win 4 1 ≠ p ∨ pfield c.win 5 1 ≠ vc then modCtx s1 x fun c => { c with st := 1 }
  else if c.skip ≠ 0 then modCtx s1 x fun c => { c with skip := c.skip - 1, st := 3 }
  else match nextBuf c with
    | none => modCtx s1 x fun c => { c with dropped := satAdd c.dropped 1, st := 3 }
    | some k => modCtx s1 x fun c =>
      { c with free := setBits c.free k k 0, buf := k, used := true, st := 2, skip := pfield c.win 0x54 1,
               frame := some { buf := k, csi := num, tickFs := s.tick } }

/-- CSI_FRAME_START. -/
def execCsiFrameStart (port vc : Fin 4) (hdr : Fin 3) (number : BitVec 16) (s : State) : Host.Outcome State Fault Refusal :=
  .next (onPacket s port.val hdr.val fun s =>
    (ctxsOn s port.val vc.val).foldl (fun s x => takeStart s port.val vc.val number.toNat x) s)

/-- CSI_FRAME_END. -/
def execCsiFrameEnd (port vc : Fin 4) (hdr : Fin 3) (s : State) : Host.Outcome State Fault Refusal :=
  .next (onPacket s port.val hdr.val fun s =>
    (ctxsOn s port.val vc.val).foldl (fun s x => match (ctxOf s x).frame with
      | none => s
      | some f => if f.lines.length < inHeight (ctxOf s x).win then endFrame s x 5 3 else endFrame s x 0 1) s)

/-- R426, R432: a line as the ISP reads it: raw values moved to 16 bits; missing pixels read the black level. -/
def fitLine (s : State) (w : SMap Word) (y : Nat) (px : List Nat) : List Nat :=
  let n := inWidth w * comps w
  let sh := 16 - rawBits (camType w)
  (span 0 n).map fun i =>
    if comps w = 1 then
      if i < px.length then px.getD i 0 * 2 ^ sh % 65536 else pfield w (0x20 + 2 * cfaPos i y) 2
    else if i < px.length then px.getD i 0 % 256 else Config.freeNat (s.freeCtr + i) % 256

/-- R432: a line of context x. -/
def takeLine (s : State) (p x : Nat) (px : List Nat) (crcBad : Bool) (full : Bool) : State :=
  let c := ctxOf s x
  match c.frame with
  | none => s
  | some f =>
    let w := c.win
    if full then endFrame s x 2 3
    else if inHeight w ≤ f.lines.length then camCount s 4 p
    else
      let flag := crcBad || px.length != inWidth w * comps w
      let f1 := { f with lines := f.lines ++ [fitLine s w f.lines.length px], flags := f.flags ++ [flag] }
      let n := f1.lines.length
      let ready := if n = inHeight w then outH w else validLines w (n - 1)
      let s1 := nextFree (writeLines s w f1 f.written ready)
      modCtx s1 x fun c => { c with frame := some { f1 with written := max f.written ready } }

/-- CSI_LINE_PACKET: the data type, the values of the line (one for each raw pixel, Y, U, V or R, G, B for another), whether its
payload CRC failed, and whether the line buffer was full. -/
def execCsiLinePacket (port vc : Fin 4) (hdr : Fin 3) (dt : Fin 64) (px : List Nat) (crcBad full : Bool) (s : State) :
    Host.Outcome State Fault Refusal :=
  let p := port.val
  .next (onPacket s p hdr.val fun s =>
    let here := ctxsOn s p vc.val
    let mine := here.filter fun x => camType (ctxOf s x).win == dt.val
    let open_ := mine.filter fun x => (ctxOf s x).frame.isSome
    if here ≠ [] ∧ dt.val = 0x12 then s
    else if mine = [] then camCount s 4 p
    else if open_ = [] then (if mine.any fun x => (ctxOf s x).st == 3 then s else camCount s 4 p)
    else
      let s1 := if full then camCount s 3 p else if crcBad then camCount s 2 p else s
      open_.foldl (fun s x => takeLine s p x px crcBad full) s1)

/-- CSI_SHORT_PACKET_IGNORED: Line Start, Line End, generic. -/
def execCsiShortPacketIgnored (port : Fin 4) (hdr : Fin 2) (s : State) : Host.Outcome State Fault Refusal :=
  .next (onPacket s port.val hdr.val id)

/-- CAM_FRAME_TIMEOUT of a context. -/
def execCamFrameTimeout (ctx : Fin 16) (s : State) : Host.Outcome State Fault Refusal :=
  let c := ctxOf s ctx.val
  .next (match c.frame with
  | some f => if f.tickFs + pfield c.win 0x58 4 * ticksPerUs ≤ s.tick then endFrame s ctx.val 3 3 else s
  | none => s)

/-- CAM_FRAME_DONE: every write of an ended frame is acknowledged. -/
def execCamFrameDone (ctx : Fin 16) (s : State) : Host.Outcome State Fault Refusal :=
  let x := ctx.val
  .next (match (ctxOf s x).ended with
  | [] => s
  | _ :: r =>
    let s1 := modCtx s x fun c => { c with ended := r, seq := (c.seq + 1) % 2 ^ 32 }
    let s2 := onCam s1 fun c => { c with frameDone := setBits c.frameDone x x 1 }
    if s.cam.irq then { s2 with irqs := .camera :: s2.irqs } else s2)

/-! ### Register writes (R424, R430, R433, R436, R437) -/

/-- Is a buffer of a context being written? -/
def bufBusy (c : CamCtx) (k : Nat) : Bool := (c.frame.any fun f => f.buf == k) || c.ended.contains k

/-- R430: mark buffers free, but for those being written. -/
def bufRelease (s : State) (x : Nat) (mask : BitVec 16) : State :=
  modCtx s x fun c => { c with free := maskOf 16 fun k => bitOf c.free k || (mask.getLsbD k && !bufBusy c k) }

/-- CAM_BUFFER_RELEASE. -/
def execCamBufferRelease (by_ : Req) (ctx : Fin 16) (mask : BitVec 16) (s : State) : Host.Outcome State Fault Refusal :=
  .next (mayWrite s by_ .camRegs fun s => bufRelease s ctx.val mask)

/-- R429, R433, R424: enable context x. -/
def camEnable (s : State) (x : Nat) : State :=
  let s1 := camBoundary s x
  let c := ctxOf s1 x
  if c.en then s
  else if (s1.cam.lowRate && decide (4 ≤ (ctxsEnabled s1).length)) || !rangesOk c.win || !addressesOk s1 c.part c.win
      || SMap.getD s1.own.cam (pfield c.win 4 1) 0 != c.part then
    onCam s1 fun b => { b with cfgErr := true }
  else modCtx s1 x fun c => { c with en := true, st := 1, seq := 0, skip := 0 }

/-- R437: disable context x: its open frame ends TRUNCATED with cause 4. -/
def camDisable (s : State) (x : Nat) : State := modCtx (endFrame s x 4 0) x fun c => { c with en := false, st := 0 }

/-- CAM_CONTEXT_ENABLE. -/
def execCamContextEnable (by_ : Req) (ctx : Fin 16) (v : Bool) (s : State) : Host.Outcome State Fault Refusal :=
  .next (mayWrite s by_ .camRegs fun s => if v then camEnable s ctx.val else camDisable s ctx.val)

/-- CAM_PARAM_HOLD. -/
def execCamParamHold (by_ : Req) (ctx : Fin 16) (v : Bool) (s : State) : Host.Outcome State Fault Refusal :=
  .next (mayWrite s by_ .camRegs fun s => modCtx s ctx.val fun c => { c with hold := v })

/-- R424: CAM_CTRL.low_rate. -/
def setLowRate (s : State) (v : Bool) : State :=
  if v && !s.cam.lowRate && decide (4 < (ctxsEnabled s).length) then onCam s fun c => { c with cfgErr := true }
  else onCam s fun c => { c with lowRate := v }

/-- CAM_LOW_RATE. -/
def execCamLowRate (by_ : Req) (v : Bool) (s : State) : Host.Outcome State Fault Refusal :=
  .next (mayWrite s by_ .camRegs fun s => setLowRate s v)

/-- R436: the RWB fields take effect at an enable; a receiver that is off holds its lanes in LP-11. -/
def camPortEnable (s : State) (p : Nat) (v : Bool) : State :=
  if v then
    if (camPort s p).en then s
    else modCamPort (rboundary s (camPortCfg p)) p fun x => { x with en := true, state := 1, lanesOk := 0, sync := true }
  else modCamPort s p fun x => { x with en := false, state := 0, lanesOk := 0 }

/-- CAM_PORT_ENABLE. -/
def execCamPortEnable (by_ : Req) (port : Fin 4) (v : Bool) (s : State) : Host.Outcome State Fault Refusal :=
  .next (mayWrite s by_ .camRegs fun s => camPortEnable s port.val v)

/-- CSI_LANE_STATE_CHANGE: 0 stop state, 1 high-speed, 2 ULPS, 3 deskew failed, with the lanes that are synchronised. -/
def execCsiLaneStateChange (port : Fin 4) (st : Fin 4) (lanes : Fin 16) (s : State) : Host.Outcome State Fault Refusal :=
  let p := port.val
  .next (if !(camPort s p).en then s
  else modCamPort s p fun x => { x with state := st.val + 1, lanesOk := lanes.val, sync := x.sync || st.val == 1 })

/-! ### BEACON (R424) -/

/-- Before low_rate is set the contexts that the Beacon stage does not use are disabled; which it uses is free. -/
def camToBeacon (s : State) : State :=
  let used := ((ctxsEnabled s).filter Config.beaconContext).take 4
  let off := (ctxsEnabled s).filter fun x => !used.contains x
  setLowRate (onCam (off.foldl camDisable s) fun c => { c with rested := off }) true

/-- On the way up to LANTERN low_rate is cleared and the contexts are enabled again. -/
def camToLantern (s : State) : State :=
  let s1 := setLowRate s false
  s1.cam.rested.foldl camEnable (onCam s1 fun c => { c with rested := [] })

end Sys2Proof.Machine
end

