-- ==== Sys2Proof/Machine/Pcie.lean ====
section
/-! DEFINITION. Sys2Proof/Machine/Pcie.lean: the PCIe root port (R281, R282, R292, R293). -/

namespace Sys2Proof.Machine

/-- Change the PCIe block. -/
def onPcie (s : State) (f : Pcie → Pcie) : State := { s with pcie := f s.pcie }

/-- R292: does PCIE_CFG_ADDR name the root port or the endpoint: bus 0 or bus 1, device 0, function 0? -/
def cfgTarget (a : Word) : Bool :=
  decide (bits a.toNat 27 20 ≤ 1) && bits a.toNat 19 15 == 0 && bits a.toNat 14 12 == 0

/-- PCIE_CFG_READ: a read of PCIE_CFG_DATA.  What a configuration register holds is not given (a free value); another
target reads all ones. -/
def execPcieCfgRead (by_ : Req) (s : State) : Host.Outcome State Fault Refusal :=
  .next (if reaches by_ false .pcieRegs then
    if cfgTarget s.pcie.cfgAddr then busData (nextFree s) (Config.freeWord s.freeCtr) else busData s 0xFFFFFFFF
  else busError s)

/-- R292: a write of PCIE_CFG_DATA; another target ignores it. -/
def cfgWrite (s : State) (v : Word) : State :=
  if cfgTarget s.pcie.cfgAddr then
    onPcie s fun p => { p with cfg := SMap.set p.cfg (bits p.cfgAddr.toNat 27 2) v }
  else s

/-- PCIE_CFG_WRITE. -/
def execPcieCfgWrite (by_ : Req) (v : Word) (s : State) : Host.Outcome State Fault Refusal :=
  .next (mayWrite s by_ .pcieRegs fun s => cfgWrite s v)

/-- The link is down: no speed, no width; the training state is not given (a free value). -/
def linkDown (s : State) : State :=
  nextFree (onPcie s fun p => { p with linkUp := false, speed := 0, width := 0, ltssm := Config.freeNat s.freeCtr % 64 })

/-- PCIE_CTRL.retrain: a link that is up retrains, which counts. -/
def pcieRetrain (s : State) : State :=
  if s.pcie.linkUp then
    nextFree (onPcie s fun p => { p with retrains := satAdd p.retrains 1, ltssm := Config.freeNat s.freeCtr % 64 })
  else s

/-- PCIE_RETRAIN. -/
def execPcieRetrain (by_ : Req) (s : State) : Host.Outcome State Fault Refusal := .next (mayWrite s by_ .pcieRegs pcieRetrain)

/-- PCIE_CTRL.perst drives PCIE_PERST_N; low takes the link down. -/
def pciePerst (s : State) (v : Bool) : State :=
  let s1 := onPcie s fun p => { p with perst := v }
  if v then linkDown s1 else s1

/-- PCIE_PERST. -/
def execPciePerst (by_ : Req) (v : Bool) (s : State) : Host.Outcome State Fault Refusal :=
  .next (mayWrite s by_ .pcieRegs fun s => pciePerst s v)

/-- PCIE_CTRL.en: without it the port carries nothing. -/
def pcieEnable (s : State) (v : Bool) : State :=
  let s1 := onPcie s fun p => { p with en := v }
  if v then s1 else linkDown s1

/-- PCIE_ENABLE. -/
def execPcieEnable (by_ : Req) (v : Bool) (s : State) : Host.Outcome State Fault Refusal :=
  .next (mayWrite s by_ .pcieRegs fun s => pcieEnable s v)

/-- PCIE_MSIX_ARRIVAL: the bit of PCIE_MSI is set and Keeper hart 0 is interrupted. -/
def execPcieMsixArrival (vector : Fin 32) (s : State) : Host.Outcome State Fault Refusal :=
  .next { onPcie s fun p => { p with msi := p.msi ||| word (2 ^ vector.val) } with irqs := .msix vector.val :: s.irqs }

/-- PCIE_INBOUND_REQUEST: the endpoint reads or writes; outside the staging area the request moves nothing and counts. -/
def execPcieInboundRequest (addr : BitVec 64) (len : Fin 4097) (wr : Option (List Byte)) (s : State) :
    Host.Outcome State Fault Refusal :=
  let a := addr.toNat
  let n := match wr with | some b => b.length | none => len.val
  .next (if s.pcie.inBase ≤ a ∧ a + n ≤ s.pcie.inBase + s.pcie.inLimit + 1 then
    match wr with
    | some b => writeMem s a b
    | none => s
  else onPcie s fun p => { p with inReject := satAdd p.inReject 1 })

/-- PCIE_LINK_CHANGE: the link of an enabled port out of reset trains or is lost. -/
def execPcieLinkChange (up : Bool) (speed : Fin 4) (width : Fin 3) (s : State) : Host.Outcome State Fault Refusal :=
  .next (if !s.pcie.en || s.pcie.perst then s
  else if up then
    nextFree (onPcie s fun p => { p with linkUp := true, speed := speed.val + 1, width := 2 ^ width.val,
                                         ltssm := Config.freeNat s.freeCtr % 64 })
  else linkDown s)

end Sys2Proof.Machine
end

