-- ==== Sys2Proof/Machine/Firmware.lean ====
section
/-! DEFINITION. Sys2Proof/Machine/Firmware.lean: firmware slots, trials and the restart of a component from its slot (R444 to R446,
R511 to R513, R515, R517, R518). -/

namespace Sys2Proof.Machine

/-- Change the boot record's neighbourhood: boot record, calibration store, A/B metadata. -/
def onBoot (s : State) (f : Boot → Boot) : State := { s with boot := f s.boot }
/-- The A/B metadata of a class. -/
def fwOf (s : State) (cls : Nat) : Firmware := SMap.getD s.boot.fw cls {}
/-- Change the A/B metadata of a class; every change has the next sequence number (R513). -/
def modFw (s : State) (cls : Nat) (f : Firmware → Firmware) : State :=
  onBoot s fun b => { b with fw := SMap.set b.fw cls { f (fwOf s cls) with seq := ((fwOf s cls).seq + 1) % 2 ^ 32 } }

/-- Base of the flash window (R19). -/
def flashBase : Nat := 0x00F060000000
/-- R511: the address of a slot of a class: 0 slot A, 1 slot B. -/
def slotAddrOf (cls slot : Nat) : Nat :=
  flashBase + match cls with
    | 0 => 0x100000 + slot * 0x100000
    | 1 => 0x300000 + slot * 0x100000
    | 2 => 0x500000 + slot * 0x100000
    | _ => 0x700000 + slot * 0x400000

/-- R511: the largest body of a class. -/
def bodyMax (cls : Nat) : Nat :=
  match cls with
  | 1 => 0xC0000
  | 3 => 0x400000 - headerLen
  | _ => 0x100000 - headerLen

/-- The version that the metadata gives for a slot. -/
def slotVersion (v : Firmware) (slot : Nat) : Nat := if slot = 0 then v.verA else v.verB
/-- Record version and digest of a slot. -/
def setSlot (v : Firmware) (slot ver : Nat) (d : BitVec 128) : Firmware :=
  if slot = 0 then { v with verA := ver, digestA := d } else { v with verB := ver, digestB := d }

/-- Is a slot unusable by its metadata: invalid, or below the rollback count (R446, R513)? -/
def slotDead (s : State) (cls slot : Nat) : Bool :=
  let v := slotVersion (fwOf s cls) slot
  v == 0xFFFFFFFF || decide (v < SMap.getD s.otp.rollback cls 0)

/-- The header of the image in a slot. -/
def slotHeader (s : State) (cls slot : Nat) : List Byte := readMem s (slotAddrOf cls slot) headerLen
/-- The body of the image in a slot. -/
def slotBody (s : State) (cls slot : Nat) : List Byte :=
  readMem s (slotAddrOf cls slot + headerLen) (min (bodyLen (slotHeader s cls slot)) (bodyMax cls))

/-! ### Restarting a component -/

/-- Base of Keeper local SRAM (R19). -/
def keeperSramBase : Nat := 0x00F030000000

/-- R512, R515: the image of a slot goes into a bank of Keeper SRAM and the PSRAM cache region of the same letter (where they
lie in it is a DESIGN CHOICE, log 27). -/
def loadKeeper (s : State) (slot bank : Nat) : State :=
  let h := slotHeader s 1 slot
  let b := slotBody s 1 slot
  let m1 := Memory.writeBytes s.mem (keeperSramBase + bank * 0xC0000) b
  { onBoot s fun x => { x with bank := bank } with
    mem := Memory.writeBytes m1 (psRegion s (1 + bank)).1 (h ++ b) }

/-- R394, R515: dsp_reset is pulsed and the image loaded beside the ring (where is a DESIGN CHOICE, log 27). -/
def loadDsp (s : State) (slot : Nat) : State :=
  let b := slotBody s 2 slot
  let at_ := if b.length ≤ ringBase s.aon then 0 else ringBase s.aon + ringLen s.aon
  let s1 := clearDspSram s
  { onAon s1 fun a => { a with dspReset := false } with
    mem := Memory.writeBytes s1.mem (aonSramBase + at_) (b.take (aonSramSize - at_)) }

/-- R515: the Agcon ports restart one by one, then the standby host port; the active one follows by failover once that is up. -/
def restartPhys (s : State) : State :=
  let s1 := fabPorts.foldl (fun s p => if fabUp s p then linkRestart s p else s) s
  let q := 1 - s1.activePort
  let s2 := modPort s1 q fun x => if x.state = 0 then x else { x with state := 1, saks := [] }
  onK s2 fun k => { k with phyHost := some s1.activePort }

/-- A component starts from a slot: the register of its class is extended with the header (R452). -/
def startFrom (s : State) (cls slot : Nat) : State :=
  let h := slotHeader s cls slot
  match cls with
  | 0 => secRestart s h
  | 1 => extend (loadKeeper s slot (1 - s.boot.bank)) 1 h
  | 2 => extend (loadDsp s slot) 2 h
  | _ => extend (restartPhys s) 3 h

/-- R515, R518: what a start of a class waits for: quenches past step 3, no mode transition, no open candidate. -/
def handoverReady (s : State) (cls : Nat) : Bool :=
  let zeroised := s.k.quenches.all fun q => q.2.zeroised
  match cls with
  | 0 => zeroised
  | 1 => zeroised && !s.aon.busy
  | 2 => !s.aon.candOpen
  | _ => true

/-- One waiting component starts, and the request that waits for it completes with the slot and the version. -/
def doHandover (s : State) (x : Handover) : State :=
  let v := fwOf s x.cls
  let s1 := startFrom (onK s fun k => { k with handovers := k.handovers.erase x }) x.cls v.active
  let s2 := modFw s1 x.cls fun v => { v with seq := v.seq - 1, startedAt := s.tick }
  let s3 := if v.state = 1 then raiseEvent s2 0x0402 0xFFFF x.cls else s2
  match x.handle with
  | some h => complete s3 h 0 v.active (slotVersion v v.active)
  | none => s3

/-- The components that no longer have to wait start. -/
def tryHandovers (s : State) : State :=
  s.k.handovers.foldl (fun s x => if handoverReady s x.cls then doHandover s x else s) s

/-- A component is to be started from its slot in force. -/
def askHandover (s : State) (cls : Nat) (h : Option Nat) : State :=
  tryHandovers (onK s fun k => { k with handovers := k.handovers ++ [{ cls := cls, handle := h }] })

/-! ### Trials (R517, R518) -/

/-- Is a class in trial? -/
def inTrial (s : State) (cls : Nat) : Bool := (fwOf s cls).state == 1

/-- The trial commits; SEC raises the rollback count (R446), which extends M4 (R452). -/
def commitTrial (s : State) (cls : Nat) : State :=
  let v := fwOf s cls
  let ver := slotVersion v v.active
  let s1 := modFw s cls fun v => { v with state := 0, autoCommit := false }
  let s2 := { s1 with otp := { s1.otp with rollback := SMap.set s1.otp.rollback cls (max (SMap.getD s1.otp.rollback cls 0) ver) } }
  logAppend (extend s2 4 (lifeEvent s2)) 0x0D 0 [cls, 1, v.active, ver, 2]

/-- The trial reverts to the other slot, without a start of the component. -/
def revertSlot (s : State) (cls : Nat) : State :=
  let v := fwOf s cls
  let dst_ := 1 - v.active
  let s1 := modFw s cls fun v => { v with state := 0, active := dst_, autoCommit := false }
  raiseEvent (logAppend s1 0x0D 0 [cls, 2, dst_, slotVersion v dst_, 3]) 0x0403 0xFFFF cls

/-- A fault of a component in trial reverts it (R517). -/
def trialFault (s : State) (cls : Nat) : State := if inTrial s cls then revertSlot s cls else s

/-- A start of a component in trial that its own fault did not cause: the third reverts it. -/
def trialStart (s : State) (cls : Nat) : State :=
  if !inTrial s cls then s
  else
    let n := (fwOf s cls).trialStarts + 1
    let s1 := modFw s cls fun v => { v with trialStarts := n, startedAt := s.tick }
    if 3 ≤ n then revertSlot s1 cls else s1

/-- Device ticks that a trial has lasted. -/
def trialAge (s : State) (cls : Nat) : Nat := (fwOf s cls).age + (s.tick - (fwOf s cls).ageFrom)

/-- Is every port that loaded new PHY microcode up again (R517)? -/
def portsBack (s : State) : Bool := s.k.phyHost.isNone && fabPorts.all fun p => (fabPort s p).state != 1

/-- UPDATE_AUTO_COMMIT of a class. -/
def execUpdateAutoCommit (cls : Fin 4) (s : State) : Host.Outcome State Fault Refusal :=
  let v := fwOf s cls.val
  .next (if inTrial s cls.val && v.autoCommit
      && (if cls.val = 3 then portsBack s else decide (v.startedAt + 60 * ticksPerSecond ≤ s.tick)) then
    commitTrial s cls.val else s)

/-- UPDATE_TRIAL_EXPIRY of a class. -/
def execUpdateTrialExpiry (cls : Fin 4) (s : State) : Host.Outcome State Fault Refusal :=
  .next (if inTrial s cls.val && decide (86400 * ticksPerSecond ≤ trialAge s cls.val) then
    askHandover (revertSlot s cls.val) cls.val none else s)

/-- SEC_RESTART after a SEC fault, with the header of the image it starts from. -/
def execSecRestart (header : List Byte) (s : State) : Host.Outcome State Fault Refusal :=
  .next (secRestart (trialFault s 0) header)

/-! ### The UPDATE requests of the firmware classes (R514, R517, R518) -/

/-- UPDATE install: verify, write the inactive slot, read back, go to trial, start. -/
def installFw (s : State) (h cls : Nat) (auto : Bool) (image : List Byte) : State :=
  if (span 0 4).any fun c => (fwOf s c).state != 0 then complete s h 0x0017
  else match imageFail s cls image with
  | some step => complete (imageRefused s step) h 0x0015 0 0 step
  | none =>
    if bodyMax cls < bodyLen image then complete s h 0x001D
    else
      let v := fwOf s cls
      let slot := 1 - v.active
      let ver := secVersion image
      let s1 := modFw (logAppend s 0x0D 0 [cls, 0, slot, ver, 0]) cls fun v => { setSlot v slot 0xFFFFFFFF 0 with state := 2 }
      let s2 := { s1 with mem := Memory.writeBytes s1.mem (slotAddrOf cls slot) image }
      let s3 := modFw s2 cls fun v =>
        { setSlot v slot ver (BitVec.ofNat 128 (bodyDigest image).toNat) with
          state := 1, active := slot, trialStarts := 1, trialTick := s.tick, autoCommit := auto, age := 0, ageFrom := s.tick,
          startedAt := s.tick }
      askHandover (logAppend s3 0x0D 0 [cls, 0, slot, ver, 1]) cls (some h)

/-- UPDATE commit. -/
def commitFw (s : State) (h cls : Nat) : State :=
  if inTrial s cls then complete (commitTrial s cls) h 0 else complete s h 0x001D

/-- UPDATE revert: the component starts from the other slot. -/
def revertFw (s : State) (h cls : Nat) : State :=
  if inTrial s cls then askHandover (revertSlot s cls) cls (some h) else complete s h 0x001D

end Sys2Proof.Machine
end

