-- ==== Sys2Proof/Machine/Functions.lean ====
section
/-! DEFINITION. Sys2Proof/Machine/Functions.lean: the lane functions of the element pipeline (R149, R150) and its sums
(R151, R154, R155, R159).  A value that R150 gives
within an accuracy is a constant of Config moved to within that accuracy of the exact value. -/

namespace Sys2Proof.Machine

/-- Integer square root: the bits of the root from bit k - 1 down, r found so far. -/
def isqrtFrom (n r : Nat) : Nat → Nat
  | 0 => r
  | k + 1 => let t := r + 2 ^ k; isqrtFrom n (if t * t ≤ n then t else r) k

/-- The root of a positive value m × 2^e to 38 or more bits, with a sticky last bit: (number, exponent). -/
def rootSticky (m : Nat) (e : Int) : Nat × Int :=
  let (n, e1) := if e % 2 = 0 then (m * 2 ^ 52, e - 52) else (m * 2 ^ 53, e - 53)
  let r := isqrtFrom n 0 40
  (2 * r + (if r * r = n then 0 else 1), e1 / 2 - 1)

/-- SQRT, correctly rounded (R150). -/
def f32Sqrt (x : Word) : Word :=
  if f32IsNaN x then f32NaN
  else if f32IsZero x then f32Zero (f32Neg x)
  else if f32Neg x then f32NaN
  else if f32IsInf x then x
  else
    let (r, e) := rootSticky (2 ^ 23 + f32Frac x) ((f32Exp x : Int) - 150)
    f32Of (Q.mul (Q.ofInt r) (Q.pow2 e))

/-- A word moved by a clipped number of ulps (magnitude bits), for a finite nonzero value. -/
def ulps (w : Word) (d : Int) : Word := word ((w.toNat : Int) + clampI d (-1) 1).toNat

/-- RCP (R150). -/
def f32Rcp (x : Word) : Word :=
  if f32IsNaN x then f32NaN
  else if f32IsZero x then f32Inf (f32Neg x)
  else if f32IsInf x then f32Zero (f32Neg x)
  else
    let r := f32Div f32One x
    if f32IsZero r then r else f32Canon (ulps r (Config.rcpUlp x))

/-- RSQRT (R150). -/
def f32Rsqrt (x : Word) : Word :=
  if f32IsNaN x then f32NaN
  else if f32IsZero x then (if f32Neg x then Config.rsqrtNegZero else f32Inf false)
  else if f32Neg x then f32NaN
  else if f32IsInf x then 0
  else
    let (r, e) := rootSticky (2 ^ 23 + f32Frac x) ((f32Exp x : Int) - 150)
    ulps (f32Of (Q.div ⟨1, 1⟩ (Q.mul (Q.ofInt r) (Q.pow2 e)))) (Config.rsqrtUlp x)

/-! ### The functions that are not exact (R150): the real value to more than 80 bits, and a free value near it -/

/-- ln 2, times 2^96, rounded down. -/
def ln2Fix : Nat := 54916777467707473351141471128
/-- log2 e, times 2^96, rounded down. -/
def log2eFix : Nat := 114302077158074026402637675936
/-- The square root of 2/π, times 2^96, rounded down. -/
def gaussFix : Nat := 63214927650911841617241039488

/-- The k first factors of 1 + y/1 (1 + y/2 (1 + …)), inmost first, times 2^96. -/
def expTaylor (y acc : Nat) : Nat → Nat
  | 0 => acc
  | k + 1 => expTaylor y (2 ^ 96 + y * acc / ((k + 1) * 2 ^ 96)) k

/-- 2^x. -/
def exp2Q (x : Q) : Q :=
  let n : Int := x.num / (x.den : Int)
  let f := (x.num - n * x.den).toNat * 2 ^ 96 / x.den
  Q.mul ⟨(expTaylor (f * ln2Fix / 2 ^ 96) (2 ^ 96) 32 : Nat), 2 ^ 96⟩ (Q.pow2 n)

/-- e^x for |x| up to 128. -/
def expQ (x : Q) : Q := exp2Q (Q.mul x ⟨(log2eFix : Nat), 2 ^ 96⟩)

/-- 1 + z/3 + z²/5 + … with k terms, times 2^96. -/
def atanhSum (z acc : Nat) : Nat → Nat
  | 0 => acc
  | k + 1 => atanhSum z (2 ^ 96 / (2 * k + 1) + z * acc / 2 ^ 96) k

/-- log2 of a positive normal F32. -/
def log2Q (x : Word) : Q :=
  let m := 2 ^ 23 + f32Frac x
  let z := (m - 2 ^ 23) * 2 ^ 96 / (m + 2 ^ 23)
  let ln := 2 * z * atanhSum (z * z / 2 ^ 96) 0 34 / 2 ^ 96
  Q.add (Q.ofInt ((f32Exp x : Int) - 127)) ⟨(ln * log2eFix / 2 ^ 96 : Nat), 2 ^ 96⟩

/-- 1 / (1 + e^-x); beyond 64 it differs from its limit by less than 2^-92. -/
def sigmoidQ (x : Q) : Q :=
  if Q.le (Q.ofInt 64) x then ⟨1, 1⟩
  else if Q.le x (Q.ofInt (-64)) then ⟨0, 1⟩
  else let e := expQ x; Q.div e (Q.add ⟨1, 1⟩ e)

/-- tanh x = 2 SIGMOID(2x) − 1. -/
def tanhQ (x : Q) : Q := Q.sub (Q.mul ⟨2, 1⟩ (sigmoidQ (Q.mul ⟨2, 1⟩ x))) ⟨1, 1⟩

/-- GELU in its tanh form: 0.5 (1 + tanh u) is SIGMOID(2u). -/
def geluQ (x : Q) : Q :=
  let u := Q.mul ⟨(gaussFix : Nat), 2 ^ 96⟩ (Q.add x (Q.mul ⟨44715, 1000000⟩ (Q.mul x (Q.mul x x))))
  Q.mul x (sigmoidQ (Q.mul ⟨2, 1⟩ u))

/-- The unit in the last place of the correctly rounded v (R150). -/
def ulpOf (v : Q) : Q := Q.pow2 ((max (f32RoundMag v.num.natAbs v.den / 2 ^ 23) 1 : Nat) - 150)

/-- The free value moved to within n ulps, or within 2^-a where that is more (a = 0: not asked), of the exact value v. -/
def near (free : Word) (v : Q) (n a : Nat) : Word :=
  let t := Q.mul (Q.ofInt n) (ulpOf v)
  let tol := if a ≠ 0 ∧ Q.lt t (Q.pow2 (-(a : Int))) then Q.pow2 (-(a : Int)) else t
  let x := if f32Exp free = 255 then v else f32Q free
  let lo := Q.sub v tol
  let hi := Q.add v tol
  f32Of (if Q.lt x lo then lo else if Q.lt hi x then hi else x) (f32Neg free)

/-- EXP2 (R150). -/
def f32Exp2 (x : Word) : Word :=
  if f32IsNaN x then f32NaN
  else if Q.lt (f32Ext x) (Q.ofInt (-126)) then 0
  else if Q.le (Q.ofInt 128) (f32Ext x) then f32Inf false
  else near (Config.exp2F x) (exp2Q (f32Q x)) 1 0

/-- EXP (R150): the limits of EXP2 at x × log2 e, which are 0xC2AE_AC50 and 0x42B1_7218 and beyond. -/
def f32ExpE (x : Word) : Word :=
  if f32IsNaN x then f32NaN
  else if Q.le (f32Ext x) (f32Q 0xC2AEAC50) then 0
  else if Q.le (f32Q 0x42B17218) (f32Ext x) then f32Inf false
  else near (Config.expF x) (expQ (f32Q x)) 2 0

/-- LOG2 (R150). -/
def f32Log2 (x : Word) : Word :=
  if f32IsNaN x then f32NaN
  else if f32IsZero x then f32Inf true
  else if f32Neg x then f32NaN
  else if f32IsInf x then f32Inf false
  else near (Config.log2F x) (log2Q x) 1 0

/-- SIGMOID (R150). -/
def f32Sigmoid (x : Word) : Word :=
  if f32IsNaN x then f32NaN
  else if f32IsInf x then (if f32Neg x then 0 else f32One)
  else near (Config.sigmoidF x) (sigmoidQ (f32Q x)) 2 24

/-- TANH (R150). -/
def f32Tanh (x : Word) : Word :=
  if f32IsNaN x then f32NaN
  else if f32IsInf x then (if f32Neg x then 0xBF800000 else f32One)
  else near (Config.tanhF x) (tanhQ (f32Q x)) 2 24

/-- SILU (R150). -/
def f32Silu (x : Word) : Word :=
  if f32IsNaN x then f32NaN
  else if f32IsInf x && f32Neg x then f32Zero true
  else near (Config.siluF x) (Q.mul (f32Q x) (sigmoidQ (f32Q x))) 3 23

/-- GELU (R150). -/
def f32Gelu (x : Word) : Word :=
  if f32IsNaN x then f32NaN
  else if f32IsInf x then (if f32Neg x then f32Zero true else f32Inf false)
  else near (Config.geluF x) (geluQ (f32Q x)) 4 22

/-- MIN or MAX of F32: a NaN operand gives NaN (R149). -/
def f32Sel (isMax : Bool) (a b : Word) : Word :=
  if f32IsNaN a || f32IsNaN b then f32NaN
  else if f32IsZero a && f32IsZero b && f32Neg a != f32Neg b then
    f32Canon (if Config.zeroPick isMax a b then a else b)
  else f32Canon (if f32Lt a b != isMax then a else b)

/-- fma: a × b + c rounded once (R158). -/
def f32Fma (a b c : Word) : Word :=
  let neg := f32Neg a != f32Neg b
  if f32IsNaN a || f32IsNaN b || f32IsNaN c then f32NaN
  else if f32IsInf a || f32IsInf b then
    if f32IsZero a || f32IsZero b then f32NaN
    else if f32IsInf c && f32Neg c != neg then f32NaN else f32Inf neg
  else if f32IsInf c then c
  else
    let p := Q.mul (f32Q a) (f32Q b)
    f32Of (Q.add p (f32Q c)) (p.num == 0 && f32IsZero c && neg && f32Neg c)

/-- EOP in an F32 lane (R149, R150). -/
def eopF32 (op : Nat) (a b : Word) : Word :=
  match op with
  | 0x00 => f32Canon a
  | 0x01 => f32Add a b
  | 0x02 => f32Sub a b
  | 0x03 => f32Mul a b
  | 0x04 => f32Sel false a b
  | 0x05 => f32Sel true a b
  | 0x06 => f32Abs a
  | 0x07 => f32NegOp a
  | 0x08 => f32Sel true a 0
  | 0x10 => f32Exp2 a
  | 0x11 => f32ExpE a
  | 0x12 => f32Log2 a
  | 0x13 => f32Rcp a
  | 0x14 => f32Rsqrt a
  | 0x15 => f32Sqrt a
  | 0x16 => f32Sigmoid a
  | 0x17 => f32Tanh a
  | 0x18 => f32Silu a
  | _ => f32Gelu a

/-- EOP in an I32 lane (R149). -/
def eopI32 (op : Nat) (a b : Word) : Word :=
  match op with
  | 0x00 => a
  | 0x01 => a + b
  | 0x02 => a - b
  | 0x03 => a * b
  | 0x04 => if a.slt b then a else b
  | 0x05 => if a.slt b then b else a
  | 0x06 => if a = 0x80000000 then Config.i32Edge 6 else if a.slt 0 then -a else a
  | 0x07 => if a = 0x80000000 then Config.i32Edge 7 else -a
  | 0x08 => if a.slt 0 then 0 else a
  | 0x20 => a &&& b
  | 0x21 => a ||| b
  | 0x22 => a ^^^ b
  | 0x23 => a <<< (b.toNat % 32)
  | _ => a.sshiftRight (b.toNat % 32)

/-- One lane of EOP. -/
def eopLane (i32 : Bool) (op : Nat) (a b : Word) : Word := if i32 then eopI32 op a b else eopF32 op a b

/-- One level of the pairwise reduction: elements 2k and 2k + 1 combined (R154). -/
def pairUp (f : Word → Word → Word) : List Word → List Word
  | a :: b :: r => f a b :: pairUp f r
  | l => l

/-- R154, R159: pairwise reduction of 128 lanes: seven levels. -/
def pairwise (f : Word → Word → Word) (l : List Word) : Word :=
  (pairUp f (pairUp f (pairUp f (pairUp f (pairUp f (pairUp f (pairUp f l))))))).headD 0

/-- Combine in order from the first element (R155, R159). -/
def inOrder (f : Word → Word → Word) : List Word → Word
  | [] => 0
  | a :: r => r.foldl f a

/-- R159: the operation of ERED on two lane values. -/
def redOp (op : Nat) (i32 : Bool) (a b : Word) : Word :=
  match op with
  | 1 => if i32 then (if a.slt b then b else a) else f32Sel true a b
  | 2 => if i32 then (if a.slt b then a else b) else f32Sel false a b
  | _ => if i32 then a + b else f32Add a b

/-- R159: the value that ERED reduces: its square for SUMSQ. -/
def redIn (op : Nat) (i32 : Bool) (a : Word) : Word :=
  if op = 4 then (if i32 then a * a else f32Mul a a) else if i32 then a else f32Canon a

/-- Is lane value b greater than a? -/
def laneGt (i32 : Bool) (b a : Word) : Bool := if i32 then a.slt b else f32Lt a b

/-- R159 ARGMAX: the index of the first maximal value, ignoring NaN; 0 if all are NaN. -/
def argmax (i32 : Bool) (l : List Word) : Word :=
  let step (st : Option (Nat × Word) × Nat) (v : Word) : Option (Nat × Word) × Nat :=
    let better := (i32 || !f32IsNaN v) && match st.1 with
      | none => true
      | some (_, m) => laneGt i32 v m
    (if better then some (st.2, v) else st.1, st.2 + 1)
  match (l.foldl step (none, 0)).1 with
  | some (k, _) => word k
  | none => 0

end Sys2Proof.Machine
end

