-- ==== Sys2Proof/Machine/Spad.lean ====
section
/-! DEFINITION. Sys2Proof/Machine/Spad.lean: scratchpad and accumulator access shared by the instructions: lines and
their valid bits (R67), ECC (R78), the view under unordered overlap (R91), row windows and their owners (R84,
R85), element operands and lanes (R147, R148). -/

namespace Sys2Proof.Machine

/-- The scratchpad lines that n bytes from a touch. -/
def linesOf (a n : Nat) : List Nat := if n = 0 then [] else span (a / 64) ((a + n - 1) / 64 + 1 - a / 64)

/-- R67: note the invalid lines that a read of these byte ranges meets. -/
def countUninit (c : Core) (ranges : List (Nat × Nat)) : Core :=
  let bad := ranges.foldl (fun k r => k + ((linesOf r.1 r.2).filter fun l => (SMap.get? c.valid l).isNone).length) 0
  { c with uninitReads := satAdd c.uninitReads bad }

/-- The scratchpad as an instruction that starts now sees it: where an entry still in flight has changed a line,
that line shows its old or its new content (R91). -/
def spadView (ctr : Nat) (c : Core) : List Host.Cell :=
  (inFlight c).foldl (fun m e => e.old.foldl (fun m x =>
    if Config.lineMix ctr (x.1 / 64) then Memory.write m x.1 x.2 else m) m) c.spad

/-- The bytes that differ between two contents, as they were before. -/
def changedBytes (before after : List Host.Cell) : List Host.Cell :=
  (before.filter fun x => Memory.read after x.1 != x.2)
    ++ (after.filterMap fun x => if (SMap.get? before x.1).isNone then some (x.1, unlistedByte) else none)

/-- Keys of the ECC marks of a core: scratchpad words, accumulator rows, weight banks, instruction cache lines. -/
def eccSpad (a : Nat) : Nat := a / 8
/-- Key of accumulator row r. -/
def eccAcc (r : Nat) : Nat := 2 ^ 20 + r
/-- Key of weight bank b. -/
def eccBank (b : Nat) : Nat := 2 ^ 21 + b

/-- Key of the instruction cache line k (physical address / 256). -/
def eccLine (k : Nat) : Nat := 2 ^ 22 + k

/-- R78, R470: read the stored words that `hit` picks: single errors are corrected, written back and counted once; a
double error is uncorrectable. -/
def eccReadBy (c : Core) (hit : Nat → Bool) : Core × Bool :=
  let singles := (c.ecc.filter fun e => hit e.1 && !e.2).length
  ({ c with ecc := c.ecc.filter fun e => !(hit e.1 && !e.2), eccCorr := satAdd c.eccCorr singles },
   c.ecc.any fun e => hit e.1 && e.2)

/-- Read the words with keys in [lo, hi]. -/
def eccRead (c : Core) (lo hi : Nat) : Core × Bool := eccReadBy c fun k => decide (lo ≤ k) && decide (k ≤ hi)

/-- R84: read accumulator rows b to b + k - 1; a clean row reads 0 from no stored word. -/
def eccAccRead (c : Core) (b k : Nat) : Core × Bool :=
  eccReadBy c fun x => decide (eccAcc b ≤ x) && decide (x < eccAcc (b + k)) && (SMap.get? c.acc (x - eccAcc 0)).isSome

/-- A stored word that is written whole holds no error any more. -/
def eccClear (c : Core) (hit : Nat → Bool) : Core := { c with ecc := c.ecc.filter fun e => !hit e.1 }

/-- R67, R78: the scratchpad words that writing n bytes at a stores whole: those covered, and those of a line that was
invalid. -/
def wholeWord (c : Core) (a n k : Nat) : Bool :=
  decide (k < eccAcc 0) && ((decide (a ≤ 8 * k) && decide (8 * k + 8 ≤ a + n))
    || ((linesOf a n).contains (k / 8) && (SMap.get? c.valid (k / 8)).isNone))

/-- R67: write scratchpad bytes; the lines become valid, and bytes not written read as 0. -/
def spadWrite (c : Core) (a : Nat) (bs : List Byte) : Core :=
  { eccClear c (wholeWord c a bs.length) with
    spad := Memory.writeBytes c.spad a bs,
    valid := (linesOf a bs.length).foldl (fun v l => SMap.set v l ()) c.valid }

/-- R67, R78: what reading scratchpad byte ranges does to a core, and whether an uncorrectable error was met; an invalid line
reads zeros from no stored word. -/
def spadTouch (c : Core) (ranges : List (Nat × Nat)) : Core × Bool :=
  ranges.foldl (fun r x =>
    let y := eccReadBy r.1 fun k =>
      decide (eccSpad x.1 ≤ k) && decide (k ≤ eccSpad (x.1 + x.2 - 1)) && (SMap.get? c.valid (k / 8)).isSome
    (y.1, r.2 || y.2)) (countUninit c ranges, false)

/-! ### Accumulator windows -/

/-- Row r of the accumulator file; a clean row reads 0 (R84). -/
def accRow (c : Core) (r : Nat) : AccRow :=
  SMap.getD c.acc r { acc := List.replicate 128 0, ext := List.replicate 128 0 }

/-- Write row r. -/
def setAccRow (c : Core) (r : Nat) (v : AccRow) : Core :=
  { eccClear c (· == eccAcc r) with acc := SMap.set c.acc r v }

/-- R85: does a window of k rows from b hold a row that another queue owns? -/
def foreignRow (c : Core) (b k : Nat) : Bool :=
  c.rowOwner.any fun r => decide (b ≤ r.1) && decide (r.1 < b + k) && r.2 != c.cmdQueue.toNat

/-- R84, R137: the window lies inside the accumulator file. -/
def windowOk (b k : Nat) : Bool := decide (b + k ≤ 1024)

/-! ### Element lanes (R148) -/

/-- Bytes of one element of a tile format, for formats that element instructions read (R148). -/
def elemSize (format : Nat) : Option Nat :=
  if format = 1 then some 2 else if format = 2 then some 1 else if format = 3 then some 4
  else if format = 4 then some 2 else none

/-- The integer that an A16 or U8 element holds. -/
def intElem (format v : Nat) : Int := if format = 1 then signed 16 v else (v : Int)

/-- R148, read: one stored element as a lane value. -/
def laneIn (format : Nat) (i32 : Bool) (v : Nat) : Word :=
  if format = 3 then word v
  else if format = 4 then bf16ToF32 v
  else
    let x := intElem format v
    if i32 then word (unsigned 32 x) else f32Of (Q.ofInt x)

/-- R148, read: an accumulator as a lane value. -/
def laneOfAcc (i32 : Bool) (acc : Int) : Word :=
  if i32 then word (unsigned 32 (clampI acc (-(2 ^ 31)) (2 ^ 31 - 1))) else f32Of (Q.ofInt acc)

/-- The integer nearest to an F32 lane within bounds: a NaN gives 0, an infinity the nearest bound (R148). -/
def intOfF32 (x : Word) (lo hi : Int) : Int :=
  if f32IsNaN x then 0
  else if f32IsInf x then (if f32Neg x then lo else hi)
  else clampI (rne (f32Q x)) lo hi

/-- The integer of a lane within bounds. -/
def intOfLane (i32 : Bool) (x : Word) (lo hi : Int) : Int :=
  if i32 then clampI x.toInt lo hi else intOfF32 x lo hi

/-- R148, write: a lane value as a stored element. -/
def laneOut (format : Nat) (i32 : Bool) (x : Word) : Nat :=
  if format = 1 then unsigned 16 (intOfLane i32 x (-32768) 32767)
  else if format = 2 then unsigned 8 (intOfLane i32 x 0 255)
  else if format = 4 then f32ToBf16 x
  else x.toNat

/-- R148, write: a lane value as an accumulator. -/
def laneToAcc (i32 : Bool) (x : Word) : Int := intOfLane i32 x accMin accMax

/-- 128 stored elements of a row at address a. -/
def readElems (m : List Host.Cell) (a size : Nat) : List Nat := (span 0 128).map fun j => Memory.le m (a + size * j) size

/-- The bytes of 128 stored elements. -/
def elemBytes (size : Nat) (vs : List Nat) : List Byte := vs.flatMap fun v => leBytes size v

/-- An element operand once its specifier is resolved (R147). -/
inductive Opnd where
  | rows (d : Desc) (size : Nat)     -- scratchpad descriptor
  | win (base : Nat)                 -- accumulator window
  | bcast (v : Word)                 -- broadcast
  deriving DecidableEq, Repr

/-- R147: resolve a specifier of an entry that captured value(sx), value(sy). -/
def opndOf (c : Core) (spec vx vy : Nat) : Opnd :=
  if spec < 16 then
    let d := descOf (getT c spec)
    .rows d ((elemSize d.format).getD 0)
  else if spec = 0x10 then .win vx
  else if spec = 0x11 then .win vy
  else .bcast (word vy)

/-- R112, R137, R147, R148: may an operand be used for k rows?  `i32` lanes cannot hold BF16. -/
def opndOk (o : Opnd) (k : Nat) (i32 : Bool) : Except CmdFault Unit :=
  match o with
  | .win b => need (windowOk b k) .illegalInstr
  | .bcast _ => .ok ()
  | .rows d size => need (spadDescOk d && size != 0 && !(i32 && d.format == 4) && decide (128 * size ≤ d.rowBytes)
      && rowsInside d 0 k) .tileFault

/-- R85: does an operand's window of k rows touch a foreign row? -/
def opndOwned (c : Core) (o : Opnd) (k : Nat) : Except CmdFault Unit :=
  match o with
  | .win b => need (!foreignRow c b k) .rowNotOwned
  | _ => .ok ()

/-- The scratchpad byte ranges of rows j0 to j0 + k - 1 of an operand. -/
def opndRanges (o : Opnd) (j0 k : Nat) : List (Nat × Nat) :=
  match o with
  | .rows d size => (span j0 k).map fun j => (rowAddr d j, 128 * size)
  | _ => []

/-- Vector k of an operand as 128 lanes. -/
def opndVec (m : List Host.Cell) (c : Core) (o : Opnd) (i32 : Bool) (k : Nat) : List Word :=
  match o with
  | .rows d size => (readElems m (rowAddr d k) size).map (laneIn d.format i32)
  | .win b => (accRow c (b + k)).acc.map (laneOfAcc i32)
  | .bcast v => List.replicate 128 v

/-- Write vector k of an operand from 128 lanes; an accumulator row takes extension 0 (R148). -/
def opndPut (c : Core) (o : Opnd) (i32 : Bool) (k : Nat) (v : List Word) : Core :=
  match o with
  | .rows d size => spadWrite c (rowAddr d k) (elemBytes size (v.map (laneOut d.format i32)))
  | .win b => setAccRow c (b + k) { acc := v.map (laneToAcc i32), ext := List.replicate 128 0 }
  | .bcast _ => c

end Sys2Proof.Machine
end

