-- ==== Sys2Proof/Machine/Dma.lean ====
section
/-! DEFINITION. Sys2Proof/Machine/Dma.lean: TLD, TST, TPF and TCHK (R124 to R128) as entries of the DMA queues: what is
checked when an entry starts, and what its completion does. -/

namespace Sys2Proof.Machine

/-- Where a tile of a memory descriptor lies (R111, R256). -/
inductive TileLoc where
  | phys (a tag len : Nat)
  | obj (n : Nat) (o tag len : Nat)
  deriving DecidableEq, Repr

/-- R112: tile i of a memory descriptor, as core n may use it; `wr` for a write. -/
def memTile (s : State) (n : Nat) (d : Desc) (i : Nat) (wr : Bool) : Except CmdFault TileLoc :=
  if !memDescOk d || decide (d.w ≤ i) then faultOf .tileFault
  else
    let (a, tag, len) := tileAddr d i
    if d.space = 1 then
      if !dmaReach s n a len wr then faultAt .tileFault (a % 2 ^ 48)
      else if !dmaReach s n tag 16 wr then faultAt .tileFault (tag % 2 ^ 48)
      else .ok (.phys a tag len)
    else if wr then faultOf .tileFault
    else
      let num := d.base / 2 ^ 32
      let o := d.base % 2 ^ 32 + i * d.colStride
      match objOf s (corePart s n) num with
      | none => faultOf .tileFault
      | some ob =>
        if o + len ≤ ob.size ∧ tag + 16 ≤ ob.size then .ok (.obj num o tag len) else faultOf .tileFault

/-- The tile index of TLD, TST, TPF and TCHK: value(si) + tile_imm (R124, R127, R128). -/
def tileIndex (e : QEntry) : Nat :=
  match e.op with
  | .tpf => plus32 e.v0 (fld e.w 42 31)
  | _ => plus32 e.v0 (fld e.w 32 21)

/-- The memory descriptor of TLD, TST, TPF and TCHK. -/
def tmOf (c : Core) (e : QEntry) : Desc :=
  match e.op with
  | .tpf => descOf (getT c (fld e.w 52 49))
  | _ => descOf (getT c (fld e.w 48 45))

/-- The scratchpad pieces of `len` bytes laid over rows from j0 (R125): offset and length of each. -/
def rowPieces (d : Desc) (j0 len : Nat) : List (Nat × Nat) :=
  (span 0 (ceilDiv len d.rowBytes)).map fun k => (rowAddr d (j0 + k), min d.rowBytes (len - k * d.rowBytes))

/-- Write bytes over scratchpad pieces. -/
def writePieces (c : Core) (bs : List Byte) : List (Nat × Nat) → Core
  | [] => c
  | (a, n) :: r => writePieces (spadWrite c a (bs.take n)) (bs.drop n) r

/-- Read bytes from scratchpad pieces. -/
def readPieces (m : List Host.Cell) (ps : List (Nat × Nat)) : List Byte :=
  ps.flatMap fun p => Memory.readBytes m p.1 p.2

/-- R112: the scratchpad rows that `len` bytes from row j0 take, checked. -/
def spadPieces (d : Desc) (j0 len : Nat) : Except CmdFault (List (Nat × Nat)) :=
  if spadDescOk d && rowsInside d j0 (ceilDiv len d.rowBytes) then .ok (rowPieces d j0 len)
  else faultOf .tileFault

/-- First scratchpad row of TLD and TST (R124). -/
def firstRow (e : QEntry) : Nat := plus32 e.v1 (fld e.w 20 9)

/-- The length of a tile. -/
def tileLen : TileLoc → Nat
  | .phys _ _ len => len
  | .obj _ _ _ len => len

/-- R125, R128, R256: an object access looks its object up when the entry starts. -/
def tileLookup (s : State) (n : Nat) : TileLoc → State
  | .obj num _ _ _ => otcLookup s n (objKey (corePart s n) num)
  | .phys _ _ _ => s

/-- TLD starts (R125): descriptors are checked; the tile arrives at completion. -/
def startTld (s : State) (n : Nat) (e : QEntry) : Except CmdFault State := do
  let c := coreOf s n
  let loc ← memTile s n (tmOf c e) (tileIndex e) false
  let _ ← spadPieces (descOf (getT c (fld e.w 52 49))) (firstRow e) (tileLen loc)
  return tileLookup s n loc

/-- TCHK starts (R128). -/
def startTchk (s : State) (n : Nat) (e : QEntry) : Except CmdFault State := do
  let loc ← memTile s n (tmOf (coreOf s n) e) (tileIndex e) false
  return tileLookup s n loc

/-- R474: the run on core n has stored a tile under a tag; the job record will name its command. -/
def noteStore (s : State) (n tag : Nat) : State :=
  { s with runs := SMap.modify s.runs n fun r => { r with stored := tag :: r.stored.erase tag } }

/-- TST starts (R126, R70): the payload leaves the scratchpad and goes to memory with a fresh tag; the
acknowledgement is its completion.  Only HBM and SSR are written (`dmaReach` for a write). -/
def startTst (s : State) (n : Nat) (e : QEntry) : Except CmdFault State := do
  let c := coreOf s n
  let d := tmOf c e
  let loc ← memTile s n d (tileIndex e) true
  match loc with
  | .obj .. => faultOf .tileFault
  | .phys a tag len =>
    let ps ← spadPieces (descOf (getT c (fld e.w 52 49))) (firstRow e) len
    let view := spadView s.freeCtr c
    let (c1, bad) := spadTouch c ps
    if bad then faultOf .eccUncorr
    else
      return writeTile (noteStore (nextFree (setCore s n c1)) n tag) a tag (readPieces view ps) d.format 0x04 n (tileIndex e)

/-- TPF starts (R127): a hint for an object that is not RESIDENT; one that a TLD would fault on is dropped. -/
def startTpf (s : State) (n : Nat) (e : QEntry) : Except CmdFault State :=
  let c := coreOf s n
  let d := tmOf c e
  let first := tileIndex e
  let ok := (span first (fld e.w 30 18 + 1)).all fun i => match memTile s n d i false with
    | .ok _ => true
    | .error _ => false
  let deadline := c.cmdStart + ticksPerUs * fld e.w 17 5
  .ok (if ok && d.space == 2 then promote s (.obj (corePart s n) (d.base / 2 ^ 32)) deadline else s)

/-- What a tile access finds when it would complete. -/
inductive Arrival where
  | waits                      -- the object is not RESIDENT yet (R92)
  | failed (a : Nat)           -- its promotion failed (R125)
  | checked (r : TileCheck) (tag : Nat) (data : List Byte)
  deriving DecidableEq, Repr

/-- R69, R92, R125: the tile of an entry in flight. -/
def arrival (s : State) (n : Nat) (e : QEntry) : Arrival :=
  let c := coreOf s n
  let d := tmOf c e
  match memTile s n d (tileIndex e) false with
  | .error _ => .waits
  | .ok (.phys a tag len) => .checked (checkTile s a tag len d.format (tileIndex e)) tag (readMem s a len)
  | .ok (.obj num o tag len) =>
    match objOf s (corePart s n) num with
    | none => .waits
    | some ob =>
      if ob.failed then .failed (num * 2 ^ 32 + tag)
      else if ob.st == .resident && c.otc.contains (objKey (corePart s n) num) then
        .checked (checkObjTile s ob.frames o tag len d.format (tileIndex e)) (objAddr ob.frames tag)
          (readObj s.mem ob.frames o len)
      else .waits

/-- R125: a tile that passed its check is written to the scratchpad. -/
def landTile (s : State) (n : Nat) (e : QEntry) (data : List Byte) : State :=
  onCore s n fun c =>
    writePieces c data (rowPieces (descOf (getT c (fld e.w 52 49))) (firstRow e) data.length)

/-- What the completion of a TLD in flight does; none while it waits. -/
def completeTld (s : State) (n : Nat) (e : QEntry) : Option (Except CmdFault State) :=
  match arrival s n e with
  | .waits => none
  | .failed a => some (faultAt .checkMismatch a)
  | .checked .formatErr _ _ => some (faultOf .tileFormat)
  | .checked .mismatch tag _ => some (faultAt .checkMismatch tag)
  | .checked .good _ data => some (.ok (landTile s n e data))

/-- What the completion of a TCHK in flight does (R128); none while it waits. -/
def completeTchk (s : State) (n : Nat) (e : QEntry) : Option (Except CmdFault State) :=
  let put (s : State) (v : Bool) : State := onCore s n fun c => setP c (fld e.w 52 50) v
  match arrival s n e with
  | .waits => none
  | .failed a => some (faultAt .checkMismatch a)
  | .checked .formatErr _ _ => some (faultOf .tileFormat)
  | .checked .mismatch tag _ => some (.ok (logCheck (put s false) (corePart s n) tag 0))
  | .checked .good _ _ => some (.ok (put s true))

end Sys2Proof.Machine
end

