-- ==== Sys2Proof/Machine/Matrix.lean ====
section
/-! DEFINITION. Sys2Proof/Machine/Matrix.lean: the matrix instructions MWL, MMA, MMAS and MACC (R71, R74, R75, R79 to R85,
R138 to R143) as entries of the matrix queue. -/

namespace Sys2Proof.Machine

/-! ### MWL -/

/-- The fmt field of MWL (R138). -/
def mwlFmt (e : QEntry) : Nat := fld e.w 53 51
/-- off = value(so) + off_imm (R138). -/
def mwlOff (e : QEntry) : Nat := plus32 e.v0 (fld e.w 36 15)
/-- Bytes of codes that a bank of a format holds (R71, R74). -/
def codeBytes (fmt : Nat) : Nat := if fmt = 6 then 0x8000 else 0x4000
/-- Bytes of metadata that MWL reads for a format (R139, R179). -/
def metaBytes (fmt : Nat) : Nat := if fmt ≤ 1 then 0x400 else if fmt = 5 then 8 else if fmt = 6 then 0 else 4

/-- Bytes [a, a + n) of a sparse content as cells by offset from a. -/
def sliceCells (m : List Host.Cell) (a n : Nat) : List Host.Cell :=
  m.filterMap fun x => if a ≤ x.1 ∧ x.1 < a + n then some (x.1 - a, x.2) else none

/-- Weight bank k. -/
def bankOf (c : Core) (k : Nat) : Option Bank := if k = 0 then c.bank0 else c.bank1
/-- Fill weight bank k. -/
def setBank (c : Core) (k : Nat) (b : Bank) : Core :=
  let c := eccClear c (· == eccBank k)
  if k = 0 then { c with bank0 := some b } else { c with bank1 := some b }

/-- MWL starts (R139): its bank takes the codes and metadata. -/
def startMwl (s : State) (n : Nat) (e : QEntry) : Except CmdFault State := do
  let c := coreOf s n
  let fmt := mwlFmt e
  let off := mwlOff e
  let ta := descOf (getT c (fld e.w 50 47))
  let tb := descOf (getT c (fld e.w 46 43))
  let inside (d : Desc) (o k : Nat) : Bool :=
    spadDescOk d && decide (d.base + o + k ≤ extentEnd d) && decide (d.base + o + k ≤ spadSize)
  need (off % 1024 == 0) .misaligned
  need (inside ta off (codeBytes fmt)) .tileFault
  need (fmt == 6 || inside tb (off / 16) (metaBytes fmt)) .tileFault
  let ca := ta.base + off
  let ma := tb.base + off / 16
  let ranges := (ca, codeBytes fmt) :: if fmt = 6 then [] else [(ma, metaBytes fmt)]
  let view := spadView s.freeCtr c
  let (c1, bad) := spadTouch c ranges
  need (!bad) .eccUncorr
  let b : Bank := { fmt := fmt, codes := sliceCells view ca (codeBytes fmt),
                    metad := if fmt = 6 then [] else sliceCells view ma (metaBytes fmt) }
  return nextFree (setCore s n (setBank c1 e.bank b))

/-- K-elements per column of a bank format (R71, R74, R178). -/
def slabLen (fmt : Nat) : Nat := if fmt = 1 ∨ fmt = 3 ∨ fmt = 5 then 256 else 128

/-- The stationary element of column j at K-index k, zero point removed, with its block shift (R39, R40, R71,
R74, R179). -/
def bankElem (b : Bank) (j k : Nat) : Int × Nat :=
  let code8 := (Memory.read b.codes (128 * j + k)).toNat
  let byte := (Memory.read b.codes (128 * j + k / 2)).toNat
  let code4 := if k % 2 = 0 then byte % 16 else byte / 16
  let meta8 (o : Nat) := (Memory.read b.metad o).toNat
  if b.fmt = 0 then
    let m := Memory.le b.metad (8 * j + 2 * (k / 32)) 2
    (zpSub code8 (bits m 7 0), bits m 10 8)
  else if b.fmt = 1 then
    let m := meta8 (8 * j + k / 32)
    (zpSub code4 (bits m 3 0), bits m 6 4)
  else if b.fmt = 2 then (zpSub code8 (meta8 (j / 32)), 0)
  else if b.fmt = 3 then (zpSub code4 (meta8 (j / 32) % 16), 0)
  else if b.fmt = 4 then (zpSub code8 (meta8 (k / 32)), 0)
  else if b.fmt = 5 then (zpSub code4 (meta8 (k / 32) % 16), 0)
  else (signed 16 (Memory.le b.codes (256 * j + 2 * k) 2), 0)

/-- R43, R44: the sum of one streamed row in column j. -/
def columnSum (b : Bank) (xs : List Int) (j : Nat) : Int :=
  (xs.foldl (fun (st : Int × Nat) a =>
    let e := bankElem b j st.2
    (st.1 + blkShift (e.1 * a) e.2, st.2 + 1)) (0, 0)).1

/-- R82: the residue that the channel of column j forms for one row. -/
def columnResidue (b : Bank) (xs : List Int) (j : Nat) : Nat :=
  (xs.foldl (fun (st : Nat × Nat) a =>
    let e := bankElem b j st.2
    let r := if b.fmt = 6 then
        residueTerm (e.1 / 256) a 8 + residueTerm (e.1 % 256) a 0
      else residueTerm e.1 a e.2
    ((st.1 + r) % 3, st.2 + 1)) (0, 0)).1

/-! ### MMA and MMAS -/

/-- First stream position (R140). -/
def mmaFirst (e : QEntry) : Nat := plus32 e.v0 (fld e.w 31 22)
/-- First accumulator row (R140). -/
def mmaRow (e : QEntry) : Nat := plus32 e.v1 (fld e.w 21 12)
/-- Row count (R140). -/
def mmaCount (e : QEntry) : Nat := plus32 e.v2 (fld e.w 11 1)

/-- One streamed row: where it lies, or padding. -/
def streamRow (e : QEntry) (d : Desc) (i : Nat) : ViewAt :=
  match e.op with
  | .mmas => viewRowAt d i
  | _ => .at (rowAddr d i)

/-- The elements of a streamed row (R51, R141). -/
def rowElems (m : List Host.Cell) (d : Desc) (k : Nat) : ViewAt → List Int
  | .at a =>
    let size := if d.format = 2 then 1 else 2
    (span 0 k).map fun i => intElem d.format (Memory.le m (a.toNat + size * i) size)
  | _ => List.replicate k (if d.padConst then intElem d.format d.padValue else 0)

/-- R46, R79, R82: add the sums of one streamed row to accumulator row r: the core, whether an accumulator
passed its range, and the column whose residue check failed. -/
def addRow (c : Core) (b : Bank) (xs : List Int) (r : Nat) : Core × Bool × Option Nat :=
  let old := accRow c r
  let one (j : Nat) : Int × Bool × Bool :=
    let o := old.acc.getD j 0
    let err : Int := match c.adder with
      | some (k, d) => if k = j then d else 0
      | none => 0
    let (v, big) := accAdd o (columnSum b xs j + err)
    (v, big, big || residueOk o v (columnResidue b xs j))
  let cols := (span 0 128).map one
  ({ setAccRow c r { old with acc := cols.map fun x => x.1 } with adder := none },
   cols.any fun x => x.2.1, cols.findIdx? fun x => !x.2.2)

/-- Stream rows into accumulator rows from r on, until one faults. -/
def streamRows (c : Core) (b : Bank) (r : Nat) : List (List Int) → Core × Option CmdFault
  | [] => (c, none)
  | xs :: rest =>
    match addRow c b xs r with
    | (c1, true, _) => (c1, some { bit := .accOverflow })
    | (c1, false, some j) => (c1, some { bit := .arithResidue, addr := some (r * 2 ^ 16 + j) })
    | (c1, false, none) => streamRows c1 b (r + 1) rest

/-- What a started entry leaves: the state, and the fault it ends the command with if it wrote before it
faulted. -/
abbrev Started := Except CmdFault (State × Option CmdFault)

/-- MMA and MMAS start (R141). -/
def startMma (s : State) (n : Nat) (e : QEntry) : Started := do
  let c := coreOf s n
  let d := descOf (getT c (fld e.w 53 50))
  let count := mmaCount e
  let b := mmaRow e
  match bankOf c e.bank with
  | none => faultOf .illegalInstr
  | some bank =>
    need (decide (1 ≤ count) && windowOk b count) .illegalInstr
    let k := slabLen bank.fmt
    let size := if d.format = 2 then 1 else 2
    need (spadDescOk d && (d.format == 1 || d.format == 2) && decide (k * size ≤ d.rowBytes)) .tileFault
    let places := (span (mmaFirst e) count).map (streamRow e d)
    need (places.all fun p => match p with
      | .fault => false
      | .pad => true
      | .at a => decide (0 ≤ a) && decide (a + d.rowBytes ≤ spadSize)) .tileFault
    need (d.colStride % 64 == 0 && places.all fun p => match p with
      | .at a => a.toNat % 64 == 0
      | _ => true) .misaligned
    need (!foreignRow c b count) .rowNotOwned
    let ranges := places.filterMap fun p => match p with
      | .at a => some (a.toNat, k * size)
      | _ => none
    let view := spadView s.freeCtr c
    let (c1, bad) := spadTouch c ranges
    let (c2, bad2) := eccRead c1 (eccBank e.bank) (eccBank e.bank)
    let (c3, bad3) := eccAccRead c2 b count
    need (!(bad || bad2 || bad3)) .eccUncorr
    let (c4, f) := streamRows c3 bank b (places.map (rowElems view d k))
    return (nextFree (setCore s n c4), f)

/-! ### MACC -/

/-- First row of the window (R142). -/
def maccRow (e : QEntry) : Nat := plus32 e.v0 (fld e.w 33 24)
/-- Rows of the window (R142). -/
def maccCount (e : QEntry) : Nat := plus32 e.v1 (fld e.w 23 13)

/-- Change rows b to b + k - 1 of a core. -/
def onRows (c : Core) (b k : Nat) (f : Core → Nat → Core) : Core := (span b k).foldl f c

/-- How many of the rows are not resident yet. -/
def newRows (c : Core) (b k : Nat) : Nat := ((span b k).filter fun r => (SMap.get? c.rowOwner r).isNone).length

/-- R143: the 1 KiB of a checkpointed row. -/
def rowBytesOf (r : AccRow) : List Byte :=
  (span 0 128).flatMap fun j =>
    leBytes 6 (unsigned 48 (r.acc.getD j 0)) ++ leBytes 1 (unsigned 8 (r.ext.getD j 0)) ++ leBytes 1 0

/-- R143: the row that 1 KiB at address a holds. -/
def rowFrom (m : Memory) (a : Nat) : AccRow :=
  { acc := (span 0 128).map fun j => signed 48 (Memory.le m (a + 8 * j) 6),
    ext := (span 0 128).map fun j => signed 8 (Memory.le m (a + 8 * j + 6) 1) }

/-- The tiles of a checkpoint of k rows: tile number within the run, rows covered (R143). -/
def ckptTiles (k : Nat) : List (Nat × Nat) := (span 0 (ceilDiv k 4)).map fun t => (t, min 4 (k - 4 * t))

/-- R143: the places of the checkpoint's tiles under T[tm]. -/
def ckptPlaces (s : State) (n : Nat) (e : QEntry) (wr : Bool) : Except CmdFault (List (Nat × Nat × Nat × Nat × Nat)) := do
  let d := descOf (getT (coreOf s n) (fld e.w 49 46))
  need (d.space == 1 && d.format == 0x0B) .tileFault
  (ckptTiles (maccCount e)).mapM fun t => do
    match ← memTile s n d (e.v2 + t.1) wr with
    | .phys a tag len => return (a, tag, len, e.v2 + t.1, t.2)
    | .obj .. => faultOf .tileFault

/-- MACC CKPT: rows are copied to HBM tiles with tags (R143). -/
def maccCkpt (s : State) (n : Nat) (e : QEntry) : Except CmdFault State := do
  let places ← ckptPlaces s n e true
  let b := maccRow e
  let (c, bad) := eccAccRead (coreOf s n) b (maccCount e)
  need (!bad) .eccUncorr
  let store (s : State) (x : (Nat × Nat × Nat × Nat × Nat) × Nat) : State :=
    let ((a, tag, _, i, rows), t) := x
    writeTile s a tag ((span (b + 4 * t) rows).flatMap fun r => rowBytesOf (accRow c r)) 0x0B 0x04 n i
  return (places.zip (span 0 places.length)).foldl store (setCore s n c)

/-- MACC RESTORE: rows are loaded once every tile has passed its check (R143). -/
def maccRestore (s : State) (n : Nat) (e : QEntry) : Except CmdFault State := do
  let places ← ckptPlaces s n e false
  let _ ← places.mapM fun (a, tag, len, i, rows) => do
    need (len == 1024 * rows) .tileFormat
    match checkTile s a tag len 0x0B i with
    | .good => (.ok () : Except CmdFault Unit)
    | .formatErr => faultOf .tileFormat
    | .mismatch => faultAt .checkMismatch tag
  let b := maccRow e
  let load (c : Core) (x : (Nat × Nat × Nat × Nat × Nat) × Nat) : Core :=
    let ((a, _, _, _, rows), t) := x
    (span 0 rows).foldl (fun c r => setAccRow c (b + 4 * t + r) (rowFrom s.mem (a + 1024 * r))) c
  return onCore s n fun c => (places.zip (span 0 places.length)).foldl load c

/-- MACC starts (R142). -/
def startMacc (s : State) (n : Nat) (e : QEntry) : Except CmdFault State := do
  let c := coreOf s n
  let b := maccRow e
  let k := maccCount e
  let q := c.cmdQueue.toNat
  need (decide (1 ≤ k) && windowOk b k) .illegalInstr
  need (!foreignRow c b k) .rowNotOwned
  match fld e.w 53 51 with
  | 0 => return setCore s n (onRows c b k fun c r =>
      setAccRow c r { acc := List.replicate 128 0, ext := List.replicate 128 0 })
  | 1 =>
    need (decide (c.rowOwner.length + newRows c b k ≤ 960)) .rowLimit
    return setCore s n (onRows c b k fun c r => { c with rowOwner := SMap.set c.rowOwner r q })
  | 2 => return setCore s n (onRows c b k fun c r =>
      { c with rowOwner := SMap.erase c.rowOwner r, acc := SMap.erase c.acc r })
  | 3 => maccCkpt s n e
  | _ => maccRestore s n e

end Sys2Proof.Machine
end

