-- ==== Sys2Proof/Machine/Kv.lean ====
section
/-! DEFINITION. Sys2Proof/Machine/Kv.lean: the KV instructions KAPP, KSEAL and KMAP (R144, R145, R180 to R189, R194, R195)
as entries of the matrix queue. -/

namespace Sys2Proof.Machine

/-- opt[0] of a KV word (R144). -/
def kvOpt (e : QEntry) : Bool := fld e.w 30 30 == 1
/-- T[ta] of a KV word. -/
def kvTa (c : Core) (e : QEntry) : Desc := descOf (getT c (fld e.w 52 49))
/-- T[tb] of a KV word. -/
def kvTb (c : Core) (e : QEntry) : Desc := descOf (getT c (fld e.w 48 45))

/-- R189: the form of a slot descriptor. -/
def slotDescOk (d : Desc) : Bool :=
  memDescOk d && d.space == 1 && d.format == 1 && d.tileBytes == 256 && d.colStride == 256 && d.rowBytes == 256
    && (d.w == 256 || d.w == 512) && d.tagPtr + 0x4000 == d.base

/-- R380: does the job of core n run with KAPP and KSEAL suppressed? -/
def kvOff (s : State) (n : Nat) : Bool := (SMap.get? s.runs n).any fun r => (SMap.get? s.k.jobs r.job).any Job.noKv

/-- KAPP starts (R145, R182): each source row becomes a tile of the slot with a fresh tag. -/
def startKapp (s : State) (n : Nat) (e : QEntry) : Except CmdFault State := do
  let c := coreOf s n
  let ta := kvTa c e
  let tb := kvTb c e
  let p := tb.w / 2
  need (slotDescOk tb && spadDescOk ta && ta.format == 1 && decide (256 ≤ ta.rowBytes)) .tileFault
  need (decide (e.v0 + e.v1 ≤ p) && rowsInside ta 0 e.v1) .tileFault
  let first := e.v0 + (if kvOpt e then p else 0)
  let places ← (span 0 e.v1).mapM fun i => do
    match ← memTile s n tb (first + i) true with
    | .phys a tag _ => return (a, tag, i)
    | .obj .. => faultOf .tileFault
  let view := spadView s.freeCtr c
  let (c1, bad) := spadTouch c ((span 0 e.v1).map fun i => (rowAddr ta i, 256))
  need (!bad) .eccUncorr
  if kvOff s n then return setCore s n c1
  return places.foldl (fun s (a, tag, i) =>
    writeTile s a tag (Memory.readBytes view (rowAddr ta i) 256) 1 0x04 n (first + i))
    (nextFree (setCore s n c1))

/-! ### KSEAL -/

/-- The 128 A16 values of slot row a. -/
def a16Row (m : Memory) (a : Nat) : List Int := (span 0 128).map fun d => signed 16 (Memory.le m (a + 2 * d) 2)

/-- R57, R189: the KV block of the filled positions among 32 positions from p0: block and scale.  Codes run
position by position. -/
def sealBlock (kv8 : Bool) (sa : Word) (rows : List (List Int)) (p0 filled : Nat) : EncBlock × Word :=
  let used := min 32 (filled - p0)
  let blank := if kv8 then 0x80 else 0x8
  if filled ≤ p0 then ({ zp := blank, shift := 0, codes := List.replicate 4096 blank }, f32One)
  else
    let (b, sc) := kvEncode kv8 sa ((rows.drop p0).take used).flatten
    ({ b with codes := b.codes ++ List.replicate (4096 - b.codes.length) b.zp }, sc)

/-- The blocks of P positions. -/
def sealBlocks (kv8 : Bool) (sa : Word) (rows : List (List Int)) (p filled : Nat) : List (EncBlock × Word) :=
  (span 0 (p / 32)).map fun b => sealBlock kv8 sa rows (32 * b) filled

/-- The code of position p, dimension d. -/
def codeAt (bs : List (EncBlock × Word)) (p d : Nat) : Nat :=
  ((bs.map fun b => b.1.codes).getD (p / 32) []).getD (128 * (p % 32) + d) 0

/-- R188: byte k of code tile i. -/
def sealByte (kv8 : Bool) (keys vals : List (EncBlock × Word)) (i k : Nat) : Byte :=
  let two (lo hi : Nat) : Byte := BitVec.ofNat 8 (lo % 16 + 16 * (hi % 16))
  if i < 4 then
    if kv8 then BitVec.ofNat 8 (codeAt keys (32 * i + k / 128) (k % 128))
    else
      let p := 64 * i + k / 64
      two (codeAt keys p (2 * (k % 64))) (codeAt keys p (2 * (k % 64) + 1))
  else
    let d := 32 * (i - 4) + k / 128
    if kv8 then BitVec.ofNat 8 (codeAt vals (k % 128) d)
    else two (codeAt vals (2 * (k % 128)) d) (codeAt vals (2 * (k % 128) + 1) d)

/-- The largest of the value block scales of the filled blocks (R187, R189). -/
def vmaxOf (vals : List (EncBlock × Word)) (filled : Nat) : Word :=
  ((vals.take (ceilDiv filled 32)).map Prod.snd).foldl (fun a b => if f32Lt a b then b else a) 0

/-- R187: the auxiliary tile. -/
def auxTile (hdr : List Byte) (kv8 : Bool) (p filled firstPos : Nat) (keys vals : List (EncBlock × Word)) : List Byte :=
  let h (o n : Nat) : List Byte := (hdr.drop o).take n
  let pad (n : Nat) (l : List Byte) : List Byte := l ++ List.replicate (n - l.length) 0
  let zps (bs : List (EncBlock × Word)) := pad 8 (bs.flatMap fun b => leBytes 1 b.1.zp)
  let scs (bs : List (EncBlock × Word)) := pad 32 (bs.flatMap fun b => leBytes 4 b.2.toNat)
  leBytes 2 0x4B56 ++ leBytes 1 (if kv8 then 0 else 1) ++ leBytes 1 1 ++ h 0x06 2 ++ h 0x08 2
    ++ leBytes 4 firstPos ++ leBytes 2 p ++ leBytes 2 filled ++ h 0x0C 4 ++ h 0x1C 4 ++ h 0x10 4 ++ h 0x14 4
    ++ leBytes 4 (vmaxOf vals filled).toNat ++ List.replicate 12 0 ++ zps keys ++ zps vals ++ scs keys ++ scs vals
    ++ List.replicate 128 0

/-- A tile check as the outcome of an instruction (R69). -/
def checked (r : TileCheck) (tag : Nat) : Except CmdFault Unit :=
  match r with
  | .good => .ok ()
  | .formatErr => faultOf .tileFormat
  | .mismatch => faultAt .checkMismatch tag

/-- R186, R189: a page descriptor has only space, format and base, and its page lies in the partition's HBM. -/
def pageDescOk (s : State) (n : Nat) (t : BitVec 256) : Bool :=
  let d := descOf t
  let inHbm (a : Nat) : Bool := match regionOf s.board a with
    | some (.hbm u) => SMap.getD s.own.hbm u 0 == corePart s n
    | _ => false
  t == BitVec.ofNat 256 (0x0A * 2 ^ 50 + 2 ^ 48 + d.base) && d.base % 64 == 0
    && inHbm d.base && inHbm (d.base + 0x8200 - 1)

/-- Write a sealed page: eight code tiles, the auxiliary tile, nine tags (R186). -/
def writePage (s : State) (n page : Nat) (kv8 : Bool) (keys vals : List (EncBlock × Word)) (aux : List Byte) : State :=
  let s1 := (span 0 8).foldl (fun s i =>
    writeTile s (page + 0x200 + 0x1000 * i) (page + 0x10 + 16 * i)
      ((span 0 4096).map (sealByte kv8 keys vals i)) 0x0A 0x04 n i) s
  writeTile s1 (page + 0x100) page aux 0x0A 0x04 n 0

/-- KSEAL starts (R189). -/
def startKseal (s : State) (n : Nat) (e : QEntry) : Except CmdFault State := do
  let c := coreOf s n
  let slot := kvTa c e
  let tb := getT c (fld e.w 48 45)
  let kv8 := !kvOpt e
  let p := slot.w / 2
  let filled := e.v1
  need (decide (1 ≤ filled) && decide (filled ≤ p) || !slotDescOk slot) .illegalInstr
  need (slotDescOk slot && dmaReach s n (slot.base - 0x4000) (0x4000 + 512 * p) false && pageDescOk s n tb) .tileFault
  let hdrA := slot.base - 0x1000
  checked (checkTile s hdrA (slot.tagPtr + 32 * p) 64 0x0B (2 * p)) (slot.tagPtr + 32 * p)
  let hdr := readMem s hdrA 64
  let rowsOk (first : Nat) : Except CmdFault Unit := do
    let _ ← (span first filled).mapM fun i =>
      checked (checkTile s (slot.base + 256 * i) (slot.tagPtr + 16 * i) 256 1 i) (slot.tagPtr + 16 * i)
    return ()
  rowsOk 0
  rowsOk p
  need (leNat (hdr.take 2) == 0x5354 && leNat ((hdr.drop 2).take 1) == (if kv8 then 0 else 1)
    && leNat ((hdr.drop 4).take 2) == p && p == (if kv8 then 128 else 256)) .tileFormat
  let saK := word (leNat ((hdr.drop 0x10).take 4))
  let saV := word (leNat ((hdr.drop 0x14).take 4))
  let rows (first : Nat) := (span first filled).map fun i => a16Row s.mem (slot.base + 256 * i)
  let keys := sealBlocks kv8 saK (rows 0) p filled
  let vals := sealBlocks kv8 saV (rows p) p filled
  if kvOff s n then return s
  return writePage s n (descOf tb).base kv8 keys vals (auxTile hdr kv8 p filled e.v0 keys vals)

/-! ### KMAP -/

/-- Level-1 index k and first page of a KMAP (R195). -/
def kmapK (e : QEntry) : Nat := bits e.v0 19 10
/-- First page index of a KMAP. -/
def kmapP (e : QEntry) : Nat := bits e.v0 9 0

/-- The addresses of the level-2 entries that a KMAP names; none if there is no level-2 table (R194). -/
def kmapEntries (s : State) (n : Nat) (e : QEntry) : Option (List Nat) :=
  let l1 := Memory.le s.mem ((kvTa (coreOf s n) e).base + 8 * kmapK e) 8
  if l1.testBit 63 then some ((span (kmapP e) e.v1).map fun p => bits l1 47 0 + 8 * p) else none

/-- Tier of a level-2 entry (R194). -/
def entryTier (x : Nat) : Nat := bits x 63 62

/-- R195, R256: pin a mapped page for the command of core n; KMAP cancels a demotion (R258). -/
def pinPage (s : State) (n l2 : Nat) : State :=
  let s1 := modPage s l2 fun g =>
    { g with pinMask := if bitOf g.pinMask n then g.pinMask else g.pinMask + 2 ^ n, lastRef := s.tick,
             st := if g.st = .demoting then .resident else g.st }
  onCore s1 n fun c => { c with kpins := if c.kpins.contains l2 then c.kpins else c.kpins ++ [l2] }

/-- KMAP starts (R195): pages are pinned and deep ones promoted, or prefetch hints are handed over. -/
def startKmap (s : State) (n : Nat) (e : QEntry) : Except CmdFault State := do
  let c := coreOf s n
  let ta := kvTa c e
  let tb := kvTb c e
  need (decide (1 ≤ e.v1) && decide (e.v1 ≤ 64) && decide (kmapP e + e.v1 ≤ 1024)) .illegalInstr
  need (memDescOk ta && ta.space == 1 && ta.format == 0x0B && spadDescOk tb
    && decide (tb.base + 16 * e.v1 ≤ spadSize) && dmaReach s n (ta.base + 8 * kmapK e) 8 false) .tileFault
  match kmapEntries s n e with
  | none => return s
  | some as =>
    need (as.all fun a => dmaReach s n a 8 false) .tileFault
    let deep (a : Nat) : Bool := entryTier (Memory.le s.mem a 8) == 2
    if kvOpt e then
      return as.foldl (fun s a => if deep a then
        nextFree (promote s (.page a) (s.tick + Config.freeNat s.freeCtr)) else s) s
    else
      return as.foldl (fun s a => if deep a then promote (pinPage s n a) (.page a) s.tick else pinPage s n a) s

/-- R195: the 16-byte frame record of a page in HBM at address fr with entry x. -/
def frameRecord (m : Memory) (x fr : Nat) : List Byte :=
  let aux := fr + 0x100
  leBytes 6 fr ++ leBytes 1 (bits x 59 58) ++ leBytes 1 (1 + 2 * bits x 61 61) ++ leBytes 2 (Memory.le m (aux + 0x0E) 2)
    ++ leBytes 2 (bits (Memory.le m (aux + 8) 4) 31 16) ++ leBytes 4 (Memory.le m (aux + 0x20) 4)

/-- Do first positions rise? -/
def rising : List Nat → Bool
  | a :: b :: r => decide (a < b) && rising (b :: r)
  | _ => true

/-- The completion of a KMAP in flight: none while a page is not in HBM (R92); then every auxiliary tile is
checked against its entry and the records are written (R195). -/
def completeKmap (s : State) (n : Nat) (e : QEntry) : Option (Except CmdFault State) :=
  let c := coreOf s n
  let tb := kvTb c e
  if kvOpt e then some (.ok s)
  else match kmapEntries s n e with
  | none => some (.ok (onCore s n fun c => spadWrite c tb.base (List.replicate (16 * e.v1) 0)))
  | some as =>
    let entries := as.map fun a => (a, Memory.le s.mem a 8)
    let failed := as.any fun a => match SMap.get? s.mm.pages a with
      | some g => g.failed
      | none => false
    if failed then some (faultOf .checkMismatch)
    else if entries.any fun x => entryTier x.2 == 2 then none
    else
      let hbm := entries.filter fun x => entryTier x.2 == 1
      let frame (x : Nat) : Nat := bits x 47 0
      let bad := hbm.find? fun x =>
        checkTile s (frame x.2 + 0x100) (frame x.2) 256 0x0A 0 != .good
          || Memory.le s.mem (frame x.2 + 0x102) 1 != bits x.2 59 58
      match bad with
      | some x => some (faultAt .checkMismatch (frame x.2))
      | none =>
        if !rising (hbm.map fun x => Memory.le s.mem (frame x.2 + 0x108) 4) then some (faultOf .checkMismatch)
        else
          let recs := entries.flatMap fun x =>
            if entryTier x.2 = 1 then frameRecord s.mem x.2 (frame x.2) else List.replicate 16 0
          some (.ok (onCore s n fun c => spadWrite c tb.base recs))

end Sys2Proof.Machine
end

