-- ==== Sys2Proof/Machine/Element.lean ====
section
/-! DEFINITION. Sys2Proof/Machine/Element.lean: the element instructions (R146 to R160) as entries of the element queue. -/

namespace Sys2Proof.Machine

/-- dst specifier of an element word (R146). -/
def elDst (e : QEntry) : Nat := fld e.w 53 49
/-- sa specifier. -/
def elSa (e : QEntry) : Nat := fld e.w 48 44
/-- sb specifier. -/
def elSb (e : QEntry) : Nat := fld e.w 43 39
/-- ctl field. -/
def elCtl (e : QEntry) : Nat := fld e.w 20 0

/-- An operand of an entry by its specifier. -/
def elOpnd (c : Core) (e : QEntry) (spec : Nat) : Opnd := opndOf c spec e.v0 e.v1

/-- Check operands, each with its row count and lane type: first what R137, R112 and R148 ask, then who owns the
rows. -/
def elCheck (c : Core) (l : List (Opnd × Nat × Bool)) : Except CmdFault Unit := do
  let _ ← l.mapM fun x => opndOk x.1 x.2.1 x.2.2
  let _ ← l.mapM fun x => opndOwned c x.1 x.2.1
  return ()

/-- The ECC and valid-bit effects of reading operands, rows from 0, and other byte ranges. -/
def elTouch (c : Core) (l : List (Opnd × Nat)) (also : List (Nat × Nat)) : Core × Bool :=
  let r := spadTouch c (l.flatMap (fun x => opndRanges x.1 0 x.2) ++ also)
  l.foldl (fun r x => match x.1 with
    | .win b => if x.2 = 0 then r else
      let y := eccAccRead r.1 b x.2
      (y.1, r.2 || y.2)
    | _ => r) r

/-- Check, touch, then run f on the core with the view of the scratchpad; the common frame of an element entry. -/
def elRun (s : State) (n : Nat) (reads writes : List (Opnd × Nat × Bool))
    (f : List Host.Cell → Core → Core) (also : List (Nat × Nat) := []) : Except CmdFault State := do
  let c := coreOf s n
  elCheck c (reads ++ writes)
  let view := spadView s.freeCtr c
  let (c1, bad) := elTouch c (reads.map fun x => (x.1, x.2.1)) also
  need (!bad) .eccUncorr
  return nextFree (setCore s n (f view c1))

/-- Put vectors into an operand from row 0 on. -/
def putVecs (c : Core) (o : Opnd) (i32 : Bool) (vs : List (List Word)) : Core :=
  (vs.foldl (fun (st : Core × Nat) v => (opndPut st.1 o i32 st.2 v, st.2 + 1)) (c, 0)).1

/-- EOP (R149): all vectors are read before the first is written where they do not depend on each other; vector k of
dst follows from vector k of the sources. -/
def startEop (s : State) (n : Nat) (e : QEntry) : Except CmdFault State :=
  let c := coreOf s n
  let op := bits (elCtl e) 20 15
  let i32 := bitOf (elCtl e) 14
  let bcol := bitOf (elCtl e) 13
  let a := elOpnd c e (elSa e)
  let b := elOpnd c e (elSb e)
  let d := elOpnd c e (elDst e)
  let k := e.v2
  let binary := elSb e != 0x1F
  elRun s n ((a, k, i32) :: if binary then [(b, if bcol then 1 else k, i32)] else []) [(d, k, i32)] fun view c =>
    putVecs c d i32 ((span 0 k).map fun r =>
      let x := opndVec view c a i32 r
      let y := if binary then opndVec view c b i32 (if bcol then 0 else r) else x
      (x.zip y).map fun p => eopLane i32 op p.1 p.2)

/-- ERQ (R54, R152). -/
def startErq (s : State) (n : Nat) (e : QEntry) : Except CmdFault State := do
  let c := coreOf s n
  let slot := bits (elCtl e) 20 15
  let rc := bitOf (elCtl e) 14
  let base := if elSa e = 0x10 then e.v0 else e.v1
  let b := descOf (getT c (elSb e))
  let d := descOf (getT c (elDst e))
  let k := e.v2
  need (windowOk base k) .illegalInstr
  need (spadDescOk b && b.format == 9 && decide (512 ≤ b.rowBytes) && rowsInside b 0 1
    && spadDescOk d && d.format == 1 && decide (256 ≤ d.rowBytes) && rowsInside d 0 k) .tileFault
  need (!foreignRow c base k) .rowNotOwned
  let view := spadView s.freeCtr c
  let (c1, bad) := spadTouch c [(rowAddr b 0, 512)]
  let (c2, bad2) := eccAccRead c1 base k
  need (!(bad || bad2)) .eccUncorr
  let words := readElems view (rowAddr b 0) 4
  let row (c : Core) (r : Nat) : Core :=
    let old := accRow c (base + r)
    let q := (span 0 128).map fun j =>
      let w := word (words.getD j 0)
      requantise (old.acc.getD j 0) (rqSig w) (rqShift w) rc (old.ext.getD j 0)
    let c1 := spadWrite c (rowAddr d r) (elemBytes 2 (q.map fun x => unsigned 16 x.1))
    let c2 := if rc then setAccRow c1 (base + r) { old with ext := q.map fun x => x.2.1 } else c1
    satCount c2 slot (q.filter fun x => x.2.2.1).length 128 (q.foldl (fun m x => max m x.2.2.2) 0)
  return nextFree (setCore s n ((span 0 k).foldl row c2))

/-! ### ESMX -/

/-- R154: the exponent of the running maximum that means empty. -/
def smEmpty : Int := -(2 ^ 31)

/-- floor of an F32 value that is not a NaN, clamped as R154 clamps m_new. -/
def smMax (z : Word) : Int :=
  if f32IsInf z then 2 ^ 30
  else
    let q := f32Q z
    clampI (q.num / (q.den : Int) + 1) (-(2 ^ 30)) (2 ^ 30)

/-- R154: u of a live column: sat16(rne(EXP2(F32(z − m + 15)))). -/
def smU (z : Word) (m : Int) : Int :=
  let arg := if f32IsInf z then z else f32Of (Q.add (f32Q z) (Q.ofInt (15 - m)))
  intOfF32 (f32Exp2 arg) (-32768) 32767

/-- sat16(rne(u × mult)), the product exact (R38, R154). -/
def smP (u : Int) (mult : Word) : Int := (toA16 (f32Of (Q.ofInt u)) mult).1

/-- One row of ESMX (R154): the core, counting a flush. -/
def esmxRow (view : List Host.Cell) (xs ys : Nat) (scale mult : List Word) (st dst : Nat) (slot : Nat) (c : Core) : Core :=
  let m := signed 32 (Memory.le view st 4)
  let l := word (Memory.le view (st + 4) 4)
  let lim := signed 32 (Memory.le view (st + 8) 4)
  let xrow := (accRow c xs).acc
  let z := (span 0 128).map fun j =>
    if Int.ofNat j < lim then
      let p := f32Mul (f32Of (Q.ofInt (xrow.getD j 0))) (scale.getD j 0)
      if f32IsNaN p || (f32IsInf p && f32Neg p) then none else some p
    else none
  let live := z.filterMap id
  let mNew : Option Int := match live with
    | [] => none
    | v :: r => some (smMax (r.foldl (fun a b => if f32Lt a b then b else a) v))
  let grows := match mNew with
    | some v => m != smEmpty && decide (v > m)
    | none => false
  let d := (mNew.getD m) - m
  let y := accRow c ys
  let c1 := if grows then
      setAccRow c ys { acc := if d ≥ 48 then List.replicate 128 0 else y.acc.map fun v => shrRne v d,
                       ext := List.replicate 128 0 }
    else c
  let l1 := if grows then (if d ≥ 48 then 0 else f32Mul l (word ((127 - d.toNat) * 2 ^ 23))) else l
  let m1 := match mNew with
    | some v => if m = smEmpty ∨ v > m then v else m
    | none => m
  let u := z.map fun v => match v with
    | some w => smU w m1
    | none => 0
  let p := (u.zip mult).zip z |>.map fun x => if x.2.isSome then smP x.1.1 x.1.2 else 0
  let usum := u.foldl (· + ·) 0
  let l2 := if live.isEmpty then l1 else f32Add l1 (f32Of (Q.mul (Q.ofInt usum) (Q.pow2 (-15))))
  let c2 := spadWrite c1 dst (elemBytes 2 (p.map (unsigned 16)))
  let c3 := spadWrite c2 st (leBytes 4 (unsigned 32 m1) ++ leBytes 4 l2.toNat ++ leBytes 4 (unsigned 32 (lim - 128)))
  satCount c3 slot (if grows && decide (d ≥ 48) then 1 else 0) 1 0

/-- ESMX (R153, R154). -/
def startEsmx (s : State) (n : Nat) (e : QEntry) : Except CmdFault State := do
  let c := coreOf s n
  let k := e.v2
  let slot := bits (elCtl e) 20 15
  let xb := if elSa e = 0x10 then e.v0 else e.v1
  let yb := e.v1
  let b := descOf (getT c (elSb e))
  let d := descOf (getT c (elDst e))
  let t := descOf (getT c (bits (elCtl e) 14 11))
  need (windowOk xb k && windowOk yb k) .illegalInstr
  need (spadDescOk b && b.format == 3 && decide (512 ≤ b.rowBytes) && rowsInside b 0 2
    && spadDescOk d && d.format == 1 && decide (256 ≤ d.rowBytes) && rowsInside d 0 k
    && spadDescOk t && decide (t.base + 16 * k ≤ spadSize)) .tileFault
  need (!foreignRow c xb k && !foreignRow c yb k) .rowNotOwned
  let view := spadView s.freeCtr c
  let (c1, bad) := spadTouch c [(rowAddr b 0, 512), (rowAddr b 1, 512), (t.base, 16 * k)]
  let (c2, bad2) := eccAccRead c1 xb k
  let (c3, bad3) := eccAccRead c2 yb k
  need (!(bad || bad2 || bad3)) .eccUncorr
  let scale := (readElems view (rowAddr b 0) 4).map word
  let mult := (readElems view (rowAddr b 1) 4).map word
  return nextFree (setCore s n ((span 0 k).foldl (fun c i =>
    esmxRow view (xb + i) (yb + i) scale mult (t.base + 16 * i) (rowAddr d i) slot c) c3))

/-! ### ENORM -/

/-- Sum of the lanes of vectors: pairwise within each, then vector by vector in F32 (R155). -/
def groupSum (vs : List (List Word)) : Word := inOrder f32Add (vs.map (pairwise f32Add))

/-- Combine two vectors lane by lane. -/
def lanes2 (f : Word → Word → Word) (a b : List Word) : List Word := (a.zip b).map fun p => f p.1 p.2

/-- One group of ENORM (R155). -/
def normGroup (layer : Bool) (xs gamma beta : List (List Word)) (eps : Word) : List (List Word) :=
  let nn : Word := f32Of (Q.ofInt (128 * xs.length : Nat))
  if layer then
    let mu := f32Div (groupSum xs) nn
    let ds := xs.map fun v => v.map fun x => f32Sub x mu
    let var := f32Div (groupSum (ds.map fun v => v.map fun x => f32Mul x x)) nn
    let r := f32Rsqrt (f32Add var eps)
    ((ds.zip gamma).zip beta).map fun p =>
      lanes2 f32Add (lanes2 f32Mul (p.1.1.map fun x => f32Mul x r) p.1.2) p.2
  else
    let ms := f32Div (groupSum (xs.map fun v => v.map fun x => f32Mul x x)) nn
    let r := f32Rsqrt (f32Add ms eps)
    (xs.zip gamma).map fun p => lanes2 f32Mul (p.1.map fun x => f32Mul x r) p.2

/-- ENORM (R155). -/
def startEnorm (s : State) (n : Nat) (e : QEntry) : Except CmdFault State := do
  let c := coreOf s n
  let g := bits (elCtl e) 20 15 + 1
  let layer := bitOf (elCtl e) 14
  let k := e.v2
  let a := elOpnd c e (elSa e)
  let b := elOpnd c e (elSb e)
  let d := elOpnd c e (elDst e)
  need (k % g == 0) .illegalInstr
  elRun s n [(a, k, false), (b, if layer then 2 * g else g, false)] [(d, k, false)] fun view c =>
    let vec (o : Opnd) (lo cnt : Nat) := (span lo cnt).map fun r => opndVec view c o false r
    putVecs c d false ((span 0 (k / g)).flatMap fun i =>
      normGroup layer (vec a (g * i) g) (vec b 0 g) (if layer then vec b g g else []) (word e.v1))

/-! ### EGATE -/

/-- What a requantisation of an F32 value to A16 gives: code, saturated, magnitude before saturation (R157). -/
def gateQ (x : Word) : Int × Bool × Nat :=
  if f32IsNaN x then (0, true, 0)
  else if f32IsInf x then (if f32Neg x then -32768 else 32767, true, 0xFFFFFFFF)
  else let q := rne (f32Q x); (sat16 q, decide (sat16 q ≠ q), q.natAbs)

/-- sat16(rne(h × p)) with the product exact (R38, R157). -/
def gateOut (h p : Word) : Int × Bool × Nat :=
  let prod := f32Mul h p
  if f32IsNaN prod || f32IsInf h || f32IsInf p then gateQ prod
  else let q := rne (Q.mul (f32Q h) (f32Q p)); (sat16 q, decide (sat16 q ≠ q), q.natAbs)

/-- One lane of EGATE (R157): gate pre-activations a0 to a3, parameters p0 to p7, old state and extension:
(state, extension, output, saturations, largest magnitude). -/
def gateLane (kind : Nat) (rc : Bool) (x p : List Word) (y ext : Int) : Int × Int × Int × Nat × Nat :=
  let a (g : Nat) : Word := f32Mul (x.getD g 0) (p.getD g 0)
  let sv := f32Mul (f32Of (Q.ofInt y)) (p.getD 5 0)
  let (h, new) : Word × Word :=
    if kind = 0 then
      let cst := f32Add (f32Mul (f32Sigmoid (a 1)) sv) (f32Mul (f32Sigmoid (a 0)) (f32Tanh (a 2)))
      (f32Mul (f32Sigmoid (a 3)) (f32Tanh cst), cst)
    else if kind = 1 then
      let z := f32Sigmoid (a 0)
      let r := f32Sigmoid (a 1)
      let u := f32Tanh (f32Add (a 2) (f32Mul r (a 3)))
      let h := f32Add (f32Mul (f32Sub f32One z) u) (f32Mul z sv)
      (h, h)
    else
      let h := f32Add (f32Mul (p.getD 4 0) sv) (a 0)
      (h, h)
  let x0 := f32Mul new (p.getD 6 0)
  let x1 := if rc then f32Add x0 (f32Of ⟨ext, 256⟩) else x0
  let (q, satQ, magQ) := gateQ x1
  let e1 := if rc then
      if satQ then 0
      else clampI (rne (Q.mul (Q.sub (f32Q x1) (Q.ofInt q)) ⟨256, 1⟩)) (-128) 127
    else ext
  let (o, satO, magO) := gateOut h (p.getD 7 0)
  (q, e1, o, b2n satQ + b2n satO, max magQ magO)

/-- EGATE (R156, R157). -/
def startEgate (s : State) (n : Nat) (e : QEntry) : Except CmdFault State := do
  let c := coreOf s n
  let ctl := elCtl e
  let kind := bits ctl 20 19
  let rc := bitOf ctl 18
  let slot := bits ctl 17 12
  let pr := bitOf ctl 11
  let k := e.v2
  let groups := if kind = 2 then 1 else 4
  let xb := if elSa e = 0x10 then e.v0 else e.v1
  let yb := e.v1
  let b := descOf (getT c (elSb e))
  let d := descOf (getT c (elDst e))
  let prow := if pr then 8 * k else 8
  need (windowOk xb (groups * k) && windowOk yb k) .illegalInstr
  need (spadDescOk b && b.format == 3 && decide (512 ≤ b.rowBytes) && rowsInside b 0 prow
    && spadDescOk d && d.format == 1 && decide (256 ≤ d.rowBytes) && rowsInside d 0 k) .tileFault
  need (!foreignRow c xb (groups * k) && !foreignRow c yb k) .rowNotOwned
  let view := spadView s.freeCtr c
  let (c1, bad) := spadTouch c ((span 0 prow).map fun r => (rowAddr b r, 512))
  let (c2, bad2) := eccAccRead c1 xb (groups * k)
  let (c3, bad3) := eccAccRead c2 yb k
  need (!(bad || bad2 || bad3)) .eccUncorr
  let params (r : Nat) := (span 0 8).map fun i => (readElems view (rowAddr b ((if pr then 8 * r else 0) + i)) 4).map word
  let row (c : Core) (r : Nat) : Core :=
    let xs := (span 0 groups).map fun g => (accRow c (xb + g * k + r)).acc
    let ps := params r
    let y := accRow c (yb + r)
    let out := (span 0 128).map fun j =>
      gateLane kind rc (xs.map fun v => f32Of (Q.ofInt (v.getD j 0))) (ps.map fun v => v.getD j 0)
        (y.acc.getD j 0) (y.ext.getD j 0)
    let c1 := setAccRow c (yb + r) { acc := out.map fun o => o.1, ext := out.map fun o => o.2.1 }
    let c2 := spadWrite c1 (rowAddr d r) (elemBytes 2 (out.map fun o => unsigned 16 o.2.2.1))
    satCount c2 slot (out.foldl (fun m o => m + o.2.2.2.1) 0) 256 (out.foldl (fun m o => max m o.2.2.2.2) 0)
  return nextFree (setCore s n ((span 0 k).foldl row c3))

/-! ### ESCAN -/

/-- State of a SCAN: h, A, B per lane, and the vectors written. -/
structure ScanSt where
  h : List Word
  a : List Word
  b : List Word
  out : List (List Word) := []
  deriving DecidableEq, Repr

/-- fma lane by lane. -/
def lanesFma (a b c : List Word) : List Word := ((a.zip b).zip c).map fun p => f32Fma p.1.1 p.1.2 p.2

/-- One step of SCAN (R158). -/
def scanStep (hInit : List Word) (st : ScanSt) (x : (List Word × List Word) × Bool) : ScanSt :=
  let ((a, b), flag) := x
  if flag then
    let h := lanesFma a hInit b
    { h := h, a := List.replicate 128 0, b := h, out := st.out ++ [h] }
  else
    let h := lanesFma a st.h b
    { h := h, a := lanes2 f32Mul st.a a, b := lanesFma a st.b b, out := st.out ++ [h] }

/-- COMBINE (R158): carries into the chunks, and the final carry. -/
def combine (carry : List Word) : List (List Word × List Word) → List (List Word) × List Word
  | [] => ([], carry)
  | (a, b) :: r =>
    let (outs, fin) := combine (lanesFma a carry b) r
    (carry :: outs, fin)

/-- ESCAN (R158). -/
def startEscan (s : State) (n : Nat) (e : QEntry) : Except CmdFault State := do
  let c := coreOf s n
  let ctl := elCtl e
  let isCombine := bitOf ctl 20
  let tf := descOf (getT c (bits ctl 19 16))
  let tc := descOf (getT c (bits ctl 15 12))
  let k := e.v2
  let a := elOpnd c e (elSa e)
  let b := elOpnd c e (elSb e)
  let d := elOpnd c e (elDst e)
  let hasDst := elDst e != 0x1F
  let tco : Opnd := .rows tc 4
  need (isCombine || (spadDescOk tf && decide (k ≤ tf.rowBytes) && rowsInside tf 0 1)) .tileFault
  need (tc.format == 3) .tileFault
  let run (view : List Host.Cell) (c : Core) : Core :=
    let vec (o : Opnd) (r : Nat) := opndVec view c o false r
    let xs := (span 0 k).map fun r => (vec a r, vec b r)
    if isCombine then
      let (outs, fin) := combine (vec tco 0) xs
      opndPut (if hasDst then putVecs c d false outs else c) tco false 2 fin
    else
      let flags := (span 0 k).map fun r => (Memory.read view (rowAddr tf 0 + r)).toNat % 2 == 1
      let st := (xs.zip flags).foldl (scanStep (vec tco 1))
        { h := vec tco 0, a := List.replicate 128 f32One, b := List.replicate 128 0 }
      let c1 := if hasDst then putVecs c d false st.out else c
      opndPut (opndPut (opndPut c1 tco false 2 st.h) tco false 3 st.a) tco false 4 st.b
  elRun s n [(a, k, false), (b, k, false), (tco, if isCombine then 1 else 2, false)]
    ((tco, if isCombine then 3 else 5, false) :: if hasDst then [(d, k, false)] else []) run
    (if isCombine then [] else [(rowAddr tf 0, k)])

/-! ### ERED -/

/-- Cut a list of results into rows of 128 lanes, the last filled with 0 (R159). -/
def intoRows (l : List Word) (rows : Nat) : List (List Word) :=
  (span 0 rows).map fun r => (span 0 128).map fun j => l.getD (128 * r + j) 0

/-- ERED (R159). -/
def startEred (s : State) (n : Nat) (e : QEntry) : Except CmdFault State :=
  let c := coreOf s n
  let ctl := elCtl e
  let op := bits ctl 20 18
  let axis := bitOf ctl 17
  let i32 := bitOf ctl 16
  let k := e.v2
  let a := elOpnd c e (elSa e)
  let d := elOpnd c e (elDst e)
  let out32 := i32 || op == 3
  let rows := if axis then 1 else ceilDiv k 128
  elRun s n [(a, k, i32)] [(d, rows, out32)] fun view c =>
    let vs := (span 0 k).map fun r => opndVec view c a i32 r
    let res : List Word :=
      if axis then
        (span 0 128).map fun j =>
          let col := vs.map fun v => v.getD j 0
          if op = 3 then argmax i32 col else inOrder (redOp op i32) (col.map (redIn op i32))
      else
        vs.map fun v => if op = 3 then argmax i32 v else pairwise (redOp op i32) (v.map (redIn op i32))
    putVecs c d out32 (intoRows res rows)

/-! ### WQUANT -/

/-- Is a F32 finite? -/
def f32Fin (w : Word) : Bool := f32Exp w != 255

/-- R58, R160: the statistics of the real elements of one channel: largest block range, minimum, maximum.
Elements that are not finite have none stated: a free value. -/
def wStats (ctr : Nat) (ws : List Word) : Word × Word × Word :=
  if ws.all f32Fin then
    let blocks := (span 0 (ceilDiv ws.length 32)).map fun b => ((ws.drop (32 * b)).take 32).map f32Q
    let ranges := blocks.map fun l => Q.sub (qMaxZ l) (qMinZ l)
    let mn := ws.tail.foldl (fun a b => if f32Lt b a then b else a) (ws.headD 0)
    let mx := ws.tail.foldl (fun a b => if f32Lt a b then b else a) (ws.headD 0)
    (f32Of (qMaxZ ranges), f32Canon mn, f32Canon mx)
  else (Config.freeWord (3 * ctr), Config.freeWord (3 * ctr + 1), Config.freeWord (3 * ctr + 2))

/-- WQUANT RANGE (R160). -/
def startWquantRange (s : State) (n : Nat) (e : QEntry) : Except CmdFault State :=
  let c := coreOf s n
  let ctl := elCtl e
  let cont := bitOf ctl 18
  let k := e.v2
  let a := elOpnd c e (elSa e)
  let d := elOpnd c e (elDst e)
  if k > (if bitOf ctl 19 then 256 else 128) then faultOf .illegalInstr
  else
    elRun s n ((a, k, false) :: if cont then [(d, 3, false)] else []) [(d, 3, false)] fun view c =>
      let vs := (span 0 k).map fun r => opndVec view c a false r
      let st := (span 0 128).map fun j => wStats (128 * s.freeCtr + j) (vs.map fun v => v.getD j 0)
      let old (r : Nat) := opndVec view c d false r
      let merge (isMax : Bool) (x y : List Word) := if cont then lanes2 (f32Sel isMax) x y else x
      putVecs c d false [merge true (st.map fun x => x.1) (old 0), merge false (st.map fun x => x.2.1) (old 1),
        merge true (st.map fun x => x.2.2) (old 2)]

/-- What ENCODE makes of one channel: per block zero point, shift and codes, the scale, the constant flag, and
the codes that clamp changed. -/
structure WChan where
  blocks : List EncBlock
  scale : Word
  const : Bool
  clamped : Nat
  deriving DecidableEq, Repr

/-- How many codes of a block the clamp of R58 changed. -/
def clampedIn (w8 : Bool) (s : Word) (b : EncBlock) (ws : List Word) : Nat :=
  let l : Int := if w8 then 255 else 15
  let step := Q.mul (f32Q s) (Q.pow2 b.shift)
  (ws.filter fun w => let q := rne (Q.div (f32Q w) step) + b.zp; decide (q < 0 ∨ q > l)).length

/-- R41, R58, R59, R160: encode the real elements of one channel over `nb` blocks.  Where a statistic, a weight or the scale
leaves no stated result, the codes are free. -/
def wChannel (w8 : Bool) (ctr : Nat) (range mn mx : Word) (ws : List Word) (nb : Nat) : WChan :=
  let blk (b : Nat) : List Word := (ws.drop (32 * b)).take 32
  let empty : EncBlock := ⟨0, 0, List.replicate 32 0⟩
  let known := f32Fin range && f32Fin mn && f32Fin mx
  let isConst := if known then (f32IsZero mn && f32IsZero mx) || mn == mx else Config.freeBool (40 * ctr)
  let scale :=
    if !known then Config.freeWord ctr
    else if isConst then (constEncode w8 mn 0).2
    else f32Of (Q.div (f32Q range) (Q.ofInt ((if w8 then 255 else 15) * 128 : Int)))
  let open_ := !known || (!isConst && (!f32PosNormal scale || !ws.all f32Fin))
  let enc (b : Nat) : EncBlock :=
    let l := blk b
    if l.isEmpty then empty
    else if open_ then
      ⟨Config.freeNat (40 * (ctr + b)) % (if w8 then 256 else 16), Config.freeNat (40 * (ctr + b) + 1) % 8,
        (span 0 32).map fun i => Config.freeNat (40 * (ctr + b) + 2 + i) % (if w8 then 256 else 16)⟩
    else if isConst then padBlock (constEncode w8 mn l.length).1
    else padBlock (wEncodeBlock w8 scale l)
  let bs := (span 0 nb).map enc
  let cl := if open_ then Config.freeNat (40 * ctr + 39) % (ws.length + 1)
    else if isConst then 0
    else ((span 0 nb).map fun b => if (blk b).isEmpty then 0 else clampedIn w8 scale (enc b) (blk b)).foldl (· + ·) 0
  { blocks := bs, scale := scale, const := isConst, clamped := cl }

/-- R71: the operand of 128 channels: codes, then block metadata. -/
def operandBytes (w8 : Bool) (chs : List WChan) : List Byte :=
  let codes (ch : WChan) : List Nat := ch.blocks.flatMap EncBlock.codes
  let pack (l : List Nat) : List Byte :=
    if w8 then l.map (BitVec.ofNat 8)
    else (span 0 128).map fun i => BitVec.ofNat 8 (l.getD (2 * i) 0 + 16 * l.getD (2 * i + 1) 0)
  let entry (b : EncBlock) : List Byte :=
    if w8 then leBytes 2 (b.zp + 256 * b.shift) else leBytes 1 (b.zp + 16 * b.shift)
  chs.flatMap (fun ch => pack (codes ch)) ++ chs.flatMap fun ch => ch.blocks.flatMap entry

/-- WQUANT ENCODE (R160). -/
def startWquantEncode (s : State) (n : Nat) (e : QEntry) : Except CmdFault State := do
  let c := coreOf s n
  let ctl := elCtl e
  let w8 := !bitOf ctl 19
  let slot := bits ctl 17 12
  let slab := if w8 then 128 else 256
  let k := e.v2
  let a := elOpnd c e (elSa e)
  let b := elOpnd c e (elSb e)
  let d := descOf (getT c (elDst e))
  need (decide (k ≤ slab)) .illegalInstr
  need (spadDescOk d && decide (d.base + 0x4800 ≤ spadSize)) .tileFault
  elRun s n [(a, k, false), (b, 3, false)] [] fun view c =>
    let vs := (span 0 k).map fun r => opndVec view c a false r
    let stat (r : Nat) := opndVec view c b false r
    let r0 := stat 0
    let r1 := stat 1
    let r2 := stat 2
    let chs := (span 0 128).map fun j =>
      wChannel w8 (1024 * (128 * s.freeCtr + j)) (r0.getD j 0) (r1.getD j 0) (r2.getD j 0)
        (vs.map fun v => v.getD j 0) (slab / 32)
    let c1 := spadWrite c d.base (operandBytes w8 chs)
    let c2 := spadWrite c1 (d.base + 0x4400) (chs.flatMap fun ch => leBytes 4 ch.scale.toNat)
    let c3 := spadWrite c2 (d.base + 0x4600) (chs.flatMap fun ch => leBytes 4 (b2n ch.const))
    satCount c3 slot (chs.foldl (fun m ch => m + ch.clamped) 0) (128 * slab) 0

/-- Any element entry starts; a vector count above 1,024 is out of range (R137), one of 0 does nothing (R146). -/
def startElement (s : State) (n : Nat) (e : QEntry) : Except CmdFault State :=
  if 1024 < e.v2 then faultOf .illegalInstr
  else if e.v2 = 0 then .ok s
  else match e.op with
  | .eop => startEop s n e
  | .erq => startErq s n e
  | .esmx => startEsmx s n e
  | .enorm => startEnorm s n e
  | .egate => startEgate s n e
  | .escan => startEscan s n e
  | .ered => startEred s n e
  | _ => if bitOf (elCtl e) 20 then startWquantEncode s n e else startWquantRange s n e

end Sys2Proof.Machine
end

