-- ==== Sys2Proof/Machine/Stream.lean ====
section
/-! DEFINITION. Sys2Proof/Machine/Stream.lean: CSEND, CRECV, LSEND and LRECV (R168 to R172) as entries of the DMA queues. -/

namespace Sys2Proof.Machine

/-- First row of a stream message (R168). -/
def strRow (e : QEntry) : Nat := plus32 e.v1 (fld e.w 33 22)
/-- Rows of a stream message. -/
def strRows (e : QEntry) : Nat := fld e.w 21 10 + 1
/-- Channel or message tag. -/
def strCh (e : QEntry) : Nat := fld e.w 42 40
/-- The peer core of CSEND and CRECV. -/
def strPeer (e : QEntry) : Nat := e.v0 % 32
/-- The route of LSEND and LRECV. -/
def strRoute (e : QEntry) : Nat := e.v0 % 16
/-- T[t] of a stream word. -/
def strDesc (c : Core) (e : QEntry) : Desc := descOf (getT c (fld e.w 52 49))
/-- Length of a stream message (R168). -/
def strLen (c : Core) (e : QEntry) : Nat := strRows e * (strDesc c e).rowBytes

/-- The scratchpad pieces of a stream message. -/
def strPieces (c : Core) (e : QEntry) : List (Nat × Nat) :=
  let d := strDesc c e
  (span (strRow e) (strRows e)).map fun j => (rowAddr d j, d.rowBytes)

/-- What a stream entry checks as it leaves its queue (R112, R168, R169). -/
def startStream (s : State) (n : Nat) (e : QEntry) : Except CmdFault State := do
  let c := coreOf s n
  let d := strDesc c e
  need (spadDescOk d && rowsInside d (strRow e) (strRows e) && decide (strLen c e ≤ 65536)) .tileFault
  match e.op with
  | .csend | .crecv => need (corePart s (strPeer e) == corePart s n) .tileFault
  | _ => need ((SMap.get? s.routes (16 * c.cmdQueue.toNat + strRoute e)).isSome) .tileFault
  return s

/-- The bytes that a send reads now, and the core after it (R67, R78). -/
def strRead (s : State) (n : Nat) (e : QEntry) : Core × Bool × List Byte :=
  let c := coreOf s n
  let ps := strPieces c e
  let (c1, bad) := spadTouch c ps
  (c1, bad, readPieces (spadView s.freeCtr c) ps)

/-- Frames of an LSEND message: 4 KiB each (R171). -/
def lsendFrames (c : Core) (e : QEntry) : Nat := ceilDiv (strLen c e) 4096

/-- The job that a frame names: that of the front device where a relay job sends it (DESIGN CHOICE, log 37). -/
def sendJob (s : State) (j : Nat) : Nat := ((SMap.get? s.k.jobs j).bind Job.relay).elim j RelayOf.job

/-- The DATA frame k of a message of core n (R363, R171): check tag and data. -/
def dataFrame (s : State) (n : Nat) (e : QEntry) (r : Route) (data : List Byte) (k : Nat) : FabFrame :=
  let c := coreOf s n
  let part := (data.drop (4096 * k)).take 4096
  { type := 0x01, dest := r.dest, src := s.fab.addr, destQueue := r.destQueue, srcQueue := c.cmdQueue.toNat,
    part := corePart s n, gen := SMap.getD s.mm.keyGen (corePart s n) 0 % 2, e2e := corePart s n != 0, tag := strCh e, frameIx := k, frames := lsendFrames c e,
    job := sendJob s ((SMap.get? s.runs n).elim 0 Run.job), command := c.cmdId.toNat, sendIx := e.bank,
    payload := tagBytes part (strDesc c e).format 0x04 n k ++ part }

/-- LSEND sends as many further frames as it has credits (R171); v2 counts the frames sent. -/
def lsendMore (s : State) (n : Nat) (e : QEntry) : State × QEntry :=
  let c := coreOf s n
  let key := 16 * c.cmdQueue.toNat + strRoute e
  match SMap.get? s.routes key with
  | none => (s, e)
  | some r =>
    let k := min (min r.credits (fabRoom s r.dest)) (lsendFrames c e - e.v2)
    let (c1, _, data) := strRead s n e
    let out := (span e.v2 k).map (dataFrame s n e r data)
    let s1 := nextFree (setCore s n c1)
    (fabSendAll { s1 with routes := SMap.set s1.routes key { r with credits := r.credits - k } } out,
      { e with v2 := e.v2 + k })

/-- R172: the oldest message on the route of an LRECV with its tag that the command has not received yet. -/
def lrecvMsg (s : State) (n : Nat) (e : QEntry) : Option InMsg :=
  let c := coreOf s n
  match SMap.get? s.routes (16 * c.cmdQueue.toNat + strRoute e) with
  | none => none
  | some r => s.inMsgs.find? fun m =>
      m.queue == c.cmdQueue.toNat && m.src == r.dest && m.srcQueue == r.destQueue && m.tag == strCh e
        && m.taken.isNone

/-- The completion of an LRECV in flight; none while no message has arrived (R172). -/
def completeLrecv (s : State) (n : Nat) (e : QEntry) : Option (Except CmdFault State) :=
  match lrecvMsg s n e with
  | none => none
  | some m =>
    let c := coreOf s n
    if m.data.length ≠ strLen c e then some (faultOf .tileFormat)
    else
      let s1 := setCore s n (writePieces c m.data (strPieces c e))
      some (.ok { s1 with inMsgs := s1.inMsgs.map fun x => if x = m then { x with taken := some n } else x })

end Sys2Proof.Machine
end

