-- ==== Sys2Proof/Machine/Queue.lean ====
section
/-! DEFINITION. Sys2Proof/Machine/Queue.lean: the issue queues and the scoreboard (R88 to R92, R136, R137), starting and
completing entries. -/

namespace Sys2Proof.Machine

/-! ### What an entry reads and writes (R89) -/

/-- Descriptor registers and row windows that an entry reads and writes. -/
structure Regions where
  rdT : List Nat := []
  wrT : List Nat := []
  rdW : List (Nat × Nat) := []
  wrW : List (Nat × Nat) := []
  deriving DecidableEq, Repr

/-- An element operand specifier as a source of k rows or as a destination. -/
def specRegion (e : QEntry) (spec k : Nat) : List Nat × List (Nat × Nat) :=
  if spec < 16 then ([spec], [])
  else if spec = 0x10 then ([], [(e.v0, k)])
  else if spec = 0x11 then ([], [(e.v1, k)])
  else ([], [])

/-- Regions of an element entry with its sources (specifier, rows) and destination. -/
def elRegions (e : QEntry) (srcs : List (Nat × Nat)) (dst : List (Nat × Nat)) (rdT wrT : List Nat)
    (rdW wrW : List (Nat × Nat)) : Regions :=
  { rdT := rdT ++ srcs.flatMap fun x => (specRegion e x.1 x.2).1,
    wrT := wrT ++ dst.flatMap fun x => (specRegion e x.1 x.2).1,
    rdW := rdW ++ srcs.flatMap fun x => (specRegion e x.1 x.2).2,
    wrW := wrW ++ dst.flatMap fun x => (specRegion e x.1 x.2).2 }

/-- R89 and the instructions' own words: the regions of an entry. -/
def regions (e : QEntry) : Regions :=
  let f := fld e.w
  let ctl := elCtl e
  let sa := elSa e
  let sb := elSb e
  let dst := elDst e
  let k := e.v2
  match e.op with
  | .tld => { wrT := [f 52 49], rdT := [f 48 45] }
  | .tst => { rdT := [f 52 49], wrT := [f 48 45] }
  | .tpf => { rdT := [f 52 49] }
  | .tchk => { rdT := [f 48 45] }
  | .csend | .lsend => { rdT := [f 52 49] }
  | .crecv | .lrecv => { wrT := [f 52 49] }
  | .mwl => { rdT := f 50 47 :: if mwlFmt e = 6 then [] else [f 46 43] }
  | .mma | .mmas => { rdT := [f 53 50], wrW := [(mmaRow e, mmaCount e)] }
  | .macc =>
    let w := [(maccRow e, maccCount e)]
    match f 53 51 with
    | 3 => { rdW := if e.mrk then [] else w, wrT := [f 49 46] }
    | 4 => { wrW := w, rdT := [f 49 46] }
    | _ => { wrW := w }
  | .kapp | .kseal | .kmap => { rdT := [f 52 49], wrT := [f 48 45] }
  | .eop =>
    elRegions e ((sa, k) :: if sb = 0x1F then [] else [(sb, if bitOf ctl 13 then 1 else k)]) [(dst, k)] [] [] [] []
  | .erq => elRegions e [(sa, k), (sb, 1)] [(dst, k), (if bitOf ctl 14 then sa else 0x1F, k)] [] [] [] []
  | .esmx => elRegions e [(sa, k), (sb, 2)] [(dst, k)] [] [bits ctl 14 11] [] [(e.v1, k)]
  | .enorm => elRegions e [(sa, k), (sb, 2 * (bits ctl 20 15 + 1))] [(dst, k)] [] [] [] []
  | .egate =>
    elRegions e [(sa, if bits ctl 20 19 = 2 then k else 4 * k), (sb, 8)] [(dst, k)] [] [] [] [(e.v1, k)]
  | .escan => elRegions e [(sa, k), (sb, k)] [(dst, k)] [bits ctl 19 16] [bits ctl 15 12] [] []
  | .ered => elRegions e [(sa, k)] [(dst, if bitOf ctl 17 then 1 else ceilDiv k 128)] [] [] [] []
  | .wquant => elRegions e [(sa, k), (if bitOf ctl 20 then sb else 0x1F, 3)] [(dst, 3)] [] [] [] []

/-- Do two lists of registers meet? -/
def regsMeet (a b : List Nat) : Bool := a.any fun x => b.contains x
/-- Do two lists of row windows meet (R89: by row range)? -/
def winsMeet (a b : List (Nat × Nat)) : Bool :=
  a.any fun x => b.any fun y => decide (x.1 < y.1 + y.2) && decide (y.1 < x.1 + x.2)

/-- R89: does one of two instructions write a region that the other reads or writes? -/
def conflicts (a b : Regions) : Bool :=
  regsMeet a.wrT (b.rdT ++ b.wrT) || regsMeet b.wrT a.rdT
    || winsMeet a.wrW (b.rdW ++ b.wrW) || winsMeet b.wrW a.rdW

/-- The descriptor registers that an entry names (R90). -/
def namesT (e : QEntry) (k : Nat) : Bool := (regions e).rdT.contains k || (regions e).wrT.contains k

/-- Every entry of a core that has been issued and not completed. -/
def live (c : Core) : List QEntry := queued c ++ inFlight c

/-! ### The four queues -/

/-- The queue of an entry (R136). -/
def queueOf (e : QEntry) : QueueName :=
  match e.op with
  | .mwl | .mma | .mmas | .macc | .kapp | .kseal | .kmap => .matrix
  | .eop | .erq | .esmx | .enorm | .egate | .escan | .ered | .wquant => .element
  | _ => if fld e.w 53 53 = 1 then .dma1 else .dma0

/-- The waiting entries of a queue. -/
def queueIn (c : Core) : QueueName → List QEntry
  | .matrix => c.mq | .element => c.eq | .dma0 => c.d0 | .dma1 => c.d1
/-- The entries of a queue in flight. -/
def flightIn (c : Core) : QueueName → List QEntry
  | .matrix => c.mIn | .element => c.eIn | .dma0 => c.d0In | .dma1 => c.d1In
/-- Replace the waiting entries of a queue. -/
def setQueue (c : Core) (q : QueueName) (l : List QEntry) : Core :=
  match q with
  | .matrix => { c with mq := l } | .element => { c with eq := l }
  | .dma0 => { c with d0 := l } | .dma1 => { c with d1 := l }
/-- Replace the entries of a queue in flight. -/
def setFlight (c : Core) (q : QueueName) (l : List QEntry) : Core :=
  match q with
  | .matrix => { c with mIn := l } | .element => { c with eIn := l }
  | .dma0 => { c with d0In := l } | .dma1 => { c with d1In := l }

/-- Is a stream entry in flight that has not moved its data (R169: its engine starts nothing later)? -/
def blocksEngine (e : QEntry) : Bool :=
  match e.op with
  | .csend | .crecv | .lsend | .lrecv => !e.mrk
  | _ => false

/-- Waits of single units: eight transfers per engine (chapter 04), the weight banks (R80), the seal unit (R189). -/
def unitFree (c : Core) (e : QEntry) : Bool :=
  match queueOf e with
  | .dma0 => decide (c.d0In.length < 8) && !c.d0In.any blocksEngine
  | .dma1 => decide (c.d1In.length < 8) && !c.d1In.any blocksEngine
  | .element => true
  | .matrix =>
    !(c.mIn.any fun x => x.op == .kseal) && match e.op with
    | .mwl => !(c.mIn.any fun x => (x.op == .mma || x.op == .mmas) && x.bank == e.bank)
    | .mma | .mmas => !(c.mIn.any fun x => x.op == .mwl && x.bank == e.bank)
    | _ => true

/-- R89: may an entry start: no older instruction that has not completed conflicts with it? -/
def mayStart (c : Core) (e : QEntry) : Bool :=
  unitFree c e && (live c).all fun o => !(decide (o.seq < e.seq)) || !conflicts (regions o) (regions e)

/-- What an entry does as it leaves its queue: the state, and a fault if it wrote before it faulted. -/
def startOp (s : State) (n : Nat) (e : QEntry) : Started :=
  let plain (r : Except CmdFault State) : Started := r.map fun t => (t, none)
  match e.op with
  | .tld => plain (startTld s n e)
  | .tst => plain (startTst s n e)
  | .tpf => plain (startTpf s n e)
  | .tchk => plain (startTchk s n e)
  | .csend | .crecv | .lsend | .lrecv => plain (startStream s n e)
  | .mwl => plain (startMwl s n e)
  | .mma | .mmas => startMma s n e
  | .macc => plain (startMacc s n e)
  | .kapp => plain (startKapp s n e)
  | .kseal => plain (startKseal s n e)
  | .kmap => plain (startKmap s n e)
  | _ => plain (startElement s n e)

/-- The head of queue q leaves it: it starts, or faults. -/
def startHead (s : State) (n : Nat) (q : QueueName) (e : QEntry) : State :=
  let c := coreOf s n
  let s1 := setCore s n (setQueue c q (queueIn c q).tail)
  match startOp s1 n e with
  | .error f => faultCmd s1 n f e.pc
  | .ok (s2, f) =>
    let old := changedBytes c.spad (coreOf s2 n).spad
    let sent := if e.op = .lsend then lsendMore s2 n e else (s2, e)
    let s3 := onCore sent.1 n fun c => setFlight c q (flightIn c q ++ [{ sent.2 with old := old }])
    match f with
    | none => s3
    | some f => faultCmd s3 n f e.pc

/-- Start the head of a queue if it may start. -/
def tryStart (s : State) (n : Nat) (q : QueueName) : State :=
  let c := coreOf s n
  match queueIn c q with
  | e :: _ => if (c.st == .running || c.st == .stopping) && mayStart c e then startHead s n q e else s
  | [] => s

/-- Depth of an issue queue (R88). -/
def queueDepth : Nat := 16

/-- Place an entry in its queue; the caller has checked that there is room. -/
def enqueue (c : Core) (e : QEntry) : Core :=
  let q := queueOf e
  let e1 := { e with seq := c.seq }
  { setQueue c q (queueIn c q ++ [e1]) with seq := c.seq + 1 }

/-- QUEUE_ENTRY_START. -/
def execQueueEntryStart (core : Fin 32) (q : QueueName) (s : State) : Host.Outcome State Fault Refusal :=
  .next (tryStart s core.val q)

/-! ### Completion -/

/-- The oldest entry of a queue in flight leaves it. -/
def retire (s : State) (n : Nat) (q : QueueName) : State :=
  finish (onCore s n fun c => setFlight c q (flightIn c q).tail) n

/-- The completion of the oldest entry of queue q: nothing while it waits, its fault, or its effect. -/
def settle (s : State) (n : Nat) (q : QueueName) (e : QEntry) (r : Option (Except CmdFault State)) : State :=
  match r with
  | none => s
  | some (.error f) => faultCmd (onCore s n fun c => setFlight c q (flightIn c q).tail) n f e.pc
  | some (.ok t) => retire t n q

/-- R143: a CKPT has read its rows: its window is free, and it waits on engine e for the acknowledgements. -/
def ckptRead (s : State) (n : Nat) (e : QEntry) : State :=
  let q : QueueName := if fld e.w 50 50 = 1 then .dma1 else .dma0
  onCore s n fun c =>
    let c1 := setFlight c .matrix c.mIn.tail
    setFlight c1 q (flightIn c1 q ++ [{ e with mrk := true }])

/-- QUEUED_INSTRUCTION_COMPLETE: the oldest started entry of the matrix or the element queue completes. -/
def execQueuedInstructionComplete (core : Fin 32) (element : Bool) (s : State) : Host.Outcome State Fault Refusal :=
  let n := core.val
  let q : QueueName := if element then .element else .matrix
  .next (match flightIn (coreOf s n) q with
  | [] => s
  | e :: _ =>
    match e.op with
    | .kmap => settle s n q e (completeKmap s n e)
    | .macc => if fld e.w 53 51 = 3 then ckptRead s n e else retire s n q
    | _ => retire s n q)

/-- A message whose frames have all been accepted. -/
def lsendDone (c : Core) (e : QEntry) : Bool := decide (lsendFrames c e ≤ e.v2)

/-- Replace the oldest entry in flight. -/
def setOldest (s : State) (n : Nat) (q : QueueName) (e : QEntry) : State :=
  onCore s n fun c => setFlight c q (e :: (flightIn c q).tail)

/-- DMA_TRANSFER_COMPLETE: the oldest transfer of an engine completes (R92, R125 to R128, R169 to R172). -/
def execDmaTransferComplete (core : Fin 32) (engine : Fin 2) (s : State) : Host.Outcome State Fault Refusal :=
  let n := core.val
  let q : QueueName := if engine.val = 1 then .dma1 else .dma0
  .next (match flightIn (coreOf s n) q with
  | [] => s
  | e :: _ =>
    if e.discard then retire s n q
    else match e.op with
    | .tld => settle s n q e (completeTld s n e)
    | .tchk => settle s n q e (completeTchk s n e)
    | .lrecv => settle s n q e (completeLrecv s n e)
    | .csend | .crecv => if e.mrk then retire s n q else s
    | .lsend =>
      let (s1, e1) := lsendMore s n e
      if lsendDone (coreOf s1 n) e1 then retire (setOldest s1 n q e1) n q else setOldest s1 n q e1
    | _ => retire s n q)

/-! ### Stream pairs -/

/-- The oldest unpaired stream entry of an operation to a peer on a channel. -/
def oldestStream (c : Core) (op : QOp) (peer ch : Nat) : Option QEntry :=
  let l := (live c).filter fun e => e.op == op && !e.mrk && !e.discard && strPeer e == peer && strCh e == ch
  l.foldl (fun b e => match b with
    | some x => if e.seq < x.seq then some e else b
    | none => some e) none

/-- Mark a stream entry in flight as done. -/
def markDone (s : State) (n : Nat) (e : QEntry) : State :=
  let mk (l : List QEntry) := l.map fun x => if x.seq = e.seq then { x with mrk := true } else x
  onCore s n fun c => { c with d0In := mk c.d0In, d1In := mk c.d1In }

/-- A fault of an entry of a DMA queue in flight: it leaves the queue and its command ends. -/
def faultEntry (s : State) (n : Nat) (e : QEntry) (f : CmdFault) : State :=
  let rm (l : List QEntry) := l.filter fun x => x.seq != e.seq
  faultCmd (onCore s n fun c => { c with d0In := rm c.d0In, d1In := rm c.d1In }) n f e.pc

/-- STREAM_PAIR_TRANSFER (R169): both heads are paired; lengths that differ fault both, a piece that fails its
CRC-32C faults the receiver, else the data moves. -/
def execStreamPairTransfer (a b : Fin 32) (ch : Fin 8) (crcBad : Bool) (s : State) :
    Host.Outcome State Fault Refusal :=
  let ca := coreOf s a.val
  let cb := coreOf s b.val
  .next (match oldestStream ca .csend b.val ch.val, oldestStream cb .crecv a.val ch.val with
  | some x, some y =>
    if (inFlight ca).contains x && (inFlight cb).contains y then
      if strLen ca x ≠ strLen cb y then
        faultEntry (faultEntry s a.val x { bit := .tileFormat }) b.val y { bit := .tileFormat }
      else
        let (ca1, bad, data) := strRead s a.val x
        if bad then faultEntry s a.val x { bit := .eccUncorr }
        else
          let s1 := markDone (nextFree (setCore s a.val ca1)) a.val x
          if crcBad then faultEntry s1 b.val y { bit := .checkMismatch }
          else markDone (onCore s1 b.val fun c => writePieces c data (strPieces c y)) b.val y
    else s
  | _, _ => s)

end Sys2Proof.Machine
end

