-- ==== Sys2Proof/Machine/Sectors.lean ====
section
/-! DEFINITION. Sys2Proof/Machine/Sectors.lean: rotations, sectors and queue settings as they come into force (R303 to R305,
R310, R342, R554). -/

namespace Sys2Proof.Machine

/-- SCHED_QUEUE[q]. -/
def schedQueueReg (q : Nat) : Nat := schedRegBase + 0x4000 + 8 * q

/-- Write a queue's parameters into SCHED_QUEUE (R326). -/
def syncQueue (s : State) (q : Nat) : State :=
  match queueAt s q with
  | some v =>
    rset (rset s (schedQueueReg q) (word (2 ^ 31 + b2n v.demoted * 2 ^ 30 + v.cls * 2 ^ 28 + v.prio * 2 ^ 25 + v.part)))
      (schedQueueReg q + 4) (word v.thresh)
  | none => rset (rset s (schedQueueReg q) (regReset (schedQueueReg q))) (schedQueueReg q + 4) (regReset (schedQueueReg q + 4))

/-- R294: Keeper firmware creates the system queues at start-up; they have no model of a host. -/
def systemQueues (s : State) : State :=
  (span 0 16).foldl (fun s q =>
    if (queueAt s q).isSome then s
    else syncQueue (onK s fun k => { k with queues := SMap.set k.queues q { part := 0, cls := 2, model := 0xFFFFFFFF } }) q) s

/-- R554: the SCHED block posts a sector message while sector_irq is 1. -/
def sectorMsg (s : State) (type p ix queue t reason : Nat) : State :=
  if rbit s (schedRegBase + 4) 0 then
    hwPost s .sched 5 [word (type * 2 ^ 16), word (ix + p * 2 ^ 16), word queue, word t, word (t / 2 ^ 32), word reason, 0, 0]
  else s

/-- R305, R312: a sector closes; donations in it end. -/
def closeSector (s : State) (o : OpenSector) (t reason : Nat) : State :=
  let q := (sectorOf s o).queue
  let s1 := onSched s fun h => { h with open_ := h.open_.filter fun y => y != o }
  sectorMsg { s1 with donations := s1.donations.filter fun d => d.sector != o.ix } 2 o.part o.ix q t reason

/-- R305: a release_idle sector closes once its queue has no ready and no running command on its cores. -/
def closeIdle (s : State) (p : Nat) : State :=
  (openSectors s p).foldl (fun s o =>
    let x := sectorOf s o
    let busy := s.runs.any fun r => r.2.queue == x.queue && bitOf x.coreSet r.1
    if x.releaseIdle && !busy && !hasReady s x.queue then closeSector s o s.tick 2 else s) s

/-- R312: a donation ends once the owner queue has no ready command. -/
def endIdleDonations (s : State) : State := { s with donations := s.donations.filter fun d => hasReady s d.owner }

/-- R300, R305, R312: what Keeper does whenever the work of a partition changes. -/
def reschedule (s : State) (p : Nat) : State :=
  endIdleDonations (dispatchPart (closeIdle (endIdleDonations s) p) p)

/-! ### Tables (R303, R304) -/

/-- Complete the SCHEDULE_SET requests that wait (R342). -/
def endSchedules (s : State) (status : Nat) (l : List (Nat × Nat)) : State :=
  l.foldl (fun s w => complete s w.1 status (if status = 0 then w.2 else 0)) s

/-- R304: at a boundary an armed table is checked and installed, or refused. -/
def takeTable (s : State) (p : Nat) : State :=
  let r := rotOf s p
  if !r.armed then s
  else if shadowOk s p then
    endSchedules (setRot s p { r with armed := false, waiting := [], period := r.shPeriod, count := r.shCount,
                                      first := r.shFirst, table := shTable s r.shFirst r.shCount }) 0 r.waiting
  else
    let s1 := setRot s p { r with armed := false, waiting := [] }
    let s2 := rsetBits s1 schedRegBase p p 1
    endSchedules (raiseEvent s2 0x0005 0xFFFF p) 0x001B r.waiting

/-- R303, R324: an arming write; without a period in force it is the boundary itself. -/
def armTable (s : State) (p : Nat) : State :=
  let s1 := setRot s p { rotOf s p with armed := true }
  if (rotOf s p).period ≠ 0 then s1
  else
    let s2 := takeTable s1 p
    if (rotOf s2 p).period = 0 then s2 else setRot s2 p { rotOf s2 p with lastStart := s.tick, opened := [] }

/-- R295, R310, R342: a queue's settings take effect and their requests complete. -/
def applySettings (s : State) (q : Nat) : State :=
  match queueAt s q with
  | none => s
  | some v =>
    let put (v : Queue) (x : QSet) : Queue :=
      { v with cls := if bitOf x.mask 0 then x.cls else v.cls,
               demoted := if bitOf x.mask 0 then false else v.demoted,
               prio := if bitOf x.mask 1 then x.prio else v.prio,
               depth := if bitOf x.mask 2 then x.depth else v.depth,
               thresh := if bitOf x.mask 3 then x.thresh else v.thresh }
    let s1 := syncQueue (modQueue s q fun v => { v.pend.foldl put v with pend := [] }) q
    v.pend.foldl (fun s x => complete s x.handle 0) s1

/-- The queues of a partition. -/
def queuesOf (s : State) (p : Nat) : List Nat := (s.k.queues.filter fun q => q.2.part == p).map Prod.fst

/-- R305: what happens at a rotation start, after sectors that end then have closed. -/
def startRotation (s : State) (p : Nat) : State :=
  let t := (rotOf s p).lastStart + (rotOf s p).period * schedUnit
  let s1 := (openSectors s p).foldl (fun s o => closeSector s o (min t (closeTick s o)) 1) s
  let s2 := takeTable s1 p
  let s3 := setRot s2 p { rotOf s2 p with lastStart := t, opened := [] }
  reschedule ((queuesOf s3 p).foldl applySettings s3) p

/-- ROTATION_START: partition p's period has elapsed. -/
def execRotationStart (p : Fin 9) (s : State) : Host.Outcome State Fault Refusal :=
  let r := rotOf s p.val
  .next (if r.period ≠ 0 ∧ r.lastStart + r.period * schedUnit ≤ s.tick then startRotation s p.val else s)

/-- A write of SCHED_ROT[p] word 1 (R303, R324). -/
def rotWrite (s : State) (p : Nat) (v : Word) : State :=
  armTable (setRot s p { rotOf s p with shCount := bits v.toNat 22 16, shFirst := bits v.toNat 8 0 }) p

/-- SCHED_TABLE_ARM. -/
def execSchedTableArm (by_ : Req) (p : Fin 9) (v : Word) (s : State) : Host.Outcome State Fault Refusal :=
  .next (mayWrite s by_ .schedRegs fun s => rotWrite s p.val v)

/-! ### Sectors -/

/-- R310: do the sectors of a queue close at their start: it was demoted before this rotation? -/
def sectorsOff (s : State) (p queue : Nat) : Bool :=
  match queueAt s queue with
  | some q => q.demoted && decide (q.demotedAt < (rotOf s p).lastStart)
  | none => false

/-- R309: a sector opens on the cores of commands that run. -/
def noteOpened (s : State) (x : Sector) (ix t : Nat) : State :=
  { s with runs := s.runs.map fun r =>
      if bitOf x.coreSet r.1 then (r.1, { r.2 with opened := r.2.opened ++ [(ix, t, x.guardUs)] }) else r }

/-- R305, R310: sector ix of partition p opens. -/
def openSector (s : State) (p ix : Nat) : State :=
  let r := rotOf s p
  let x := SMap.getD r.table ix {}
  let t := r.lastStart + x.start * schedUnit
  let o : OpenSector := { part := p, ix := ix, openedAt := t }
  let s1 := onSched (setRot (noteOpened s x ix t) p { r with opened := ix :: r.opened }) fun h => { h with open_ := h.open_ ++ [o] }
  let s2 := sectorMsg s1 1 p ix x.queue t 0
  reschedule (if sectorsOff s2 p x.queue then closeSector s2 o t 2 else s2) p

/-- SECTOR_OPEN: a valid sector's start has come; once closed it does not reopen within the rotation. -/
def execSectorOpen (p : Fin 9) (ix : Fin 512) (s : State) : Host.Outcome State Fault Refusal :=
  let r := rotOf s p.val
  let x := SMap.getD r.table ix.val {}
  let t := r.lastStart + x.start * schedUnit
  .next (if r.period ≠ 0 ∧ x.valid ∧ !r.opened.contains ix.val ∧ t ≤ s.tick ∧ s.tick < t + x.length * schedUnit then
    openSector s p.val ix.val else s)

/-- SECTOR_CLOSE: an open sector has reached its length. -/
def execSectorClose (p : Fin 9) (ix : Fin 512) (s : State) : Host.Outcome State Fault Refusal :=
  .next (match (openSectors s p.val).find? fun o => o.ix == ix.val with
  | some o => if closeTick s o ≤ s.tick then reschedule (closeSector s o (closeTick s o) 1) p.val else s
  | none => s)

end Sys2Proof.Machine
end

