-- ==== Sys2Proof/Machine/Slots.lean ====
section
/-! DEFINITION. Sys2Proof/Machine/Slots.lean: sessions' staging slots and sealed pages as Keeper keeps them (R180, R181, R190,
R193, R194, R199, R201, R275). -/

namespace Sys2Proof.Machine

/-- The key of a model. -/
def modelKey (part m : Nat) : Nat := 65536 * part + m

/-- The model under a key. -/
def modelAt (s : State) (m : Nat) : Option Model := SMap.get? s.k.models m
/-- The session under an index. -/
def sessionAt (s : State) (n : Nat) : Option Session := SMap.get? s.k.sessions n

/-- Positions that one page holds: 128 in KV8, 256 in KV4 (R179, R185). -/
def pagePositions (fmt : Nat) : Nat := if fmt = 1 then 256 else 128

/-- Layers × KV heads of a model: K of R193. -/
def headCount (m : Model) : Nat := m.layers * m.kvHeads

/-- Z of R193: a head part with the formats that the model permits. -/
def headPart (m : Model) : Nat := if bitOf m.flags 0 || m.sealFmt == 1 then 0x24000 else 0x14000

/-! ### HEAD_STRIPED addresses (R193) -/

/-- F: page places of one layer and head. -/
def pagePlaces (m : Model) : Nat := m.cMax / 128
/-- A: the area of one session, one k. -/
def stripedArea (m : Model) : Nat := pagePlaces m * 0x8200 + headPart m
/-- Bytes of one stripe. -/
def stripeBytes (m : Model) : Nat := m.sMax * ceilDiv (headCount m) m.stripes.length * stripedArea m
/-- area(s, k). -/
def areaOf (m : Model) (place k : Nat) : Nat :=
  m.stripes.getD (k % m.stripes.length) 0
    + (place * ceilDiv (headCount m) m.stripes.length + k / m.stripes.length) * stripedArea m
/-- page(s, k, i). -/
def stripedPage (m : Model) (place k ix : Nat) : Nat := areaOf m place k + ix * 0x8200

/-- The head part of layer and head k of a session. -/
def slotAddr (m : Model) (v : Session) (k : Nat) : Nat :=
  if m.layout = 0 then areaOf m v.place k + pagePlaces m * 0x8200 else v.slots + k * headPart m

/-! ### Pages of a session -/

/-- The pages of a session, by their keys. -/
def pagesOf (s : State) (n : Nat) : List (Nat × Page) := s.mm.pages.filter fun g => g.2.session == n
/-- How many pages layer and head k of a session has sealed. -/
def sealCount (s : State) (n k : Nat) : Nat := ((pagesOf s n).filter fun g => g.2.k == k).length
/-- The position after the last sealed one (every k seals alike). -/
def sealedEnd (s : State) (n : Nat) : Nat :=
  (pagesOf s n).foldl (fun b g => if g.2.k = 0 then max b (g.2.firstPos + pagePositions g.2.format) else b) 0
/-- Positions in the staging slot. -/
def slotFill (s : State) (n : Nat) (v : Session) : Nat := v.len - sealedEnd s n

/-- R194: the address of the level-2 entry of page ix of head k, from the level-1 table in HBM. -/
def l2Entry (s : State) (l1 k ix : Nat) : Nat := Memory.le s.mem (l1 + 8 * k) 6 + 8 * ix

/-- The key of page ix of head k of a session. -/
def pageKey (s : State) (m : Model) (v : Session) (k ix : Nat) : Nat :=
  if m.layout = 0 then stripedPage m v.place k ix else l2Entry s v.l1 k ix

/-- The address of a page in HBM. -/
def pageAddr (key : Nat) (g : Page) : Nat := if g.striped then key else g.frame * 0x10000

/-! ### Slot headers (R181) -/

/-- The F32 scale of a tensor of a model. -/
def tensorScale (s : State) (model tensor : Nat) : Word :=
  match SMap.get? s.k.satRecs (65536 * model + tensor) with
  | some r => r.scale
  | none => Config.imageScale model tensor

/-- The saturation record of a tensor, a fresh one before its first merge. -/
def satRecOf (s : State) (model tensor : Nat) : SatRec :=
  (SMap.get? s.k.satRecs (65536 * model + tensor)).getD { scale := Config.imageScale model tensor }

/-- Scale changes of a tensor. -/
def scaleVersion (s : State) (model tensor : Nat) : Nat :=
  (SMap.get? s.k.satRecs (65536 * model + tensor)).elim 0 SatRec.version

/-- R181: the 64 bytes of the header of the slot of layer and head k. -/
def headerBytes (s : State) (n : Nat) (m : Model) (v : Session) (k : Nat) : List Byte :=
  let kt := Config.keyTensor v.model k
  let vt := Config.valueTensor v.model k
  leBytes 2 0x5354 ++ leBytes 1 v.sealFmt ++ leBytes 1 0 ++ leBytes 2 (pagePositions v.sealFmt)
    ++ leBytes 2 (k / m.kvHeads) ++ leBytes 2 (k % m.kvHeads) ++ leBytes 2 0 ++ leBytes 4 n
    ++ leBytes 4 (tensorScale s v.model kt).toNat ++ leBytes 4 (tensorScale s v.model vt).toNat
    ++ leBytes 4 (max (scaleVersion s v.model kt) (scaleVersion s v.model vt)) ++ leBytes 4 (sealCount s n k)
    ++ leBytes 32 0

/-- R181: Keeper writes the slot header tile of layer and head k with its tag; the origin of a tile that Keeper makes is
not given (a free value). -/
def writeHeader (s : State) (n : Nat) (m : Model) (v : Session) (k : Nat) : State :=
  let a := slotAddr m v k
  nextFree (writeTile s (a + 0x3000) (a + 32 * pagePositions v.sealFmt) (headerBytes s n m v k) 0x0B
    (Config.freeNat s.freeCtr % 256) 0 (2 * pagePositions v.sealFmt))

/-- Write every slot header of a session that has slots. -/
def writeHeaders (s : State) (n : Nat) : State :=
  match sessionAt s n with
  | none => s
  | some v => match modelAt s v.model with
    | none => s
    | some m =>
      if m.kvHeads = 0 ∨ v.cold ∨ (m.layout = 1 ∧ v.slots = 0) then s
      else (span 0 (headCount m)).foldl (fun s k => writeHeader s n m v k) s

/-- R199: a seal format that waits takes effect while the slot is empty. -/
def applySealFormat (s : State) (n : Nat) : State :=
  match sessionAt s n with
  | none => s
  | some v => match v.sealNext with
    | none => s
    | some f =>
      if slotFill s n v ≠ 0 then s
      else writeHeaders (modSession s n fun v => { v with sealFmt := f, sealNext := none }) n

/-! ### Commit, removal and rollback (R190, R201) -/

/-- Free a supplied page that is not committed: the frame of a PAGED session is reserved until then (R190). -/
def freeSeal (s : State) (g : SealPage) : State :=
  { s with mm := { s.mm with reserved := SMap.erase s.mm.reserved (g.addr / 0x10000) } }

/-- R190, R187: does the auxiliary tile of a supplied page pass Keeper's check? -/
def auxOk (s : State) (n : Nat) (m : Model) (v : Session) (g : SealPage) : Bool :=
  let le (o k : Nat) : Nat := Memory.le s.mem (g.addr + 0x100 + o) k
  checkTile s (g.addr + 0x100) g.addr 256 0x0A 0 == .good
    && le 0x0E 2 == le 0x0C 2 && le 2 1 == v.sealFmt && le 0x10 4 == n && le 4 2 == g.k / m.kvHeads
    && le 6 2 == g.k % m.kvHeads && le 8 4 == g.firstPos && le 0x14 4 == g.ix

/-- R190, R258: a page that passes becomes a sealed page of the session's layout. -/
def commitPage (s : State) (n : Nat) (m : Model) (v : Session) (g : SealPage) : State :=
  let key := pageKey s m v g.k g.ix
  let p : Page := { part := v.part, session := n, k := g.k, ix := g.ix, st := .resident, frame := g.addr / 0x10000,
                    format := v.sealFmt, firstPos := g.firstPos, striped := m.layout == 0, lastRef := s.tick }
  let s1 := if m.layout = 0 then s else freeSeal s g
  syncPage { s1 with mm := { s1.mm with pages := SMap.set s1.mm.pages key p } } key

/-- A page leaves the layout and is freed; the level-2 entry of a PAGED one reads 0. -/
def dropPage (s : State) (key : Nat) : State :=
  match SMap.get? s.mm.pages key with
  | none => s
  | some g =>
    let item := Item.page key
    let s1 := { s with mm := { s.mm with pages := SMap.erase s.mm.pages key,
                                         promoQ := s.mm.promoQ.filter fun p => p.item != item,
                                         promoIn := s.mm.promoIn.filter fun p => p.item != item,
                                         deepWrites := s.mm.deepWrites.erase item } }
    if g.striped then s1 else writeMem s1 key (leBytes 8 0)

/-- R201, R263: the pages of a session from a position on go, and the positions from there are ingested again. -/
def rollbackTo (s : State) (n pos : Nat) : State :=
  let gone := (pagesOf s n).filter fun g => decide (pos ≤ g.2.firstPos)
  let s1 := gone.foldl (fun s g => dropPage s g.1) s
  if gone = [] then s1
  else noteLoss (writeHeaders (modSession s1 n fun v =>
    { v with reingest := some (match v.reingest with | some p => min p pos | none => pos) }) n) n pos

/-- R201: the session is left as it was when the job started. -/
def rollback (s : State) (x : Job) : State :=
  match x.session with
  | none => s
  | some n =>
    let s1 := modSession s n fun v => { v with len := x.lenAtStart, tokens := v.tokens.take x.lenAtStart }
    if x.sealed = [] then s1 else rollbackTo s1 n (x.sealed.foldl (fun b g => min b g.firstPos) x.lenAtStart)

/-! ### Going cold (R275) -/

/-- Is any job of a session admitted? -/
def sessionBusy (s : State) (v : Session) : Bool := v.jobs.any fun j => (s.k.jobs.any fun x => x.1 == j && x.2.admitted)

/-- Give fixed frames back. -/
def freeFixed (s : State) (fs : List Nat) : State :=
  { s with mm := { s.mm with fixedF := fs.foldl SMap.erase s.mm.fixedF } }

/-- R275: a session loses its pages in both tiers, its slots and its reservations; the token log stays. -/
def goCold (s : State) (n : Nat) : State :=
  match sessionAt s n with
  | none => s
  | some v =>
    if v.cold then s
    else
      let s1 := (pagesOf s n).foldl (fun s g => dropPage s g.1) s
      let s2 := modSession (freeFixed s1 v.kvFrames) n fun v =>
        { v with cold := true, l1 := 0, slots := 0, kvFrames := [], reingest := some 0 }
      poolEv (noteLoss s2 n 0) v.part fun e => { e with sessionsCold := e.sessionsCold + 1 }

/-! ### Reservations of a session -/

/-- Are the k frames from f all free? -/
def runFree (s : State) (f : Nat) : Nat → Bool
  | 0 => true
  | k + 1 => !frameUsed s f && runFree s (f + 1) k

/-- The lowest run of k free frames at or above f, n tries. -/
def runFrom (s : State) (k f : Nat) : Nat → Option Nat
  | 0 => none
  | n + 1 => if runFree s f k then some f else runFrom s k (f + 1) n

/-- The lowest run of k free frames within one unit of a list. -/
def runIn (s : State) (k : Nat) : List Nat → Option Nat
  | [] => none
  | u :: r => match runFrom s k (u * framesPerUnit) (framesPerUnit + 1 - k) with
    | some f => some f
    | none => runIn s k r

/-- k adjoining fixed frames of a partition, lowest first; none if there is no such run. -/
def allocRun (s : State) (part k : Nat) : Option (State × List Nat) :=
  (runIn s k (unitsOf s part)).map fun f => ((span f k).foldl (fun s f => fixFrame s f part) s, span f k)

/-- R194: set up an empty page table: a level-1 table at a, level-2 tables of 8 KiB after it. -/
def initTables (s : State) (a heads : Nat) : State :=
  (span 0 heads).foldl (fun s k =>
    writeMem (writeMem s (a + 8 * k) (leBytes 8 (2 ^ 63 + a + 0x2000 * (k + 1)))) (a + 0x2000 * (k + 1))
      (List.replicate 0x2000 0)) (writeMem s a (List.replicate 0x2000 0))

/-- R180, R194: reserve page table and staging slots of a PAGED session; none if they do not fit. -/
def reserveKv (s : State) (n : Nat) : Option State :=
  match sessionAt s n with
  | none => none
  | some v => match modelAt s v.model with
    | none => none
    | some m =>
      if m.kvHeads = 0 ∨ m.layout = 0 then some (writeHeaders (modSession s n fun v => { v with cold := false }) n)
      else
        let tables := 0x2000 * (headCount m + 1)
        match allocRun s v.part (ceilDiv (tables + headCount m * headPart m) 0x10000) with
        | none => none
        | some (s1, fs) =>
          let a := fs.headD 0 * 0x10000
          some (writeHeaders (modSession (initTables s1 a (headCount m)) n fun v =>
            { v with cold := false, l1 := a, slots := a + tables, kvFrames := fs }) n)

end Sys2Proof.Machine
end

