-- ==== Sys2Proof/Machine/MemMgr.lean ====
section
/-! DEFINITION. Sys2Proof/Machine/MemMgr.lean: the memory manager and the OTU: fills, promotion, eviction, demotion, deep
copies and their failures (R199, R202, R203, R253 to R277, R286 to R291, R483). -/

namespace Sys2Proof.Machine

/-- Change the memory manager's state. -/
def onMem (s : State) (f : Mem → Mem) : State := { s with mm := f s.mm }

/-! ### Frames of a pool (R264) -/

/-- Frames of objects of a partition in HBM that a test names. -/
def objFrames (s : State) (p : Nat) (f : Obj → Bool) : Nat :=
  (s.mm.objs.filter fun o => o.1 / 65536 == p && !o.2.fixed && f o.2).foldl (fun n o => n + o.2.frames.length) 0
/-- Pages of a partition in HBM that a test names. -/
def pageFrames (s : State) (p : Nat) (f : Page → Bool) : Nat :=
  (s.mm.pages.filter fun g => g.2.part == p && !g.2.striped && f g.2).length

/-- frames_resident: evictable frames RESIDENT or DEMOTING (R285). -/
def framesResident (s : State) (p : Nat) : Nat :=
  objFrames s p (fun o => o.st == .resident || o.st == .demoting)
    + pageFrames s p fun g => g.st == .resident || g.st == .demoting
/-- Frames of PROMOTING objects and pages. -/
def framesPromoting (s : State) (p : Nat) : Nat :=
  objFrames s p (fun o => o.st == .promoting) + pageFrames s p fun g => g.st == .promoting
/-- Frames that a demotion under way will free. -/
def framesDemoting (s : State) (p : Nat) : Nat :=
  objFrames s p (fun o => o.st == .demoting) + pageFrames s p fun g => g.st == .demoting
/-- frames_free (R264). -/
def framesFree (s : State) (p : Nat) : Nat :=
  framesTotal s p - framesFixed s p - framesReserved s p - framesResident s p - framesPromoting s p

/-! ### The deep pool (R267 to R271) -/

/-- LPDDR5X channels of a partition, ascending; none where no deep tier is fitted (R267) or there is none in this start (R500). -/
def channelsOf (s : State) (p : Nat) : List Nat :=
  if s.mm.noDeep || s.board.lpGib == 0 then [] else (span 0 8).filter fun c => SMap.getD s.own.lp c 0 == p
/-- Granules fitted on each channel (R267). -/
def granulesPer (s : State) : Nat := s.board.lpGib * 0x1000000
/-- Every deep block held. -/
def deepBlocks (s : State) : List DeepBlk :=
  (s.mm.mirrors.flatMap fun g => g.deep.blocks)
    ++ (s.mm.objs.flatMap fun o => o.2.deep.elim [] DeepCopy.blocks)
    ++ s.mm.pages.flatMap fun g => g.2.deep.elim [] DeepCopy.blocks
/-- Granules of a partition that hold blocks. -/
def granulesUsed (s : State) (p : Nat) : Nat :=
  ((deepBlocks s).filter fun b => (channelsOf s p).contains b.channel).foldl (fun n b => n + b.count) 0

/-- The lowest gap of n granules among sorted blocks, from granule g on. -/
def gapFrom (limit n g : Nat) : List DeepBlk → Option Nat
  | [] => if g + n ≤ limit then some g else none
  | b :: r => if g + n ≤ b.granule then some g else gapFrom limit n (max g (b.granule + b.count)) r

/-- The blocks of a list on one channel by granule. -/
def onChannel (l : List DeepBlk) (c : Nat) : List DeepBlk :=
  sortBy (fun a b => decide (a.granule ≤ b.granule)) (l.filter fun b => b.channel == c)

/-- Cut bytes into blocks of 4 KiB (R268). -/
def deepParts (b : List Byte) : List (List Byte) := if b = [] then [] else segments 4096 b (b.length / 4096 + 1)

/-- R269: payload bytes stored for a block: none if every byte is 0, raw unless compression makes it shorter. -/
def storedLen (b : List Byte) : Nat := if b.all (· == 0) then 0 else min b.length (Config.codecLen b)
/-- R269: granules of a block. -/
def blockGranules (b : List Byte) : Nat := ceilDiv (16 + storedLen b) 64

/-- R268, R271: place the blocks of number n from block k on: channel list[(n + k) mod C], the current generation, the
lowest free granules. -/
def placeBlocks (s : State) (p n : Nat) (used : List DeepBlk) (k : Nat) : List (List Byte) → Option (List DeepBlk)
  | [] => some []
  | b :: r =>
    let cs := channelsOf s p
    if cs = [] then none
    else
      let c := cs.getD ((n + k) % cs.length) 0
      match gapFrom (granulesPer s) (blockGranules b) 0 (onChannel used c) with
      | none => none
      | some g =>
        let d : DeepBlk := { channel := c, gen := SMap.getD s.mm.keyGen p 0, count := blockGranules b, granule := g }
        (placeBlocks s p n (d :: used) (k + 1) r).map fun l => d :: l

/-- Bytes as cells of a sparse list. -/
def cellsOf (b : List Byte) : List Host.Cell :=
  (span 0 b.length).filterMap fun i => if b.getD i 0 = 0 then none else some (i, b.getD i 0)

/-- The bytes that an item holds in HBM. -/
def itemBytes (s : State) : Item → List Byte
  | .obj p n => match SMap.get? s.mm.objs (objKey p n) with
    | some o => readObj s.mem o.frames 0 o.size
    | none => []
  | .page a => match SMap.get? s.mm.pages a with
    | some g => readMem s (g.frame * 0x10000) 0x8200
    | none => []

/-- Are any of those bytes poisoned (R553)? -/
def itemPoisoned (s : State) : Item → Bool
  | .obj p n => (SMap.get? s.mm.objs (objKey p n)).any fun o => objPoisoned s o.frames 0 o.size
  | .page a => (SMap.get? s.mm.pages a).any fun g => poisoned s (g.frame * 0x10000) 0x8200

/-- The number that R268 places an item's blocks by; for a page its session. -/
def itemNo (s : State) : Item → Nat
  | .obj _ n => n
  | .page a => (SMap.get? s.mm.pages a).elim 0 Page.session

/-- The deep copy of an item. -/
def itemDeep (s : State) : Item → Option DeepCopy
  | .obj p n => (SMap.get? s.mm.objs (objKey p n)).bind Obj.deep
  | .page a => (SMap.get? s.mm.pages a).bind Page.deep
/-- Replace the deep copy of an item. -/
def setDeep (s : State) (i : Item) (d : Option DeepCopy) : State :=
  match i with
  | .obj p n => modObj s (objKey p n) fun o => { o with deep := d }
  | .page a => modPage s a fun g => { g with deep := d }

/-- R291: count written blocks in their channels' sums. -/
def countRatio (s : State) (bs : List DeepBlk) (parts : List (List Byte)) : State :=
  (bs.zip parts).foldl (fun s x => onMem s fun m => { m with
    dtcPlain := SMap.set m.dtcPlain x.1.channel (SMap.getD m.dtcPlain x.1.channel 0 + x.2.length),
    dtcStored := SMap.set m.dtcStored x.1.channel (SMap.getD m.dtcStored x.1.channel 0 + 64 * x.1.count) }) s

/-- Write the deep copy of an item; none if the deep pool cannot take it. -/
def writeDeep (s : State) (i : Item) : Option State :=
  let b := itemBytes s i
  (placeBlocks s (itemPart s i) (itemNo s i) (deepBlocks s) 0 (deepParts b)).map fun bs =>
    setDeep (countRatio s bs (deepParts b)) i (some ⟨bs, cellsOf b⟩)

/-- Could the deep pool take the deep copy of an item now? -/
def deepRoom (s : State) (i : Item) : Bool :=
  (placeBlocks s (itemPart s i) (itemNo s i) (deepBlocks s) 0 (deepParts (itemBytes s i))).isSome

/-- A number for a page in its partition's KV spill pool: the lowest free one (R194). -/
def spillNo (s : State) (p : Nat) : Nat :=
  let used := (s.mm.pages.filter fun g => g.2.part == p && g.2.st == .deep).map fun g => g.2.deepFrame
  ((span 0 (used.length + 1)).find? fun k => !used.contains k).getD 0

/-! ### Eviction (R202, R259, R266, R273, R275, R277) -/

/-- R259: may an item be demoted now? -/
def evictable (s : State) : Item → Bool
  | .obj p n => (SMap.get? s.mm.objs (objKey p n)).any fun o =>
      o.st == .resident && !o.fixed && o.pinMask == 0 && o.deadline.all fun d => decide (d ≤ s.tick)
  | .page a => (SMap.get? s.mm.pages a).any fun g =>
      g.st == .resident && !g.striped && g.pinMask == 0 && g.deadline.all fun d => decide (d ≤ s.tick)

/-- A candidate of R266: claimed, last reference, object before session, number, its items in order. -/
structure Cand where
  claimed : Nat
  lastRef : Nat
  kind : Nat
  num : Nat
  items : List Item
  deriving DecidableEq, Repr

/-- R266: the order of candidates. -/
def candLe (a b : Cand) : Bool :=
  decide (a.claimed < b.claimed) || (a.claimed == b.claimed && (decide (a.lastRef < b.lastRef)
    || (a.lastRef == b.lastRef && (decide (a.kind < b.kind) || (a.kind == b.kind && decide (a.num ≤ b.num))))))

/-- R202: the HBM pages of a session in ascending position order. -/
def sessionItems (s : State) (n : Nat) : List Item :=
  (sortBy (fun a b => decide (a.2.firstPos < b.2.firstPos) || (a.2.firstPos == b.2.firstPos && decide (a.2.k ≤ b.2.k)))
    (pagesOf s n)).map fun g => Item.page g.1

/-- R266: the candidates of a partition in order. -/
def evictOrder (s : State) (p : Nat) : List Cand :=
  let objs := (s.mm.objs.filter fun o => o.1 / 65536 == p).map fun o =>
    { claimed := if o.2.claims = 0 then 0 else 1, lastRef := o.2.lastRef, kind := 0, num := o.1 % 65536,
      items := [.obj p (o.1 % 65536)] : Cand }
  let ses := (s.k.sessions.filter fun v => v.2.part == p).map fun v =>
    { claimed := b2n (sessionBusy s v.2), lastRef := v.2.lastRef, kind := 1, num := v.1,
      items := sessionItems s v.1 : Cand }
  sortBy candLe (objs ++ ses)

/-- Frames that an item gives when it is demoted. -/
def itemFrames (s : State) : Item → Nat
  | .obj p n => (SMap.get? s.mm.objs (objKey p n)).elim 0 fun o => o.frames.length
  | .page _ => 1

/-- R258, R259: an item starts to be demoted; without a deep copy one is written first. -/
def demote (s : State) (i : Item) : State :=
  let s1 := setItemSt s i .demoting
  if (itemDeep s i).isSome ∨ s.mm.deepWrites.contains i then s1
  else onMem s1 fun m => { m with deepWrites := m.deepWrites ++ [i] }

/-- Take items one at a time until `need` frames are on their way. -/
def takeItems (s : State) (need : Nat) : List Item → State × Nat
  | [] => (s, need)
  | i :: r =>
    if need = 0 then (s, 0)
    else if !evictable s i then takeItems s need r
    else if (itemDeep s i).isSome || s.mm.deepWrites.contains i || deepRoom s i then
      takeItems (demote s i) (need - itemFrames s i) r
    else match i with
      | .obj _ _ => takeItems s need r
      | .page a => match SMap.get? s.mm.pages a with
        | some g => match sessionAt s g.session with
          | some v =>
            if sessionBusy s v then takeItems s need r
            else takeItems (goCold s g.session) (need - ((pagesOf s g.session).filter fun x => x.2.st == .resident).length) r
          | none => takeItems s need r
        | none => takeItems s need r

/-- R266: run through the candidates until the request is met. -/
def takeCands (s : State) (need : Nat) : List Cand → State
  | [] => s
  | c :: r => if need = 0 then s else let (t, n) := takeItems s need c.items; takeCands t n r

/-- R199: under pool pressure the manager may narrow sessions of models that permit it; whether it does is free. -/
def narrow (s : State) (p : Nat) : State :=
  (s.k.sessions.filter fun v => v.2.part == p && v.2.sealFmt == 0 && v.2.sealNext.isNone).foldl (fun s v =>
    match modelAt s v.2.model with
    | some m =>
      if bitOf m.flags 0 && bitOf m.flags 1 && Config.freeBool s.freeCtr then
        applySealFormat (modSession (nextFree s) v.1 fun v => { v with sealNext := some 1 }) v.1
      else nextFree s
    | none => s) s

/-- The evictor frees frames so that `need` are free, as far as it can. -/
def evict (s : State) (p need : Nat) : State :=
  let short := need - framesFree s p - framesDemoting s p
  if short = 0 then s else takeCands (narrow s p) short (evictOrder s p)

/-! ### Promotion (R261 to R263) -/

/-- Promotions in flight per partition (R261). -/
def promoLimit : Nat := 8

/-- Promotions of a partition in flight. -/
def promoCount (s : State) (p : Nat) : Nat := (s.mm.promoIn.filter fun x => itemPart s x.item == p).length

/-- R261: the queued requests of a partition by deadline, then arrival. -/
def promoOrder (s : State) (p : Nat) : List Promo :=
  sortBy (fun a b => decide (a.deadline ≤ b.deadline))
    (s.mm.promoQ.filter fun x => itemPart s x.item == p && itemSt s x.item == some .deep)

/-- Frames that a promotion needs. -/
def promoNeed (s : State) : Item → Nat
  | .obj p n => (SMap.get? s.mm.objs (objKey p n)).elim 0 fun o => ceilDiv o.size 0x10000
  | .page _ => 1

/-- Allocate the frames of a promotion (R253). -/
def promoFrames (s : State) (i : Item) : Option State :=
  match i with
  | .obj p n => allocFrames s p n 0 (promoNeed s i)
  | .page a => match SMap.get? s.mm.pages a with
    | none => none
    | some g => (freeFrameIn s (unitOrder s g.part (g.session + g.k))).map fun f =>
        modPage s a fun g => { g with frame := f }

/-- R258, R261: dispatch a promotion, or evict for it. -/
def dispatchPromo (s : State) (p : Nat) (x : Promo) : State :=
  let need := promoNeed s x.item
  if framesFree s p < need then evict s p need
  else match promoFrames s x.item with
    | none => evict s p need
    | some t =>
      onMem (setItemSt t x.item .promoting) fun m => { m with promoQ := m.promoQ.erase x, promoIn := m.promoIn ++ [x] }

/-- PROMOTION_DISPATCH: the earliest request of a partition is dispatched, while promotions are not paused. -/
def execPromotionDispatch (part : Fin 9) (s : State) : Host.Outcome State Fault Refusal :=
  .next (if s.mm.promoPause || decide (promoLimit ≤ promoCount s part.val) then s
  else match promoOrder s part.val with
    | [] => s
    | x :: _ => dispatchPromo s part.val x)

/-- Write bytes into an object's frames from offset o. -/
def writeObj (s : State) (frames : List Nat) (o : Nat) (b : List Byte) : State :=
  (span 0 (ceilDiv b.length 0x10000 + 1)).foldl (fun s i =>
    let at_ := o + i * 0x10000 - (if i = 0 then 0 else o % 0x10000)
    let lo := at_ - o
    let hi := min b.length (lo + (0x10000 - at_ % 0x10000))
    writeMem s (objAddr frames at_) ((b.take hi).drop lo)) s

/-- The plaintext bytes of a deep copy of n bytes. -/
def deepBytes (d : DeepCopy) (n : Nat) : List Byte := Memory.readBytes d.bytes 0 n

/-- R258, R262: a promotion is complete: the plaintext is in the frames and the item RESIDENT. -/
def landPromo (s : State) (x : Promo) (d : DeepCopy) : State :=
  let late := decide (x.late < s.tick)
  let s1 := match x.item with
    | .obj p n => match SMap.get? s.mm.objs (objKey p n) with
      | some o => modObj (writeObj s o.frames 0 (deepBytes d o.size)) (objKey p n) fun o =>
          { o with st := .resident, lastRef := s.tick, deadline := none, failed := false }
      | none => s
    | .page a => match SMap.get? s.mm.pages a with
      | some g => syncPage (modPage (writeMem s (g.frame * 0x10000) (deepBytes d 0x8200)) a fun g =>
          { g with st := .resident, lastRef := s.tick, deadline := none, failed := false }) a
      | none => s
  let s2 := onMem s1 fun m => { m with promoIn := m.promoIn.filter fun y => y.item != x.item,
                                       promoLate := if late then satAdd m.promoLate 1 else m.promoLate }
  poolEv s2 (itemPart s x.item) fun e =>
    { e with promotions := e.promotions + 1, promoLate := e.promoLate + b2n late }

/-- R125, R258: the accesses of core n that wait for an item whose promotion failed end with CHECK_MISMATCH. -/
def faultWaiter (s : State) (n : Nat) : State :=
  let c := coreOf s n
  match (c.d0In ++ c.d1In).find? fun e => (e.op == .tld || e.op == .tchk) && !e.discard && match arrival s n e with
      | .failed _ => true
      | _ => false with
  | some e => match arrival s n e with
    | .failed a => faultEntry s n e { bit := .checkMismatch, addr := some a }
    | _ => s
  | none => match c.mIn with
    | e :: _ =>
      if e.op = .kmap then match completeKmap s n e with
        | some (.error f) => faultCmd (onCore s n fun c => { c with mIn := c.mIn.tail }) n f e.pc
        | _ => s
      else s
    | [] => s

/-- Set or clear an item's failed flag and free its frames. -/
def failItem (s : State) (i : Item) (v : Bool) : State :=
  match i with
  | .obj p n => modObj s (objKey p n) fun o => { o with st := .deep, frames := [], failed := v, deadline := none }
  | .page a => modPage s a fun g => { g with st := .deep, failed := v, deadline := none }

/-- Does the NVMe store hold the image that an object's model was loaded from (R263)? -/
def imageAtHand (s : State) (p n : Nat) : Bool :=
  match SMap.get? s.mm.objs (objKey p n) with
  | some o => match modelAt s (65536 * p + o.model) with
    | some m => s.pcie.store.formatted && s.pcie.store.dir.any fun e => e.2.number == m.image && e.2.valid && !e.2.tokenLog
    | none => false
  | none => false

/-- R263: the source of an item whose block failed twice is rebuilt: a weight object's deep copy from its image, and it is
promoted again; a mirrored page from the partner's copy; another page's session is rolled back. -/
def rebuildItem (s : State) (x : Promo) (d : DeepCopy) : State :=
  match x.item with
  | .obj p n =>
    if imageAtHand s p n then
      let used := (deepBlocks s).filter fun b => !d.blocks.contains b
      let parts := deepParts (deepBytes d ((SMap.get? s.mm.objs (objKey p n)).elim 0 Obj.size))
      match placeBlocks s p n used 0 parts with
      | some bs =>
        promote (setDeep (modObj (countRatio s bs parts) (objKey p n) fun o => { o with failed := false }) x.item
          (some ⟨bs, d.bytes⟩)) x.item s.tick
      | none => s
    else s
  | .page a => match SMap.get? s.mm.pages a with
    | none => s
    | some g =>
      if g.mirrored then promote (modPage s a fun g => { g with failed := false }) x.item s.tick
      else rollbackTo s g.session g.firstPos

/-- R263: a promotion whose block failed twice. -/
def failPromo (s : State) (x : Promo) (d : DeepCopy) (bad : List DeepRead) : State :=
  let num := match x.item with | .obj _ n => n | .page a => (SMap.get? s.mm.pages a).elim 0 Page.deepFrame
  let s1 := bad.foldl (fun s b => logAppend s 0x10 (itemPart s x.item)
    [0, num, (d.blocks[b.block]?).elim 0 DeepBlk.channel]) s
  let s2 := onMem (failItem s1 x.item true) fun m => { m with promoIn := m.promoIn.filter fun y => y.item != x.item }
  rebuildItem ((span 0 32).foldl faultWaiter s2) x d

/-- Count what the reads of deep blocks found (R270, R470). -/
def countReads (s : State) (l : List DeepRead) : State :=
  onMem s fun m => l.foldl (fun m b => { m with
    dtcFail := if b.first.val = 1 ∨ b.second.val = 1 then satAdd m.dtcFail 1 else m.dtcFail,
    dtEccUncorr := satAdd m.dtEccUncorr (b2n (b.first.val == 2) + b2n (b.first.val != 0 && b.second.val == 2)),
    dtEccCorr := if b.corrected then satAdd m.dtEccCorr 1 else m.dtEccCorr }) m

/-- R483: a block read with a corrected error is written to new granules under the current generation. -/
def relocate (s : State) (i : Item) (k : Nat) : State :=
  match itemDeep s i with
  | none => s
  | some d => match d.blocks[k]? with
    | none => s
    | some b =>
      match gapFrom (granulesPer s) b.count 0 (onChannel (deepBlocks s) b.channel) with
      | none => s
      | some g =>
        let c := { b with granule := g, gen := SMap.getD s.mm.keyGen (itemPart s i) 0 }
        setDeep s i (some { d with blocks := setAt d.blocks k c })

/-- PROMOTION_COMPLETE: the last block of a promotion in flight has been read; `reads` lists the blocks whose reads found
anything. -/
def execPromotionComplete (item : Item) (reads : List DeepRead) (s : State) : Host.Outcome State Fault Refusal :=
  .next (match s.mm.promoIn.find? fun x => x.item == item, itemDeep s item with
  | some x, some d =>
    let s1 := countReads s reads
    let bad := reads.filter fun b => b.first.val != 0 && b.second.val != 0 && decide (b.block < d.blocks.length)
    if bad = [] then
      (reads.filter DeepRead.corrected).foldl (fun s b => relocate s item b.block) (landPromo s1 x d)
    else failPromo s1 x d bad
  | _, _ => s)

/-! ### Demotion and deep writes (R258, R259) -/

/-- DEMOTION_COMPLETE: the drain of a DEMOTING item is over; with its pins 0 and its deep copy written its frames are
freed. -/
def execDemotionComplete (item : Item) (s : State) : Host.Outcome State Fault Refusal :=
  let pins : Nat := match item with
    | .obj p n => (SMap.get? s.mm.objs (objKey p n)).elim 0 Obj.pinMask
    | .page a => (SMap.get? s.mm.pages a).elim 0 Page.pinMask
  .next (if itemSt s item = some .demoting ∧ pins = 0 ∧ (itemDeep s item).isSome then
    let s1 := match item with
      | .obj p n => modObj s (objKey p n) fun o => { o with st := .deep, frames := [] }
      | .page a =>
        let k := spillNo s (itemPart s item)
        syncPage (modPage s a fun g => { g with st := .deep, deepFrame := k, walked := false }) a
    poolEv (onMem s1 fun m => { m with evictCount := satAdd m.evictCount 1 }) (itemPart s item)
      fun e => { e with evictions := e.evictions + 1 }
  else s)

/-- DEEP_COPY_WRITE_COMPLETE: the background write of a deep copy has ended: has_deep becomes 1.  A poisoned source, and a
deep pool without room, end the write without a copy. -/
def execDeepCopyWriteComplete (item : Item) (s : State) : Host.Outcome State Fault Refusal :=
  .next (if !s.mm.deepWrites.contains item then s
  else
    let s1 := onMem s fun m => { m with deepWrites := m.deepWrites.erase item }
    match (if itemPoisoned s item then none else writeDeep s1 item) with
    | some t => t
    | none => if itemSt s item = some .demoting then setItemSt s1 item .resident else s1)

/-! ### The OTU (R256) -/

/-- R256: the fill of core n's translation cache for an object: pin, last_ref, a promotion if it is not RESIDENT. -/
def otuFill (s : State) (n key : Nat) : State :=
  let s1 := onMem s fun m => { m with otuQ := m.otuQ.erase (n, key) }
  match SMap.get? s1.mm.objs key with
  | none => s1
  | some o =>
    let s2 := modObj s1 key fun o =>
      { o with pinMask := if bitOf o.pinMask n then o.pinMask else o.pinMask + 2 ^ n, lastRef := s.tick }
    let s3 := setCore s2 n (otcTouch (coreOf s2 n) key)
    if o.st = .resident then s3 else promote s3 (.obj (key / 65536) (key % 65536)) s.tick

/-- OTU_FILL: one of the 32 misses in service, the oldest of its entry, is served. -/
def execOtuFill (core : Fin 32) (obj : Fin 65536) (s : State) : Host.Outcome State Fault Refusal :=
  let key := objKey (corePart s core.val) obj.val
  .next (match (s.mm.otuQ.take 32).find? fun q => q.2 == key with
  | some q => if q.1 = core.val then otuFill s core.val key else s
  | none => s)

/-! ### Deletion (R260) -/

/-- An object is deleted: its frames and deep granules are free, a transfer stops. -/
def deleteObj (s : State) (p n : Nat) : State :=
  let i := Item.obj p n
  onMem s fun m => { m with objs := SMap.erase m.objs (objKey p n), promoQ := m.promoQ.filter fun x => x.item != i,
                            promoIn := m.promoIn.filter fun x => x.item != i, deepWrites := m.deepWrites.erase i }

/-- OBJECT_DELETE: a dying object without claims goes; one that is PROMOTING whatever its pins. -/
def execObjectDelete (part : Fin 9) (obj : Fin 65536) (s : State) : Host.Outcome State Fault Refusal :=
  .next (match SMap.get? s.mm.objs (objKey part.val obj.val) with
  | some o =>
    if o.dying && o.claims == 0 && (o.pinMask == 0 || o.st == .promoting) then deleteObj s part.val obj.val else s
  | none => s)

/-! ### The page walker (R203) -/

/-- Pages ahead of use (R203). -/
def walkAhead : Nat := 64

/-- The last page that a KMAP of the session's running commands has mapped, by k and index, as a rank. -/
def mappedRank (s : State) (n : Nat) : Nat :=
  (s.runs.flatMap fun r => (coreOf s r.1).kpins).foldl (fun b a => match SMap.get? s.mm.pages a with
    | some g => if g.session = n then max b (1024 * g.k + g.ix + 1) else b
    | none => b) 0

/-- PAGE_WALKER_PROMOTE: the next deep page of a session with an admitted job is asked for, at most 64 ahead; the deadline
of the walker's requests is not given (a free value). -/
def execPageWalkerPromote (session : Fin 65536) (s : State) : Host.Outcome State Fault Refusal :=
  let n := session.val
  let r := mappedRank s n
  let ahead := (pagesOf s n).filter fun g => decide (r ≤ 1024 * g.2.k + g.2.ix)
  let order := sortBy (fun a b => decide (1024 * a.2.k + a.2.ix ≤ 1024 * b.2.k + b.2.ix))
    (ahead.filter fun g => g.2.st == .deep && !s.mm.promoQ.any fun x => x.item == .page g.1)
  .next (match sessionAt s n, order with
  | some v, g :: _ =>
    let busy := ahead.filter fun g => g.2.walked && (g.2.st != .deep || s.mm.promoQ.any fun x => x.item == .page g.1)
    if sessionBusy s v && decide (busy.length < walkAhead) then
      nextFree (promote (modPage s g.1 fun g => { g with walked := true }) (.page g.1) (s.tick + Config.freeNat s.freeCtr))
    else s
  | _, _ => s)

/-! ### MEM_CTRL (R288) -/

/-- MEM_CTRL.otc_inval: idle cores' caches are emptied now, a running core's at its command end. -/
def otcInvalidate (s : State) : State :=
  { s with cores := s.cores.map fun e =>
    (e.1, if e.2.st == .running || e.2.st == .stopping then { e.2 with otcInval := true } else { e.2 with otc := [] }) }

/-- OTC_INVALIDATE. -/
def execOtcInvalidate (by_ : Req) (s : State) : Host.Outcome State Fault Refusal := .next (mayWrite s by_ .memRegs otcInvalidate)

/-- PROMO_PAUSE: MEM_CTRL.promo_pause. -/
def execPromoPause (by_ : Req) (v : Bool) (s : State) : Host.Outcome State Fault Refusal :=
  .next (mayWrite s by_ .memRegs fun s => onMem s fun m => { m with promoPause := v })

/-- R287: MEM_STATUS.promo_paused. -/
def promoPaused (s : State) : Bool := s.mm.promoPause && s.mm.promoIn.isEmpty

end Sys2Proof.Machine
end

