-- ==== Sys2Proof/Machine/Store.lean ====
section
/-! DEFINITION. Sys2Proof/Machine/Store.lean: the NVMe store (R281 to R283, R344): label, directory, extents, commands. -/

namespace Sys2Proof.Machine

/-- Change the store. -/
def onDisk (s : State) (f : Store → Store) : State := onPcie s fun p => { p with store := f p.store }
/-- Is a drive enumerated (R281)? -/
def driveHere (s : State) : Bool := s.board.nvme && s.pcie.store.enumerated
/-- Is a formatted store present (R283)? -/
def storeHere (s : State) : Bool := driveHere s && s.pcie.store.formatted
/-- Bytes of a store block. -/
def storeBlock : Nat := 4096
/-- Directory entries. -/
def dirSize : Nat := 4096
/-- First block of the extents. -/
def firstExtent : Nat := 65

/-- The valid directory entry of an image number. -/
def imageEntry (s : State) (n : Nat) : Option (Nat × DirEntry) :=
  s.pcie.store.dir.find? fun e => e.2.number == n && e.2.valid && !e.2.tokenLog && !e.2.dying

/-- R283: the first run of n free blocks at or above b, given the extents in ascending order. -/
def fitFrom (limit n b : Nat) : List (Nat × Nat) → Option Nat
  | [] => if b + n ≤ limit then some b else none
  | (f, k) :: r => if b + n ≤ f then some b else fitFrom limit n (max b (f + k)) r

/-- R283: first fit in ascending block order. -/
def firstFit (d : Store) (n : Nat) : Option Nat :=
  fitFrom d.blocks n firstExtent
    (sortBy (fun a b => decide (a.1 ≤ b.1)) (d.dir.map fun e => (e.2.firstBlock, e.2.blocks)))

/-- R283: the 64 bytes of a directory entry. -/
def dirBytes (e : DirEntry) : List Byte :=
  let b := leBytes 4 e.number ++ leBytes 1 (if e.tokenLog then 2 else 1) ++ leBytes 1 (b2n e.valid) ++ leBytes 1 e.part
    ++ leBytes 1 0 ++ leBytes 8 e.firstBlock ++ leBytes 8 e.blocks ++ leBytes 8 e.length ++ leBytes 16 e.digest.toNat
    ++ leBytes 4 e.session ++ leBytes 4 e.seq ++ leBytes 4 0
  b ++ leBytes 4 (crc32c b).toNat

/-- Take an entry and an extent for n bytes; the bytes are written to it.  None where either is lacking. -/
def newEntry (s : State) (e : DirEntry) (bytes : List Byte) : Option (State × Nat) :=
  let n := max 1 (ceilDiv bytes.length storeBlock)
  match SMap.firstFree s.pcie.store.dir 0 dirSize, firstFit s.pcie.store n with
  | some k, some b =>
    some (onDisk s fun d =>
      { d with dir := SMap.set d.dir k { e with firstBlock := b, blocks := n, length := bytes.length },
               bytes := SMap.set d.bytes k bytes }, k)
  | _, _ => none

/-- An entry is freed. -/
def freeEntry (s : State) (k : Nat) : State :=
  onDisk s fun d => { d with dir := SMap.erase d.dir k, bytes := SMap.erase d.bytes k }

/-- Does a command that serves LOAD_MODEL read an entry? -/
def entryRead (s : State) (k : Nat) : Bool := s.pcie.store.cmds.any fun c => c.entry == k && !c.write

/-- R344: an entry is freed once no LOAD_MODEL reads it; a STORE_DELETE that waited completes. -/
def retireEntry (s : State) (k : Nat) : State :=
  if entryRead s k then onDisk s fun d => { d with dir := SMap.modify d.dir k fun e => { e with dying := true } }
  else
    match SMap.get? s.pcie.store.dir k with
    | none => s
    | some e =>
      let s1 := freeEntry s k
      match e.deleter with
      | some h => complete s1 h 0
      | none => s1

/-- Free the dying entries that nothing reads any more. -/
def sweepEntries (s : State) : State :=
  (s.pcie.store.dir.filter fun e => e.2.dying).foldl (fun s e => if entryRead s e.1 then s else retireEntry s e.1) s

/-- Keeper starts an NVMe command for a request. -/
def startNvme (s : State) (h entry : Nat) (write : Bool) : State :=
  onDisk s fun d => { d with cmds := d.cmds ++ [{ id := d.nextCmd, handle := h, entry := entry, write := write }],
                             nextCmd := d.nextCmd + 1 }

/-- Is the store used by a LOAD_MODEL or a STORE_IMAGE (R344)? -/
def storeBusy (s : State) : Bool :=
  !s.pcie.store.cmds.isEmpty || s.k.openings.any fun o => o.store || o.image != 0xFFFFFFFF

/-- STORE_DELETE. -/
def execStoreDelete (rq : Request) (s : State) : Host.Outcome State Fault Refusal :=
  .next (onRequest s rq 0x09 (some 3) (fun a => argsOk a [(0, 4)]) fun s h _ =>
    if !storeHere s then complete s h 0x0017
    else match imageEntry s (arg rq.args 0 4) with
    | none => complete s h 0x001C
    | some (k, _) =>
      retireEntry (onDisk s fun d => { d with dir := SMap.modify d.dir k fun e => { e with deleter := some h } }) k)

/-- STORE_LIST. -/
def execStoreList (rq : Request) (s : State) : Host.Outcome State Fault Refusal :=
  .next (onRequest s rq 0x0A (some 3)
    (fun a => argsOk a [(0, 4), (4, 4)] && decide (1 ≤ arg a 4 4) && decide (arg a 4 4 ≤ 4095)) fun s h _ =>
    if !storeHere s then complete s h 0x0017
    else
      let images := (s.pcie.store.dir.map Prod.snd).filter fun e => !e.tokenLog && e.valid
      let from_ := images.filter fun e => decide (arg rq.args 0 4 ≤ e.number)
      let sent := (sortBy (fun a b => decide (a.number ≤ b.number)) from_).take (arg rq.args 4 4)
      complete (keepOuts s h (reportTiles 4096 (sent.flatMap dirBytes))) h 0 sent.length images.length)

/-- STORE_FORMAT: a new label and an empty directory. -/
def execStoreFormat (rq : Request) (s : State) : Host.Outcome State Fault Refusal :=
  .next (onRequest s rq 0x0B (some 3) (fun a => argsOk a [(0, 4)] && arg a 0 4 == 0x464D5453) fun s h _ =>
    if !driveHere s || storeBusy s then complete s h 0x0017
    else complete (onDisk s fun d => { d with formatted := true, serial := s.board.serial, dir := [], bytes := [] }) h 0
      s.pcie.store.blocks)

end Sys2Proof.Machine
end

