-- ==== Sys2Proof/Machine/Image.lean ====
section
/-! DEFINITION. Sys2Proof/Machine/Image.lean: model images and how they are loaded (R192, R193, R253 to R265, R284, R298, R341,
R343, R345): sections, consistency, capacity, objects, programs and command graphs. -/

namespace Sys2Proof.Machine

/-! ### The image (R284) -/

/-- A section of the section table. -/
structure Section_ where
  type : Nat
  ix : Nat
  first : Nat
  len : Nat
  deriving DecidableEq, Repr

/-- The section table of an image: what follows the header. -/
def imageTable (head : List Byte) : List Byte := head.drop headerLen
/-- Its sections. -/
def sectionsOf (t : List Byte) : List Section_ :=
  (span 0 (leNat (part t 2 2))).map fun i =>
    let b := part t (0x10 + 16 * i) 16
    ⟨leNat (part b 0 1), leNat (part b 2 2), leNat (part b 4 4), leNat (part b 8 4)⟩
/-- The bytes of a section in the tile area. -/
def sectionBytes (area : List Byte) (x : Section_) : List Byte := part area (4096 * x.first) x.len
/-- The sections of a type. -/
def ofType (l : List Section_) (t : Nat) : List Section_ := l.filter fun x => x.type == t

/-- R284: the body of an image: the table padded to 4,096 B, the tiles and their tags. -/
def imageBody (head : List Byte) (tiles : List Tile) : List Byte :=
  let t := imageTable head
  t ++ List.replicate (4096 - t.length) 0 ++ (tiles.flatMap Tile.payload) ++ (tiles.flatMap Tile.tag)

/-- The parts of a stored image: header with section table, tile area, tags. -/
def storedParts (b : List Byte) : List Byte × List Byte × List Byte :=
  let n := leNat (part b (headerLen + 4) 4)
  let rest := b.drop (headerLen + 4096)
  (b.take (headerLen + 4096), rest.take (rest.length - 16 * n), rest.drop (rest.length - 16 * n))

/-! ### Command graphs -/

/-- One command record of a command graph section. -/
def graphCmd (g : List Byte) (prog : Nat → List Byte) (i : Nat) : GCmd :=
  let r := part g (16 + 64 * i) 64
  let f (o n : Nat) : Nat := leNat (part r o n)
  let preds := leNat (part g 4 4)
  let sems := leNat (part g 8 4)
  { id := f 0 4, program := f 4 2, gang := f 6 2, entry := f 8 4, budget := f 0xC 2, flags := f 0xE 1, pinSet := f 0x10 4,
    preds := (span (f 0x18 4) (f 0x14 2)).map fun k => leNat (part g (preds + 4 * k) 4),
    sems := (span (f 0x1C 4) (f 0x16 2)).map fun k =>
      let e := part g (sems + 8 * k) 8
      (leNat (part e 0 2), leNat (part e 2 2), signed 32 (leNat (part e 4 4))),
    sMask := f 0x20 2, tMask := f 0x22 1, args := part (prog (f 4 2)) (f 0x24 4) 320 }

/-- The commands of a command graph section. -/
def graphCmds (g : List Byte) (prog : Nat → List Byte) : List GCmd :=
  (span 0 (leNat (part g 0 2))).map (graphCmd g prog)

/-- R284, R298: is a command graph consistent: budgets in range, programs and predecessors there, identifiers distinct? -/
def graphOk (programs : List Nat) (l : List GCmd) : Bool :=
  l.all fun c => decide (1 ≤ c.budget) && decide (c.budget ≤ 5000) && programs.contains c.program
    && c.preds.all (fun p => l.any fun d => d.id == p) && (l.filter fun d => d.id == c.id).length == 1

/-! ### What an image brings -/

/-- An image as it is read. -/
structure ImageInfo where
  kind : Nat
  weights : Nat
  layers : Nat
  kvHeads : Nat
  kvDim : Nat
  tokenSet : List Byte
  fixedBytes : Nat
  pinMax : Nat
  objects : List (List Byte)
  programs : List (Nat × List Byte)
  graphs : List (Nat × List GCmd)
  fallback : List (Nat × List GCmd)
  deriving DecidableEq, Repr

/-- R284: read an image; none where its table, descriptor and graphs are inconsistent. -/
def readImage (head area : List Byte) : Option ImageInfo :=
  let t := imageTable head
  let l := sectionsOf t
  let objs := (ofType l 2).map (sectionBytes area)
  let progs := (ofType l 3).map fun x => (x.ix, sectionBytes area x)
  let prog (n : Nat) : List Byte := ((progs.find? fun p => p.1 == n).map Prod.snd).getD []
  let graphs := (ofType l 4).map fun x => (x.ix, graphCmds (sectionBytes area x) prog)
  let fall := (ofType l 9).map fun x => (x.ix, graphCmds (sectionBytes area x) prog)
  match ofType l 1 with
  | [d] =>
    let b := sectionBytes area d
    let f (o n : Nat) : Nat := leNat (part b o n)
    if leNat (part t 0 2) = 0x4D42 ∧ 1 ≤ l.length ∧ l.length ≤ 255 ∧ leNat (part t 4 4) = ceilDiv area.length 4096
        ∧ (l.all fun x => decide (4096 * x.first + x.len ≤ area.length) && decide (1 ≤ x.type) && decide (x.type ≤ 9)) = true
        ∧ f 0 2 = 0x4D44 ∧ 1 ≤ f 2 1 ∧ f 2 1 ≤ 4 ∧ f 3 1 ≤ 3 ∧ f 0xA 2 = objs.length ∧ f 0xC 2 = progs.length
        ∧ f 0xE 2 = graphs.length ∧ (objs.all fun o => decide (1 ≤ o.length) && decide (o.length ≤ 0x4000000)) = true
        ∧ ((graphs ++ fall).all fun g => graphOk (progs.map Prod.fst) g.2) = true then
      some { kind := f 2 1, weights := f 3 1, layers := f 4 2, kvHeads := f 6 2, kvDim := f 8 2, tokenSet := part b 0x10 16,
             fixedBytes := f 0x20 4, pinMax := f 0x24 4,
             objects := if f 3 1 = 3 then objs.map fun o => (Config.quantised o).take o.length else objs,
             programs := progs, graphs := graphs, fallback := fall }
    else none
  | _ => none

/-! ### Capacity (R264, R265) -/

/-- 64 KiB frames of n bytes. -/
def framesFor (n : Nat) : Nat := ceilDiv n 0x10000

/-- The model that LOAD_MODEL's arguments and an image describe, without addresses. -/
def modelOf (part : Nat) (args head : List Byte) (info : ImageInfo) : Model :=
  { part := part, kind := info.kind, weights := info.weights, layers := info.layers, kvHeads := info.kvHeads,
    tokenSet := info.tokenSet, layout := arg args 4 1, flags := arg args 5 1, sMax := arg args 6 2, cMax := arg args 8 4,
    logLimit := if arg args 12 4 = 0 then 32768 else arg args 12 4,
    log2W := if arg args 16 1 = 0 then 20 else arg args 16 1, sealFmt := arg args 17 1,
    steps := if arg args 20 4 = 0 then 64 else arg args 20 4,
    graphs := info.graphs.foldl (fun m g => SMap.set m g.1 g.2) [],
    fallback := info.fallback.foldl (fun m g => SMap.set m g.1 g.2) [],
    pinMax := info.pinMax, image := arg args 0 4, digest := bodyDigest head }

/-- R254: is an object of a model fixed: pinned, or in a partition without LPDDR5X channels? -/
def loadFixed (s : State) (m : Model) : Bool := bitOf m.flags 2 || (channelsOf s m.part).isEmpty

/-- Bytes of one stripe of a model before its bases are known (R193). -/
def stripeLen (s : State) (m : Model) : Nat :=
  m.sMax * ceilDiv (headCount m) (max 1 (unitsOf s m.part).length) * stripedArea m

/-- Fixed frames that a model takes (R254): programs, activation areas, HEAD_STRIPED regions, and its objects where they
are fixed. -/
def fixedNeed (s : State) (m : Model) (info : ImageInfo) : Nat :=
  framesFor ((info.programs.map fun p => p.2.length).sum) + framesFor info.fixedBytes
    + (if m.layout = 0 ∧ m.kvHeads ≠ 0 then framesFor (stripeLen s m) * (unitsOf s m.part).length else 0)
    + (if loadFixed s m then (info.objects.map fun o => framesFor o.length).sum else 0)

/-- Frames that the partition's pool has for fixed use once everything evictable is counted as free. -/
def fixedRoom (s : State) (p : Nat) : Nat :=
  framesTotal s p - (framesFixed s p + framesReserved s p)

/-- R265: does the deep copy of the weights fit the deep pool? -/
def deepFits (s : State) (p : Nat) (objs : List (List Byte)) : Bool :=
  (objs.foldl (fun (u : Option (List DeepBlk)) o => match u with
    | none => none
    | some used => (placeBlocks s p 0 used 0 (deepParts o)).map fun b => used ++ b) (some (deepBlocks s))).isSome

/-- R265: the capacity check of LOAD_MODEL. -/
def loadFits (s : State) (m : Model) (info : ImageInfo) : Bool :=
  decide (fixedNeed s m info + framesFor info.pinMax ≤ fixedRoom s m.part)
    && (loadFixed s m || deepFits s m.part info.objects)

/-- R192: does a HEAD_STRIPED request keep its limits? -/
def stripedOk (m : Model) : Bool :=
  m.layout != 0 || (decide (1 ≤ m.sMax) && decide (m.sMax ≤ 256) && decide (128 ≤ m.cMax) && decide (m.cMax ≤ 8192)
    && m.cMax % 128 == 0)

/-! ### Objects (R253, R255, R258) -/

/-- The lowest k free object numbers of a partition, from n on, t tries. -/
def freeObjs (s : State) (p n k : Nat) : Nat → List Nat
  | 0 => []
  | t + 1 => if k = 0 then []
    else if (SMap.get? s.mm.objs (objKey p n)).isSome then freeObjs s p (n + 1) k t
    else n :: freeObjs s p (n + 1) (k - 1) t

/-- R258: LOAD_MODEL creates an object: PROMOTING, with frames where there are some. -/
def createObj (s : State) (p n size model : Nat) (fixed : Bool) : State :=
  let o : Obj := { size := size, st := .promoting, fixed := fixed, model := model }
  let s1 := { s with mm := { s.mm with objs := SMap.set s.mm.objs (objKey p n) o } }
  (allocFrames s1 p n 0 (framesFor size)).getD s1

/-- An object that the load created goes again. -/
def uncreateObj (s : State) (p n : Nat) : State := { s with mm := { s.mm with objs := SMap.erase s.mm.objs (objKey p n) } }

/-- R258, R280: the last image tile of an object is written: RESIDENT, with its deep copy to be written in the background; an
object that finds no frame goes to the deep tier at once (log 23). -/
def landObj (s : State) (p n : Nat) (bytes : List Byte) : State :=
  match SMap.get? s.mm.objs (objKey p n) with
  | none => s
  | some o =>
    let s1 := if o.frames.length < framesFor o.size then
        (allocFrames (modObj s (objKey p n) fun o => { o with frames := [] }) p n 0 (framesFor o.size)).getD s
      else s
    match SMap.get? s1.mm.objs (objKey p n) with
    | none => s1
    | some o1 =>
      if o1.frames.length < framesFor o1.size then
        let s2 := modObj s1 (objKey p n) fun o => { o with st := .deep, frames := [] }
        match placeBlocks s2 p n (deepBlocks s2) 0 (deepParts bytes) with
        | some bs => countRatio (modObj s2 (objKey p n) fun o =>
            { o with deep := some { blocks := bs, bytes := cellsOf bytes } }) bs (deepParts bytes)
        | none => s2
      else
        let s2 := writeObj (modObj s1 (objKey p n) fun o => { o with st := .resident, lastRef := s.tick }) o1.frames 0 bytes
        if o1.fixed then s2
        else { s2 with mm := { s2.mm with deepWrites := s2.mm.deepWrites ++ [.obj p n] } }

/-- Land the objects of a model. -/
def landObjs (s : State) (p : Nat) : List Nat → List (List Byte) → State
  | n :: r, b :: c => landObjs (landObj s p n b) p r c
  | _, _ => s

/-! ### Programs and regions -/

/-- Place programs one after another in the frames of one run (R254). -/
def placePrograms (s : State) (a : Nat) : List (Nat × List Byte) → State × List (Nat × Nat × Nat)
  | [] => (s, [])
  | (n, b) :: r =>
    let (s1, l) := placePrograms (writeMem s a b) (a + alignUp b.length 256) r
    (s1, (n, a, b.length / 8) :: l)

/-- R193: a stripe in each unit of the partition. -/
def placeStripes (s : State) (p k : Nat) : List Nat → Option (State × List Nat × List Nat)
  | [] => some (s, [], [])
  | u :: r => match runFrom s k (u * framesPerUnit) (framesPerUnit + 1 - k) with
    | none => none
    | some f =>
      match placeStripes ((span f k).foldl (fun s f => fixFrame s f p) s) p k r with
      | some (t, bs, fs) => some (t, f * 0x10000 :: bs, span f k ++ fs)
      | none => none

/-- Fixed frames for programs, activation areas and stripes of a model; none where a run is lacking. -/
def placeModel (s : State) (m : Model) (info : ImageInfo) : Option (State × Model) :=
  let bytes := (info.programs.map fun q => alignUp q.2.length 256).sum
  match allocRun s m.part (framesFor bytes) with
  | none => none
  | some (s1, fs) =>
    let (s2, progs) := placePrograms s1 (fs.headD 0 * 0x10000) info.programs
    match allocFixed s2 m.part (framesFor info.fixedBytes) with
    | none => none
    | some (s3, gs) =>
      if m.layout = 0 ∧ m.kvHeads ≠ 0 then
        match placeStripes s3 m.part (framesFor (stripeLen s m)) (unitsOf s m.part) with
        | none => none
        | some (s4, bases, hs) =>
          some (s4, { m with programs := progs, fixedFrames := fs ++ gs ++ hs, stripes := bases })
      else some (s3, { m with programs := progs, fixedFrames := fs ++ gs })

/-! ### Load report (R345) -/

/-- One entry of the load report. -/
def reportEntry (e : Nat × Nat × Nat × Nat) : List Byte :=
  leBytes 1 e.1 ++ leBytes 3 0 ++ leBytes 4 e.2.1 ++ leBytes 4 e.2.2.1 ++ leBytes 4 e.2.2.2

/-- The load report of a model that has just been loaded. -/
def loadReport (s : State) (m : Model) (num : Nat) (image : List Byte) : List Byte :=
  let objs := m.objects.filterMap fun n => (SMap.get? s.mm.objs (objKey m.part n)).map fun o => (n, o)
  let pins := (objs.filter fun x => x.2.fixed).map fun x => (0x05, x.1, 0, x.2.size)
  let es := Config.reportEntries image ++ pins
  let granules := (objs.map fun x => x.2.deep.elim 0 fun d => (d.blocks.map DeepBlk.count).sum).sum
  leBytes 2 0x4C52 ++ leBytes 2 num ++ leBytes 1 m.part ++ leBytes 1 m.layout ++ leBytes 1 m.weights ++ leBytes 1 0
    ++ leBytes 4 m.objects.length ++ leBytes 4 m.fixedFrames.length ++ leBytes 8 granules ++ leBytes 4 es.length
    ++ leBytes 4 (s.tick % 2 ^ 32) ++ leBytes 32 0 ++ es.flatMap reportEntry

/-- The lowest model number of a partition that no model and no opening request has. -/
def freeModel (s : State) (p : Nat) : Nat :=
  ((span 0 65536).find? fun n => (SMap.get? s.k.models (modelKey p n)).isNone
    && !(s.k.openings.any fun o => !o.store && o.part == p && o.model == n)).getD 0

/-- What a load ends with: a status and a detail, or the state with the model in it. -/
inductive LoadEnd where
  | failed (status detail : Nat)
  | loaded (s : State) (m : Model)

/-- R175, R192, R265, R284, R298: load the model of an image into number `num` of a partition over the objects made for it. -/
def loadImage (s : State) (part num : Nat) (args head area : List Byte) (objs : List Nat) : LoadEnd :=
  match readImage head area with
  | none => .failed 0x0016 5
  | some info =>
    let m := modelOf part args head info
    let v := Config.imageVerdict (head ++ area)
    if v = 2 ∨ v = 3 ∨ v = 4 then .failed 0x0016 v
    else if m.kvHeads ≠ 0 ∧ 128 < info.kvDim then .failed 0x0016 2
    else if !stripedOk m then .failed 0x0016 0
    else if !loadFits (objs.foldl (fun s n => uncreateObj s part n) s) m info then .failed 0x0017 0
    else
      match placeModel s m info with
      | none => .failed 0x0017 0
      | some (s1, m1) =>
        let m2 := { m1 with objects := objs }
        let s2 := landObjs (onK s1 fun k => { k with models := SMap.set k.models (modelKey part num) m2 }) part objs info.objects
        .loaded (extend s2 5 (head.take headerLen)) m2

/-- R258: at the opening, the objects of an image are made from the lengths in its section table. -/
def openObjs (s : State) (part num : Nat) (head : List Byte) (fixed : Bool) : State × List Nat :=
  let secs := ofType (sectionsOf (imageTable head)) 2
  let ns := freeObjs s part 0 secs.length 65536
  ((ns.zip secs).foldl (fun s e => createObj s part e.1 e.2.len num fixed) s, ns)

end Sys2Proof.Machine
end

