-- ==== Sys2Proof/Machine/Waiters.lean ====
section
/-! DEFINITION. Sys2Proof/Machine/Waiters.lean: what goes once no job holds it any more: a closing session, a queue being
destroyed, a model being unloaded (R86, R260, R342). -/

namespace Sys2Proof.Machine

/-! ### Sessions -/

/-- A session is gone: its pages, its slots and its token log are free (R191, R260, R274). -/
def dropSession (s : State) (n : Nat) : State :=
  match sessionAt s n with
  | none => s
  | some v =>
    let s0 := match frontOfModel s v.model with
      | some (pl, f) => tellOthers s f (.closeSession pl n) false
      | none => s
    let s1 := (pagesOf s0 n).foldl (fun s g => dropPage s g.1) s0
    onK (freeFixed s1 (v.kvFrames ++ v.logFrames)) fun k => { k with sessions := SMap.erase k.sessions n }

/-- R211: does a group run that includes the streams of a queue? -/
def groupRuns (s : State) (q : Nat) : Bool := s.runs.any fun r => r.2.queue == q

/-- Complete the CLOSE_SESSION requests whose sessions no job holds. -/
def sweepSessions (s : State) : State :=
  (s.k.sessions.filter fun v => v.2.closing.isSome && v.2.jobs.isEmpty && !groupRuns s v.2.queue).foldl (fun s v =>
    match v.2.closing with
    | some h => complete (dropSession s v.1) h 0
    | none => s) s

/-! ### Queues -/

/-- R86: the rows of a queue on one core are cleared and released. -/
def dropRows (q : Nat) (c : Core) : Core :=
  { c with acc := c.acc.filter fun r => SMap.get? c.rowOwner r.1 != some q, rowOwner := c.rowOwner.filter fun r => r.2 != q }

/-- A queue is gone: its routes, its frames, its resident rows; its streams are closed with it. -/
def dropQueue (s : State) (q : Nat) : State :=
  match SMap.get? s.k.queues q with
  | none => s
  | some v =>
    let s1 := (s.k.sessions.filter fun x => x.2.queue == q).foldl (fun s x => dropSession s x.1) s
    let s2 := onK (freeFixed s1 v.frames) fun k => { k with queues := SMap.erase k.queues q }
    syncQueue { s2 with routes := s2.routes.filter fun r => r.1 / 16 != q,
                        cores := s2.cores.map fun c => (c.1, dropRows q c.2) } q

/-- Complete the QUEUE_DESTROY requests whose queues hold no job. -/
def sweepQueues (s : State) : State :=
  (s.k.queues.filter fun q => q.2.destroy.isSome && q.2.jobs.isEmpty).foldl (fun s q =>
    match q.2.destroy with
    | some h => complete (dropQueue s q.1) h 0
    | none => s) s

/-! ### Models -/

/-- Does any job belong to a model? -/
def modelBusy (s : State) (m : Nat) : Bool := s.k.jobs.any fun x => x.2.model == m

/-- R260: an object is to be deleted once its claims are gone. -/
def markDying (s : State) (p n : Nat) : State := modObj s (objKey p n) fun o => { o with dying := true }

/-- A model is gone: its sessions, its fixed frames, its records; its objects are to be deleted (R260). -/
def dropModel (s : State) (m : Nat) : State :=
  match modelAt s m with
  | none => s
  | some x =>
    let s1 := (s.k.sessions.filter fun v => v.2.model == m).foldl (fun s v => dropSession s v.1) s
    let s15 := match frontOfModel s1 m with
      | some (pl, f) => onFab (tellOthers s1 f (.drop pl) false) fun b => { b with fronts := SMap.erase b.fronts pl }
      | none => s1
    let s16 := onFab s15 fun b => { b with stages := b.stages.filter fun h => h.2.model != m }
    let s2 := x.objects.foldl (fun s n => markDying s x.part n) (freeFixed s16 x.fixedFrames)
    onK s2 fun k => { k with models := SMap.erase k.models m, rescales := k.rescales.filter fun r => r.model != m,
                             satRecs := k.satRecs.filter fun r => r.1 / 65536 != m }

/-- Complete the UNLOAD_MODEL requests whose models no job uses. -/
def sweepModels (s : State) : State :=
  (s.k.models.filter fun m => m.2.unload.isSome && !modelBusy s m.1).foldl (fun s m =>
    match m.2.unload with
    | some h => complete (dropModel s m.1) h 0
    | none => s) s

/-! ### Model switches (R516) -/

/-- Places that the sessions of a model, or the streams of a queue, have taken. -/
def placesUsed (s : State) (f : Session → Bool) : List Nat := (s.k.sessions.filter fun v => f v.2).map fun v => v.2.place

/-- The lowest place below a bound that is free (R193, R209). -/
def freePlace (s : State) (bound : Nat) (f : Session → Bool) : Option Nat :=
  (span 0 bound).find? fun k => !(placesUsed s f).contains k

/-- Do the sessions of a model have places of its own (R193)? -/
def hasPlaces (m : Model) : Bool := m.layout == 0 && m.kvHeads != 0

/-- A session becomes one of the new model and goes cold. -/
def moveSession (s : State) (w : ModelSwitch) (n : Nat) : State :=
  let s1 := goCold s n
  let place := match modelAt s1 w.new with
    | some m => if hasPlaces m then (freePlace s1 m.sMax fun x => x.model == w.new).getD 0 else 0
    | none => 0
  onK (modSession s1 n fun v => { v with model := w.new, place := place }) fun k =>
    { k with switches := k.switches.map fun x => if x.handle = w.handle then { x with moved := x.moved + 1 } else x }

/-- The sessions of the old model that no admitted job uses move; with its last admitted job the switch completes. -/
def goOn (s : State) (w : ModelSwitch) : State :=
  let s1 := (s.k.sessions.filter fun v => v.2.model == w.old && !sessionBusy s v.2).foldl (fun s v => moveSession s w v.1) s
  if s1.k.jobs.any fun x => x.2.model == w.old && x.2.admitted then s1
  else match s1.k.switches.find? fun x => x.handle == w.handle with
    | some x => complete (onK s1 fun k => { k with switches := k.switches.erase x }) x.handle 0 x.moved
    | none => s1

/-- Model switches go on. -/
def sweepSwitches (s : State) : State := s.k.switches.foldl goOn s

/-- R342: what waits for jobs to end goes on. -/
def sweep (s : State) : State := sweepModels (sweepQueues (sweepSessions (sweepSwitches s)))

end Sys2Proof.Machine
end

