-- ==== Sys2Proof/Machine/Load.lean ====
section
/-! DEFINITION. Sys2Proof/Machine/Load.lean: LOAD_MODEL, LOAD_DATA, STORE_IMAGE and UNLOAD_MODEL, and what their tiles and NVMe
commands bring (R280, R282, R343 to R345). -/

namespace Sys2Proof.Machine

/-! ### Opening requests (R343) -/

/-- The opening request of a handle. -/
def openingOf (s : State) (h : Nat) : Option Opening := s.k.openings.find? fun o => o.handle == h
/-- Change the opening request of a handle. -/
def modOpening (s : State) (h : Nat) (f : Opening → Opening) : State :=
  onK s fun k => { k with openings := k.openings.map fun o => if o.handle = h then f o else o }
/-- The opening request of a handle is over. -/
def dropOpening (s : State) (h : Nat) : State := onK s fun k => { k with openings := k.openings.filter fun o => o.handle != h }

/-- R258: a load that fails frees what it took. -/
def uncreateAll (s : State) (o : Opening) : State := o.objs.foldl (fun s n => uncreateObj s o.part n) s

/-- An opening request ends without having loaded or stored anything. -/
def failOpening (s : State) (o : Opening) (status : Nat) (detail : Nat := 0) (r0 : Nat := 0) : State :=
  complete (dropOpening (uncreateAll s o) o.handle) o.handle status r0 0 detail

/-- Tiles of an opening request that have not arrived. -/
def missing (o : Opening) : Nat := o.n - o.tiles.length

/-- The tiles of an opening request in order. -/
def tileList (o : Opening) : List Tile := o.tiles.map Prod.snd

/-! ### The end of a load -/

/-- Fixed frames of a session's token log (R274). -/
def tokenFrames (m : Model) : Nat := if m.kind = 1 then framesFor (4 * (if m.layout = 0 then m.cMax else m.logLimit)) else 0

/-- R33, R276: the sessions of a reloaded model come back cold, with their token logs; the entries on the store are freed. -/
def restoreSessions (s : State) (i : Nat) (m : Model) : State :=
  match s.boot.resume[i]? with
  | none => s
  | some r =>
    let s1 := r.sessions.foldl (fun s v =>
      match allocFixed s m.part (tokenFrames m) with
      | some (t, fs) =>
        retireEntry (onK t fun k => { k with sessions := SMap.set k.sessions v.ix { v.sess with logFrames := fs } }) v.entry
      | none => s) s
    { s1 with boot := { s1.boot with resume := modAt s1.boot.resume i fun r => { r with sessions := [] } } }

/-- The whole image is there: it is loaded, or the load fails (R265, R284, R298). -/
def endLoad (s : State) (o : Opening) (head area : List Byte) : State :=
  match loadImage s o.part o.model o.args head area o.objs with
  | .failed status detail => failOpening s o status detail
  | .loaded t m =>
    let m1 := { m with loadedAt := s.tick, report := loadReport t m o.model (head ++ area) }
    let tiles := reportTiles 4096 m1.report
    let t1 := onK t fun k => { k with models := SMap.set k.models (modelKey o.part o.model) m1 }
    let t2 := if o.handle % 2 ^ 20 = 0 then restoreSessions t1 (slotOf o.handle) m1 else t1
    complete (keepOuts (dropOpening t2 o.handle) o.handle tiles) o.handle 0 o.model tiles.length

/-- R445: does the body of an image agree with its header (step 6)? -/
def bodyOk (head body : List Byte) : Bool :=
  bodyLen head == body.length && Config.sha512 body == bodyDigest head

/-- R344, R445: an image whose tiles are all there goes to the store. -/
def writeStore (s : State) (o : Opening) : State :=
  let bytes := o.head.take headerLen ++ imageBody o.head (tileList o)
  let e : DirEntry := { number := arg o.args 0 4, tokenLog := false, valid := false, part := 0, firstBlock := 0, blocks := 0,
                        length := 0, digest := BitVec.ofNat 128 (bodyDigest o.head).toNat, session := 0, seq := 1 }
  match newEntry s e bytes with
  | none => failOpening s o 0x0017
  | some (t, k) => startNvme (modOpening t o.handle fun o => { o with writing := true }) o.handle k true

/-- The last tile has arrived (R343): step 6, then the load or the write. -/
def lastTile (s : State) (o : Opening) : State :=
  if !bodyOk o.head (imageBody o.head (tileList o)) then failOpening (imageRefused s 6) o 0x0016 1
  else if o.store then writeStore s o
  else endLoad s o o.head ((tileList o).flatMap Tile.payload)

/-- R343: what follows once tiles have been stored: the header check when tile 0 is there for the first time, the end when
none is missing. -/
def afterTiles (s : State) (h : Nat) (had0 : Bool) : State :=
  match openingOf s h with
  | none => s
  | some o =>
    let first := !had0 && (SMap.get? o.tiles 0).isSome
    if first && o.store && leNat (part o.head 2 1) != 4 then failOpening s o 0x001D
    else match (if first then headerFail s 4 o.head else none) with
    | some step => failOpening (imageRefused s step) o 0x0016 1
    | none => if missing o = 0 then lastTile s o else s

/-- Store tiles from an index on; those already there are discarded. -/
def storeTiles (s : State) (h first : Nat) (ts : List Tile) : State :=
  modOpening s h fun o =>
    let new := (span 0 ts.length).filter fun i => (SMap.get? o.tiles (first + i)).isNone
    { o with tiles := new.foldl (fun m i => match ts[i]? with
                | some t => SMap.set m (first + i) t
                | none => m) o.tiles,
             lastTile := if new = [] then o.lastTile else s.tick }

/-- Format of an image tile (R284). -/
def isImageTile (f : Nat) : Bool := f == 0x0B

/-- An opening request with tiles from the host (R343). -/
def openTiles (s : State) (o : Opening) (ts : List Tile) : State :=
  if o.n < ts.length then complete s o.handle 0x001D
  else withTiles s o.handle ts 2 0 isImageTile fun s =>
    let (s1, objs) := if o.store then (s, []) else openObjs s o.part o.model o.head (bitOf (arg o.args 5 1) 2)
    let o1 := { o with objs := objs, lastTile := s.tick }
    afterTiles (storeTiles (onK s1 fun k => { k with openings := k.openings ++ [o1] }) o.handle 0 ts) o.handle false

/-! ### LOAD_MODEL -/

/-- R62, R63, R192, R274, R341: are the arguments of LOAD_MODEL in range?  0 stands for the default of the log limit, W and T
(DEDUCED, log 22). -/
def loadArgsOk (a : List Byte) : Bool :=
  let limit := arg a 12 4
  let w := arg a 16 1
  let t := arg a 20 4
  let n := arg a 24 4
  argsOk a [(0, 4), (4, 1), (5, 1), (6, 2), (8, 4), (12, 4), (16, 1), (17, 1), (20, 4), (24, 4)]
    && decide (arg a 4 1 ≤ 1) && decide (arg a 5 1 ≤ 15) && decide (arg a 17 1 ≤ 1)
    && (limit == 0 || (decide (1024 ≤ limit) && decide (limit ≤ 262144)))
    && (w == 0 || (decide (12 ≤ w) && decide (w ≤ 31))) && decide (t ≤ 2 ^ (if w = 0 then 20 else w))
    && (if arg a 0 4 = 0xFFFFFFFF then decide (1 ≤ n) && decide (n ≤ 16777216) else n == 0)

/-- LOAD_MODEL from the store: the image is read (R280, R282). -/
def openStored (s : State) (h p : Nat) (args : List Byte) : State :=
  match (if storeHere s then imageEntry s (arg args 0 4) else none) with
  | none => complete s h 0x001C
  | some (k, _) =>
    let head := ((SMap.get? s.pcie.store.bytes k).getD []).take (headerLen + 4096)
    let num := freeModel s p
    let (s1, objs) := openObjs s p num head (bitOf (arg args 5 1) 2)
    let o : Opening := { handle := h, store := false, part := p, args := args, head := head, n := 0,
                         image := arg args 0 4, model := num, objs := objs, lastTile := s.tick }
    startNvme (onK s1 fun q => { q with openings := q.openings ++ [o] }) h k false

/-- LOAD_MODEL; `head` is the header and section table of the image that the tiles belong to (image 0xFFFF_FFFF). -/
def execLoadModel (rq : Request) (head : List Byte) (s : State) : Host.Outcome State Fault Refusal :=
  .next (onRequest s rq 0x01 (some 0) loadArgsOk fun s h p =>
    if arg rq.args 0 4 = 0xFFFFFFFF then
      openTiles s { handle := h, store := false, part := p, args := rq.args, head := head, n := arg rq.args 24 4,
                    model := freeModel s p } rq.tiles
    else openStored s h p rq.args)

/-- STORE_IMAGE; `head` as for LOAD_MODEL. -/
def execStoreImage (rq : Request) (head : List Byte) (s : State) : Host.Outcome State Fault Refusal :=
  .next (onRequest s rq 0x08 (some 3)
    (fun a => argsOk a [(0, 4), (4, 4)] && decide (1 ≤ arg a 0 4) && decide (arg a 0 4 ≤ 4095)
      && decide (1 ≤ arg a 4 4) && decide (arg a 4 4 ≤ 16777216)) fun s h _ =>
    if !storeHere s then complete s h 0x0017
    else openTiles s { handle := h, store := true, part := 0, args := rq.args, head := head, n := arg rq.args 4 4 } rq.tiles)

/-- Is a handle's opening request one whose tiles still arrive, of a principal? -/
def openFor (s : State) (h p : Nat) : Option Opening :=
  match openingOf s h, handleOf s h with
  | some o, some x => if x.principal = p ∧ o.image = 0xFFFFFFFF ∧ !o.writing then some o else none
  | _, _ => none

/-- LOAD_DATA. -/
def execLoadData (rq : Request) (s : State) : Host.Outcome State Fault Refusal :=
  .next (onRequest s rq 0x07 none (fun a => argsOk a [(0, 4), (4, 4)]) fun s h p =>
    let first := arg rq.args 4 4
    match openFor s (arg rq.args 0 4) p with
    | none => complete s h 0x001C
    | some o =>
      if o.n < first + rq.tiles.length then complete s h 0x001D
      else withTiles s h rq.tiles 2 first isImageTile fun s =>
        let s1 := storeTiles s o.handle first rq.tiles
        let left := (openingOf s1 o.handle).elim 0 missing
        afterTiles (complete s1 h 0 (missing o - left) left) o.handle (SMap.get? o.tiles 0).isSome)

/-- LOAD_IMAGE_TIMEOUT: 60 s without a new tile. -/
def execLoadImageTimeout (handle : Nat) (s : State) : Host.Outcome State Fault Refusal :=
  .next (match openingOf s handle with
  | some o =>
    if o.image = 0xFFFFFFFF ∧ !o.writing ∧ o.lastTile + 60 * ticksPerSecond ≤ s.tick then failOpening s o 0x0010 else s
  | none => s)

/-! ### NVMe commands (R282) -/

/-- The tiles of a stored image. -/
def storedTiles (b : List Byte) : List Tile :=
  let (_, area, tags) := storedParts b
  (span 0 (tags.length / 16)).map fun i => ⟨part tags (16 * i) 16, part area (4096 * i) 4096⟩

/-- A read for LOAD_MODEL ended well: header, tiles and body are checked and the model is loaded. -/
def readEnded (s : State) (o : Opening) (entry : Nat) : State :=
  let b := (SMap.get? s.pcie.store.bytes entry).getD []
  let (head, area, _) := storedParts b
  match headerFail s 4 head, badTiles (storedTiles b) 2 0 isImageTile with
  | some step, _ => failOpening (imageRefused s step) o 0x0016 1
  | none, i :: _ => failOpening s o 0x0013 0 i
  | none, [] =>
    if !bodyOk head (b.drop headerLen) then failOpening (imageRefused s 6) o 0x0016 1 else endLoad s o head area

/-- R344: the image is written and verified: its entry is valid, and an older image of its number goes. -/
def writeEnded (s : State) (o : Opening) (entry : Nat) : State :=
  let n := arg o.args 0 4
  let old := imageEntry s n
  let s1 := onDisk s fun d => { d with dir := SMap.modify d.dir entry fun e => { e with valid := true } }
  let s2 := match old with
    | some (k, _) => if k = entry then s1 else retireEntry s1 k
    | none => s1
  complete (dropOpening s2 o.handle) o.handle 0 n ((SMap.get? s2.pcie.store.dir entry).elim 0 DirEntry.blocks)

/-- Ends with an error that a command survives: it is sent once more, and so is a read of a failed tile (R280, R282). -/
def nvmeTries (c : NvmeCmd) : Nat := if c.write then 2 else 4

/-- NVME_COMMAND_COMPLETE: command `id` ends, with an error status unless `ok`. -/
def execNvmeCommandComplete (id : Nat) (ok : Bool) (s : State) : Host.Outcome State Fault Refusal :=
  .next (match s.pcie.store.cmds.find? fun c => c.id == id with
  | none => s
  | some c =>
    if !ok && decide (c.fails + 1 < nvmeTries c) then
      onDisk s fun d => { d with cmds := d.cmds.map fun x => if x.id = id then { x with fails := x.fails + 1 } else x }
    else
      let s1 := onDisk s fun d => { d with cmds := d.cmds.filter fun x => x.id != id }
      match openingOf s1 c.handle with
      | none => sweepEntries s1
      | some o =>
        if !ok then sweepEntries (failOpening (if c.write then freeEntry s1 c.entry else s1) o 0x0013)
        else if c.write then writeEnded s1 o c.entry
        else sweepEntries (readEnded s1 o c.entry))

/-! ### UNLOAD_MODEL -/

/-- UNLOAD_MODEL: once its admitted jobs have ended; a model that goes already is not found. -/
def execUnloadModel (rq : Request) (s : State) : Host.Outcome State Fault Refusal :=
  .next (onRequest s rq 0x02 (some 0) (fun a => argsOk a [(0, 2)]) fun s h p =>
    match modelAt s (modelKey p (arg rq.args 0 2)) with
    | none => complete s h 0x001C
    | some m =>
      if m.unload.isSome then complete s h 0x001C
      else sweepModels (modModel s (modelKey p (arg rq.args 0 2)) fun m => { m with unload := some h }))

end Sys2Proof.Machine
end

