-- ==== Sys2Proof/Machine/ModeCtl.lean ====
section
/-! DEFINITION. Sys2Proof/Machine/ModeCtl.lean: mode requests (R30, R32, R33, R409, R410, R414): downward steps, deferral, the work
before BUOY, SET_MODE's end. -/

namespace Sys2Proof.Machine

/-! ### The work before BUOY (R33, R330, R379) -/

/-- The LOAD_MODEL arguments under which a model comes back (R341, R504). -/
def resumeArgs (m : Model) : List Byte :=
  leBytes 4 m.image ++ leBytes 1 m.layout ++ leBytes 1 m.flags ++ leBytes 2 m.sMax ++ leBytes 4 m.cMax ++ leBytes 4 m.logLimit
    ++ leBytes 1 m.log2W ++ leBytes 1 m.sealFmt ++ leBytes 2 0 ++ leBytes 4 m.steps

/-- Models of the resume list (R504). -/
def resumeMax : Nat := 64

/-- The models that the store can bring back, in the order of their loading. -/
def resumeModels (s : State) : List (Nat × Model) :=
  (sortBy (fun a b => decide (a.2.loadedAt ≤ b.2.loadedAt)) (s.k.models.filter fun m => m.2.image != 0xFFFFFFFF)).take resumeMax

/-- The token-log entries of an earlier BUOY entry that no session has reclaimed go. -/
def freeOldLogs (s : State) : State := (s.boot.resume.flatMap Resume.sessions).foldl (fun s v => freeEntry s v.entry) s

/-- One session's token log goes to the store; none where it has no room. -/
def saveLog (s : State) (n : Nat) (v : Session) : Option (State × SavedSession) :=
  let e : DirEntry := { number := 0, tokenLog := true, valid := true, part := v.part, firstBlock := 0, blocks := 0, length := 0,
                        digest := 0, session := n, seq := 1 }
  (newEntry s e (v.tokens.flatMap fun w => leBytes 4 w.toNat)).map fun r =>
    (r.1, { ix := n, entry := r.2, sess := { v with jobs := [], closing := none } })

/-- Every session's token log goes to the store, or none does. -/
def saveLogs (s : State) : List (Nat × Session) → Option (State × List SavedSession)
  | [] => some (s, [])
  | (n, v) :: r => match saveLog s n v with
    | none => none
    | some (t, x) => (saveLogs t r).map fun y => (y.1, x :: y.2)

/-- R33: the sessions go cold, their logs go to the store, the loaded models are recorded; none without a store or room. -/
def buoyWork (s : State) : Option State :=
  if !storeHere s then none
  else
    let s1 := freeOldLogs ((s.k.sessions.map Prod.fst).foldl goCold s)
    (saveLogs s1 s1.k.sessions).map fun r =>
      let list := (resumeModels s1).map fun m =>
        { args := resumeArgs m.2, part := m.2.part, model := m.1 % 65536,
          sessions := r.2.filter fun v => v.sess.model == m.1 : Resume }
      { r.1 with boot := { r.1.boot with resume := list } }

/-- Is this device a member of a fabric (R373, R374)? -/
def isMember (s : State) : Bool := s.fab.lightValid && (lightOf s s.fab.addr).any fun e => e.state == 1 || e.state == 2 || e.state == 3

/-- R33, R379: may a fabric device enter BUOY: departed by a planned leave that permits it, as tail or in a closed segment? -/
def fabricAllows (s : State) : Bool :=
  !isMember s || (s.fab.departed && s.fab.buoyOk
    && (segClosed s.fab.light (segOf s.fab.addr) || stnOf s.fab.addr == stationsOf s.fab.light (segOf s.fab.addr)))

/-- R500: is there no Buoy stage, step B12 being disabled? -/
def noBuoyStage (s : State) : Bool := (SMap.get? s.boot.steps 12).any fun b => bitOf b.flags 2

/-- R330: Keeper asks the partner of each linked port to sleep. -/
def sleepRequests (s : State) : State :=
  [0, 1].foldl (fun s p => if portUp s p && rbit s (portCfg p) 6 then { s with hostOut := .sleepRequest p :: s.hostOut } else s) s

/-! ### SET_MODE's end (R342, R409) -/

/-- Where the requests made so far lead. -/
def modeAhead (s : State) : Mode :=
  match s.k.lowering, s.aon.wanted, s.aon.deferred with
  | some m, _, _ => m
  | none, some m, _ => m
  | none, none, some m => m
  | none, none, none => if s.aon.busy then s.aon.goal else s.aon.mode

/-- The SET_MODE that waits ends. -/
def endSetMode (s : State) (status : Nat) : State :=
  match s.k.setMode with
  | none => s
  | some (h, _) => complete (onK s fun k => { k with setMode := none }) h status (if status = 0 then modeNo s.aon.mode else 0)

/-- A SET_MODE whose mode is reached completes; one that is superseded is cancelled. -/
def checkSetMode (s : State) : State :=
  match s.k.setMode with
  | none => s
  | some (_, m) =>
    let a := s.aon
    if a.mode = m ∧ s.k.lowering.isNone ∧ (!a.busy ∨ a.up) then endSetMode s 0
    else if modeAhead s = m ∨ (a.busy ∧ a.up ∧ modeNo a.mode < modeNo m ∧ modeNo m ≤ modeNo a.goal) then s
    else endSetMode s 0x0010

/-! ### Downward requests (R30, R410, R414) -/

/-- R33: BUOY is not to be had: the device stays in BEACON. -/
def floorBeacon (s : State) : State :=
  endSetMode (raiseEvent (onAon s fun a => { a with busy := false, up := false, goal := a.mode, target := a.mode }) 0x0007) 0

/-- Begin the downward step from the present mode towards a goal. -/
def stepDown (s : State) (goal : Mode) : State :=
  let go (s : State) : State := onAon s fun a =>
    { a with target := modeOf (modeNo a.mode - 1), goal := goal, busy := true, up := false, wanted := none, deferred := none }
  if s.aon.mode = .beacon then
    if !fabricAllows s || noBuoyStage s then floorBeacon s
    else match buoyWork s with
      | none => floorBeacon s
      | some t => go (sleepRequests t)
  else go s

/-- R410: a downward request waits while a candidate is open. -/
def startDown (s : State) (m : Mode) : State :=
  if s.aon.candOpen then onAon s fun a => { a with deferred := some m, deferredAt := s.tick } else stepDown s m

/-- R30: Keeper's request for a mode. -/
def modeReq (s : State) (m : Mode) : State :=
  let a := s.aon
  if a.busy then
    if modeNo m < modeNo a.goal then onAon s fun a => { a with wanted := some m, deferred := none } else askUp s m 4
  else if modeNo a.mode ≤ modeNo m then askUp s m 4
  else startDown s m

/-- R409: do commands run that need what a mode turns off? -/
def runsAbove (s : State) (m : Mode) : Bool :=
  s.runs.any fun r => decide (modeNo m < modeNo (coreMode r.1))
    || (jobAt s r.2.job).any fun x => decide (modeNo m < modeNo (neededMode s x))

/-- R409: once no such command runs any more, Keeper requests the lower mode. -/
def tryLower (s : State) : State :=
  match s.k.lowering with
  | none => s
  | some m => if runsAbove s m then s else checkSetMode (modeReq (onK s fun k => { k with lowering := none }) m)

/-- Keeper makes for a lower mode: dispatch to what it turns off stops first. -/
def lowerTo (s : State) (m : Mode) : State := tryLower (onK s fun k => { k with lowering := some m })

/-- MODE_REQUEST: a write of AON_MODE_REQ, Keeper's alone. -/
def execModeRequest (by_ : Req) (mode : Mode) (s : State) : Host.Outcome State Fault Refusal :=
  .next (aonWrite s by_ true false fun s => checkSetMode (modeReq s mode))

end Sys2Proof.Machine
end

