-- ==== Sys2Proof/Machine/Rebuild.lean ====
section
/-! DEFINITION. Sys2Proof/Machine/Rebuild.lean: whether a CHECK_MISMATCH is the core's or the data's, what the tile is rebuilt
from, and the sources that are memory contents (R279, R406, R474). -/

namespace Sys2Proof.Machine

/-! ### The tile of a tag -/

/-- The page in HBM, of core n's partition, in which an address lies. -/
def pageAt (s : State) (n a : Nat) : Option (Nat × Page) :=
  s.mm.pages.find? fun g => g.2.st != .deep && g.2.part == corePart s n && decide (pageAddr g.1 g.2 ≤ a)
    && decide (a < pageAddr g.1 g.2 + 0x8200)

/-- R186: the tile of a page whose tag lies at an address. -/
def pageTile (page a : Nat) : Option TileLoc :=
  if a = page then some (.phys (page + 0x100) a 256)
  else if a < page + 0x90 ∧ a % 16 = 0 then some (.phys (page + 0x200 + 0x1000 * ((a - page) / 16 - 1)) a 4096)
  else none

/-- R111, R180, R256: the tile of a memory descriptor of core n whose tag lies at an address. -/
def descTile (s : State) (n a : Nat) (d : Desc) : Option TileLoc :=
  let i (tag : Nat) : Nat := (tag - d.tagPtr) / 16
  let has (tag : Nat) : Bool := decide (d.tagPtr ≤ tag) && (tag - d.tagPtr) % 16 == 0 && decide (i tag < d.w)
  if !memDescOk d then none
  else if d.space = 1 then
    if has a then some (.phys (tileAddr d (i a)).1 a (tileAddr d (i a)).2.2)
    else if slotDescOk d ∧ a = d.tagPtr + 16 * d.w then some (.phys (d.base - 0x1000) a 64)
    else none
  else match objOf s (corePart s n) (d.base / 2 ^ 32) with
    | none => none
    | some o => match o.frames.findIdx? fun f => f == a / 0x10000 with
      | none => none
      | some k =>
        let tag := k * 0x10000 + a % 0x10000
        if has tag then
          some (.obj (d.base / 2 ^ 32) (d.base % 2 ^ 32 + i tag * d.colStride) tag (tileAddr d (i tag)).2.2)
        else none

/-- The memory descriptors of core n. -/
def coreDescs (s : State) (n : Nat) : List Desc := (span 0 16).map fun k => descOf (getT (coreOf s n) k)

/-- The tile whose tag lies at an address, as the command on core n knew it. -/
def tileAtTag (s : State) (n a : Nat) : Option TileLoc :=
  match pageAt s n a with
  | some g => pageTile (pageAddr g.1 g.2) a
  | none => (coreDescs s n).findSome? (descTile s n a)

/-- R125: does an address stand for a tag of an object whose promotion failed? -/
def failedTag (s : State) (n a : Nat) : Option Obj :=
  if (coreDescs s n).any fun d => d.space == 2 && memDescOk d && d.base / 2 ^ 32 == a / 2 ^ 32
      && decide (d.tagPtr ≤ a % 2 ^ 32) && decide (a % 2 ^ 32 < d.tagPtr + 16 * d.w) then
    objOf s (corePart s n) (a / 2 ^ 32)
  else none

/-! ### Attribution (R474) -/

/-- The RAS tile checker re-reads a tile and its tag: do they agree? -/
def tileAgrees (s : State) (n : Nat) : TileLoc → Bool
  | .phys a tag len =>
    !poisoned s tag 16 && !poisoned s a len && Memory.le s.mem tag 4 == (crc32c (readMem s a len)).toNat
  | .obj num o tag len => match objOf s (corePart s n) num with
    | none => false
    | some ob => !objPoisoned s ob.frames tag 16 && !objPoisoned s ob.frames o len
        && leNat ((readObj s.mem ob.frames tag 16).take 4) == (crc32c (readObj s.mem ob.frames o len)).toNat

/-- R474: is a CHECK_MISMATCH of core n attributed to the core?  Where the fault names no tile that the command's descriptors
know, the outcome is free (log 46). -/
def mismatchOfCore (s : State) (n : Nat) : Bool :=
  let a := (coreOf s n).faultAddr
  if (failedTag s n a).any fun o => o.st != .resident then false
  else match tileAtTag s n a with
    | some t => tileAgrees s n t
    | none => if (failedTag s n a).isSome then false else Config.freeBool s.freeCtr

/-! ### What a tile is rebuilt from (R474) -/

/-- The sources of R474. -/
inductive Source where
  | object (n : Nat)
  | page (key : Nat)
  | producer (cmd : Nat)
  | slot (session : Nat)
  | staging
  | beacon
  | kept                       -- not rebuilt
  deriving DecidableEq, Repr

/-- Does an address lie in a staging slot of a session? -/
def inSlot (s : State) (n a : Nat) : Bool :=
  match (sessionAt s n).bind fun v => (modelAt s v.model).map fun m => (v, m) with
  | some (v, m) => !v.cold && (span 0 (headCount m)).any fun k =>
      decide (slotAddr m v k ≤ a) && decide (a < slotAddr m v k + headPart m)
  | none => false

/-- Does an address lie in the PSRAM region of a kind (R504)? -/
def inPsram (s : State) (kind a : Nat) : Bool :=
  decide ((psRegion s kind).1 ≤ a) && decide (a < (psRegion s kind).1 + (psRegion s kind).2)

/-- R474: the source of a tile that a command of job x on core n read. -/
def sourceOf (s : State) (n : Nat) (x : Job) : TileLoc → Source
  | .obj num _ _ _ => .object num
  | .phys _ tag _ =>
    match pageAt s n tag with
    | some g => .page g.1
    | none => match SMap.get? x.stored tag with
      | some c => .producer c
      | none =>
        match x.session.filter fun v => inSlot s v tag with
        | some v => .slot v
        | none => if inPsram s 5 tag then .staging else if inPsram s 3 tag then .beacon else .kept

/-- R263: the bytes of object n of a partition in the image that its model was loaded from, if the store holds it. -/
def imageBytes (s : State) (p n : Nat) (o : Obj) : Option (List Byte) :=
  match (modelAt s (modelKey p o.model)).bind fun m => (imageEntry s m.image).map fun e => (m, e) with
  | some (m, e) =>
    let b := storedParts ((SMap.get? s.pcie.store.bytes e.1).getD [])
    if storeHere s ∧ bodyDigest b.1 = m.digest then
      (readImage b.1 b.2.1).bind fun info => info.objects[m.objects.findIdx fun k => k == n]?
    else none
  | none => none

/-- R474: a weight object in HBM is written again from its deep copy, or from its model image. -/
def rebuildObject (s : State) (p n : Nat) : State :=
  match SMap.get? s.mm.objs (objKey p n) with
  | none => s
  | some o => match o.deep with
    | some d => writeObj s o.frames 0 (deepBytes d o.size)
    | none => match imageBytes s p n o with
      | some b => writeObj s o.frames 0 b
      | none => s

/-- R474: a sealed page comes back from its mirror, whose bytes are those of the page's own deep copy; another page's session is
rolled back and ingested again (R263). -/
def rebuildPage (s : State) (key : Nat) : State :=
  match SMap.get? s.mm.pages key with
  | none => s
  | some g => match g.deep with
    | some d => if g.mirrored then writeMem s (pageAddr key g) (deepBytes d 0x8200) else rollbackTo s g.session g.firstPos
    | none => rollbackTo s g.session g.firstPos

/-- R201, R474: the rows of a session's staging slots are lost: they are ingested again from the token log. -/
def loseSlot (s : State) (n : Nat) : State :=
  let pos := sealedEnd s n
  noteLoss (modSession s n fun v =>
    { v with reingest := some (match v.reingest with | some p => min p pos | none => pos) }) n pos

/-- R406, R474: the staging area is copied again from the ring, while the gate is open. -/
def stageAgain (s : State) : State :=
  match s.k.stageFrom with
  | some p => stageCopy { s with k := { s.k with stageNext := p } }
  | none => s

/-- R279: a mismatch on a PSRAM tile; the second on one tile within 24 h has it written again from its model image, whose bytes
the spec does not give (free values, log 46). -/
def psramMismatch (s : State) (t : TileLoc) : State :=
  match t with
  | .obj _ _ _ _ => s
  | .phys a tag len =>
    let l := ((SMap.getD s.mm.psramMiss tag []).filter fun t => decide (s.tick < t + 86400 * ticksPerSecond)) ++ [s.tick]
    if l.length < 2 then { s with mm := { s.mm with psramMiss := SMap.set s.mm.psramMiss tag l } }
    else
      let b := (span 0 len).map fun k => BitVec.ofNat 8 (Config.freeNat (s.freeCtr + k))
      let s1 := { s with freeCtr := s.freeCtr + len, mm := { s.mm with psramMiss := SMap.erase s.mm.psramMiss tag } }
      logCheck (writeTile s1 a tag b (Memory.le s.mem (tag + 6) 1) 0x02 0 (Memory.le s.mem (tag + 12) 4)) 0 tag 1

/-- R68: the index and the origin in the tag of a tile. -/
def tagFields (s : State) (n : Nat) : TileLoc → Nat × Nat
  | .phys _ tag _ => (Memory.le s.mem (tag + 12) 4, Memory.le s.mem (tag + 7) 1)
  | .obj num _ tag _ => match objOf s (corePart s n) num with
    | none => (0, 0)
    | some ob =>
      let t := readObj s.mem ob.frames tag 16
      (leNat (t.drop 12), leNat ((t.drop 7).take 1))

end Sys2Proof.Machine
end

