-- ==== Sys2Proof/Machine/Jobs.lean ====
section
/-! DEFINITION. Sys2Proof/Machine/Jobs.lean: how Keeper turns end reports into job progress, re-runs, resets and completion
records (R62 to R64, R190, R201, R219 to R222, R309, R310, R313, R315 to R320, R348, R354, R474 to R478, R488). -/

namespace Sys2Proof.Machine

/-! ### Claims, frames and semaphores of a job -/

/-- Change the claims of every object of a model (R257). -/
def claimAll (s : State) (part model : Nat) (f : Nat → Nat) : State :=
  match SMap.get? s.k.models model with
  | none => s
  | some m => m.objects.foldl (fun s n => modObj s (objKey part n) fun o => { o with claims := f o.claims }) s

/-- Give back what a job holds: claims, reservations, supplied pages and semaphores. -/
def releaseJob (s : State) (x : Job) : State :=
  let s1 := if x.admitted then claimAll s x.part x.model fun n => n - 1 else s
  let s2 := (x.cmds.flatMap JCmd.pages).foldl (fun s g => if x.sealed.contains g then s else freeSeal s g) s1
  { s2 with sems := x.sems.foldl (fun m v => SMap.erase m v.2) s2.sems }

/-! ### Completion (R319, R348) -/

/-- Rounded quotient of naturals, ties to even. -/
def rneDivNat (n d : Nat) : Nat :=
  let q := n / d
  let r := n % d
  if 2 * r < d then q else if d < 2 * r then q + 1 else q + q % 2

/-- R319: the slowdown of summed T and S. -/
def slowdown (t st : Nat) : Nat :=
  if t = 0 then 0x0100 else if t ≤ st then 0xFFFF else max 0x0100 (min 0xFFFF (rneDivNat (256 * t) (t - st)))

/-- R200: sealed pages of a job's session that are narrower than the minimum asked (1 KV4, 2 KV8, 3 A16). -/
def narrowPages (s : State) (x : Job) : Nat :=
  match x.session with
  | none => 0
  | some n => ((pagesOf s n).filter fun g =>
      x.minPrec == 3 || (x.minPrec == 2 && g.2.format == 1)).length

/-- R348: the record of a job. -/
def jobRecord (s : State) (h : Handle) (x : Job) (status detail r0 r1 : Nat) : Record :=
  let narrow := narrowPages s x
  { recordOf s x.handle h status detail r0 r1 with
    flags := x.outFlags + b2n (narrow != 0) + 4 * b2n x.retain
    slowdown := slowdown x.sumT x.sumS
    slowCause := x.cause
    reruns := min x.reruns 255
    narrow := min narrow 0xFFFF
    weightWait := x.weightWait % 2 ^ 32
    haloWait := x.haloWait % 2 ^ 32
    donatedIn := x.donatedIn % 2 ^ 32
    donatedOut := x.donatedOut % 2 ^ 32
    sectorLate := x.sectorLate % 2 ^ 32
    flush := x.flush % 2 ^ 32 }

/-- R320: a completed job counts in its queue's interval. -/
def aggregate (q : Queue) (x : Job) : Queue :=
  { q with aggT := q.aggT + x.sumT, aggS := q.aggS + x.sumS, aggMax := max q.aggMax (slowdown x.sumT x.sumS),
           aggCause := q.aggCause ||| x.cause, aggJobs := q.aggJobs + 1 }

/-- R296: a job leaves its queue; the read pointer names the oldest job that has not completed. -/
def dropJob (s : State) (q : Queue) (j : Nat) : Queue :=
  let rest := q.jobs.erase j
  { q with jobs := rest, rptr := (rest.findSome? fun i => (jobAt s i).bind Job.ring).getD q.wptr }

/-- What came in on a queue from other stages for a job of the front device goes; it is not consumed (R377, R380). -/
def purgeMsgs (s : State) (q j : Nat) : State :=
  let keep (m : InMsg) : Bool := !(m.queue == q && m.job == j)
  onFab { s with inMsgs := s.inMsgs.filter keep } fun b => { b with partMsgs := b.partMsgs.filter fun m => keep m.msg }

/-- R377: what other members hear of the end of a job: the front device of a relay job; the stages, of a job of the front queue. -/
def tellEnd (s : State) (j : Nat) (x : Job) (good : Bool) (detail : Nat) : State :=
  match x.relay with
  | some r => placeSend s (r.place / 65536) (.jobDone r.place r.stage r.job good detail) false
  | none => match frontOf s x.queue with
    | none => s
    | some (pl, f) =>
      if !good then (if x.started then tellOthers (purgeMsgs s x.queue j) f (.endJob pl j) false else s)
      else match x.session.bind fun n => (sessionAt s n).map fun v => (n, v.len) with
        | some (n, len) => tellOthers s f (.grown pl n len) false
        | none => s

/-- A job is over with a status: it gives back what it holds and its record goes out. -/
def endJob (s : State) (j status detail r0 r1 : Nat) : State :=
  match jobAt s j with
  | none => s
  | some x =>
    let good := status == 0 || status == 1
    let s1 := if good || !x.started then s else rollback s x
    let s2 := releaseJob s1 x
    let s3 := modQueue s2 x.queue fun q =>
      if x.ring.isNone then { q with jobs := q.jobs.erase j, replay := q.replay && x.replaySteps == 0 }
      else dropJob s2 (if good then aggregate q x else q) j
    let s4 := match x.session with
      | some n => modSession s3 n fun v =>
          { v with jobs := v.jobs.erase j, lastRef := s.tick,
                   reingest := if x.refill && good && v.reingest == some x.lost then none else v.reingest,
                   kept := if x.refill && good then [] else v.kept }
      | none => s3
    let s45 := tellEnd s4 j x good detail
    let s5 := onFab (onK s45 fun k => { k with jobs := SMap.erase k.jobs j }) fun b =>
      { b with seenMsgs := b.seenMsgs.filter fun v => !(v.consumer == some j) }
    sweep (match handleOf s5 x.handle with
    | some h =>
      if h.record.isSome then s5
      else deliver (if x.retain && good then keepOuts s5 x.handle x.outs else s5) (jobRecord s5 h x status detail r0 r1) h
    | none => s5)

/-- Positions that a successful job adds to its session: those of its input and at most `limit` generated ones; how many it
generates the spec leaves to the program. -/
def newPositions (s : State) (x : Job) : Nat := inputPositions x.inputs + Config.freeNat s.freeCtr % (x.limit + 1)

/-- R201, R274: a job that succeeded extends its session's log. -/
def extendSession (s : State) (x : Job) : State :=
  match x.session with
  | none => s
  | some n =>
    let k := newPositions s x
    nextFree (modSession s n fun v =>
      { v with len := v.len + k, tokens := v.tokens ++ (span 0 k).map fun i => Config.freeWord (s.freeCtr + i) })

/-- Do commands of job j still run? -/
def jobRunning (s : State) (j : Nat) : Bool := s.runs.any fun r => r.2.job == j

/-- Decide the outcome of job j, if nothing of it runs any more (R342, R348). -/
def settleJob (s : State) (j : Nat) : State :=
  match jobAt s j with
  | none => s
  | some x =>
    if jobRunning s j then s
    else if x.cancelled then endJob s j 0x0010 0 0 0
    else match x.fault with
    | some (detail, cmd, pc) => endJob s j 0x0011 detail cmd pc
    | none => match x.badInput with
    | some i => endJob s j 0x0013 0 i 0
    | none =>
      if (x.cmds.all fun c => c.st == .done) && x.relays.isEmpty then
        endJob (if x.refill || x.relay.isSome then s else extendSession s x) j (if x.cold then 1 else 0) 0 x.outs.length (newPositions s x)
      else s

/-! ### Saturation (R62 to R64) -/

/-- R64: k = ceil(log2(max_mag / 32,767)), at least 1. -/
def widenK (maxMag : Nat) : Nat := (((span 1 16).find? fun k => decide (maxMag ≤ 32767 * 2 ^ k)).getD 17)

/-- R62, R63: merge a slot into the record of its tensor; whether the window closes high. -/
def mergeSlot (w t : Nat) (r : SatRec) (x : SatSlot) : SatRec × Bool :=
  let r1 := { r with satTotal := satAdd r.satTotal x.satCount.toNat,
                     maxMag := word (max r.maxMag.toNat x.maxMag.toNat),
                     winSat := satAdd r.winSat x.satCount.toNat, winElems := r.winElems + x.elems.toNat, active := true }
  if w ≤ r1.winElems then
    let high := decide (t ≤ r1.winSat.toNat)
    ({ r1 with winSat := 0, winElems := 0, events := if high then satAdd r1.events 1 else r1.events }, high)
  else (r1, false)

/-- R64: a saturation event widens the tensor's scale, if recalibration is on. -/
def recalibrate (s : State) (m tensor : Nat) (x : Model) (r : SatRec) : State :=
  if bitOf x.flags 3 then s
  else
    let k := widenK r.maxMag.toNat
    let wide := f32Mul r.scale (f32Of ⟨2 ^ k, 1⟩)
    let s1 := onK s fun q => { q with
      satRecs := SMap.set q.satRecs (65536 * m + tensor) { r with scale := wide, maxMag := 0, version := r.version + 1 },
      rescales := q.rescales ++ [⟨m, tensor, k⟩] }
    logAppend s1 0x07 x.part [m % 65536, tensor, k]

/-- R62: merge the slots that a clean command used; those of ESMX count flushes (R154). -/
def mergeSats (s : State) (j : Nat) (m program : Nat) (slots : SMap SatSlot) : State :=
  slots.foldl (fun s e =>
    if Config.slotFlush m program e.1 then modJob s j fun x => { x with flush := x.flush + e.2.satCount.toNat }
    else
      let t := Config.slotTensor m program e.1 % 65536
      match SMap.get? s.k.models m with
      | none => s
      | some x =>
        let r := mergeSlot (2 ^ x.log2W) x.steps (satRecOf s m t) e.2
        let s1 := onK s fun q => { q with satRecs := SMap.set q.satRecs (65536 * m + t) r.1 }
        if r.2 then recalibrate (raiseEvent s1 0x0001 ((jobAt s j).elim 0xFFFF Job.queue) t) m t x r.1 else s1) s

/-! ### Stops, resets and re-runs (R170, R315 to R318) -/

/-- Keeper stops the command on core c (R98) and notes that it did. -/
def stopRun (s : State) (c : Nat) : State :=
  stopCore { s with runs := SMap.modify s.runs c fun r => { r with stopped := true } } c

/-- Stop every running command that a test names. -/
def stopRuns (s : State) (f : Run → Bool) : State :=
  (s.runs.filter fun r => f r.2 && !r.2.stopped).foldl (fun s r => stopRun s r.1) s

/-- R317: the semaphores of a job: initial values plus the net effects of its completed commands. -/
def restoreSems (s : State) (j : Nat) : State :=
  match jobAt s j with
  | none => s
  | some x => x.sems.foldl (fun s m =>
      let decl := (x.cmds.flatMap fun c => c.g.sems).find? fun d => d.1 == m.1
      let net := (x.cmds.filter fun c => c.st == .done).foldl (fun n c =>
        c.g.sems.foldl (fun n d => if d.1 = m.1 then n + d.2.2 else n) n) (0 : Int)
      { s with sems := SMap.modify s.sems m.2 fun v => { v with count := ((decl.elim 0 fun d => d.2.1 : Nat) + net).toNat } }) s

/-- Zero the SSR ways of a partition (R316, R462). -/
def zeroWays (s : State) (p : Nat) : State :=
  (span 0 16).foldl (fun s w =>
    if SMap.getD s.own.ssr w 0 = p then
      { s with mem := Memory.clear s.mem (ssrBase + w * 0x200000) (ssrBase + (w + 1) * 0x200000) }
    else s) s

/-- R86, R316: clear_resident on core c, once it is idle. -/
def clearCore (s : State) (c : Nat) : State := ctrlWrite s c fun x => { x with clearPending := true }

/-- R221: the row image of a retired core goes to the next core of the partition in service. -/
def rekeyRows (s : State) (v : Queue) : List (Nat × SMap AccRow) :=
  v.ckptRows.foldl (fun l e =>
    let free := (coresUsable s v.part).filter fun c => !(l.any fun y => y.1 == c) && !(v.ckptRows.any fun y => y.1 == c)
    if (SMap.get? s.ras.coresRetired e.1).isSome then
      match free with
      | c :: _ => l ++ [(c, e.2)]
      | [] => l ++ [e]
    else l ++ [e]) []

/-- Steps that a queue's streams have done since their committed checkpoints. -/
def stepsBehind (s : State) (q : Nat) : Nat :=
  (s.k.sessions.filter fun x => x.2.queue == q).foldl (fun n x => max n (x.2.step - x.2.ckptStep)) 0

/-- R221: most steps of one replay group. -/
def replayGroup : Nat := 32

/-- R221: the next replay group of a queue, the same program over frames from the rings, ahead of every new group. -/
def queueReplay (s : State) (q steps : Nat) : State :=
  match queueAt s q with
  | none => s
  | some v =>
    let cmds := ((modelAt s v.model).elim [] fun m => SMap.getD m.graphs v.groupKind []).map fun g => { g := g : JCmd }
    if cmds = [] then s else
    let j := s.k.jobNext
    let x : Job := { handle := 0, part := v.part, queue := q, model := v.model, kind := v.groupKind, admitted := true,
                     retain := true, cmds := cmds, replaySteps := steps }
    onK s fun k => { k with jobs := SMap.set k.jobs j x, jobNext := j + 1,
                            queues := SMap.modify k.queues q fun v => { v with jobs := j :: v.jobs, replay := true } }

/-- The replay group of a queue that is under way goes. -/
def dropReplay (s : State) (q : Nat) : State :=
  let old := (s.k.jobs.filter fun x => x.2.queue == q && x.2.replaySteps != 0).map Prod.fst
  onK s fun k => { k with jobs := old.foldl SMap.erase k.jobs,
                          queues := SMap.modify k.queues q fun v =>
                            { v with jobs := v.jobs.filter fun j => !old.contains j, replay := false } }

/-- R86, R221: the rows of a queue are lost: they come back from the checkpoint slot before its next command, and its
streams are replayed from there, and the group under way runs again whole. -/
def restoreRows (s : State) (q : Nat) : State :=
  match queueAt s q with
  | none => s
  | some v =>
    let s1 := modQueue (dropReplay s q) q fun w => { w with restore := true, ckptRows := rekeyRows s v }
    let behind := stepsBehind s q
    let whole (c : JCmd) : JCmd := if c.st = .done then { c with st := .waiting, again := true, runs := c.runs + 1, told := true } else c
    let flagged := onK s1 fun k => { k with jobs := k.jobs.map fun x =>
      if x.2.queue = q ∧ x.2.started then
        (x.1, { x.2 with cmds := x.2.cmds.map whole, outFlags := if behind = 0 then x.2.outFlags else setBits x.2.outFlags 3 3 1 })
      else x }
    if v.sCap = 0 then s1 else if behind = 0 then flagged else queueReplay flagged q behind

/-- R316: a partition reset. -/
def partitionReset (s : State) (p : Nat) (cause : Nat) : State :=
  let s0 := stopRuns s fun r => (jobAt s r.job).any fun x => x.part == p
  let s1 := { s0 with runs := s0.runs.map fun r => if coreOfPart s r.1 p then (r.1, { r.2 with reset := true }) else r }
  let s2 := (span 0 32).foldl (fun s c => if coreOfPart s p c then clearCore s c else s) s1
  let s3 := zeroWays s2 p
  let s4 := (s3.k.queues.filter fun q => q.2.part == p).foldl (fun s q => restoreRows s q.1) s3
  logAppend (rcount s4 (schedRegBase + 0x18) 1) 0x09 p [cause]

/-- R318: a context teardown of a system queue. -/
def teardown (s : State) (q : Nat) : State := restoreRows (stopRuns s fun r => r.queue == q) q

/-- A fault's reset by the partition of its job (R315). -/
def resetFor (s : State) (x : Job) (cause : Nat) : State :=
  if x.part = 0 then teardown s x.queue else partitionReset s x.part cause

/-! ### Core hardware faults (R474 to R478, R488) -/

/-- 24 h of device ticks (R472, R478). -/
def dayTicks : Nat := 86400 * ticksPerSecond

/-- The ticks of a list that lie within the last 24 h. -/
def within (now : Nat) (l : List Nat) : List Nat := l.filter fun t => decide (now < t + dayTicks)

/-- R478: retire core c. -/
def retireCore (s : State) (c : Nat) : State :=
  let s1 := ctrlWrite s c fun x => { x with shRetire := true }
  let s2 := { s1 with ras := { s1.ras with coresRetired := SMap.set s1.ras.coresRetired c () } }
  let s3 := raiseEvent (logAppend s2 0x04 (corePart s c) [0, c]) 0x0300 0xFFFF c
  let p := corePart s c
  if p ≠ 0 ∧ ((span 0 32).all fun n => !coreOfPart s p n || (SMap.get? s3.ras.coresRetired n).isSome) then
    raiseEvent s3 0x0305 0xFFFF p
  else s3

/-- R478, R488: count a core hardware fault: the second within 24 h retires the core, else it is held for the full
check. -/
def coreFault (s : State) (c : Nat) : State :=
  let l := within s.tick (SMap.getD s.k.coreFaults c []) ++ [s.tick]
  let s1 := onK s fun k => { k with coreFaults := SMap.set k.coreFaults c l }
  if 2 ≤ l.length then retireCore s1 c
  else
    ctrlWrite { s1 with ras := { s1.ras with checkHold := SMap.set s1.ras.checkHold c () } } c
      fun x => { x with shBistHold := true }

/-- R474, R475: does a hardware fault of core c count against the core? -/
def againstCore (s : State) (c bits_ : Nat) (first : Bool) : Bool :=
  bitOf bits_ 0 || bitOf bits_ 2 || (bitOf bits_ 1 && mismatchOfCore s c) || (bitOf bits_ 3 && first)

/-- A command of a job waits again; the re-run of a gang is one of all its commands (R170, R243). -/
def againOf (x : Job) (cmd : Nat) (c : JCmd) : JCmd :=
  let gang := (x.cmds.find? fun d => d.g.id == cmd).elim 0 fun d => d.g.gang
  if c.g.id = cmd then { c with st := .waiting, again := true, runs := c.runs + 1 }
  else if gang ≠ 0 ∧ c.g.gang = gang ∧ c.st = .done then { c with st := .waiting, again := true, runs := c.runs + 1, told := true }
  else c

/-- Set a command of a job to wait for its next run. -/
def waitAgain (s : State) (j cmd : Nat) : State :=
  modJob { s with ras := { s.ras with reruns := s.ras.reruns + 1 } } j fun x =>
    { x with reruns := x.reruns + 1, cmds := x.cmds.map (againOf x cmd) }

/-- A command of a job runs no more, and is not run again. -/
def noRun (s : State) (j cmd : Nat) : State :=
  modJob s j fun x => { x with cmds := x.cmds.map fun c => if c.g.id = cmd then { c with st := .waiting } else c }

/-- What becomes of the command of a run that is over without success: it waits to run again, unless its job ends. -/
def runOver (s : State) (r : Run) (x : Job) : State :=
  if x.cancelled ∨ x.fault.isSome ∨ x.badInput.isSome then noRun s r.job r.cmd else waitAgain s r.job r.cmd

/-- A program fault of a job: it ends once nothing of it runs. -/
def failJob (s : State) (j detail cmd pc : Nat) : State :=
  let s1 := modJob s j fun x => { x with fault := x.fault.or (some (detail, cmd, pc)) }
  settleJob (stopRuns s1 fun r => r.job == j) j

/-- R474: the command that stored a tile is run again before the command that read it. -/
def rerunProducer (s : State) (j producer reader : Nat) : State :=
  let done := (jobAt s j).any fun x => x.cmds.any fun c => c.g.id == producer && c.st == .done
  let mark (c : JCmd) : JCmd :=
    if c.g.id = producer then { c with told := c.told || done }
    else if c.g.id = reader ∧ !c.after.contains producer then { c with after := producer :: c.after }
    else c
  modJob (if done then waitAgain s j producer else s) j fun x => { x with cmds := x.cmds.map mark }

/-- R211, R474: the streams of a queue have their initial state: their rows are zero, nothing is left to be replayed, and the
next frame of each carries the reset mark. -/
def initialStreams (s : State) (q : Nat) : State :=
  let zero (e : Nat × SMap AccRow) : Nat × SMap AccRow :=
    (e.1, e.2.map fun r => (r.1, ⟨List.replicate 128 0, List.replicate 128 0⟩))
  let mark : List RingFrame → List RingFrame
    | f :: r => { f with reset := true } :: r
    | [] => []
  let s1 := modQueue (dropReplay s q) q fun v => { v with restore := true, ckptRows := v.ckptRows.map zero }
  ((s1.k.sessions.filter fun x => x.2.queue == q).map Prod.fst).foldl (fun s n => modSession s n fun x =>
    { x with ckptStep := x.step, ring := mark (x.ring.drop (x.step - x.ringBase)), ringBase := x.step }) s1

/-- R474: a tile that is not rebuilt has failed: the second time its job ends INPUT_CHECK_FAIL, with the tile's index; that of a
recurrent checkpoint or carry ends the queue's groups under way, and its streams begin anew. -/
def keptTile (s : State) (c j : Nat) (x : Job) (t : TileLoc) (tag : Nat) : State :=
  if !x.bad.contains tag then modJob s j fun x => { x with bad := tag :: x.bad }
  else
    let f := tagFields s c t
    let fail (s : State) (i : Nat) : State := modJob s i fun x => { x with badInput := x.badInput.or (some f.1) }
    if f.2 = 4 ∧ (queueAt s x.queue).any (fun v => v.sCap != 0) = true then
      let js := (s.k.jobs.filter fun y => y.2.queue == x.queue && y.2.started && y.2.replaySteps == 0).map Prod.fst
      let s1 := initialStreams (stopRuns (js.foldl fail s) fun r => r.queue == x.queue) x.queue
      js.foldl settleJob s1
    else settleJob (stopRuns (fail s j) fun r => r.job == j) j

/-- R474: the source of a tile that core c found bad is rebuilt, as far as it can be. -/
def rebuild (s : State) (c : Nat) (r : Run) (x : Job) : State :=
  match tileAtTag s c (coreOf s c).faultAddr with
  | none => s
  | some t => match sourceOf s c x t with
    | .object n => rebuildObject s x.part n
    | .page k => rebuildPage s k
    | .producer p => rerunProducer s r.job p r.cmd
    | .slot n => loseSlot s n
    | .staging => stageAgain s
    | .beacon => psramMismatch s t
    | .kept => keptTile s c r.job x t (coreOf s c).faultAddr

/-- R315, R474 to R477: a run ended with a hardware fault. -/
def hardwareFault (s : State) (c : Nat) (r : Run) (x : Job) (fault : Nat) : State :=
  let key := cmdKey r.job r.cmd
  let last := SMap.getD s.k.lastFault key 0
  let runs := ((x.cmds.find? fun d => d.g.id == r.cmd).elim 0 JCmd.runs) + 1
  let hang := fault % 16 == 8 && last % 16 == 8 && SMap.get? s.k.avoid key != some c
  let mine := againstCore s c fault (last % 16 != 8)
  let s1 := logAppend (nextFree s) 0x03 x.part [c, fault, r.queue, r.cmd, r.run]
  let s2 := if bitOf fault 1 then logAppend s1 0x06 x.part
      [(coreOf s c).faultAddr % 2 ^ 32, (coreOf s c).faultAddr / 2 ^ 32, if mine then 2 else 1] else s1
  let s3 := onK s2 fun k => { k with lastFault := SMap.set k.lastFault key fault, avoid := SMap.set k.avoid key c }
  let s4 := runOver s3 r x
  let s5 := if mine then coreFault s4 c else s4
  let s55 := resetFor s5 x fault
  let s6 := if bitOf fault 1 && !mismatchOfCore s c then rebuild s55 c r x else s55
  if hang then failJob s6 r.job 0x2000 0 0
  else if 8 ≤ runs then failJob s6 r.job 0x4000 0 0
  else s6

/-- R315, R350: a run ended with a program fault alone. -/
def programFault (s : State) (r : Run) (x : Job) (fault pc : Nat) : State :=
  let s1 := noRun s r.job r.cmd
  failJob (resetFor s1 x fault) r.job (bits fault 14 8) r.cmd pc

/-- R317: once nothing of a job runs, its semaphores stand as its completed commands left them. -/
def settleSems (s : State) (j : Nat) : State := if jobRunning s j then s else restoreSems s j

/-- R98, R315, R318: a run that Keeper stopped is over: its command waits to run again, or its job ends. -/
def interruptRun (s : State) (r : Run) : State :=
  match jobAt s r.job with
  | none => s
  | some x => settleJob (settleSems (runOver s r x) r.job) r.job

/-- R170, R221, R243: is a command whose run ended cleanly to run again with its gang? -/
def gangAgain (x : Job) (cmd : Nat) : Bool :=
  let gang := (x.cmds.find? fun d => d.g.id == cmd).elim 0 fun d => d.g.gang
  gang != 0 && x.cmds.any fun d => d.g.gang == gang && d.st == .waiting && d.again

/-! ### Clean ends -/

/-- R219: the group that completes step k × N commits its checkpoint: the resident rows as they stand are the slot's
row image. -/
def commitCkpt (s : State) (q : Nat) (members : List Nat) : State :=
  match queueAt s q with
  | none => s
  | some v =>
    if v.sCap = 0 then s
    else
      let streams := s.k.sessions.filter fun x => x.2.queue == q && members.contains x.1
      let s1 := streams.foldl (fun s x => modSession s x.1 fun x => { x with step := x.step + v.steps }) s
      let due := streams.any fun x => v.ckptN != 0 && (x.2.step + v.steps) / v.ckptN != x.2.step / v.ckptN
      if !due then s1
      else
        let rows := (rowCores s v.part q).map fun c =>
          (c, ((coreOf s c).rowOwner.filter fun r => r.2 == q).map fun r => (r.1, accRow (coreOf s c) r.1))
        let s2 := modQueue s1 q fun v => { v with ckptSlot := 1 - v.ckptSlot, ckptRows := rows }
        ((s.k.sessions.filter fun x => x.2.queue == q).map Prod.fst).foldl (fun s x => modSession s x fun x =>
          { x with ckptStep := x.step, ring := x.ring.drop (x.step - x.ringBase), ringBase := x.step }) s2

/-- R221: a replay group is over: the next one follows, until the streams are where they were. -/
def endReplay (s : State) (j : Nat) (x : Job) : State :=
  let rest := x.replaySteps - replayGroup
  let s1 := onK s fun k => { k with jobs := SMap.erase k.jobs j,
                                    queues := SMap.modify k.queues x.queue fun v =>
                                      { v with jobs := v.jobs.erase j, replay := false } }
  if rest = 0 then s1 else queueReplay s1 x.queue rest

/-- R354: one tile leaves in a STREAM message. -/
def streamTile (s : State) (assoc h ix : Nat) (last : Bool) (t : Tile) : State :=
  sendMsg s assoc 0x13 (leBytes 4 h ++ leBytes 2 0 ++ leBytes 2 (b2n last) ++ leBytes 4 ix ++ t.tag ++ t.payload) []

/-- R354: the output tiles of a clean command go out as STREAM messages, or are kept; `last` where it is the job's last
command. -/
def sendOuts (s : State) (j : Nat) (ts : List Tile) (last : Bool) : State :=
  match jobAt s j with
  | none => s
  | some x =>
    let first := x.outs.length
    let s1 := modJob s j fun x => { x with outs := x.outs ++ ts }
    if x.retain then s1
    else match handleOf s x.handle with
    | none => s1
    | some h => (span 0 ts.length).foldl (fun s i => match ts[i]? with
        | some t => streamTile s h.assoc x.handle (first + i) (last && i + 1 == ts.length) t
        | none => s) s1

/-- R190: commit the pages of a clean command, or end its job if one fails its check.  While positions of the session are to be
ingested again, a job under way commits none (log 24). -/
def commitPages (s : State) (j cmd : Nat) : State :=
  match jobAt s j with
  | none => s
  | some x =>
    match x.session.bind fun n => (sessionAt s n).bind fun v => (modelAt s v.model).map fun m => (n, v, m) with
    | none => s
    | some (n, v, m) =>
      let pages := ((x.cmds.find? fun c => c.g.id == cmd).elim [] JCmd.pages)
      if pages = [] ∨ (v.reingest.isSome ∧ !x.refill) then s
      else writeHeaders (pages.foldl (fun s g =>
        if auxOk s n m v g then
          modJob (commitPage s n m v g) j fun x => { x with sealed := x.sealed ++ [g] }
        else failJob (if m.layout = 0 then s else freeSeal s g) j 0 cmd 0) s) n

/-- R297, R319: a run ended cleanly. -/
def cleanEnd (s : State) (c : Nat) (r : Run) (x : Job) (t sh ww cause : Nat) (outs : List Tile) : State :=
  let program := ((x.cmds.find? fun d => d.g.id == r.cmd).elim 0 fun d => d.g.program)
  let s1 := mergeSats s r.job x.model program (coreOf s c).sat
  let s2 := modJob s1 r.job fun x =>
    { x with sumT := x.sumT + t, sumS := x.sumS + sh, weightWait := x.weightWait + ww, cause := x.cause ||| cause,
             stored := r.stored.foldl (fun m t => SMap.set m t r.cmd) x.stored,
             cmds := x.cmds.map fun d => if d.g.id = r.cmd then { d with st := .done } else d }
  let s3 := onK s2 fun k => { k with lastFault := SMap.erase k.lastFault (cmdKey r.job r.cmd),
                                     avoid := SMap.erase k.avoid (cmdKey r.job r.cmd) }
  let last := (jobAt s3 r.job).any fun x => x.cmds.all fun d => d.st == .done
  let told := x.cmds.any fun d => d.g.id == r.cmd && d.told
  let s4 := sendOuts (commitPages s3 r.job r.cmd) r.job (if told then [] else outs) last
  match (jobAt s4 r.job).filter fun x => x.cmds.all fun d => d.st == .done with
  | none => settleJob s4 r.job
  | some y => if y.replaySteps ≠ 0 then endReplay s4 r.job y else settleJob (commitCkpt s4 r.queue y.members) r.job

/-! ### What every end report counts (R309, R310, R313) -/

/-- R309: the sectors that opened on core c while the command ran. -/
def countOverrun (s : State) (c : Nat) (r : Run) : State :=
  r.opened.foldl (fun s o =>
    let late := s.tick - o.2.1
    let s1 := modQueue s r.queue fun q => { q with aggOver := q.aggOver + 1 }
    if o.2.2 * ticksPerUs < late then
      logAppend (raiseEvent (rcount s1 (schedRegBase + 8) 1) 0x0003 r.queue o.1) 0x08 (corePart s c)
        [r.queue, o.1, late / ticksPerUs]
    else s1) s

/-- R310: a budget violation; the third of a real-time queue within one rotation demotes it. -/
def countViolation (s : State) (r : Run) (budget : Nat) : State :=
  if s.tick - r.launched ≤ budget * ticksPerUs then s
  else
    let s1 := modQueue (rcount s (schedRegBase + 0xC) 1) r.queue fun q =>
      { q with aggViol := q.aggViol + 1,
               viols := (q.viols.filter fun t => decide ((rotOf s q.part).lastStart ≤ t)) ++ [s.tick] }
    match queueAt s1 r.queue with
    | some q =>
      if q.cls = 1 ∧ !q.demoted ∧ (rotOf s1 q.part).period ≠ 0 ∧ 3 ≤ q.viols.length then
        let s2 := modQueue s1 r.queue fun q => { q with demoted := true, demotedAt := s1.tick }
        let s3 := rsetBits (rcount s2 (schedRegBase + 0x14) 1) (schedRegBase + 0x4000 + 8 * r.queue) 30 30 1
        raiseEvent s3 0x0004 r.queue 0
      else s1
    | none => s1

/-- R313: the time of a donated command. -/
def countDonation (s : State) (r : Run) : State :=
  match r.donated with
  | none => s
  | some j =>
    let t := s.tick - r.launched
    let s1 := modJob (rcount s (schedRegBase + 0x10) 1) r.job fun x => { x with donatedIn := x.donatedIn + t }
    modJob (modQueue s1 r.queue fun q => { q with aggDon := q.aggDon + 1 }) j fun x => { x with donatedOut := x.donatedOut + t }

/-- R314, R172: the credits of the messages that a command received return when it completes cleanly; the messages are
consumed.  A run that failed leaves them to the next run. -/
def consumeMsgs (s : State) (c : Nat) (clean : Bool) : State :=
  if !clean then { s with inMsgs := s.inMsgs.map fun m => if m.taken = some c then { m with taken := none } else m }
  else
    let mine := s.inMsgs.filter fun m => m.taken == some c
    let credits := mine.map fun m =>
      { type := 0x02, dest := m.src, src := s.fab.addr, destQueue := m.srcQueue, srcQueue := m.queue,
        creditReturn := m.frames, creditQueue := m.srcQueue : FabFrame }
    let by_ := (SMap.get? s.runs c).map Run.job
    let took (v : SeenMsg) : Bool := mine.any fun m => m.src == v.src && m.job == v.job && m.command == v.command
      && m.sendIx == v.sendIx && m.queue == v.queue
    let mark (v : SeenMsg) : SeenMsg := if took v then { v with consumer := by_ } else v
    let s1 := onFab s fun b => { b with seenMsgs := b.seenMsgs.map mark }
    fabSendAll { s1 with inMsgs := s1.inMsgs.filter fun m => !(m.taken == some c) } credits

/-- Keeper reads the end report of core c; `outs` are the output tiles that the command stored, which the model's declarations
name. -/
def takeEndReport (s : State) (c : Nat) (outs : List Tile) : State :=
  if !mbxFull s.mbx (64 + c) then s
  else
    let w (k : Nat) : Nat := (mbxWord s.mbx (64 + c) k).toNat
    let s1 := mbxTake s (.keeper 0) (64 + c)
    match SMap.get? s1.runs c with
    | none => s1
    | some r =>
      match jobAt s1 r.job with
      | none => { s1 with runs := SMap.erase s1.runs c }
      | some x =>
        let budget := (x.cmds.find? fun d => d.g.id == r.cmd).elim 0 fun d => d.g.budget
        let s2 := countDonation (countViolation (countOverrun s1 c r) r budget) r
        let clean := bits (w 1) 14 0 == 0 && !bitOf (w 5) 31 && !gangAgain x r.cmd
        let s25 := consumeMsgs s2 c clean
        let s3 := { s25 with runs := SMap.erase s25.runs c }
        let s4 :=
          if bits (w 1) 3 0 ≠ 0 then settleJob (settleSems (hardwareFault s3 c r x (w 1)) r.job) r.job
          else if bits (w 1) 14 8 ≠ 0 then programFault s3 r x (w 1) (coreOf s c).faultPc.toNat
          else if bitOf (w 5) 31 || gangAgain x r.cmd then interruptRun s3 r
          else cleanEnd s3 c r x (w 2) (w 3) (w 4) (bits (w 5) 6 0) outs
        tryLower (reschedule s4 x.part)

end Sys2Proof.Machine
end

