-- ==== Sys2Proof/Machine/QueueReq.lean ====
section
/-! DEFINITION. Sys2Proof/Machine/QueueReq.lean: QUEUE_CREATE, QUEUE_DESTROY, QUEUE_SETTINGS and SCHEDULE_SET (R217, R295, R303,
R304, R308, R314, R342). -/

namespace Sys2Proof.Machine

/-! ### Naming objects of a partition (R332, R349) -/

/-- A request names a queue of principal p: NOT_FOUND where it is absent or going, NOT_PERMITTED where it is another
partition's. -/
def withQueue (s : State) (h p q : Nat) (go : Queue → State) : State :=
  match queueAt s q with
  | none => complete s h 0x001C
  | some v =>
    if v.part ≠ p then complete s h 0x0015
    else if v.destroy.isSome then complete s h 0x001C
    else go v

/-- The same for a session. -/
def withSession (s : State) (h p n : Nat) (go : Session → State) : State :=
  match sessionAt s n with
  | none => complete s h 0x001C
  | some v =>
    if v.part ≠ p then complete s h 0x0015
    else if v.closing.isSome then complete s h 0x001C
    else go v

/-- A model of partition p that is not being unloaded. -/
def liveModel (s : State) (m : Nat) : Option Model :=
  match modelAt s m with
  | some x => if x.unload.isSome then none else some x
  | none => none

/-! ### R308 -/

/-- The shortest valid sector of a table that names a queue, in µs; none where none does. -/
def shortestSector (table : SMap Sector) (q : Nat) : Option Nat :=
  (table.filter fun e => e.2.valid && e.2.queue == q).foldl (fun b e => match b with
    | some n => some (min n (10 * e.2.length))
    | none => some (10 * e.2.length)) none

/-- Gaps in µs on core c between sectors of other queues, each less the guard of the sector that ends it; they follow one
another around the period. -/
def gapsOn (table : SMap Sector) (period c q : Nat) : List Nat :=
  let l := sortBy (fun a b => decide (a.start ≤ b.start))
    ((table.filter fun e => e.2.valid && e.2.queue != q && bitOf e.2.coreSet c).map Prod.snd)
  (span 0 l.length).map fun i =>
    let a := l.getD i {}
    let b := l.getD (i + 1) { (l.getD 0 {}) with start := (l.getD 0 {}).start + period }
    10 * (b.start - (a.start + a.length)) - b.guardUs

/-- R308: could every command of these budgets start under a table? -/
def budgetsFit (s : State) (p q : Nat) (v : Queue) (table : SMap Sector) (period : Nat) (budgets : List Nat) : Bool :=
  let top := budgets.foldl max 0
  if period = 0 then true
  else if v.cls = 1 ∧ !v.demoted then (shortestSector table q).all fun n => decide (top ≤ n)
  else
    (span 0 32).any fun c => coreOfPart s p c
      && (let l := gapsOn table period c q
          l.isEmpty || l.any fun n => decide (top ≤ n))

/-! ### QUEUE_CREATE -/

/-- Defaults of R217 and R295 stand for arguments that are 0 (DEDUCED, log 22): depth. -/
def orDefault (v d : Nat) : Nat := if v = 0 then d else v

/-- The queue that the arguments of QUEUE_CREATE describe (R217, R295). -/
def queueFrom (p mkey : Nat) (a : List Byte) : Queue :=
  let stream := arg a 8 2 != 0
  let t := if stream then orDefault (arg a 10 1) (1 + Config.streamSteps mkey % 64) else arg a 10 1
  let n := if stream then orDefault (arg a 12 4) (alignUp 4096 (max 1 t)) else arg a 12 4
  { part := p, cls := arg a 2 1, prio := arg a 3 1, depth := orDefault (arg a 4 1) 1, thresh := arg a 6 2, model := mkey,
    sCap := arg a 8 2, steps := t, flags := arg a 11 1, ckptN := n,
    ringCap := if stream then orDefault (arg a 16 4) (2 * n + 2 * t) else arg a 16 4, nRoutes := arg a 5 1 }

/-- Is a slowdown threshold in range (R295)? -/
def threshOk (v : Nat) : Bool := v == 0 || decide (0x0100 ≤ v)

/-- R217: are the stream parameters in range? -/
def streamOk (v : Queue) (kind : Nat) : Bool :=
  if v.sCap = 0 then kind != 2
  else kind == 2 && decide (v.sCap ≤ 960 / max 1 (Config.streamRows v.model)) && decide (1 ≤ v.steps) && decide (v.steps ≤ 64)
    && decide (v.steps ≤ v.ckptN) && decide (v.ckptN ≤ 65536) && v.ckptN % v.steps == 0
    && decide (2 * v.ckptN + 2 * v.steps ≤ v.ringCap) && decide (v.ringCap ≤ 2 ^ 20)

/-- Fields of QUEUE_CREATE with n routes. -/
def queueFields (n : Nat) : List (Nat × Nat) :=
  [(0, 2), (2, 1), (3, 1), (4, 1), (5, 1), (6, 2), (8, 2), (10, 1), (11, 1), (12, 4), (16, 4)]
    ++ (span 0 n).map fun i => (20 + 8 * i, 6)

/-- Are the arguments of QUEUE_CREATE in range, but for the stream parameters? -/
def queueArgsOk (a : List Byte) : Bool :=
  let n := arg a 5 1
  decide (n ≤ 16) && argsOk a (queueFields n) && decide (arg a 2 1 ≤ 1) && decide (arg a 3 1 ≤ 7) && decide (arg a 4 1 ≤ 16)
    && threshOk (arg a 6 2) && decide (arg a 11 1 ≤ 3)
    && (span 0 n).all fun i => decide (1 ≤ arg a (24 + 8 * i) 2) && decide (arg a (24 + 8 * i) 2 ≤ 256)

/-- The routes of the arguments of QUEUE_CREATE (R314). -/
def routesOf (a : List Byte) : List Route :=
  (span 0 (arg a 5 1)).map fun i =>
    { dest := arg a (20 + 8 * i) 2, destQueue := arg a (22 + 8 * i) 2, credits := arg a (24 + 8 * i) 2,
      total := arg a (24 + 8 * i) 2 }

/-- R314: the receive buffers of routes: on this device in fixed frames of the destination queue's partition; what another
device answers is free. -/
def reserveRoutes (s : State) : List Route → Option (State × List Nat)
  | [] => some (s, [])
  | r :: l =>
    let here := if r.dest = s.fab.addr then
        match queueAt s r.destQueue with
        | none => none
        | some v => allocFixed s v.part (ceilDiv (r.total * 4096) 0x10000)
      else if Config.freeBool s.freeCtr then some (nextFree s, []) else none
    match here with
    | none => none
    | some (t, fs) => (reserveRoutes t l).map fun x => (x.1, fs ++ x.2)

/-- Host queues begin here (R294). -/
def firstHostQueue : Nat := 16
/-- Queues of the device (R326). -/
def queueCount : Nat := 1024

/-- The queue with its frames and routes, or none where something is lacking. -/
def createQueue (s : State) (v : Queue) (rs : List Route) : Option (State × Nat) :=
  match SMap.firstFree s.k.queues firstHostQueue (queueCount - firstHostQueue), allocFixed s v.part 1 with
  | some q, some (s1, ring) =>
    match reserveRoutes s1 rs with
    | none => none
    | some (s2, fs) =>
      let s3 := onK s2 fun k => { k with queues := SMap.set k.queues q { v with frames := ring ++ fs } }
      let put (m : SMap Route) (i : Nat) : SMap Route := match rs[i]? with
        | some r => SMap.set m (16 * q + i) r
        | none => m
      some (syncQueue { s3 with routes := (span 0 rs.length).foldl put s3.routes } q, q)
  | _, _ => none

/-- QUEUE_CREATE. -/
def execQueueCreate (rq : Request) (s : State) : Host.Outcome State Fault Refusal :=
  .next (onRequest s rq 0x03 (some 0) queueArgsOk fun s h p =>
    let mkey := modelKey p (arg rq.args 0 2)
    match liveModel s mkey with
    | none => complete s h 0x001C
    | some m =>
      let v := queueFrom p mkey rq.args
      if !streamOk v m.kind then complete s h 0x001D
      else match createQueue s v (routesOf rq.args) with
      | none => complete (nextFree s) h 0x0017
      | some (t, q) => complete t h 0 q)

/-- QUEUE_DESTROY: once its admitted jobs have ended. -/
def execQueueDestroy (rq : Request) (s : State) : Host.Outcome State Fault Refusal :=
  .next (onRequest s rq 0x04 (some 0) (fun a => argsOk a [(0, 2)]) fun s h p =>
    let q := arg rq.args 0 2
    if q < firstHostQueue then complete s h (if p = 0 then 0x001D else 0x0015)
    else withQueue s h p q fun _ =>
      let t := sweepQueues (modQueue s q fun v => { v with destroy := some h })
      if (queueAt t q).isSome then t else syncQueue t q)

/-- QUEUE_SETTINGS: in force at the next rotation start, or at once in a partition without one (R295, R303); the class of a
system queue stays. -/
def execQueueSettings (rq : Request) (s : State) : Host.Outcome State Fault Refusal :=
  let a := rq.args
  let mask := arg a 2 1
  let ok (a : List Byte) : Bool := argsOk a [(0, 2), (2, 1), (3, 1), (4, 1), (5, 1), (6, 2)] && decide (arg a 2 1 ≤ 15)
    && (!bitOf (arg a 2 1) 0 || decide (arg a 3 1 ≤ 1)) && (!bitOf (arg a 2 1) 1 || decide (arg a 4 1 ≤ 7))
    && (!bitOf (arg a 2 1) 2 || (decide (1 ≤ arg a 5 1) && decide (arg a 5 1 ≤ 16)))
    && (!bitOf (arg a 2 1) 3 || threshOk (arg a 6 2))
  .next (onRequest s rq 0x05 (some 0) ok fun s h p =>
    let q := arg a 0 2
    withQueue s h p q fun _ =>
      if q < firstHostQueue ∧ bitOf mask 0 then complete s h 0x001D else
      let x : QSet := { handle := h, mask := mask, cls := arg a 3 1, prio := arg a 4 1, depth := arg a 5 1, thresh := arg a 6 2 }
      let s1 := modQueue s q fun v => { v with pend := v.pend ++ [x] }
      if (rotOf s p).period = 0 then reschedule (applySettings s1 q) p else s1)

/-! ### SCHEDULE_SET -/

/-- A sector from the words of SCHED_SECTOR (R325). -/
def sectorOfBytes (b : List Byte) : Sector :=
  let w0 := arg b 0 4
  { valid := bitOf w0 31, releaseIdle := bitOf w0 30, start := bits w0 23 10, queue := bits w0 9 0,
    length := bits (arg b 4 4) 13 0, coreSet := arg b 8 4, guardUs := bits (arg b 12 4) 7 0 }

/-- Are the reserved bits of a sector's words 0? -/
def sectorBytesOk (b : List Byte) : Bool :=
  bits (arg b 0 4) 29 24 == 0 && bits (arg b 4 4) 31 14 == 0 && bits (arg b 12 4) 31 8 == 0

/-- The range of sector entries that a partition's table may take: the lowest that no other partition's range meets. -/
def freeRange (s : State) (p count : Nat) : Option Nat :=
  (span 0 513).find? fun f => decide (f + count ≤ 512) && s.sched.rots.all fun r =>
    r.1 == p || ((r.2.count == 0 || count == 0 || decide (f + count ≤ r.2.first) || decide (r.2.first + r.2.count ≤ f))
      && (!r.2.armed || r.2.shCount == 0 || count == 0 || decide (f + count ≤ r.2.shFirst)
        || decide (r.2.shFirst + r.2.shCount ≤ f)))

/-- R304: would the table leave an admitted job with a command that could never start? -/
def jobsFit (s : State) (p period : Nat) (table : SMap Sector) : Bool :=
  s.k.jobs.all fun x => x.2.part != p || match queueAt s x.2.queue with
    | some v => budgetsFit s p x.2.queue v table period (x.2.cmds.map fun c => c.g.budget)
    | none => true

/-- SCHEDULE_SET: Keeper checks the table, writes it to the shadow and arms it; a count above 64 fails the checks of R304. -/
def execScheduleSet (rq : Request) (s : State) : Host.Outcome State Fault Refusal :=
  let a := rq.args
  let ok (a : List Byte) : Bool :=
    decide (64 < arg a 4 1) || (argsOk a ([(0, 4), (4, 1)] ++ (span 0 (arg a 4 1)).map fun i => (16 + 16 * i, 16))
      && (span 0 (arg a 4 1)).all fun i => sectorBytesOk (part a (16 + 16 * i) 16))
  .next (onRequest s rq 0x06 (some 0) ok fun s h p =>
    let period := arg a 0 4
    let count := arg a 4 1
    match freeRange s p count with
    | none => complete s h 0x001B
    | some first =>
      let secs := (span 0 count).map fun i => (first + i, sectorOfBytes (part a (16 + 16 * i) 16))
      if !tableOk s p period count first secs || !jobsFit s p period secs then complete s h 0x001B
      else
        let r := rotOf s p
        let s1 := onSched s fun x => { x with shSectors := secs.foldl (fun m e => SMap.put m e.1 e.2 {}) x.shSectors }
        let s2 := setRot s1 p { r with shPeriod := period, shCount := count, shFirst := first,
                                       waiting := r.waiting ++ [(h, first)] }
        reschedule (armTable s2 p) p)

end Sys2Proof.Machine
end

