-- ==== Sys2Proof/Machine/SessReq.lean ====
section
/-! DEFINITION. Sys2Proof/Machine/SessReq.lean: OPEN_SESSION, CLOSE_SESSION, SESSION_SETTINGS and SUBMIT_INPUT (R192, R199, R209,
R218, R274, R275, R341, R342). -/

namespace Sys2Proof.Machine

/-- Sessions of the device (R181). -/
def sessionCount : Nat := 65536

/-- Does a model work on stream queues (R284)? -/
def isStream (m : Model) : Bool := m.kind == 2

/-- The place of a new session: a stream slot of its queue, a session place of a HEAD_STRIPED model, or none needed. -/
def newPlace (s : State) (mkey q : Nat) (m : Model) : Option Nat :=
  if isStream m then (queueAt s q).bind fun v => freePlace s v.sCap fun x => x.queue == q
  else if hasPlaces m then freePlace s m.sMax fun x => x.model == mkey
  else some 0

/-- Make a session: its token log, its page table and its staging slots are reserved (R180, R194, R274). -/
def makeSession (s : State) (v : Session) (m : Model) (n : Nat) : Option State :=
  match allocFixed s v.part (tokenFrames m) with
  | none => none
  | some (s1, fs) => reserveKv (onK s1 fun k => { k with sessions := SMap.set k.sessions n { v with logFrames := fs } }) n

/-- R192, R274: would n more positions take a session beyond its context or its log limit? -/
def contextFull (s : State) (ix : Nat) (v : Session) (n : Nat) : Bool :=
  match modelAt s v.model with
  | none => false
  | some m =>
    let pagesAfter := sealCount s ix 0 + (slotFill s ix v + n) / pagePositions v.sealFmt
    (m.kvHeads != 0 && m.layout == 0 && decide (m.cMax < v.len + n))
      || (m.kvHeads != 0 && m.layout == 1 && decide (1024 < pagesAfter))
      || (m.kind == 1 && decide ((if m.layout = 0 then m.cMax else m.logLimit) < v.len + n))

/-- Does a queue argument fit a model: a queue of its own for streams, 0xFFFF else (R341)? -/
def queueArgOk (s : State) (mkey q : Nat) (m : Model) : Bool :=
  if isStream m then (queueAt s q).any fun v => v.model == mkey else q == 0xFFFF

/-- R377: a session is made; on the front device of a placement it is opened on every other stage too, and completes once all
have confirmed. -/
def openStages (s : State) (mkey h n fmt : Nat) : State :=
  match frontOfModel s mkey with
  | none => complete s h 0 n
  | some (pl, f) =>
    let others := span 1 (f.plan.stages.length - 1)
    if others = [] then complete s h 0 n
    else
      let w : StageOpen := { handle := h, session := n, waiting := others }
      others.foldl (fun s i => placeSend s ((f.plan.stages[i]?).elim 0 Stage.addr) (.openSession pl i n fmt) true)
        (onFab s fun b => { b with fronts := SMap.set b.fronts pl { f with opens := f.opens ++ [w] } })

/-- OPEN_SESSION. -/
def execOpenSession (rq : Request) (s : State) : Host.Outcome State Fault Refusal :=
  let a := rq.args
  let fmt := arg a 4 1
  let q := arg a 2 2
  .next (onRequest s rq 0x10 (some 1)
    (fun a => argsOk a [(0, 2), (2, 2), (4, 1)] && (decide (arg a 4 1 ≤ 1) || arg a 4 1 == 0xFF)) fun s h p =>
    let mkey := modelKey p (arg a 0 2)
    match liveModel s mkey with
    | none => complete s h 0x001C
    | some m =>
      if isStream m && (queueAt s q).isNone then complete s h 0x001C
      else if isStream m && (queueAt s q).any fun v => v.part != p then complete s h 0x0015
      else if !queueArgOk s mkey q m || (fmt == 1 && !bitOf m.flags 0 && m.sealFmt == 0) then complete s h 0x001D
      else match newPlace s mkey q m, SMap.firstFree s.k.sessions 0 sessionCount with
      | some place, some n =>
        let v : Session := { part := p, model := mkey, queue := q, sealFmt := if fmt = 0xFF then m.sealFmt else fmt,
                             place := place, lastRef := s.tick }
        match makeSession s v m n with
        | some t => openStages t mkey h n v.sealFmt
        | none => complete s h 0x0017
      | _, _ => complete s h 0x0017)

/-- CLOSE_SESSION: once its admitted jobs have ended. -/
def execCloseSession (rq : Request) (s : State) : Host.Outcome State Fault Refusal :=
  .next (onRequest s rq 0x11 (some 1) (fun a => argsOk a [(0, 4)]) fun s h p =>
    withSession s h p (arg rq.args 0 4) fun _ =>
      sweepSessions (modSession s (arg rq.args 0 4) fun v => { v with closing := some h }))

/-- SESSION_SETTINGS: a seal format takes effect at the next empty slot; a session without admitted jobs goes cold. -/
def execSessionSettings (rq : Request) (s : State) : Host.Outcome State Fault Refusal :=
  let a := rq.args
  let ok (a : List Byte) : Bool := argsOk a [(0, 4), (4, 1), (5, 1)] && (decide (arg a 4 1 ≤ 1) || arg a 4 1 == 0xFF)
    && decide (arg a 5 1 ≤ 1)
  .next (onRequest s rq 0x12 (some 1) ok fun s h p =>
    let n := arg a 0 4
    withSession s h p n fun v =>
      let permits := (modelAt s v.model).any fun m => bitOf m.flags 0 || m.sealFmt == 1
      if arg a 4 1 = 1 ∧ !permits then complete s h 0x001D
      else
        let s1 := if arg a 4 1 = 0xFF then s
          else applySealFormat (modSession s n fun v => { v with sealNext := some (arg a 4 1) }) n
        let s2 := if bitOf (arg a 5 1) 0 && !sessionBusy s1 v then goCold s1 n else s1
        complete s2 h 0)

/-! ### SUBMIT_INPUT (R218) -/

/-- The reset mark of frame i of a request: one bit per frame for the first 32. -/
def resetMark (a : List Byte) (i : Nat) : Bool := decide (i < 32) && bitOf (arg a 8 4) i

/-- SUBMIT_INPUT: frames of A16 tiles go to the ring of a stream, all of them or none. -/
def execSubmitInput (rq : Request) (s : State) : Host.Outcome State Fault Refusal :=
  let a := rq.args
  .next (onRequest s rq 0x14 (some 1) (fun a => argsOk a [(0, 4), (4, 4), (8, 4)]) fun s h p =>
    let n := arg a 0 4
    withSession s h p n fun v =>
      let q := queueAt s v.queue
      if (liveModel s v.model).isNone ∨ q.isNone then complete s h 0x001C
      else if arg a 4 4 ≠ rq.tiles.length then complete s h 0x001D
      else withTiles s h rq.tiles 1 0 (fun f => f == 1) fun s =>
        if contextFull s n v rq.tiles.length then complete s h 0x0018
        else if q.any fun q => decide (q.ringCap < v.ring.length + rq.tiles.length) then complete s h 0x001A
        else
          let new := (span 0 rq.tiles.length).filterMap fun i => (rq.tiles[i]?).map fun t => (⟨t, resetMark a i⟩ : RingFrame)
          complete (modSession s n fun v => { v with ring := v.ring ++ new, lastRef := s.tick }) h 0 new.length
            (v.ring.length + new.length))

end Sys2Proof.Machine
end

