-- ==== Sys2Proof/Machine/JobReq.lean ====
section
/-! DEFINITION. Sys2Proof/Machine/JobReq.lean: INVOKE, CANCEL, QUERY_HANDLE and READ_OUTPUT, and how Keeper admits jobs, ingests
sessions again and shifts stored values (R34, R64, R190, R201, R220, R265, R276, R296, R308, R340, R342, R347, R353). -/

namespace Sys2Proof.Machine

/-! ### INVOKE -/

/-- R500: does a mode lie above the highest one that this start reached, step B21 being disabled? -/
def aboveCeiling (s : State) (m : Mode) : Bool := s.power.ceiling.any fun c => decide (modeNo c < modeNo m)


/-- R479: the command graph of a job kind: the fallback where a halo group finds no SSR way in service. -/
def graphFor (s : State) (p : Nat) (m : Model) (kind : Nat) : Option (List GCmd) :=
  match SMap.get? m.graphs kind with
  | none => none
  | some g =>
    let ways := (span 0 16).filter fun w => SMap.getD s.own.ssr w 0 == p && (SMap.get? s.ras.waysRetired w).isNone
    if g.any (fun c => bitOf c.flags 3) && ways.isEmpty then
      match SMap.get? m.fallback kind with
      | some f => some f
      | none => some g
    else some g

/-- Entries of a queue's ring from its read pointer to its write pointer (R296); Keeper's own jobs take none. -/
def ringJobs (s : State) (v : Queue) : Nat :=
  match v.jobs.findSome? fun j => (jobAt s j).bind Job.ring with
  | some r => (v.wptr + 255 - r) % 256 + 1
  | none => 0

/-- R305: a real-time queue that no valid sector names. -/
def unscheduled (s : State) (p q : Nat) (v : Queue) : Bool :=
  v.cls == 1 && !v.demoted && (rotOf s p).period != 0 && !((rotOf s p).table.any fun e => e.2.valid && e.2.queue == q)

/-- A job takes the next entry of a queue's ring (R296). -/
def putJob (s : State) (x : Job) : State :=
  let j := s.k.jobNext
  let y := { x with ring := (queueAt s x.queue).map Queue.wptr }
  let s1 := onK s fun k => { k with jobs := SMap.set k.jobs j y, jobNext := j + 1 }
  let s2 := modQueue s1 x.queue fun v => { v with jobs := v.jobs ++ [j], wptr := (v.wptr + 1) % 256 }
  match x.session with
  | some n => modSession s2 n fun v => { v with jobs := v.jobs ++ [j], lastRef := s.tick }
  | none => s2

/-- R516: at a job admission a queue is re-pointed to the model of a switch. -/
def repoint (s : State) (q : Nat) : State :=
  modQueue s q fun v => { v with model := v.nextModel.getD v.model, nextModel := none }

/-- Is a session's model the queue's, or about to be (R516)? -/
def sameModel (s : State) (a b : Nat) : Bool := a == b || s.k.switches.any fun w => w.old == a && w.new == b

/-- Fields of INVOKE. -/
def invokeFields : List (Nat × Nat) := [(0, 2), (2, 2), (4, 4), (8, 1), (9, 1), (10, 2), (12, 4), (16, 60)]

/-- The formats that R68 assigns. -/
def knownFormat (f : Nat) : Bool := decide (1 ≤ f) && decide (f ≤ 0x0B)

/-- What INVOKE does once its queue, model and session are found: the tiles are checked, then ring, budgets and context. -/
def invokeOn (s : State) (h p q : Nat) (v : Queue) (rq : Request) (ses : Option (Nat × Session)) (g : List GCmd) : State :=
  let a := rq.args
  withTiles s h rq.tiles 1 0 knownFormat fun s =>
    if 256 ≤ ringJobs s v then complete s h 0x0019
    else if !budgetsFit s p q v (rotOf s p).table (rotOf s p).period (g.map GCmd.budget) then complete s h 0x0012
    else if ses.any fun x => contextFull s x.1 x.2 (inputPositions rq.tiles + arg a 12 4) then complete s h 0x0018
    else
      let x : Job := { handle := h, part := p, queue := q, model := v.model, kind := arg a 2 2, session := ses.map Prod.fst,
                       minPrec := arg a 8 1, retain := arg a 9 1 == 1, limit := arg a 12 4, args := part a 16 60,
                       inputs := rq.tiles, cmds := g.map fun c => { g := c } }
      if aboveCeiling s (neededMode s x) then complete s h 0x0017
      else putJob (if unscheduled s p q v then raiseEvent s 0x0006 q else s) x

/-- INVOKE. -/
def execInvoke (rq : Request) (s : State) : Host.Outcome State Fault Refusal :=
  let a := rq.args
  .next (onRequest s rq 0x13 (some 1)
    (fun a => argsOk a invokeFields && decide (arg a 8 1 ≤ 3) && decide (arg a 9 1 ≤ 1)) fun t h p =>
    let q := arg a 0 2
    let s := repoint t q
    if q < firstHostQueue then complete s h (if p = 0 then 0x001D else 0x0015)
    else withQueue s h p q fun v =>
      match liveModel s v.model with
      | none => complete s h 0x001C
      | some m =>
        match graphFor s p m (arg a 2 2) with
        | none => complete s h 0x001D
        | some g =>
          if arg a 10 2 ≠ rq.tiles.length then complete s h 0x001D
          else if arg a 4 4 = 0xFFFFFFFF then invokeOn s h p q v rq none g
          else withSession s h p (arg a 4 4) fun x =>
            if !sameModel s x.model v.model then complete s h 0x001D else invokeOn s h p q v rq (some (arg a 4 4, x)) g)

/-! ### Admission (R190, R257, R265, R317) -/

/-- Positions in the staging slot when a job begins. -/
def fillAt (s : State) (n : Nat) (v : Session) (x : Job) : Nat :=
  if x.refill then v.reingest.getD v.len - sealedEnd s n else slotFill s n v

/-- R190: the pages that a job of session n can seal: layer and head, page index, first position. -/
def sealPlan (s : State) (n : Nat) (v : Session) (m : Model) (x : Job) : List (Nat × Nat × Nat) :=
  if m.kvHeads = 0 ∨ !(x.cmds.any fun c => bitOf c.g.flags 1) then []
  else
    let per := pagePositions v.sealFmt
    (span 0 (headCount m)).flatMap fun k =>
      (span 0 ((fillAt s n v x + mayAdd v x) / per)).map fun t => (k, sealCount s n k + t, sealedEnd s n + t * per)

/-- Reserve the lowest free frames for the pages of a plan (PAGED), or name their places (HEAD_STRIPED). -/
def reserveSeals (s : State) (m : Model) (v : Session) : List (Nat × Nat × Nat) → Option (State × List SealPage)
  | [] => some (s, [])
  | (k, ix, pos) :: r =>
    if m.layout = 0 then (reserveSeals s m v r).map fun y => (y.1, ⟨k, ix, stripedPage m v.place k ix, pos⟩ :: y.2)
    else match freeFrameIn s (unitsOf s v.part) with
    | none => none
    | some f =>
      let s1 := { s with mm := { s.mm with reserved := SMap.set s.mm.reserved f v.part } }
      (reserveSeals s1 m v r).map fun y => (y.1, ⟨k, ix, f * 0x10000, pos⟩ :: y.2)

/-- Give each page to the command of the job that seals it. -/
def dealPages (x : Job) (pages : List SealPage) : List JCmd :=
  let sealers := x.cmds.filter fun c => bitOf c.g.flags 1
  let to_ (g : SealPage) : Nat :=
    (sealers[Config.sealer x.model x.kind g.k g.ix sealers.length % sealers.length]?).elim 0 fun c => c.g.id
  x.cmds.map fun c => { c with pages := pages.filter fun g => bitOf c.g.flags 1 && to_ g == c.g.id }

/-- Semaphores of the device (R162). -/
def semCount : Nat := 1024

/-- R317: the semaphores that a job declares, allocated to its partition under its queue; none where they run out. -/
def allocSems (s : State) (p q : Nat) : List Nat → Option (State × List (Nat × Nat))
  | [] => some (s, [])
  | d :: r => match SMap.firstFree s.sems 0 semCount with
    | none => none
    | some v =>
      let s1 := { s with sems := SMap.set s.sems v { part := p, ownerQueue := q } }
      (allocSems s1 p q r).map fun y => (y.1, (d, v) :: y.2)

/-- The distinct semaphore slots of a job. -/
def semSlots (x : Job) : List Nat := ((x.cmds.flatMap fun c => c.g.sems).map fun d => d.1).eraseDups

/-- R257, R265: reservations made, the job is admitted; R34: the mode it needs is asked for. -/
def admitWith (s : State) (j : Nat) (x : Job) (pages : List SealPage) (sems : List (Nat × Nat)) : State :=
  let s1 := modJob s j fun x => { x with admitted := true, sems := sems, cmds := dealPages x pages }
  let s2 := claimAll s1 x.part x.model fun n => n + 1
  reschedule (if modeNo s2.aon.mode < modeNo (neededMode s2 x) ∧ s2.k.lowering.isNone ∧ !aboveCeiling s2 (neededMode s2 x) then askUp s2 (neededMode s2 x) 4 else s2) x.part

/-- Admit job j of session n, or of none, if its reservations can be made; else evict for it and let it wait. -/
def tryAdmit (s : State) (j : Nat) (x : Job) : State :=
  match allocSems s x.part x.queue (semSlots x) with
  | none => s
  | some (s1, sems) =>
    match x.session.bind fun n => (sessionAt s n).bind fun v => (modelAt s v.model).map fun m => (n, v, m) with
    | none => admitWith s1 j x [] sems
    | some (n, v, m) =>
      let plan := if x.noKv || (x.refill && v.kept.contains 0) then [] else sealPlan s n v m x
      match reserveSeals s1 m v plan with
      | some (s2, pages) => admitWith s2 j x pages sems
      | none => evict s x.part plan.length

/-- R516: a job that was not admitted under its queue's old model becomes one of the new model; none if that has no such kind. -/
def remodel (s : State) (j : Nat) (x : Job) : Option (State × Job) :=
  match (queueAt s x.queue).map Queue.model with
  | none => some (s, x)
  | some m =>
    if m = x.model ∨ !(s.k.models.any fun e => e.1 == m) then some (s, x)
    else ((modelAt s m).bind fun v => graphFor s x.part v x.kind).map fun g =>
      let y := { x with model := m, cmds := g.map fun c => { g := c } }
      (modJob s j fun _ => y, y)

/-- JOB_ADMISSION: a job that waits is admitted; jobs of one session follow one another (R201), and one whose session must be
ingested again waits for that (log 24). -/
def execJobAdmission (job : Nat) (s : State) : Host.Outcome State Fault Refusal :=
  .next (match jobAt s job with
  | none => s
  | some x0 =>
    if x0.admitted ∨ x0.cancelled then s
    else match remodel (repoint s x0.queue) job x0 with
    | none => reschedule (endJob s job 0x001D 0 0 0) x0.part
    | some (s, x) =>
      match x.session.bind fun n => (sessionAt s n).map fun v => (n, v) with
      | none => tryAdmit s job x
      | some (n, v) =>
        if v.jobs.head? ≠ some job ∨ (v.reingest.isSome ∧ !x.refill) ∨ v.model ≠ x.model then s
        else if !x.refill && contextFull s n v (mayAdd v x) then reschedule (endJob s job 0x0018 0 0 0) x.part
        else tryAdmit s job x)

/-! ### Re-ingest (R201, R276) -/

/-- The tokens of a session's log from a position on, as tiles. -/
def logTiles (v : Session) (pos : Nat) : List Tile := reportTiles 4096 ((v.tokens.drop pos).flatMap fun w => leBytes 4 w.toNat)

/-- Keeper's own job that ingests a session's log again, ahead of the job that needs it. -/
def putRefill (s : State) (n : Nat) (v : Session) (head : Nat) (x : Job) (pos : Nat) : State :=
  let j := s.k.jobNext
  let y : Job := { handle := 0, part := x.part, queue := x.queue, model := x.model, kind := x.kind, session := some n,
                   retain := true, inputs := logTiles v pos, refill := true, lost := pos, cmds := x.cmds.map fun c => { g := c.g } }
  let s1 := onK s fun k => { k with jobs := SMap.set k.jobs j y, jobNext := j + 1 }
  let s2 := modQueue s1 x.queue fun q => { q with jobs := j :: q.jobs }
  modJob (modSession s2 n fun v => { v with jobs := j :: v.jobs }) head fun x => { x with cold := x.cold || v.cold }

/-- The pages that a job sealed go. -/
def dropSealed (s : State) (n : Nat) (x : Job) : State :=
  if x.sealed = [] then s else rollbackTo s n (x.sealed.foldl (fun b g => min b g.firstPos) x.lenAtStart)

/-- R201, R474: a job under way whose session lost positions starts again once they are back: what it sealed goes, its pages are
supplied again and its commands run again; none while frames for them are lacking. -/
def beginAgain (s : State) (n j : Nat) (x : Job) : Option State :=
  if !x.admitted then some s
  else
    let s1 := dropSealed s n x
    match (sessionAt s1 n).bind fun v => (modelAt s1 v.model).map fun m => (v, m) with
    | none => some s1
    | some (v, m) =>
      let free := (x.cmds.flatMap JCmd.pages).filter fun g =>
        m.layout != 0 && (SMap.get? s1.mm.reserved (g.addr / 0x10000)).isNone
      (reserveSeals s1 m v (free.map fun g => (g.k, g.ix, g.firstPos))).map fun y =>
        let page (g : SealPage) : SealPage := (y.2.find? fun h => h.k == g.k && h.ix == g.ix).getD g
        let again (c : JCmd) : JCmd :=
          let c1 := { c with pages := c.pages.map page }
          if c.st = .done then { c1 with st := .waiting, again := true, runs := c.runs + 1, told := true } else c1
        restoreSems (modJob y.1 j fun x => { x with sealed := [], stored := [], cmds := x.cmds.map again }) j

/-- The re-ingest of session n, ahead of its job j; it waits while slots or frames are lacking. -/
def beginReingest (s : State) (n : Nat) (v : Session) (j : Nat) (x : Job) : State :=
  let slots := ceilDiv ((modelAt s v.model).elim 0 fun m => headCount m * headPart m) 0x10000 + 1
  match beginAgain s n j x with
  | none => evict s v.part x.sealed.length
  | some t => match sessionAt t n with
    | none => t
    | some w =>
      let pos := w.reingest.getD w.len
      if !w.cold then putRefill t n w j x pos
      else match reserveKv t n with
        | some u => putRefill u n w j x pos
        | none => evict s v.part slots

/-- SESSION_REINGEST: the session's slots are reserved again and its log is ingested from the position that was lost; a re-ingest
from a later position gives way. -/
def execSessionReingest (session : Fin 65536) (s : State) : Host.Outcome State Fault Refusal :=
  let n := session.val
  .next (match sessionAt s n with
  | none => s
  | some v =>
    match v.reingest, v.jobs with
    | some pos, j :: _ =>
      match jobAt s j with
      | none => s
      | some x =>
        if s.runs.any fun r => r.2.job == j then s
        else if x.refill then (if x.lost = pos then s else endJob s j 0x0010 0 0 0)
        else beginReingest s n v j x
    | _, _ => s)

/-! ### New scales (R64, R220) -/

/-- R64 step 3: the A16 values of bytes, shifted by k. -/
def shiftA16 (k : Nat) : List Byte → List Byte
  | a :: b :: r => leBytes 2 (unsigned 16 (shrRne (signed 16 (leNat [a, b])) k)) ++ shiftA16 k r
  | r => r

/-- Shift a tile in HBM with its tag. -/
def shiftTile (s : State) (k a tag len index : Nat) : State :=
  writeTile s a tag (shiftA16 k (readMem s a len)) 0x01 0x04 (Config.freeNat s.freeCtr % 32) index

/-- Shift accumulator rows and clear their residual extensions. -/
def shiftRow (k : Nat) (r : AccRow) : AccRow := ⟨r.acc.map fun v => shrRne v k, List.replicate 128 0⟩

/-- Shift the resident rows of a model's queues that hold values of a tensor. -/
def shiftRows (s : State) (m tensor k : Nat) : State :=
  let mine (q : Nat) : Bool := (queueAt s q).any fun v => v.model == m
  let one (c : Nat × Core) : Core :=
    { c.2 with acc := c.2.acc.map fun r =>
        if (SMap.get? c.2.rowOwner r.1).any mine && Config.rowTensor m c.1 r.1 % 65536 == tensor then (r.1, shiftRow k r.2) else r }
  { s with cores := s.cores.map fun c => (c.1, one c) }

/-- Shift the current checkpoint slots of a model's queues (R220). -/
def shiftCkpts (s : State) (m tensor k : Nat) : State :=
  let img (e : Nat × SMap AccRow) : Nat × SMap AccRow :=
    (e.1, e.2.map fun r => if Config.rowTensor m e.1 r.1 % 65536 = tensor then (r.1, shiftRow k r.2) else r)
  onK s fun q => { q with queues := q.queues.map fun v =>
    if v.2.model = m then (v.1, { v.2 with ckptRows := v.2.ckptRows.map img }) else v }

/-- Shift the input ring entries of a model's streams where they hold values of a tensor (R220). -/
def shiftRings (s : State) (m tensor k : Nat) : State :=
  let one (f : RingFrame) : RingFrame :=
    let b := shiftA16 k f.tile.payload
    { f with tile := { tag := tagBytes b 0x01 (tagOrigin f.tile) (tagOriginId f.tile) (tagIndex f.tile), payload := b } }
  if Config.ringTensor m % 65536 ≠ tensor then s
  else onK s fun q => { q with sessions := q.sessions.map fun v =>
    if v.2.model = m then (v.1, { v.2 with ring := v.2.ring.map one }) else v }

/-- Shift the rows staged by a session for layer and head h: keys from row `first` of the slot on. -/
def shiftStaged (s : State) (a first fill k : Nat) : State :=
  (span first fill).foldl (fun s r => shiftTile s k (a + 0x4000 + 256 * r) (a + 16 * r) 256 r) s

/-- Shift the staging slots of a session that hold values of a tensor, and write their headers again (R181). -/
def shiftSlots (s : State) (tensor k n : Nat) : State :=
  match sessionAt s n with
  | none => s
  | some v => match modelAt s v.model with
    | none => s
    | some m =>
      if m.kvHeads = 0 ∨ v.cold then s
      else
        let p := pagePositions v.sealFmt
        let one (s : State) (h : Nat) : State :=
          let s1 := if Config.keyTensor v.model h % 65536 = tensor then shiftStaged s (slotAddr m v h) 0 (slotFill s n v) k else s
          if Config.valueTensor v.model h % 65536 = tensor then shiftStaged s1 (slotAddr m v h) p (slotFill s n v) k else s1
        writeHeaders ((span 0 (headCount m)).foldl one s) n

/-- R64, R220: every stored A16 value of a tensor is shifted. -/
def shiftTensor (s : State) (m tensor k : Nat) : State :=
  let s1 := shiftRings (shiftCkpts (shiftRows s m tensor k) m tensor k) m tensor k
  let s2 := ((s1.k.sessions.filter fun v => v.2.model == m).map Prod.fst).foldl (fun s n => shiftSlots s tensor k n) s1
  (Config.tensorTiles m tensor).foldl (fun s t => shiftTile s k t.1 t.2.1 (2 * t.2.2) 0) s2

/-- SCALE_SHIFT: before the first job under a new scale, once no job under the old one is left. -/
def execScaleShift (model : Nat) (tensor : Fin 65536) (s : State) : Host.Outcome State Fault Refusal :=
  .next (match s.k.rescales.find? fun r => r.model == model && r.tensor == tensor.val with
  | none => s
  | some r =>
    if s.k.jobs.any fun x => x.2.model == model && x.2.started then s
    else
      let s1 := nextFree (shiftTensor s model tensor.val r.k)
      let s2 := onK s1 fun q => { q with rescales := q.rescales.erase r }
      let s3 := modModel s2 model fun m => { m with recalNew := true }
      (s3.k.models.filter fun m => m.1 == model).foldl (fun s m => reschedule s m.2.part) s3)

/-! ### CANCEL and QUERY_HANDLE (R340, R342, R347) -/

/-- An immediate request: taken from its association and answered at once. -/
def immediate (s0 : State) (rq : Request) (ok : List Byte → Bool) (run : State → Nat → State) : State :=
  let s := onK s0 fun k => { k with inbox := k.inbox.erase rq }
  match SMap.get? s.k.assocs rq.assoc with
  | none => s
  | some a => if ok rq.args then run s a.principal else replyTo s rq.assoc rq.hostTag 0x02 0 []

/-- A cancelled job: what runs is stopped, donations to or from it end (R315). -/
def cancelJob (s : State) (j : Nat) (x : Job) : State :=
  let s1 := { s with donations := s.donations.filter fun d => d.owner != x.queue && d.job != j }
  let s2 := stopRuns (modJob s1 j fun x => { x with cancelled := true }) fun r => r.job == j
  reschedule (settleJob s2 j) x.part

/-- A request that waits in a table entry waits no more: drop its handle. -/
def unless_ (h : Nat) (w : Option Nat) : Option Nat := if w = some h then none else w

/-- Take a waiting request's handle out of Keeper's tables. -/
def dropWaiter (h : Nat) (k : Keeper) : Keeper :=
  let ses (v : Nat × Session) : Nat × Session := (v.1, { v.2 with closing := unless_ h v.2.closing })
  let mod (m : Nat × Model) : Nat × Model := (m.1, { m.2 with unload := unless_ h m.2.unload })
  let que (q : Nat × Queue) : Nat × Queue :=
    (q.1, { q.2 with destroy := unless_ h q.2.destroy, pend := q.2.pend.filter fun x => x.handle != h })
  { k with sessions := k.sessions.map ses, models := k.models.map mod, queues := k.queues.map que }

/-- Take a waiting STORE_DELETE out of the directory. -/
def dropDeleter (h : Nat) (d : Store) : Store :=
  let one (e : Nat × DirEntry) : Nat × DirEntry :=
    if e.2.deleter == some h then (e.1, { e.2 with deleter := none, dying := false }) else e
  { d with dir := d.dir.map one }

/-- Does a request wait in a table: a close, an unload, a destruction, settings, a deletion? -/
def waitsInTable (s : State) (h : Nat) : Bool :=
  (s.k.sessions.any fun v => v.2.closing == some h) || (s.k.models.any fun m => m.2.unload == some h)
    || (s.k.queues.any fun q => q.2.destroy == some h || q.2.pend.any fun x => x.handle == h)
    || (s.pcie.store.dir.any fun e => e.2.deleter == some h)

/-- R342: a request that is no job and waits to start is cancelled. -/
def cancelWaiting (s : State) (h : Nat) : Option State :=
  match openingOf s h with
  | some o => if o.image = 0xFFFFFFFF ∧ !o.writing then some (failOpening s o 0x0010) else none
  | none => if waitsInTable s h then some (complete (onDisk (onK s (dropWaiter h)) (dropDeleter h)) h 0x0010) else none

/-- CANCEL. -/
def execCancel (rq : Request) (s : State) : Host.Outcome State Fault Refusal :=
  .next (immediate s rq (fun a => argsOk a [(0, 4)]) fun s p =>
    let h := arg rq.args 0 4
    let say (s : State) (st : Nat) : State := replyTo s rq.assoc rq.hostTag st 0 []
    match handleOf s h with
    | none => say s 0x05
    | some x =>
      if x.principal ≠ p then say s 0x05
      else if x.record.isSome then say s 0x06
      else match s.k.jobs.find? fun j => j.2.handle == h with
        | some (j, y) => cancelJob (say s 0x04) j y
        | none => match cancelWaiting s h with
          | some t => say t 0x04
          | none => say s 0x06)

/-- The code of a handle's state (R347). -/
def handleCode : HandleSt → Nat
  | .opened => 1
  | .done => 2
  | .released => 3

/-- QUERY_HANDLE. -/
def execQueryHandle (rq : Request) (s : State) : Host.Outcome State Fault Refusal :=
  .next (immediate s rq (fun a => argsOk a [(0, 4)]) fun s p =>
    match handleOf s (arg rq.args 0 4) with
    | none => replyTo s rq.assoc rq.hostTag 0x05 0 []
    | some x =>
      if x.principal ≠ p then replyTo s rq.assoc rq.hostTag 0x05 0 []
      else
        let bytes := if x.st = .opened then [] else x.record.elim [] recordBytes
        replyTo s rq.assoc rq.hostTag 0x04 0 (leBytes 1 (handleCode x.st) ++ leBytes 3 0 ++ bytes))

/-- READ_OUTPUT: retained tiles of a handle go out as STREAM messages that name it (log 25). -/
def execReadOutput (rq : Request) (s : State) : Host.Outcome State Fault Refusal :=
  let a := rq.args
  .next (onRequest s rq 0x17 (some 1) (fun a => argsOk a [(0, 4), (4, 4), (8, 4)]) fun s h p =>
    match handleOf s (arg a 0 4) with
    | none => complete s h 0x001C
    | some x =>
      if x.principal ≠ p then complete s h 0x001C
      else
        let ts := (x.outs.drop (arg a 4 4)).take (arg a 8 4)
        let send (s : State) (i : Nat) : State := match ts[i]? with
          | some t => streamTile s rq.assoc (arg a 0 4) (arg a 4 4 + i) (arg a 4 4 + i + 1 == x.outs.length) t
          | none => s
        complete ((span 0 ts.length).foldl send s) h 0 ts.length)

end Sys2Proof.Machine
end

