-- ==== Sys2Proof/Machine/Reset.lean ====
section
/-! DEFINITION. Sys2Proof/Machine/Reset.lean: main reset and AON reset (R6, R31, R279, R392, R452, R480, R493, R524). -/

namespace Sys2Proof.Machine

/-- Does memory at an address keep its contents through a main reset: PSRAM, AON SRAM, MRAM, flash (R31, R496)? -/
def keepsMain (a : Nat) : Bool :=
  (decide (psramBase ≤ a) && decide (a < psramBase + 0x8000000)) || (decide (aonSramBase ≤ a) && decide (a < 0x00F070000000))

/-- The words and the FULL bit of mailbox 16, which the AON bridge holds (R408). -/
def bridgeMail (b : Mbx) : Mbx :=
  { words := b.words.filter fun w => w.1 / 8 == 16, full := b.full &&& (1#128 <<< 16) }

/-- What the RAS block and the boot record keep: the alarm bits (R493), the retirement maps, the MRAM's remapped blocks (R478, R481). -/
def keptRas (r : Ras) : Ras :=
  { coresRetired := r.coresRetired, waysRetired := r.waysRetired, alarm := r.alarm, alarmForced := r.alarmForced, remap := r.remap }

/-- The device tick restarts: how long a trial has lasted is carried over (R517). -/
def agedFw (s : State) : SMap Firmware :=
  s.boot.fw.map fun v => (v.1, { v.2 with age := v.2.age + (s.tick - v.2.ageFrom), ageFrom := 0, startedAt := 0 })

/-- What the NVMe drive holds; it must be enumerated anew. -/
def keptStore (d : Store) : Store := { d with enumerated := false, cmds := [], nextCmd := 0 }

/-- R31, R480: main reset: every register, FIFO, buffer and table of the main domain is as after reset, and what HBM, the deep
tier and SSR held is lost; the AON domain, the MRAM, the fuses, the flash and the board stay. -/
def mainReset (s : State) : State :=
  { pending := s.pending, freeCtr := s.freeCtr, resp := s.resp, board := s.board, otp := s.otp, aon := s.aon,
    boot := { s.boot with fw := agedFw s },
    secStore := s.secStore, hostOut := s.hostOut,
    mem := s.mem.filter fun c => keepsMain c.1,
    mbx := bridgeMail s.mbx,
    mm := { retired := s.mm.retired },
    pcie := { store := keptStore s.pcie.store },
    ras := keptRas s.ras,
    log := { recs := s.log.recs, next := s.log.next },
    fab := { wire := s.fab.wire },
    peri := { uartSent := s.peri.uartSent },
    power := { s.power with mainReset := true, started := false, powerMw := 0, duty := 0xFF, unmet := false, limited := false,
                            lastThrottle := none, temps := [], tickHi := 0, ceiling := none,
                            startAt := none, found := [], late := false, obs := {} } }

/-- R530: MAIN_EN goes low: main reset, and the main rails go. -/
def mainOff (s : State) : State :=
  let t := mainReset s
  { t with power := { t.power with mainEn := false, mainPg := false } }

/-- R502: an AON reset gives the halting step one more attempt. -/
def unhalt (b : Boot) : Boot :=
  match b.halted with
  | none => b
  | some k => { b with halted := none, steps := SMap.modify b.steps k fun e => { e with fails := 2, flags := setBits e.flags 2 2 0 } }

/-- R392: an AON reset: AON registers, AON SRAM and PSRAM contents; the main domain is held in reset. -/
def aonReset (s : State) : State :=
  let t := mainReset s
  { t with aon := {}, boot := unhalt t.boot, mbx := {},
           mem := t.mem.filter fun c => !((decide (psramBase ≤ c.1) && decide (c.1 < psramBase + 0x8000000))
                    || (decide (aonSramBase ≤ c.1) && decide (c.1 < aonSramBase + aonSramSize))),
           power := { porstLow := s.power.porstLow, throttleLow := s.power.throttleLow, cold := true, afterAon := true } }

/-- AON_RESET: VDD_AON rises from below 0.70 V; the end of the reset requests BEACON (R409) unless a halt is in force. -/
def execAonReset (s : State) : Host.Outcome State Fault Refusal := .next (askUp (aonReset s) .beacon 5)

/-! ### Power good and reset pins (R528, R531, R532) -/

/-- Is ALARM_N asserted (R539)? -/
def alarmN (s : State) : Bool := s.ras.alarm != 0 || s.ras.alarmForced || s.boot.halted.isSome || s.power.failLatch

/-- R524, R528: main reset is released; the device tick starts from 0. -/
def releaseMain (s : State) : State :=
  if s.power.mainPg && !s.power.porstLow && !s.power.tripped && s.boot.halted.isNone then
    { s with tick := 0, power := { s.power with mainReset := false } }
  else s

/-- MAIN_PG_RISE. -/
def execMainPgRise (s : State) : Host.Outcome State Fault Refusal :=
  .next (if !s.power.mainEn || s.power.mainPg then s
  else releaseMain { s with power := { s.power with mainPg := true, pgTries := 0 } })

/-- R531: a power-good loss or failure: MAIN_EN low, ALARM_N by the latch, and MAIN_EN high again after 100 ms if `again`. -/
def powerLost (s : State) (again : Bool) : State :=
  let t := mainOff s
  { t with power := { t.power with failLatch := true, cold := true, retryDue := again, resetCause := 0 } }

/-- MAIN_PG_FALL with MAIN_EN high. -/
def execMainPgFall (s : State) : Host.Outcome State Fault Refusal :=
  .next (if s.power.mainEn && s.power.mainPg then powerLost s true else s)

/-- R531: the device stays in BUOY after the second failure: the upward request ends. -/
def staysBuoy (s : State) : State :=
  onAon s fun a => { a with mode := .buoy, target := .buoy, goal := .buoy, busy := false, up := false, wanted := none }

/-- MAIN_PG_TIMEOUT: not high within 20 ms of MAIN_EN: one retry, then BUOY. -/
def execMainPgTimeout (s : State) : Host.Outcome State Fault Refusal :=
  .next (if !s.power.mainEn || s.power.mainPg then s
  else
    let tries := s.power.pgTries + 1
    let t := powerLost s (decide (tries < 2))
    let u := { t with power := { t.power with pgTries := tries } }
    if tries < 2 then u else staysBuoy u)

/-- MAIN_EN_RETRY: 100 ms later MAIN_EN goes high again. -/
def execMainEnRetry (s : State) : Host.Outcome State Fault Refusal :=
  .next (if s.power.retryDue then { s with power := { s.power with retryDue := false, mainEn := true } } else s)

/-- PORST_N_ASSERT: ignored while MAIN_EN is low. -/
def execPorstNAssert (s : State) : Host.Outcome State Fault Refusal :=
  .next (if !s.power.mainEn then s
  else
    if s.power.mainPg then
      let t := mainReset s
      { t with power := { t.power with porstLow := true, resetCause := 2 } }
    else { s with power := { s.power with porstLow := true } })

/-- PORST_N_RELEASE: the transition in progress is abandoned, LIGHTHOUSE is requested, a cold start follows. -/
def execPorstNRelease (s : State) : Host.Outcome State Fault Refusal :=
  .next (if !s.power.porstLow then s
  else if !s.power.mainEn then { s with power := { s.power with porstLow := false } }
  else
    let s1 := onAon s fun a => { a with busy := false, up := false, goal := .lighthouse, target := a.mode, wanted := none,
                                        deferred := none }
    releaseMain { s1 with power := { s1.power with porstLow := false, cold := true } })

end Sys2Proof.Machine
end

