-- ==== Sys2Proof/Machine/Modes.lean ====
section
/-! DEFINITION. Sys2Proof/Machine/Modes.lean: mode transitions as they complete (R27, R29 to R34, R86, R411 to R415), idle holds,
SET_MODE, wake candidates and the messages between the Buoy DSP and Keeper (R407 to R410). -/

namespace Sys2Proof.Machine

/-! ### Powering blocks (R27, R411 to R414) -/

/-- Power core c: idle, or retired by the map (R96, R478). -/
def powerCore (s : State) (c : Nat) : State :=
  onCore s c fun x => if x.st != .off then x
    else if (SMap.get? s.ras.coresRetired c).isSome then { x with st := .retired, retire := true, shRetire := true }
    else { x with st := .idle, enable := true, shEnable := true }

/-- The cores that a mode powers and the next lower one does not (R27). -/
def coresOfMode (m : Mode) : List Nat := (span 0 32).filter fun c => coreMode c == m
/-- The SSR ways that a mode powers and the next lower one does not. -/
def waysOfMode (m : Mode) : List Nat := if m = .beacon then [] else (span 0 16).filter fun w => wayMode w == m

/-- R479: the cores of BEACON, a retired core 0 or 1 being replaced by the lowest-numbered core of cluster 0 of the system
partition. -/
def beaconCores (s : State) : List Nat :=
  let live := (span 0 2).filter fun c => (SMap.get? s.ras.coresRetired c).isNone
  let spare := (span 2 6).filter fun c => corePart s c == 0 && (SMap.get? s.ras.coresRetired c).isNone
  span 0 2 ++ spare.take (2 - live.length)

/-- The cores that reaching a mode from below powers. -/
def coresUp (s : State) (m : Mode) : List Nat := if m = .beacon then beaconCores s else coresOfMode m
/-- The cores that leaving a mode downward turns off. -/
def coresDown (s : State) (m : Mode) : List Nat :=
  (coresOfMode m).filter fun c => !(m == .lantern && (beaconCores s).contains c)

/-- R86, R414: core c is turned off: all it held is lost, and queues that had rows on it restore them. -/
def coreOff (s : State) (c : Nat) : State :=
  let qs := ((coreOf s c).rowOwner.map Prod.snd).eraseDups
  let s1 := setCore s c {}
  qs.foldl restoreRows s1

/-- SSR way w is turned off. -/
def wayOff (s : State) (w : Nat) : State :=
  { s with mem := Memory.clear s.mem (ssrBase + w * 0x200000) (ssrBase + (w + 1) * 0x200000) }

/-- R412: the PCIe link trains to what the drive gives (free values), where one is fitted and not known to be absent. -/
def pcieUp (s : State) : State :=
  if !s.board.nvme then s
  else
    let f (k : Nat) : Nat := Config.freeNat (s.freeCtr + k)
    { onPcie s fun p => { p with perst := false, en := true, linkUp := true, speed := 1 + f 0 % 4,
                                 width := ([1, 2, 4] : List Nat).getD (f 1 % 3) 4, ltssm := f 2 % 64 } with
      freeCtr := s.freeCtr + 3 }

/-- R27, R412, R414: Agcon ports go into or out of low-power idle, where it is permitted (R388). -/
def agconIdle (s : State) (idle : Bool) : State :=
  fabPorts.foldl (fun s p => modFabPort s p fun x =>
    if idle && x.state == 3 && rbit s (fabPortCfg p) 2 then { x with state := 4 }
    else if !idle && x.state == 4 then { x with state := 3 }
    else x) s

/-- What a mode powers when it is reached from below. -/
def powerUp (s : State) (m : Mode) : State :=
  let s1 := (coresUp s m).foldl powerCore s
  if m = .lantern then agconIdle (pcieUp (camToLantern s1)) false
  else if m = .beacon then camToBeacon s1
  else s1

/-- What leaving a mode downward turns off. -/
def powerDown (s : State) (m : Mode) : State :=
  let s1 := (waysOfMode m).foldl wayOff ((coresDown s m).foldl coreOff s)
  if m = .lantern then agconIdle (linkDown (camToBeacon s1)) true else s1

/-- R34: jobs that wait for a higher mode have it asked for. -/
def askForJobs (s : State) : State :=
  if s.k.lowering.isSome then s
  else
    let need := s.k.jobs.foldl (fun n x => if x.2.admitted then max n (modeNo (neededMode s x.2)) else n) 0
    let top := (s.power.ceiling.elim 3 modeNo)
    if modeNo s.aon.mode < min need top then askUp s (modeOf (min need top)) 4 else s

/-- Every partition's work is looked at again. -/
def rescheduleAll (s : State) : State := (span 0 9).foldl reschedule s

/-! ### Completion of a transition -/

/-- R411, R412: may the upward step to a mode complete: Keeper has started; the memories are trained? -/
def stepReady (s : State) (m : Mode) : Bool :=
  match m with
  | .buoy => true
  | .beacon => !s.power.mainReset && s.power.started
  | .lantern => s.mm.hbmTrained && (s.mm.lpTrained || s.mm.noDeep)
  | .lighthouse => true

/-- R414: have the commands on what a downward step turns off ended? -/
def downReady (s : State) (m : Mode) : Bool :=
  if m = .beacon then s.runs.isEmpty
  else (coresDown s m).all fun c => (coreOf s c).st != .running && (coreOf s c).st != .stopping

/-- R406, R414: BUOY is entered: the staging area is zeroed unless the gate is open, the TC10 enables are kept, the main rails
go off; the next start is warm. -/
def enterBuoy (s : State) : State :=
  let tc := b2n (rbit s (portCfg 0) 6) + 2 * b2n (rbit s (portCfg 1) 6)
  let s1 := if s.aon.gateOpen then s else stageZero s
  let t := mainOff s1
  { t with power := { t.power with cold := false, tc10 := tc } }

/-- R30: the request that waited is taken up. -/
def takeWanted (s : State) : State :=
  match s.aon.wanted with
  | none => s
  | some m => modeReq (onAon s fun a => { a with wanted := none }) m

/-- Go on to the goal with the pending request kept. -/
def stepOn (s : State) (goal : Mode) (w : Option Mode) : State := onAon (stepUp s goal) fun a => { a with wanted := w }

/-- An upward step is complete: the mode reads back and Keeper latches (R403); the path goes on, or the pending request follows. -/
def upDone (s : State) : State :=
  let a := s.aon
  let s1 := powerUp s a.target
  let s2 := latch (onAon s1 fun a => { a with mode := a.target })
  if modeNo a.target < modeNo a.goal then rescheduleAll (checkSetMode (stepOn s2 a.goal a.wanted))
  else
    let s3 := onAon s2 fun a => { a with busy := false, up := false, goal := a.mode }
    rescheduleAll (askForJobs (checkSetMode (takeWanted (checkSetMode s3))))

/-- A downward step is complete. -/
def downDone (s : State) : State :=
  let a := s.aon
  let s1 := powerDown s a.mode
  let s2 := onAon s1 fun a => { a with mode := a.target }
  if a.target = .buoy then
    let s3 := checkSetMode (onAon s2 fun a => { a with busy := false, goal := .buoy })
    takeWanted (enterBuoy s3)
  else if a.wanted.isSome then
    takeWanted (onAon s2 fun a => { a with busy := false, goal := a.mode })
  else if modeNo a.goal < modeNo a.target then
    stepDown s2 a.goal
  else rescheduleAll (askForJobs (checkSetMode (onAon s2 fun a => { a with busy := false, goal := a.mode })))

/-- The transition under way completes if it may. -/
def endTransition (s : State) : State :=
  let a := s.aon
  tryHandovers (if !a.busy then s
  else if a.up then (if stepReady s a.target then upDone s else s)
  else if downReady s a.mode then downDone s
  else s)

/-! ### Idle holds and SET_MODE (R32, R409) -/

/-- The idle hold of a mode in ms. -/
def holdOf (k : Keeper) : Mode → Nat
  | .buoy => 0xFFFFFFFF
  | .beacon => k.holdBeacon
  | .lantern => k.holdLantern
  | .lighthouse => k.holdLighthouse

/-- R32: is there an admitted job that needs the present mode? -/
def modeNeeded (s : State) : Bool := s.k.jobs.any fun x => x.2.admitted && decide (modeNo s.aon.mode ≤ modeNo (neededMode s x.2))

/-- IDLE_HOLD_EXPIRY: no admitted job needs the mode: Keeper requests the next lower one. -/
def execIdleHoldExpiry (s : State) : Host.Outcome State Fault Refusal :=
  let a := s.aon
  .next (if a.busy || a.mode == .buoy || a.deferred.isSome || !s.power.started || holdOf s.k a.mode == 0xFFFFFFFF
      || s.k.lowering.isSome || modeNeeded s then s
  else lowerTo s (modeOf (modeNo a.mode - 1)))

/-- Is an idle hold in range: unchanged, 100 ms to 24 h, or never (R409)? -/
def holdOk (n : Nat) : Bool := n == 0 || n == 0xFFFFFFFF || (decide (100 ≤ n) && decide (n ≤ 86400000))

/-- SET_MODE. -/
def execSetMode (rq : Request) (s : State) : Host.Outcome State Fault Refusal :=
  let a := rq.args
  let ok (a : List Byte) : Bool := argsOk a [(0, 1), (4, 4), (8, 4), (12, 4)] && (decide (arg a 0 1 ≤ 3) || arg a 0 1 == 0xFF)
    && holdOk (arg a 4 4) && holdOk (arg a 8 4) && holdOk (arg a 12 4)
  let pick (n old : Nat) : Nat := if n = 0 then old else n
  .next (onRequest s rq 0x22 (some 3) ok fun s h _ =>
    let s1 := onK s fun k => { k with holdBeacon := pick (arg a 4 4) k.holdBeacon, holdLantern := pick (arg a 8 4) k.holdLantern,
                                      holdLighthouse := pick (arg a 12 4) k.holdLighthouse }
    if arg a 0 1 = 0xFF then complete s1 h 0 (modeNo s1.aon.mode)
    else
      let m := modeOf (arg a 0 1)
      let s2 := endSetMode s1 0x0010
      let s3 := onK s2 fun k => { k with setMode := some (h, m), lowering := none }
      if modeNo m < modeNo s3.aon.mode ∧ !s3.aon.busy then checkSetMode (lowerTo s3 m)
      else checkSetMode (modeReq s3 m))

/-! ### Candidates (R407, R410) -/

/-- R407: a write of 1 to AON_CAND.open_req; ignored while a candidate is open. -/
def candidateOpen (s : State) : State :=
  onAon s fun a => if a.candOpen then a else { a with candOpen := true, candStart := a.candMark }

/-- CANDIDATE_OPEN, by the DSP. -/
def execCandidateOpen (by_ : Req) (s : State) : Host.Outcome State Fault Refusal := .next (aonWrite s by_ false true candidateOpen)

/-- A candidate closes, and a deferred downward request is carried out (R410). -/
def closeCandidate (s : State) : State :=
  let s1 := tryHandovers (onAon s fun a => { a with candOpen := false })
  match s1.aon.deferred with
  | some m => checkSetMode (startDown (onAon s1 fun a => { a with deferred := none }) m)
  | none => s1

/-- CANDIDATE_CLOSE. -/
def execCandidateClose (by_ : Req) (s : State) : Host.Outcome State Fault Refusal :=
  .next (aonWrite s by_ false true fun s => if s.aon.candOpen then closeCandidate s else s)

/-- CANDIDATE_EXPIRY: the ring is about to lose the start. -/
def execCandidateExpiry (s : State) : Host.Outcome State Fault Refusal :=
  let a := s.aon
  .next (if a.candOpen && decide (0 < frameBytes a) && decide (a.candStart + (ringFrames a - outRate a) ≤ a.pos) then
    closeCandidate s else s)

/-- DEFERRED_DOWN_TIMEOUT: 1.5 s after the request. -/
def execDeferredDownTimeout (s : State) : Host.Outcome State Fault Refusal :=
  .next (match s.aon.deferred with
  | some m =>
    if s.aon.deferredAt + 1500 * ticksPerMs ≤ s.tick then
      checkSetMode (stepDown (onAon s fun a => { a with deferred := none }) m)
    else s
  | none => s)

/-! ### Messages of the DSP (R408) -/

/-- The words of a message in mailbox 16. -/
def dspWords (type : Nat) (m : DspMsg) : List Word :=
  [word (type * 2 ^ 16 + m.number.toNat), word m.mark.toNat, word (m.mark.toNat / 2 ^ 32), m.length,
   word (m.score.toNat * 2 ^ 16 + m.cls.toNat), word m.channels.toNat, 0, m.post]

/-- The DSP posts in mailbox 16: through the mailbox block, or held by the bridge while the main domain is off; none where the
post is not taken. -/
def dspPost (s : State) (type : Nat) (m : DspMsg) : State × Bool :=
  let ws := dspWords type m
  if s.power.mainReset then
    if mbxFull s.mbx 16 then (s, false)
    else
      let s1 := mbxWords s 16 0 (ws.set 0 (word (0x10 * 2 ^ 24 + type * 2 ^ 16 + m.number.toNat)))
      ({ s1 with mbx := { s1.mbx with full := s1.mbx.full ||| (1#128 <<< 16) } }, true)
  else
    let ok := (mbxRefusal s.mbx .dsp 16 7).isNone
    ((span 0 8).foldl (fun s w => mbxWrite s .dsp 16 w (ws.getD w 0)) s, ok)

/-- R30, R408, R415: the BEACON request of a WAKE or an EVENT: it has an effect in BUOY at rest, and on a downward transition that
goes to BUOY; in any other case the mode is BEACON or higher, or will be. -/
def wakeUp (s : State) (cause : Nat) : State :=
  let a := s.aon
  if (a.mode == .buoy && !a.busy) || (a.busy && !a.up && a.goal == .buoy) then askUp s .beacon cause else s

/-- R403, R405, R406, R408: a WAKE or an EVENT: the gate opens, the ring is latched, BEACON is requested, and Keeper copies. -/
def onWake (s : State) (type cause : Nat) (m : DspMsg) : State :=
  if s.aon.dspReset then s
  else
    let (s1, ok) := dspPost s type m
    if !ok then s1
    else
      let f := outRate s1.aon
      let s2 := latch (openGate s1 (m.mark.toNat - 2 * f) (s1.aon.pos + 30 * f))
      let s3 := checkSetMode (wakeUp s2 cause)
      if s3.power.started then stageCopy s3 else s3

/-- WAKE. -/
def execWake (m : DspMsg) (s : State) : Host.Outcome State Fault Refusal := .next (onWake s 1 1 m)
/-- EVENT. -/
def execEvent (m : DspMsg) (s : State) : Host.Outcome State Fault Refusal := .next (onWake s 2 2 m)
/-- CLOSED: a candidate was dropped; the message has no other effect. -/
def execClosed (m : DspMsg) (s : State) : Host.Outcome State Fault Refusal :=
  .next (if s.aon.dspReset then s else (dspPost s 3 m).1)

/-- WAKE_VERDICT: Keeper posts the verdict in mailbox 17; the DSP takes it and closes the candidate; Keeper closes the gate on a
rejection (R405). -/
def execWakeVerdict (number : BitVec 16) (confirmed : Bool) (s : State) : Host.Outcome State Fault Refusal :=
  .next (if mbxFull s.mbx 17 then s
  else
    let s1 := keeperPost s 17 [word (0x11 * 2 ^ 16 + number.toNat), word (b2n confirmed), 0, 0, 0, 0, 0, 0]
    let s2 := if mbxFull s1.mbx 17 && !s1.aon.dspReset then
        let t := mbxTake s1 .dsp 17
        if t.aon.candOpen then closeCandidate t else t
      else s1
    if confirmed then s2 else closeGate s2)

/-- TC10_WAKEUP on a host port: in BUOY it requests BEACON (R330). -/
def execTc10Wakeup (port : Fin 2) (s : State) : Host.Outcome State Fault Refusal :=
  .next (if s.aon.mode == .buoy && bitOf s.power.tc10 port.val then askUp s .beacon 3
  else if !s.power.mainReset && (portOf s port.val).state == 3 then
    modPort s port.val fun x => { x with state := 1 }
  else s)

end Sys2Proof.Machine
end

