-- ==== Sys2Proof/Machine/Power.lean ====
section
/-! DEFINITION. Sys2Proof/Machine/Power.lean: the power cap, temperatures, thermal trip and the device tick (R524, R533 to R539,
R544 to R547). -/

namespace Sys2Proof.Machine

/-- SYS_PWR_CAP. -/
def pwrCapReg : Nat := sysRegBase + 0x20
/-- SYS_PWR_CAP.cap, W. -/
def capW (s : State) : Nat := rbits s pwrCapReg 7 0
/-- SYS_PWR_CAP.ext_cap, W. -/
def extCapW (s : State) : Nat := rbits s pwrCapReg 23 16

/-! ### Temperature (R535 to R537) -/

/-- The reading that a sensor gives to the hottest temperature: a stack counts 10 °C more. -/
def hotReading (x : Nat × Int) : Int := if 16 ≤ x.1 then x.2 + 80 else x.2

/-- The readings that count: on-die sensors that are not excluded, and both stacks. -/
def hotReadings (s : State) : List (Nat × Int) :=
  (s.power.temps.filter fun t => decide (16 ≤ t.1) || !bitOf s.ras.sensorOff t.1).map fun t => (t.1, hotReading t)

/-- The hottest temperature in 0.125 °C units, and the sensor that sets it; (0, 0) before the first reading. -/
def hottestOf (s : State) : Int × Nat :=
  match hotReadings s with
  | [] => (0, 0)
  | a :: r => r.foldl (fun b x => if b.1 < x.2 then (x.2, x.1) else b) (a.2, a.1)

/-- The hottest temperature. -/
def hottest (s : State) : Int := (hottestOf s).1

/-- R537: the thermal cap in W: 8 W per °C is 1 W per unit of 0.125 °C. -/
def thermalCap (t : Int) : Nat :=
  if t ≤ 800 then 60 else if t ≤ 840 then (60 - (t - 800)).toNat else 20

/-- R534: the effective cap in W. -/
def effectiveCap (s : State) : Nat :=
  let c := min (capW s) (thermalCap (hottest s))
  if s.power.throttleLow then min c (extCapW s) else c

/-! ### The control step (R533) -/

/-- The new duty, from the cap in W and the power in mW: 0.97 C is 970 mW for each W. -/
def nextDuty (duty c p : Nat) : Nat :=
  if 970 * c < p then duty * (970 * c) / p
  else if p < 950 * c then min (duty + 8) 0xFF
  else duty

/-- A new duty acts on every core that is powered. -/
def dutyCores (s : State) (d : Nat) : State :=
  { s with cores := s.cores.map fun e => (e.1, if e.2.st = .off then e.2 else { e.2 with duty := word d }) }

/-- R537: the thermal cap first drops below the cap: a record and, once per minute at most, the event. -/
def noteThermal (s : State) : State :=
  let t := unsigned 32 (hottest s)
  let now := decide (thermalCap (hottest s) < capW s)
  let s1 := { s with power := { s.power with limited := now } }
  if !now || s.power.limited then s1
  else if s.power.lastThrottle.all fun x => decide (x + 60 * ticksPerSecond ≤ s.tick) then
    let s2 := raiseEvent (logAppend s1 0x05 0 [0, t]) 0x0500 0xFFFF t
    { s2 with power := { s2.power with lastThrottle := some s.tick } }
  else s1

/-- POWER_CAP_STEP, with the averaged estimate in mW and the readings of the temperature sensors. -/
def execPowerCapStep (p : Word) (temps : List Int) (s : State) : Host.Outcome State Fault Refusal :=
  .next (if s.power.mainReset then s
  else
    let ts : SMap Int := (span 0 (min 18 temps.length)).map fun k => (k, temps.getD k 0)
    let s1 := { s with power := { s.power with temps := ts, powerMw := p.toNat } }
    let c := effectiveCap s1
    let d := nextDuty s.power.duty c p.toNat
    let s2 := dutyCores { s1 with power := { s1.power with duty := d, unmet := s.power.unmet && d == 0 && decide (c * 1000 < p.toNat) } } d
    noteThermal s2)

/-- POWER_CAP_UNMET: 10 ms with duty 0 and the power above the cap. -/
def execPowerCapUnmet (s : State) : Host.Outcome State Fault Refusal :=
  .next (if s.power.duty = 0 ∧ effectiveCap s * 1000 < s.power.powerMw ∧ s.power.mainReset = false then
    raiseEvent { s with power := { s.power with unmet := true } } 0x0501 0xFFFF s.power.powerMw
  else s)

/-- THROTTLE_N_CHANGE: the level of the pin; the cap follows at the next control step. -/
def execThrottleNChange (low : Bool) (s : State) : Host.Outcome State Fault Refusal :=
  let s1 := { s with power := { s.power with throttleLow := low } }
  .next (if low && !s.power.throttleLow && !s.power.mainReset then raiseEvent s1 0x0502 0xFFFF (extCapW s) else s1)

/-! ### The trip (R538) -/

/-- THERMAL_TRIP: main reset, the main clocks stop, RAS_ALARM.thermal; the rails stay on. -/
def execThermalTrip (s : State) : Host.Outcome State Fault Refusal :=
  .next (if !s.power.mainPg || s.power.tripped then s
  else
    let t := mainReset s
    { t with ras := { t.ras with alarm := t.ras.alarm ||| 8 },
             power := { t.power with tripped := true, cold := true, resetCause := 0x10 } })

/-- THERMAL_TRIP_RELEASE: 1 s below 95 °C: a cold start follows. -/
def execThermalTripRelease (s : State) : Host.Outcome State Fault Refusal :=
  .next (if s.power.tripped then releaseMain { s with power := { s.power with tripped := false } } else s)

/-- THERMAL_TRIP_TIMEOUT: MAIN_EN low, and on as after a MAIN_PG failure. -/
def execThermalTripTimeout (s : State) : Host.Outcome State Fault Refusal :=
  .next (if s.power.tripped then
    let t := powerLost s true
    { t with power := { t.power with tripped := false, resetCause := 0x10 } }
  else s)

/-! ### The device tick (R524) -/

/-- SYS_TICK_READ: a read of SYS_TICK_LO. -/
def execSysTickRead (by_ : Req) (s : State) : Host.Outcome State Fault Refusal :=
  .next (if reaches by_ false .sysRegs then
    busData { s with power := { s.power with tickHi := word (s.tick / 2 ^ 32) } } (word s.tick)
  else busError s)

end Sys2Proof.Machine
end

