-- ==== Sys2Proof/Machine/Donate.lean ====
section
/-! DEFINITION. Sys2Proof/Machine/Donate.lean: wait reports, donation and deadlock (R312, R313, R554), and the core that does
not come to rest after a stop (R315, R475, R488). -/

namespace Sys2Proof.Machine

/-- Is any command of a queue running? -/
def queueRuns (s : State) (q : Nat) : Bool := s.runs.any fun r => r.2.queue == q

/-- R312: the queue that a donation for semaphore v would serve: its owner, if that has a ready command and none running;
else the owner of the semaphore that the owner waits on, up to four queues along the chain. -/
def beneficiary (s : State) (part q v : Nat) : Nat → Option Nat
  | 0 => none
  | fuel + 1 =>
    match SMap.get? s.sems v with
    | none => none
    | some m =>
      match queueAt s m.ownerQueue with
      | none => none
      | some o =>
        if o.part ≠ part ∨ m.ownerQueue = q then none
        else if hasReady s m.ownerQueue && !queueRuns s m.ownerQueue then some m.ownerQueue
        else
          match (s.runs.filter fun r => r.2.queue == m.ownerQueue).findSome? fun r => (coreOf s r.1).swait with
          | some v' => beneficiary s part q v' fuel
          | none => none

/-- R312: Keeper donates the time of the open sector of the waiting command's queue. -/
def tryDonate (s : State) (part q j v : Nat) : State :=
  match (openSectors s part).find? fun o => (sectorOf s o).queue == q, beneficiary s part q v 4 with
  | some o, some b =>
    let d : Donation := { sem := v, sector := o.ix, recipient := q, job := j, owner := b }
    if s.donations.contains d then s else reschedule { s with donations := s.donations ++ [d] } part
  | _, _ => s

/-- R313: the reported wait of core c, if it still lasts and the semaphore's owner has no running command. -/
def deadWait (s : State) (c : Nat) : Bool :=
  match (coreOf s c).swait with
  | some v => s.sched.reportedWaits.contains (c, v)
      && (SMap.get? s.sems v).any fun m => !queueRuns s m.ownerQueue
  | none => false

/-- R313: does every core of a partition that takes work wait so? -/
def deadlocked (s : State) (part : Nat) : Bool :=
  let cores := (span 0 32).filter fun c => coreInService s part c
  !cores.isEmpty && cores.all fun c => deadWait s c

/-- R313, R350: end the jobs of a deadlocked partition. -/
def endDeadlock (s : State) (part : Nat) : State :=
  ((span 0 32).filter fun c => coreInService s part c).foldl (fun s c =>
    match SMap.get? s.runs c with
    | some r => failJob s r.job 0x8000 r.cmd (coreOf s c).pc
    | none => s) s

/-- The semaphore unit of a core's cluster (R26). -/
def semUnitOf (c : Nat) : Req := .semUnit ⟨c / 8 % 4, Nat.mod_lt _ (by decide)⟩

/-- R554: the words of a wait report. -/
def waitReport (s : State) (c v : Nat) : List Word :=
  let m := SMap.getD s.sems v {}
  let n := (m.waiters.find? fun x => x.core == c).elim 0 SemWait.amount
  [word (2 ^ 16), word v, word c, (coreOf s c).cmdQueue, word n, word m.count, word s.tick, 0]

/-- SEM_WAIT_REPORT: a SWAIT of a core has waited donate_wait µs: one report, then Keeper's decision. -/
def execSemWaitReport (core : Fin 32) (s : State) : Host.Outcome State Fault Refusal :=
  let c := core.val
  .next (match (coreOf s c).swait with
  | none => s
  | some v =>
    if rbits s (schedRegBase + 4) 15 8 = 0 ∨ s.sched.reportedWaits.contains (c, v) then s
    else
      let s1 := hwPost s (semUnitOf c) (6 + c / 8) (waitReport s c v)
      let s2 := onSched s1 fun h => { h with reportedWaits := (c, v) :: h.reportedWaits }
      let part := corePart s2 c
      if deadlocked s2 part then endDeadlock s2 part
      else match SMap.get? s2.runs c with
        | some r => tryDonate s2 part r.queue r.job v
        | none => s2)

/-- R315: a containment failure that involves core c: a partition reset, or the teardown of the system queues with a
command on the core; the core is held for the full check (R488). -/
def containCore (s : State) (c : Nat) : State :=
  let s1 := ctrlWrite { s with ras := { s.ras with checkHold := SMap.set s.ras.checkHold c () } } c
    fun x => { x with shBistHold := true }
  let p := corePart s1 c
  if p = 0 then
    match SMap.get? s1.runs c with
    | some r => teardown s1 r.queue
    | none => s1
  else partitionReset s1 p (coreOf s1 c).fault.toNat

/-- The command on a core that does not come to rest waits to run again elsewhere (R315). -/
def detachRun (s : State) (c : Nat) : State :=
  match SMap.get? s.runs c with
  | some r => reschedule (interruptRun { s with runs := SMap.erase s.runs c } r) (corePart s c)
  | none => s

/-- STOP_IDLE_TIMEOUT: a core that Keeper stopped has not come to rest within 20 µs. -/
def execStopIdleTimeout (core : Fin 32) (s : State) : Host.Outcome State Fault Refusal :=
  let c := core.val
  .next (if (coreOf s c).st == .stopping && (SMap.get? s.runs c).any Run.stopped then detachRun (containCore s c) c else s)

end Sys2Proof.Machine
end

