-- ==== Sys2Proof/Machine/Move.lean ====
section
/-! DEFINITION. Sys2Proof/Machine/Move.lean: moving what lies in HBM frames, and deep blocks, to other places of the same partition:
for the retirement of a frame (R472) and for the creation of a tenant (R455, R456). -/

namespace Sys2Proof.Machine

/-- Cut a list of frames into runs of adjoining ones. -/
def runsOf : List Nat → List (List Nat)
  | [] => []
  | f :: r => match runsOf r with
    | (g :: t) :: rest => if g = f + 1 then (f :: g :: t) :: rest else [f] :: (g :: t) :: rest
    | rest => [f] :: rest

/-- Frames whose content must stay in adjoining frames, in groups: fixed frames by their holder. -/
def fixedGroups (s : State) (p : Nat) : List (List Nat) :=
  let k := s.k
  let lists := ((k.sessions.filter fun v => v.2.part == p).flatMap fun v => [v.2.kvFrames, v.2.logFrames])
    ++ ((k.models.filter fun m => m.2.part == p).map fun m => m.2.fixedFrames)
    ++ ((k.queues.filter fun q => q.2.part == p).map fun q => q.2.frames)
    ++ ((SMap.get? k.launchBase p).elim [] fun a => [[a / 0x10000]])
    ++ (match SMap.get? s.mm.objt p with
        | some t => if t.limit = 0 then [] else [span (t.base / 0x10000) 64]
        | none => [])
  lists.flatMap runsOf

/-- Frames of a partition whose content may go to any frame. -/
def looseFrames (s : State) (p : Nat) : List Nat :=
  ((s.mm.objs.filter fun o => o.1 / 65536 == p).flatMap fun o => o.2.frames)
    ++ ((s.mm.pages.filter fun g => g.2.part == p && g.2.st != .deep && !g.2.striped).map fun g => g.2.frame)
    ++ ((s.mm.reserved.filter fun r => r.2 == p).map Prod.fst)

/-- The groups of a partition that have a frame which a test names. -/
def groupsIn (s : State) (p : Nat) (f : Nat → Bool) : List (List Nat) :=
  ((fixedGroups s p) ++ (looseFrames s p).map fun x => [x]).filter fun g => g.any f

/-- A place for every group in adjoining free frames of some units, the lowest first: pairs of old and new frame; none if one does
not fit. -/
def planMoves (s : State) (p : Nat) (units : List Nat) : List (List Nat) → Option (List (Nat × Nat))
  | [] => some []
  | g :: r => match runIn s g.length units with
    | none => none
    | some f =>
      let s1 := (span f g.length).foldl (fun s x => fixFrame s x p) s
      (planMoves s1 p units r).map fun l => g.zip (span f g.length) ++ l

/-- Where a frame goes. -/
def movedFrame (l : List (Nat × Nat)) (f : Nat) : Nat := (l.find? fun x => x.1 == f).elim f Prod.snd
/-- Where an address goes. -/
def movedAddr (l : List (Nat × Nat)) (a : Nat) : Nat := movedFrame l (a / 0x10000) * 0x10000 + a % 0x10000
/-- Where a page key or another HBM address goes; 0 stays 0 (no table). -/
def movedPtr (l : List (Nat × Nat)) (a : Nat) : Nat := if a = 0 then 0 else movedAddr l a

/-- A map under renamed keys. -/
def rekey {α : Type} (f : Nat → Nat) (m : SMap α) : SMap α := m.foldl (fun r e => SMap.set r (f e.1) e.2) []

/-- An item under renamed page keys. -/
def movedItem (l : List (Nat × Nat)) : Item → Item
  | .obj p n => .obj p n
  | .page a => .page (movedAddr l a)

/-- A promotion of a renamed item. -/
def movedPromo (l : List (Nat × Nat)) (x : Promo) : Promo := { x with item := movedItem l x.item }

/-- The bytes of the old frames go to the new ones, whose own content is lost; the old ones read as never written. -/
def moveBytes (l : List (Nat × Nat)) (m : Memory) : Memory :=
  let isNew (a : Nat) : Bool := l.any fun x => x.2 == a / 0x10000
  let isOld (a : Nat) : Bool := l.any fun x => x.1 == a / 0x10000
  let hbm (a : Nat) : Bool := decide (a < hbmSize)
  Memory.writeCells (m.filter fun c => !(hbm c.1 && (isNew c.1 || isOld c.1)))
    ((m.filter fun c => hbm c.1 && isOld c.1).map fun c => (movedAddr l c.1, c.2))

/-- The poison marks go with the words. -/
def movePoison (l : List (Nat × Nat)) (m : SMap Unit) : SMap Unit :=
  let isNew (w : Nat) : Bool := l.any fun x => x.2 == w / 0x2000
  rekey (fun w => movedAddr l (8 * w) / 8) (m.filter fun w => !isNew w.1)

/-- The memory manager's records after a move. -/
def moveMem (l : List (Nat × Nat)) (m : Mem) : Mem :=
  let f := movedFrame l
  { m with
    objs := m.objs.map fun o => (o.1, { o.2 with frames := o.2.frames.map f })
    pages := (rekey (movedAddr l) m.pages).map fun g => (g.1, { g.2 with frame := f g.2.frame })
    fixedF := rekey f m.fixedF
    reserved := rekey f m.reserved
    promoQ := m.promoQ.map (movedPromo l)
    promoIn := m.promoIn.map (movedPromo l)
    deepWrites := m.deepWrites.map (movedItem l)
    objt := m.objt.map fun t => (t.1, { t.2 with base := movedPtr l t.2.base }) }

/-- A supplied page after a move. -/
def movedSeal (l : List (Nat × Nat)) (g : SealPage) : SealPage := { g with addr := movedAddr l g.addr }

/-- Keeper's records after a move. -/
def moveKeeper (l : List (Nat × Nat)) (k : Keeper) : Keeper :=
  let f := movedFrame l
  { k with
    models := k.models.map fun m => (m.1, { m.2 with
      programs := m.2.programs.map fun p => (p.1, movedAddr l p.2.1, p.2.2)
      fixedFrames := m.2.fixedFrames.map f
      stripes := m.2.stripes.map (movedAddr l) })
    queues := k.queues.map fun q => (q.1, { q.2 with frames := q.2.frames.map f })
    sessions := k.sessions.map fun v => (v.1, { v.2 with
      l1 := movedPtr l v.2.l1, slots := movedPtr l v.2.slots, kvFrames := v.2.kvFrames.map f, logFrames := v.2.logFrames.map f })
    launchBase := k.launchBase.map fun b => (b.1, movedAddr l b.2)
    jobs := k.jobs.map fun x => (x.1, { x.2 with
      cmds := x.2.cmds.map fun c => { c with pages := c.pages.map (movedSeal l) }
      sealed := x.2.sealed.map (movedSeal l) }) }

/-- R194: a level-1 table that has moved points at its level-2 tables again. -/
def relinkTable (s : State) (v : Session) : State :=
  if v.l1 = 0 then s
  else match modelAt s v.model with
    | none => s
    | some m => (span 0 (headCount m)).foldl (fun s k =>
        writeMem s (v.l1 + 8 * k) (leBytes 8 (2 ^ 63 + v.l1 + 0x2000 * (k + 1)))) s

/-- Carry out the moves: bytes, poison and every record that names a moved frame; a core's program base goes with its program. -/
def applyMoves (s : State) (l : List (Nat × Nat)) : State :=
  if l = [] then s
  else
    let core (c : Core) : Core :=
      { c with progBase := movedPtr l c.progBase, kpins := c.kpins.map (movedAddr l),
               icache := c.icache.filter fun a => !(l.any fun x => x.1 == a / 0x10000) }
    let s1 : State := { s with mem := moveBytes l s.mem, poison := movePoison l s.poison, mm := moveMem l s.mm,
                               k := moveKeeper l s.k, cores := s.cores.map fun c => (c.1, core c.2) }
    let s2 := s1.k.sessions.foldl (fun s v => relinkTable s v.2) s1
    s2.mm.pages.foldl (fun s g => syncPage s g.1) s2

/-- Move what a partition holds in the frames that a test names to free frames of some units; none if it does not fit. -/
def moveOut (s : State) (p : Nat) (f : Nat → Bool) (units : List Nat) : Option State :=
  (planMoves s p units (groupsIn s p f)).map fun l => applyMoves s l

/-! ### Deep blocks (R268, R455, R456) -/

/-- Every item of a partition that has a deep copy. -/
def deepItems (s : State) (p : Nat) : List Item :=
  ((s.mm.objs.filter fun o => o.1 / 65536 == p && o.2.deep.isSome).map fun o => Item.obj p (o.1 % 65536))
    ++ ((s.mm.pages.filter fun g => g.2.part == p && g.2.deep.isSome).map fun g => Item.page g.1)

/-- A block on a named channel goes to a channel of a list by R268, into the lowest free granules. -/
def moveBlock (s : State) (i : Item) (cs : List Nat) (k : Nat) : Option State :=
  match itemDeep s i with
  | none => some s
  | some d => match d.blocks[k]? with
    | none => some s
    | some b =>
      if cs = [] then none
      else
        let c := cs.getD ((itemNo s i + k) % cs.length) 0
        (gapFrom (granulesPer s) b.count 0 (onChannel (deepBlocks s) c)).map fun g =>
          setDeep s i (some { d with blocks := setAt d.blocks k { b with channel := c, granule := g } })

/-- The blocks of an item that lie on named channels move. -/
def moveItemBlocks (named cs : List Nat) (o : Option State) (i : Item) : Option State :=
  o.bind fun s => match itemDeep s i with
    | none => some s
    | some d => (span 0 d.blocks.length).foldl (fun o k => o.bind fun s =>
        if (d.blocks[k]?).any fun b => named.contains b.channel then moveBlock s i cs k else some s) (some s)

/-- The deep blocks of a partition leave named channels; none if the others do not take them. -/
def moveDeep (s : State) (p : Nat) (named : List Nat) : Option State :=
  (deepItems s p).foldl (moveItemBlocks named ((channelsOf s p).filter fun c => !named.contains c)) (some s)

end Sys2Proof.Machine
end

