-- ==== Sys2Proof/Machine/Scrub.lean ====
section
/-! DEFINITION. Sys2Proof/Machine/Scrub.lean: errors that background work finds: patrol and SRAM scrubs, frame and way
retirement, MRAM wear, interface and monitor calibration (R470 to R472, R475, R479, R481 to R484). -/

namespace Sys2Proof.Machine

/-- Change the RAS block. -/
def onRas (s : State) (f : Ras → Ras) : State := { s with ras := f s.ras }
/-- RAS_ECC_CORR[k] counts. -/
def countCorr (s : State) (k n : Nat) : State :=
  onRas s fun r => { r with eccCorr := SMap.put r.eccCorr k (satAdd (SMap.getD r.eccCorr k 0) n) 0 }
/-- RAS_ECC_UNCORR[k] counts. -/
def countUncorr (s : State) (k n : Nat) : State :=
  onRas s fun r => { r with eccUncorr := SMap.put r.eccUncorr k (satAdd (SMap.getD r.eccUncorr k 0) n) 0 }
/-- RAS_CTRL.scrub_en. -/
def scrubEn (s : State) : Bool := rbit s (rasRegBase + 4) 0
/-- RAS_CTRL.st_en. -/
def slicesEn (s : State) : Bool := rbit s (rasRegBase + 4) 1

/-! ### HBM frames (R472) -/

/-- The HBM stack of a frame. -/
def stackOf (f : Nat) : Nat := if f / framesPerUnit < 16 then 0 else 1
/-- Retired frames of a stack. -/
def retiredIn (s : State) (stack : Nat) : Nat := (s.mm.retired.filter fun f => stackOf f.1 == stack).length
/-- Frames that the retired-frame map holds per stack. -/
def retiredMax : Nat := 4096

/-- The item whose frame f is. -/
def itemAt (s : State) (f : Nat) : Option Item :=
  match s.mm.objs.find? fun o => o.2.frames.contains f with
  | some o => some (.obj (o.1 / 65536) (o.1 % 65536))
  | none => (s.mm.pages.find? fun g => g.2.st != .deep && !g.2.striped && g.2.frame == f).map fun g => .page g.1

/-- R474: an object with poisoned bytes is written again from its deep copy. -/
def refill (s : State) (i : Item) : State :=
  match i, itemDeep s i with
  | .obj p n, some d => match SMap.get? s.mm.objs (objKey p n) with
    | some o => if itemPoisoned s i then writeObj s o.frames 0 (deepBytes d o.size) else s
    | none => s
  | _, _ => s

/-- R472: the contents of a retired frame: an evictable item is demoted, another frame's content is copied to a new frame of the
partition, or rebuilt where it is unreadable; without room the content stays (DESIGN CHOICE, log 33). -/
def vacate (s : State) (f : Nat) : State :=
  let p := SMap.getD s.own.hbm (f / framesPerUnit) 0
  match itemAt s f with
  | some i =>
    if evictable s i && ((itemDeep s i).isSome || (deepRoom s i && !itemPoisoned s i)) then demote s i
    else refill ((moveOut s p (· == f) (unitsOf s p)).getD s) i
  | none => (moveOut s p (· == f) (unitsOf s p)).getD s

/-- R472: retire a frame, while the map of its stack has room. -/
def retireFrame (s : State) (f : Nat) : State :=
  if (SMap.get? s.mm.retired f).isSome then s
  else
    let p := SMap.getD s.own.hbm (f / framesPerUnit) 0
    if retiredMax ≤ retiredIn s (stackOf f) then
      raiseEvent (logAppend s 0x10 p [1, f, stackOf f]) 0x0302 0xFFFF (stackOf f)
    else vacate (logAppend { s with mm := { s.mm with retired := SMap.set s.mm.retired f () } } 0x04 p [2, f]) f

/-- R472: a corrected error in a frame: the second within 24 h retires it. -/
def frameCorr (s : State) (a : Nat) : State :=
  let f := a / 0x10000
  let l := within s.tick (SMap.getD s.mm.frameErrs f []) ++ [s.tick]
  let s1 := countCorr { s with mm := { s.mm with frameErrs := SMap.set s.mm.frameErrs f l } } (5 + stackOf f) 1
  if 2 ≤ l.length then retireFrame s1 f else s1

/-- R472, R553: an uncorrectable error at an address: the word is poisoned and its frame retired. -/
def frameUncorr (s : State) (a : Nat) : State :=
  let s1 := countUncorr { s with poison := SMap.set s.poison (a / 8) () } (5 + stackOf (a / 0x10000)) 1
  retireFrame s1 (a / 0x10000)

/-- Is an address in HBM that is powered and not in self-refresh (R27, R482)? -/
def hbmAwake (s : State) (a : Nat) : Bool :=
  decide (a < hbmSize) && decide (modeNo (unitMode (a / hbmUnit)) ≤ modeNo s.aon.mode)

/-- How much of a pass is done; a finished pass begins anew and may be late again. -/
def passOf (done : Nat) : Nat := if 1000 ≤ done then 0 else done

/-- HBM_PATROL_SCRUB: a stretch has been read: the addresses with corrected and with uncorrectable errors, and how many
thousandths of the pass are done. -/
def execHbmPatrolScrub (corr uncorr : List Nat) (done : Nat) (s : State) : Host.Outcome State Fault Refusal :=
  .next (if !scrubEn s || !s.mm.hbmTrained || s.aon.mode == .buoy || s.aon.mode == .beacon then s
  else
    let s1 := (corr.filter (hbmAwake s)).foldl frameCorr s
    let s2 := (uncorr.filter (hbmAwake s)).foldl frameUncorr s1
    onRas s2 fun r => { r with hbmPass := passOf done, hbmLate := r.hbmLate && decide (done < 1000) })

/-! ### Deep blocks (R482, R483, R263) -/

/-- R263 for a block that a patrol read finds bad: a copy whose item is in HBM is dropped and written again; that of a deep item
is rebuilt as after a failed promotion. -/
def deepBad (s : State) (i : Item) (bad : List DeepRead) : State :=
  match itemDeep s i with
  | none => s
  | some d =>
    let x : Promo := { item := i, deadline := s.tick, late := s.tick }
    if itemSt s i = some .deep then failPromo s x d bad
    else if itemSt s i = some .promoting then s
    else
      let s1 := bad.foldl (fun s b => logAppend s 0x10 (itemPart s i) [0, itemNo s i, (d.blocks[b.block]?).elim 0 DeepBlk.channel]) s
      onMem (setDeep s1 i none) fun m => { m with deepWrites := if m.deepWrites.contains i then m.deepWrites else m.deepWrites ++ [i] }

/-- DEEP_PATROL_SCRUB: the blocks of an item have been read through DTC and XTS. -/
def execDeepPatrolScrub (item : Item) (reads : List DeepRead) (done : Nat) (s : State) : Host.Outcome State Fault Refusal :=
  .next (if !scrubEn s || !s.mm.lpTrained || s.aon.mode == .buoy || s.aon.mode == .beacon then s
  else
    let n := (itemDeep s item).elim 0 fun d => d.blocks.length
    let mine := reads.filter fun b => decide (b.block < n)
    let bad := mine.filter fun b => b.first.val != 0 && b.second.val != 0
    let s1 := (mine.filter DeepRead.corrected).foldl (fun s b => relocate s item b.block) (countReads s mine)
    let s2 := if bad = [] then s1 else deepBad s1 item bad
    onRas s2 fun r => { r with deepPass := passOf done, deepLate := r.deepLate && decide (done < 1000) })

/-- SCRUB_LATE: a pass has not completed within 1.5 times its period. -/
def execScrubLate (deep : Bool) (s : State) : Host.Outcome State Fault Refusal :=
  .next (if !scrubEn s || (if deep then s.ras.deepLate || !s.mm.lpTrained else s.ras.hbmLate || !s.mm.hbmTrained) then s
  else if deep then raiseEvent (onRas s fun r => { r with deepLate := true }) 0x0303 0xFFFF 1
  else raiseEvent (onRas s fun r => { r with hbmLate := true }) 0x0303 0xFFFF 0)

/-! ### On-die SRAM (R470, R475, R479, R481) -/

/-- R479: retire an SSR way. -/
def retireWay (s : State) (w : Nat) : State :=
  let s1 := onRas s fun r => { r with waysRetired := SMap.set r.waysRetired w (), wayHold := SMap.erase r.wayHold w }
  raiseEvent (logAppend s1 0x04 (SMap.getD s.own.ssr w 0) [1, w]) 0x0301 0xFFFF w

/-- R315: an unbounded fault of a partition: a reset, or the teardown of the system queues that run commands. -/
def unbounded (s : State) (p : Nat) : State :=
  if p ≠ 0 then partitionReset s p 0
  else ((s.k.queues.filter fun q => q.2.part == 0 && s.runs.any fun r => r.2.queue == q.1).map Prod.fst).foldl teardown s

/-- R475, R479, R488: an unbounded fault of an SSR way: the second within 24 h retires it, else it is held for the check. -/
def wayFault (s : State) (w : Nat) : State :=
  let l := within s.tick (SMap.getD s.ras.wayFaults w []) ++ [s.tick]
  let s1 := onRas s fun r => { r with wayFaults := SMap.set r.wayFaults w l, wayHold := SMap.set r.wayHold w () }
  let s2 := unbounded s1 (SMap.getD s.own.ssr w 0)
  if 2 ≤ l.length then retireWay s2 w else s2

/-- R490: the DSP is restarted from its slot in force, after a revert if its image is in trial. -/
def dspRestart (s : State) : State := askHandover (raiseEvent (trialFault s 2) 0x030A) 2 none

/-- RAS_ECC source of a place (R470). -/
def sramSource : SramPlace → Nat
  | .ssr _ => 0
  | .semaphore _ => 0
  | .sessionTable => 1
  | .keeperSram => 2
  | .aonSram => 3
  | .rows _ => 0

/-- Single-bit errors in resident rows of a core are corrected and counted in CORE_ECC_CORR. -/
def scrubRows (s : State) (c : Nat) : State :=
  onCore s c fun x => (x.rowOwner.foldl (fun y r => (eccAccRead y r.1 1).1) x)

/-- R470: what an error that the scrub finds does; an uncorrectable one in Keeper SRAM leads to KEEPER_RESTART. -/
def sramError (s : State) (e : SramPlace × Bool) : State :=
  match e.1, e.2 with
  | .rows c, _ => scrubRows s c.val
  | x, false => countCorr s (sramSource x) 1
  | .ssr w, true => wayFault (countUncorr s 0 1) w.val
  | .semaphore n, true =>
    let s1 := countUncorr s 0 1
    match SMap.get? s.sems n.val with
    | some m => if m.part = 0 then teardown s1 m.ownerQueue else partitionReset s1 m.part 0
    | none => s1
  | .aonSram, true => dspRestart (countUncorr s 3 1)
  | x, true => countUncorr s (sramSource x) 1

/-- SRAM_SCRUB: a stretch has been read; the errors found and whether each is uncorrectable. -/
def execSramScrub (found : List (SramPlace × Bool)) (s : State) : Host.Outcome State Fault Refusal :=
  .next (if s.power.mainReset then s else found.foldl sramError s)

/-! ### MRAM wear, calibration (R481, R484) -/

/-- First 4 KiB block of the wear reserve, and the end of the MRAM (R496). -/
def reserveFirst : Nat := 0x470
/-- Blocks of the MRAM. -/
def mramBlocks : Nat := 0x800

/-- MRAM_WEAR_REMAP: a block has reached 10⁷ writes: a block of the reserve stands for it; what it holds stays. -/
def execMramWearRemap (block : Fin 2048) (s : State) : Host.Outcome State Fault Refusal :=
  let used := s.ras.remap.map Prod.snd
  .next (if reserveFirst ≤ block.val then s
  else match (span reserveFirst (mramBlocks - reserveFirst)).find? fun b => !used.contains b with
  | some b => onRas s fun r => { r with remap := SMap.set r.remap block.val b }
  | none => s)

/-- INTERFACE_CALIBRATION: HBM stack 0 or 1, or LPDDR5X channel x − 2, is calibrated at a temperature. -/
def execInterfaceCalibration (ifc : Fin 10) (temp : Int) (s : State) : Host.Outcome State Fault Refusal :=
  .next (if (if ifc.val < 2 then s.mm.hbmTrained else s.mm.lpTrained) then
    onRas s fun r => { r with lastCal := SMap.set r.lastCal ifc.val temp }
  else s)

/-- MONITOR_RECALIBRATION: the trims of temperature and voltage monitors (slots 16 to 39 of R509) are those that the bandgap
reference gives. -/
def execMonitorRecalibration (trims : List (Nat × List Byte)) (s : State) : Host.Outcome State Fault Refusal :=
  .next (if s.power.mainReset then s
  else onRas s fun r => { r with
    trims := (trims.filter fun t => decide (16 ≤ t.1) && decide (t.1 < 40) && t.2.length == 4).foldl
      (fun m t => SMap.set m t.1 t.2) r.trims })

end Sys2Proof.Machine
end

