-- ==== Sys2Proof/Machine/SelfTest.lean ====
section
/-! DEFINITION. Sys2Proof/Machine/SelfTest.lean: self-test slices, their deferral, and the full check of a held part (R485 to R488,
R493 to R495). -/

namespace Sys2Proof.Machine

/-- The slice code of RAS_ST_RESULT. -/
def sliceCode : Slice → Nat
  | .logic _ => 0x01
  | .spadBank _ _ => 0x02
  | .accQuarter _ _ => 0x03
  | .weightBanks _ => 0x04
  | .ssrWay _ => 0x05
  | .pll _ => 0x10
  | .loopback _ => 0x11
  | .pdm _ => 0x12
  | .temperature => 0x13
  | .voltage _ => 0x14

/-- The target of RAS_ST_RESULT. -/
def sliceTarget : Slice → Nat
  | .logic c => c.val
  | .spadBank c _ => c.val
  | .accQuarter c _ => c.val
  | .weightBanks c => c.val
  | .ssrWay w => w.val
  | .pll t => t.val
  | .loopback p => p.val
  | .pdm c => c.val
  | .temperature => 0
  | .voltage m => m.val

/-- The part of its target that a slice tests. -/
def slicePart : Slice → Nat
  | .spadBank _ b => b.val
  | .accQuarter _ q => q.val
  | _ => 0

/-- Budget of a core slice in µs (R486, R487). -/
def sliceBudget : Slice → Nat
  | .logic _ => 2000
  | .spadBank _ _ => 100
  | .accQuarter _ _ => 400
  | .weightBanks _ => 200
  | _ => 0

/-- The core that a slice tests. -/
def sliceCore : Slice → Option Nat
  | .logic c => some c.val
  | .spadBank c _ => some c.val
  | .accQuarter c _ => some c.val
  | .weightBanks c => some c.val
  | _ => none

/-- The key of a slice among the deferred ones. -/
def sliceKey (x : Slice) : Nat := sliceCode x * 64 + sliceTarget x

/-! ### When a slice may run (R485, R486, R487) -/

/-- R485: supply and clock are in range: VDD_CORE in mV, read by a monitor that is not excluded, and the root PLL's lock. -/
def testable (s : State) (vdd : Nat) : Bool := decide (720 ≤ vdd) && decide (vdd ≤ 800) && s.ras.pllLocked && !bitOf s.ras.vmonOff 0

/-- R487: is there ready work of a core's partition that the core could run? -/
def workFor (s : State) (c : Nat) : Bool :=
  let p := corePart s c
  (candidates s p).any fun w => (allowedCores s p w).contains c

/-- R487: may a slice have core c: held for its check, or idle, outside every sector and its guard, and not wanted? -/
def coreForSlice (s : State) (c budget : Nat) : Bool :=
  (coreOf s c).st == .held
    || (coreIdle s c && !workFor s c && !reservedElse s (corePart s c) c 1 && fitsBefore s (corePart s c) c 1 budget)

/-- R486: may a slice have its target? -/
def targetFree (s : State) (x : Slice) : Bool :=
  match x with
  | .ssrWay w => !(s.runs.any fun r => (jobAt s r.2.job).any fun j => j.part == SMap.getD s.own.ssr w.val 0)
      && decide (modeNo (wayMode w.val) ≤ modeNo s.aon.mode)
  | .loopback p =>
    if p.val < 4 then decide ((fabPort s p.val).state ≤ 1)
    else if p.val < 6 then !portUp s (p.val - 4)
    else !((SMap.get? s.cam.ports (p.val - 6)).any fun y => y.en)
  | .pdm c => !bitOf (chMask s.aon) c.val
  | _ => (sliceCore x).all fun c => coreForSlice s c (sliceBudget x)

/-! ### What a slice does (R486, R488) -/

/-- BIST contents are dead: the bank, the quarter but for resident rows, or the banks and the cache of a core; a way reads 0. -/
def bistWipe (s : State) (x : Slice) : State :=
  match x with
  | .spadBank c b => onCore s c.val fun y =>
      { y with spad := Memory.clear y.spad (b.val * 0x40000) ((b.val + 1) * 0x40000),
               valid := y.valid.filter fun l => !(decide (b.val * 0x1000 ≤ l.1) && decide (l.1 < (b.val + 1) * 0x1000)) }
  | .accQuarter c q => onCore s c.val fun y =>
      { y with acc := y.acc.filter fun r => !(r.1 / 256 == q.val && (SMap.get? y.rowOwner r.1).isNone) }
  | .weightBanks c => onCore s c.val fun y => { y with bank0 := none, bank1 := none, icache := [] }
  | .ssrWay w => { s with mem := Memory.clear s.mem (ssrBase + w.val * 0x200000) (ssrBase + (w.val + 1) * 0x200000) }
  | _ => s

/-- The slices of a full check of a core (R488). -/
def fullCheck : List Nat :=
  [0x01 * 16] ++ (span 0 16).map (fun b => 0x02 * 16 + b) ++ (span 0 4).map (fun q => 0x03 * 16 + q) ++ [0x04 * 16]

/-- R488: a held core has passed a slice; after the last it returns to service. -/
def checkPassed (s : State) (c n : Nat) : State :=
  if (SMap.get? s.ras.checkHold c).isNone then s
  else
    let l := SMap.getD s.ras.passed c []
    let l1 := if l.contains n then l else n :: l
    if fullCheck.all l1.contains then
      reschedule (ctrlWrite (onRas s fun r => { r with checkHold := SMap.erase r.checkHold c, passed := SMap.erase r.passed c }) c
        fun y => { y with shBistHold := false }) (corePart s c)
    else onRas s fun r => { r with passed := SMap.set r.passed c l1 }

/-- Median of readings: of an even number the lower of the two in the middle. -/
def median (l : List Int) : Int := (sortBy (fun a b => decide (a ≤ b)) l).getD ((l.length - 1) / 2) 0

/-- On-die sensors more than 5 °C from the median (R486). -/
def strayed (s : State) : List Nat :=
  let l := (s.power.temps.filter fun t => decide (t.1 < 16))
  let m := median (l.map Prod.snd)
  (l.filter fun t => decide (m + 40 < t.2) || decide (t.2 + 40 < m)).map Prod.fst

/-- R486: a sensor is excluded from thermal control. -/
def dropSensor (s : State) (k : Nat) : State :=
  if bitOf s.ras.sensorOff k then s
  else raiseEvent (onRas s fun r => { r with sensorOff := r.sensorOff + 2 ^ k }) 0x0309 0xFFFF k

/-- The device tick restarts with a main reset, and the alarm path leads there (R480): the cause is kept in RAS_ALARM and in
SYS_RESET_CAUSE, and a cold start follows. -/
def alarmPath (s : State) (f : Ras → Ras) : State :=
  let t := mainReset (onRas s f)
  releaseMain { t with power := { t.power with cold := true, resetCause := 8 } }

/-- R486: a failed slice. -/
def sliceFail (s : State) (x : Slice) : State :=
  match x with
  | .ssrWay w => retireWay s w.val
  | .pll t =>
    if t.val = 0 then alarmPath s fun r => { r with alarm := r.alarm ||| 2#32 }
    else
      let s1 := raiseEvent (onRas s fun r => { r with pllFaults := SMap.set r.pllFaults t.val () }) 0x0306 0xFFFF t.val
      if t.val ≤ 4 then linkRestart (modFabPort s1 (t.val - 1) fun y => { y with faulty := true }) (t.val - 1)
      else
        let p := t.val - 5
        let s2 := modPort s1 p fun y => { y with state := 0, saks := [], sqi := 0 }
        if s.activePort == p && portUp s p && portUp s (1 - p) && !rbit s hostCtrl 4 then failTo s2 (1 - p) else s2
  | .loopback p =>
    let s1 := raiseEvent s 0x0307 0xFFFF p.val
    if p.val < 4 then modFabPort s1 p.val fun y => { y with faulty := true, state := 0 }
    else if p.val < 6 then onRas s1 fun r => { r with portFaults := SMap.set r.portFaults (p.val - 4) () }
    else
      let bad : CamPort := { SMap.getD s1.cam.ports (p.val - 6) {} with faulty := true }
      { s1 with cam := { s1.cam with ports := SMap.set s1.cam.ports (p.val - 6) bad } }
  | .pdm c => raiseEvent (onAon s fun a => { a with pdmExcluded := a.pdmExcluded ||| 2 ^ c.val }) 0x0308 0xFFFF c.val
  | .voltage m =>
    if bitOf s.ras.vmonOff m.val then s
    else
      let s1 := onRas s fun r => { r with vmonOff := r.vmonOff + 2 ^ m.val }
      if m.val = 0 then raiseEvent s1 0x0309 0xFFFF m.val else s1
  | .temperature => s
  | _ => match sliceCore x with
    | some c => retireCore (onRas s fun r => { r with checkHold := SMap.erase r.checkHold c, passed := SMap.erase r.passed c }) c
    | none => s

/-- R486, R488: a passed slice. -/
def slicePass (s : State) (x : Slice) : State :=
  match x with
  | .ssrWay w => onRas s fun r => { r with wayHold := SMap.erase r.wayHold w.val }
  | .logic c => checkPassed (onRas s fun r => { r with bistAt := SMap.set r.bistAt c.val s.tick }) c.val 16
  | _ => match sliceCore x with
    | some c => checkPassed s c (sliceCode x * 16 + slicePart x)
    | none => s

/-- R485: a slice is deferred and counted. -/
def deferSlice (s : State) (x : Slice) (vdd : Nat) : State :=
  let k := sliceKey x
  onRas s fun r =>
    { r with vmon := vdd, stDeferred := satAdd r.stDeferred 1,
             deferred := if (SMap.get? r.deferred k).isSome then r.deferred else SMap.set r.deferred k s.tick }

/-- A slice runs to its end. -/
def runSlice (s : State) (x : Slice) (vdd : Nat) (pass : Bool) : State :=
  let good := match x with | .temperature => (strayed s).isEmpty | _ => pass
  let s1 := onRas (bistWipe s x) fun r =>
    { r with vmon := vdd, slices := r.slices + 1, deferred := SMap.erase r.deferred (sliceKey x),
             lateTold := SMap.erase r.lateTold (sliceKey x),
             stResult := word (b2n (!good) * 2 ^ 31 + sliceTarget x * 2 ^ 16 + sliceCode x) }
  match x with
  | .temperature => (strayed s).foldl dropSensor s1
  | _ => if good then slicePass s1 x else sliceFail s1 x

/-- A slice is tried: it runs, is deferred, or has no target to run on. -/
def trySlice (s : State) (x : Slice) (vdd : Nat) (pass : Bool) : State :=
  if s.power.mainReset ∨ slicesEn s = false then s
  else if !testable s vdd then deferSlice s x vdd
  else if targetFree s x then runSlice s x vdd pass
  else s

/-- SELFTEST_SLICE, with the reading of VDD_CORE at its start and what it finds. -/
def execSelftestSlice (slice : Slice) (vdd : Nat) (pass : Bool) (s : State) : Host.Outcome State Fault Refusal :=
  .next (trySlice s slice vdd pass)

/-- SELFTEST_DEFER_RETRY: 10 ms after a deferral; a slice deferred for 24 h raises SELFTEST_LATE once. -/
def execSelftestDeferRetry (slice : Slice) (vdd : Nat) (pass : Bool) (s : State) : Host.Outcome State Fault Refusal :=
  let k := sliceKey slice
  .next (if (SMap.get? s.ras.deferred k).isNone then s
  else
    let t := trySlice s slice vdd pass
    match SMap.get? t.ras.deferred k with
    | some since =>
      if since + dayTicks ≤ t.tick ∧ (SMap.get? t.ras.lateTold k).isNone then
        raiseEvent (onRas t fun r => { r with lateTold := SMap.set r.lateTold k () }) 0x0304 0xFFFF (sliceCode slice)
      else t
    | none => t)

/-! ### Keeper restart and the alarm path (R480, R493) -/

/-- The Keeper image cached in the PSRAM (R31, R512): header and body. -/
def cachedHeader (s : State) : List Byte := readMem s (psRegion s (1 + s.boot.bank)).1 headerLen

/-- R480: Keeper restarts: from the other slot if its image was in trial, else from the cache. -/
def keeperAgain (s : State) : State :=
  if inTrial s 1 then startFrom (revertSlot s 1) 1 (fwOf (revertSlot s 1) 1).active
  else
    let h := cachedHeader s
    let b := readMem s ((psRegion s (1 + s.boot.bank)).1 + headerLen) (min (bodyLen h) (bodyMax 1))
    extend { s with mem := Memory.writeBytes s.mem (keeperSramBase + s.boot.bank * 0xC0000) b } 1 h

/-- One hour in ticks. -/
def hourTicks : Nat := 3600 * ticksPerSecond

/-- KEEPER_RESTART: `ok` where the image verifies and starts; the second failure within 1 h takes the alarm path. -/
def execKeeperRestart (ok : Bool) (s : State) : Host.Outcome State Fault Refusal :=
  .next (if s.power.mainReset then s
  else if ok then
    raiseEvent (logAppend (keeperAgain s) 0x01 0xFF [2, s.ras.alarm.toNat]) 0x030B
  else
    let l := (s.ras.keeperRestarts.filter fun t => decide (s.tick < t + hourTicks)) ++ [s.tick]
    let s1 := onRas (trialFault s 1) fun r => { r with keeperRestarts := l }
    if 2 ≤ l.length then alarmPath s1 fun r => { r with alarm := r.alarm ||| 1#32 } else s1)

/-- Bit of RAS_ALARM of a cause. -/
def alarmBit : AlarmCause → Word
  | .keeper => 1
  | .pll => 2
  | .vdd => 4

/-- ALARM_PATH: a Keeper that failed to restart twice within 1 h, a root PLL that lost lock, VDD_CORE out of range. -/
def execAlarmPath (cause : AlarmCause) (s : State) : Host.Outcome State Fault Refusal :=
  let fails := (s.ras.keeperRestarts.filter fun t => decide (s.tick < t + hourTicks)).length
  .next (if s.power.mainReset || (cause == .keeper && decide (fails < 2)) then s
  else alarmPath s fun r => { r with alarm := r.alarm ||| alarmBit cause })

/-- A write of RAS_CTRL; alarm_force acts in SERVICE alone (R493). -/
def rasCtrl (s : State) (v : Word) : State :=
  let s1 := rset s (rasRegBase + 4) (v &&& 3#32)
  if bitOf v.toNat 2 ∧ lifeCycle s = 3 then alarmPath s1 fun r => { r with alarmForced := true } else s1

/-- ALARM_FORCE. -/
def execAlarmForce (by_ : Req) (v : Word) (s : State) : Host.Outcome State Fault Refusal :=
  .next (mayWrite s by_ .rasRegs fun s => rasCtrl s v)

/-! ### The health monitor (R490) -/

/-- R490: how long a message to a mailbox may wait, in ticks; none where no limit is set, and for the DSP while a candidate is open:
its reset waits for that. -/
def mailLimit (s : State) (m : Nat) : Option Nat :=
  if 32 ≤ m ∧ m < 64 then
    (if (coreOf s (m - 32)).st = .idle ∧ (coreOf s (m - 32)).enable then some (100 * ticksPerUs) else none)
  else if m = 17 then (if s.aon.candOpen then none else some ticksPerSecond)
  else if m = 11 then some (200 * 1000 * ticksPerUs)
  else if m = 12 ∨ (112 ≤ m ∧ m < 116) then some (10 * 1000 * ticksPerUs)
  else none

/-- Keeper hart 3 drains a mailbox (R489). -/
def drain (s : State) (m : Nat) : State := mbxTake s (.keeper 3) m

/-- A drained message is posted again by Keeper. -/
def repost (s : State) (m : Nat) (ws : List Word) : State :=
  (span 0 8).foldl (fun s w => mbxWrite s (.keeper 3) m w (ws.getD w 0)) s

/-- The command that a core never took waits to be placed again. -/
def replaceRun (s : State) (c : Nat) : State :=
  match SMap.get? s.runs c with
  | none => s
  | some r =>
    let s1 := { s with runs := SMap.erase s.runs c }
    modJob s1 r.job fun x =>
      { x with cmds := x.cmds.map fun d => if d.g.id = r.cmd then { d with st := .waiting } else d }

/-- R490: a core that leaves its dispatch message: an unbounded fault of it; drained; placed again elsewhere. -/
def deadCore (s : State) (c : Nat) : State :=
  let s1 := containCore (drain s (32 + c)) c
  reschedule (replaceRun s1 c) (corePart s c)

/-- What the monitor does about a dead receiver, with the words of its message. -/
def deadReceiver (s : State) (m : Nat) : State :=
  let ws := (span 0 8).map fun w => mbxWord s.mbx m w
  if 32 ≤ m ∧ m < 64 then deadCore s (m - 32)
  else if m = 17 then repost (dspRestart (drain s 17)) 17 ws
  else if m = 11 then
    let s1 := trialFault (drain s 11) 0
    repost (secRestart s1 (slotHeader s1 0 (fwOf s1 0).active)) 11 ws
  else if m = 12 then repost (resendAll (drain s 12)) 12 ws
  else repost (resendFrom (drain s m) (m - 112) 0) m ws

/-- A mailbox as the monitor finds it: its age is kept, and past the limit the monitor acts with a logbook record. -/
def monitorMail (s : State) (m : Nat) : State :=
  if !mbxFull s.mbx m then onRas s fun r => { r with mailSince := SMap.erase r.mailSince m }
  else match SMap.get? s.ras.mailSince m with
    | none => onRas s fun r => { r with mailSince := SMap.set r.mailSince m s.tick }
    | some t =>
      if (mailLimit s m).any fun n => decide (t + n < s.tick) then
        onRas (logAppend (deadReceiver s m) 0x0F 0 [mbxReceiver s.mbx m, m]) fun r => { r with mailSince := SMap.erase r.mailSince m }
      else s

/-- HEALTH_MONITOR_SAMPLE: every mailbox is looked at. -/
def execHealthMonitorSample (s : State) : Host.Outcome State Fault Refusal :=
  .next (if s.power.mainReset || !s.power.started then s else (span 0 128).foldl monitorMail s)

/-- DSP_PING: Keeper posts a message of type 0x12 in mailbox 17, unless one waits there. -/
def execDspPing (s : State) : Host.Outcome State Fault Refusal :=
  .next (if s.power.mainReset || !s.power.started || mbxFull s.mbx 17 then s
  else repost s 17 [word (0x12 * 2 ^ 16), 0, 0, 0, 0, 0, 0, 0])

/-- SEC_REQUEST: SEC takes Keeper's message from mailbox 11; its words are not given. -/
def execSecRequest (s : State) : Host.Outcome State Fault Refusal :=
  .next (if mbxFull s.mbx 11 then mbxTake s .sec 11 else s)

/-- SEC_RESULT: Keeper takes SEC's message from mailbox 10; its words are not given. -/
def execSecResult (s : State) : Host.Outcome State Fault Refusal :=
  .next (if mbxFull s.mbx 10 then mbxTake s (.keeper 0) 10 else s)

end Sys2Proof.Machine
end

