-- ==== Sys2Proof/Machine/Logs.lean ====
section
/-! DEFINITION. Sys2Proof/Machine/Logs.lean: the logbook and the boot record as hosts read them, the calibration store, and what
clears boot steps and the retirement map (R496, R501, R504 to R510, R515). -/

namespace Sys2Proof.Machine

/-- Output tiles go to the host as STREAM messages on the request's association, and stay with the handle (R353, R354). -/
def returnTiles (s : State) (h : Nat) (ts : List Tile) : State :=
  let s1 := keepOuts s h ts
  match handleOf s1 h with
  | none => s1
  | some x => (span 0 ts.length).foldl (fun s i => match ts[i]? with
      | some t => streamTile s x.assoc h i (i + 1 == ts.length) t
      | none => s) s1

/-! ### READ_RECORDS (R504, R505, R508) -/

/-- R505: the 64 bytes of a committed record. -/
def logBytes (r : LogRec) : List Byte :=
  let b := leBytes 8 r.seq ++ leBytes 8 r.tick ++ leBytes 4 r.boot ++ leBytes 1 r.type ++ leBytes 1 r.part ++ leBytes 2 0
    ++ (span 0 8).flatMap fun k => leBytes 4 (r.args.getD k 0)
  b ++ leBytes 4 (crc32c b).toNat ++ leBytes 4 0x4C424F4B

/-- Bits of a set of numbers below n. -/
def keyMask {α : Type} (m : SMap α) (n : Nat) : Nat := maskOf n fun k => (SMap.get? m k).isSome

/-- R504: a step entry. -/
def stepBytes (e : BootStep) : List Byte :=
  leBytes 1 e.state ++ leBytes 1 e.fails ++ leBytes 1 e.flags ++ leBytes 1 0 ++ leBytes 4 e.tStarted ++ leBytes 4 e.tDone
    ++ leBytes 4 0
/-- R504: a region entry. -/
def regionBytes (r : PsRegion) : List Byte :=
  leBytes 1 r.kind ++ leBytes 3 0 ++ leBytes 4 r.offset ++ leBytes 4 r.length ++ leBytes 4 0
/-- R504: a resume entry. -/
def resumeBytes (r : Resume) : List Byte := (r.args ++ leBytes 24 0).take 24 ++ leBytes 1 r.part ++ leBytes 1 1 ++ leBytes 6 0
/-- Bytes filled up with zeros. -/
def fill (n : Nat) (b : List Byte) : List Byte := b.take n ++ List.replicate (n - b.length) 0
/-- R504: the retired frames of a stack, unused places all ones. -/
def frameBytesOf (s : State) (stack : Nat) : List Byte :=
  let half := 16 * framesPerUnit
  let fs := (s.mm.retired.map Prod.fst).filter fun f => f / half == stack
  let b := (fs.take 4096).flatMap fun f => leBytes 4 (f % half)
  b ++ List.replicate (0x4000 - b.length) 0xFF

/-- R504: the 64 KiB of the boot record. -/
def bootBytes (s : State) : List Byte :=
  let b := s.boot
  let head := leBytes 2 0x4252 ++ leBytes 1 b.kind ++ leBytes 1 0 ++ leBytes 4 b.bootCount ++ leBytes 2 b.quench
  fill 0x100 head
    ++ fill 0x200 ((span 1 32).flatMap fun k => stepBytes (SMap.getD b.steps k {}))
    ++ fill 0x100 (b.regions.flatMap regionBytes)
    ++ fill 0x400 (leBytes 4 (keyMask s.ras.coresRetired 32) ++ leBytes 2 (keyMask s.ras.waysRetired 16))
    ++ fill 0x800 (b.resume.flatMap resumeBytes)
    ++ frameBytesOf s 0 ++ frameBytesOf s 1 ++ List.replicate 0x7000 0

/-- R508: the records that a principal receives, in seq order. -/
def recordsFor (s : State) (p first count : Nat) : List LogRec :=
  let all : List LogRec := sortBy (fun a b => decide (a.seq ≤ b.seq)) (s.log.recs.map Prod.snd)
  let from_ : List LogRec := match all.find? fun r => r.seq % 2 ^ 32 == first with
    | some r => all.filter fun x => decide (r.seq ≤ x.seq)
    | none => all
  (from_.filter fun r => p == 0 || r.part == p).take count

/-- READ_RECORDS; the results of a read of the boot record are not given (free values). -/
def execReadRecords (rq : Request) (s : State) : Host.Outcome State Fault Refusal :=
  let first := arg rq.args 0 4
  let count := arg rq.args 4 4
  .next (onRequest s rq 0x23 (some 2)
    (fun a => argsOk a [(0, 4), (4, 4)] && decide (1 ≤ arg a 4 4) && decide (arg a 4 4 ≤ 65536)) fun s h p =>
    if first = 0xFFFFFFFF ∧ count = 1 then
      let f (k : Nat) : Nat := Config.freeNat (s.freeCtr + k)
      complete (returnTiles { s with freeCtr := s.freeCtr + 2 } h (reportTiles 4096 (bootBytes s))) h 0 (f 0) (f 1)
    else
      let rs := recordsFor s p first count
      complete (returnTiles s h (reportTiles 4096 (rs.flatMap logBytes))) h 0 rs.length (rs.head?.elim 0 LogRec.seq))

/-- LOGBOOK_DROP_SUMMARY: a second in which records were dropped closes with their number (R506). -/
def execLogbookDropSummary (s : State) : Host.Outcome State Fault Refusal :=
  .next (if s.log.dropped = 0 ∨ s.tick / ticksPerSecond = s.log.second then s
  else logAppend { s with log := { s.log with dropped := 0 } } 0x11 0xFF [s.log.dropped])

/-! ### The calibration store (R509, R510) -/

/-- R509: the slot of an entry id. -/
def calSlot (id : Nat) : Option Nat :=
  let k := id % 256
  match id / 256 with
  | 1 => if k < 16 then some k else none
  | 2 => if k < 16 then some (16 + k) else none
  | 3 => if k < 8 then some (32 + k) else none
  | 4 => if k < 16 then some (40 + k) else none
  | 5 => if k < 38 then some (56 + k) else none
  | _ => none

/-- Is a length one of the entry's (R509)?  An offset and a slope are 2 bytes each (DEDUCED, log 28). -/
def calLenOk (id n : Nat) : Bool :=
  match id / 256 with
  | 4 => n == 8
  | 5 => decide (1 ≤ n) && decide (n ≤ 48)
  | _ => n == 4

/-- R509: the 64 bytes of an entry; of an absent one the length is 0. -/
def calBytes (id : Nat) (e : Option CalEntry) : List Byte :=
  let b := leBytes 2 id ++ match e with
    | some e => leBytes 1 e.data.length ++ leBytes 1 e.origin ++ leBytes 4 e.writes ++ fill 48 e.data ++ leBytes 4 0
    | none => leBytes 58 0
  b ++ leBytes 4 (crc32c b).toNat

/-- What an entry puts into force at once: monitor trims now, microphone trims while recording is off (R399, R400, R509). -/
def applyCal (s : State) (slot : Nat) (data : List Byte) : State :=
  if slot < 16 then
    let s1 := onAon s fun a => { a with trimDue := slot :: a.trimDue.erase slot }
    if s.aon.run then s1 else writeTrims s1
  else if slot < 40 then { s with ras := { s.ras with trims := SMap.put s.ras.trims slot data [] } }
  else s

/-- R510: write an entry (without data: erase it), extend M7 with the arguments, append a record, apply. -/
def calWrite (s : State) (h id slot : Nat) (args data : List Byte) : State :=
  let old := SMap.get? s.boot.cal slot
  let e : CalEntry := { origin := 2, writes := old.elim 0 CalEntry.writes + 1, data := data }
  let s1 := onBoot s fun b => { b with cal := SMap.set b.cal slot e }
  complete (applyCal (logAppend (extend s1 7 args) 0x0E 0 [id, 2]) slot data) h 0

/-- The arguments of CALIBRATION_WRITE are well formed (R510). -/
def calArgsOk (a : List Byte) : Bool :=
  let n := arg a 3 1
  argsOk a [(0, 2), (2, 1), (3, 1), (4, n)] && (calSlot (arg a 0 2)).isSome && calLenOk (arg a 0 2) n && decide (n ≤ 48)
    && decide (arg a 2 1 ≤ 2)

/-- R510: a CALIBRATION_WRITE request by its flags: write, erase or read. -/
def calRequest (s : State) (rq : Request) : State :=
  let id := arg rq.args 0 2
  onRequest s rq 0x24 (some 4) calArgsOk fun s h _ =>
    let slot := (calSlot id).getD 0
    if bitOf (arg rq.args 2 1) 1 then
      complete (returnTiles s h [reportTile 0 (calBytes id (SMap.get? s.boot.cal slot))]) h 0
    else if bitOf (arg rq.args 2 1) 0 then calWrite s h id slot rq.args []
    else calWrite s h id slot rq.args (part rq.args 4 (arg rq.args 3 1))

/-- CALIBRATION_WRITE. -/
def execCalibrationWrite (rq : Request) (s : State) : Host.Outcome State Fault Refusal := .next (calRequest s rq)
/-- CALIBRATION_ERASE: flag [0]. -/
def execCalibrationErase (rq : Request) (s : State) : Host.Outcome State Fault Refusal := .next (calRequest s rq)
/-- CALIBRATION_READ: flag [1]. -/
def execCalibrationRead (rq : Request) (s : State) : Host.Outcome State Fault Refusal := .next (calRequest s rq)

/-! ### Clears (R501, R515) -/

/-- R501, UPDATE class 0x50: fail counts, alternate flags and disabled states of the steps in a mask go, at the next start. -/
def clearSteps (s : State) (mask : Nat) : State :=
  ((span 0 21).filter fun k => bitOf mask k).foldl (fun s k =>
    logAppend (onBoot s fun b => { b with clear := if b.clear.contains (k + 1) then b.clear else b.clear ++ [k + 1] })
      0x02 0xFF [k + 1, 3, 0]) s

/-- UPDATE class 0x51: the retirement map is cleared for the parts in the masks, at the next start. -/
def clearRetired (s : State) (cores ways : Nat) : State :=
  onBoot s fun b => { b with unretireCores := b.unretireCores ||| cores, unretireWays := b.unretireWays ||| ways }

end Sys2Proof.Machine
end

