-- ==== Sys2Proof/Machine/Tenants.lean ====
section
/-! DEFINITION. Sys2Proof/Machine/Tenants.lean: tenants (R454 to R463): creation, keys and their lineage, rotation, the quench. -/

namespace Sys2Proof.Machine

/-! ### What a tenant owns (R454) -/

/-- The numbers below n whose bit is set. -/
def bitsIn (n m : Nat) : List Nat := (span 0 n).filter fun k => bitOf m k

/-- The tenant that the arguments of TENANT_CREATE describe (R341); a handle limit of 0 is the default (log 22). -/
def tenantFrom (a : List Byte) : Tenant :=
  { perms := arg a 1 1, limit := if arg a 2 2 = 0 then 384 else arg a 2 2, cores := arg a 4 4, ways := arg a 8 2,
    chans := arg a 10 2, units := arg a 12 4, sensors := arg a 16 4 }

/-- The CSI-2 ports of a sensor mask. -/
def sensorPorts (m : Nat) : List Nat := (span 0 8).filter fun p => bits m (4 * p + 3) (4 * p) == 15

/-- Give every named resource to partition p. -/
def setOwners (s : State) (t : Tenant) (p : Nat) : State :=
  let give (m : SMap Nat) (l : List Nat) : SMap Nat := l.foldl (fun m k => SMap.put m k p 0) m
  { s with own := { s.own with core := give s.own.core (bitsIn 32 t.cores), ssr := give s.own.ssr (bitsIn 16 t.ways),
                               hbm := give s.own.hbm (bitsIn 32 t.units), lp := give s.own.lp (bitsIn 16 t.chans),
                               cam := give s.own.cam (sensorPorts t.sensors) } }

/-- Every resource of partition p returns to the system partition. -/
def dropOwners (s : State) (p : Nat) : State :=
  let drop (m : SMap Nat) : SMap Nat := m.filter fun e => e.2 != p
  { s with own := { s.own with core := drop s.own.core, ssr := drop s.own.ssr, hbm := drop s.own.hbm, lp := drop s.own.lp,
                               cam := drop s.own.cam } }

/-- HBM units and SSR ways that read 0 after they have been zeroed. -/
def zeroParts (s : State) (units ways : List Nat) : State :=
  let s1 := units.foldl (fun s u =>
    { s with mem := Memory.clear s.mem (u * hbmUnit) ((u + 1) * hbmUnit),
             poison := s.poison.filter fun w => w.1 * 8 / hbmUnit != u }) s
  ways.foldl (fun s w => { s with mem := Memory.clear s.mem (ssrBase + w * 0x200000) (ssrBase + (w + 1) * 0x200000) }) s1

/-! ### Key lineage (R459) -/

/-- Other live members that hold tenant t. -/
def holdersOf (s : State) (t : Nat) : List Nat :=
  (SMap.getD s.fab.holders t []).filter fun a => (lightOf s a).any fun e => e.state == 1 || e.state == 2 || e.state == 3
/-- Other live members. -/
def otherMembers (s : State) : List Nat :=
  ((s.fab.light.filter fun e => e.2.state == 1 || e.2.state == 2 || e.2.state == 3).map fun e => e.2.address).filter
    fun a => a != s.fab.addr
/-- The fabric head's address. -/
def headAddr : Nat := fabAddrOf 0 1
/-- Tell every other member. -/
def tellMembers (s : State) (m : FabMsg) : State := (otherMembers s).foldl (fun s a => placeSend s a m false) s
/-- A KEY_RETIRE or KEY_RETIRE_ACK frame. -/
def retireSend (s : State) (dest : Nat) (m : FabMsg) : State :=
  fabSend s { type := 0x32, dest := dest, src := s.fab.addr, msg := some m }

/-- A fresh key identifier from CTR_DRBG. -/
def freshId (s : State) : BitVec 64 := Config.freeWord s.freeCtr ++ Config.freeWord (s.freeCtr + 1)

/-- The generations of tenant t in SEC's slots: count and key identifier. -/
def gensOf (s : State) (t : Nat) : List (Nat × BitVec 64) :=
  ((span (2 * t - 2) 2).filterMap fun k => SMap.get? s.sec.slots k).map fun x => (x.count, x.keyId)

/-- R459: the fabric head keeps the identifiers of the 256 generations retired latest. -/
def keepRetired (s : State) (ids : List (BitVec 64)) : State :=
  let r := s.secStore.retired
  let s1 := onStore s fun v => { v with retired := ((ids.filter fun i => !r.contains i) ++ r).take 256 }
  if s1.fab.lightValid then floodLight s1 s1.fab.light else s1

/-- Retired identifiers go on the fabric head's list. -/
def reportRetired (s : State) (ids : List (BitVec 64)) : State :=
  if ids = [] ∨ s.fab.addr = 0 then s
  else if fabricHead s then keepRetired s ids
  else placeSend s headAddr (.retiredIds ids) false

/-! ### Creation (R455, R456) -/

/-- Are the arguments of TENANT_CREATE in range (R455, second condition)? -/
def tenantArgsOk (s : State) (a : List Byte) : Bool :=
  let v := tenantFrom a
  let sum := s.k.principals.foldl (fun n p => if p.1 = arg a 0 1 then n else n + p.2.limit) v.limit
  decide (1 ≤ arg a 0 1) && decide (arg a 0 1 ≤ 8) && decide (v.perms < 8) && v.cores % 4 == 0 && v.cores != 0 && v.units != 0
    && (span 0 8).all (fun p => let g := bits v.sensors (4 * p + 3) (4 * p); g == 0 || g == 15)
    && decide (v.limit ≤ 3072) && decide (sum ≤ 4096)

/-- Is anything named by two tenants? -/
def tenantsMeet (a b : Tenant) : Bool :=
  a.cores &&& b.cores != 0 || a.ways &&& b.ways != 0 || a.chans &&& b.chans != 0 || a.units &&& b.units != 0
    || a.sensors &&& b.sensors != 0

/-- R455: the tenant is free, and every named resource is there, the system partition's, not retired and not named by a creation
that waits. -/
def namedFree (s : State) (t : Nat) (v : Tenant) : Bool :=
  let sys (m : SMap Nat) (l : List Nat) : Bool := l.all fun k => SMap.getD m k 0 == 0
  (SMap.get? s.secStore.tenants t).isNone && (SMap.get? s.k.quenches t).isNone
    && !(s.k.creations.any fun c => c.t == t || tenantsMeet c.tenant v)
    && sys s.own.core (bitsIn 32 v.cores) && sys s.own.ssr (bitsIn 16 v.ways) && sys s.own.hbm (bitsIn 32 v.units)
    && sys s.own.lp (bitsIn 16 v.chans) && sys s.own.cam (sensorPorts v.sensors)
    && (bitsIn 16 v.chans).all (fun c => (channelsOf s 0).contains c)
    && (bitsIn 32 v.units).all (fun u => (unitsOf s 0).contains u)
    && (sensorPorts v.sensors).all (fun p => decide (p < 4))
    && (bitsIn 32 v.cores).all (fun c => (SMap.get? s.ras.coresRetired c).isNone)
    && (bitsIn 16 v.ways).all (fun w => (SMap.get? s.ras.waysRetired w).isNone)

/-- Does a frame lie in the named units? -/
def inUnits (v : Tenant) (f : Nat) : Bool := bitOf v.units (f / framesPerUnit)

/-- R455, R456: the system partition's frames and deep blocks leave what is named; none if they do not fit elsewhere. -/
def clearNamed (s : State) (v : Tenant) : Option State :=
  (moveOut s 0 (inUnits v) ((unitsOf s 0).filter fun u => !bitOf v.units u)).bind fun t => moveDeep t 0 (bitsIn 16 v.chans)

/-- Does any frame of the system partition have to move? -/
def mustMove (s : State) (v : Tenant) : Bool := groupsIn s 0 (inUnits v) != []

/-- R456 step 1: have the commands ended that a creation waits for: those on the named cores, and, while frames move, every
command of the system partition (DESIGN CHOICE, log 35)? -/
def creationReady (s : State) (v : Tenant) : Bool :=
  !s.runs.any fun r => bitOf v.cores r.1 || (mustMove s v && coreOfPart s 0 r.1)

/-- R86: the resident rows on the named cores are cleared; queues that had some get them back on other cores. -/
def clearRows (s : State) (cores : List Nat) : State :=
  let qs := ((cores.flatMap fun c => (coreOf s c).rowOwner.map Prod.snd)).eraseDups
  let away (s : State) (v : Queue) : List (Nat × SMap AccRow) := v.ckptRows.foldl (fun l e =>
    let free := (coresUsable s v.part).filter fun c => !(l.any fun y => y.1 == c) && !(v.ckptRows.any fun y => y.1 == c)
    if cores.contains e.1 then l ++ [((free.headD e.1), e.2)] else l ++ [e]) []
  qs.foldl (fun s q => match queueAt s q with
    | some v => modQueue (restoreRows s q) q fun w => { w with ckptRows := away s v }
    | none => s) (cores.foldl clearCore s)

/-- R456 steps 4 to 7: the keys are there: CAK, object table, principal, M6, completion. -/
def finishCreation (s : State) (c : Creation) (gens : List (Nat × BitVec 64)) : State :=
  let t := c.t
  let s1 := gens.foldl (fun s g => makeKey s t g.1 g.2) (onK s fun k => { k with creations := k.creations.erase c })
  let newest := gens.foldl (fun n g => max n g.1) 0
  let s2 := onStore (onMem s1 fun m => { m with keyGen := SMap.set m.keyGen t newest }) fun v =>
    { v with tenants := SMap.set v.tenants t c.tenant }
  let s3 := onK s2 fun k => { k with principals := SMap.set k.principals t { perms := c.tenant.perms, limit := c.tenant.limit } }
  let s4 := match allocRun s3 t 64 with
    | some (x, fs) => onMem x fun m => { m with objt := SMap.set m.objt t { base := fs.headD 0 * 0x10000, limit := 65536 } }
    | none => s3
  let s5 := logAppend (extend s4 6 c.args) 0x0A t [t, 0]
  complete (tellMembers s5 (.holds t true)) c.handle 0 t

/-- R456 step 4, R459: generation 0 from SEC's generator; none can be made after trng_fail (R467). -/
def ownKeys (s : State) (c : Creation) : State :=
  if s.sec.trngFail then complete (dropOwners (onK s fun k => { k with creations := k.creations.erase c }) c.t) c.handle 0x0017
  else finishCreation { s with freeCtr := s.freeCtr + 2 } c [(0, freshId s)]

/-- R456 steps 1 to 3 of a creation whose cores are free, and the keys: its own, or those of another holder (R459). -/
def runCreation (s : State) (c : Creation) : State :=
  match clearNamed s c.tenant with
  | none => complete (onK s fun k => { k with creations := k.creations.erase c }) c.handle 0x0017
  | some s1 =>
    let v := c.tenant
    let s2 := clearRows (zeroParts s1 (bitsIn 32 v.units) (bitsIn 16 v.ways)) (bitsIn 32 v.cores)
    let s3 := setOwners s2 v c.t
    if s3.fab.addr = 0 then ownKeys s3 c
    else if fabricHead s3 then
      match holdersOf s3 c.t with
      | [] => ownKeys s3 c
      | a :: _ =>
        let w := { c with waitKeys := true }
        placeSend (onK s3 fun k => { k with creations := k.creations.map fun x => if x = c then w else x }) a (.keyFetch c.t) true
    else
      let w := { c with waitKeys := true }
      placeSend (onK s3 fun k => { k with creations := k.creations.map fun x => if x = c then w else x }) headAddr
        (.keyAsk c.t) true

/-- Creations that no longer have to wait go on. -/
def tryCreations (s : State) : State :=
  s.k.creations.foldl (fun s c => if !c.waitKeys && creationReady s c.tenant then runCreation s c else s) s

/-- TENANT_CREATE. -/
def execTenantCreate (rq : Request) (s : State) : Host.Outcome State Fault Refusal :=
  let a := rq.args
  .next (onRequest s rq 0x20 (some 3)
    (fun a => argsOk a [(0, 1), (1, 1), (2, 2), (4, 4), (8, 2), (10, 2), (12, 4), (16, 4), (32, 512)]) fun s h _ =>
    let v := tenantFrom a
    if lifeCycle s ≠ 2 ∨ s.k.lifeChange.isSome then complete s h 0x0015
    else if !tenantArgsOk s a || !(s.secStore.deviceKey.any fun k => Config.oaepOk k (part a 32 512)) then complete s h 0x001D
    else if !namedFree s (arg a 0 1) v || (clearNamed s v).isNone || s.sec.trngFail then complete s h 0x0017
    else tryCreations (onK s fun k => { k with
      creations := k.creations ++ [{ handle := h, t := arg a 0 1, tenant := v, args := a.take 32 }] }))

/-- The creation of tenant t that waits for keys. -/
def keyWaiter (s : State) (t : Nat) : Option Creation := s.k.creations.find? fun c => c.t == t && c.waitKeys

/-! ### Quench (R461, R462) -/

/-- Change the quench of tenant t. -/
def modQuench (s : State) (t : Nat) (f : Quench → Quench) : State :=
  onK s fun k => { k with quenches := SMap.modify k.quenches t f }

/-- R461 step 2: what the memory manager does not carry on with for a partition. -/
def stopMoves (s : State) (t : Nat) : State :=
  let mine (i : Item) : Bool := itemPart s i == t
  let back := (s.mm.promoIn.filter fun x => mine x.item).foldl (fun s x => failItem s x.item false) s
  onMem back fun m => { m with promoQ := m.promoQ.filter fun x => !mine x.item, promoIn := m.promoIn.filter fun x => !mine x.item,
                               deepWrites := m.deepWrites.filter fun i => !mine i,
                               otuQ := m.otuQ.filter fun x => x.2 / 65536 != t }

/-- R342, R461 step 1: every open handle of the tenant completes TENANT_REMOVED. -/
def endHandles (s : State) (t : Nat) : State :=
  (s.k.handles.filter fun h => h.2.principal == t && h.2.st == .opened).foldl (fun s h =>
    complete s (handleNo h.1 h.2.gen) 0x0014) s

/-- R462: a rotation of the tenant is abandoned; those that wait for it with it. -/
def dropRotation (s : State) (t : Nat) : State :=
  let s1 := match (SMap.get? s.k.rotations t).bind KeyRot.handle with
    | some h => complete s h 0x0014
    | none => s
  let s2 := (s1.k.rotWait.filter fun w => w.1 == t).foldl (fun s w => complete s w.2 0x0014) s1
  onK s2 fun k => { k with rotations := SMap.erase k.rotations t, rotWait := k.rotWait.filter fun w => w.1 != t }

/-- R461 step 1: the partition takes no new work, its commands stop, and every other holder hears of it. -/
def startQuench (s : State) (t : Nat) (handle origin : Option Nat) : State :=
  let told := if origin.isSome then [] else holdersOf s t
  let s1 := onK s fun k => { k with
    quenches := SMap.set k.quenches t { handle := handle, origin := origin, acks1 := told, acks2 := told }
    principals := SMap.modify k.principals t fun p => { p with limit := 0 } }
  let s2 := stopMoves (dropRotation (endHandles s1 t) t) t
  let s3 := stopRuns s2 fun r => (jobAt s2 r.job).any fun x => x.part == t
  let s4 := onK s3 fun k => { k with
    jobs := k.jobs.filter fun x => x.2.part != t
    openings := k.openings.filter fun o => o.part != t
    queues := k.queues.map fun q => if q.2.part = t then (q.1, { q.2 with jobs := [], pend := [], destroy := none }) else q
    sessions := k.sessions.map fun v => if v.2.part = t then (v.1, { v.2 with jobs := [], closing := none }) else v
    models := k.models.map fun m => if m.2.part = t then (m.1, { m.2 with unload := none }) else m }
  let s5 := logAppend { s4 with boot := { s4.boot with quench := setBits s4.boot.quench t t 1 } } 0x0A t [t, 1]
  let s6 := onSec s5 fun x => { x with slots := x.slots.map fun k =>
    if k.2.part = t ∧ told ≠ [] then (k.1, { k.2 with retiring := true }) else k }
  told.foldl (fun s a => retireSend s a (.retire t none)) s6

/-- TENANT_REMOVE: a tenant that is not there, or is being removed, is not found. -/
def execTenantRemove (rq : Request) (s : State) : Host.Outcome State Fault Refusal :=
  .next (onRequest s rq 0x21 (some 3) (fun a => argsOk a [(0, 1)]) fun s h _ =>
    let t := arg rq.args 0 1
    if (SMap.get? s.secStore.tenants t).isNone ∨ (SMap.get? s.k.quenches t).isSome then complete s h 0x001C
    else startQuench s t (some h) none)

/-- R461 step 2: have the tenant's commands and in-flight transfers drained? -/
def tenantDrained (s : State) (t : Nat) : Bool :=
  (span 0 32).all fun c => !coreOfPart s t c || ((SMap.get? s.runs c).isNone && atRest (coreOf s c))

/-- The camera contexts of partition t. -/
def ctxsOf (s : State) (t : Nat) : List Nat := (span 0 16).filter fun x => (SMap.get? s.cam.ctxs x).any fun c => c.part == t

/-- R461 step 3: SEC zeroes both slots, the engine copies, the store entries and the CAK; the MKA associations end. -/
def zeroTenant (s : State) (t : Nat) : State :=
  let s1 := (span (2 * t - 2) 2).foldl zeroKey s
  let s2 := onStore s1 fun v => { v with tenants := SMap.erase v.tenants t }
  let off (p : HostPort) : HostPort := { p with saks := p.saks.erase t }
  onK { s2 with port0 := off s2.port0, port1 := off s2.port1 } fun k =>
    { k with principals := SMap.erase k.principals t, assocs := k.assocs.filter fun a => a.2.principal != t }

/-- TENANT_DRAIN_COMPLETE: the end of step 2, and step 3. -/
def execTenantDrainComplete (tenant : Fin 9) (s : State) : Host.Outcome State Fault Refusal :=
  let t := tenant.val
  .next (match SMap.get? s.k.quenches t with
  | none => s
  | some q =>
    if q.zeroised || !tenantDrained s t then s
    else
      let ids := (gensOf s t).map Prod.snd
      let s1 := (ctxsOf s t).foldl camDisable s
      let s2 := logAppend (zeroTenant s1 t) 0x0A t [t, 2]
      let s3 := reportRetired (modQuench s2 t fun q => { q with zeroised := true }) ids
      tryHandovers (match q.origin with
        | some a => retireSend s3 a (.retireAck t none 1)
        | none => s3))

/-- R461 step 7: everything that the partition had is gone. -/
def scrubTenant (s : State) (t : Nat) : State :=
  let s1 := (s.k.queues.filter fun q => q.2.part == t).foldl (fun s q => dropQueue s q.1) s
  let s2 := (s1.k.sessions.filter fun v => v.2.part == t).foldl (fun s v => dropSession s v.1) s1
  let s3 := (s2.k.models.filter fun m => m.2.part == t).foldl (fun s m => dropModel s m.1) s2
  let s4 := zeroParts s3 (unitsOf s3 t) ((span 0 16).filter fun w => SMap.getD s3.own.ssr w 0 == t)
  let s5 := onMem s4 fun m => { m with
    objs := m.objs.filter fun o => o.1 / 65536 != t
    pages := m.pages.filter fun g => g.2.part != t
    mirrors := m.mirrors.filter fun g => g.part != t
    fixedF := m.fixedF.filter fun f => f.2 != t
    reserved := m.reserved.filter fun f => f.2 != t
    objt := SMap.erase m.objt t
    keyGen := SMap.erase m.keyGen t
    pool := SMap.erase m.pool t }
  let s6 := onK s5 fun k => { k with launchBase := SMap.erase k.launchBase t }
  let s7 := setRot { s6 with sems := s6.sems.filter fun v => v.2.part != t } t {}
  let s8 := onSched s7 fun x => { x with open_ := x.open_.filter fun o => o.part != t }
  let s9 := onCam s8 fun c => { c with ctxs := (ctxsOf s8 t).foldl SMap.erase c.ctxs }
  dropOwners s9 t

/-! ### Life-cycle changes (R439, R440, R462) -/

/-- The fuses that a change to a state blows; going to RETIRED destroys the device secret. -/
def blowFor (o : Otp) (target : Nat) : Otp :=
  match target with
  | 2 => if blown o.lcField then { o with serviceOut := o.serviceOut + 1 } else { o with lcField := 0xFF }
  | 3 => { o with serviceIn := o.serviceIn + 1 }
  | 4 => { o with lcRetired := 0xFF, deviceSecret := false }
  | _ => o

/-- R439: RETIRED overwrites the device key blob, the sealed key store and the CAKs. -/
def retireStore (v : SecStore) : SecStore := { v with deviceKey := none, keys := [], systemCak := false, tenants := [] }

/-- R439: the change itself: fuses, record, M4, completion, and the restart of the main domain. -/
def changeLife (s : State) (h target : Nat) : State :=
  let s1 := { s with otp := blowFor s.otp target }
  let s2 := if target = 4 then onSec (onStore s1 retireStore) fun x => { x with slots := [], engines := [] } else s1
  let s3 := extend (logAppend s2 0x0B 0 [lifeCycle s, target]) 4 (lifeEvent s2)
  let t := mainReset (complete (onK s3 fun k => { k with lifeChange := none }) h 0)
  releaseMain { t with power := { t.power with cold := true, resetCause := 0 } }

/-- R462: a change that waits goes on once no tenant and no quench is left. -/
def tryLifeChange (s : State) : State :=
  match s.k.lifeChange with
  | some (h, target) => if s.k.quenches = [] ∧ s.secStore.tenants = [] then changeLife s h target else s
  | none => s

/-- R461 step 8: after every acknowledgement of phase 2 the removal completes and M6 is extended. -/
def endQuench (s : State) (t : Nat) : State :=
  match SMap.get? s.k.quenches t with
  | none => s
  | some q =>
    if !q.zeroised || !q.scrubbed || q.acks1 != [] || q.acks2 != [] then s
    else
      let s1 := logAppend (extend s 6 [BitVec.ofNat 8 t]) 0x0A t [t, 4]
      let s2 := onK s1 fun k => { k with quenches := SMap.erase k.quenches t }
      tryLifeChange (match q.handle with
      | some h => complete s2 h 0
      | none => s2)

/-- A member has acknowledged a phase, or is not awaited any more. -/
def ackQuench (s : State) (t member : Nat) (one two : Bool) : State :=
  endQuench (modQuench s t fun q =>
    { q with acks1 := if one then q.acks1.erase member else q.acks1, acks2 := if two then q.acks2.erase member else q.acks2 }) t

/-- The end of the longest scrub, steps 6 and 7; on the removing device step 8 may follow. -/
def scrubDone (s : State) (t : Nat) (q : Quench) : State :=
  let s1 := logAppend (scrubTenant s t) 0x0A t [t, 3]
  let s2 := { s1 with boot := { s1.boot with quench := setBits s1.boot.quench t t 0 } }
  let s3 := tellMembers (modQuench s2 t fun q => { q with scrubbed := true }) (.holds t false)
  endQuench (match q.origin with
    | some a => retireSend s3 a (.retireAck t none 2)
    | none => s3) t

/-! ### Rotation (R460) -/

/-- Change the rotation of tenant t. -/
def modRotation (s : State) (t : Nat) (f : KeyRot → KeyRot) : State :=
  onK s fun k => { k with rotations := SMap.modify k.rotations t f }

/-- R460 step 2: new deep blocks and end-to-end frames are under the new generation from here on. -/
def useGen (s : State) (t gen : Nat) : State :=
  modRotation (onMem s fun m => { m with keyGen := SMap.set m.keyGen t gen }) t fun r => { r with active := true }

/-- Step 2 begins once every member has acknowledged. -/
def tryUse (s : State) (t : Nat) : State :=
  match SMap.get? s.k.rotations t with
  | some r =>
    if r.sealed = [] ∧ !r.active ∧ r.origin = s.fab.addr then
      (holdersOf s t).foldl (fun s a => placeSend s a (.keyUse t r.gen) false) (useGen s t r.gen)
    else s
  | none => s

/-- R460 step 1: SEC makes the next generation and sends it to every member of the lineage. -/
def startKeyRotation (s : State) (h t : Nat) : State :=
  let gen := SMap.getD s.mm.keyGen t 0 + 1
  let others := holdersOf s t
  let id := freshId s
  let s1 := makeKey { s with freeCtr := s.freeCtr + 2 } t gen id
  let r : KeyRot := { handle := some h, origin := s.fab.addr, gen := gen, sealed := others, rewrites := s.fab.addr :: others }
  let s2 := onK s1 fun k => { k with rotations := SMap.set k.rotations t r }
  tryUse (others.foldl (fun s a => placeSend s a (.keyNew t gen id) true) s2) t

/-- UPDATE of class 0x30: a rotation begins, or waits for the one under way. -/
def askRotation (s : State) (h t : Nat) : State :=
  if (SMap.get? s.secStore.tenants t).isNone ∨ (SMap.get? s.k.quenches t).isSome then complete s h 0x001C
  else if (SMap.get? s.k.rotations t).isSome then onK s fun k => { k with rotWait := k.rotWait ++ [(t, h)] }
  else if s.sec.trngFail then complete s h 0x0017
  else startKeyRotation s h t

/-- The generation before the one that a rotation brings leaves this device. -/
def retireGen (s : State) (t gen : Nat) : State := zeroKey s (keySlotOf t gen)

/-- R460 step 4: the rotation is over: its request completes, and the next one of the tenant begins. -/
def endRotation (s : State) (t : Nat) : State :=
  match SMap.get? s.k.rotations t with
  | none => s
  | some r =>
    if !r.clean || r.retiring != [] then s
    else
      let s1 := onK s fun k => { k with rotations := SMap.erase k.rotations t }
      let s2 := match r.handle with
        | some h => complete s1 h 0
        | none => s1
      match s2.k.rotWait.find? fun w => w.1 == t with
      | some w => askRotation (onK s2 fun k => { k with rotWait := k.rotWait.erase w }) w.2 t
      | none => s2

/-- R460 steps 3 and 4 on the device that the request came to: a member has no block of the old generation left; with the last
one KEY_RETIRE goes out. -/
def rewritten (s : State) (t member : Nat) : State :=
  let s1 := modRotation s t fun r => { r with rewrites := r.rewrites.erase member }
  match SMap.get? s1.k.rotations t with
  | some r =>
    if r.rewrites = [] ∧ r.active ∧ !r.clean then
      let ids := ((gensOf s1 t).filter fun g => g.1 != r.gen).map Prod.snd
      let others := holdersOf s1 t
      let s2 := modRotation (retireGen s1 t (r.gen - 1)) t fun r => { r with clean := true, retiring := others }
      let s3 := others.foldl (fun s a => retireSend s a (.retire t (some (r.gen - 1)))) s2
      endRotation (reportRetired s3 ids) t
    else s1
  | none => s1

/-- The blocks of a deep copy under a new generation. -/
def regen (gen : Nat) (d : DeepCopy) : DeepCopy := { d with blocks := d.blocks.map fun b => { b with gen := gen } }

/-- R460 step 3: every deep block of a partition is rewritten under a generation. -/
def rewriteBlocks (s : State) (t gen : Nat) : State :=
  onMem s fun m => { m with
    objs := m.objs.map fun o => if o.1 / 65536 = t then (o.1, { o.2 with deep := o.2.deep.map (regen gen) }) else o
    pages := m.pages.map fun g => if g.2.part = t then (g.1, { g.2 with deep := g.2.deep.map (regen gen) }) else g
    mirrors := m.mirrors.map fun g => if g.part = t then { g with deep := regen gen g.deep } else g }

/-- KEY_REWRITE_COMPLETE: the background rewrite of a tenant's deep blocks ends on this device. -/
def execKeyRewriteComplete (tenant : Fin 9) (s : State) : Host.Outcome State Fault Refusal :=
  let t := tenant.val
  .next (match SMap.get? s.k.rotations t with
  | none => s
  | some r =>
    if !r.active || r.clean || !(r.rewrites.contains s.fab.addr) then s
    else
      let s1 := rewriteBlocks s t r.gen
      if r.origin = s.fab.addr then rewritten s1 t s.fab.addr
      else placeSend (modRotation s1 t fun r => { r with rewrites := [] }) r.origin (.keyClean t r.gen) false)

/-! ### What other members say of keys -/

/-- KEY_RETIRE: of one generation, which is zeroed and acknowledged; of both, which quenches the tenant here. -/
def takeRetire (s : State) (src t : Nat) (gen : Option Nat) : State :=
  match gen with
  | some g =>
    let s1 := onK (retireGen s t g) fun k => { k with rotations := SMap.erase k.rotations t }
    retireSend s1 src (.retireAck t (some g) 2)
  | none =>
    if (SMap.get? s.secStore.tenants t).isSome ∧ (SMap.get? s.k.quenches t).isNone then startQuench s t none (some src)
    else match SMap.get? s.k.quenches t with
      | some q =>
        let s1 := if q.zeroised then retireSend s src (.retireAck t none 1) else s
        if q.scrubbed then retireSend s1 src (.retireAck t none 2) else s1
      | none => retireSend (retireSend s src (.retireAck t none 1)) src (.retireAck t none 2)

/-- KEY_RETIRE_ACK. -/
def takeRetireAck (s : State) (src t : Nat) (gen : Option Nat) (phase : Nat) : State :=
  match gen with
  | some _ => endRotation (modRotation s t fun r => { r with retiring := r.retiring.erase src }) t
  | none => ackQuench s t src (phase == 1) (phase == 2)

/-- The key messages of a PLACE frame. -/
def keyMsg (s : State) (src : Nat) (m : FabMsg) : State :=
  match m with
  | .keyAsk t =>
    let mine := (gensOf s t) != [] && (SMap.get? s.k.quenches t).isNone
    let who := if mine then s.fab.addr else ((holdersOf s t).filter fun a => a != src).headD 0
    placeSend s src (.keyWho t who) false
  | .keyWho t holder => match keyWaiter s t with
    | none => s
    | some c => if holder = 0 then ownKeys s c else placeSend s holder (.keyFetch t) true
  | .keyFetch t => placeSend s src (.keyGive t (gensOf s t)) false
  | .keyGive t gens => match keyWaiter s t with
    | none => s
    | some c => if gens = [] then ownKeys s c else finishCreation s c gens
  | .holds t yes =>
    let rest := (SMap.getD s.fab.holders t []).erase src
    let l := if yes then src :: rest else rest
    onFab s fun b => { b with holders := SMap.put b.holders t l [] }
  | .keyNew t gen id =>
    if (SMap.get? s.secStore.tenants t).isNone then s
    else
      let r : KeyRot := { origin := src, gen := gen, rewrites := [s.fab.addr] }
      placeSend (onK (makeKey s t gen id) fun k => { k with rotations := SMap.set k.rotations t r }) src (.keySealed t gen) false
  | .keySealed t _ => tryUse (modRotation s t fun r => { r with sealed := r.sealed.erase src }) t
  | .keyUse t gen => useGen s t gen
  | .keyClean t _ => rewritten s t src
  | .retiredIds ids => keepRetired s ids
  | .retire t gen => takeRetire s src t gen
  | .retireAck t gen phase => takeRetireAck s src t gen phase
  | _ => s

/-! ### Attestation (R453) -/

/-- R453: the bytes of a quote before its signature. -/
def quoteHead (s : State) (host : List Byte) (token : BitVec 256) (mask : Nat) : List Byte :=
  leBytes 2 0x5154 ++ leBytes 1 1 ++ leBytes 1 (lifeCycle s) ++ leBytes 4 (sysId s).toNat ++ leBytes 8 s.board.serial.toNat
    ++ host ++ leBytes 32 token.toNat ++ leBytes 8 s.tick ++ leBytes 4 mask ++ leBytes 4 0
    ++ (bitsIn 8 mask).flatMap fun i => digestBytes (meas s i)

/-- A fresh token nonce. -/
def freshNonce (s : State) : BitVec 256 :=
  BitVec.ofNat 256 ((span 0 8).foldl (fun n k => n * 2 ^ 32 + (Config.freeWord (s.freeCtr + k)).toNat) 0)

/-- ATTEST: a quote over the selected registers with a fresh token nonce, and the device certificate; a device without key or
certificate has neither (NOT_FOUND: DESIGN CHOICE, log 36). -/
def execAttest (rq : Request) (s : State) : Host.Outcome State Fault Refusal :=
  let a := rq.args
  .next (onRequest s rq 0x26 none (fun a => argsOk a [(0, 32), (32, 4)] && decide (arg a 32 4 < 256)) fun s h _ =>
    match s.secStore.deviceKey, s.secStore.cert with
    | some key, some cert =>
      let token := freshNonce s
      let q := quoteHead s (part a 0 32) token (arg a 32 4)
      let quote := q ++ leBytes 512 (Config.sign key q).toNat
      let s1 := onSec { s with freeCtr := s.freeCtr + 8 } fun x => { x with nonce := some (token, s.tick) }
      complete (returnTiles s1 h [reportTile 0 quote, reportTile 1 cert]) h 0 2
    | _, _ => complete s h 0x001C)

end Sys2Proof.Machine
end

