-- ==== Sys2Proof/Machine/Place.lean ====
section
/-! DEFINITION. Sys2Proof/Machine/Place.lean: models placed across members (R376 to R381): loading by layer range, relay jobs,
mirroring, planned leave, loss and recovery. -/

namespace Sys2Proof.Machine

/-! ### Naming -/

/-- The key of a stage. -/
def stageKey (place i : Nat) : Nat := 64 * place + i
/-- A stage that this device holds. -/
def stageAt (s : State) (place i : Nat) : Option HeldStage := SMap.get? s.fab.stages (stageKey place i)
/-- Change a stage that this device holds. -/
def modStage (s : State) (place i : Nat) (f : HeldStage → HeldStage) : State :=
  onFab s fun b => { b with stages := SMap.modify b.stages (stageKey place i) f }
/-- Change a placement of this front device. -/
def modFront (s : State) (place : Nat) (f : Front → Front) : State :=
  onFab s fun b => { b with fronts := SMap.modify b.fronts place f }
/-- The front device of a placement. -/
def frontAddr (place : Nat) : Nat := place / 65536
/-- Stage i of a plan. -/
def stageOf (p : PlacePlan) (i : Nat) : Stage := p.stages.getD i { addr := 0, first := 0, last := 0 }
/-- Is an address a member of the light list in force? -/
def memberAt (s : State) (a : Nat) : Bool := (lightOf s a).any fun e => e.state == 1

/-! ### Loading a layer range (R376, R377) -/

/-- The image that a plan names, as this device's store holds it. -/
def planImage (s : State) (p : PlacePlan) : Option (List Byte) :=
  if !storeHere s then none
  else (imageEntry s (arg p.load 0 4)).map fun e => (SMap.get? s.pcie.store.bytes e.1).getD []

/-- The objects of an image that belong to layers first to last. -/
def layerObjs (image : List Byte) (info : ImageInfo) (first last : Nat) : List (List Byte) :=
  ((span 0 info.objects.length).filter fun n =>
    decide (first ≤ Config.layerOf image n) && decide (Config.layerOf image n ≤ last)).map fun n => info.objects.getD n []

/-- R376, R377: load stage i of a plan from an image, with its queue and the receive buffer of its route (R314): a status, or the
state with the stage in it. -/
def loadStage (s : State) (place i : Nat) (p : PlacePlan) (image : List Byte) : Except Nat State :=
  let (head, area, _) := storedParts image
  let st := stageOf p i
  match headerFail s 4 head, readImage head area with
  | some _, _ => .error 0x0016
  | none, none => .error 0x0016
  | none, some info =>
    let mine := { info with objects := layerObjs image info st.first st.last, layers := st.last + 1 - st.first }
    let num := freeModel s p.part
    let m := modelOf p.part p.load head mine
    if !stripedOk m then .error 0x001D
    else if !loadFits s m mine then .error 0x0017
    else
      let objs := freeObjs s p.part 0 mine.objects.length 65536
      let s1 := (objs.zip mine.objects).foldl (fun s e => createObj s p.part e.1 e.2.length num (loadFixed s m)) s
      match placeModel s1 m mine with
      | none => .error 0x0017
      | some (s2, m1) =>
        let key := modelKey p.part num
        let m2 := { m1 with objects := objs, loadedAt := s.tick }
        let s3 := landObjs (onK s2 fun k => { k with models := SMap.set k.models key m2 }) p.part objs mine.objects
        let q : Queue := { part := p.part, model := key, depth := 16, nRoutes := 1 }
        match createQueue (extend s3 5 (head.take headerLen)) q [] with
        | none => .error 0x0017
        | some (s4, qn) => match allocFixed s4 p.part (ceilDiv (p.credits * 4096) 0x10000) with
          | none => .error 0x0017
          | some (s5, fs) =>
            let h : HeldStage := { plan := p, model := key, queue := qn }
            .ok (onFab (modQueue s5 qn fun v => { v with frames := v.frames ++ fs }) fun b =>
              { b with stages := SMap.set b.stages (stageKey place i) h })

/-- R376, R459: can a partition be placed here: is it present, under the key identifiers of the front device? -/
def partOk (s : State) (p : PlacePlan) : Bool :=
  p.part == 0 || ((SMap.get? s.secStore.tenants p.part).isSome && (SMap.get? s.k.quenches p.part).isNone
    && (gensOf s p.part).map Prod.snd == p.keyIds)

/-- A stage is given up here: its model, its queue and its sessions go. -/
def dropStage (s : State) (key : Nat) : State :=
  match SMap.get? s.fab.stages key with
  | none => s
  | some h =>
    let s1 := onFab s fun b => { b with stages := SMap.erase b.stages key,
                                        infos := b.infos.filter fun x => stageKey x.place x.stage != key }
    let s2 := (s1.k.jobs.filter fun x => x.2.queue == h.queue && !jobRunning s1 x.1).foldl (fun s x =>
      onK s fun k => { k with jobs := SMap.erase k.jobs x.1 }) s1
    dropModel (dropQueue s2 h.queue) h.model

/-- R377: the route of a stage's queue: to the next stage, from the last one to the front queue; a plan of one stage has none. -/
def setRoute (s : State) (place i : Nat) (p : PlacePlan) : State :=
  match stageAt s place i with
  | none => s
  | some h =>
    let s1 := modStage s place i fun x => { x with plan := p, up := true }
    if p.stages.length ≤ 1 then s1
    else
      let next := stageOf p (if i + 1 < p.stages.length then i + 1 else 0)
      let old := SMap.get? s1.routes (16 * h.queue)
      let r : Route := { dest := next.addr, destQueue := next.queue, credits := p.credits, total := p.credits }
      if old.any fun o => o.dest == next.addr && o.destQueue == next.queue then s1
      else { s1 with routes := SMap.set s1.routes (16 * h.queue) r }

/-- The stages of a plan that this device holds take a plan into force. -/
def commitPlan (s : State) (place : Nat) (p : PlacePlan) : State :=
  (span 0 p.stages.length).foldl (fun s i => setRoute s place i p) s

/-! ### FABRIC_PLACE (R376) -/

/-- The stages of the arguments. -/
def stagesOf (a : List Byte) : List Stage :=
  (span 0 (arg a 25 1)).map fun i =>
    { addr := arg a (32 + 16 * i) 2, first := arg a (34 + 16 * i) 2, last := arg a (36 + 16 * i) 2, mirror := arg a (38 + 16 * i) 2 }

/-- Do stages cover n layers once, in ascending order? -/
def coversFrom (n from_ : Nat) : List Stage → Bool
  | [] => from_ == n
  | x :: r => x.first == from_ && decide (x.first ≤ x.last) && coversFrom n (x.last + 1) r

/-- Are the fields of FABRIC_PLACE present, and the others 0? -/
def placeArgsOk (a : List Byte) : Bool :=
  let n := arg a 25 1
  decide (1 ≤ n) && decide (n ≤ 64) && decide (arg a 24 1 ≤ 8) && decide (arg a 26 1 ≤ 1) && decide (arg a 28 2 ≤ 256)
    && arg a 0 4 != 0xFFFFFFFF && loadArgsOk (a.take 24 ++ leBytes 4 0)
    && argsOk a ([(0, 24), (24, 1), (25, 1), (26, 1), (28, 2), (30, 2)] ++ (span 0 n).map fun i => (32 + 16 * i, 8))

/-- Is every address a member, stage 0 this device itself? -/
def addressesAre (s : State) (p : PlacePlan) : Bool :=
  (stageOf p 0).addr == s.fab.addr && s.fab.addr != 0 && p.stages.all (fun x => memberAt s x.addr)
    && p.stages.all (fun x => x.mirror == 0 || memberAt s x.mirror) && (p.spare == 0 || memberAt s p.spare)

/-- Does a plan suit the image: its layers covered, and enough credits? -/
def planFits (p : PlacePlan) (image : List Byte) : Bool :=
  let (head, area, _) := storedParts image
  (readImage head area).all (fun i => coversFrom i.layers 0 p.stages) && decide (Config.creditNeed image ≤ p.credits)

/-- The front device asks every stage to load, and every mirror partner whether it has the partition. -/
def askStages (s : State) (place : Nat) (p : PlacePlan) : State :=
  let s1 := (span 1 (p.stages.length - 1)).foldl (fun s i => placeSend s (stageOf p i).addr (.load place i p) true) s
  ((span 0 p.stages.length).filter fun i => (stageOf p i).mirror != 0).foldl (fun s i =>
    placeSend s (stageOf p i).mirror (.load place (64 + i) p) true) s1

/-- R376: every stage and partner has answered: the placement is committed, or nothing is placed. -/
def endPlace (s : State) (place : Nat) : State :=
  match SMap.get? s.fab.fronts place with
  | none => s
  | some f =>
    if f.up || f.waiting != [] then s
    else if f.status ≠ 0 then
      let s1 := tellOthers s f (.drop place) false
      let s2 := dropStage (onFab s1 fun b => { b with fronts := SMap.erase b.fronts place }) (stageKey place 0)
      f.handle.elim s2 fun h => complete s2 h f.status
    else
      let s1 := modFront s place fun f => { f with up := true, handle := none }
      let s2 := tellOthers (commitPlan s1 place f.plan) f (.commit place f.plan) false
      match f.handle, stageAt s2 place 0 with
      | some h, some x => complete s2 h 0 (x.model % 65536) x.queue
      | _, _ => s2

/-- The plan of FABRIC_PLACE's arguments for an image. -/
def planFrom (s : State) (a image : List Byte) : PlacePlan :=
  { load := a.take 24, part := arg a 24 1, mirrored := bitOf (arg a 26 1) 0,
    credits := if arg a 28 2 = 0 then Config.creditNeed image else arg a 28 2, spare := arg a 30 2, stages := stagesOf a,
    keyIds := if arg a 24 1 = 0 then [] else (gensOf s (arg a 24 1)).map Prod.snd }

/-! ### MOVE frames (R370, R378) -/

/-- The tiles that a MOVE cuts bytes into. -/
def moveTiles (b : List Byte) : List Tile := reportTiles 4096 b

/-- Send bytes as MOVE frames of system queue 0. -/
def sendMove (s : State) (dest place stage part : Nat) (what : MoveWhat) (mirror : Bool) (b : List Byte) : State :=
  let ts := moveTiles b
  (span 0 ts.length).foldl (fun s i =>
    let t := ts.getD i ⟨[], []⟩
    let f : FabFrame := { type := 0x31, dest := dest, src := s.fab.addr, part := part,
                          gen := SMap.getD s.mm.keyGen part 0 % 2, e2e := part != 0, frameIx := i, frames := ts.length,
                          command := s.fab.moveNext, payload := t.tag ++ t.payload,
                          move := some { place := place, stage := stage, what := what, mirror := mirror, index := i,
                                         count := ts.length, tile := t } }
    fabSend (onFab s fun b => { b with moveNext := b.moveNext + 1 }) f) s

/-- The 33,280 bytes of a sealed page, from HBM or from its deep copy. -/
def pageBytes (s : State) (key : Nat) (g : Page) : List Byte :=
  if g.st = .deep ∨ g.st = .promoting then g.deep.elim [] fun d => deepBytes d 0x8200
  else readMem s (pageAddr key g) 0x8200

/-- R378: system queue 0 copies a page to the stage's mirror partner. -/
def mirrorPage (s : State) (key : Nat) : State :=
  match SMap.get? s.mm.pages key with
  | none => s
  | some g =>
    let st := match stageOfSession s g.session with
      | some (k, h, fs) => some (k, h, fs)
      | none => match (sessionAt s g.session).bind fun v => frontOfModel s v.model with
        | some (pl, _) => (stageAt s pl 0).map fun h => (stageKey pl 0, h, g.session)
        | none => none
    match st with
    | none => s
    | some (k, h, fs) =>
      let to_ := (stageOf h.plan (k % 64)).mirror
      if !h.plan.mirrored || to_ == 0 || g.mirrored then s
      else sendMove s to_ (k / 64) (k % 64) g.part (.page fs g.k g.ix g.format g.firstPos) true (pageBytes s key g)

/-- Every sealed page of a session that is not mirrored goes to the partner. -/
def mirrorPages (s : State) (n : Nat) : State := (pagesOf s n).foldl (fun s g => mirrorPage s g.1) s

/-! ### Sessions of a stage (R377) -/

/-- OPEN_SESSION on a stage that is not the front device's. -/
def openOnStage (s : State) (place i fs format : Nat) : Option State :=
  match stageAt s place i with
  | none => none
  | some h => (modelAt s h.model).bind fun m =>
      match newPlace s h.model h.queue m, SMap.firstFree s.k.sessions 0 sessionCount with
      | some pl, some n =>
        let v : Session := { part := h.plan.part, model := h.model, queue := if isStream m then h.queue else 0xFFFF,
                             sealFmt := format, place := pl, lastRef := s.tick }
        (makeSession s v m n).map fun t => modStage t place i fun x => { x with sessions := SMap.set x.sessions fs n }
      | _, _ => none

/-- A session of the front device is closed on the stages here. -/
def closeOnStages (s : State) (place fs : Nat) : State :=
  (s.fab.stages.filter fun h => h.1 / 64 == place && h.1 % 64 != 0).foldl (fun s h =>
    match SMap.get? h.2.sessions fs with
    | some n => modStage (dropSession s n) place (h.1 % 64) fun x => { x with sessions := SMap.erase x.sessions fs }
    | none => s) s

/-- A stage has confirmed a session, or could not open it. -/
def sessionConfirmed (s : State) (place i fs : Nat) (ok : Bool) : State :=
  match SMap.get? s.fab.fronts place with
  | none => s
  | some f => match f.opens.find? fun w => w.session == fs with
    | none => s
    | some w =>
      let rest := w.waiting.erase i
      let others := f.opens.filter fun x => x.session != fs
      if !ok then
        complete (dropSession (modFront s place fun f => { f with opens := others }) fs) w.handle 0x0017
      else if rest = [] then complete (modFront s place fun f => { f with opens := others }) w.handle 0 fs
      else modFront s place fun f => { f with opens := { w with waiting := rest } :: others }

/-! ### Relay jobs (R377) -/

/-- The relay job of a stage for a job of the front device. -/
def relayJob (s : State) (h : HeldStage) (x : RelayInfo) : State :=
  let graph := ((modelAt s h.model).bind fun m => SMap.get? m.graphs x.kind).getD []
  let n := SMap.get? h.sessions x.session
  let s1 := match n with
    | some k => modSession s k fun v => { v with len := x.len }
    | none => s
  let s2 := match n.bind fun k => (sessionAt s1 k).map fun v => (k, v) with
    | some (k, v) => if v.cold then (reserveKv s1 k).getD s1 else s1
    | none => s1
  let y : Job := { handle := 0, part := h.plan.part, queue := h.queue, model := h.model, kind := x.kind, session := n, retain := true,
                   limit := x.add, cmds := graph.map (fun c => { g := c }), relay := some { place := x.place, stage := x.stage, job := x.job }, noKv := x.noKv }
  putJob s2 y

/-- The arrival of the first frame of a new job at a relay queue starts a relay job there, once the stage has heard of the job;
each queue takes both in order. -/
def tryRelays (s : State) : State :=
  s.fab.stages.foldl (fun s e =>
    match s.fab.starts.find? (fun b => b.2.2 == e.2.queue), s.fab.infos.find? (fun x => stageKey x.place x.stage == e.1) with
    | some b, some x =>
      relayJob (onFab s fun v => { v with starts := v.starts.erase b, infos := v.infos.erase x, begun := v.begun ++ [b] }) e.2 x
    | _, _ => s) s

/-- A DATA frame has come for a queue: does it start a relay job? -/
def noteFrame (s : State) (src job queue : Nat) : State :=
  let relay := s.fab.stages.any fun h => h.1 % 64 != 0 && h.2.queue == queue
  let b := (src, job, queue)
  if !relay || s.fab.starts.contains b || s.fab.begun.contains b then s
  else tryRelays (onFab s fun v => { v with starts := v.starts ++ [b] })

/-- A stage reports the end of its relay job to the front device: step t reaches its token boundary once all have. -/
def relayDone (s : State) (i job : Nat) (ok : Bool) (detail : Nat) : State :=
  let s1 := modJob s job fun x => { x with relays := x.relays.erase i, fault := if ok then x.fault else x.fault.or (some (detail, 0, 0)) }
  if ok then settleJob s1 job else settleJob (stopRuns s1 fun r => r.job == job) job

/-- The front device has stopped a job: its relay jobs here end with it (R201, R380). -/
def stopRelays (s : State) (place job : Nat) : State :=
  let mine := s.k.jobs.filter fun x => x.2.relay.any fun r => r.place == place && r.job == job
  let qs := (s.fab.stages.filter fun h => h.1 / 64 == place).map fun h => h.2.queue
  qs.foldl (fun s q => purgeMsgs s q job) <| mine.foldl (fun s x =>
    settleJob (stopRuns (modJob s x.1 fun x => { x with cancelled := true, relay := none }) fun r => r.job == x.1) x.1)
    (onFab s fun b => { b with infos := b.infos.filter fun x => !(x.place == place && x.job == job) })

/-! ### A stage goes to another member (R379, R380) -/

/-- Does any started job of a placement's front queue still run? -/
def placeRuns (s : State) (place : Nat) : Bool :=
  (stageAt s place 0).any fun h => s.k.jobs.any fun x => x.2.queue == h.queue && x.2.started

/-- The sessions of a placement: number, seal format, length. -/
def placeSessions (s : State) (place : Nat) : List (Nat × Nat × Nat) :=
  match stageAt s place 0 with
  | some h => (s.k.sessions.filter fun v => v.2.model == h.model).map fun v => (v.1, v.2.sealFmt, v.2.len)
  | none => []

/-- The first move of a placement goes on once its sessions are at a token boundary; a stage that nobody takes is an orphan, or its
planned leave fails. -/
def tryMove (s : State) (place : Nat) : State :=
  match SMap.get? s.fab.fronts place with
  | none => s
  | some f => match f.moves with
    | [] => s
    | m :: r =>
      if m.asked || placeRuns s place then s
      else match m.tries with
        | a :: _ =>
          placeSend (modFront s place fun f => { f with moves := { m with asked := true } :: r }) a
            (.adopt place m.stage f.plan (placeSessions s place)) true
        | [] =>
          if m.lost then modFront s place fun f => { f with moves := r, orphans := m.stage :: f.orphans.erase m.stage }
          else placeSend (modFront s place fun f => { f with moves := r }) headAddr (.left (stageOf f.plan m.stage).addr 0 0 true true) false

/-- Try every placement. -/
def tryMoves (s : State) : State := s.fab.fronts.foldl (fun s f => tryMove s f.1) s

/-- The position up to which every head of a session here has its pages (R380 step 5). -/
def heldUpTo (s : State) (n : Nat) : Nat := match sessionAt s n with
  | none => 0
  | some v => match modelAt s v.model with
    | none => 0
    | some m => ((span 0 (headCount m)).map fun k =>
        (pagesOf s n).foldl (fun b g => if g.2.k = k then max b (g.2.firstPos + pagePositions g.2.format) else b) 0).foldl min v.len

/-- A page enters the layout of a session: in a frame of its own, or in its place of a HEAD_STRIPED region. -/
def enterPage (s : State) (n k ix format firstPos : Nat) (b : List Byte) : State :=
  match sessionAt s n with
  | none => s
  | some v => match modelAt s v.model with
    | none => s
    | some m =>
      let key := pageKey s m v k ix
      let frame := if m.layout = 0 then some (key / 0x10000) else freeFrameIn s (unitsOf s v.part)
      match frame with
      | none => s
      | some f =>
        let p : Page := { part := v.part, session := n, k := k, ix := ix, st := .resident, frame := f, format := format,
                          firstPos := firstPos, striped := m.layout == 0, lastRef := s.tick }
        let s1 := writeMem s (if m.layout = 0 then key else f * 0x10000) b
        syncPage { s1 with mm := { s1.mm with pages := SMap.set s1.mm.pages key p } } key

/-- The bytes of a mirror copy. -/
def mirrorBytes (s : State) (g : MirrorPage) : List Byte :=
  match g.frames with
  | f :: _ => readMem s (f * 0x10000) 0x8200
  | [] => deepBytes g.deep 0x8200

/-- The mirror copies of a stage that this device holds enter the layout (R380 step 5). -/
def enterMirrors (s : State) (place i : Nat) : State :=
  match stageAt s place i with
  | none => s
  | some h =>
    let mine := s.mm.mirrors.filter fun g => g.place == place && g.stage == i
    let s1 := mine.foldl (fun s g => match SMap.get? h.sessions g.session with
      | some n => enterPage s n g.k g.ix g.format g.firstPos (mirrorBytes s g)
      | none => s) s
    let s2 := freeFixed s1 (mine.flatMap MirrorPage.frames)
    onMem s2 fun m => { m with mirrors := m.mirrors.filter fun g => !(g.place == place && g.stage == i) }

/-- What a new holder has of each session. -/
def haveList (s : State) (place i : Nat) : List (Nat × Nat) :=
  (stageAt s place i).elim [] fun h => h.sessions.map fun e => (e.1, heldUpTo s e.2)

/-- Open the sessions of a stage taken over; none where one does not fit. -/
def openAll (s : State) (place i : Nat) : List (Nat × Nat × Nat) → Option State
  | [] => some s
  | (fs, fmt, len) :: r => (openOnStage s place i fs fmt).bind fun t =>
      let u := match (stageAt t place i).bind fun h => SMap.get? h.sessions fs with
        | some n => modSession t n fun v => { v with len := len }
        | none => t
      openAll u place i r

/-- A member takes over a stage: it loads the layers and opens the sessions. -/
def takeOver (s : State) (place i : Nat) (p : PlacePlan) (sessions : List (Nat × Nat × Nat)) (image : List Byte) : State :=
  let no := placeSend s (frontAddr place) (.adopted place i false 0 []) false
  match loadStage s place i p image with
  | .error _ => no
  | .ok t => match openAll t place i sessions with
    | none => no
    | some u =>
      let w := enterMirrors u place i
      placeSend w (frontAddr place) (.adopted place i true ((stageAt w place i).elim 0 HeldStage.queue) (haveList w place i)) false

/-- A front device that has no more stage to move off a leaving member says so. -/
def reportLeft (s : State) (addr : Nat) : State :=
  let busy := s.fab.fronts.any fun e => e.2.moves.any fun m => !m.lost && (stageOf e.2.plan m.stage).addr == addr
  if busy then s else placeSend s headAddr (.left addr 0 0 true false) false

/-- R380 step 4: a FABRIC_PLACE that gave the placement new holders completes once it has them. -/
def endReplace (s : State) (place : Nat) : State :=
  match SMap.get? s.fab.fronts place, stageAt s place 0 with
  | some f, some x => match f.handle with
    | some h =>
      if f.up && f.moves.isEmpty then
        complete (modFront s place fun f => { f with handle := none }) h (if f.orphans.isEmpty then 0 else 0x0017)
          (x.model % 65536) x.queue
      else s
    | none => s
  | _, _ => s

/-- The move of a stage is over: plan, routes, and, after a loss, what is ingested again (R380 steps 4 and 5). -/
def endMove (s : State) (place pages : Nat) (have_ : List (Nat × Nat)) : State :=
  match SMap.get? s.fab.fronts place with
  | none => s
  | some f => match f.moves with
    | [] => s
    | m :: r =>
      let old := (stageOf f.plan m.stage).addr
      let new := m.tries.headD 0
      let plan := { f.plan with stages := modAt f.plan.stages m.stage fun x =>
        { x with addr := new, queue := m.queue, mirror := if x.mirror = new then 0 else x.mirror } }
      let g := { f with plan := plan, moves := r, orphans := f.orphans.erase m.stage }
      let s1 := commitPlan (modFront s place fun _ => g) place plan
      let s2 := tellOthers s1 g (.commit place plan) false
      let s3 := if !m.lost then s2 else have_.foldl (fun s e => modSession s e.1 fun v =>
        if v.len ≤ e.2 then v
        else { v with reingest := some (min e.2 (v.reingest.getD v.len)),
                      kept := (span 0 plan.stages.length).filter fun i => i != m.stage }) s2
      let more := r.any fun x => !x.lost && (stageOf plan x.stage).addr == old
      let s4 := if m.lost then s3
        else reportLeft (placeSend (placeSend s3 old (.dropStage place m.stage) false) headAddr
          (.left old (b2n !more) pages false false) false) old
      endReplace (tryMove s4 place) place

/-- The new holder has answered. -/
def adoptAnswer (s : State) (place i : Nat) (ok : Bool) (queue : Nat) (have_ : List (Nat × Nat)) : State :=
  match SMap.get? s.fab.fronts place with
  | none => s
  | some f => match f.moves with
    | [] => s
    | m :: r =>
      if m.stage ≠ i ∨ !m.asked then s
      else if !ok then
        endReplace (tryMove (modFront s place fun f =>
          { f with moves := { m with asked := false, tries := m.tries.drop 1 } :: r }) place) place
      else
        let st := stageOf f.plan i
        let s1 := modFront s place fun f => { f with moves := { m with queue := queue } :: r }
        let new := m.tries.headD 0
        if !m.lost then placeSend s1 st.addr (.give place i new) true
        else if st.mirror ≠ 0 ∧ st.mirror ≠ new ∧ memberAt s1 st.mirror then placeSend s1 st.mirror (.give place i new) true
        else endMove s1 place 0 have_

/-- A staging slot as it moves: its A16 head part (R180, R379 step 4). -/
def slotBytes (s : State) (m : Model) (v : Session) (k : Nat) : List Byte := readMem s (slotAddr m v k) (headPart m)

/-- R379 steps 3 and 4: a leaving stage sends its pages, but for those that the new holder mirrors, and its staging slots; a mirror
partner sends the copies it holds. -/
def giveStage (s : State) (place i to_ : Nat) : State :=
  match stageAt s place i with
  | some h =>
    let send (st : State × Nat) (e : Nat × Nat) : State × Nat :=
      match (sessionAt st.1 e.2).bind fun v => (modelAt st.1 v.model).map fun m => (v, m) with
      | none => st
      | some (v, m) =>
        let gs := (pagesOf st.1 e.2).filter fun g => !(g.2.mirrored && (stageOf h.plan i).mirror == to_)
        let s1 := gs.foldl (fun s g =>
          sendMove s to_ place i g.2.part (.page e.1 g.2.k g.2.ix g.2.format g.2.firstPos) false (pageBytes s g.1 g.2)) st.1
        let s2 := if m.kvHeads = 0 ∨ v.cold then s1 else (span 0 (headCount m)).foldl (fun s k =>
          sendMove s to_ place i v.part (.slot e.1 k (slotFill s e.2 v)) false (slotBytes s m v k)) s1
        (s2, st.2 + gs.length)
    let (s1, n) := h.sessions.foldl send (s, 0)
    placeSend s1 to_ (.given place i n []) false
  | none =>
    let mine := s.mm.mirrors.filter fun g => g.place == place && g.stage == i
    let s1 := mine.foldl (fun s g =>
      sendMove s to_ place i g.part (.page g.session g.k g.ix g.format g.firstPos) false (mirrorBytes s g)) s
    placeSend s1 to_ (.given place i mine.length []) false

/-! ### Tiles that come in -/

/-- R378: a partner stores a page in its own deep pool of the partition, or in HBM without one, and acknowledges. -/
def storeMirror (s : State) (src place i session k ix format firstPos part : Nat) (b : List Byte) : State :=
  let same (g : MirrorPage) : Bool := g.place == place && g.stage == i && g.session == session && g.k == k && g.ix == ix
  let old := s.mm.mirrors.filter same
  let s0 := onMem (freeFixed s (old.flatMap MirrorPage.frames)) fun m => { m with mirrors := m.mirrors.filter fun g => !same g }
  let g : MirrorPage := { part := part, place := place, stage := i, session := session, k := k, ix := ix, format := format,
                          firstPos := firstPos, deep := ⟨[], cellsOf b⟩ }
  let ack (s : State) : State := placeSend s src (.pageStored place i session k ix) false
  if (channelsOf s part).isEmpty then
    match allocFixed s0 part 1 with
    | some (t, fs) => ack (onMem (writeMem t (fs.headD 0 * 0x10000) b) fun m =>
        { m with mirrors := m.mirrors ++ [{ g with frames := fs, deep := ⟨[], []⟩ }] })
    | none => s0
  else match placeBlocks s0 part session (deepBlocks s0) 0 (deepParts b) with
    | some bs => ack (onMem s0 fun m => { m with mirrors := m.mirrors ++ [{ g with deep := ⟨bs, cellsOf b⟩ }] })
    | none => s0

/-- A staging slot arrives: its head part goes into the slot of the session here. -/
def enterSlot (s : State) (n k : Nat) (b : List Byte) : State :=
  match (sessionAt s n).bind fun v => (modelAt s v.model).map fun m => (v, m) with
  | some (v, m) => if v.cold ∨ m.kvHeads = 0 then s else writeHeader (writeMem s (slotAddr m v k) b) n m v k
  | none => s

/-- The stage that waits for an image loads from it. -/
def enterImage (s : State) (place i : Nat) (b : List Byte) : State :=
  match s.fab.wants.find? fun w => w.place == place && w.stage == i with
  | none => s
  | some w =>
    let s1 := onFab s fun v => { v with wants := v.wants.erase w }
    match w.sessions with
    | some l => takeOver s1 place i w.plan l b
    | none => match loadStage s1 place i w.plan b with
      | .error e => placeSend s1 (frontAddr place) (.loaded place i e 0) false
      | .ok t => placeSend t (frontAddr place) (.loaded place i 0 ((stageAt t place i).elim 0 HeldStage.queue)) false

/-- Everything of a MOVE has come in. -/
def moveDone (s : State) (x : PartMove) (part : Nat) : State :=
  let b := x.tiles.flatMap fun t => t.2.payload
  match x.what with
  | .image _ => enterImage s x.place x.stage b
  | .page fs k ix fmt pos =>
    if x.mirror then storeMirror s x.src x.place x.stage fs k ix fmt pos part b
    else match (stageAt s x.place x.stage).bind fun h => SMap.get? h.sessions fs with
      | some n => enterPage s n k ix fmt pos b
      | none => s
  | .slot fs k _ => match (stageAt s x.place x.stage).bind fun h => SMap.get? h.sessions fs with
      | some n => enterSlot s n k b
      | none => s

/-- One tile of a MOVE has passed its check. -/
def moveTile (s : State) (src part : Nat) (t : MoveTile) : State :=
  let same (x : PartMove) : Bool := x.src == src && x.place == t.place && x.stage == t.stage && x.what == t.what && x.mirror == t.mirror
  let old : PartMove := (s.fab.partMoves.find? same).getD
    { src := src, place := t.place, stage := t.stage, what := t.what, mirror := t.mirror, tiles := [] }
  let x := { old with tiles := SMap.set old.tiles t.index t.tile }
  let rest := s.fab.partMoves.filter fun y => !same y
  if t.count ≤ x.tiles.length then moveDone (onFab s fun b => { b with partMoves := rest }) x part
  else onFab s fun b => { b with partMoves := rest ++ [x] }

/-! ### Loss (R380) -/

/-- R380 step 3: a job of a placement starts over: its relay jobs end, what came in for it goes, its session is back at its last
token boundary. -/
def restartJob (s : State) (place j : Nat) (f : Front) : State :=
  match jobAt s j with
  | none => s
  | some x =>
    if !x.started then s
    else
      let s1 := tellOthers (stopRuns s fun r => r.job == j) f (.endJob place j) false
      let s2 := purgeMsgs (rollback s1 x) x.queue j
      modJob s2 j fun x => { x with started := false, sealed := [], relays := [], outs := [], stored := [],
                                    cmds := x.cmds.map fun c => if c.st = .done then { c with st := .waiting } else c }

/-- The placements of this front device that have a stage on a lost member: jobs stop, and the stage goes to its mirror partner, then
to the spare. -/
def recoverFront (s : State) (addr : Nat) (e : Nat × Front) : State :=
  let f := e.2
  let hit := (span 1 (f.plan.stages.length - 1)).filter fun i => (stageOf f.plan i).addr == addr
  let gone := f.waiting.filter fun i => if i < 64 then (stageOf f.plan i).addr == addr else (stageOf f.plan (i - 64)).mirror == addr
  let s1 := if gone = [] then s
    else endPlace (modFront s e.1 fun f => { f with waiting := f.waiting.filter fun i => !gone.contains i, status := 0x0017 }) e.1
  if hit = [] ∨ !f.up then s1
  else
    let s2 := match stageAt s1 e.1 0 with
      | some h => (s1.k.jobs.filter fun x => x.2.queue == h.queue).foldl (fun s x => restartJob s e.1 x.1 f) s1
      | none => s1
    let tries (i : Nat) : List Nat := ([(stageOf f.plan i).mirror, f.plan.spare].filter fun a => a != 0 && a != addr && memberAt s a).eraseDups
    let new := hit.map fun i => ({ stage := i, tries := tries i, lost := true } : StageMove)
    tryMove (modFront s2 e.1 fun f =>
      { f with moves := (f.moves.filter fun m => !hit.contains m.stage).map (fun m =>
                 { m with asked := m.asked && m.tries.headD 0 != addr, tries := m.tries.filter fun a => a != addr }) ++ new }) e.1

/-- What a member forgets of a lost one: acknowledgements are not awaited (R462), keys are asked for anew. -/
def forget (s : State) (addr : Nat) : State :=
  let s1 := onFab s fun b => { b with asked := SMap.erase b.asked addr,
                                      holders := b.holders.map fun h => (h.1, h.2.erase addr) }
  let s2 := (s1.k.quenches.map Prod.fst).foldl (fun s t => ackQuench s t addr true true) s1
  let s3 := (s2.k.rotations.map Prod.fst).foldl (fun s t =>
    endRotation (rewritten (tryUse (modRotation s t fun r =>
      { r with sealed := r.sealed.erase addr, retiring := r.retiring.erase addr }) t) t addr) t) s2
  s3.k.creations.foldl (fun s c =>
    if !c.waitKeys then s
    else if fabricHead s then
      match holdersOf s c.t with
      | [] => ownKeys s c
      | a :: _ => placeSend s a (.keyFetch c.t) true
    else placeSend s headAddr (.keyAsk c.t) true) s3

/-- Recovery from the loss of a member, on every device. -/
def recover (s : State) (addr : Nat) : State :=
  let s1 := forget s addr
  s1.fab.fronts.foldl (fun s e => recoverFront s addr e) s1

/-- R380 step 2: stations of an open segment beyond a lost one have no path to their head. -/
def cutOff (s : State) (addr : Nat) : List Nat :=
  if segClosed s.fab.light (segOf addr) then [addr]
  else addr :: ((s.fab.light.filter fun e => e.2.state != 0 && e.2.state != 4 && segOf e.2.address == segOf addr
    && decide (stnOf addr < stnOf e.2.address)).map fun e => e.2.address)

/-- The fabric head marks a member lost, and those it cuts off, and floods the list. -/
def markLost (s : State) (addr : Nat) : State :=
  if !fabricHead s then s
  else
    let gone := cutOff s addr
    let l := s.fab.light.map fun e => if gone.contains e.2.address then (e.1, { e.2 with state := 4 }) else e
    gone.foldl recover (floodLight s l)

/-- A member is counted lost: MEMBER_LOST is flooded and raised, unless it has departed or is known to be lost. -/
def loseMember (s : State) (addr : Nat) : State :=
  if addr = 0 ∨ addr = s.fab.addr ∨ !((lightOf s addr).any fun e => e.state == 1 || e.state == 2) then s
  else
    let g := s.fab.floodGen + 1
    let s1 := onFab s fun x => { x with floodGen := g, seen := (0x25, x.addr, g) :: x.seen }
    let s2 := floodFrom s1 none { type := 0x25, src := s.fab.addr, job := g, payload := leBytes 2 addr }
    markLost (raiseEvent s2 0x0201 0xFFFF addr) addr

/-- R380 step 4: does a plan place an orphaned placement anew: the same image, partition and layer ranges? -/
def replaces (f : Front) (p : PlacePlan) : Bool :=
  f.up && f.orphans != [] && f.handle.isNone && f.plan.load == p.load && f.plan.part == p.part
    && f.plan.stages.map (fun x => (x.first, x.last)) == p.stages.map fun x => (x.first, x.last)

/-- The orphaned stages go to the members that a new plan names; its mirror partners and spare hold from now on. -/
def replaceFront (s : State) (place h : Nat) (p : PlacePlan) : State :=
  match SMap.get? s.fab.fronts place with
  | none => s
  | some f =>
    let stages := (f.plan.stages.zip p.stages).map fun e => { e.1 with mirror := e.2.mirror }
    let moves := f.orphans.map fun i => ({ stage := i, tries := [(stageOf p i).addr], lost := true } : StageMove)
    endReplace (tryMove (modFront s place fun f => { f with
      handle := some h, moves := f.moves ++ moves, orphans := []
      plan := { f.plan with stages := stages, mirrored := p.mirrored, spare := p.spare } }) place) place

/-- FABRIC_PLACE. -/
def execFabricPlace (rq : Request) (s : State) : Host.Outcome State Fault Refusal :=
  let a := rq.args
  .next (onRequest s rq 0x28 (some 3) placeArgsOk fun s h _ =>
    match planImage s (planFrom s a []) with
    | none => complete s h 0x001C
    | some image =>
      let p := planFrom s a image
      if !addressesAre s p || !planFits p image || !partOk s p then complete s h 0x001D
      else
        match s.fab.fronts.find? fun e => replaces e.2 p with
        | some e => replaceFront s e.1 h p
        | none =>
        let place := 65536 * s.fab.addr + s.fab.placeNext
        match loadStage s place 0 p image with
        | .error e => complete s h e
        | .ok t =>
          let q := (stageAt t place 0).elim 0xFFFF HeldStage.queue
          let p1 := { p with stages := modAt p.stages 0 fun x => { x with queue := q } }
          let f : Front := { plan := p1, handle := some h,
                             waiting := span 1 (p.stages.length - 1)
                               ++ ((span 0 p.stages.length).filter fun i => (stageOf p i).mirror != 0).map fun i => 64 + i }
          endPlace (askStages (onFab t fun b => { b with fronts := SMap.set b.fronts place f, placeNext := b.placeNext + 1 })
            place p1) place)

/-! ### Planned leave (R379) -/

/-- MEMBER_LEAVE, at the fabric head. -/
def execMemberLeave (rq : Request) (s : State) : Host.Outcome State Fault Refusal :=
  let a := rq.args
  .next (onRequest s rq 0x29 (some 3) (fun a => argsOk a [(0, 2), (2, 2), (4, 1)] && decide (arg a 4 1 ≤ 1)) fun s h _ =>
    let addr := arg a 0 2
    let repl := arg a 2 2
    if !fabricHead s || (repl != 0 && (!memberAt s repl || repl == addr)) then complete s h 0x001D
    else if !memberAt s addr then complete s h 0x001C
    else
      let l := s.fab.light.map fun e => if e.2.address = addr then (e.1, { e.2 with state := 2 }) else e
      let s1 := floodLight s l
      let all := s1.fab.addr :: otherMembers s1
      let s2 := onFab s1 fun b => { b with leaves := b.leaves ++ [{ handle := h, addr := addr, waiting := all }] }
      all.foldl (fun s m => placeSend s m (.leave addr repl (bitOf (arg a 4 1) 0)) true) s2)

/-- A member hears that another leaves: the stages that its placements have there go elsewhere. -/
def takeLeave (s : State) (addr repl : Nat) (buoyOk : Bool) : State :=
  let s0 := if addr = s.fab.addr then onFab s fun b => { b with buoyOk := buoyOk } else s
  let move (s : State) (e : Nat × Front) : State :=
    let f := e.2
    let hit := (span 1 (f.plan.stages.length - 1)).filter fun i => (stageOf f.plan i).addr == addr
    let tries (i : Nat) : List Nat := if repl != 0 then [repl]
      else ([(stageOf f.plan i).mirror, f.plan.spare].filter fun a => a != 0 && a != addr && memberAt s a).eraseDups
    modFront s e.1 fun f => { f with moves := f.moves ++ hit.map fun i => { stage := i, tries := tries i, lost := false } }
  let s1 := s0.fab.fronts.foldl move s0
  let none_ := s1.fab.fronts.all fun e => e.2.moves.all fun m => m.lost || (stageOf e.2.plan m.stage).addr != addr
  if none_ then placeSend s1 headAddr (.left addr 0 0 true false) false else tryMoves s1

/-- R379 step 6: every member has reported: the entry is departed, and the request completes; a stage that nobody takes keeps the
member in (NO_CAPACITY; DESIGN CHOICE, log 38). -/
def takeLeft (s : State) (src addr places pages : Nat) (last bad : Bool) : State :=
  match s.fab.leaves.find? fun x => x.addr == addr with
  | none => s
  | some x =>
    let y := { x with places := x.places + places, pages := x.pages + pages, waiting := if last then x.waiting.erase src else x.waiting }
    let rest := s.fab.leaves.erase x
    let light (n : Nat) : SMap LightEntry := s.fab.light.map fun e => if e.2.address = addr then (e.1, { e.2 with state := n }) else e
    if bad then complete (floodLight (onFab s fun b => { b with leaves := rest }) (light 1)) y.handle 0x0017
    else if y.waiting = [] then complete (floodLight (onFab s fun b => { b with leaves := rest }) (light 3)) y.handle 0 y.places y.pages
    else onFab s fun b => { b with leaves := rest ++ [y] }

/-! ### PLACE frames -/

/-- The front device has asked this member to load a stage, or whether it has the partition. -/
def takeLoad (s : State) (place i : Nat) (p : PlacePlan) : State :=
  let answer (s : State) (st q : Nat) : State := placeSend s (frontAddr place) (.loaded place i st q) false
  if !partOk s p then answer s 0x001D 0
  else if 64 ≤ i then answer s 0 0
  else match planImage s p with
    | none => answer (onFab s fun b => { b with wants := b.wants ++ [{ place := place, stage := i, plan := p }] }) 0xFFFF 0
    | some image => match loadStage s place i p image with
      | .error e => answer s e 0
      | .ok t => answer t 0 ((stageAt t place i).elim 0 HeldStage.queue)

/-- The front device sends the image to a stage without a store. -/
def sendImage (s : State) (dest place i : Nat) (p : PlacePlan) : State :=
  match planImage s p with
  | some b => sendMove s dest place i p.part (.image b.length) false b
  | none => s

/-- A stage has answered the front device: loaded, in want of the image, or not. -/
def takeLoaded (s : State) (src place i status queue : Nat) : State :=
  match SMap.get? s.fab.fronts place with
  | none => s
  | some f =>
    if status = 0xFFFF then sendImage s src place i f.plan
    else
      let worst := if f.status = 0x001D then f.status else if status ≠ 0 then status else f.status
      endPlace (modFront s place fun f => { f with
        waiting := f.waiting.erase i, status := worst
        plan := if status = 0 ∧ i < 64 then { f.plan with stages := modAt f.plan.stages i fun x => { x with queue := queue } } else f.plan }) place

/-- This member is asked to take over a stage. -/
def takeAdopt (s : State) (place i : Nat) (p : PlacePlan) (l : List (Nat × Nat × Nat)) : State :=
  if !partOk s p then placeSend s (frontAddr place) (.adopted place i false 0 []) false
  else match planImage s p with
    | some image => takeOver s place i p l image
    | none => placeSend (onFab s fun b => { b with wants := b.wants ++ [{ place := place, stage := i, plan := p, sessions := some l }] })
        (frontAddr place) (.loaded place i 0xFFFF 0) false

/-- A mirror partner has stored a page: its mirrored bit is set (R378). -/
def takeStored (s : State) (place i fs k ix : Nat) : State :=
  let n := if i = 0 then some fs else (stageAt s place i).bind fun h => SMap.get? h.sessions fs
  match n.bind fun n => (pagesOf s n).find? fun g => g.2.k == k && g.2.ix == ix with
  | some g => syncPage (modPage s g.1 fun g => { g with mirrored := true }) g.1
  | none => s

/-- The placement messages of a PLACE frame. -/
def placeMsg (s : State) (src : Nat) (m : FabMsg) : State :=
  match m with
  | .load place i p => takeLoad s place i p
  | .loaded place i st q => takeLoaded s src place i st q
  | .drop place =>
    let mine := s.fab.stages.filter fun h => h.1 / 64 == place && h.1 % 64 != 0
      && (SMap.get? s.fab.fronts place).all fun f => (stageOf f.plan (h.1 % 64)).addr != s.fab.addr
    onFab (mine.foldl (fun s h => dropStage s h.1) s) fun b => { b with wants := b.wants.filter fun w => w.place != place }
  | .dropStage place i => dropStage s (stageKey place i)
  | .commit place p => commitPlan s place p
  | .openSession place i fs fmt => match openOnStage s place i fs fmt with
    | some t => placeSend t src (.sessionOpen place i fs true) false
    | none => placeSend s src (.sessionOpen place i fs false) false
  | .sessionOpen place i fs ok => sessionConfirmed s place i fs ok
  | .closeSession place fs => closeOnStages s place fs
  | .job place i j kind fs len add off =>
    tryRelays (onFab s fun b => { b with
      infos := b.infos ++ [{ place := place, stage := i, job := j, kind := kind, session := fs, len := len, add := add, noKv := off }] })
  | .jobDone _ i j ok detail => tryMoves (relayDone s i j ok detail)
  | .endJob place j => stopRelays s place j
  | .grown place fs len =>
    (s.fab.stages.filter fun h => h.1 / 64 == place && h.1 % 64 != 0).foldl (fun s h => match SMap.get? h.2.sessions fs with
      | some n => modSession s n fun v => { v with len := len }
      | none => s) s
  | .pageStored place i fs k ix => takeStored s place i fs k ix
  | .leave addr repl ok => takeLeave s addr repl ok
  | .left addr places pages last bad => takeLeft s src addr places pages last bad
  | .adopt place i p l => takeAdopt s place i p l
  | .adopted place i ok q l => adoptAnswer s place i ok q l
  | .give place i to_ => giveStage s place i to_
  | .given place i pages l => match SMap.get? s.fab.fronts place with
    | none => placeSend s (frontAddr place) (.given place i pages (haveList s place i)) false
    | some f => endMove s place pages
        (if f.moves.head?.any fun m => m.tries.head? == some s.fab.addr then haveList s place i else l)
  | .lostFrom place i fs pos => modSession s fs fun v =>
      { v with reingest := some (min pos (v.reingest.getD v.len)),
               kept := (if v.reingest.isNone then span 0 ((SMap.get? s.fab.fronts place).elim 0 fun f => f.plan.stages.length)
                        else v.kept).filter fun k => k != i }
  | m => keyMsg s src m

end Sys2Proof.Machine
end

