-- ==== Sys2Proof/Machine/FabData.lean ====
section
/-! DEFINITION. Sys2Proof/Machine/FabData.lean: DATA, RERUN, PLACE, MOVE, KEY_RETIRE and LIGHT frames as they come in, lost members, and
Keeper's end reports (R171, R172, R368 to R370, R377, R378, R380, R461, R462). -/

namespace Sys2Proof.Machine

/-! ### Tiles on links (R370) -/

/-- Does the check tag at the head of a frame's payload agree with the data after it (R68)? -/
def frameGood (f : FabFrame) : Bool :=
  decide (16 ≤ f.payload.length) && leNat (f.payload.take 4) == (crc32c (f.payload.drop 16)).toNat
    && leNat ((f.payload.drop 4).take 2) == (f.payload.drop 16).length

/-- R370: ask the source of a frame to send its message again. -/
def askRerun (s : State) (f : FabFrame) : State :=
  fabSend s { type := 0x26, dest := f.src, src := s.fab.addr, srcQueue := f.srcQueue, destQueue := f.destQueue, frames := f.frames,
              job := if f.type = 0x31 then 0xFFFFFFFF else f.job, command := f.command, sendIx := f.sendIx }

/-- A DATA or MOVE frame for another member goes on; a system frame's tile is checked first, and a bad one asked for again. -/
def forward (s : State) (f : FabFrame) : State := if f.part = 0 ∧ !frameGood f then askRerun s f else fabSend s f

/-! ### DATA (R171, R172, R314) -/

/-- Does a message or a part of one belong to a frame's message? -/
def sameMsg (f : FabFrame) (src queue job command sendIx : Nat) : Bool :=
  src == f.src && queue == f.destQueue && job == f.job && command == f.command && sendIx == f.sendIx

/-- R171: has a message of a frame's job, command and send index been delivered? -/
def wasSeen (s : State) (f : FabFrame) : Bool := s.fab.seenMsgs.any fun v => sameMsg f v.src v.queue v.job v.command v.sendIx

/-- What has come in of a frame's message. -/
def partOf (s : State) (f : FabFrame) : Option PartMsg :=
  s.fab.partMsgs.find? fun m => sameMsg f m.msg.src m.msg.queue m.msg.job m.msg.command m.msg.sendIx

/-- The credits of frames that are discarded go back at once (DESIGN CHOICE, log 39). -/
def returnCredits (s : State) (f : FabFrame) (n : Nat) : State :=
  if n = 0 then s
  else fabSend s { type := 0x02, dest := f.src, src := s.fab.addr, destQueue := f.srcQueue, srcQueue := f.destQueue, creditReturn := n,
                   creditQueue := f.srcQueue }

/-- What has come in of a frame's message is discarded (R370). -/
def dropPart (s : State) (f : FabFrame) : State :=
  match partOf s f with
  | none => s
  | some m => returnCredits (onFab s fun b => { b with partMsgs := b.partMsgs.erase m }) f m.got

/-- R171: a frame joins its message; a complete message is queued for LRECV. -/
def joinFrame (s : State) (f : FabFrame) : State :=
  let new : PartMsg := { msg := { src := f.src, srcQueue := f.srcQueue, queue := f.destQueue, tag := f.tag, job := f.job,
                                  command := f.command, sendIx := f.sendIx, frames := f.frames, data := [] }, got := 0 }
  let m := (partOf s f).getD new
  if f.frameIx < m.got then returnCredits (fabCount s 0x21C 1) f 1
  else if m.got < f.frameIx then s
  else
    let m1 : PartMsg := { got := m.got + 1, msg := { m.msg with data := m.msg.data ++ f.payload.drop 16 } }
    let rest := s.fab.partMsgs.erase m
    if m1.got < f.frames then onFab s fun b => { b with partMsgs := rest ++ [m1] }
    else
      let v : SeenMsg := { src := f.src, job := f.job, command := f.command, sendIx := f.sendIx, queue := f.destQueue }
      { onFab s fun b => { b with partMsgs := rest, seenMsgs := b.seenMsgs ++ [v] } with inMsgs := s.inMsgs ++ [m1.msg] }

/-- A DATA frame at its destination: a generation that is not held, a failed check, a copy, or a frame of the message. -/
def takeData (s : State) (f : FabFrame) : State :=
  if !keyHeld s f.part f.gen then fabCount s 0x214 1
  else if !frameGood f then askRerun (returnCredits (dropPart s f) f 1) f
  else if wasSeen s f then returnCredits (fabCount s 0x21C 1) f 1
  else match queueAt s f.destQueue with
    | none => s
    | some v => if v.part = f.part then noteFrame (joinFrame s f) f.src f.job f.destQueue else s

/-- R370: the source handles the sending command as after a hardware fault: it runs again, with the reset of R315. -/
def takeRerun (s : State) (f : FabFrame) : State :=
  if f.job = 0xFFFFFFFF then
    match s.fab.wire.find? fun w => w.2.type == 0x31 && w.2.command == f.command && w.2.src == s.fab.addr with
    | some w => fabSend s { w.2 with epoch := 0, counter := 0, retrans := false }
    | none => s
  else
    match s.k.jobs.find? fun x => sendJob s x.1 == f.job && x.2.queue == f.srcQueue && x.2.cmds.any fun c => c.g.id == f.command with
    | none => s
    | some (j, x) =>
      let done := x.cmds.any fun c => c.g.id == f.command && c.st == .done
      let s1 := if done then waitAgain s j f.command else s
      reschedule (resetFor s1 x 0) x.part

/-! ### PLACE, MOVE and KEY_RETIRE -/

/-- A MOVE frame at its destination. -/
def takeMove (s : State) (f : FabFrame) : State :=
  if !keyHeld s f.part f.gen then fabCount s 0x214 1
  else if !frameGood f then askRerun s f
  else match f.move with
    | some t => moveTile s f.src f.part t
    | none => s

/-- What the Keeper of a member says: it answers (R380), and its message acts. -/
def takeMsg (s : State) (f : FabFrame) : State :=
  let s1 := onFab s fun b => { b with asked := SMap.erase b.asked f.src }
  match f.msg with
  | some m => placeMsg s1 f.src m
  | none => s1

/-- A frame of this device to its own address. -/
def takeOwn (s : State) (f : FabFrame) : State :=
  match f.type with
  | 0x01 => takeData s f
  | 0x02 => giveCredits s f
  | 0x26 => takeRerun s f
  | 0x31 => takeMove s f
  | _ => takeMsg s f

/-- Frames of this device to its own address, n at most. -/
def drainSelf (s : State) : Nat → State
  | 0 => s
  | n + 1 => match s.fab.selfQ with
    | [] => s
    | f :: r => drainSelf (takeOwn (onFab s fun b => { b with selfQ := r }) f) n

/-- Frames to the own address that one command carries on with. -/
def drainOwn (s : State) : State := drainSelf s 256

/-- A frame that is routed: here it acts, elsewhere it goes on (R375). -/
def routed (s : State) (p type : Nat) (f : FabFrame) (control : Bool) (go : State → State) (on : State → State) : State :=
  onLink s p { f with type := type } fun s =>
    if f.dest = s.fab.addr then drainOwn (go (if control then ctlPost s p else s)) else on s

/-- DATA. -/
def execData (port : Fin 4) (f : FabFrame) (s : State) : Host.Outcome State Fault Refusal :=
  let g := { f with type := 0x01 }
  .next (routed s port.val 0x01 f false (fun s => takeData s g) fun s => forward s g)

/-- RERUN. -/
def execRerun (port : Fin 4) (f : FabFrame) (s : State) : Host.Outcome State Fault Refusal :=
  let g := { f with type := 0x26 }
  .next (routed s port.val 0x26 f true (fun s => takeRerun s g) fun s => fabSend s g)

/-- PLACE. -/
def execPlace (port : Fin 4) (f : FabFrame) (s : State) : Host.Outcome State Fault Refusal :=
  let g := { f with type := 0x30 }
  .next (routed s port.val 0x30 f true (fun s => takeMsg s g) fun s => fabSend s g)

/-- MOVE. -/
def execMove (port : Fin 4) (f : FabFrame) (s : State) : Host.Outcome State Fault Refusal :=
  let g := { f with type := 0x31 }
  .next (routed s port.val 0x31 f false (fun s => takeMove s g) fun s => forward s g)

/-- KEY_RETIRE: a generation of a tenant, or both. -/
def execKeyRetire (port : Fin 4) (f : FabFrame) (tenant : Fin 9) (gen : Option Nat) (s : State) :
    Host.Outcome State Fault Refusal :=
  let g := { f with type := 0x32, msg := some (.retire tenant.val gen) }
  .next (routed s port.val 0x32 f true (fun s => takeMsg s g) fun s => fabSend s g)

/-! ### Light lists and losses -/

/-- Addresses that a new light list newly marks lost. -/
def newlyLost (old new : SMap LightEntry) : List Nat :=
  (new.filter fun e => e.2.state == 4 && !((SMap.get? old e.1).any fun o => o.state == 4)).map fun e => e.2.address

/-- LIGHT: a new light list with its routes, flooded; fronts recover from the losses that it shows. -/
def execLight (port : Fin 4) (f : FabFrame) (m : LightMsg) (s : State) : Host.Outcome State Fault Refusal :=
  .next (onControl s port.val f fun s => onFlood s port.val { f with type := 0x24 } m.origin m.gen fun s =>
    if s.fab.addr = 0 then s
    else drainOwn (tryMoves ((newlyLost s.fab.light m.entries).foldl recover (installLight s m))))

/-- MEMBER_LOST, flooded: the fabric head marks the member lost. -/
def execMemberLost (port : Fin 4) (f : FabFrame) (origin gen : Nat) (addr : BitVec 16) (s : State) :
    Host.Outcome State Fault Refusal :=
  .next (onControl s port.val f fun s => onFlood s port.val { f with type := 0x25 } origin gen fun s =>
    if (lightOf s addr.toNat).any fun e => e.state == 1 || e.state == 2 then
      drainOwn (markLost (raiseEvent s 0x0201 0xFFFF addr.toNat) addr.toNat)
    else s)

/-- PEER_LOST: the link of a port is not up and authenticated again 50 ms after it went down (R369). -/
def execPeerLost (port : Fin 4) (s : State) : Host.Outcome State Fault Refusal :=
  let x := fabPort s port.val
  .next (if x.downAt.any fun t => decide (t + 50 * ticksPerMs ≤ s.tick) then drainOwn (loseMember s x.peer) else s)

/-- PLACE_TIMEOUT: a member has not answered a PLACE frame for 50 ms (R380). -/
def execPlaceTimeout (member : BitVec 16) (s : State) : Host.Outcome State Fault Refusal :=
  let a := member.toNat
  .next (if (SMap.get? s.fab.asked a).any fun t => decide (t + 50 * ticksPerMs ≤ s.tick) then
    drainOwn (loseMember (onFab s fun b => { b with asked := SMap.erase b.asked a }) a)
  else s)

/-! ### End reports -/

/-- The session of the job whose command runs on core c. -/
def runSession (s : State) (c : Nat) : Option Nat := ((SMap.get? s.runs c).bind fun r => jobAt s r.job).bind Job.session

/-- KEEPER_END_REPORT: Keeper reads the end report of a core: sealed pages go to the mirror partner, and creations and stage moves that
waited for it go on. -/
def execKeeperEndReport (core : Fin 32) (outs : List Tile) (s : State) : Host.Outcome State Fault Refusal :=
  let n := runSession s core.val
  let s1 := takeEndReport s core.val outs
  let s2 := n.elim s1 (mirrorPages s1)
  .next (drainOwn (tryMoves (tryCreations s2)))

end Sys2Proof.Machine
end

