-- ==== Sys2Proof/Machine/Update.lean ====
section
/-! DEFINITION. Sys2Proof/Machine/Update.lean: the UPDATE requests (R439, R443, R447, R451, R460, R501, R514 to R518), and what ends a
quench (R461, R462). -/

namespace Sys2Proof.Machine

/-- The bytes of a request's tiles, one after another. -/
def tileBytes (ts : List Tile) : List Byte := ts.flatMap Tile.payload

/-! ### Life cycle (R439 to R443, R447) -/

/-- R439: may the system principal ask for a state without a token: PROVISION or SERVICE to FIELD? -/
def freeChange (s : State) (target : Nat) : Bool :=
  target == 2 && ((lifeCycle s == 1 && s.secStore.deviceKey.isSome && s.secStore.cert.isSome && s.secStore.systemCak)
    || lifeCycle s == 3)

/-- The token type that a target state needs. -/
def tokenFor (target : Nat) : Option Nat := if target = 3 then some 1 else if target = 4 then some 2 else none

/-- R462: a creation that waits ends as the change begins. -/
def endCreation (s : State) (c : Creation) : State :=
  complete (dropOwners (onK s fun k => { k with creations := k.creations.erase c }) c.t) c.handle 0x0014

/-- R462: entering SERVICE or RETIRED quenches every tenant at once, and waits for every quench. -/
def quenchAll (s : State) : State :=
  let s1 := s.k.creations.foldl endCreation s
  (s1.secStore.tenants.filter fun t => (SMap.get? s1.k.quenches t.1).isNone).foldl (fun s t => startQuench s t.1 none none) s1

/-- R447: a REVOKE_ROOT token signed by root k revokes root 1 − k. -/
def revokeRoot (s : State) (h : Nat) (token : List Byte) : State :=
  let k := leNat (part token 3 1)
  let (s1, ok) := takeToken s 3 token
  if !ok then complete s1 h 0x0015
  else if leNat (part token 4 4) ≠ 1 - k then complete (logAppend (countAuthFail s1) 0x0C 0 [0]) h 0x0015
  else
    let o := if k = 0 then { s1.otp with revoked1 := 0xFF } else { s1.otp with revoked0 := 0xFF }
    let s2 := { s1 with otp := o }
    complete (extend s2 4 (lifeEvent s2)) h 0

/-- R405: an AUDIO_GATE token opens the gate in SERVICE. -/
def audioGate (s : State) (h : Nat) (token : List Byte) : State :=
  let (s1, ok) := takeToken s 4 token
  if ok then
    let f := outRate s1.aon
    complete (openGate s1 (s1.aon.pos - 2 * f) (s1.aon.pos + 30 * f)) h 0
  else complete s1 h 0x0015

/-- R439: a transition of the table, without a token or with the one that it needs; one at a time (log 40). -/
def askLife (s : State) (h target : Nat) (token : List Byte) : State :=
  if s.k.lifeChange.isSome then complete s h 0x0017
  else match tokenFor target with
  | none => if freeChange s target then tryLifeChange (onK s fun k => { k with lifeChange := some (h, target) }) else complete s h 0x0015
  | some type =>
    let (s1, ok) := takeToken s type token
    if !ok || (target == 3 && decide (64 ≤ s1.otp.serviceIn)) then complete s1 h 0x0015
    else tryLifeChange (quenchAll (onK s1 fun k => { k with lifeChange := some (h, target) }))

/-- UPDATE class 0x40: a state of the table, or what a REVOKE_ROOT or an AUDIO_GATE token asks for (log 40). -/
def lifeUpdate (s : State) (h target : Nat) (token : List Byte) : State :=
  let type := leNat (part token 2 1)
  if token ≠ [] ∧ type = 3 then revokeRoot s h token
  else if token ≠ [] ∧ type = 4 then audioGate s h token
  else askLife s h target token

/-! ### Provisioning (R450, R451) -/

/-- R450: is a certificate this device's own, signed by a programmed root? -/
def certOk (s : State) (c : List Byte) : Bool :=
  let root := leNat (part c 3 1)
  c.length == 1792 && leNat (part c 0 2) == 0x4443 && leNat (part c 2 1) == 1 && leNat (part c 4 4) == (sysId s).toNat
    && leNat (part c 8 8) == s.board.serial.toNat && leNat (part c 0x10 8) == (deviceKeyId s).toNat && zerosAt c 0x18 40
    && s.secStore.deviceKey == some (part c 0x40 516) && zerosAt c 0x244 60 && zerosAt c 0x484 124
    && (rootDigest s root).isSome && rootDigest s root == some (Config.sha512 (part c 0x280 516))
    && Config.rsaOk (part c 0x280 512) (part c 0 0x500) (part c 0x500 512)

/-- R451: a step that succeeded extends M4 with its action and is recorded. -/
def provisioned (s : State) (h action r0 : Nat) : State :=
  complete (logAppend (extend s 4 [BitVec.ofNat 8 action]) 0x0D 0 [0x41, action]) h 0 r0

/-- UPDATE class 0x41: the provisioning step of the action byte. -/
def provision (s : State) (h action : Nat) (data : List Byte) : State :=
  if lifeCycle s ≠ 1 then complete s h 0x0015
  else match action with
  | 0 =>
    if s.otp.root1.isSome ∨ data.length ≠ 64 then complete s h 0x001D
    else provisioned { s with otp := { s.otp with root1 := some (BitVec.ofNat 512 (leNat data)) } } h 0 0
  | 1 =>
    if s.secStore.deviceKey.isSome ∨ data ≠ [] then complete s h 0x001D
    else if s.sec.trngFail then complete s h 0x0017
    else
      let pub := leBytes 516 (Config.newKeyPair s.freeCtr).toNat
      let s1 := nextFree (onStore s fun v => { v with deviceKey := some pub })
      provisioned (returnTiles s1 h [reportTile 0 (pub ++ leBytes 8 (keyIdOf pub).toNat)]) h 1 1
  | 2 =>
    if certOk s data then provisioned (onStore s fun v => { v with cert := some data }) h 2 0 else complete s h 0x001D
  | 3 =>
    if data.length = 512 ∧ s.secStore.deviceKey.any fun k => Config.oaepOk k data then
      provisioned (onStore s fun v => { v with systemCak := true }) h 3 0
    else complete s h 0x001D
  | _ => complete s h 0x001D

/-! ### ISP parameters and model switches (R433, R515, R516) -/

/-- UPDATE class 0x10: Keeper writes the window with hold set and then clears hold. -/
def ispUpdate (s : State) (h ctx : Nat) (data : List Byte) : State :=
  if 16 ≤ ctx ∨ data = [] ∨ data.length % 4 ≠ 0 ∨ 0x10000 < data.length then complete s h 0x001D
  else complete (modCtx s ctx fun c =>
    { c with hold := false,
             shadow := (span 0 (data.length / 4)).foldl (fun w k =>
               if winHas k then SMap.put w k (word (leNat (part data (4 * k) 4))) 0 else w) c.shadow }) h 0

/-- R516: can the sessions of a model become sessions of another, as to places (R193)? -/
def placesFit (s : State) (old new : Nat) (m : Model) : Bool :=
  !hasPlaces m || decide ((placesUsed s fun v => v.model == old || v.model == new).length ≤ m.sMax)

/-- UPDATE class 0x20: queues of the old model are to be re-pointed, and sessions move as their admitted jobs end. -/
def modelSwitch (s : State) (h old new : Nat) : State :=
  match liveModel s old, liveModel s new with
  | some a, some b =>
    if old = new ∨ a.part ≠ b.part ∨ a.tokenSet ≠ b.tokenSet ∨ (isStream a ∧ s.k.sessions.any fun v => v.2.model == old)
        ∨ (s.k.switches.any fun w => w.old == old || w.new == old || w.old == new) then complete s h 0x001D
    else if !placesFit s old new b then complete s h 0x0017
    else
      let s1 := onK s fun k => { k with
        queues := k.queues.map fun q => if q.2.model = old then (q.1, { q.2 with nextModel := some new }) else q
        switches := k.switches ++ [{ handle := h, old := old, new := new }] }
      sweep s1
  | _, _ => complete s h 0x001D

/-! ### The requests (R514, R515) -/

/-- Do the arguments of an UPDATE agree with its class: action, flags, a0 and a1 (R514, R515)? -/
def updateArgsOk (a : List Byte) : Bool :=
  let cls := arg a 0 1
  let none_ := arg a 1 1 == 0 && arg a 2 1 == 0
  argsOk a [(0, 1), (1, 1), (2, 1), (4, 4), (8, 4)]
    && (if cls ≤ 3 then decide (arg a 1 1 ≤ 2) && decide (arg a 2 1 ≤ 1) && arg a 4 4 == 0 && arg a 8 4 == 0
        else if cls = 0x41 then decide (arg a 1 1 ≤ 3) && arg a 2 1 == 0 && arg a 4 4 == 0 && arg a 8 4 == 0
        else if cls = 0x10 ∨ cls = 0x40 then none_ && arg a 8 4 == 0
        else if cls = 0x20 then none_ && decide (arg a 4 4 < 65536) && decide (arg a 8 4 < 65536)
        else if cls = 0x30 then none_ && decide (1 ≤ arg a 4 4) && decide (arg a 4 4 ≤ 8) && arg a 8 4 == 0
        else if cls = 0x50 then none_ && decide (arg a 4 4 < 2 ^ 21) && arg a 8 4 == 0
        else if cls = 0x51 then none_ && decide (arg a 8 4 < 65536)
        else false)

/-- What an UPDATE does, by its class (R515), with the bytes of its tiles. -/
def runUpdate (s : State) (h p : Nat) (a data : List Byte) : State :=
  let cls := arg a 0 1
  if cls ≤ 3 then
    match arg a 1 1 with
    | 0 => installFw s h cls (bitOf (arg a 2 1) 0) data
    | 1 => commitFw s h cls
    | _ => revertFw s h cls
  else if cls = 0x10 then ispUpdate s h (arg a 4 4) data
  else if cls = 0x20 then modelSwitch s h (modelKey p (arg a 4 4)) (modelKey p (arg a 8 4))
  else if cls = 0x30 then askRotation s h (arg a 4 4)
  else if cls = 0x40 then lifeUpdate s h (arg a 4 4) data
  else if cls = 0x41 then provision s h (arg a 1 1) data
  else if cls = 0x50 then complete (clearSteps s (arg a 4 4)) h 0
  else if lifeCycle s = 3 then complete (clearRetired s (arg a 4 4) (arg a 8 4)) h 0
  else complete s h 0x0015

/-- An UPDATE request as Keeper takes it: permission, arguments, tiles, and the component's own way. -/
def update (s : State) (rq : Request) : State :=
  onRequest s rq 0x25 (some 5) updateArgsOk fun s h p =>
    withTiles s h rq.tiles 1 0 (· == 0x0B) fun s => drainOwn (runUpdate s h p rq.args (tileBytes rq.tiles))

/-- UPDATE_INSTALL: action 0 of a firmware class. -/
def execUpdateInstall (rq : Request) (s : State) : Host.Outcome State Fault Refusal := .next (update s rq)
/-- UPDATE_COMMIT: action 1 of a firmware class. -/
def execUpdateCommit (rq : Request) (s : State) : Host.Outcome State Fault Refusal := .next (update s rq)
/-- UPDATE_REVERT: action 2 of a firmware class. -/
def execUpdateRevert (rq : Request) (s : State) : Host.Outcome State Fault Refusal := .next (update s rq)
/-- ISP_PARAMETER_UPDATE: class 0x10. -/
def execIspParameterUpdate (rq : Request) (s : State) : Host.Outcome State Fault Refusal := .next (update s rq)
/-- MODEL_SWITCH: class 0x20. -/
def execModelSwitch (rq : Request) (s : State) : Host.Outcome State Fault Refusal := .next (update s rq)
/-- TENANT_KEY_ROTATION: class 0x30. -/
def execTenantKeyRotation (rq : Request) (s : State) : Host.Outcome State Fault Refusal := .next (update s rq)
/-- LIFE_CYCLE_CHANGE: class 0x40. -/
def execLifeCycleChange (rq : Request) (s : State) : Host.Outcome State Fault Refusal := .next (update s rq)
/-- REVOKE_ROOT: class 0x40 with a REVOKE_ROOT token. -/
def execRevokeRoot (rq : Request) (s : State) : Host.Outcome State Fault Refusal := .next (update s rq)
/-- PROVISION_ROOT_DIGEST: class 0x41, action 0. -/
def execProvisionRootDigest (rq : Request) (s : State) : Host.Outcome State Fault Refusal := .next (update s rq)
/-- PROVISION_DEVICE_KEY: class 0x41, action 1. -/
def execProvisionDeviceKey (rq : Request) (s : State) : Host.Outcome State Fault Refusal := .next (update s rq)
/-- PROVISION_CERTIFICATE: class 0x41, action 2. -/
def execProvisionCertificate (rq : Request) (s : State) : Host.Outcome State Fault Refusal := .next (update s rq)
/-- PROVISION_SYSTEM_CAK: class 0x41, action 3. -/
def execProvisionSystemCak (rq : Request) (s : State) : Host.Outcome State Fault Refusal := .next (update s rq)
/-- BOOT_STEP_CLEAR: class 0x50. -/
def execBootStepClear (rq : Request) (s : State) : Host.Outcome State Fault Refusal := .next (update s rq)
/-- RETIREMENT_MAP_CLEAR: class 0x51, in SERVICE only. -/
def execRetirementMapClear (rq : Request) (s : State) : Host.Outcome State Fault Refusal := .next (update s rq)

/-! ### Ends of a quench (R461, R462) -/

/-- TENANT_SCRUB_COMPLETE: the longest scrub of a tenant's quench ends. -/
def execTenantScrubComplete (tenant : Fin 9) (s : State) : Host.Outcome State Fault Refusal :=
  let t := tenant.val
  .next (match SMap.get? s.k.quenches t with
  | none => s
  | some q => if q.zeroised && !q.scrubbed then drainOwn (scrubDone s t q) else s)

/-- KEY_RETIRE_ACK: a member reports phase 1, zeroised, or phase 2, scrubbed; or that one generation is gone. -/
def execKeyRetireAck (port : Fin 4) (f : FabFrame) (tenant : Fin 9) (gen : Option Nat) (phase : Nat) (s : State) :
    Host.Outcome State Fault Refusal :=
  let g := { f with type := 0x32, msg := some (.retireAck tenant.val gen phase) }
  .next (routed s port.val 0x32 f true (fun s => takeMsg s g) fun s => fabSend s g)

/-- QUENCH_ACK_TIMEOUT: a member has not acknowledged within 1 s: it is marked lost and not awaited any more. -/
def execQuenchAckTimeout (tenant : Fin 9) (member : BitVec 16) (s : State) : Host.Outcome State Fault Refusal :=
  let t := tenant.val
  let a := member.toNat
  .next (if (SMap.get? s.k.quenches t).any fun q => q.acks1.contains a || q.acks2.contains a then
    drainOwn (ackQuench (loseMember s a) t a true true)
  else s)

end Sys2Proof.Machine
end

