-- ==== Sys2Proof/Machine/Boot.lean ====
section
/-! DEFINITION. Sys2Proof/Machine/Boot.lean: cold and warm start (R283, R464, R497 to R504, R509), their failure policies, the boot
watchdog, and mode transitions with the start-up steps that wait for them. -/

namespace Sys2Proof.Machine

/-! ### The marks of a step (R497, R499, R504) -/

/-- The entry of step k in the boot record. -/
def stepEntry (s : State) (k : Nat) : BootStep := SMap.getD s.boot.steps k {}
/-- Change the entry of step k. -/
def modStep (s : State) (k : Nat) (f : BootStep → BootStep) : State :=
  onBoot s fun b => { b with steps := SMap.set b.steps k (f (SMap.getD b.steps k {})) }
/-- Device tick bits [31:0]. -/
def tick32 (s : State) : Nat := s.tick % 2 ^ 32
/-- STARTED. -/
def markStarted (s : State) (k : Nat) : State := modStep s k fun e => { e with state := 1, tStarted := tick32 s }
/-- DONE. -/
def markEnded (s : State) (k : Nat) : State := modStep s k fun e => { e with state := 2, tDone := tick32 s }
/-- FAILED. -/
def markFailed (s : State) (k : Nat) : State := modStep s k fun e => { e with state := 3, tDone := tick32 s }
/-- NOT_RUN. -/
def markNotRun (s : State) (k : Nat) : State := modStep s k fun e => { e with state := 4 }
/-- Is step k disabled (R500)? -/
def stepOff (s : State) (k : Nat) : Bool := bitOf (stepEntry s k).flags 2
/-- Does step k run in its alternate form? -/
def stepAlt (s : State) (k : Nat) : Bool := bitOf (stepEntry s k).flags 0

/-- The policies of R500. -/
inductive Policy where
  | retry | alternate | skip
  deriving DecidableEq, Repr

/-- R500: the policy of a step. -/
def policyOf (k : Nat) : Policy :=
  if k = 2 ∨ k = 4 ∨ k = 8 ∨ k = 9 ∨ k = 11 ∨ k = 12 then .alternate
  else if 15 ≤ k ∧ k ≤ 19 then .skip
  else .retry

/-- The firmware class that a step verifies and starts. -/
def stepClass (k : Nat) : Option Nat :=
  if k = 2 then some 0 else if k = 4 then some 1 else if k = 11 then some 3 else if k = 12 then some 2 else none

/-- The slot that a step loads from: the active one, in the alternate form the other (R513). -/
def slotFor (s : State) (k cls : Nat) : Nat :=
  let a := (fwOf s cls).active
  if stepAlt s k then 1 - a else a

/-- Is the slot of a step unusable by its version (R446, R513)? -/
def slotFails (s : State) (k : Nat) : Bool := (stepClass k).any fun c => slotDead s c (slotFor s k c)

/-- R499: a failure counts, is recorded (`how`: 0 failed, 1 interrupted) and is told; the third disables the step (R500). -/
def countFail (s : State) (k how : Nat) : State :=
  let s1 := modStep s k fun e =>
    let n := min 3 (e.fails + 1)
    { e with fails := n, flags := if n = 3 then setBits e.flags 2 2 1 else e.flags }
  let s2 := raiseEvent (logAppend s1 0x02 0xFF [k, how, (stepEntry s1 k).flags]) 0x0400 0xFFFF k
  if stepOff s2 k ∧ !stepOff s k then
    raiseEvent (logAppend s2 0x02 0xFF [k, 2, (stepEntry s2 k).flags]) 0x0401 0xFFFF k
  else s2

/-- R500, R517: the alternate form of a step from here on; a class in trial reverts to its other slot instead. -/
def takeAlternate (s : State) (k : Nat) : State :=
  match (stepClass k).filter (inTrial s) with
  | some c => revertSlot s c
  | none => modStep s k fun e =>
      { e with flags := if k = 8 ∧ bitOf e.flags 0 then setBits e.flags 1 1 1 else setBits e.flags 0 0 1 }

/-- R502: the start halts: recorded, printed, ALARM_N, main reset until an AON reset. -/
def haltAt (s : State) (k : Nat) : State :=
  let s1 := logAppend s 0x02 0xFF [k, 2, (stepEntry s k).flags]
  let t := mainReset (onBoot s1 fun b => { b with halted := some k, console := k :: b.console })
  { t with power := { t.power with cold := true } }

/-! ### Mailboxes, owners and tenants at B06 (R26, R464) -/

/-- R464, R465: the sender mask that Keeper gives mailbox m. -/
def bootMask (m : Nat) : Nat :=
  if m = 0 then 2 ^ 38
  else if m ≤ 4 then 2 ^ (38 + m)
  else if m = 5 then 2 ^ 43
  else if m ≤ 9 then 2 ^ (38 + m)
  else if m = 10 then 2 ^ 36
  else if m = 16 then 2 ^ 37
  else if m = 11 ∨ m = 12 ∨ (17 ≤ m ∧ m < 64) ∨ (112 ≤ m ∧ m < 116) then 0xF * 2 ^ 32
  else if 64 ≤ m ∧ m < 96 then 2 ^ (m - 64)
  else 0

/-- R26: the receiver that Keeper gives mailbox m. -/
def bootReceiver (m : Nat) : Nat :=
  if m = 11 then 0x08
  else if m = 12 then 0x40
  else if m = 17 then 0x10
  else if 32 ≤ m ∧ m < 64 then 0x20 + (m - 32)
  else if 112 ≤ m ∧ m < 116 then 0x41 + (m - 112)
  else 0

/-- MAILBOX_MASK_SETUP: masks and receivers of all 128 mailboxes, and the locks. -/
def setupMailboxes (s : State) : State :=
  let ms := span 0 128
  { s with mbx := { s.mbx with
      senderMask := ms.filterMap fun m => if bootMask m = 0 then none else some (m, BitVec.ofNat 64 (bootMask m))
      recv := ms.filterMap fun m => if bootReceiver m = 0 then none else some (m, word (0x1000 + bootReceiver m))
      lock := 0xFFFFFFFFFFFFFFFFFFFFFFFFFFFFFFFF } }

/-- The tenants of the security store have their partitions, keys and principals again (log 19). -/
def bringTenants (s : State) : State :=
  s.secStore.tenants.foldl (fun s t =>
    let gens := (s.secStore.keys.filter fun k => k.2.part == t.1).map fun k => k.2.count
    onMem (onK (setOwners s t.2 t.1) fun k =>
        { k with principals := SMap.set k.principals t.1 { perms := t.2.perms, limit := t.2.limit } })
      fun m => { m with keyGen := SMap.set m.keyGen t.1 (gens.foldl max 0) }) s

/-- R286: each partition's object table in fixed frames of its HBM units, once HBM is there. -/
def placeTables (s : State) : State :=
  (0 :: s.secStore.tenants.map Prod.fst).foldl (fun s p =>
    if (SMap.get? s.mm.objt p).isSome then s
    else match allocRun s p 64 with
      | some (t, fs) => onMem t fun m => { m with objt := SMap.set m.objt p { base := fs.headD 0 * 0x10000, limit := 65536 } }
      | none => s) s

/-! ### Calibration at B13 (R399, R509) -/

/-- Slots of the entries that go to the temperature and voltage monitors and the PLLs; the AON PLL takes its trims at an AON
reset alone. -/
def trimSlots (afterAon : Bool) : List Nat := (span 16 40).filter fun k => k != 41 || afterAon

/-- Copy calibration entries to the monitors and PLLs; `load` false: the built-in defaults. -/
def copyTrims (s : State) (load : Bool) : State :=
  onRas s fun r => { r with trims := (trimSlots s.power.afterAon).foldl (fun m k =>
    match (if load then SMap.get? s.boot.cal k else none) with
    | some e => SMap.set m k e.data
    | none => SMap.erase m k) r.trims }

/-- After an AON reset the microphone trims are written too. -/
def copyMicTrims (s : State) (load : Bool) : State :=
  if !s.power.afterAon then s
  else (span 0 16).foldl (fun s c => onAon s fun a =>
    { a with trim := SMap.put a.trim c (if load then trimWord s c else 0x4000) 0x4000 }) s

/-- Recording starts under the configuration that Keeper firmware writes; a run that is going on goes on. -/
def startRecording (s : State) : State :=
  if s.aon.run then s
  else onAon s fun a =>
    let b := s.power.obs.aonCfg.foldl (fun a c => aonConfig a c.1 c.2) a
    if runOk b then { b with run := true, runPos := b.pos } else { b with ringCfgErr := true }

/-! ### What each step does (R497) -/

/-- B05: the reset is recorded with RAS_ALARM, which is cleared, and with the causes of the reset (R493, R531, R545). -/
def recordReset (s : State) : State :=
  let c := s.power.resetCause.toNat
  let a0 := if bitOf c 2 then 4 else if bitOf c 3 then 3 else if s.boot.kind = 1 then 1 else 0
  let s1 := logAppend s 0x01 0xFF [a0, s.ras.alarm.toNat]
  let s2 := if bitOf c 4 then nextFree (logAppend s1 0x05 0 [1, (Config.freeWord s.freeCtr).toNat]) else s1
  let s3 := onRas s2 fun r => { r with alarm := 0, alarmForced := false }
  if s3.power.failLatch then
    let s4 := logAppend s3 0x01 0xFF [0, 0]
    { s4 with power := { s4.power with failLatch := false, resetCause := 0x20 } }
  else { s3 with power := { s3.power with resetCause := 0 } }

/-- B04 of a warm start: Keeper runs from the image cached in the PSRAM (R31). -/
def startCached (s : State) : State :=
  let at_ := (psRegion s (1 + s.boot.bank)).1
  let h := readMem s at_ headerLen
  let b := readMem s (at_ + headerLen) (min (bodyLen h) (bodyMax 1))
  extend { s with mem := Memory.writeBytes s.mem (keeperSramBase + s.boot.bank * 0xC0000) b } 1 h

/-- B04: Keeper starts. -/
def startKeeper (s : State) : State :=
  let s1 := trialStart s 1
  let s2 := if s1.boot.kind = 1 && !s1.power.obs.cacheBad then startCached s1
    else
      let slot := slotFor s1 4 1
      extend (loadKeeper s1 slot s1.boot.bank) 1 (slotHeader s1 1 slot)
  { s2 with power := { s2.power with started := true } }

/-- B06: masks, locks, owners; a message that the AON bridge held is delivered (R408), and staging begins where the gate is open. -/
def setupOwners (s : State) : State :=
  let s1 := setupMailboxes (bringTenants { s with own := { s.own with lock := true } })
  let s2 := if mbxFull s1.mbx 16 then { s1 with irqs := doorbells s1.mbx 16 ++ s1.irqs } else s1
  if s2.boot.kind = 1 then stageCopy s2 else s2

/-- B08: the stacks are trained; in the second alternate form only one of them. -/
def hbmUp (s : State) : State :=
  let off := if bitOf (stepEntry s 8).flags 1 then some (s.power.obs.stack % 2) else none
  placeTables { onMem s fun m => { m with hbmTrained := true } with board := { s.board with stackOff := off } }

/-- STORE_DIRECTORY_REBUILD: entries that are not complete are freed. -/
def rebuildStore (s : State) : State :=
  onDisk s fun d => { d with enumerated := true, dir := d.dir.filter fun e => e.2.valid,
                             bytes := d.bytes.filter fun b => (SMap.get? d.dir b.1).any fun e => e.valid }

/-- B20: the quenches that the boot record marks are finished (R462). -/
def finishQuenches (s : State) : State :=
  (bitsIn 9 s.boot.quench).foldl (fun s t =>
    let s1 := logAppend (scrubTenant (zeroTenant s t) t) 0x0A t [t, 4]
    onBoot s1 fun b => { b with quench := setBits b.quench t t 0 }) s

/-- A core above a mode is off. -/
def coresUpTo (s : State) (m : Mode) : State :=
  ((span 0 32).filter fun c => decide (modeNo m < modeNo (coreMode c))).foldl coreOff s

/-- B21: the mode is reached, Keeper latches (R403), and a request for it is answered. -/
def reachMode (s : State) (m : Mode) : State :=
  let s1 := latch <| onAon s fun a => { a with mode := m, target := m, goal := m, busy := false, up := false, wanted := none }
  rescheduleAll (askForJobs (checkSetMode (if m = .beacon then camToBeacon s1 else camToLantern s1)))

/-- What step k does. -/
def doStep (s : State) (k : Nat) : State :=
  match k with
  | 1 => onRas s fun r => { r with pllLocked := true }
  | 2 =>
    let s1 := trialStart s 0
    secRestart s1 (slotHeader s1 0 (slotFor s1 2 0))
  | 3 => onSec (extend s 4 (lifeEvent s)) fun x => { x with engines := x.slots }
  | 4 => systemQueues (startKeeper s)
  | 5 => recordReset s
  | 6 => setupOwners s
  | 7 => onMem s fun m => { m with psramReady := true }
  | 8 => hbmUp s
  | 9 => onMem s fun m => { m with lpTrained := true }
  | 10 => if s.boot.kind = 1 then s else (span 0 32).foldl powerCore s
  | 11 =>
    let s1 := trialStart s 3
    extend s1 3 (slotHeader s1 3 (slotFor s1 11 3))
  | 12 =>
    let s1 := trialStart s 2
    let slot := slotFor s1 12 2
    extend (loadDsp s1 slot) 2 (slotHeader s1 2 slot)
  | 13 => if s.boot.kind = 1 then copyTrims s true else startRecording (copyMicTrims (copyTrims s true) true)
  | 14 =>
    let on (s : State) (p : Nat) : State := modPort s p fun x =>
      if rbits s (portCfg p) 1 0 = 0 ∨ portBad s p then x else { x with state := 1 }
    rsetBits ([0, 1].foldl on s) hostCtrl 0 0 1
  | 15 => rebuildStore (if s.pcie.linkUp then s else pcieUp s)
  | 20 => finishQuenches s
  | 21 => reachMode s .lighthouse
  | _ =>
    let p := k - 16
    let s1 := onFab s fun b => { b with en := true }
    let s2 := modFabPort s1 p fun x => if fabRole s1 p = 0 ∨ x.faulty then x else { x with state := 1 }
    if p = 3 then moorStart s2 else s2

/-- The outcome of a step that is disabled, or whose retry has failed (R500). -/
def stepOutcome (s : State) (k : Nat) : State :=
  match k with
  | 9 => onMem s fun m => { m with noDeep := true, lpTrained := false }
  | 12 => raiseEvent s 0x0007
  | 13 =>
    if !s.power.obs.calFails then haltAt s 13
    else if s.boot.kind = 1 then copyTrims s false
    else startRecording (copyMicTrims (copyTrims s false) false)
  | 15 => s
  | 16 | 17 | 18 | 19 => modFabPort (rsetBits s (fabPortCfg (k - 16)) 1 0 0) (k - 16) fun x => { x with state := 0 }
  | 21 =>
    let m := s.power.obs.reached
    let s1 := coresUpTo { s with power := { s.power with ceiling := some m } } m
    raiseEvent (reachMode s1 m) 0x0404 0xFFFF (modeNo m)
  | _ => haltAt s k

/-- Does a step apply to this start (R497, R503)? -/
def stepApplies (s : State) (k : Nat) : Bool :=
  if k = 7 ∨ k = 21 then s.boot.kind == 0
  else if k = 12 then s.boot.kind == 0 && s.power.afterAon
  else if k = 15 then s.board.nvme
  else if k = 20 then s.boot.quench != 0
  else true

/-- Attempts at a step: `left` failures that it still reports, `last` where a further failure ends a retry. -/
def tryStep (s : State) (k left : Nat) (last : Bool) : Nat → State
  | 0 => s
  | n + 1 =>
    if stepOff s k then stepOutcome (markNotRun s k) k
    else
      let s1 := markStarted s k
      if s1.power.obs.stop = some k then { s1 with power := { s1.power with startAt := some k } }
      else if left = 0 ∧ !slotFails s1 k then
        let s2 := doStep s1 k
        if s2.power.mainReset then s2 else markEnded s2 k
      else
        let s2 := countFail (markFailed s1 k) k 0
        if stepOff s2 k then stepOutcome s2 k
        else match policyOf k with
          | .skip => s2
          | .retry => if last then stepOutcome s2 k else tryStep s2 k (left - 1) true n
          | .alternate => tryStep (takeAlternate s2 k) k (left - 1) last n

/-- How often a step reports a failure in this start. -/
def failsOf (s : State) (k : Nat) : Nat := (s.power.obs.fails.filter fun x => x == k).length

/-- One step of a start: left out, skipped after an interruption (R500), or attempted. -/
def runStep (s : State) (k : Nat) : State :=
  if !stepApplies s k then markNotRun s k
  else if policyOf k = .skip ∧ s.power.found.contains k ∧ !stepOff s k then s
  else tryStep s k (failsOf s k) (s.power.found.contains k) 4

/-- Steps in order; a halted start and one that waits in a step go no further.  Training ends with a command of its own. -/
def runSteps (s : State) (ks : List Nat) : State :=
  ks.foldl (fun s k =>
    if s.power.mainReset ∨ s.power.startAt.isSome then s
    else if (k = 8 ∨ k = 9) ∧ s.boot.kind = 0 ∧ !stepOff s k then
      let s1 := markStarted s k
      { s1 with power := { s1.power with startAt := some k } }
    else runStep s k) s

/-! ### The starts -/

/-- R501, R515: what UPDATE asked to be cleared is cleared at the next start. -/
def applyClears (s : State) : State :=
  let s1 := s.boot.clear.foldl (fun s k => modStep s k fun e => { e with fails := 0, flags := 0 }) s
  let s2 := onRas s1 fun r => { r with
    coresRetired := r.coresRetired.filter fun c => !bitOf s.boot.unretireCores c.1
    waysRetired := r.waysRetired.filter fun w => !bitOf s.boot.unretireWays w.1 }
  onBoot s2 fun b => { b with clear := [], unretireCores := 0, unretireWays := 0 }

/-- R499: the steps found STARTED count as failures, and those of policy ALTERNATE take their alternate form. -/
def applyFound (s : State) (ks : List Nat) : State :=
  ks.foldl (fun s k =>
    let s1 := countFail (markFailed s k) k 1
    if policyOf k = .alternate ∧ !stepOff s1 k then takeAlternate s1 k else s1) s

/-- A start begins: its kind, its number, what is cleared and what the last start left STARTED. -/
def beginStart (s : State) (kind : Nat) (obs : StartObs) : State :=
  let s1 := applyClears (onBoot s fun b => { b with kind := kind, bootCount := (b.bootCount + 1) % 2 ^ 32 })
  let found := (span 1 21).filter fun k => (stepEntry s1 k).state == 1
  applyFound { s1 with power := { s1.power with found := found, obs := obs, late := kind == 1 } } found

/-- May a start begin: main reset is released, and no start has run since? -/
def startDue (s : State) : Bool :=
  !s.power.mainReset && !s.power.started && s.power.startAt.isNone && s.boot.halted.isNone

/-- R441: does firmware run from the flash in this life-cycle state?  In RAW and RETIRED the boot ROM goes no further. -/
def firmwareRuns (s : State) : Bool := lifeCycle s != 0 && lifeCycle s != 4

/-- The end of a start: what follows an AON reset has been done. -/
def endStart (s : State) : State :=
  if s.power.startAt.isNone ∧ !s.power.mainReset then { s with power := { s.power with afterAon := false } } else s

/-- COLD_START: B01 to B21; the training of HBM and of LPDDR5X ends with MEMORY_TRAINING_DONE, with which the start goes on (log 41). -/
def execColdStart (obs : StartObs) (s : State) : Host.Outcome State Fault Refusal :=
  .next (if !startDue s || !s.power.cold then s
  else
    let s1 := beginStart s 0 obs
    if firmwareRuns s then endStart (runSteps s1 (span 1 21))
    else
      let s2 := runStep s1 1
      { s2 with power := { s2.power with startAt := some 2 } })

/-- MEMORY_TRAINING_DONE: HBM or LPDDR5X training ends, in B08 or B09: of a cold start, which goes on; of a warm one in the background. -/
def execMemoryTrainingDone (hbm : Bool) (s : State) : Host.Outcome State Fault Refusal :=
  let k := if hbm then 8 else 9
  .next (if s.power.mainReset ∨ (stepEntry s k).state ≠ 1 then s
  else if s.boot.kind = 1 then (if s.power.started then runStep s k else s)
  else if s.power.startAt = some k then
    let s1 := runStep { s with power := { s.power with startAt := none } } k
    endStart (runSteps s1 (span (k + 1) (21 - k)))
  else s)

/-- WARM_START: B01 to B06 and the first part of B13; the rest runs as the mode climbs (R503). -/
def execWarmStart (obs : StartObs) (s : State) : Host.Outcome State Fault Refusal :=
  .next (if !startDue s || s.power.cold then s
  else
    let s1 := beginStart s 1 obs
    if !firmwareRuns s then
      let s2 := runStep s1 1
      { s2 with power := { s2.power with startAt := some 2 } }
    else
      let s2 := runSteps s1 [1, 2, 3]
      let s3 := if obs.cacheBad && !s2.power.mainReset && s2.power.startAt.isNone then countFail s2 4 0 else s2
      runSteps s3 [4, 5, 6, 13, 7, 12, 21])

/-- BOOT_WATCHDOG: B21 is not DONE 30 s after the release of main reset: main reset, and a trial reverts (R498, R517). -/
def execBootWatchdog (s : State) : Host.Outcome State Fault Refusal :=
  .next (if s.power.mainReset || decide (s.tick < 30 * ticksPerSecond) || (s.power.started && s.power.startAt.isNone) then s
  else
    let t := mainReset ((span 0 4).foldl trialFault s)
    releaseMain { t with power := { t.power with cold := true, resetCause := 4 } })

/-! ### The steps of a warm start that wait for a mode (R503) -/

/-- As the mode climbs to BEACON: B10, B11, B14 and B20; then the training begins in the background. -/
def climbBeacon (s : State) : State :=
  let s1 := runSteps s [10, 11, 14, 20]
  if s1.power.mainReset ∨ s1.power.startAt.isSome then s1
  else
    let s2 := if stepOff s1 8 then runStep s1 8 else markStarted s1 8
    if s2.power.mainReset then s2
    else if stepOff s2 9 then runStep s2 9
    else markStarted s2 9

/-- R33: the models of the resume list are loaded again, in their order (log 21). -/
def reloadModels (s : State) : State :=
  (span 0 s.boot.resume.length).foldl (fun s i => match s.boot.resume[i]? with
    | some r => openStored s (i * 2 ^ 20) r.part r.args
    | none => s) s

/-- LANTERN is reached for the first time: B15, the reload, and B16 to B19. -/
def climbLantern (s : State) : State :=
  let s1 := runSteps { s with power := { s.power with late := false } } [15]
  if s1.power.mainReset ∨ s1.power.startAt.isSome then s1
  else runSteps (if driveHere s1 then reloadModels s1 else s1) [16, 17, 18, 19]

/-- MODE_TRANSITION_COMPLETE, with the steps of a warm start that the mode reached lets run. -/
def execModeTransitionComplete (s : State) : Host.Outcome State Fault Refusal :=
  let t := endTransition s
  .next (if t.boot.kind ≠ 1 ∨ !t.power.started ∨ t.power.mainReset then t
  else if s.aon.mode = .buoy ∧ t.aon.mode = .beacon then climbBeacon t
  else if t.power.late ∧ 2 ≤ modeNo t.aon.mode then climbLantern t
  else t)

/-- BACKGROUND_TRAINING_DONE: HBM and LPDDR5X are trained after a warm start, and steps B08 and B09 are done (R503). -/
def execBackgroundTrainingDone (s : State) : Host.Outcome State Fault Refusal :=
  let one (s : State) (k : Nat) : State := if !s.power.mainReset && (stepEntry s k).state == 1 then runStep s k else s
  .next (if !s.power.started || s.boot.kind != 1 then s else one (one s 8) 9)

end Sys2Proof.Machine
end

