-- ==== Sys2Proof/Machine/Peri.lean ====
section
/-! DEFINITION. Sys2Proof/Machine/Peri.lean: the PERI block: flash controller, I2C, SPI, GPIO and UART (R548 to R552). -/

namespace Sys2Proof.Machine

/-- Change the PERI block. -/
def onPeri (s : State) (f : Peri → Peri) : State := { s with peri := f s.peri }

/-- A write to a PERI register: Keeper alone reaches the block (R19). -/
def periWrite (s : State) (by_ : Req) (f : State → State) : State :=
  if reaches by_ true .periRegs then busOk (f s) else busError s

/-- A read of a PERI register that answers with a word. -/
def periRead (s : State) (by_ : Req) (f : State → State × Word) : State :=
  if reaches by_ false .periRegs then busData (f s).1 (f s).2 else busError s

/-! ### OSPI flash (R549) -/

/-- Base of the flash window (R19). -/
def flashWindow : Nat := 0x00F060000000
/-- Its size. -/
def flashSize : Nat := 0x10000000
/-- Change the flash controller. -/
def onOspi (s : State) (f : Ospi → Ospi) : State := onPeri s fun p => { p with ospi := f p.ospi }
/-- PERI_OSPI_CMD.dir: 0 no data, 1 write, 2 read. -/
def ospiDir (o : Ospi) : Nat := bits o.cmd.toNat 15 14

/-- A window read answers with the word at its address. -/
def flashAnswer (s : State) (a : Nat) : State := busData s (word (Memory.le s.mem a 4))

/-- The window reads that waited are answered in order. -/
def flashWaits (s : State) : State :=
  s.peri.ospi.waits.foldl (fun s r => flashAnswer s r.addr) (onOspi s fun o => { o with waits := [] })

/-- A write of PERI_OSPI_GO.  While a command runs, and with a length above 256, the write starts nothing (DESIGN CHOICE, log
31). -/
def ospiGo (s : State) (v : Word) : State :=
  let n := bits v.toNat 8 0
  onOspi s fun o => if o.busy ∨ 256 < n then o else { o with busy := true, len := n }

/-- PERI_OSPI_GO. -/
def execPeriOspiGo (by_ : Req) (v : Word) (s : State) : Host.Outcome State Fault Refusal :=
  .next (periWrite s by_ fun s => ospiGo s v)

/-- OSPI_WINDOW_READ: a read of the aligned word at an offset of the flash window. -/
def execOspiWindowRead (by_ : Req) (off : BitVec 28) (s : State) : Host.Outcome State Fault Refusal :=
  let a := flashWindow + off.toNat
  .next (if !reaches by_ false .flash || off.toNat % 4 != 0 then busError s
  else if s.peri.ospi.busy then onOspi s fun o => { o with waits := o.waits ++ [{ by_ := by_, addr := a }] }
  else flashAnswer s a)

/-- Read data goes into PERI_OSPI_BUF from byte 0. -/
def ospiFill (o : Ospi) (data : List Byte) : SMap Byte :=
  if ospiDir o = 2 then (span 0 (min o.len data.length)).foldl (fun b k => SMap.put b k (data.getD k 0) 0) o.buf else o.buf

/-- What a command changed in the flash: bytes by offset. -/
def flashChange (s : State) (ch : List Host.Cell) : State :=
  { s with mem := Memory.writeCells s.mem ((ch.filter fun c => decide (c.1 < flashSize)).map fun c => (flashWindow + c.1, c.2)) }

/-- OSPI_COMMAND_DONE, with the read data and what the command changed in the flash, which acts by JESD251. -/
def execOspiCommandDone (data : List Byte) (ch : List (Nat × Byte)) (s : State) : Host.Outcome State Fault Refusal :=
  .next (if !s.peri.ospi.busy then s
  else flashWaits (onOspi (flashChange s ch) fun o => { o with busy := false, buf := ospiFill o data }))

/-- OSPI_COMMAND_TIMEOUT: 10 ms after the command began. -/
def execOspiCommandTimeout (s : State) : Host.Outcome State Fault Refusal :=
  .next (if !s.peri.ospi.busy then s
  else flashWaits (onOspi s fun o => { o with busy := false, err := true }))

/-! ### I2C (R550) -/

/-- An I2C controller. -/
def i2cOf (s : State) (b : Nat) : I2c := SMap.getD s.peri.i2c b {}
/-- Change it. -/
def modI2c (s : State) (b : Nat) (f : I2c → I2c) : State :=
  onPeri s fun p => { p with i2c := SMap.put p.i2c b (f (i2cOf s b)) {} }
/-- Bytes of the transfer that PERI_I2C_CMD describes. -/
def i2cLen (c : I2c) : Nat := bits c.cmd.toNat 4 0 + 1
/-- Does it read from the target? -/
def i2cReads (c : I2c) : Bool := bitOf c.cmd.toNat 30
/-- Does it end with a stop? -/
def i2cStops (c : I2c) : Bool := bitOf c.cmd.toNat 29

/-- A write of PERI_I2C_CMD: its fields, and with go a transfer, which the end of a held transfer's bus makes begin with a
repeated start.  While a transfer runs the write changes nothing (DESIGN CHOICE, log 31). -/
def i2cCommand (c : I2c) (v : Word) : I2c :=
  if c.busy then c
  else
    let c1 := { c with cmd := v &&& 0x73FF001F#32 }
    if bitOf v.toNat 31 then { c1 with busy := true, repeated := c.held } else c1

/-- I2C_TRANSFER. -/
def execI2cTransfer (by_ : Req) (b : Fin 4) (v : Word) (s : State) : Host.Outcome State Fault Refusal :=
  .next (periWrite s by_ fun s => modI2c s b.val fun c => i2cCommand c v)

/-- The bytes that a transfer moved: sent ones leave the transmit FIFO, read ones enter the receive FIFO of 32. -/
def i2cMove (c : I2c) (sent : Nat) (data : List Byte) : I2c :=
  if i2cReads c then { c with rx := (c.rx ++ data.take (i2cLen c)).take 32 } else { c with tx := c.tx.drop (min sent (i2cLen c)) }

/-- A transfer ends: done, and Keeper hart 0 is interrupted. -/
def i2cEnd (s : State) (b : Nat) (f : I2c → I2c) : State :=
  let t := modI2c s b fun c => { f c with busy := false, done := true, repeated := false }
  { t with irqs := .i2c b :: t.irqs }

/-- I2C_TRANSFER_DONE, with the bytes moved; a lost arbitration leaves the bus to the other controller. -/
def execI2cTransferDone (b : Fin 4) (sent : Nat) (data : List Byte) (nack arbLost : Bool) (s : State) :
    Host.Outcome State Fault Refusal :=
  .next (if !(i2cOf s b.val).busy then s
  else i2cEnd s b.val fun c =>
    { i2cMove c sent data with nack := c.nack || nack, arbLost := c.arbLost || arbLost, held := !i2cStops c && !arbLost })

/-- I2C_STRETCH_TIMEOUT: ended with a stop. -/
def execI2cStretchTimeout (b : Fin 4) (sent : Nat) (data : List Byte) (s : State) : Host.Outcome State Fault Refusal :=
  .next (if !(i2cOf s b.val).busy then s
  else i2cEnd s b.val fun c => { i2cMove c sent data with timeout := true, held := false })

/-- I2C_FIFO_WRITE: a full FIFO takes no byte (DESIGN CHOICE, log 31). -/
def execI2cFifoWrite (by_ : Req) (b : Fin 4) (v : Byte) (s : State) : Host.Outcome State Fault Refusal :=
  .next (periWrite s by_ fun s => modI2c s b.val fun c => { c with tx := (c.tx ++ [v]).take 32 })

/-- I2C_FIFO_READ: an empty FIFO reads 0. -/
def execI2cFifoRead (by_ : Req) (b : Fin 4) (s : State) : Host.Outcome State Fault Refusal :=
  .next (periRead s by_ fun s =>
    (modI2c s b.val fun c => { c with rx := c.rx.drop 1 }, word ((i2cOf s b.val).rx.headD 0).toNat))

/-! ### SPI (R551) -/

/-- An SPI controller. -/
def spiOf (s : State) (b : Nat) : Spi := SMap.getD s.peri.spi b {}
/-- Change it. -/
def modSpi (s : State) (b : Nat) (f : Spi → Spi) : State :=
  onPeri s fun p => { p with spi := SMap.put p.spi b (f (spiOf s b)) {} }

/-- A write of PERI_SPI_CMD: its fields, and with go a transfer under the chip select of the configuration.  While a transfer
runs the write changes nothing (DESIGN CHOICE, log 31). -/
def spiCommand (c : Spi) (v : Word) : Spi :=
  if c.busy then c
  else
    let c1 := { c with hold := bitOf v.toNat 8, len := bits v.toNat 5 0 }
    if bitOf v.toNat 31 then { c1 with busy := true, cs := some (bits c.cfg.toNat 1 0) } else c1

/-- SPI_TRANSFER. -/
def execSpiTransfer (by_ : Req) (b : Fin 2) (v : Word) (s : State) : Host.Outcome State Fault Refusal :=
  .next (periWrite s by_ fun s => modSpi s b.val fun c => spiCommand c v)

/-- Bytes that a transfer sends: its length, or what the transmit FIFO holds if that is less (DESIGN CHOICE, log 31). -/
def spiCount (c : Spi) : Nat := min (c.len + 1) c.tx.length

/-- SPI_TRANSFER_DONE: each byte sent brought one in. -/
def execSpiTransferDone (b : Fin 2) (data : List Byte) (s : State) : Host.Outcome State Fault Refusal :=
  .next (if !(spiOf s b.val).busy then s
  else
    let t := modSpi s b.val fun c =>
      { c with busy := false, done := true, tx := c.tx.drop (spiCount c), rx := (c.rx ++ data.take (spiCount c)).take 64,
               cs := if c.hold then c.cs else none }
    { t with irqs := .spi b.val :: t.irqs })

/-- SPI_FIFO_WRITE: a full FIFO takes no byte (DESIGN CHOICE, log 31). -/
def execSpiFifoWrite (by_ : Req) (b : Fin 2) (v : Byte) (s : State) : Host.Outcome State Fault Refusal :=
  .next (periWrite s by_ fun s => modSpi s b.val fun c => { c with tx := (c.tx ++ [v]).take 64 })

/-- The byte at the front of a FIFO whose empty read the spec does not give: free then (log 31). -/
def fifoFront (s : State) (q : List Byte) : Word :=
  match q with
  | [] => Config.freeWord s.freeCtr &&& 0xFF#32
  | b :: _ => word b.toNat

/-- SPI_FIFO_READ. -/
def execSpiFifoRead (by_ : Req) (b : Fin 2) (s : State) : Host.Outcome State Fault Refusal :=
  .next (periRead s by_ fun s =>
    ({ modSpi s b.val fun c => { c with rx := c.rx.drop 1 } with freeCtr := s.freeCtr + 1 }, fifoFront s (spiOf s b.val).rx))

/-! ### GPIO (R552) -/

/-- Does a pin's interrupt type match a change of its synchronised level? -/
def gpioMatch (type : Nat) (was now : Bool) : Bool :=
  match type with
  | 0 => !was && now
  | 1 => was && !now
  | 2 => was != now
  | _ => !now

/-- GPIO_INTERRUPT: the synchronised level of a pin, as PERI_GPIO_IN comes to show it. -/
def execGpioInterrupt (pin : Fin 16) (level : Bool) (s : State) : Host.Outcome State Fault Refusal :=
  let k := pin.val
  let was := bitOf s.peri.gpioIn k
  let s1 := onPeri s fun p => { p with gpioIn := setBits p.gpioIn k k (b2n level) }
  .next (if bitOf s.peri.gpioEn k && gpioMatch (bits s.peri.gpioType (2 * k + 1) (2 * k)) was level then
    { onPeri s1 fun p => { p with gpioIrq := p.gpioIrq ||| 2 ^ k } with irqs := .gpio k :: s.irqs }
  else s1)

/-! ### UART (R552) -/

/-- Does the UART run? -/
def uartOn (s : State) : Bool := bitOf s.peri.uartCfg.toNat 16

/-- UART_DATA_WRITE: a full FIFO takes no byte (DESIGN CHOICE, log 31). -/
def execUartDataWrite (by_ : Req) (v : Byte) (s : State) : Host.Outcome State Fault Refusal :=
  .next (periWrite s by_ fun s => onPeri s fun p => { p with uartTx := (p.uartTx ++ [v]).take 64 })

/-- UART_DATA_READ. -/
def execUartDataRead (by_ : Req) (s : State) : Host.Outcome State Fault Refusal :=
  .next (periRead s by_ fun s =>
    ({ onPeri s fun p => { p with uartRx := p.uartRx.drop 1 } with freeCtr := s.freeCtr + 1 }, fifoFront s s.peri.uartRx))

/-- UART_RX_BYTE. -/
def execUartRxByte (v : Byte) (s : State) : Host.Outcome State Fault Refusal :=
  .next (if !uartOn s then s
  else onPeri s fun p => if p.uartRx.length < 64 then { p with uartRx := p.uartRx ++ [v] } else { p with uartOverrun := true })

/-- UART_TX_BYTE_DONE: PERI_UART_STATUS.tx_busy is 1 while the FIFO holds a byte. -/
def execUartTxByteDone (s : State) : Host.Outcome State Fault Refusal :=
  .next (if !uartOn s then s
  else onPeri s fun p => { p with uartTx := p.uartTx.drop 1, uartSent := p.uartTx.take 1 ++ p.uartSent })

/-- PERI_UART_STATUS. -/
def uartStatus (s : State) : Word :=
  word (b2n s.peri.uartOverrun * 8 + b2n s.peri.uartRx.isEmpty * 4 + b2n (decide (64 ≤ s.peri.uartTx.length)) * 2
    + b2n (uartOn s && !s.peri.uartTx.isEmpty))

/-! ### Registers without a row of their own (R548 to R552) -/

/-- PERI_OSPI_CFG as written: a divider of 0 is ignored. -/
def ospiCfg (old v : Word) : Word :=
  let w := v &&& 0xFFFF00FC#32
  if bits w.toNat 7 4 = 0 then (w &&& ~~~0xF0#32) ||| (old &&& 0xF0#32) else w
/-- PERI_OSPI_CMD as written: a dir of 3 is ignored. -/
def ospiCmd (old v : Word) : Word :=
  let w := v &&& 0x00FFE0FF#32
  if bits w.toNat 15 14 = 3 then (w &&& ~~~0xC000#32) ||| (old &&& 0xC000#32) else w
/-- PERI_SPI_CFG as written: a divider below 2 is ignored. -/
def spiCfg (old v : Word) : Word :=
  let w := v &&& 0xFF0F#32
  if bits w.toNat 15 8 < 2 then (w &&& ~~~0xFF00#32) ||| (old &&& 0xFF00#32) else w
/-- PERI_UART_CFG as written: a divider of 0 is ignored. -/
def uartCfgOf (old v : Word) : Word :=
  let w := v &&& 0x1FFFF#32
  if bits w.toNat 15 0 = 0 then (w &&& ~~~0xFFFF#32) ||| (old &&& 0xFFFF#32) else w

/-- Word k of PERI_OSPI_BUF. -/
def ospiBufWrite (b : SMap Byte) (k : Nat) (v : Word) : SMap Byte :=
  (span 0 4).foldl (fun b i => SMap.put b (4 * k + i) (BitVec.ofNat 8 (v.toNat / 2 ^ (8 * i))) 0) b

/-- A write at an offset of the block; none where it holds no register or the register has a row of its own. -/
def periPlain (off : Nat) (v : Word) (s : State) : Option State :=
  if off = 0 then some (onOspi s fun o => { o with cfg := ospiCfg o.cfg v })
  else if off = 4 then some (onOspi s fun o => { o with err := o.err && !bitOf v.toNat 1 })
  else if off = 8 then some (onOspi s fun o => { o with cmd := ospiCmd o.cmd v })
  else if off = 0xC then some (onOspi s fun o => { o with addr := v })
  else if 0x100 ≤ off ∧ off < 0x200 then some (onOspi s fun o => { o with buf := ospiBufWrite o.buf ((off - 0x100) / 4) v })
  else if 0x1000 ≤ off ∧ off < 0x1400 then
    let b := (off - 0x1000) / 0x100
    match off % 0x100 with
    | 0 => some (modI2c s b fun c => if bits v.toNat 1 0 = 3 then c else { c with speed := bits v.toNat 1 0 })
    | 8 => some (modI2c s b fun c =>
        { c with done := c.done && !bitOf v.toNat 4, timeout := c.timeout && !bitOf v.toNat 3,
                 arbLost := c.arbLost && !bitOf v.toNat 2, nack := c.nack && !bitOf v.toNat 1 })
    | _ => none
  else if 0x2000 ≤ off ∧ off < 0x2200 then
    let b := (off - 0x2000) / 0x100
    match off % 0x100 with
    | 0 => some (modSpi s b fun c => { c with cfg := spiCfg c.cfg v })
    | 8 => some (modSpi s b fun c => { c with done := c.done && !bitOf v.toNat 1 })
    | _ => none
  else match off with
    | 0x3000 => some (onPeri s fun p => { p with gpioDir := bits v.toNat 15 0 })
    | 0x3004 => some (onPeri s fun p => { p with gpioOut := bits v.toNat 15 0 })
    | 0x3008 => some s
    | 0x300C => some (onPeri s fun p => { p with gpioEn := bits v.toNat 15 0 })
    | 0x3010 => some (onPeri s fun p => { p with gpioType := v.toNat })
    | 0x3014 => some (onPeri s fun p => { p with gpioIrq := p.gpioIrq &&& (0xFFFF ^^^ bits v.toNat 15 0) })
    | 0x4000 => some (onPeri s fun p => { p with uartCfg := uartCfgOf p.uartCfg v })
    | 0x4004 => some (onPeri s fun p => { p with uartOverrun := p.uartOverrun && !bitOf v.toNat 3 })
    | _ => none

end Sys2Proof.Machine
end

