-- ==== Sys2Proof/Machine/Bus.lean ====
section
/-! DEFINITION. Sys2Proof/Machine/Bus.lean: a write to a register (R8, R9, R19, R20): every register of every block, with the
rules that its own table gives it.  A register block's write answers none at an offset that holds no register, and for a
requester that the register refuses. -/

namespace Sys2Proof.Machine

/-! ### Helpers -/

/-- The index k of a register at base + stride × k, of n such registers. -/
def regIx (off base stride n : Nat) : Option Nat :=
  if base ≤ off ∧ off < base + stride * n ∧ (off - base) % stride = 0 then some ((off - base) / stride) else none

/-- Is there a read-only register at an offset?  Each entry is base, stride and count. -/
def roAt (l : List (Nat × Nat × Nat)) (off : Nat) : Bool := l.any fun e => (regIx off e.1 e.2.1 e.2.2).isSome

/-- Keep bits [hi:lo] of the old word where the new ones break their range (R9: "ignored on write"). -/
def keepBits (old v : Word) (hi lo : Nat) (ok : Nat → Bool) : Word :=
  if ok (bits v.toNat hi lo) then v else word (setBits v.toNat hi lo (bits old.toNat hi lo))

/-- An owner field: 0 to 8; ignored while owner_lock is 1 and above 8 (R289). -/
def ownerPut (o : Owners) (m : SMap Nat) (k : Nat) (v : Word) : SMap Nat :=
  if o.lock ∨ 8 < bits v.toNat 3 0 then m else SMap.put m k (bits v.toNat 3 0) 0

/-! ### SYS (R545, R546) -/

/-- A write to a SYS register. -/
def sysWrite (s : State) (off : Nat) (v : Word) : Option State :=
  if off = 0x8 then some { s with power := { s.power with resetCause := w1c s.power.resetCause v 0x3F } }
  else if off = 0x20 then
    let a := sysRegBase + 0x20
    let ok (x : Nat) : Bool := decide (20 ≤ x) && decide (x ≤ 60)
    some (rwrite s a (keepBits (rget s a) (keepBits (rget s a) v 7 0 ok) 23 16 ok))
  else if roAt [(0x0, 4, 2), (0x10, 4, 2), (0x24, 4, 4), (0x100, 4, 18)] off then some s
  else none

/-! ### Cores (R95 to R102) -/

/-- A write of CORE_CTRL: stop first, then clear_resident and the RWB fields (R97). -/
def coreCtrl (s : State) (n : Nat) (v : Word) : State :=
  let x := v.toNat
  ctrlWrite (if bitOf x 3 then stopCore s n else s) n fun c =>
    { c with clearPending := c.clearPending || bitOf x 4, shEnable := bitOf x 0, shRetire := bitOf x 1, shBistHold := bitOf x 2 }

/-- A write to a register of core n. -/
def coreWrite (s : State) (n off : Nat) (v : Word) : Option State :=
  if off = 0x4 then some (coreCtrl s n v)
  else if off = 0x40 then some (onCore s n fun c => { c with fault := w1c c.fault v 0x7F0F })
  else if off = 0x58 then some (onCore s n fun c => { c with duty := v &&& 0xFF })
  else if roAt [(0x0, 4, 1), (0x8, 4, 4), (0x20, 4, 5), (0x44, 4, 5), (0x5C, 4, 1), (0x1000, 4, 1024), (0x2000, 4, 256)] off then
    some s
  else none

/-! ### MEM (R286 to R291) -/

/-- Does partition p have a running command? -/
def partRuns (s : State) (p : Nat) : Bool :=
  s.cores.any fun e => (e.2.st == .running || e.2.st == .stopping) && corePart s e.1 == p

/-- A word of MEM_OBJT[p] as written: the base is a multiple of 64, the limit at most 65,536. -/
def objtWord (t : ObjTable) (w : Nat) (v : Word) : ObjTable :=
  let x := v.toNat
  match w with
  | 0 => { t with base := setBits t.base 31 0 (x / 64 * 64) }
  | 1 => { t with base := setBits t.base 47 32 (bits x 15 0) }
  | 2 => if bits x 16 0 ≤ 65536 then { t with limit := bits x 16 0 } else t
  | _ => t

/-- A write to a MEM register. -/
def memRegWrite (s : State) (off : Nat) (v : Word) : Option State :=
  if off = 0x4 then
    let s1 := if bitOf v.toNat 1 then otcInvalidate s else s
    some (onMem s1 fun m => { m with promoPause := bitOf v.toNat 0 })
  else match regIx off 0x100 4 32, regIx off 0x180 4 8, regIx off 0x200 4 36 with
  | some u, _, _ => some { s with own := { s.own with hbm := ownerPut s.own s.own.hbm u v } }
  | _, some c, _ => some { s with own := { s.own with lp := ownerPut s.own s.own.lp c v } }
  | _, _, some k =>
    if partRuns s (k / 4) then some s
    else some (onMem s fun m => { m with objt := SMap.put m.objt (k / 4) (objtWord (SMap.getD m.objt (k / 4) {}) (k % 4) v) {} })
  | none, none, none => if roAt [(0x0, 4, 1), (0x8, 4, 2), (0x400, 4, 6), (0x500, 4, 8)] off then some s else none

/-! ### SCHED (R321 to R326) -/

/-- A word of a SCHED_SECTOR as written. -/
def sectorWord (x : Sector) (w : Nat) (v : Word) : Sector :=
  let n := v.toNat
  match w with
  | 0 => { x with valid := bitOf n 31, releaseIdle := bitOf n 30, start := bits n 23 10, queue := bits n 9 0 }
  | 1 => { x with length := bits n 13 0 }
  | 2 => { x with coreSet := n }
  | _ => { x with guardUs := bits n 7 0 }

/-- A write to a SCHED register. -/
def schedWrite (s : State) (off : Nat) (v : Word) : Option State :=
  match regIx off 0x100 4 36, regIx off 0x1000 4 2048, regIx off 0x4000 4 2048 with
  | some k, _, _ =>
    let p := k / 4
    if k % 4 = 0 then some (setRot s p { rotOf s p with shPeriod := bits v.toNat 13 0 })
    else if k % 4 = 1 then some (rotWrite s p v)
    else some s
  | _, some k, _ =>
    some { s with sched := { s.sched with
      shSectors := SMap.put s.sched.shSectors (k / 4) (sectorWord (shSector s (k / 4)) (k % 4) v) {} } }
  | _, _, some k =>
    let a := schedRegBase + off
    some (rwrite s a (if k % 2 = 0 then
      keepBits (rget s a) (keepBits (rget s a) v 29 28 fun x => x != 3) 3 0 fun x => decide (x ≤ 8) else v))
  | none, none, none => if roAt [(0x0, 4, 7)] off then some (rwrite s (schedRegBase + off) v) else none

/-! ### FAB (R384 to R390) -/

/-- A write of FAB_CTRL. -/
def fabCtrl (s : State) (v : Word) : State :=
  let x := v.toNat
  let s1 := onFab s fun f => { f with en := bitOf x 0 }
  let s2 := if bitOf x 3 then routeCommit s1 else s1
  let s3 := if bitOf x 2 then moorStart s2 else s2
  fabRestart s3 (bits x 7 4)

/-- A write to a FAB register. -/
def fabWrite (s : State) (off : Nat) (v : Word) : Option State :=
  if off = 0x4 then some (fabCtrl s v)
  else if off = 0xC then some (onFab s fun f => { f with segment := bits v.toNat 3 0 })
  else if roAt [(0x20, 4, 4), (0x100, 4, 16)] off then some (rwrite s (fabRegBase + off) v)
  else if roAt [(0x0, 4, 1), (0x8, 4, 1), (0x10, 4, 1), (0x30, 4, 8), (0x200, 4, 8)] off then some s
  else none

/-! ### HOST (R356 to R360) -/

/-- A write of HOST_CTRL: the fields that stay, then failover and the restarts. -/
def hostCtrlWrite (s : State) (v : Word) : State :=
  let x := v.toNat
  let s1 := rwrite s hostCtrl v
  let s2 := if bitOf x 1 then failTo s1 (1 - s1.activePort) else s1
  let s3 := if bitOf x 2 then portRestart s2 0 else s2
  if bitOf x 3 then portRestart s3 1 else s3

/-- A write of HOST_PORT_CFG: role 0b11 is ignored, and macsec_off in FIELD. -/
def portCfgWrite (s : State) (a : Nat) (v : Word) : State :=
  let w := keepBits (rshadow s a) v 1 0 fun x => x != 3
  rwrite s a (keepBits 0 w 5 5 fun _ => lifeCycle s != 2)

/-- A write to a HOST register. -/
def hostWrite (s : State) (off : Nat) (v : Word) : Option State :=
  if off = 0x4 then some (hostCtrlWrite s v)
  else if roAt [(0x8, 4, 6)] off then some (rwrite s (hostRegBase + off) v)
  else if roAt [(0x20, 4, 2)] off then some (portCfgWrite s (hostRegBase + off) v)
  else if roAt [(0x0, 4, 1), (0x28, 4, 4), (0x100, 4, 7)] off then some s
  else none

/-! ### AON (R416 to R421) -/

/-- A write of AON_CTRL by Keeper or the DSP; dsp_reset and run are Keeper's, and a write that keeps their values does nothing
to them (DESIGN CHOICE, log 42). -/
def aonCtrl (s : State) (keeper : Bool) (v : Word) : State :=
  let x := v.toNat
  let s1 := if bitOf x 1 then latch s else s
  if !keeper then s1
  else
    let s2 := if bitOf x 2 = s1.aon.dspReset then s1 else dspReset s1 (bitOf x 2)
    if bitOf x 0 = s2.aon.run then s2 else if bitOf x 0 then runStart s2 else runStop s2

/-- A write of AON_GATE: Keeper's alone. -/
def gateWrite (s : State) (v : Word) : State :=
  let s1 := if bitOf v.toNat 1 then closeGate s else s
  if bitOf v.toNat 2 then serviceOpen s1 else s1

/-- A write of AON_CAND: the DSP's alone. -/
def candWrite (s : State) (v : Word) : State :=
  let s1 := if bitOf v.toNat 1 ∧ s.aon.candOpen then closeCandidate s else s
  if bitOf v.toNat 2 then candidateOpen s1 else s1

/-- The configuration register at an AON offset. -/
def aonRegAt (off : Nat) : Option AonReg :=
  if off = 0x10 then some .ringCfg
  else if off = 0x14 then some .ringSize
  else if off = 0x80 then some (.pdm 0)
  else if off = 0x84 then some (.pdm 1)
  else (regIx off 0x100 4 16).map fun c => .trim (Fin.ofNat 16 c)

/-- A write to an AON register by Keeper, or else by the DSP. -/
def aonRegWrite (s : State) (keeper : Bool) (off : Nat) (v : Word) : Option State :=
  let x := v.toNat
  match aonRegAt off with
  | some r => some (aonConfigWrite s r v)
  | none =>
    if off = 0x0 then
      some (onAon s fun a => { a with cfgWhileBusy := a.cfgWhileBusy && !bitOf x 3, ringCfgErr := a.ringCfgErr && !bitOf x 2 })
    else if off = 0x4 then some (aonCtrl s keeper v)
    else if off = 0xC then some (if keeper then checkSetMode (modeReq s (modeOf (bits x 1 0))) else s)
    else if off = 0x40 then some (if keeper then gateWrite s v else s)
    else if off = 0x60 then some (if keeper then s else candWrite s v)
    else if off = 0x64 then some (if keeper then s else onAon s fun a => { a with candMark := setBits a.candMark 31 0 x })
    else if off = 0x68 then some (if keeper then s else onAon s fun a => { a with candMark := setBits a.candMark 63 32 x })
    else if roAt [(0x8, 4, 1), (0x18, 4, 8), (0x44, 4, 5)] off then some s
    else none

/-! ### CAM (R433 to R437) -/

/-- A write of CAM_CTX_CTRL. -/
def ctxCtrl (s : State) (x : Nat) (v : Word) : State :=
  let n := v.toNat
  let c := ctxOf s x
  let s1 := modCtx s x fun c => { c with hold := bitOf n 1 }
  let s2 := if s.own.lock ∨ c.en ∨ 8 < bits n 7 4 then s1 else modCtx s1 x fun c => { c with part := bits n 7 4 }
  if bitOf n 0 = c.en then s2 else if bitOf n 0 then camEnable s2 x else camDisable s2 x

/-- A write to a word of a context's parameter window: into its shadow. -/
def winWrite (s : State) (x w : Nat) (v : Word) : State :=
  modCtx s x fun c => { c with shadow := SMap.put c.shadow w v 0 }

/-- A write to a CAM register. -/
def camWrite (s : State) (off : Nat) (v : Word) : Option State :=
  let n := v.toNat
  if off = 0x0 then
    some (onCam s fun c => { c with frameDone := c.frameDone &&& (0xFFFF ^^^ bits n 15 0), cfgErr := c.cfgErr && !bitOf n 16 })
  else if off = 0x4 then some (setLowRate (onCam s fun c => { c with irq := bitOf n 2, en := bitOf n 0 }) (bitOf n 1))
  else match regIx off 0x10 4 4, regIx off 0x1000 4 128, regIx off 0x100000 4 0x40000 with
  | some p, _, _ =>
    let a := camPortCfg p
    let s1 := rwrite s a (keepBits (rshadow s a) v 3 2 fun x => x != 3)
    some (if bitOf n 0 = (camPort s1 p).en then s1 else camPortEnable s1 p (bitOf n 0))
  | _, some k, _ =>
    match k % 8 with
    | 0 => some (ctxCtrl s (k / 8) v)
    | 1 | 2 | 3 | 5 => some s
    | 4 => some (bufRelease s (k / 8) (v.setWidth 16))
    | _ => none
  | _, _, some k => if winHas (k % 0x4000) then some (winWrite s (k / 0x4000) (k % 0x4000) v) else none
  | none, none, none =>
    if roAt [(0x20, 4, 4), (0x100, 4, 4), (0x110, 4, 4), (0x120, 4, 4), (0x130, 4, 4), (0x140, 4, 4)] off then some s else none

/-! ### SEC (R466, R467) -/

/-- A write of SEC_CTRL. -/
def secCtrl (s : State) (v : Word) : State :=
  let x := v.toNat
  let s1 := if bitOf x 2 then zeroiseAll s else s
  onSec (ownerUnlock s1 (bitOf x 1)) fun c => { c with trngEn := bitOf x 0 }

/-- A write to a SEC register by SEC, which alone writes the block. -/
def secRegWrite (s : State) (off : Nat) (v : Word) : Option State :=
  if off = 0x4 then some (secCtrl s v)
  else match regIx off 0x200 4 32, regIx off 0x280 4 16, regIx off 0x2C0 4 4 with
  | some n, _, _ => some { s with own := { s.own with core := ownerPut s.own s.own.core n v } }
  | _, some w, _ => some { s with own := { s.own with ssr := ownerPut s.own s.own.ssr w v } }
  | _, _, some p => some { s with own := { s.own with cam := ownerPut s.own s.own.cam p v } }
  | none, none, none =>
    if roAt [(0x0, 4, 1), (0x8, 4, 4), (0x20, 4, 6), (0x100, 4, 64), (0x400, 4, 128)] off then some s else none

/-! ### MBX (R22, R23, R465) -/

/-- Word w of MBX_SENDER_MASK[m] as written; word 1 has 16 bits. -/
def maskWord (old : BitVec 64) (w : Nat) (v : Word) : BitVec 64 :=
  BitVec.ofNat 64 (if w = 0 then setBits old.toNat 31 0 v.toNat else setBits old.toNat 63 32 (bits v.toNat 15 0))

/-- MBX_RECV[m] as written: a receiver that is no code is ignored. -/
def recvWord (old v : Word) : Word := keepBits old (v &&& 0xF0FF) 7 0 receiverOk

/-- Change the mailbox block. -/
def onMbx (s : State) (f : Mbx → Mbx) : State := { s with mbx := f s.mbx }

/-- A write to a MBX register other than MBX_WORD. -/
def mbxRegWrite (s : State) (by_ : Req) (off : Nat) (v : Word) : Option State :=
  match regIx off 0x10000 4 256, regIx off 0x10800 4 128, regIx off 0x11000 4 4 with
  | some k, _, _ =>
    if !isKeeper by_ then none
    else if mbxLocked s.mbx (k / 2) then some s
    else some (onMbx s fun b => { b with
      senderMask := SMap.put b.senderMask (k / 2) (maskWord (SMap.getD b.senderMask (k / 2) 0) (k % 2) v) 0 })
  | _, some m, _ =>
    if !isKeeper by_ then none
    else if mbxLocked s.mbx m then some s
    else some (onMbx s fun b => { b with recv := SMap.put b.recv m (recvWord (word (mbxRecv b m)) v) 0x1000 })
  | _, _, some i => if by_ = .sec then some (onMbx s fun b => { b with lock := b.lock ||| (v.setWidth 128 <<< (32 * i)) }) else none
  | none, none, none =>
    if off = 0x11200 then if isKeeper by_ then some (onMbx s fun b => { b with fault := w1c b.fault v 0x80000000 }) else none
    else if roAt [(0x11100, 4, 4), (0x11204, 4, 1)] off then
      if isKeeper by_ then some s else none
    else none

/-! ### RAS (R492 to R494) -/

/-- A write to a RAS register. -/
def rasWrite (s : State) (off : Nat) (v : Word) : Option State :=
  let a := rasRegBase + off
  let within (lo hi x : Nat) : Bool := decide (lo ≤ x) && decide (x ≤ hi)
  if off = 0x4 then some (rasCtrl s v)
  else if off = 0x8 then some (onRas s fun r => { r with alarm := w1c r.alarm v 0xF })
  else if off = 0x50 then
    some (rwrite s a (keepBits (rget s a) (keepBits (rget s a) (keepBits (rget s a) v 23 16 (within 1 48)) 15 8 (within 10 240))
      7 0 (within 10 255)))
  else if off = 0x54 then some (rwrite s a (keepBits (rget s a) (keepBits (rget s a) v 15 8 (within 1 255)) 7 0 (within 1 255)))
  else if roAt [(0x0, 4, 1), (0x10, 4, 16), (0x58, 4, 3), (0x68, 4, 3), (0x100, 4, 32)] off then some s
  else none

/-! ### PCIE (R292, R293) -/

/-- A write of PCIE_CTRL. -/
def pcieCtrl (s : State) (v : Word) : State :=
  let x := v.toNat
  let s1 := if bitOf x 1 = s.pcie.perst then s else pciePerst s (bitOf x 1)
  let s2 := if bitOf x 0 = s1.pcie.en then s1 else pcieEnable s1 (bitOf x 0)
  if bitOf x 2 then pcieRetrain s2 else s2

/-- A write to a PCIE register. -/
def pcieWrite (s : State) (off : Nat) (v : Word) : Option State :=
  let x := v.toNat
  match off with
  | 0x4 => some (pcieCtrl s v)
  | 0x8 => some (onPcie s fun p => { p with cfgAddr := v &&& 0x0FFFFFFC })
  | 0xC => some (cfgWrite s v)
  | 0x10 => some (onPcie s fun p => { p with outBase := BitVec.ofNat 64 (setBits p.outBase.toNat 31 0 (x / 0x10000000 * 0x10000000)) })
  | 0x14 => some (onPcie s fun p => { p with outBase := BitVec.ofNat 64 (setBits p.outBase.toNat 63 32 x) })
  | 0x18 => some (onPcie s fun p => { p with inBase := setBits p.inBase 31 0 (x / 0x10000 * 0x10000) })
  | 0x1C => some (onPcie s fun p => { p with inBase := setBits p.inBase 47 32 (bits x 15 0) })
  | 0x20 => some (onPcie s fun p => { p with inLimit := bits x 23 0 })
  | 0x24 => some (onPcie s fun p => { p with msi := w1c p.msi v 0xFFFFFFFF })
  | _ => if roAt [(0x0, 4, 1), (0x100, 4, 4)] off then some s else none

/-! ### PERI (R548 to R552) -/

/-- A write to a PERI register. -/
def periRegWrite (s : State) (off : Nat) (v : Word) : Option State :=
  match periPlain off v s with
  | some t => some t
  | none =>
    match regIx off 0x1004 0x100 4, regIx off 0x100C 0x100 4, regIx off 0x2004 0x100 2, regIx off 0x200C 0x100 2 with
    | some b, _, _, _ => some (modI2c s b fun c => i2cCommand c v)
    | _, some b, _, _ => some (modI2c s b fun c => { c with tx := (c.tx ++ [v.setWidth 8]).take 32 })
    | _, _, some b, _ => some (modSpi s b fun c => spiCommand c v)
    | _, _, _, some b => some (modSpi s b fun c => { c with tx := (c.tx ++ [v.setWidth 8]).take 64 })
    | none, none, none, none =>
      if off = 0x10 then some (ospiGo s v)
      else if off = 0x4008 then some (onPeri s fun p => { p with uartTx := (p.uartTx ++ [v.setWidth 8]).take 64 })
      else none

/-! ### The write -/

/-- A write to the register at an offset of a block; none at an offset without a register, by a requester that the register
refuses, and where the range is no register block. -/
def blockWrite (s : State) (by_ : Req) (r : Region) (a : Nat) (v : Word) : Option State :=
  let off := a % 0x1000000
  match r with
  | .sysRegs => sysWrite s off v
  | .coreRegs n => coreWrite s n (a % 0x10000) v
  | .memRegs => memRegWrite s off v
  | .schedRegs => schedWrite s off v
  | .fabRegs => fabWrite s off v
  | .hostRegs => hostWrite s off v
  | .aonRegs => aonRegWrite s (isKeeper by_) off v
  | .camRegs => camWrite s off v
  | .secRegs => if by_ = .sec then secRegWrite s off v else none
  | .mbxRegs => mbxRegWrite s by_ off v
  | .rasRegs => rasWrite s off v
  | .pcieRegs => pcieWrite s off v
  | .periRegs => periRegWrite s off v
  | .hbm _ | .deep _ | .psram _ | .spad _ | .ssr _ | .sessTable | .keeperSram | .aonSram | .mram | .flash | .pcieWin => none

/-- R8, R20: a register write by a requester: misaligned, unmapped, without a register or not reached, it ends in a bus error
and changes nothing; MBX_WORD follows R23. -/
def registerWrite (s : State) (by_ : Req) (a : Nat) (v : Word) : State :=
  match regionOf s.board a with
  | none => busError s
  | some r =>
    if a % 4 ≠ 0 ∨ !reaches by_ true r then busError s
    else if r = .mbxRegs ∧ a % 0x1000000 < 0x1000 then mbxWrite s by_ (a % 0x1000000 / 32) (a % 32 / 4) v
    else match blockWrite s by_ r a v with
      | some t => busOk t
      | none => busError s

/-- REGISTER_WRITE. -/
def execRegisterWrite (by_ : Req) (addr : BitVec 48) (v : Word) (s : State) : Host.Outcome State Fault Refusal :=
  .next (registerWrite s by_ addr.toNat v)

end Sys2Proof.Machine
end

