-- ==== Sys2Proof/Machine/Scalar.lean ====
section
/-! DEFINITION. Sys2Proof/Machine/Scalar.lean: how the sequencer takes a word (R103 to R107) and the instructions that it
executes itself but for synchronisation: ALU, CMP, predicate logic, SLD, SST, SGET, branches, LOOP and TDESC
(R114 to R123, R129).  Each row's operand `w` is the word that the sequencer has fetched at the core's pc (log 12). -/

namespace Sys2Proof.Machine

/-! ### Sequential flow and loops (R122, R123) -/

/-- R122: where issue goes after an instruction whose successor is npc: at the end of the innermost body it
iterates or leaves the loop. -/
def flow (l : SMap Word) (npc : Nat) : List LoopAct → List LoopAct × SMap Word × Nat
  | [] => ([], l, npc)
  | x :: r =>
    if x.stop = npc then
      if 0 < x.left then
        ({ x with left := x.left - 1 } :: r, SMap.put l x.ln (SMap.getD l x.ln 0 + 1) 0, x.start)
      else flow l npc r
    else (x :: r, l, npc)

/-- Issue continues after an instruction whose successor in the program is npc. -/
def stepTo (c : Core) (npc : Nat) : Core :=
  let r := flow c.l npc c.loops
  { c with loops := r.1, l := r.2.1, pc := r.2.2 }

/-- The instruction is done: the next one follows. -/
def advance (c : Core) : Core := stepTo c (c.pc + 8)

/-- R123: a taken branch to t ends every active loop whose body does not hold t. -/
def jump (c : Core) (t : Nat) : Core :=
  { c with pc := t, loops := c.loops.filter fun x => decide (x.start ≤ t) && decide (t < x.stop) }

/-! ### Taking a word -/

/-- The predicates that TCHK entries of a core have still to write (R128); P0 discards its writes. -/
def pendingP (c : Core) : List Nat :=
  (live c).filterMap fun e =>
    if e.op = .tchk && fld e.w 52 50 != 0 then some (fld e.w 52 50) else none

/-- The predicates that a word reads or writes beside its guard. -/
def usesP (w : BitVec 64) : List Nat :=
  let m := major w
  if m = 2 ∨ m = 3 then [fld w 47 42]
  else if m = 4 then [fld w 47 45, fld w 44 42, fld w 41 39]
  else if m = 0x13 then [fld w 52 50]
  else []

/-- Does issue wait on a TCHK for the guard of w (R128)? -/
def guardWaits (c : Core) (w : BitVec 64) : Bool := (pendingP c).contains (fld w 56 54)
/-- Does issue wait on a TCHK for another predicate of w (R128)? -/
def operandWaits (c : Core) (w : BitVec 64) : Bool := (usesP w).any fun p => (pendingP c).contains p

/-- R107: may the sequencer decode w? -/
def decodes (w : BitVec 64) : Bool := (rowCode w).isSome && legal w

/-- Does the sequencer issue: the command runs, has not ended, and no SWAIT stalls it? -/
def issuing (c : Core) : Bool := c.st == .running && c.swait.isNone

/-- R66, R103: note the 256 B line that the word came from; the cache holds 64 lines, which are replaced least
recently used first (DESIGN CHOICE, log 12). -/
def fetchLine (c : Core) : Core :=
  let k := (c.progBase + c.pc) / 256
  let c1 := if c.icache.contains k then c else eccClear c (· == eccLine k)
  { c1 with icache := (k :: c.icache.erase k).take 64 }

/-- R553: would the line at the pc of core n have to be filled from HBM data that is poisoned?  Such a fill leaves nothing
in the cache. -/
def fillPoisoned (s : State) (n : Nat) : Bool :=
  let c := coreOf s n
  let k := (c.progBase + c.pc) / 256
  !c.icache.contains k && poisoned s (256 * k) 256

/-- R105, R107, R128: the sequencer of core n takes w: nothing while it does not issue or waits, ILLEGAL_INSTR, the
next instruction if the guard fails, else the instruction itself. -/
def issue (s0 : State) (n : Nat) (w : BitVec 64) (run : State → State) (skip : State → State) : State :=
  if !issuing (coreOf s0 n) then s0
  else if fillPoisoned s0 n then faultCmd s0 n { bit := .eccUncorr } (coreOf s0 n).pc
  else
    let c0 := fetchLine (coreOf s0 n)
    let line := eccLine ((c0.progBase + c0.pc) / 256)
    let (c, bad) := eccRead c0 line line
    let s := setCore s0 n c
    if bad then faultCmd s n { bit := .eccUncorr } c.pc
    else if decide (c.progLen ≤ c.pc) || !decodes w then faultCmd s n { bit := .illegalInstr } c.pc
    else if guardWaits c w then s
    else if !guardOk c w then skip s
    else if operandWaits c w then s
    else run s

/-- The row of a Kuner word: its meaning if w spells this row or no row at all (ILLEGAL_INSTR). -/
def kunerRow (code : Nat) (core : Fin 32) (w : BitVec 64) (s : State) (run skip : State → State) :
    Host.Outcome State Fault Refusal :=
  match rowCode w with
  | none => .next (issue s core.val w run skip)
  | some k => if k = code then .next (issue s core.val w run skip) else .refused .illFormed

/-- A row whose failed guard only moves on (R105). -/
def kuner (code : Nat) (core : Fin 32) (w : BitVec 64) (s : State) (run : State → State) :
    Host.Outcome State Fault Refusal :=
  kunerRow code core w s run fun s => onCore s core.val advance

/-! ### ALU, CMP and predicate logic (R114 to R117) -/

/-- R114: the value of rb, or the immediate in the immediate forms (odd majors). -/
def valueB (c : Core) (w : BitVec 64) : Word :=
  if major w % 2 = 1 then word (fld w 31 0) else srcVal c (fld w 35 30)

/-- The value of ra. -/
def valueA (c : Core) (w : BitVec 64) : Word := srcVal c (fld w 41 36)

/-- An ALU instruction whose result is f of a and b. -/
def alu (code : Nat) (f : Word → Word → Word) (core : Fin 32) (w : BitVec 64) (s : State) :
    Host.Outcome State Fault Refusal :=
  kuner code core w s fun s => onCore s core.val fun c => advance (setS c (fld w 47 42) (f (valueA c w) (valueB c w)))

/-- Shift amount b & 31 (R115). -/
def sh (b : Word) : Nat := bits b.toNat 4 0

/-- R115 ADD. -/
def execAdd (core : Fin 32) (w : BitVec 64) (s : State) : Host.Outcome State Fault Refusal :=
  alu 0 (fun a b => a + b) core w s
/-- R115 SUB. -/
def execSub (core : Fin 32) (w : BitVec 64) (s : State) : Host.Outcome State Fault Refusal :=
  alu 1 (fun a b => a - b) core w s
/-- R115 AND. -/
def execAnd (core : Fin 32) (w : BitVec 64) (s : State) : Host.Outcome State Fault Refusal :=
  alu 2 (fun a b => a &&& b) core w s
/-- R115 OR. -/
def execOr (core : Fin 32) (w : BitVec 64) (s : State) : Host.Outcome State Fault Refusal :=
  alu 3 (fun a b => a ||| b) core w s
/-- R115 XOR. -/
def execXor (core : Fin 32) (w : BitVec 64) (s : State) : Host.Outcome State Fault Refusal :=
  alu 4 (fun a b => a ^^^ b) core w s
/-- R115 SLL. -/
def execSll (core : Fin 32) (w : BitVec 64) (s : State) : Host.Outcome State Fault Refusal :=
  alu 5 (fun a b => a <<< sh b) core w s
/-- R115 SRL. -/
def execSrl (core : Fin 32) (w : BitVec 64) (s : State) : Host.Outcome State Fault Refusal :=
  alu 6 (fun a b => a >>> sh b) core w s
/-- R115 SRA. -/
def execSra (core : Fin 32) (w : BitVec 64) (s : State) : Host.Outcome State Fault Refusal :=
  alu 7 (fun a b => a.sshiftRight (sh b)) core w s
/-- R115 MUL. -/
def execMul (core : Fin 32) (w : BitVec 64) (s : State) : Host.Outcome State Fault Refusal :=
  alu 8 (fun a b => a * b) core w s
/-- R115 MULH. -/
def execMulh (core : Fin 32) (w : BitVec 64) (s : State) : Host.Outcome State Fault Refusal :=
  alu 9 (fun a b => BitVec.ofInt 32 (a.toInt * b.toInt / 2 ^ 32)) core w s
/-- R115 MULHU. -/
def execMulhu (core : Fin 32) (w : BitVec 64) (s : State) : Host.Outcome State Fault Refusal :=
  alu 10 (fun a b => word (a.toNat * b.toNat / 2 ^ 32)) core w s
/-- R115 MIN. -/
def execMin (core : Fin 32) (w : BitVec 64) (s : State) : Host.Outcome State Fault Refusal :=
  alu 11 (fun a b => if b.slt a then b else a) core w s
/-- R115 MAX. -/
def execMax (core : Fin 32) (w : BitVec 64) (s : State) : Host.Outcome State Fault Refusal :=
  alu 12 (fun a b => if a.slt b then b else a) core w s
/-- R115 MINU. -/
def execMinu (core : Fin 32) (w : BitVec 64) (s : State) : Host.Outcome State Fault Refusal :=
  alu 13 (fun a b => if b.ult a then b else a) core w s
/-- R115 MAXU. -/
def execMaxu (core : Fin 32) (w : BitVec 64) (s : State) : Host.Outcome State Fault Refusal :=
  alu 14 (fun a b => if a.ult b then b else a) core w s

/-- A CMP that writes Pd with f of a and b (R116). -/
def cmp (k : Nat) (f : Word → Word → Bool) (core : Fin 32) (w : BitVec 64) (s : State) :
    Host.Outcome State Fault Refusal :=
  kuner (128 + k) core w s fun s =>
    onCore s core.val fun c => advance (setP c (fld w 47 42) (f (valueA c w) (valueB c w)))

/-- R116 EQ. -/
def execCmpEq (core : Fin 32) (w : BitVec 64) (s : State) : Host.Outcome State Fault Refusal :=
  cmp 0 (fun a b => a == b) core w s
/-- R116 NE. -/
def execCmpNe (core : Fin 32) (w : BitVec 64) (s : State) : Host.Outcome State Fault Refusal :=
  cmp 1 (fun a b => a != b) core w s
/-- R116 LT. -/
def execCmpLt (core : Fin 32) (w : BitVec 64) (s : State) : Host.Outcome State Fault Refusal :=
  cmp 2 (fun a b => a.slt b) core w s
/-- R116 GE. -/
def execCmpGe (core : Fin 32) (w : BitVec 64) (s : State) : Host.Outcome State Fault Refusal :=
  cmp 3 (fun a b => !a.slt b) core w s
/-- R116 LTU. -/
def execCmpLtu (core : Fin 32) (w : BitVec 64) (s : State) : Host.Outcome State Fault Refusal :=
  cmp 4 (fun a b => a.ult b) core w s
/-- R116 GEU. -/
def execCmpGeu (core : Fin 32) (w : BitVec 64) (s : State) : Host.Outcome State Fault Refusal :=
  cmp 5 (fun a b => !a.ult b) core w s

/-- Predicate logic: pd takes f of pa and pb (R117). -/
def plogic (k : Nat) (f : Bool → Bool → Bool) (core : Fin 32) (w : BitVec 64) (s : State) :
    Host.Outcome State Fault Refusal :=
  kuner (256 + k) core w s fun s =>
    onCore s core.val fun c => advance (setP c (fld w 47 45) (f (getP c (fld w 44 42)) (getP c (fld w 41 39))))

/-- R117 PAND. -/
def execPand (core : Fin 32) (w : BitVec 64) (s : State) : Host.Outcome State Fault Refusal :=
  plogic 0 (fun a b => a && b) core w s
/-- R117 POR. -/
def execPor (core : Fin 32) (w : BitVec 64) (s : State) : Host.Outcome State Fault Refusal :=
  plogic 1 (fun a b => a || b) core w s
/-- R117 PXOR. -/
def execPxor (core : Fin 32) (w : BitVec 64) (s : State) : Host.Outcome State Fault Refusal :=
  plogic 2 (fun a b => a != b) core w s
/-- R117 PANDN. -/
def execPandn (core : Fin 32) (w : BitVec 64) (s : State) : Host.Outcome State Fault Refusal :=
  plogic 3 (fun a b => a && !b) core w s
/-- R117 PNOT. -/
def execPnot (core : Fin 32) (w : BitVec 64) (s : State) : Host.Outcome State Fault Refusal :=
  plogic 4 (fun a _ => !a) core w s

/-! ### Scalar memory (R118) -/

/-- R89, R118: does a queued instruction conflict with an access of the sequencer? -/
def seqWaits (c : Core) (r : Regions) : Bool := (live c).any fun e => conflicts (regions e) r

/-- A fault that the sequencer itself raises at the pc. -/
def seqFault (s : State) (n : Nat) (b : FaultBit) : State := faultCmd s n { bit := b } (coreOf s n).pc

/-- R118: the word that SLD and SST address, or their fault. -/
def slmAddr (c : Core) (w : BitVec 64) : Except CmdFault Nat :=
  let d := descOf (getT c (fld w 35 32))
  let a : Int := (d.base : Int) + signed 32 (valueA c w).toNat + signed 32 (fld w 31 0)
  if !spadDescOk d then faultOf .tileFault
  else if a < d.base ∨ (extentEnd d : Int) < a + 4 ∨ (spadSize : Int) < a + 4 then faultOf .tileFault
  else if a % 4 ≠ 0 then faultOf .misaligned
  else .ok a.toNat

/-- SLD (R118). -/
def execSld (core : Fin 32) (w : BitVec 64) (s : State) : Host.Outcome State Fault Refusal :=
  let n := core.val
  kuner 320 core w s fun s =>
    let c := coreOf s n
    if seqWaits c { rdT := [fld w 35 32] } then s
    else match slmAddr c w with
    | .error f => faultCmd s n f c.pc
    | .ok a =>
      let v := Memory.le (spadView s.freeCtr c) a 4
      let (c1, bad) := spadTouch c [(a, 4)]
      let s1 := nextFree (setCore s n c1)
      if bad then seqFault s1 n .eccUncorr
      else onCore s1 n fun c => advance (setS c (fld w 47 42) (word v))

/-- SST (R118). -/
def execSst (core : Fin 32) (w : BitVec 64) (s : State) : Host.Outcome State Fault Refusal :=
  let n := core.val
  kuner 321 core w s fun s =>
    let c := coreOf s n
    if seqWaits c { wrT := [fld w 35 32] } then s
    else match slmAddr c w with
    | .error f => faultCmd s n f c.pc
    | .ok a => onCore s n fun c => advance (spadWrite c a (leBytes 4 (srcVal c (fld w 47 42)).toNat))

/-! ### SGET (R119) -/

/-- R119: the value that a selector names. -/
def sgetVal (s : State) (n sel : Nat) : Word :=
  let c := coreOf s n
  match sel with
  | 0 => word n
  | 1 => word (n / 8)
  | 2 => c.cmdQueue
  | 3 => c.cmdId
  | 4 => word s.tick
  | 5 => c.tickHi
  | 6 => c.cmdBudget
  | 7 => word (corePart s n)
  | _ => word (s.tick - c.cmdStart)

/-- SGET. -/
def execSget (core : Fin 32) (w : BitVec 64) (s : State) : Host.Outcome State Fault Refusal :=
  kuner 384 core w s fun s =>
    let v := sgetVal s core.val (fld w 31 0)
    onCore s core.val fun c =>
      let c1 := if fld w 31 0 = 4 then { c with tickHi := word (s.tick / 2 ^ 32) } else c
      advance (setS c1 (fld w 47 42) v)

/-! ### Branches (R120) -/

/-- R120: a taken branch to t with a link register, or ILLEGAL_INSTR. -/
def branchTo (s : State) (n : Nat) (t : Int) (link : Option Nat) : State :=
  let c := coreOf s n
  if t % 8 ≠ 0 ∨ t < 0 ∨ (c.progLen : Int) ≤ t then seqFault s n .illegalInstr
  else onCore s n fun c =>
    let c1 := match link with
      | some rd => setS c rd (word (c.pc + 8))
      | none => c
    jump c1 t.toNat

/-- The target of B and BL. -/
def relTarget (c : Core) (w : BitVec 64) : Int := (c.pc : Int) + 8 * signed 24 (fld w 23 0)

/-- B. -/
def execB (core : Fin 32) (w : BitVec 64) (s : State) : Host.Outcome State Fault Refusal :=
  kuner 512 core w s fun s => branchTo s core.val (relTarget (coreOf s core.val) w) none
/-- BL. -/
def execBl (core : Fin 32) (w : BitVec 64) (s : State) : Host.Outcome State Fault Refusal :=
  kuner 513 core w s fun s => branchTo s core.val (relTarget (coreOf s core.val) w) (some (fld w 47 42))
/-- BR. -/
def execBr (core : Fin 32) (w : BitVec 64) (s : State) : Host.Outcome State Fault Refusal :=
  kuner 514 core w s fun s => branchTo s core.val (valueA (coreOf s core.val) w).toNat none
/-- BRL: ra is read before rd is written. -/
def execBrl (core : Fin 32) (w : BitVec 64) (s : State) : Host.Outcome State Fault Refusal :=
  kuner 515 core w s fun s => branchTo s core.val (valueA (coreOf s core.val) w).toNat (some (fld w 47 42))

/-! ### LOOP (R121, R122) -/

/-- The program address after the body of a LOOP at the pc. -/
def bodyEnd (c : Core) (w : BitVec 64) : Nat := c.pc + 8 + 8 * fld w 44 29

/-- R122: does the body lie wholly inside the body of every active loop? -/
def nests (c : Core) (w : BitVec 64) : Bool :=
  c.loops.all fun x => decide (x.start ≤ c.pc + 8) && decide (bodyEnd c w ≤ x.stop)

/-- R121: the iteration count. -/
def loopCount (c : Core) (w : BitVec 64) : Nat := ((srcVal c (fld w 50 45)).toNat + fld w 28 8) % 2 ^ 32

/-- R122: enter the loop, or skip its body if the count is 0. -/
def enterLoop (c : Core) (w : BitVec 64) : Core :=
  let k := loopCount c w
  let ln := fld w 53 51
  if k = 0 then stepTo c (bodyEnd c w)
  else
    { c with l := SMap.erase c.l ln, pc := c.pc + 8,
             loops := { ln := ln, start := c.pc + 8, stop := bodyEnd c w, left := k - 1 }
               :: c.loops.filter fun x => x.ln != ln }

/-- LOOP: the nesting check is made whether or not the guard passes. -/
def execLoop (core : Fin 32) (w : BitVec 64) (s : State) : Host.Outcome State Fault Refusal :=
  let n := core.val
  let checked (s : State) (f : Core → Core) : State :=
    if nests (coreOf s n) w then onCore s n f else seqFault s n .illegalInstr
  kunerRow 576 core w s (fun s => checked s fun c => enterLoop c w)
    (fun s => checked s fun c => stepTo c (bodyEnd c w))

/-! ### TDESC (R129) -/

/-- R129: the bits of a descriptor that a field select names. -/
def descField (f : Nat) : Nat × Nat :=
  match f with
  | 0x0 => (31, 0) | 0x1 => (47, 32) | 0x2 => (49, 48) | 0x3 => (57, 50)
  | 0x4 => (95, 64) | 0x5 => (127, 96) | 0x6 => (75, 64) | 0x7 => (87, 76)
  | 0x8 => (139, 128) | 0x9 => (151, 140) | 0xA => (163, 152) | 0xB => (175, 164) | 0xC => (191, 176)
  | 0xD => (223, 192) | _ => (245, 224)

/-- A descriptor with a field replaced, truncated to its width. -/
def setDescField (t : BitVec 256) (f v : Nat) : BitVec 256 :=
  let r := descField f
  BitVec.ofNat 256 (setBits t.toNat r.1 r.2 v)

/-- R90: does a queued instruction still name T[td]? -/
def tdWaits (c : Core) (w : BitVec 64) : Bool := (live c).any fun e => namesT e (fld w 50 47)

/-- A TDESC mode that needs no memory: T[td] takes f of the core. -/
def tdesc (mode : Nat) (f : Core → BitVec 256) (core : Fin 32) (w : BitVec 64) (s : State) :
    Host.Outcome State Fault Refusal :=
  kuner (1280 + mode) core w s fun s =>
    if tdWaits (coreOf s core.val) w then s
    else onCore s core.val fun c => advance (setT c (fld w 50 47) (f c))

/-- R129: the offset that TDESC LOAD reads, or its fault. -/
def tdescAddr (c : Core) (w : BitVec 64) : Except CmdFault Nat :=
  let d := descOf (getT c (fld w 46 43))
  let a : Int := (d.base : Int) + signed 32 (srcVal c (fld w 38 33)).toNat + signed 32 (fld w 31 0)
  if !spadDescOk d then faultOf .tileFault
  else if a < 0 ∨ (spadSize : Int) < a + 32 then faultOf .tileFault
  else if a % 32 ≠ 0 then faultOf .misaligned
  else .ok a.toNat

/-- TDESC LOAD. -/
def execTdescLoad (core : Fin 32) (w : BitVec 64) (s : State) : Host.Outcome State Fault Refusal :=
  let n := core.val
  kuner 1280 core w s fun s =>
    let c := coreOf s n
    if tdWaits c w || seqWaits c { rdT := [fld w 46 43] } then s
    else match tdescAddr c w with
    | .error f => faultCmd s n f c.pc
    | .ok a =>
      let v := Memory.le (spadView s.freeCtr c) a 32
      let (c1, bad) := spadTouch c [(a, 32)]
      let s1 := nextFree (setCore s n c1)
      if bad then seqFault s1 n .eccUncorr
      else onCore s1 n fun c => advance (setT c (fld w 50 47) (BitVec.ofNat 256 v))

/-- TDESC COPY. -/
def execTdescCopy (core : Fin 32) (w : BitVec 64) (s : State) : Host.Outcome State Fault Refusal :=
  tdesc 1 (fun c => getT c (fld w 46 43)) core w s

/-- TDESC SET. -/
def execTdescSet (core : Fin 32) (w : BitVec 64) (s : State) : Host.Outcome State Fault Refusal :=
  tdesc 2 (fun c => setDescField (getT c (fld w 50 47)) (fld w 42 39) (srcVal c (fld w 38 33)).toNat) core w s

/-- TDESC ADD. -/
def execTdescAdd (core : Fin 32) (w : BitVec 64) (s : State) : Host.Outcome State Fault Refusal :=
  tdesc 3 (fun c =>
    let t := getT c (fld w 50 47)
    let r := descField (fld w 42 39)
    setDescField t (fld w 42 39) (bits t.toNat r.1 r.2 + (srcVal c (fld w 38 33)).toNat)) core w s

/-- TDESC SETI. -/
def execTdescSeti (core : Fin 32) (w : BitVec 64) (s : State) : Host.Outcome State Fault Refusal :=
  tdesc 4 (fun c => setDescField (getT c (fld w 50 47)) (fld w 42 39) (fld w 31 0)) core w s

end Sys2Proof.Machine
end

