-- ==== Sys2Proof/Machine/Kuner.lean ====
section
/-! DEFINITION. Sys2Proof/Machine/Kuner.lean: the instructions that go to the four issue queues (R88, R136): what an entry
captures at issue, and one row each. -/

namespace Sys2Proof.Machine

/-- R88: the scalar values that an entry captures (the unsigned values of its source fields). -/
def captures (op : QOp) (c : Core) (w : BitVec 64) : Nat × Nat × Nat :=
  let v (hi lo : Nat) : Nat := (srcVal c (fld w hi lo)).toNat
  match op with
  | .tld | .tst => (v 44 39, v 38 33, 0)
  | .tpf => (v 48 43, 0, 0)
  | .tchk => (v 44 39, 0, 0)
  | .csend | .crecv | .lsend | .lrecv => (v 48 43, v 39 34, 0)
  | .mwl => (v 42 37, 0, 0)
  | .mma | .mmas => (v 49 44, v 43 38, v 37 32)
  | .macc => (v 45 40, v 39 34, v 12 7)
  | .kapp | .kseal | .kmap => (v 44 39, v 38 33, 0)
  | _ => (v 38 33, v 32 27, v 26 21)

/-- R80: the weight bank that MWL fills: the one that the latest MMA or MMAS does not use, at first bank 0. -/
def fillBank (c : Core) : Nat :=
  match c.lastUse with
  | some b => 1 - b
  | none => 0

/-- R80, R171: what issue notes in the core for an entry, and the entry's bank or send index. -/
def noteIssue (op : QOp) (c : Core) : Core × Nat :=
  match op with
  | .mwl => ({ c with lastFill := some (fillBank c) }, fillBank c)
  | .mma | .mmas => ({ c with lastUse := c.lastFill }, c.lastFill.getD 2)
  | .lsend => ({ c with sendIx := c.sendIx + 1 }, c.sendIx)
  | _ => (c, 0)

/-- The entry that w makes at the pc. -/
def entryOf (op : QOp) (c : Core) (w : BitVec 64) : QEntry :=
  let v := captures op c w
  { op := op, w := w, pc := c.pc, v0 := v.1, v1 := v.2.1, v2 := v.2.2, bank := (noteIssue op c).2 }

/-- R88: place w in its queue, or stall while it is full; an entry that nothing holds back starts at once. -/
def place (s : State) (n : Nat) (op : QOp) (w : BitVec 64) : State :=
  let c := coreOf s n
  let e := entryOf op c w
  if queueDepth ≤ (queueIn c (queueOf e)).length then s
  else tryStart (onCore s n fun c => advance (enqueue (noteIssue op c).1 e)) n (queueOf e)

/-- A row that goes to a queue. -/
def queuedRow (code : Nat) (op : QOp) (core : Fin 32) (w : BitVec 64) (s : State) :
    Host.Outcome State Fault Refusal :=
  kuner code core w s fun s => place s core.val op w

/-- TLD (R125). -/
def execTld (core : Fin 32) (w : BitVec 64) (s : State) : Host.Outcome State Fault Refusal :=
  queuedRow 1024 .tld core w s
/-- TST (R126). -/
def execTst (core : Fin 32) (w : BitVec 64) (s : State) : Host.Outcome State Fault Refusal :=
  queuedRow 1088 .tst core w s
/-- TPF (R127). -/
def execTpf (core : Fin 32) (w : BitVec 64) (s : State) : Host.Outcome State Fault Refusal :=
  queuedRow 1152 .tpf core w s
/-- TCHK (R128). -/
def execTchk (core : Fin 32) (w : BitVec 64) (s : State) : Host.Outcome State Fault Refusal :=
  queuedRow 1216 .tchk core w s
/-- MWL (R139). -/
def execMwl (core : Fin 32) (w : BitVec 64) (s : State) : Host.Outcome State Fault Refusal :=
  queuedRow 2048 .mwl core w s
/-- MMA (R141). -/
def execMma (core : Fin 32) (w : BitVec 64) (s : State) : Host.Outcome State Fault Refusal :=
  queuedRow 2112 .mma core w s
/-- MMAS (R141). -/
def execMmas (core : Fin 32) (w : BitVec 64) (s : State) : Host.Outcome State Fault Refusal :=
  queuedRow 2176 .mmas core w s
/-- MACC_ZERO (R142). -/
def execMaccZero (core : Fin 32) (w : BitVec 64) (s : State) : Host.Outcome State Fault Refusal :=
  queuedRow 2240 .macc core w s
/-- MACC_RES (R85, R142). -/
def execMaccRes (core : Fin 32) (w : BitVec 64) (s : State) : Host.Outcome State Fault Refusal :=
  queuedRow 2241 .macc core w s
/-- MACC_UNRES (R142). -/
def execMaccUnres (core : Fin 32) (w : BitVec 64) (s : State) : Host.Outcome State Fault Refusal :=
  queuedRow 2242 .macc core w s
/-- MACC_CKPT (R143). -/
def execMaccCkpt (core : Fin 32) (w : BitVec 64) (s : State) : Host.Outcome State Fault Refusal :=
  queuedRow 2243 .macc core w s
/-- MACC_RESTORE (R143). -/
def execMaccRestore (core : Fin 32) (w : BitVec 64) (s : State) : Host.Outcome State Fault Refusal :=
  queuedRow 2244 .macc core w s
/-- KAPP (R145, R182). -/
def execKapp (core : Fin 32) (w : BitVec 64) (s : State) : Host.Outcome State Fault Refusal :=
  queuedRow 2304 .kapp core w s
/-- KSEAL (R145, R189). -/
def execKseal (core : Fin 32) (w : BitVec 64) (s : State) : Host.Outcome State Fault Refusal :=
  queuedRow 2368 .kseal core w s
/-- KMAP (R195). -/
def execKmap (core : Fin 32) (w : BitVec 64) (s : State) : Host.Outcome State Fault Refusal :=
  queuedRow 2432 .kmap core w s
/-- KMAP_PREFETCH (R195). -/
def execKmapPrefetch (core : Fin 32) (w : BitVec 64) (s : State) : Host.Outcome State Fault Refusal :=
  queuedRow 2433 .kmap core w s
/-- EOP_MOV (R149, R150). -/
def execEopMov (core : Fin 32) (w : BitVec 64) (s : State) : Host.Outcome State Fault Refusal :=
  queuedRow 3072 .eop core w s
/-- EOP_ADD (R149, R150). -/
def execEopAdd (core : Fin 32) (w : BitVec 64) (s : State) : Host.Outcome State Fault Refusal :=
  queuedRow 3073 .eop core w s
/-- EOP_SUB (R149, R150). -/
def execEopSub (core : Fin 32) (w : BitVec 64) (s : State) : Host.Outcome State Fault Refusal :=
  queuedRow 3074 .eop core w s
/-- EOP_MUL (R149, R150). -/
def execEopMul (core : Fin 32) (w : BitVec 64) (s : State) : Host.Outcome State Fault Refusal :=
  queuedRow 3075 .eop core w s
/-- EOP_MIN (R149, R150). -/
def execEopMin (core : Fin 32) (w : BitVec 64) (s : State) : Host.Outcome State Fault Refusal :=
  queuedRow 3076 .eop core w s
/-- EOP_MAX (R149, R150). -/
def execEopMax (core : Fin 32) (w : BitVec 64) (s : State) : Host.Outcome State Fault Refusal :=
  queuedRow 3077 .eop core w s
/-- EOP_ABS (R149, R150). -/
def execEopAbs (core : Fin 32) (w : BitVec 64) (s : State) : Host.Outcome State Fault Refusal :=
  queuedRow 3078 .eop core w s
/-- EOP_NEG (R149, R150). -/
def execEopNeg (core : Fin 32) (w : BitVec 64) (s : State) : Host.Outcome State Fault Refusal :=
  queuedRow 3079 .eop core w s
/-- EOP_RELU (R149, R150). -/
def execEopRelu (core : Fin 32) (w : BitVec 64) (s : State) : Host.Outcome State Fault Refusal :=
  queuedRow 3080 .eop core w s
/-- EOP_EXP2 (R149, R150). -/
def execEopExp2 (core : Fin 32) (w : BitVec 64) (s : State) : Host.Outcome State Fault Refusal :=
  queuedRow 3088 .eop core w s
/-- EOP_EXP (R149, R150). -/
def execEopExp (core : Fin 32) (w : BitVec 64) (s : State) : Host.Outcome State Fault Refusal :=
  queuedRow 3089 .eop core w s
/-- EOP_LOG2 (R149, R150). -/
def execEopLog2 (core : Fin 32) (w : BitVec 64) (s : State) : Host.Outcome State Fault Refusal :=
  queuedRow 3090 .eop core w s
/-- EOP_RCP (R149, R150). -/
def execEopRcp (core : Fin 32) (w : BitVec 64) (s : State) : Host.Outcome State Fault Refusal :=
  queuedRow 3091 .eop core w s
/-- EOP_RSQRT (R149, R150). -/
def execEopRsqrt (core : Fin 32) (w : BitVec 64) (s : State) : Host.Outcome State Fault Refusal :=
  queuedRow 3092 .eop core w s
/-- EOP_SQRT (R149, R150). -/
def execEopSqrt (core : Fin 32) (w : BitVec 64) (s : State) : Host.Outcome State Fault Refusal :=
  queuedRow 3093 .eop core w s
/-- EOP_SIGMOID (R149, R150). -/
def execEopSigmoid (core : Fin 32) (w : BitVec 64) (s : State) : Host.Outcome State Fault Refusal :=
  queuedRow 3094 .eop core w s
/-- EOP_TANH (R149, R150). -/
def execEopTanh (core : Fin 32) (w : BitVec 64) (s : State) : Host.Outcome State Fault Refusal :=
  queuedRow 3095 .eop core w s
/-- EOP_SILU (R149, R150). -/
def execEopSilu (core : Fin 32) (w : BitVec 64) (s : State) : Host.Outcome State Fault Refusal :=
  queuedRow 3096 .eop core w s
/-- EOP_GELU (R149, R150). -/
def execEopGelu (core : Fin 32) (w : BitVec 64) (s : State) : Host.Outcome State Fault Refusal :=
  queuedRow 3097 .eop core w s
/-- EOP_AND (R149, R150). -/
def execEopAnd (core : Fin 32) (w : BitVec 64) (s : State) : Host.Outcome State Fault Refusal :=
  queuedRow 3104 .eop core w s
/-- EOP_OR (R149, R150). -/
def execEopOr (core : Fin 32) (w : BitVec 64) (s : State) : Host.Outcome State Fault Refusal :=
  queuedRow 3105 .eop core w s
/-- EOP_XOR (R149, R150). -/
def execEopXor (core : Fin 32) (w : BitVec 64) (s : State) : Host.Outcome State Fault Refusal :=
  queuedRow 3106 .eop core w s
/-- EOP_SHL (R149, R150). -/
def execEopShl (core : Fin 32) (w : BitVec 64) (s : State) : Host.Outcome State Fault Refusal :=
  queuedRow 3107 .eop core w s
/-- EOP_SRA (R149, R150). -/
def execEopSra (core : Fin 32) (w : BitVec 64) (s : State) : Host.Outcome State Fault Refusal :=
  queuedRow 3108 .eop core w s
/-- ERQ (R152). -/
def execErq (core : Fin 32) (w : BitVec 64) (s : State) : Host.Outcome State Fault Refusal :=
  queuedRow 3136 .erq core w s
/-- ESMX (R154). -/
def execEsmx (core : Fin 32) (w : BitVec 64) (s : State) : Host.Outcome State Fault Refusal :=
  queuedRow 3200 .esmx core w s
/-- ENORM_RMS (R155). -/
def execEnormRms (core : Fin 32) (w : BitVec 64) (s : State) : Host.Outcome State Fault Refusal :=
  queuedRow 3264 .enorm core w s
/-- ENORM_LAYER (R155). -/
def execEnormLayer (core : Fin 32) (w : BitVec 64) (s : State) : Host.Outcome State Fault Refusal :=
  queuedRow 3265 .enorm core w s
/-- EGATE_LSTM (R157). -/
def execEgateLstm (core : Fin 32) (w : BitVec 64) (s : State) : Host.Outcome State Fault Refusal :=
  queuedRow 3328 .egate core w s
/-- EGATE_GRU (R157). -/
def execEgateGru (core : Fin 32) (w : BitVec 64) (s : State) : Host.Outcome State Fault Refusal :=
  queuedRow 3329 .egate core w s
/-- EGATE_DSSM (R157). -/
def execEgateDssm (core : Fin 32) (w : BitVec 64) (s : State) : Host.Outcome State Fault Refusal :=
  queuedRow 3330 .egate core w s
/-- ESCAN_SCAN (R158). -/
def execEscanScan (core : Fin 32) (w : BitVec 64) (s : State) : Host.Outcome State Fault Refusal :=
  queuedRow 3392 .escan core w s
/-- ESCAN_COMBINE (R158). -/
def execEscanCombine (core : Fin 32) (w : BitVec 64) (s : State) : Host.Outcome State Fault Refusal :=
  queuedRow 3393 .escan core w s
/-- ERED_SUM (R159). -/
def execEredSum (core : Fin 32) (w : BitVec 64) (s : State) : Host.Outcome State Fault Refusal :=
  queuedRow 3456 .ered core w s
/-- ERED_MAX (R159). -/
def execEredMax (core : Fin 32) (w : BitVec 64) (s : State) : Host.Outcome State Fault Refusal :=
  queuedRow 3457 .ered core w s
/-- ERED_MIN (R159). -/
def execEredMin (core : Fin 32) (w : BitVec 64) (s : State) : Host.Outcome State Fault Refusal :=
  queuedRow 3458 .ered core w s
/-- ERED_ARGMAX (R159). -/
def execEredArgmax (core : Fin 32) (w : BitVec 64) (s : State) : Host.Outcome State Fault Refusal :=
  queuedRow 3459 .ered core w s
/-- ERED_SUMSQ (R159). -/
def execEredSumsq (core : Fin 32) (w : BitVec 64) (s : State) : Host.Outcome State Fault Refusal :=
  queuedRow 3460 .ered core w s
/-- WQUANT_RANGE (R160). -/
def execWquantRange (core : Fin 32) (w : BitVec 64) (s : State) : Host.Outcome State Fault Refusal :=
  queuedRow 3520 .wquant core w s
/-- WQUANT_ENCODE (R160). -/
def execWquantEncode (core : Fin 32) (w : BitVec 64) (s : State) : Host.Outcome State Fault Refusal :=
  queuedRow 3521 .wquant core w s
/-- CSEND (R168, R169). -/
def execCsend (core : Fin 32) (w : BitVec 64) (s : State) : Host.Outcome State Fault Refusal :=
  queuedRow 1728 .csend core w s
/-- CRECV (R168, R169). -/
def execCrecv (core : Fin 32) (w : BitVec 64) (s : State) : Host.Outcome State Fault Refusal :=
  queuedRow 1792 .crecv core w s
/-- LSEND (R171). -/
def execLsend (core : Fin 32) (w : BitVec 64) (s : State) : Host.Outcome State Fault Refusal :=
  queuedRow 1856 .lsend core w s
/-- LRECV (R172). -/
def execLrecv (core : Fin 32) (w : BitVec 64) (s : State) : Host.Outcome State Fault Refusal :=
  queuedRow 1920 .lrecv core w s

end Sys2Proof.Machine
end

