-- ==== Sys2Proof/Machine/Sync.lean ====
section
/-! DEFINITION. Sys2Proof/Machine/Sync.lean: SWAIT, SPOST, FENCE and END (R162 to R167, R135), the service of a waiting
SWAIT, and the release of held messages (R25). -/

namespace Sys2Proof.Machine

/-- R162: the semaphore number of SWAIT and SPOST. -/
def semNo (c : Core) (w : BitVec 64) : Nat := ((srcVal c (fld w 53 48)).toNat + fld w 47 38) % 1024
/-- R162: the amount n. -/
def semAmount (c : Core) (w : BitVec 64) : Nat := ((srcVal c (fld w 37 32)).toNat + fld w 31 16) % 2 ^ 32

/-- R162: the semaphore, if it is allocated to the partition of core n. -/
def semOf (s : State) (n v : Nat) : Option Sem :=
  match SMap.get? s.sems v with
  | some m => if m.part = corePart s n then some m else none
  | none => none

/-- Replace a semaphore. -/
def setSem (s : State) (v : Nat) (m : Sem) : State := { s with sems := SMap.set s.sems v m }

/-- R163: SWAIT: done at once with amount 0, or if the count suffices and nothing waits; else the core joins the
waiters and its issue stalls. -/
def swait (s : State) (n : Nat) (w : BitVec 64) (peek : Bool) : State :=
  let c := coreOf s n
  let v := semNo c w
  let a := semAmount c w
  match semOf s n v with
  | none => seqFault s n .tileFault
  | some m =>
    if a = 0 then onCore s n advance
    else if a ≤ m.count ∧ m.waiters = [] then
      onCore (setSem s v { m with count := if peek then m.count else m.count - a }) n advance
    else
      let s1 := { s with sched := { s.sched with reportedWaits := s.sched.reportedWaits.filter fun r => r.1 != n } }
      onCore (setSem s1 v { m with waiters := m.waiters ++ [⟨n, a, peek⟩] }) n fun c => { c with swait := some v }

/-- SWAIT. -/
def execSwait (core : Fin 32) (w : BitVec 64) (s : State) : Host.Outcome State Fault Refusal :=
  kuner 1536 core w s fun s => swait s core.val w false

/-- SWAIT with peek. -/
def execSwaitPeek (core : Fin 32) (w : BitVec 64) (s : State) : Host.Outcome State Fault Refusal :=
  kuner 1537 core w s fun s => swait s core.val w true

/-- SWAIT_SATISFY (R163): the oldest waiter of a semaphore is served if the count suffices. -/
def execSwaitSatisfy (sem : Fin 1024) (s : State) : Host.Outcome State Fault Refusal :=
  .next (match SMap.get? s.sems sem.val with
  | none => s
  | some m =>
    match m.waiters with
    | [] => s
    | x :: r =>
      if m.count < x.amount then s
      else
        let s1 := setSem s sem.val { m with count := if x.peek then m.count else m.count - x.amount, waiters := r }
        onCore s1 x.core fun c => advance { c with swait := none })

/-- R312: a donation for a semaphore ends when its owner posts it. -/
def endDonations (s : State) (v queue : Nat) : State :=
  { s with donations := s.donations.filter fun d => !(d.sem == v && d.owner == queue) }

/-- R164: add to a semaphore; a post that would pass the maximum leaves the maximum and is an event. -/
def semPost (s : State) (n v a : Nat) (m : Sem) : State :=
  let q := (coreOf s n).cmdQueue.toNat
  let s1 := endDonations (setSem s v { m with count := min (m.count + a) 0xFFFFFFFF }) v q
  if 0xFFFFFFFF < m.count + a then raiseEvent s1 0x0008 q v else s1

/-- SPOST (R164). -/
def execSpost (core : Fin 32) (w : BitVec 64) (s : State) : Host.Outcome State Fault Refusal :=
  let n := core.val
  kuner 1600 core w s fun s =>
    let c := coreOf s n
    let v := semNo c w
    if !drained c then s
    else match semOf s n v with
    | none => seqFault s n .tileFault
    | some m => onCore (semPost s n v (semAmount c w) m) n advance

/-- The entries of one queue that have been issued and have not completed; a checkpoint that only waits for its
acknowledgements belongs to none (R143). -/
def pendingIn (c : Core) (q : QueueName) : List QEntry :=
  queueIn c q ++ (flightIn c q).filter fun e => q == .matrix || !(e.op == .macc)

/-- The checkpoints whose writes are not acknowledged yet. -/
def unacked (c : Core) : List QEntry := (c.d0In ++ c.d1In).filter fun e => e.op == .macc

/-- R166: does FENCE still wait? -/
def fenceWaits (c : Core) (qmask : Nat) (ack : Bool) : Bool :=
  let sel (k : Nat) (q : QueueName) : Bool := bitOf qmask k && !(pendingIn c q).isEmpty
  sel 3 .matrix || sel 2 .element || sel 1 .dma0 || sel 0 .dma1
    || (ack && bitOf qmask 3 && !(unacked c).isEmpty)

/-- FENCE. -/
def execFence (core : Fin 32) (w : BitVec 64) (s : State) : Host.Outcome State Fault Refusal :=
  kuner 1664 core w s fun s =>
    if fenceWaits (coreOf s core.val) (fld w 53 50) (fld w 49 49 == 1) then s else onCore s core.val advance

/-- END (R135, R167): issue stops; the report follows once the queues have drained. -/
def execEnd (core : Fin 32) (w : BitVec 64) (s : State) : Host.Outcome State Fault Refusal :=
  kuner 1984 core w s fun s =>
    finish (onCore s core.val fun c => { c with st := .stopping, ending := some .clean, loops := [] }) core.val

/-- HELD_MESSAGE_POST (R25): the oldest message that a hardware sender holds goes to its mailbox, once that is free.
A core whose end report goes comes to rest (R135). -/
def execHeldMessagePost (by_ : Req) (s : State) : Host.Outcome State Fault Refusal :=
  .next (match heldReady s (senderId by_) with
  | none => s
  | some _ =>
    match by_ with
    | .coreSeq n => coreRest (releaseHeld s by_) n.val
    | _ => releaseHeld s by_)

end Sys2Proof.Machine
end

