-- ==== Sys2Proof/Machine/Telemetry.lean ====
section
/-! DEFINITION. Sys2Proof/Machine/Telemetry.lean: telemetry settings, intervals and records (R62, R285, R320, R355). -/

namespace Sys2Proof.Machine

/-- Does a principal see records of a partition (R355)? -/
def seesPart (p part : Nat) : Bool := p == 0 || p == part
/-- The partition of a queue; of the device where the number names none. -/
def queuePart (s : State) (q : Nat) : Nat := (queueAt s q).elim 0 Queue.part

/-- A record: its type, the length of its body, its body (that the length counts the body alone is DEDUCED, log 26). -/
def telRecord (type : Nat) (body : List Byte) : List Byte := leBytes 2 type ++ leBytes 2 body.length ++ body

/-- Cores in service. -/
def coresInUse (s : State) : Nat :=
  ((span 0 32).filter fun c => (coreOf s c).st == .idle || (coreOf s c).st == .running || (coreOf s c).st == .stopping).length

/-- Type 0x01. -/
def deviceRecord (s : State) : List Byte :=
  leBytes 1 (modeNo s.aon.mode) ++ leBytes 1 (coresInUse s) ++ leBytes 2 (unsigned 16 (hottest s)) ++ leBytes 4 s.power.powerMw
    ++ leBytes 4 (handlesAll s) ++ leBytes 4 0

/-- Type 0x02 (R62). -/
def satRecord (tensor : Nat) (r : SatRec) : List Byte :=
  leBytes 4 tensor ++ leBytes 4 r.satTotal.toNat ++ leBytes 4 r.maxMag.toNat ++ leBytes 4 r.winSat.toNat ++ leBytes 8 r.winElems
    ++ leBytes 4 r.events.toNat ++ leBytes 4 r.scale.toNat

/-- Type 0x03 (R285). -/
def poolRecord (s : State) (p : Nat) : List Byte :=
  let e := SMap.getD s.mm.pool p {}
  leBytes 1 p ++ leBytes 1 (unitsOf s p).length ++ leBytes 1 (channelsOf s p).length ++ leBytes 1 0
    ++ leBytes 4 (framesTotal s p) ++ leBytes 4 (framesFixed s p) ++ leBytes 4 (framesReserved s p)
    ++ leBytes 4 (framesResident s p) ++ leBytes 4 (framesPromoting s p) ++ leBytes 4 (framesFree s p) ++ leBytes 4 0
    ++ leBytes 8 ((channelsOf s p).length * granulesPer s) ++ leBytes 8 (granulesUsed s p)
    ++ leBytes 4 e.promotions ++ leBytes 4 e.promoLate ++ leBytes 4 e.evictions ++ leBytes 4 e.sessionsCold

/-- Type 0x04 (R320). -/
def queueRecord (n : Nat) (q : Queue) : List Byte :=
  leBytes 2 n ++ leBytes 2 (slowdown q.aggT q.aggS) ++ leBytes 2 q.aggMax ++ leBytes 1 q.aggCause ++ leBytes 1 0
    ++ leBytes 4 q.aggJobs ++ leBytes 4 q.aggOver ++ leBytes 4 q.aggViol ++ leBytes 4 q.aggDon

/-- Type 0x05. -/
def eventRecord (e : Event) : List Byte := leBytes 2 e.code ++ leBytes 2 e.queue ++ leBytes 4 e.arg ++ leBytes 8 e.tick

/-- The partition that an event is of: of CORE_RETIRED that of the core, of PARTITION_NO_CORE and TABLE_REJECTED the one it names (R491); else that
of its queue; an event without a queue is the device's. -/
def eventPart (s : State) (e : Event) : Nat :=
  if e.code = 0x0300 then corePart s e.arg else if e.code = 0x0305 ∨ e.code = 0x0005 then e.arg else queuePart s e.queue

/-- R355: the event is one of a partition that a principal sees. -/
def seesEvent (s : State) (p : Nat) (e : Event) : Bool := seesPart p (eventPart s e)

/-- A sum of counters. -/
def sumWords (m : SMap Word) : Nat := m.foldl (fun n w => n + w.2.toNat) 0
/-- Corrected errors of all sources since reset (R470, R491). -/
def corrTotal (s : State) : Nat :=
  sumWords s.ras.eccCorr + s.mm.dtEccCorr.toNat + s.cores.foldl (fun n c => n + c.2.eccCorr.toNat) 0
/-- Uncorrectable errors since reset. -/
def uncorrTotal (s : State) : Nat := sumWords s.ras.eccUncorr + s.mm.dtEccUncorr.toNat

/-- Type 0x06 (R491). -/
def reliabilityRecord (s : State) : List Byte :=
  let r := s.ras
  leBytes 4 (corrTotal s - r.corrTold) ++ leBytes 4 (uncorrTotal s - r.uncorrTold) ++ leBytes 4 r.reruns
    ++ leBytes 1 (32 - r.coresRetired.length) ++ leBytes 1 (16 - r.waysRetired.length) ++ leBytes 2 s.mm.retired.length
    ++ leBytes 4 r.slices ++ leBytes 4 (r.stDeferred.toNat - r.deferredTold) ++ leBytes 2 r.hbmPass ++ leBytes 2 r.deepPass
    ++ leBytes 4 0

/-- What the reliability record counts starts anew. -/
def rasTold (s : State) : State :=
  { s with ras := { s.ras with corrTold := corrTotal s, uncorrTold := uncorrTotal s, reruns := 0, slices := 0,
                               deferredTold := s.ras.stDeferred.toNat } }

/-- R320: SLOWDOWN_HIGH for every queue of a principal's partition whose aggregate slowdown passes its threshold. -/
def raiseSlow (s : State) (p : Nat) : State :=
  (s.k.queues.filter fun q => q.2.part == p && q.2.thresh != 0 && decide (q.2.thresh < slowdown q.2.aggT q.2.aggS)).foldl
    (fun s q => raiseEvent s 0x0002 q.1) s

/-- The records of a message to principal p: those that are always sent, and saturation records with and without events. -/
def telRecords (s : State) (p mask : Nat) : List (List Byte) × List (List Byte) :=
  let on (k : Nat) (l : List (List Byte)) : List (List Byte) := if bitOf mask k then l.map (telRecord k) else []
  let sats := s.k.satRecs.filter fun r => r.2.active && seesPart p (r.1 / 65536 / 65536)
  let sat (l : SMap SatRec) : List (List Byte) := l.map fun r => satRecord (r.1 % 65536) r.2
  let evs := s.events.reverse.filter fun e => seesEvent s p e && !e.told.contains p
  (on 1 (if p = 0 then [deviceRecord s] else []) ++ on 2 (sat (sats.filter fun r => r.2.events != 0))
    ++ on 3 (((span 0 9).filter (seesPart p)).map (poolRecord s))
    ++ on 4 ((s.k.queues.filter fun q => seesPart p q.2.part).map fun q => queueRecord q.1 q.2)
    ++ on 5 (evs.map eventRecord) ++ on 6 (if p = 0 then [reliabilityRecord s] else []),
   on 2 (sat (sats.filter fun r => r.2.events == 0)))

/-- R355: the message, without the records left out of one beyond 64 KiB. -/
def telMessage (s : State) (p mask : Nat) : List Byte :=
  let (must, may) := telRecords s p mask
  let recs := if 65536 < 12 + (must.flatten.length + may.flatten.length) then must else must ++ may
  leBytes 8 s.tick ++ leBytes 4 recs.length ++ recs.flatten

/-- What principal p's partition has counted starts anew. -/
def telReset (s : State) (p : Nat) : State :=
  let q0 (q : Nat × Queue) : Nat × Queue :=
    if q.2.part = p then (q.1, { q.2 with aggT := 0, aggS := 0, aggMax := 0, aggCause := 0, aggJobs := 0, aggOver := 0,
                                          aggViol := 0, aggDon := 0 }) else q
  let r0 (r : Nat × SatRec) : Nat × SatRec := if r.1 / 65536 / 65536 = p then (r.1, { r.2 with active := false }) else r
  { s with k := { s.k with queues := s.k.queues.map q0, satRecs := s.k.satRecs.map r0 },
           mm := { s.mm with pool := SMap.erase s.mm.pool p } }

/-- An event goes once every principal that sees it has been told. -/
def tellEvents (s : State) (p : Nat) : State :=
  let told := s.events.map fun e => if seesEvent s p e then { e with told := p :: e.told.erase p } else e
  { s with events := told.filter fun e => !(e.told.contains 0 && e.told.contains (eventPart s e)) }

/-- TELEMETRY_INTERVAL of a principal. -/
def execTelemetryInterval (principal : Fin 9) (s : State) : Host.Outcome State Fault Refusal :=
  let p := principal.val
  .next (match SMap.get? s.k.principals p with
  | none => s
  | some x =>
    if s.tick < x.nextTelemetry then s
    else
      let s1 := raiseSlow s p
      let s2 := match s1.k.assocs.find? fun a => a.2.principal == p && a.2.lostAt.isNone with
        | some (n, _) => sendMsg s1 n 0x14 (telMessage s1 p x.telemetryMask) []
        | none => s1
      let s3 := if p = 0 && bitOf x.telemetryMask 6 then rasTold s2 else s2
      onK (telReset (tellEvents s3 p) p) fun k => { k with principals := SMap.modify k.principals p fun y =>
        { y with nextTelemetry := s.tick + x.telemetryMs * ticksPerMs } })

/-- TELEMETRY_SET: the principal's own interval and record mask. -/
def execTelemetrySet (rq : Request) (s : State) : Host.Outcome State Fault Refusal :=
  let a := rq.args
  .next (onRequest s rq 0x27 none
    (fun a => argsOk a [(0, 4), (4, 4)] && decide (10 ≤ arg a 0 4) && decide (arg a 0 4 ≤ 10000)
      && setBits (arg a 4 4) 6 1 0 == 0) fun s h p =>
    complete (onK s fun k => { k with principals := SMap.modify k.principals p fun y =>
      { y with telemetryMs := arg a 0 4, telemetryMask := arg a 4 4 } }) h 0)

end Sys2Proof.Machine
end

