-- ==== Sys2Proof/Machine/Dispatch.lean ====
section
/-! DEFINITION. Sys2Proof/Machine/Dispatch.lean: one arm per command, each one direct call of its meaning. -/

namespace Sys2Proof.Machine

def exec (i : Instr) (s : State) : Host.Outcome State Fault Refusal :=
  match i with
  | .registerWrite by_ addr v => Sys2Proof.Machine.execRegisterWrite by_ addr v s
  | .mailboxWordWrite by_ m w v => Sys2Proof.Machine.execMailboxWordWrite by_ m w v s
  | .mailboxPost by_ m v => Sys2Proof.Machine.execMailboxPost by_ m v s
  | .mailboxTake by_ m => Sys2Proof.Machine.execMailboxTake by_ m s
  | .heldMessagePost by_ => Sys2Proof.Machine.execHeldMessagePost by_ s
  | .mbxMaskLock by_ ix v => Sys2Proof.Machine.execMbxMaskLock by_ ix v s
  | .commandDispatch core => Sys2Proof.Machine.execCommandDispatch core s
  | .queueEntryStart core q => Sys2Proof.Machine.execQueueEntryStart core q s
  | .dmaTransferComplete core engine => Sys2Proof.Machine.execDmaTransferComplete core engine s
  | .watchdog core => Sys2Proof.Machine.execWatchdog core s
  | .coreStop by_ core => Sys2Proof.Machine.execCoreStop by_ core s
  | .coreClearResident by_ core => Sys2Proof.Machine.execCoreClearResident by_ core s
  | .coreBistHold by_ core v => Sys2Proof.Machine.execCoreBistHold by_ core v s
  | .coreRetire by_ core => Sys2Proof.Machine.execCoreRetire by_ core s
  | .coreEnable by_ core v => Sys2Proof.Machine.execCoreEnable by_ core v s
  | .coreArrayDutyWrite by_ core v => Sys2Proof.Machine.execCoreArrayDutyWrite by_ core v s
  | .stopIdleTimeout core => Sys2Proof.Machine.execStopIdleTimeout core s
  | .add core w => Sys2Proof.Machine.execAdd core w s
  | .sub core w => Sys2Proof.Machine.execSub core w s
  | .and core w => Sys2Proof.Machine.execAnd core w s
  | .or core w => Sys2Proof.Machine.execOr core w s
  | .xor core w => Sys2Proof.Machine.execXor core w s
  | .sll core w => Sys2Proof.Machine.execSll core w s
  | .srl core w => Sys2Proof.Machine.execSrl core w s
  | .sra core w => Sys2Proof.Machine.execSra core w s
  | .mul core w => Sys2Proof.Machine.execMul core w s
  | .mulh core w => Sys2Proof.Machine.execMulh core w s
  | .mulhu core w => Sys2Proof.Machine.execMulhu core w s
  | .min core w => Sys2Proof.Machine.execMin core w s
  | .max core w => Sys2Proof.Machine.execMax core w s
  | .minu core w => Sys2Proof.Machine.execMinu core w s
  | .maxu core w => Sys2Proof.Machine.execMaxu core w s
  | .cmpEq core w => Sys2Proof.Machine.execCmpEq core w s
  | .cmpNe core w => Sys2Proof.Machine.execCmpNe core w s
  | .cmpLt core w => Sys2Proof.Machine.execCmpLt core w s
  | .cmpGe core w => Sys2Proof.Machine.execCmpGe core w s
  | .cmpLtu core w => Sys2Proof.Machine.execCmpLtu core w s
  | .cmpGeu core w => Sys2Proof.Machine.execCmpGeu core w s
  | .pand core w => Sys2Proof.Machine.execPand core w s
  | .por core w => Sys2Proof.Machine.execPor core w s
  | .pxor core w => Sys2Proof.Machine.execPxor core w s
  | .pandn core w => Sys2Proof.Machine.execPandn core w s
  | .pnot core w => Sys2Proof.Machine.execPnot core w s
  | .sld core w => Sys2Proof.Machine.execSld core w s
  | .sst core w => Sys2Proof.Machine.execSst core w s
  | .sget core w => Sys2Proof.Machine.execSget core w s
  | .b core w => Sys2Proof.Machine.execB core w s
  | .bl core w => Sys2Proof.Machine.execBl core w s
  | .br core w => Sys2Proof.Machine.execBr core w s
  | .brl core w => Sys2Proof.Machine.execBrl core w s
  | .loop core w => Sys2Proof.Machine.execLoop core w s
  | .tld core w => Sys2Proof.Machine.execTld core w s
  | .tst core w => Sys2Proof.Machine.execTst core w s
  | .tpf core w => Sys2Proof.Machine.execTpf core w s
  | .tchk core w => Sys2Proof.Machine.execTchk core w s
  | .tdescLoad core w => Sys2Proof.Machine.execTdescLoad core w s
  | .tdescCopy core w => Sys2Proof.Machine.execTdescCopy core w s
  | .tdescSet core w => Sys2Proof.Machine.execTdescSet core w s
  | .tdescAdd core w => Sys2Proof.Machine.execTdescAdd core w s
  | .tdescSeti core w => Sys2Proof.Machine.execTdescSeti core w s
  | .mwl core w => Sys2Proof.Machine.execMwl core w s
  | .mma core w => Sys2Proof.Machine.execMma core w s
  | .mmas core w => Sys2Proof.Machine.execMmas core w s
  | .maccZero core w => Sys2Proof.Machine.execMaccZero core w s
  | .maccRes core w => Sys2Proof.Machine.execMaccRes core w s
  | .maccUnres core w => Sys2Proof.Machine.execMaccUnres core w s
  | .maccCkpt core w => Sys2Proof.Machine.execMaccCkpt core w s
  | .maccRestore core w => Sys2Proof.Machine.execMaccRestore core w s
  | .kapp core w => Sys2Proof.Machine.execKapp core w s
  | .kseal core w => Sys2Proof.Machine.execKseal core w s
  | .kmap core w => Sys2Proof.Machine.execKmap core w s
  | .kmapPrefetch core w => Sys2Proof.Machine.execKmapPrefetch core w s
  | .eopMov core w => Sys2Proof.Machine.execEopMov core w s
  | .eopAdd core w => Sys2Proof.Machine.execEopAdd core w s
  | .eopSub core w => Sys2Proof.Machine.execEopSub core w s
  | .eopMul core w => Sys2Proof.Machine.execEopMul core w s
  | .eopMin core w => Sys2Proof.Machine.execEopMin core w s
  | .eopMax core w => Sys2Proof.Machine.execEopMax core w s
  | .eopAbs core w => Sys2Proof.Machine.execEopAbs core w s
  | .eopNeg core w => Sys2Proof.Machine.execEopNeg core w s
  | .eopRelu core w => Sys2Proof.Machine.execEopRelu core w s
  | .eopExp2 core w => Sys2Proof.Machine.execEopExp2 core w s
  | .eopExp core w => Sys2Proof.Machine.execEopExp core w s
  | .eopLog2 core w => Sys2Proof.Machine.execEopLog2 core w s
  | .eopRcp core w => Sys2Proof.Machine.execEopRcp core w s
  | .eopRsqrt core w => Sys2Proof.Machine.execEopRsqrt core w s
  | .eopSqrt core w => Sys2Proof.Machine.execEopSqrt core w s
  | .eopSigmoid core w => Sys2Proof.Machine.execEopSigmoid core w s
  | .eopTanh core w => Sys2Proof.Machine.execEopTanh core w s
  | .eopSilu core w => Sys2Proof.Machine.execEopSilu core w s
  | .eopGelu core w => Sys2Proof.Machine.execEopGelu core w s
  | .eopAnd core w => Sys2Proof.Machine.execEopAnd core w s
  | .eopOr core w => Sys2Proof.Machine.execEopOr core w s
  | .eopXor core w => Sys2Proof.Machine.execEopXor core w s
  | .eopShl core w => Sys2Proof.Machine.execEopShl core w s
  | .eopSra core w => Sys2Proof.Machine.execEopSra core w s
  | .erq core w => Sys2Proof.Machine.execErq core w s
  | .esmx core w => Sys2Proof.Machine.execEsmx core w s
  | .enormRms core w => Sys2Proof.Machine.execEnormRms core w s
  | .enormLayer core w => Sys2Proof.Machine.execEnormLayer core w s
  | .egateLstm core w => Sys2Proof.Machine.execEgateLstm core w s
  | .egateGru core w => Sys2Proof.Machine.execEgateGru core w s
  | .egateDssm core w => Sys2Proof.Machine.execEgateDssm core w s
  | .escanScan core w => Sys2Proof.Machine.execEscanScan core w s
  | .escanCombine core w => Sys2Proof.Machine.execEscanCombine core w s
  | .eredSum core w => Sys2Proof.Machine.execEredSum core w s
  | .eredMax core w => Sys2Proof.Machine.execEredMax core w s
  | .eredMin core w => Sys2Proof.Machine.execEredMin core w s
  | .eredArgmax core w => Sys2Proof.Machine.execEredArgmax core w s
  | .eredSumsq core w => Sys2Proof.Machine.execEredSumsq core w s
  | .wquantRange core w => Sys2Proof.Machine.execWquantRange core w s
  | .wquantEncode core w => Sys2Proof.Machine.execWquantEncode core w s
  | .swait core w => Sys2Proof.Machine.execSwait core w s
  | .swaitPeek core w => Sys2Proof.Machine.execSwaitPeek core w s
  | .swaitSatisfy sem => Sys2Proof.Machine.execSwaitSatisfy sem s
  | .spost core w => Sys2Proof.Machine.execSpost core w s
  | .fence core w => Sys2Proof.Machine.execFence core w s
  | .endCmd core w => Sys2Proof.Machine.execEnd core w s
  | .csend core w => Sys2Proof.Machine.execCsend core w s
  | .crecv core w => Sys2Proof.Machine.execCrecv core w s
  | .streamPairTransfer a b ch crcBad => Sys2Proof.Machine.execStreamPairTransfer a b ch crcBad s
  | .lsend core w => Sys2Proof.Machine.execLsend core w s
  | .lrecv core w => Sys2Proof.Machine.execLrecv core w s
  | .keeperEndReport core outs => Sys2Proof.Machine.execKeeperEndReport core outs s
  | .scaleShift model tensor => Sys2Proof.Machine.execScaleShift model tensor s
  | .sessionReingest session => Sys2Proof.Machine.execSessionReingest session s
  | .jobAdmission job => Sys2Proof.Machine.execJobAdmission job s
  | .rotationStart p => Sys2Proof.Machine.execRotationStart p s
  | .schedTableArm by_ p v => Sys2Proof.Machine.execSchedTableArm by_ p v s
  | .sectorOpen p ix => Sys2Proof.Machine.execSectorOpen p ix s
  | .sectorClose p ix => Sys2Proof.Machine.execSectorClose p ix s
  | .semWaitReport core => Sys2Proof.Machine.execSemWaitReport core s
  | .telemetryInterval principal => Sys2Proof.Machine.execTelemetryInterval principal s
  | .otuFill core obj => Sys2Proof.Machine.execOtuFill core obj s
  | .promotionDispatch part => Sys2Proof.Machine.execPromotionDispatch part s
  | .promotionComplete item reads => Sys2Proof.Machine.execPromotionComplete item reads s
  | .demotionComplete item => Sys2Proof.Machine.execDemotionComplete item s
  | .deepCopyWriteComplete item => Sys2Proof.Machine.execDeepCopyWriteComplete item s
  | .objectDelete part obj => Sys2Proof.Machine.execObjectDelete part obj s
  | .pageWalkerPromote session => Sys2Proof.Machine.execPageWalkerPromote session s
  | .otcInvalidate by_ => Sys2Proof.Machine.execOtcInvalidate by_ s
  | .promoPause by_ v => Sys2Proof.Machine.execPromoPause by_ v s
  | .pcieCfgRead by_ => Sys2Proof.Machine.execPcieCfgRead by_ s
  | .pcieCfgWrite by_ v => Sys2Proof.Machine.execPcieCfgWrite by_ v s
  | .pcieRetrain by_ => Sys2Proof.Machine.execPcieRetrain by_ s
  | .pciePerst by_ v => Sys2Proof.Machine.execPciePerst by_ v s
  | .pcieEnable by_ v => Sys2Proof.Machine.execPcieEnable by_ v s
  | .pcieMsixArrival vector => Sys2Proof.Machine.execPcieMsixArrival vector s
  | .pcieInboundRequest addr len wr => Sys2Proof.Machine.execPcieInboundRequest addr len wr s
  | .nvmeCommandComplete id ok => Sys2Proof.Machine.execNvmeCommandComplete id ok s
  | .arpRequest rx => Sys2Proof.Machine.execArpRequest rx s
  | .ndSolicitation rx => Sys2Proof.Machine.execNdSolicitation rx s
  | .icmpEcho rx data => Sys2Proof.Machine.execIcmpEcho rx data s
  | .hostLinkLoss port => Sys2Proof.Machine.execHostLinkLoss port s
  | .hostLinkReturn => Sys2Proof.Machine.execHostLinkReturn s
  | .hostFailover by_ => Sys2Proof.Machine.execHostFailover by_ s
  | .hostPortRestart by_ port => Sys2Proof.Machine.execHostPortRestart by_ port s
  | .tc10SleepRequest port => Sys2Proof.Machine.execTc10SleepRequest port s
  | .tc10Wakeup port => Sys2Proof.Machine.execTc10Wakeup port s
  | .mkaFrame port principal valid up => Sys2Proof.Machine.execMkaFrame port principal valid up s
  | .tctOpen rx hostSeq resume => Sys2Proof.Machine.execTctOpen rx hostSeq resume s
  | .tctClose rx f => Sys2Proof.Machine.execTctClose rx f s
  | .tctRequestFrame rx f => Sys2Proof.Machine.execTctRequestFrame rx f s
  | .tctAck rx f => Sys2Proof.Machine.execTctAck rx f s
  | .tctTime rx f => Sys2Proof.Machine.execTctTime rx f s
  | .tctKeepalive rx f => Sys2Proof.Machine.execTctKeepalive rx f s
  | .tctRetransmitTimeout assoc => Sys2Proof.Machine.execTctRetransmitTimeout assoc s
  | .keepaliveTimer assoc => Sys2Proof.Machine.execKeepaliveTimer assoc s
  | .associationLost assoc => Sys2Proof.Machine.execAssociationLost assoc s
  | .associationExpiry assoc => Sys2Proof.Machine.execAssociationExpiry assoc s
  | .tctOutboundMessage assoc type payload => Sys2Proof.Machine.execTctOutboundMessage assoc type payload s
  | .loadModel rq head => Sys2Proof.Machine.execLoadModel rq head s
  | .unloadModel rq => Sys2Proof.Machine.execUnloadModel rq s
  | .queueCreate rq => Sys2Proof.Machine.execQueueCreate rq s
  | .queueDestroy rq => Sys2Proof.Machine.execQueueDestroy rq s
  | .queueSettings rq => Sys2Proof.Machine.execQueueSettings rq s
  | .scheduleSet rq => Sys2Proof.Machine.execScheduleSet rq s
  | .loadData rq => Sys2Proof.Machine.execLoadData rq s
  | .loadImageTimeout handle => Sys2Proof.Machine.execLoadImageTimeout handle s
  | .storeImage rq head => Sys2Proof.Machine.execStoreImage rq head s
  | .storeDelete rq => Sys2Proof.Machine.execStoreDelete rq s
  | .storeList rq => Sys2Proof.Machine.execStoreList rq s
  | .storeFormat rq => Sys2Proof.Machine.execStoreFormat rq s
  | .openSession rq => Sys2Proof.Machine.execOpenSession rq s
  | .closeSession rq => Sys2Proof.Machine.execCloseSession rq s
  | .sessionSettings rq => Sys2Proof.Machine.execSessionSettings rq s
  | .invoke rq => Sys2Proof.Machine.execInvoke rq s
  | .submitInput rq => Sys2Proof.Machine.execSubmitInput rq s
  | .cancel rq => Sys2Proof.Machine.execCancel rq s
  | .queryHandle rq => Sys2Proof.Machine.execQueryHandle rq s
  | .readOutput rq => Sys2Proof.Machine.execReadOutput rq s
  | .tenantCreate rq => Sys2Proof.Machine.execTenantCreate rq s
  | .tenantRemove rq => Sys2Proof.Machine.execTenantRemove rq s
  | .setMode rq => Sys2Proof.Machine.execSetMode rq s
  | .readRecords rq => Sys2Proof.Machine.execReadRecords rq s
  | .calibrationWrite rq => Sys2Proof.Machine.execCalibrationWrite rq s
  | .calibrationErase rq => Sys2Proof.Machine.execCalibrationErase rq s
  | .calibrationRead rq => Sys2Proof.Machine.execCalibrationRead rq s
  | .attest rq => Sys2Proof.Machine.execAttest rq s
  | .telemetrySet rq => Sys2Proof.Machine.execTelemetrySet rq s
  | .fabricPlace rq => Sys2Proof.Machine.execFabricPlace rq s
  | .memberLeave rq => Sys2Proof.Machine.execMemberLeave rq s
  | .updateInstall rq => Sys2Proof.Machine.execUpdateInstall rq s
  | .updateCommit rq => Sys2Proof.Machine.execUpdateCommit rq s
  | .updateRevert rq => Sys2Proof.Machine.execUpdateRevert rq s
  | .ispParameterUpdate rq => Sys2Proof.Machine.execIspParameterUpdate rq s
  | .modelSwitch rq => Sys2Proof.Machine.execModelSwitch rq s
  | .tenantKeyRotation rq => Sys2Proof.Machine.execTenantKeyRotation rq s
  | .lifeCycleChange rq => Sys2Proof.Machine.execLifeCycleChange rq s
  | .revokeRoot rq => Sys2Proof.Machine.execRevokeRoot rq s
  | .provisionRootDigest rq => Sys2Proof.Machine.execProvisionRootDigest rq s
  | .provisionDeviceKey rq => Sys2Proof.Machine.execProvisionDeviceKey rq s
  | .provisionCertificate rq => Sys2Proof.Machine.execProvisionCertificate rq s
  | .provisionSystemCak rq => Sys2Proof.Machine.execProvisionSystemCak rq s
  | .bootStepClear rq => Sys2Proof.Machine.execBootStepClear rq s
  | .retirementMapClear rq => Sys2Proof.Machine.execRetirementMapClear rq s
  | .updateAutoCommit cls => Sys2Proof.Machine.execUpdateAutoCommit cls s
  | .updateTrialExpiry cls => Sys2Proof.Machine.execUpdateTrialExpiry cls s
  | .agconLinkTrained port lanes => Sys2Proof.Machine.execAgconLinkTrained port lanes s
  | .auth port root ok role peer => Sys2Proof.Machine.execAuth port root ok role peer s
  | .key port f => Sys2Proof.Machine.execKey port f s
  | .agconRekey port => Sys2Proof.Machine.execAgconRekey port s
  | .data port f => Sys2Proof.Machine.execData port f s
  | .credit port f => Sys2Proof.Machine.execCredit port f s
  | .idle port f => Sys2Proof.Machine.execIdle port f s
  | .linkAck port f n => Sys2Proof.Machine.execLinkAck port f n s
  | .linkNak port f n => Sys2Proof.Machine.execLinkNak port f n s
  | .agconLinkDown port => Sys2Proof.Machine.execAgconLinkDown port s
  | .peerLost port => Sys2Proof.Machine.execPeerLost port s
  | .moor port f seg stn => Sys2Proof.Machine.execMoor port f seg stn s
  | .moorEnd port f entries closed => Sys2Proof.Machine.execMoorEnd port f entries closed s
  | .probe port f addr => Sys2Proof.Machine.execProbe port f addr s
  | .segReport port f origin gen entries => Sys2Proof.Machine.execSegReport port f origin gen entries s
  | .lightBuild => Sys2Proof.Machine.execLightBuild s
  | .light port f m => Sys2Proof.Machine.execLight port f m s
  | .memberLost port f origin gen addr => Sys2Proof.Machine.execMemberLost port f origin gen addr s
  | .placeTimeout member => Sys2Proof.Machine.execPlaceTimeout member s
  | .rerun port f => Sys2Proof.Machine.execRerun port f s
  | .place port f => Sys2Proof.Machine.execPlace port f s
  | .move port f => Sys2Proof.Machine.execMove port f s
  | .keyRetire port f tenant gen => Sys2Proof.Machine.execKeyRetire port f tenant gen s
  | .keyRetireAck port f tenant gen phase => Sys2Proof.Machine.execKeyRetireAck port f tenant gen phase s
  | .fabricControlSend port f => Sys2Proof.Machine.execFabricControlSend port f s
  | .moorStart by_ => Sys2Proof.Machine.execMoorStart by_ s
  | .routeCommit by_ => Sys2Proof.Machine.execRouteCommit by_ s
  | .agconPortRestart by_ mask => Sys2Proof.Machine.execAgconPortRestart by_ mask s
  | .aonReset => Sys2Proof.Machine.execAonReset s
  | .ringFrameRecord samples => Sys2Proof.Machine.execRingFrameRecord samples s
  | .aonRunStart by_ => Sys2Proof.Machine.execAonRunStart by_ s
  | .aonRunStop by_ => Sys2Proof.Machine.execAonRunStop by_ s
  | .aonLatch by_ => Sys2Proof.Machine.execAonLatch by_ s
  | .dspResetAssert by_ => Sys2Proof.Machine.execDspResetAssert by_ s
  | .dspResetRelease by_ => Sys2Proof.Machine.execDspResetRelease by_ s
  | .aonConfigWrite by_ reg v => Sys2Proof.Machine.execAonConfigWrite by_ reg v s
  | .ringGatedRead by_ off n => Sys2Proof.Machine.execRingGatedRead by_ off n s
  | .aonPosLowRead by_ r => Sys2Proof.Machine.execAonPosLowRead by_ r s
  | .gateServiceOpen by_ => Sys2Proof.Machine.execGateServiceOpen by_ s
  | .gateClose by_ => Sys2Proof.Machine.execGateClose by_ s
  | .gateExpiry => Sys2Proof.Machine.execGateExpiry s
  | .candidateOpen by_ => Sys2Proof.Machine.execCandidateOpen by_ s
  | .candidateClose by_ => Sys2Proof.Machine.execCandidateClose by_ s
  | .candidateExpiry => Sys2Proof.Machine.execCandidateExpiry s
  | .wake m => Sys2Proof.Machine.execWake m s
  | .event m => Sys2Proof.Machine.execEvent m s
  | .closed m => Sys2Proof.Machine.execClosed m s
  | .wakeVerdict number confirmed => Sys2Proof.Machine.execWakeVerdict number confirmed s
  | .dspPing => Sys2Proof.Machine.execDspPing s
  | .modeRequest by_ mode => Sys2Proof.Machine.execModeRequest by_ mode s
  | .modeTransitionComplete => Sys2Proof.Machine.execModeTransitionComplete s
  | .backgroundTrainingDone => Sys2Proof.Machine.execBackgroundTrainingDone s
  | .idleHoldExpiry => Sys2Proof.Machine.execIdleHoldExpiry s
  | .deferredDownTimeout => Sys2Proof.Machine.execDeferredDownTimeout s
  | .csiFrameStart port vc hdr number => Sys2Proof.Machine.execCsiFrameStart port vc hdr number s
  | .csiFrameEnd port vc hdr => Sys2Proof.Machine.execCsiFrameEnd port vc hdr s
  | .csiLinePacket port vc hdr dt px crcBad full => Sys2Proof.Machine.execCsiLinePacket port vc hdr dt px crcBad full s
  | .csiShortPacketIgnored port hdr => Sys2Proof.Machine.execCsiShortPacketIgnored port hdr s
  | .camFrameTimeout ctx => Sys2Proof.Machine.execCamFrameTimeout ctx s
  | .camFrameDone ctx => Sys2Proof.Machine.execCamFrameDone ctx s
  | .camBufferRelease by_ ctx mask => Sys2Proof.Machine.execCamBufferRelease by_ ctx mask s
  | .camContextEnable by_ ctx v => Sys2Proof.Machine.execCamContextEnable by_ ctx v s
  | .camParamHold by_ ctx v => Sys2Proof.Machine.execCamParamHold by_ ctx v s
  | .camLowRate by_ v => Sys2Proof.Machine.execCamLowRate by_ v s
  | .camPortEnable by_ port v => Sys2Proof.Machine.execCamPortEnable by_ port v s
  | .secZeroiseAll by_ => Sys2Proof.Machine.execSecZeroiseAll by_ s
  | .secOwnerUnlock by_ v => Sys2Proof.Machine.execSecOwnerUnlock by_ v s
  | .secRequest => Sys2Proof.Machine.execSecRequest s
  | .secResult => Sys2Proof.Machine.execSecResult s
  | .secRestart header => Sys2Proof.Machine.execSecRestart header s
  | .trngHealthFail => Sys2Proof.Machine.execTrngHealthFail s
  | .tenantDrainComplete tenant => Sys2Proof.Machine.execTenantDrainComplete tenant s
  | .tenantScrubComplete tenant => Sys2Proof.Machine.execTenantScrubComplete tenant s
  | .quenchAckTimeout tenant member => Sys2Proof.Machine.execQuenchAckTimeout tenant member s
  | .keeperRestart ok => Sys2Proof.Machine.execKeeperRestart ok s
  | .alarmPath cause => Sys2Proof.Machine.execAlarmPath cause s
  | .alarmForce by_ v => Sys2Proof.Machine.execAlarmForce by_ v s
  | .healthMonitorSample => Sys2Proof.Machine.execHealthMonitorSample s
  | .hbmPatrolScrub corr uncorr done => Sys2Proof.Machine.execHbmPatrolScrub corr uncorr done s
  | .deepPatrolScrub item reads done => Sys2Proof.Machine.execDeepPatrolScrub item reads done s
  | .sramScrub found => Sys2Proof.Machine.execSramScrub found s
  | .scrubLate deep => Sys2Proof.Machine.execScrubLate deep s
  | .mramWearRemap block => Sys2Proof.Machine.execMramWearRemap block s
  | .interfaceCalibration ifc temp => Sys2Proof.Machine.execInterfaceCalibration ifc temp s
  | .monitorRecalibration trims => Sys2Proof.Machine.execMonitorRecalibration trims s
  | .selftestSlice slice vdd pass => Sys2Proof.Machine.execSelftestSlice slice vdd pass s
  | .selftestDeferRetry slice vdd pass => Sys2Proof.Machine.execSelftestDeferRetry slice vdd pass s
  | .coldStart obs => Sys2Proof.Machine.execColdStart obs s
  | .memoryTrainingDone hbm => Sys2Proof.Machine.execMemoryTrainingDone hbm s
  | .bootWatchdog => Sys2Proof.Machine.execBootWatchdog s
  | .warmStart obs => Sys2Proof.Machine.execWarmStart obs s
  | .logbookDropSummary => Sys2Proof.Machine.execLogbookDropSummary s
  | .mainPgRise => Sys2Proof.Machine.execMainPgRise s
  | .mainPgFall => Sys2Proof.Machine.execMainPgFall s
  | .mainPgTimeout => Sys2Proof.Machine.execMainPgTimeout s
  | .mainEnRetry => Sys2Proof.Machine.execMainEnRetry s
  | .porstNAssert => Sys2Proof.Machine.execPorstNAssert s
  | .porstNRelease => Sys2Proof.Machine.execPorstNRelease s
  | .throttleNChange low => Sys2Proof.Machine.execThrottleNChange low s
  | .powerCapStep p temps => Sys2Proof.Machine.execPowerCapStep p temps s
  | .powerCapUnmet => Sys2Proof.Machine.execPowerCapUnmet s
  | .thermalTrip => Sys2Proof.Machine.execThermalTrip s
  | .thermalTripRelease => Sys2Proof.Machine.execThermalTripRelease s
  | .thermalTripTimeout => Sys2Proof.Machine.execThermalTripTimeout s
  | .sysTickRead by_ => Sys2Proof.Machine.execSysTickRead by_ s
  | .periOspiGo by_ v => Sys2Proof.Machine.execPeriOspiGo by_ v s
  | .ospiWindowRead by_ off => Sys2Proof.Machine.execOspiWindowRead by_ off s
  | .ospiCommandDone data ch => Sys2Proof.Machine.execOspiCommandDone data ch s
  | .ospiCommandTimeout => Sys2Proof.Machine.execOspiCommandTimeout s
  | .i2cTransfer by_ b v => Sys2Proof.Machine.execI2cTransfer by_ b v s
  | .i2cTransferDone b sent data nack arbLost => Sys2Proof.Machine.execI2cTransferDone b sent data nack arbLost s
  | .i2cStretchTimeout b sent data => Sys2Proof.Machine.execI2cStretchTimeout b sent data s
  | .i2cFifoWrite by_ b v => Sys2Proof.Machine.execI2cFifoWrite by_ b v s
  | .i2cFifoRead by_ b => Sys2Proof.Machine.execI2cFifoRead by_ b s
  | .spiTransfer by_ b v => Sys2Proof.Machine.execSpiTransfer by_ b v s
  | .spiTransferDone b data => Sys2Proof.Machine.execSpiTransferDone b data s
  | .spiFifoWrite by_ b v => Sys2Proof.Machine.execSpiFifoWrite by_ b v s
  | .spiFifoRead by_ b => Sys2Proof.Machine.execSpiFifoRead by_ b s
  | .gpioInterrupt pin level => Sys2Proof.Machine.execGpioInterrupt pin level s
  | .uartDataWrite by_ v => Sys2Proof.Machine.execUartDataWrite by_ v s
  | .uartDataRead by_ => Sys2Proof.Machine.execUartDataRead by_ s
  | .uartRxByte v => Sys2Proof.Machine.execUartRxByte v s
  | .queuedInstructionComplete core element => Sys2Proof.Machine.execQueuedInstructionComplete core element s
  | .hostLinkUp port sqi => Sys2Proof.Machine.execHostLinkUp port sqi s
  | .hostFrameDropped port cause => Sys2Proof.Machine.execHostFrameDropped port cause s
  | .agconFrameRejected port cause => Sys2Proof.Machine.execAgconFrameRejected port cause s
  | .csiLaneStateChange port st lanes => Sys2Proof.Machine.execCsiLaneStateChange port st lanes s
  | .pcieLinkChange up speed width => Sys2Proof.Machine.execPcieLinkChange up speed width s
  | .uartTxByteDone => Sys2Proof.Machine.execUartTxByteDone s
  | .keyRewriteComplete tenant => Sys2Proof.Machine.execKeyRewriteComplete tenant s

end Sys2Proof.Machine
end

