-- ==== Sys2Proof/Machine/Idle.lean ====
section
/-! DEFINITION. Sys2Proof/Machine/Idle.lean: what passes when no command waits: one tick of the device clock. -/

namespace Sys2Proof.Machine

/-- R94, R95: ARRAY_CLK cycles in one device tick (750 MHz against 250 MHz, R6, R93). -/
def cyclesPerTick : Nat := 3

/-- R94: the cycle counter of a core that runs or drains. -/
def countCycles (c : Core) : Core :=
  if c.st == .running || c.st == .stopping then { c with cycTotal := satAdd c.cycTotal cyclesPerTick } else c

/-- The clocks of one device tick. -/
def tickOn (s : State) : State :=
  { s with tick := (s.tick + 1) % 2 ^ 64, cores := s.cores.map fun e => (e.1, countCycles e.2) }

/-- One device tick passes (DESIGN CHOICE, log 13: the table has no row for the clock); frames of the device to its own address, if
any, arrive. -/
def idle (s : State) : State := tickOn (if s.fab.selfQ = [] then s else drainOwn s)

end Sys2Proof.Machine
end

