-- ==== Sys2Proof/Safety.lean ====
section
/-! DEFINITION. Sys2Proof/Safety.lean: the terms in which claims speak: what a command answers, the canonical form of the state,
and what every command keeps. -/

namespace Sys2Proof.Machine

/-- Command i at state s answers a next state, and P holds of it. -/
def Answers (i : Instr) (s : State) (P : State → Prop) : Prop := ∃ t, exec i s = .next t ∧ P t

/-- R439, R440: fuses are blown and never restored: from a to b each group of fuses keeps what was blown, a programmed key
root stays, a rollback count does not fall, and a destroyed device secret does not come back. -/
structure FusesGrow (a b : Otp) : Prop where
  provision : a.lcProvision &&& b.lcProvision = a.lcProvision
  field : a.lcField &&& b.lcField = a.lcField
  retired : a.lcRetired &&& b.lcRetired = a.lcRetired
  serviceIn : a.serviceIn ≤ b.serviceIn
  serviceOut : a.serviceOut ≤ b.serviceOut
  root0 : a.root0.isSome → b.root0 = a.root0
  root1 : a.root1.isSome → b.root1 = a.root1
  revoked0 : a.revoked0 &&& b.revoked0 = a.revoked0
  revoked1 : a.revoked1 &&& b.revoked1 = a.revoked1
  rollback : ∀ c, SMap.getD a.rollback c 0 ≤ SMap.getD b.rollback c 0
  secret : b.deviceSecret = true → a.deviceSecret = true

/-- What every command keeps, whatever it does: device memory stays in canonical form, the queue of waiting commands is not the
command's to change, fuses only blow (R439), and neither a logbook sequence number (R505) nor a free value's number comes back. -/
structure Keeps (s t : State) : Prop where
  memory : Memory.wf s.mem = true → Memory.wf t.mem = true
  queue : t.pending = s.pending
  fuses : FusesGrow s.otp t.otp
  logbook : s.log.next ≤ t.log.next
  free : s.freeCtr ≤ t.freeCtr

/-- The invariant of the machine: device memory is in canonical form. -/
def Inv (s : State) : Prop := Memory.wf s.mem = true

/-! ### Kuner words -/

/-- Core n once its sequencer has fetched the word at the pc, and whether the line held an uncorrectable error: the line joins
the instruction cache and its single errors are corrected (R66, R78), unless its HBM data is poisoned (R553). -/
def fetched (s : State) (n : Nat) : State × Bool :=
  let c := fetchLine (coreOf s n)
  let k := eccLine ((c.progBase + c.pc) / 256)
  let r := eccRead c k k
  if fillPoisoned s n then (s, true) else (setCore s n r.1, r.2)

/-- The sequencer of core `core` comes to the guard of w: it issues, w lies below the program length and was fetched without an
uncorrectable error, spells the row `code` legally, and no TCHK holds back its guard (R105, R107, R128). -/
structure Reaches (code : Nat) (core : Fin 32) (w : BitVec 64) (s : State) : Prop where
  issues : issuing (coreOf s core.val) = true
  clean : (fetched s core.val).2 = false
  inside : (coreOf s core.val).pc < (coreOf s core.val).progLen
  row : rowCode w = some code
  legal : legal w = true
  guardKnown : guardWaits (coreOf s core.val) w = false

/-- The core takes w to its meaning: the guard passes, and no TCHK holds back another predicate that w reads or writes. -/
structure Runs (code : Nat) (core : Fin 32) (w : BitVec 64) (s : State) : Prop extends Reaches code core w s where
  guard : guardOk (coreOf s core.val) w = true
  ready : operandWaits (coreOf s core.val) w = false

/-- The state after a word that changes only its core: the line is fetched, f runs on the core. -/
def after (s : State) (core : Fin 32) (f : Core → Core) : State := onCore (fetched s core.val).1 core.val f

/-- A row that takes a core and a word. -/
abbrev KunerRow := Fin 32 → BitVec 64 → Instr

/-- R115: the fifteen ALU rows, their row codes and what each makes of a and b. -/
def aluRows : List (KunerRow × Nat × (Word → Word → Word)) :=
  [(.add, 0, fun a b => a + b), (.sub, 1, fun a b => a - b), (.and, 2, fun a b => a &&& b), (.or, 3, fun a b => a ||| b),
   (.xor, 4, fun a b => a ^^^ b), (.sll, 5, fun a b => a <<< (b &&& 31)), (.srl, 6, fun a b => a >>> (b &&& 31)),
   (.sra, 7, fun a b => a.sshiftRight' (b &&& 31)), (.mul, 8, fun a b => BitVec.ofNat 32 (a.toNat * b.toNat)),
   (.mulh, 9, fun a b => (a.signExtend 64 * b.signExtend 64).extractLsb' 32 32),
   (.mulhu, 10, fun a b => (a.zeroExtend 64 * b.zeroExtend 64).extractLsb' 32 32),
   (.min, 11, fun a b => if a.toInt ≤ b.toInt then a else b), (.max, 12, fun a b => if a.toInt ≤ b.toInt then b else a),
   (.minu, 13, fun a b => if a.toNat ≤ b.toNat then a else b), (.maxu, 14, fun a b => if a.toNat ≤ b.toNat then b else a)]

/-- R116: the six CMP rows, their row codes and what each asks of a and b. -/
def cmpRows : List (KunerRow × Nat × (Word → Word → Bool)) :=
  [(.cmpEq, 128, fun a b => decide (a = b)), (.cmpNe, 129, fun a b => decide (a ≠ b)),
   (.cmpLt, 130, fun a b => decide (a.toInt < b.toInt)), (.cmpGe, 131, fun a b => decide (b.toInt ≤ a.toInt)),
   (.cmpLtu, 132, fun a b => decide (a.toNat < b.toNat)), (.cmpGeu, 133, fun a b => decide (b.toNat ≤ a.toNat))]

/-- R117: the five rows of predicate logic, their row codes and what each makes of pa and pb. -/
def predRows : List (KunerRow × Nat × (Bool → Bool → Bool)) :=
  [(.pand, 256, fun a b => a && b), (.por, 257, fun a b => a || b), (.pxor, 258, fun a b => xor a b),
   (.pandn, 259, fun a b => a && !b), (.pnot, 260, fun a _ => !a)]

/-- R88, R136: the rows that go to an issue queue, their row codes and operations. -/
def queuedRows : List (KunerRow × Nat × QOp) :=
  [(.tld, 1024, .tld), (.tst, 1088, .tst), (.tpf, 1152, .tpf), (.tchk, 1216, .tchk), (.csend, 1728, .csend),
   (.crecv, 1792, .crecv), (.lsend, 1856, .lsend), (.lrecv, 1920, .lrecv), (.mwl, 2048, .mwl), (.mma, 2112, .mma),
   (.mmas, 2176, .mmas), (.maccZero, 2240, .macc), (.maccRes, 2241, .macc), (.maccUnres, 2242, .macc),
   (.maccCkpt, 2243, .macc), (.maccRestore, 2244, .macc), (.kapp, 2304, .kapp), (.kseal, 2368, .kseal), (.kmap, 2432, .kmap),
   (.kmapPrefetch, 2433, .kmap), (.eopMov, 3072, .eop), (.eopAdd, 3073, .eop), (.eopSub, 3074, .eop), (.eopMul, 3075, .eop),
   (.eopMin, 3076, .eop), (.eopMax, 3077, .eop), (.eopAbs, 3078, .eop), (.eopNeg, 3079, .eop), (.eopRelu, 3080, .eop),
   (.eopExp2, 3088, .eop), (.eopExp, 3089, .eop), (.eopLog2, 3090, .eop), (.eopRcp, 3091, .eop), (.eopRsqrt, 3092, .eop),
   (.eopSqrt, 3093, .eop), (.eopSigmoid, 3094, .eop), (.eopTanh, 3095, .eop), (.eopSilu, 3096, .eop), (.eopGelu, 3097, .eop),
   (.eopAnd, 3104, .eop), (.eopOr, 3105, .eop), (.eopXor, 3106, .eop), (.eopShl, 3107, .eop), (.eopSra, 3108, .eop),
   (.erq, 3136, .erq), (.esmx, 3200, .esmx), (.enormRms, 3264, .enorm), (.enormLayer, 3265, .enorm),
   (.egateLstm, 3328, .egate), (.egateGru, 3329, .egate), (.egateDssm, 3330, .egate), (.escanScan, 3392, .escan),
   (.escanCombine, 3393, .escan), (.eredSum, 3456, .ered), (.eredMax, 3457, .ered), (.eredMin, 3458, .ered),
   (.eredArgmax, 3459, .ered), (.eredSumsq, 3460, .ered), (.wquantRange, 3520, .wquant), (.wquantEncode, 3521, .wquant)]

/-! ### Host requests -/

/-- R341: the permission bit that a request code needs; none needs any. -/
def permOf : Nat → Option Nat
  | 0x07 | 0x26 | 0x27 => none
  | 0x01 | 0x02 | 0x03 | 0x04 | 0x05 | 0x06 => some 0
  | 0x10 | 0x11 | 0x12 | 0x13 | 0x14 | 0x17 => some 1
  | 0x23 => some 2
  | 0x24 => some 4
  | 0x25 => some 5
  | _ => some 3

/-- Is a settings byte in range where its mask bit is set? -/
def maskedIn (a : List Byte) (k off lo hi : Nat) : Bool :=
  !bitOf (arg a 2 1) k || (decide (lo ≤ arg a off 1) && decide (arg a off 1 ≤ hi))

/-- R341: the arguments that a request code takes: its fields present, in range, and every other byte 0. -/
def argsFit (code : Nat) (a : List Byte) : Bool :=
  match code with
  | 0x01 => loadArgsOk a
  | 0x02 | 0x04 => argsOk a [(0, 2)]
  | 0x03 => queueArgsOk a
  | 0x05 => argsOk a [(0, 2), (2, 1), (3, 1), (4, 1), (5, 1), (6, 2)] && decide (arg a 2 1 ≤ 15) && maskedIn a 0 3 0 1
      && maskedIn a 1 4 0 7 && maskedIn a 2 5 1 16 && (!bitOf (arg a 2 1) 3 || threshOk (arg a 6 2))
  | 0x06 => decide (64 < arg a 4 1) || (argsOk a ([(0, 4), (4, 1)] ++ (span 0 (arg a 4 1)).map fun i => (16 + 16 * i, 16))
      && (span 0 (arg a 4 1)).all fun i => sectorBytesOk (part a (16 + 16 * i) 16))
  | 0x07 => argsOk a [(0, 4), (4, 4)]
  | 0x08 => argsOk a [(0, 4), (4, 4)] && decide (1 ≤ arg a 0 4) && decide (arg a 0 4 ≤ 4095) && decide (1 ≤ arg a 4 4)
      && decide (arg a 4 4 ≤ 16777216)
  | 0x09 | 0x11 => argsOk a [(0, 4)]
  | 0x0A => argsOk a [(0, 4), (4, 4)] && decide (1 ≤ arg a 4 4) && decide (arg a 4 4 ≤ 4095)
  | 0x0B => argsOk a [(0, 4)] && arg a 0 4 == 0x464D5453
  | 0x10 => argsOk a [(0, 2), (2, 2), (4, 1)] && (decide (arg a 4 1 ≤ 1) || arg a 4 1 == 0xFF)
  | 0x12 => argsOk a [(0, 4), (4, 1), (5, 1)] && (decide (arg a 4 1 ≤ 1) || arg a 4 1 == 0xFF) && decide (arg a 5 1 ≤ 1)
  | 0x13 => argsOk a invokeFields && decide (arg a 8 1 ≤ 3) && decide (arg a 9 1 ≤ 1)
  | 0x14 | 0x17 => argsOk a [(0, 4), (4, 4), (8, 4)]
  | 0x20 => argsOk a [(0, 1), (1, 1), (2, 2), (4, 4), (8, 2), (10, 2), (12, 4), (16, 4), (32, 512)]
  | 0x21 => argsOk a [(0, 1)]
  | 0x22 => argsOk a [(0, 1), (4, 4), (8, 4), (12, 4)] && (decide (arg a 0 1 ≤ 3) || arg a 0 1 == 0xFF) && holdOk (arg a 4 4)
      && holdOk (arg a 8 4) && holdOk (arg a 12 4)
  | 0x23 => argsOk a [(0, 4), (4, 4)] && decide (1 ≤ arg a 4 4) && decide (arg a 4 4 ≤ 65536)
  | 0x24 => calArgsOk a
  | 0x25 => updateArgsOk a
  | 0x26 => argsOk a [(0, 32), (32, 4)] && decide (arg a 32 4 < 256)
  | 0x27 => argsOk a [(0, 4), (4, 4)] && decide (10 ≤ arg a 0 4) && decide (arg a 0 4 ≤ 10000)
      && setBits (arg a 4 4) 6 1 0 == 0
  | 0x28 => placeArgsOk a
  | 0x29 => argsOk a [(0, 2), (2, 2), (4, 1)] && decide (arg a 4 1 ≤ 1)
  | _ => false

/-- The rows of UPDATE (R515). -/
def updateRows : List (Request → Instr) :=
  [.updateInstall, .updateCommit, .updateRevert, .ispParameterUpdate, .modelSwitch, .tenantKeyRotation, .lifeCycleChange,
   .revokeRoot, .provisionRootDigest, .provisionDeviceKey, .provisionCertificate, .provisionSystemCak, .bootStepClear,
   .retirementMapClear]

/-- Every row that takes a host request and its code (R341); `head` is the image header that LOAD_MODEL and STORE_IMAGE bring. -/
def requestRows (head : List Byte) : List ((Request → Instr) × Nat) :=
  [(fun r => .loadModel r head, 0x01), (.unloadModel, 0x02), (.queueCreate, 0x03), (.queueDestroy, 0x04), (.queueSettings, 0x05),
   (.scheduleSet, 0x06), (.loadData, 0x07), (fun r => .storeImage r head, 0x08), (.storeDelete, 0x09), (.storeList, 0x0A),
   (.storeFormat, 0x0B), (.openSession, 0x10), (.closeSession, 0x11), (.sessionSettings, 0x12), (.invoke, 0x13),
   (.submitInput, 0x14), (.readOutput, 0x17), (.tenantCreate, 0x20), (.tenantRemove, 0x21), (.setMode, 0x22),
   (.readRecords, 0x23), (.calibrationWrite, 0x24), (.calibrationErase, 0x24), (.calibrationRead, 0x24), (.attest, 0x26),
   (.telemetrySet, 0x27), (.fabricPlace, 0x28), (.memberLeave, 0x29)] ++ updateRows.map fun r => (r, 0x25)

/-- A request of a code is taken at s as handle h of principal p, with permission and good arguments, which leads to t. -/
structure Accepted (code : Nat) (rq : Request) (s t : State) (h p : Nat) : Prop where
  offered : offer s rq code = .taken t h p
  allowed : (permOf code).all (fun k => permitted t p k) = true
  args : argsFit code rq.args = true

/-! ### Agcon -/

/-- R365: port p is up and authenticated and frame f bears the counter that it expects. -/
structure Arrives (s : State) (p : Nat) (f : FabFrame) : Prop where
  enabled : s.fab.en = true
  up : (fabPort s p).state = 3
  counter : counterOk (fabPort s p) f = true

/-- R365: the state after frame f of link type `type` was accepted on port p: counted, the next counter expected, acknowledged
unless it is an acknowledgement itself, and its credits given back. -/
def accepted (s : State) (p type : Nat) (f : FabFrame) : State :=
  let s1 := modFabPort (fabCount s 0x204 1) p fun x =>
    if f.epoch = x.rxEpoch then { x with rxNext := x.rxNext + 1 } else { x with rxEpoch := f.epoch, rxNext := 1, rxKey := false }
  giveCredits (if type = 0x04 then s1 else linkAck s1 p) { f with type := type }

/-! ### The life cycle -/

/-- R438, R439: how far a life-cycle state is: RAW, PROVISION, FIELD or SERVICE, RETIRED. -/
def lifeRank (lc : Nat) : Nat := if lc = 3 then 2 else if lc = 4 then 3 else lc

end Sys2Proof.Machine
end

