-- ==== Sys2Proof/WellFormed.lean ====
section
/-! DEFINITION. Sys2Proof/WellFormed.lean: which commands are well formed.  The types of the operands hold every bound but
one: the word of a Kuner row must spell that row, or no row at all (an unassigned opcode, which any row takes to
ILLEGAL_INSTR). -/

namespace Sys2Proof

/-- The row code and the word of a Kuner row; none for the rows of every other kind. -/
def Instr.kuner : Instr → Option (Nat × BitVec 64)
  | .registerWrite .. => none
  | .mailboxWordWrite .. => none
  | .mailboxPost .. => none
  | .mailboxTake .. => none
  | .heldMessagePost .. => none
  | .mbxMaskLock .. => none
  | .commandDispatch .. => none
  | .queueEntryStart .. => none
  | .dmaTransferComplete .. => none
  | .watchdog .. => none
  | .coreStop .. => none
  | .coreClearResident .. => none
  | .coreBistHold .. => none
  | .coreRetire .. => none
  | .coreEnable .. => none
  | .coreArrayDutyWrite .. => none
  | .stopIdleTimeout .. => none
  | .add _ w => some (0, w)
  | .sub _ w => some (1, w)
  | .and _ w => some (2, w)
  | .or _ w => some (3, w)
  | .xor _ w => some (4, w)
  | .sll _ w => some (5, w)
  | .srl _ w => some (6, w)
  | .sra _ w => some (7, w)
  | .mul _ w => some (8, w)
  | .mulh _ w => some (9, w)
  | .mulhu _ w => some (10, w)
  | .min _ w => some (11, w)
  | .max _ w => some (12, w)
  | .minu _ w => some (13, w)
  | .maxu _ w => some (14, w)
  | .cmpEq _ w => some (128, w)
  | .cmpNe _ w => some (129, w)
  | .cmpLt _ w => some (130, w)
  | .cmpGe _ w => some (131, w)
  | .cmpLtu _ w => some (132, w)
  | .cmpGeu _ w => some (133, w)
  | .pand _ w => some (256, w)
  | .por _ w => some (257, w)
  | .pxor _ w => some (258, w)
  | .pandn _ w => some (259, w)
  | .pnot _ w => some (260, w)
  | .sld _ w => some (320, w)
  | .sst _ w => some (321, w)
  | .sget _ w => some (384, w)
  | .b _ w => some (512, w)
  | .bl _ w => some (513, w)
  | .br _ w => some (514, w)
  | .brl _ w => some (515, w)
  | .loop _ w => some (576, w)
  | .tld _ w => some (1024, w)
  | .tst _ w => some (1088, w)
  | .tpf _ w => some (1152, w)
  | .tchk _ w => some (1216, w)
  | .tdescLoad _ w => some (1280, w)
  | .tdescCopy _ w => some (1281, w)
  | .tdescSet _ w => some (1282, w)
  | .tdescAdd _ w => some (1283, w)
  | .tdescSeti _ w => some (1284, w)
  | .mwl _ w => some (2048, w)
  | .mma _ w => some (2112, w)
  | .mmas _ w => some (2176, w)
  | .maccZero _ w => some (2240, w)
  | .maccRes _ w => some (2241, w)
  | .maccUnres _ w => some (2242, w)
  | .maccCkpt _ w => some (2243, w)
  | .maccRestore _ w => some (2244, w)
  | .kapp _ w => some (2304, w)
  | .kseal _ w => some (2368, w)
  | .kmap _ w => some (2432, w)
  | .kmapPrefetch _ w => some (2433, w)
  | .eopMov _ w => some (3072, w)
  | .eopAdd _ w => some (3073, w)
  | .eopSub _ w => some (3074, w)
  | .eopMul _ w => some (3075, w)
  | .eopMin _ w => some (3076, w)
  | .eopMax _ w => some (3077, w)
  | .eopAbs _ w => some (3078, w)
  | .eopNeg _ w => some (3079, w)
  | .eopRelu _ w => some (3080, w)
  | .eopExp2 _ w => some (3088, w)
  | .eopExp _ w => some (3089, w)
  | .eopLog2 _ w => some (3090, w)
  | .eopRcp _ w => some (3091, w)
  | .eopRsqrt _ w => some (3092, w)
  | .eopSqrt _ w => some (3093, w)
  | .eopSigmoid _ w => some (3094, w)
  | .eopTanh _ w => some (3095, w)
  | .eopSilu _ w => some (3096, w)
  | .eopGelu _ w => some (3097, w)
  | .eopAnd _ w => some (3104, w)
  | .eopOr _ w => some (3105, w)
  | .eopXor _ w => some (3106, w)
  | .eopShl _ w => some (3107, w)
  | .eopSra _ w => some (3108, w)
  | .erq _ w => some (3136, w)
  | .esmx _ w => some (3200, w)
  | .enormRms _ w => some (3264, w)
  | .enormLayer _ w => some (3265, w)
  | .egateLstm _ w => some (3328, w)
  | .egateGru _ w => some (3329, w)
  | .egateDssm _ w => some (3330, w)
  | .escanScan _ w => some (3392, w)
  | .escanCombine _ w => some (3393, w)
  | .eredSum _ w => some (3456, w)
  | .eredMax _ w => some (3457, w)
  | .eredMin _ w => some (3458, w)
  | .eredArgmax _ w => some (3459, w)
  | .eredSumsq _ w => some (3460, w)
  | .wquantRange _ w => some (3520, w)
  | .wquantEncode _ w => some (3521, w)
  | .swait _ w => some (1536, w)
  | .swaitPeek _ w => some (1537, w)
  | .swaitSatisfy .. => none
  | .spost _ w => some (1600, w)
  | .fence _ w => some (1664, w)
  | .endCmd _ w => some (1984, w)
  | .csend _ w => some (1728, w)
  | .crecv _ w => some (1792, w)
  | .streamPairTransfer .. => none
  | .lsend _ w => some (1856, w)
  | .lrecv _ w => some (1920, w)
  | .keeperEndReport .. => none
  | .scaleShift .. => none
  | .sessionReingest .. => none
  | .jobAdmission .. => none
  | .rotationStart .. => none
  | .schedTableArm .. => none
  | .sectorOpen .. => none
  | .sectorClose .. => none
  | .semWaitReport .. => none
  | .telemetryInterval .. => none
  | .otuFill .. => none
  | .promotionDispatch .. => none
  | .promotionComplete .. => none
  | .demotionComplete .. => none
  | .deepCopyWriteComplete .. => none
  | .objectDelete .. => none
  | .pageWalkerPromote .. => none
  | .otcInvalidate .. => none
  | .promoPause .. => none
  | .pcieCfgRead .. => none
  | .pcieCfgWrite .. => none
  | .pcieRetrain .. => none
  | .pciePerst .. => none
  | .pcieEnable .. => none
  | .pcieMsixArrival .. => none
  | .pcieInboundRequest .. => none
  | .nvmeCommandComplete .. => none
  | .arpRequest .. => none
  | .ndSolicitation .. => none
  | .icmpEcho .. => none
  | .hostLinkLoss .. => none
  | .hostLinkReturn .. => none
  | .hostFailover .. => none
  | .hostPortRestart .. => none
  | .tc10SleepRequest .. => none
  | .tc10Wakeup .. => none
  | .mkaFrame .. => none
  | .tctOpen .. => none
  | .tctClose .. => none
  | .tctRequestFrame .. => none
  | .tctAck .. => none
  | .tctTime .. => none
  | .tctKeepalive .. => none
  | .tctRetransmitTimeout .. => none
  | .keepaliveTimer .. => none
  | .associationLost .. => none
  | .associationExpiry .. => none
  | .tctOutboundMessage .. => none
  | .loadModel .. => none
  | .unloadModel .. => none
  | .queueCreate .. => none
  | .queueDestroy .. => none
  | .queueSettings .. => none
  | .scheduleSet .. => none
  | .loadData .. => none
  | .loadImageTimeout .. => none
  | .storeImage .. => none
  | .storeDelete .. => none
  | .storeList .. => none
  | .storeFormat .. => none
  | .openSession .. => none
  | .closeSession .. => none
  | .sessionSettings .. => none
  | .invoke .. => none
  | .submitInput .. => none
  | .cancel .. => none
  | .queryHandle .. => none
  | .readOutput .. => none
  | .tenantCreate .. => none
  | .tenantRemove .. => none
  | .setMode .. => none
  | .readRecords .. => none
  | .calibrationWrite .. => none
  | .calibrationErase .. => none
  | .calibrationRead .. => none
  | .attest .. => none
  | .telemetrySet .. => none
  | .fabricPlace .. => none
  | .memberLeave .. => none
  | .updateInstall .. => none
  | .updateCommit .. => none
  | .updateRevert .. => none
  | .ispParameterUpdate .. => none
  | .modelSwitch .. => none
  | .tenantKeyRotation .. => none
  | .lifeCycleChange .. => none
  | .revokeRoot .. => none
  | .provisionRootDigest .. => none
  | .provisionDeviceKey .. => none
  | .provisionCertificate .. => none
  | .provisionSystemCak .. => none
  | .bootStepClear .. => none
  | .retirementMapClear .. => none
  | .updateAutoCommit .. => none
  | .updateTrialExpiry .. => none
  | .agconLinkTrained .. => none
  | .auth .. => none
  | .key .. => none
  | .agconRekey .. => none
  | .data .. => none
  | .credit .. => none
  | .idle .. => none
  | .linkAck .. => none
  | .linkNak .. => none
  | .agconLinkDown .. => none
  | .peerLost .. => none
  | .moor .. => none
  | .moorEnd .. => none
  | .probe .. => none
  | .segReport .. => none
  | .lightBuild .. => none
  | .light .. => none
  | .memberLost .. => none
  | .placeTimeout .. => none
  | .rerun .. => none
  | .place .. => none
  | .move .. => none
  | .keyRetire .. => none
  | .keyRetireAck .. => none
  | .fabricControlSend .. => none
  | .moorStart .. => none
  | .routeCommit .. => none
  | .agconPortRestart .. => none
  | .aonReset .. => none
  | .ringFrameRecord .. => none
  | .aonRunStart .. => none
  | .aonRunStop .. => none
  | .aonLatch .. => none
  | .dspResetAssert .. => none
  | .dspResetRelease .. => none
  | .aonConfigWrite .. => none
  | .ringGatedRead .. => none
  | .aonPosLowRead .. => none
  | .gateServiceOpen .. => none
  | .gateClose .. => none
  | .gateExpiry .. => none
  | .candidateOpen .. => none
  | .candidateClose .. => none
  | .candidateExpiry .. => none
  | .wake .. => none
  | .event .. => none
  | .closed .. => none
  | .wakeVerdict .. => none
  | .dspPing .. => none
  | .modeRequest .. => none
  | .modeTransitionComplete .. => none
  | .backgroundTrainingDone .. => none
  | .idleHoldExpiry .. => none
  | .deferredDownTimeout .. => none
  | .csiFrameStart .. => none
  | .csiFrameEnd .. => none
  | .csiLinePacket .. => none
  | .csiShortPacketIgnored .. => none
  | .camFrameTimeout .. => none
  | .camFrameDone .. => none
  | .camBufferRelease .. => none
  | .camContextEnable .. => none
  | .camParamHold .. => none
  | .camLowRate .. => none
  | .camPortEnable .. => none
  | .secZeroiseAll .. => none
  | .secOwnerUnlock .. => none
  | .secRequest .. => none
  | .secResult .. => none
  | .secRestart .. => none
  | .trngHealthFail .. => none
  | .tenantDrainComplete .. => none
  | .tenantScrubComplete .. => none
  | .quenchAckTimeout .. => none
  | .keeperRestart .. => none
  | .alarmPath .. => none
  | .alarmForce .. => none
  | .healthMonitorSample .. => none
  | .hbmPatrolScrub .. => none
  | .deepPatrolScrub .. => none
  | .sramScrub .. => none
  | .scrubLate .. => none
  | .mramWearRemap .. => none
  | .interfaceCalibration .. => none
  | .monitorRecalibration .. => none
  | .selftestSlice .. => none
  | .selftestDeferRetry .. => none
  | .coldStart .. => none
  | .memoryTrainingDone .. => none
  | .bootWatchdog .. => none
  | .warmStart .. => none
  | .logbookDropSummary .. => none
  | .mainPgRise .. => none
  | .mainPgFall .. => none
  | .mainPgTimeout .. => none
  | .mainEnRetry .. => none
  | .porstNAssert .. => none
  | .porstNRelease .. => none
  | .throttleNChange .. => none
  | .powerCapStep .. => none
  | .powerCapUnmet .. => none
  | .thermalTrip .. => none
  | .thermalTripRelease .. => none
  | .thermalTripTimeout .. => none
  | .sysTickRead .. => none
  | .periOspiGo .. => none
  | .ospiWindowRead .. => none
  | .ospiCommandDone .. => none
  | .ospiCommandTimeout .. => none
  | .i2cTransfer .. => none
  | .i2cTransferDone .. => none
  | .i2cStretchTimeout .. => none
  | .i2cFifoWrite .. => none
  | .i2cFifoRead .. => none
  | .spiTransfer .. => none
  | .spiTransferDone .. => none
  | .spiFifoWrite .. => none
  | .spiFifoRead .. => none
  | .gpioInterrupt .. => none
  | .uartDataWrite .. => none
  | .uartDataRead .. => none
  | .uartRxByte .. => none
  | .queuedInstructionComplete .. => none
  | .hostLinkUp .. => none
  | .hostFrameDropped .. => none
  | .agconFrameRejected .. => none
  | .csiLaneStateChange .. => none
  | .pcieLinkChange .. => none
  | .uartTxByteDone .. => none
  | .keyRewriteComplete .. => none

/-- Is a command well formed? -/
def Instr.wellFormed (i : Instr) : Bool :=
  match i.kuner with
  | some (k, w) => match Machine.rowCode w with
    | some j => j == k
    | none => true
  | none => true

end Sys2Proof
end

