-- ==== Sys2Proof/Certificates/Slice0/Obligations.lean ====
section
/-! DEFINITION. Sys2Proof/Certificates/Slice0/Obligations.lean: the statements about the block that are to be proved, one
definition each; OBLIGATIONS.json lists them. -/

open Sys2Proof Sys2Proof.Machine

/-- A step is the front command's exec on the queue's rest (INDEX.md: the block takes commands). For every command i and
state s, a step of s with i at the front of its queue is exec of i on s with the queue's rest. -/
def Obligations.StepRunsTheFrontCommand : Prop :=
  ∀ (i : Instr) (s : State), step { s with pending := i :: s.pending } = exec i s

/-- With no command waiting, a step lets one device tick pass (the model's choice, log 13) (chapter 00 clocks and the device
tick, assumption log 13). On an empty queue, with no frame of the device to its own address under way, a step answers a
next state in which the device tick is one more and the cycle count of every core that runs or stops is three more
(saturating), and nothing else has changed. -/
def Obligations.EmptyQueueStepIsOneTick : Prop :=
  ∀ s : State, s.pending = [] → s.fab.selfQ = [] →
    step s = .next { s with
      tick := (s.tick + 1) % 2 ^ 64,
      cores := s.cores.map fun e => (e.1, if e.2.st = .running ∨ e.2.st = .stopping then
        { e.2 with cycTotal := BitVec.ofNat 32 (min (e.2.cycTotal.toNat + 3) 0xFFFFFFFF) } else e.2) }

/-- What the sequencer does with a word that does not reach its meaning (R66, R78, R88, R105, R107, R128, R553, assumption
log 12). For the ADD row, which stands for every row that moves on by `advance` when its guard fails (SLD, SST, SGET,
branches, TDESC, SWAIT, SPOST, FENCE, END and the queued rows share the definition; LOOP skips its body): a core that
does not issue is unchanged; a line with an uncorrectable error, or one that would be filled from poisoned data, ends
the command with ECC_UNCORR; a word at or beyond the program length, or one that may not be decoded, ends it with
ILLEGAL_INSTR whether or not the guard passes; a word whose guard or operands wait on a TCHK stays; a legal word whose
guard fails only moves on; a word that spells another row has no outcome. Fetching from data that is not poisoned
changes only the instruction cache and the error marks and count of the core, and fetching poisoned data changes
nothing. -/
def Obligations.KunerWordIsTakenOrPassedOver : Prop :=
  ∀ (core : Fin 32) (w : BitVec 64) (s : State),
    let n := core.val
    let c := coreOf s n
    let f := (fetched s n).1
    (∀ k, rowCode w = some k → k ≠ 0 → exec (.add core w) s = .refused .illFormed) ∧
    (rowCode w = none ∨ rowCode w = some 0 →
      (issuing c = false → exec (.add core w) s = .next s) ∧
      (issuing c = true →
        ((fetched s n).2 = true → exec (.add core w) s = .next (faultCmd f n { bit := .eccUncorr } c.pc)) ∧
        ((fetched s n).2 = false →
          (c.progLen ≤ c.pc ∨ decodes w = false →
            exec (.add core w) s = .next (faultCmd f n { bit := .illegalInstr } c.pc)) ∧
          (c.pc < c.progLen → decodes w = true →
            (guardWaits c w = true → exec (.add core w) s = .next f) ∧
            (guardWaits c w = false → guardOk c w = false → exec (.add core w) s = .next (after s core advance)) ∧
            (guardWaits c w = false → guardOk c w = true → operandWaits c w = true → exec (.add core w) s = .next f))))) ∧
    (fillPoisoned s n = true → f = s) ∧
    (fillPoisoned s n = false →
      ∃ e k, f = setCore s n { c with icache := ((c.progBase + c.pc) / 256 :: c.icache.erase ((c.progBase + c.pc) / 256)).take 64,
                                      ecc := e, eccCorr := k })

/-- Each ALU row writes rd with its result of a and b and moves on (R115). For each of the fifteen ALU rows, every core and
word that the core takes: the step answers a next state in which rd takes (`setS`; a write to S0 is discarded, R106) the
row's result of a (the value of ra) and b (the value of rb, or imm in the immediate form), issue goes on, and nothing
else changes beside what the fetch did. -/
def Obligations.AluWritesItsResult : Prop :=
  ∀ r ∈ aluRows, ∀ (core : Fin 32) (w : BitVec 64) (s : State), Runs r.2.1 core w s →
    let c := coreOf s core.val
    let a := srcVal c (fld w 41 36)
    let b := if major w = 1 then BitVec.ofNat 32 (fld w 31 0) else srcVal c (fld w 35 30)
    let rd := fld w 47 42
    exec (r.1 core w) s = .next (after s core fun c =>
      advance (setS c rd (r.2.2 a b))) ∧
    minor w = r.2.1 ∧ (major w = 0 ∨ major w = 1)

/-- CMP and predicate logic write one predicate with their result and move on (R116). For each CMP row the step answers a
next state in which Pd holds the comparison of a with b, signed for LT and GE, unsigned for LTU and GEU; for each
predicate row (R117) pd holds the operation on pa and pb. A write to P0 is discarded, issue goes on, and nothing else
changes beside what the fetch did. -/
def Obligations.CompareAndPredicateRowsWriteOnePredicate : Prop :=
  (∀ r ∈ cmpRows, ∀ (core : Fin 32) (w : BitVec 64) (s : State), Runs r.2.1 core w s →
    let c := coreOf s core.val
    let a := srcVal c (fld w 41 36)
    let b := if major w = 3 then BitVec.ofNat 32 (fld w 31 0) else srcVal c (fld w 35 30)
    let pd := fld w 47 42
    exec (r.1 core w) s = .next (after s core fun c => advance (setP c pd (r.2.2 a b))) ∧
    128 + minor w = r.2.1 ∧ (major w = 2 ∨ major w = 3)) ∧
  (∀ r ∈ predRows, ∀ (core : Fin 32) (w : BitVec 64) (s : State), Runs r.2.1 core w s →
    let pd := fld w 47 45
    exec (r.1 core w) s = .next (after s core fun c =>
      advance (setP c pd (r.2.2 (getP c (fld w 44 42)) (getP c (fld w 41 39))))))

/-- SLD and SST move one word at T[tn].base + value(ra) + imm, both signed (R118, R67, R78, R89). Where no queued
instruction conflicts: if T[tn] is a usable scratchpad descriptor and the word at a = base + value(ra) + imm, added
exactly, lies inside its extent and the scratchpad at a multiple of 4, SST writes the four bytes of rd there and makes
the line valid, and SLD writes rd with the four bytes that the view of the scratchpad holds there (ECC_UNCORR if they
hold a double error); an a that is not a multiple of 4 ends with MISALIGNED, and any other failing with TILE_FAULT. A
conflict stalls. -/
def Obligations.ScalarLoadAndStoreMoveOneWord : Prop :=
  ∀ (core : Fin 32) (w : BitVec 64) (s : State),
    let n := core.val
    let f := (fetched s n).1
    let c := coreOf f n
    let d := descOf (getT c (fld w 35 32))
    let a : Int := (d.base : Int) + (srcVal c (fld w 41 36)).toInt + (BitVec.ofNat 32 (fld w 31 0)).toInt
    let inside := spadDescOk d = true ∧ d.base ≤ a ∧ a + 4 ≤ extentEnd d ∧ a + 4 ≤ spadSize
    let rd := fld w 47 42
    (Runs 321 core w s →
      (seqWaits c { wrT := [fld w 35 32] } = true → exec (.sst core w) s = .next f) ∧
      (seqWaits c { wrT := [fld w 35 32] } = false →
        (inside → a % 4 = 0 → exec (.sst core w) s = .next (onCore f n fun c => advance
          { eccClear c (wholeWord c a.toNat 4) with
                   spad := Memory.writeBytes c.spad a.toNat (leBytes 4 (srcVal c rd).toNat),
                   valid := SMap.set c.valid (a.toNat / 64) () })) ∧
        (inside → a % 4 ≠ 0 → exec (.sst core w) s = .next (faultCmd f n { bit := .misaligned } c.pc)) ∧
        (¬ inside → exec (.sst core w) s = .next (faultCmd f n { bit := .tileFault } c.pc)))) ∧
    (Runs 320 core w s →
      (seqWaits c { rdT := [fld w 35 32] } = true → exec (.sld core w) s = .next f) ∧
      (seqWaits c { rdT := [fld w 35 32] } = false →
        (inside → a % 4 = 0 →
          let r := spadTouch c [(a.toNat, 4)]
          let u := { setCore f n r.1 with freeCtr := f.freeCtr + 1 }
          (r.2 = false → exec (.sld core w) s = .next (onCore u n fun c =>
            advance (setS c rd (BitVec.ofNat 32 (Memory.le (spadView f.freeCtr (coreOf f n)) a.toNat 4))))) ∧
          (r.2 = true → exec (.sld core w) s = .next (faultCmd u n { bit := .eccUncorr } (coreOf u n).pc))) ∧
        (inside → a % 4 ≠ 0 → exec (.sld core w) s = .next (faultCmd f n { bit := .misaligned } c.pc)) ∧
        (¬ inside → exec (.sld core w) s = .next (faultCmd f n { bit := .tileFault } c.pc))))

/-- SGET writes rd with the value that imm selects, and selector 4 latches the tick's upper half (R119). For each selector 0
to 8 the value written to rd is the one of R119's table; only selector 4 changes the latch that selector 5 reads; issue
goes on and nothing else changes beside what the fetch did. -/
def Obligations.SgetReadsWhatItsSelectorNames : Prop :=
  ∀ (core : Fin 32) (w : BitVec 64) (s : State), Runs 384 core w s →
    let c := coreOf s core.val
    let imm := fld w 31 0
    ∃ v : Word, exec (.sget core w) s = .next (after s core fun c =>
        advance (setS { c with tickHi := if imm = 4 then word (s.tick / 2 ^ 32) else c.tickHi } (fld w 47 42) v)) ∧
      (imm = 0 → v = word core.val) ∧ (imm = 1 → v = word (core.val / 8)) ∧ (imm = 2 → v = c.cmdQueue) ∧
      (imm = 3 → v = c.cmdId) ∧ (imm = 4 → v = word s.tick) ∧ (imm = 5 → v = c.tickHi) ∧ (imm = 6 → v = c.cmdBudget) ∧
      (imm = 7 → v = word (corePart s core.val)) ∧ (imm = 8 → v = word (s.tick - c.cmdStart)) ∧ imm ≤ 8

/-- B, BL, BR and BRL go to their target, link, and end the loops they leave (R120, R123). With the target PC + 8 × offset
(signed) of B and BL, and value(ra), read before rd is written, of BR and BRL: a target that is a multiple of 8 below
the program length becomes the pc, rd of BL and BRL takes PC + 8, and every active loop whose body does not hold the
target ends; any other target ends the command with ILLEGAL_INSTR at the branch. -/
def Obligations.BranchesJumpLinkOrFault : Prop :=
  ∀ (core : Fin 32) (w : BitVec 64) (s : State),
    let c := coreOf s core.val
    let rel : Int := c.pc + 8 * (BitVec.ofNat 24 (fld w 23 0)).toInt
    let reg : Int := (srcVal c (fld w 41 36)).toNat
    ∀ x ∈ ([(.b, 512, rel, false), (.bl, 513, rel, true), (.br, 514, reg, false), (.brl, 515, reg, true)] :
        List (KunerRow × Nat × Int × Bool)), Runs x.2.1 core w s →
      (x.2.2.1 % 8 = 0 ∧ 0 ≤ x.2.2.1 ∧ x.2.2.1 < c.progLen →
        exec (x.1 core w) s = .next (after s core fun c =>
          let c1 := if x.2.2.2 then setS c (fld w 47 42) (word (c.pc + 8)) else c
          { c1 with pc := x.2.2.1.toNat,
                    loops := c.loops.filter fun l => decide (l.start ≤ x.2.2.1.toNat ∧ x.2.2.1.toNat < l.stop) })) ∧
      (¬ (x.2.2.1 % 8 = 0 ∧ 0 ≤ x.2.2.1 ∧ x.2.2.1 < c.progLen) →
        exec (x.1 core w) s = .next (faultCmd (fetched s core.val).1 core.val { bit := .illegalInstr } c.pc))

/-- LOOP enters, iterates and leaves its body as R122 says (R121, R122). A LOOP whose body lies inside every active body
enters with Ln reading 0 and count - 1 iterations left, restarting a counter that is active, or, with count 0, or a
guard that fails, goes on after its body; one whose body does not lie inside ends the command with ILLEGAL_INSTR,
whether or not the guard passes. After an instruction, issue goes to the next word; at the end of the innermost body it
returns to the first body word with Ln one more while iterations are left, and else leaves the loop with Ln kept and
looks at the loop around it. -/
def Obligations.LoopEntersIteratesAndEnds : Prop :=
  (∀ (core : Fin 32) (w : BitVec 64) (s : State), Runs 576 core w s →
    let c := coreOf s core.val
    let stop := c.pc + 8 + 8 * fld w 44 29
    let count := (srcVal c (fld w 50 45) + BitVec.ofNat 32 (fld w 28 8)).toNat
    ((∀ x ∈ c.loops, x.start ≤ c.pc + 8 ∧ stop ≤ x.stop) →
      (count = 0 → exec (.loop core w) s = .next (after s core fun c => stepTo c stop)) ∧
      (0 < count → exec (.loop core w) s = .next (after s core fun c =>
        { c with l := SMap.erase c.l (fld w 53 51), pc := c.pc + 8,
                 loops := { ln := fld w 53 51, start := c.pc + 8, stop := stop, left := count - 1 }
                   :: c.loops.filter fun x => x.ln != fld w 53 51 }))) ∧
    (¬ (∀ x ∈ c.loops, x.start ≤ c.pc + 8 ∧ stop ≤ x.stop) →
      exec (.loop core w) s = .next (faultCmd (fetched s core.val).1 core.val { bit := .illegalInstr } c.pc))) ∧
  (∀ (core : Fin 32) (w : BitVec 64) (s : State), Reaches 576 core w s → guardOk (coreOf s core.val) w = false →
    let c := coreOf s core.val
    let stop := c.pc + 8 + 8 * fld w 44 29
    ((∀ x ∈ c.loops, x.start ≤ c.pc + 8 ∧ stop ≤ x.stop) →
      exec (.loop core w) s = .next (after s core fun c => stepTo c stop)) ∧
    (¬ (∀ x ∈ c.loops, x.start ≤ c.pc + 8 ∧ stop ≤ x.stop) →
      exec (.loop core w) s = .next (faultCmd (fetched s core.val).1 core.val { bit := .illegalInstr } c.pc))) ∧
  (∀ c : Core, c.loops = [] → advance c = { c with pc := c.pc + 8 }) ∧
  (∀ (c : Core) (x : LoopAct) (r : List LoopAct), c.loops = x :: r →
    (x.stop ≠ c.pc + 8 → advance c = { c with pc := c.pc + 8 }) ∧
    (x.stop = c.pc + 8 → 0 < x.left → advance c =
      { c with pc := x.start, l := SMap.put c.l x.ln (SMap.getD c.l x.ln 0 + 1) 0, loops := { x with left := x.left - 1 } :: r }) ∧
    (x.stop = c.pc + 8 → x.left = 0 → advance c = advance { c with loops := r }))

/-- The TDESC rows write T[td] with 32 bytes, a copy, or one field set or added to (R90, R129). A TDESC whose T[td] a queued
instruction still names stalls. Else COPY writes T[td] with T[ts], SET and SETI replace the selected field of T[td] with
value(sa) or imm truncated to its width, ADD adds value(sa) to it modulo the field's range, and LOAD writes T[td] with
the 32 bytes at T[ts].base + value(sa) + imm, if T[ts] is a usable scratchpad descriptor and they lie inside the
scratchpad at a multiple of 32, else it ends with TILE_FAULT or MISALIGNED; field f of R129 lies at the bits that
`descField` gives, and replacing it leaves the other bits. Issue goes on and nothing else changes beside what the fetch
did. -/
def Obligations.TdescRowsWriteOneDescriptor : Prop :=
  ∀ (core : Fin 32) (w : BitVec 64) (s : State),
    let n := core.val
    let f := (fetched s n).1
    let c := coreOf f n
    let td := fld w 50 47
    let v := (srcVal c (fld w 38 33)).toNat
    let old := (getT c td).toNat
    let r := descField (fld w 42 39)
    (∀ x ∈ ([(.tdescCopy, 1281, getT c (fld w 46 43)),
          (.tdescSet, 1282, BitVec.ofNat 256 (setBits old r.1 r.2 v)),
          (.tdescAdd, 1283, BitVec.ofNat 256 (setBits old r.1 r.2 (bits old r.1 r.2 + v))),
          (.tdescSeti, 1284, BitVec.ofNat 256 (setBits old r.1 r.2 (fld w 31 0)))] : List (KunerRow × Nat × BitVec 256)),
      Runs x.2.1 core w s →
        (tdWaits c w = true → exec (x.1 core w) s = .next f) ∧
        (tdWaits c w = false → exec (x.1 core w) s =
          .next (onCore f n fun c => advance (setT c td x.2.2)))) ∧
    (Runs 1280 core w s →
      let d := descOf (getT c (fld w 46 43))
      let a : Int := (d.base : Int) + (srcVal c (fld w 38 33)).toInt + (BitVec.ofNat 32 (fld w 31 0)).toInt
      let held := tdWaits c w || seqWaits c { rdT := [fld w 46 43] }
      (held = true → exec (.tdescLoad core w) s = .next f) ∧
      (held = false →
        (spadDescOk d = true ∧ 0 ≤ a ∧ a + 32 ≤ spadSize →
          (a % 32 = 0 →
            let q := spadTouch c [(a.toNat, 32)]
            let u := { setCore f n q.1 with freeCtr := f.freeCtr + 1 }
            (q.2 = false → exec (.tdescLoad core w) s = .next (onCore u n fun k =>
              advance (setT k td (BitVec.ofNat 256 (Memory.le (spadView f.freeCtr c) a.toNat 32))))) ∧
            (q.2 = true → exec (.tdescLoad core w) s = .next (faultCmd u n { bit := .eccUncorr } (coreOf u n).pc))) ∧
          (a % 32 ≠ 0 → exec (.tdescLoad core w) s = .next (faultCmd f n { bit := .misaligned } c.pc))) ∧
        (¬ (spadDescOk d = true ∧ 0 ≤ a ∧ a + 32 ≤ spadSize) →
          exec (.tdescLoad core w) s = .next (faultCmd f n { bit := .tileFault } c.pc)))) ∧
    (span 0 15).map descField = [(31, 0), (47, 32), (49, 48), (57, 50), (95, 64), (127, 96), (75, 64), (87, 76), (139, 128),
      (151, 140), (163, 152), (175, 164), (191, 176), (223, 192), (245, 224)]

/-- SWAIT takes or waits, SPOST adds and saturates, and the oldest waiter alone is served (R162, R163, R164, R312). On the
semaphore (value(ss) + sem_imm) mod 1024, allocated to the core's partition, with n = value(sn) + n_imm: SWAIT with n =
0, or with nobody waiting and a count of at least n, takes n (leaves the count with peek) and moves on, and else joins
the waiters last and stalls; SPOST moves on with min(count + n, 0xFFFF_FFFF) once every older instruction has completed,
and a post that would pass that maximum logs SEM_SATURATED; a semaphore of another partition, or none, ends the command
with TILE_FAULT. A satisfied oldest waiter takes its amount and its core moves on; one that cannot be satisfied holds
back the others. -/
def Obligations.SemaphoresCountWaitAndServeInOrder : Prop :=
  (∀ (core : Fin 32) (w : BitVec 64) (s : State),
    let n := core.val
    let f := (fetched s n).1
    let c := coreOf f n
    let v := (srcVal c (fld w 53 48) + BitVec.ofNat 32 (fld w 47 38)).toNat % 1024
    let a := (srcVal c (fld w 37 32) + BitVec.ofNat 32 (fld w 31 16)).toNat
    (∀ x ∈ ([(.swait, 1536, false), (.swaitPeek, 1537, true)] : List (KunerRow × Nat × Bool)), Runs x.2.1 core w s →
      (semOf f n v = none → exec (x.1 core w) s = .next (faultCmd f n { bit := .tileFault } c.pc)) ∧
      (∀ m, semOf f n v = some m →
        (a = 0 → exec (x.1 core w) s = .next (onCore f n advance)) ∧
        (0 < a → a ≤ m.count → m.waiters = [] → exec (x.1 core w) s = .next (onCore
          { f with sems := SMap.set f.sems v { m with count := if x.2.2 then m.count else m.count - a } } n advance)) ∧
        (0 < a → m.count < a ∨ m.waiters ≠ [] → ∃ t, exec (x.1 core w) s = .next t ∧
          t = { f with sems := SMap.set f.sems v { m with waiters := m.waiters ++ [⟨n, a, x.2.2⟩] },
                       cores := SMap.put f.cores n { c with swait := some v } {}, sched := t.sched }))) ∧
    (Runs 1600 core w s →
      (drained c = false → exec (.spost core w) s = .next f) ∧
      (drained c = true → semOf f n v = none → exec (.spost core w) s = .next (faultCmd f n { bit := .tileFault } c.pc)) ∧
      (drained c = true → ∀ m, semOf f n v = some m → ∃ t, exec (.spost core w) s = .next t ∧
        t = { onCore { f with sems := SMap.set f.sems v { m with count := min (m.count + a) 0xFFFFFFFF } } n advance with
              donations := f.donations.filter fun d => !(d.sem == v && d.owner == c.cmdQueue.toNat),
              events := if m.count + a ≤ 0xFFFFFFFF then f.events
                        else { code := 0x0008, queue := c.cmdQueue.toNat, arg := v, tick := s.tick } :: f.events }))) ∧
  (∀ (v : Fin 1024) (s : State),
    (∀ m x r, SMap.get? s.sems v.val = some m → m.waiters = x :: r →
      (m.count < x.amount → exec (.swaitSatisfy v) s = .next s) ∧
      (x.amount ≤ m.count → exec (.swaitSatisfy v) s = .next (onCore
        { s with sems := SMap.set s.sems v.val { m with count := if x.peek then m.count else m.count - x.amount, waiters := r } }
        x.core fun c => advance { c with swait := none }))) ∧
    ((∀ m, SMap.get? s.sems v.val = some m → m.waiters = []) → exec (.swaitSatisfy v) s = .next s))

/-- FENCE waits for the selected queues; END stops issue and reports once the queues have drained (R135, R166, R167, R143).
FENCE moves on exactly if none of the queues that qmask selects (bit 3 matrix, 2 element, 1 DMA engine 0, 0 DMA engine
1) holds an entry that has not completed, and, with ack and the matrix queue selected, no checkpoint waits for its
acknowledgements; else it stays. END leaves the core stopping with a clean ending; with the queues drained it sends the
end report at once, which the core holds if mailbox 64 + n is FULL. -/
def Obligations.FenceAndEndWaitForTheQueues : Prop :=
  ∀ (core : Fin 32) (w : BitVec 64) (s : State),
    let n := core.val
    let f := (fetched s n).1
    let c := coreOf f n
    let q := fld w 53 50
    let macc (e : QEntry) : Bool := e.op == .macc
    let holds := (bitOf q 3 = true ∧ (c.mq ++ c.mIn ≠ [] ∨ bitOf w.toNat 49 = true ∧ (c.d0In ++ c.d1In).any macc = true)) ∨
      (bitOf q 2 = true ∧ c.eq ++ c.eIn.filter (fun e => !macc e) ≠ []) ∨
      (bitOf q 1 = true ∧ c.d0 ++ c.d0In.filter (fun e => !macc e) ≠ []) ∨
      (bitOf q 0 = true ∧ c.d1 ++ c.d1In.filter (fun e => !macc e) ≠ [])
    (Runs 1664 core w s →
      (holds → exec (.fence core w) s = .next f) ∧ (¬ holds → exec (.fence core w) s = .next (onCore f n advance))) ∧
    (Runs 1984 core w s →
      let u := onCore f n fun c => { c with st := .stopping, ending := some .clean, loops := [] }
      (queued c ++ inFlight c ≠ [] → exec (.endCmd core w) s = .next u) ∧
      (queued c ++ inFlight c = [] → holdsReport s n = false →
        (mbxFull s.mbx (64 + n) = true → exec (.endCmd core w) s =
          .next { u with mbx := { u.mbx with held := u.mbx.held ++ [⟨0x20 + n, 64 + n, endReport u n⟩] } }) ∧
        (mbxFull s.mbx (64 + n) = false → exec (.endCmd core w) s =
          .next (coreRest (hwWrite u (.coreSeq core) (64 + n) (endReport u n)) n))))

/-- Every matrix, element, DMA and stream row enters its queue with what it captured, and starts if nothing holds it back
(R88, R89, R136). For each of the sixty queued rows that a core takes: with 16 entries in the row's queue the word
stays; else an entry with the word, its pc and the values captured of its scalar sources joins the queue last, the core
moves on, and nothing else changes, if the head of the queue may not start; in an empty queue, where the entry may start
and its operation succeeds without a fault, the state is what the operation leaves, with the entry in flight (LSEND then
also sends what its credits allow). -/
def Obligations.QueuedRowsEnterTheirQueue : Prop :=
  ∀ r ∈ queuedRows, ∀ (core : Fin 32) (w : BitVec 64) (s : State), Runs r.2.1 core w s →
    let n := core.val
    let f := (fetched s n).1
    let c := coreOf f n
    let e := { entryOf r.2.2 c w with seq := c.seq }
    let q := queueOf e
    let c1 := advance { setQueue (noteIssue r.2.2 c).1 q (queueIn c q ++ [e]) with seq := c.seq + 1 }
    (16 ≤ (queueIn c q).length → exec (r.1 core w) s = .next f) ∧
    ((queueIn c q).length < 16 →
      ((∃ h ∈ (queueIn c q ++ [e]).head?, mayStart c1 h = false) → exec (r.1 core w) s = .next (setCore f n c1)) ∧
      (queueIn c q = [] → mayStart c1 e = true →
        ∀ v, startOp (setCore f n (setQueue c1 q [])) n e = .ok (v, none) →
          let sent := if r.2.2 = .lsend then lsendMore v n e else (v, e)
          exec (r.1 core w) s = .next (onCore sent.1 n fun k => setFlight k q (flightIn k q ++
            [{ sent.2 with old := changedBytes c1.spad (coreOf v n).spad }]))))

/-- A streamed row adds its column sums, and the residue check raises ARITH_RESIDUE exactly on an error that is not a
multiple of 3 (R43, R46, R52, R79, R82). For every weight bank, streamed row and accumulator row: with no error in an
adder, where no sum passes the ACC48 range, every column j of the row takes old + sum of blk_shift(zp_sub(code, zp) × a,
s), no residue check fails and no other row changes; with an error of d in the adder of column k, a check fails exactly
if d is not a multiple of 3, and then at column k. -/
def Obligations.ResidueCheckNeverTripsWithoutAnError : Prop :=
  ∀ (c : Core) (b : Bank) (xs : List Int) (r : Nat),
    let old (j : Nat) : Int := (accRow c r).acc.getD j 0
    (c.adder = none → (∀ j < 128, accMin ≤ old j + columnSum b xs j ∧ old j + columnSum b xs j ≤ accMax) →
      ∃ c1, addRow c b xs r = (c1, false, none) ∧ (∀ j < 128, (accRow c1 r).acc.getD j 0 = old j + columnSum b xs j) ∧
        (accRow c1 r).ext = (accRow c r).ext ∧ (∀ x, x ≠ r → accRow c1 x = accRow c x) ∧ c1 = { c with acc := c1.acc }) ∧
    (∀ k d, k < 128 → c.adder = some (k, d) →
      (∀ j < 128, accMin ≤ old j + columnSum b xs j + (if j = k then d else 0) ∧
        old j + columnSum b xs j + (if j = k then d else 0) ≤ accMax) →
      (addRow c b xs r).2 = (false, if d % 3 = 0 then none else some k))

/-- COMMAND_DISPATCH takes the dispatch message and starts the command on a fresh core, or ends it with the fault R133 and
R134 name (R66, R132, R133, R134, R131). A core takes its dispatch mailbox only while it is idle, enabled and the
mailbox is FULL and its own. Then the mailbox is free, and: with a good message and a good launch block the core runs
with identifier, queue and budget of the message, start tick, program base, length and entry of the block, S1 to S15 and
T0 to T7 loaded where the masks say and 0 elsewhere, an empty scratchpad, both banks empty, no queued entry, and only
the resident accumulator rows kept; memory and every other core are unchanged. A reserved bit, a misaligned block
address or a budget out of range ends it with ILLEGAL_INSTR at that address, a block the core cannot reach likewise, a
poisoned block with ECC_UNCORR, a bad field of the block with ILLEGAL_INSTR at the entry. -/
def Obligations.DispatchStartsTheCommandOfItsMessage : Prop :=
  ∀ (core : Fin 32) (s : State),
    let n := core.val
    let w (k : Nat) := mbxWord s.mbx (32 + n) k
    let a := (w 1).toNat + bits (w 2).toNat 15 0 * 2 ^ 32
    let le (off k : Nat) := Memory.le s.mem (a + off) k
    let good := bits (w 2).toNat 31 16 = 0 ∧ bits (w 3).toNat 31 10 = 0 ∧ bits (w 5).toNat 31 13 = 0 ∧ a % 64 = 0 ∧
      1 ≤ bits (w 5).toNat 12 0 ∧ bits (w 5).toNat 12 0 ≤ 5000
    let s1 := mbxTake s (.coreSeq core) (32 + n)
    let s2 := setCore s1 n (freshCore (coreOf s1 n) s.tick (w 4) (word (bits (w 3).toNat 9 0)) (word (bits (w 5).toNat 12 0)))
    let block := le 0x13 13 = 0 ∧ le 0x5C 4 = 0 ∧ le 0x10 2 % 2 = 0 ∧ le 0 8 % 64 = 0 ∧ le 0 8 < 2 ^ 48 ∧ le 8 4 % 8 = 0 ∧
      le 0xC 4 % 8 = 0 ∧ le 0xC 4 < le 8 4
    (mayDispatch s n = false → exec (.commandDispatch core) s = .next s) ∧
    (mayDispatch s n = true →
      (¬ good → exec (.commandDispatch core) s = .next (faultCmd s2 n { bit := .illegalInstr, addr := some a } 0)) ∧
      (good → dmaReach s n a 352 false = false →
        exec (.commandDispatch core) s = .next (faultCmd s2 n { bit := .illegalInstr, addr := some a } 0)) ∧
      (good → dmaReach s n a 352 false = true → poisoned s a 352 = true →
        exec (.commandDispatch core) s = .next (faultCmd s2 n { bit := .eccUncorr, addr := some a } 0)) ∧
      (good → dmaReach s n a 352 false = true → poisoned s a 352 = false → ¬ block →
        exec (.commandDispatch core) s = .next (faultCmd s2 n { bit := .illegalInstr } (le 0xC 4))) ∧
      (good → dmaReach s n a 352 false = true → poisoned s a 352 = false → block →
        Answers (.commandDispatch core) s fun t =>
          let c := coreOf t n
          t = { s with cores := t.cores, mbx := t.mbx, irqs := t.irqs, resp := t.resp } ∧ mbxFull t.mbx (32 + n) = false ∧
          (∀ m, m ≠ 32 + n → mbxFull t.mbx m = mbxFull s.mbx m) ∧
          (∀ k, k ≠ n → coreOf t k = coreOf s k) ∧ c.st = .running ∧ c.cmdId = w 4 ∧
          c.cmdQueue = word (bits (w 3).toNat 9 0) ∧ c.cmdBudget = word (bits (w 5).toNat 12 0) ∧ c.cmdStart = s.tick ∧
          c.progBase = le 0 8 ∧ c.progLen = le 8 4 ∧ c.pc = le 0xC 4 ∧ c.spad = [] ∧ c.valid = [] ∧ c.p = [] ∧ c.l = [] ∧
          c.bank0 = none ∧ c.bank1 = none ∧ queued c = [] ∧ inFlight c = [] ∧ c.faulted = false ∧ c.fault = (coreOf s n).fault ∧
          c.acc = ((coreOf s n).acc.filter fun r => (SMap.get? (coreOf s n).rowOwner r.1).isSome) ∧
          (∀ k, 1 ≤ k → k ≤ 15 → getS c k = if bitOf (le 0x10 2) k then BitVec.ofNat 32 (le (0x20 + 4 * (k - 1)) 4) else 0) ∧
          (∀ k, 16 ≤ k → getS c k = 0) ∧
          (∀ k, getT c k = if k < 8 ∧ bitOf (le 0x12 1) k = true then BitVec.ofNat 256 (le (0x60 + 32 * k) 32) else 0)))

/-- The fields of CORE_CTRL and the duty: Keeper's alone, in force at the command boundary (R10, R66, R86, R97, R98, R100,
R20). A write by another requester than a Keeper hart ends in a bus error and changes nothing. Keeper's write of enable,
bist_hold or retire sets the shadow: on a running or stopping core nothing else changes; on a core at rest it is in
force at once, the state becoming retired, held or idle by the fields in force. clear_resident clears and releases every
resident row, at once if the core is at rest, else at the command boundary. The duty register takes bits [7:0]. A stop
of a core without a running command changes nothing; of a running one it ends the command: issue stops, the queues and
waiting semaphores are empty, transfers in the mesh are discarded, and no other core's registers change. -/
def Obligations.CoreControlWritesActAtTheCommandBoundary : Prop :=
  ∀ (by_ : Req) (core : Fin 32) (v : Bool) (d : Word) (s : State),
    let n := core.val
    let c := coreOf s n
    let set (f : Core → Core) : State := setCore s n (f c)
    let rest (x : Core) : CoreSt := match x.st with
      | .off => .off
      | .retired => .retired
      | _ => if x.shRetire then .retired else if x.shBistHold then .held else .idle
    let boundary (x : Core) : Core := { x with enable := x.shEnable, retire := x.shRetire, bistHold := x.shBistHold, st := rest x }
    (isKeeper by_ = false →
      ∀ i ∈ [Instr.coreStop by_ core, .coreClearResident by_ core, .coreBistHold by_ core v, .coreRetire by_ core,
        .coreEnable by_ core v, .coreArrayDutyWrite by_ core d], exec i s = .next { s with resp := .busError }) ∧
    (isKeeper by_ = true →
      exec (.coreArrayDutyWrite by_ core d) s = .next { set (fun c => { c with duty := d &&& 0xFF }) with resp := .ok } ∧
      (c.st = .running ∨ c.st = .stopping →
        exec (.coreEnable by_ core v) s = .next { set (fun c => { c with shEnable := v }) with resp := .ok } ∧
        exec (.coreBistHold by_ core v) s = .next { set (fun c => { c with shBistHold := v }) with resp := .ok } ∧
        exec (.coreRetire by_ core) s = .next { set (fun c => { c with shRetire := true }) with resp := .ok } ∧
        exec (.coreClearResident by_ core) s = .next { set (fun c => { c with clearPending := true }) with resp := .ok }) ∧
      (c.st ≠ .running → c.st ≠ .stopping → c.clearPending = false →
        exec (.coreEnable by_ core v) s = .next { set (fun c => boundary { c with shEnable := v }) with resp := .ok } ∧
        exec (.coreBistHold by_ core v) s = .next { set (fun c => boundary { c with shBistHold := v }) with resp := .ok } ∧
        exec (.coreRetire by_ core) s = .next { set (fun c => boundary { c with shRetire := true }) with resp := .ok } ∧
        exec (.coreClearResident by_ core) s = .next { set (fun c => boundary
          { c with acc := c.acc.filter fun r => (SMap.get? c.rowOwner r.1).isNone, rowOwner := [] }) with resp := .ok }) ∧
      (c.st ≠ .running → c.st ≠ .stopping → exec (.coreStop by_ core) s = .next { s with resp := .ok }) ∧
      (c.st = .running → c.d0In ++ c.d1In ≠ [] →
        let drop (l : List QEntry) := l.map fun x => { x with discard := true }
        exec (.coreStop by_ core) s = .next { setCore s n { c with
            st := .stopping, ending := some .stop, mq := [], eq := [], d0 := [], d1 := [], mIn := [], eIn := [],
            d0In := drop c.d0In, d1In := drop c.d1In, loops := [], swait := none } with
          sems := s.sems.map fun m => (m.1, { m.2 with waiters := m.2.waiters.filter fun x => x.core != n }), resp := .ok }))

/-- WATCHDOG ends a command that has run past four times its budget; a wait that lasts is reported once (R99, R131, R26,
R554, R306, R312). WATCHDOG records the fault with address 0 and the program address of the oldest issued instruction
that has not completed, else of the next, and ends the command, if the core runs or stops and has run for more than 4 ×
CORE_CMD_BUDGET µs (1,000 ticks per µs of budget) and holds no end report; else nothing changes. A SEM_WAIT_REPORT of a
core that does not wait, or whose wait has been reported, or with donate_wait at 0, changes nothing; the first one of a
wait posts one report to the mailbox of the core's cluster and notes it, and Keeper then ends a deadlock or donates. -/
def Obligations.WatchdogEndsACommandPastFourBudgets : Prop :=
  ∀ (core : Fin 32) (s : State),
    let n := core.val
    let c := coreOf s n
    let past := (c.st = .running ∨ c.st = .stopping) ∧ 4 * 250 * c.cmdBudget.toNat < s.tick - c.cmdStart
    (past ∧ holdsReport s n = false →
      exec (.watchdog core) s = .next (faultCmd s n { bit := .watchdog, addr := some 0 } (oldestPc c))) ∧
    (¬ (past ∧ holdsReport s n = false) → exec (.watchdog core) s = .next s) ∧
    (live c = [] → oldestPc c = c.pc) ∧
    (∀ e ∈ live c, (∀ x ∈ live c, x ≠ e → e.seq < x.seq) → oldestPc c = e.pc) ∧
    (c.swait = none → exec (.semWaitReport core) s = .next s) ∧
    (∀ v, c.swait = some v →
      (s.sched.reportedWaits.contains (n, v) = true ∨ rbits s (schedRegBase + 4) 15 8 = 0 →
        exec (.semWaitReport core) s = .next s) ∧
      (s.sched.reportedWaits.contains (n, v) = false → rbits s (schedRegBase + 4) 15 8 ≠ 0 →
        let s1 := hwPost s (semUnitOf n) (6 + n / 8) (waitReport s n v)
        let s2 := { s1 with sched := { s1.sched with reportedWaits := (n, v) :: s1.sched.reportedWaits } }
        (deadlocked s2 (corePart s n) = true → exec (.semWaitReport core) s = .next (endDeadlock s2 (corePart s n))) ∧
        (deadlocked s2 (corePart s n) = false →
          (SMap.get? s.runs n = none → exec (.semWaitReport core) s = .next s2) ∧
          (∀ r, SMap.get? s.runs n = some r →
            exec (.semWaitReport core) s = .next (tryDonate s2 (corePart s n) r.queue r.job v))))) ∧
    (c.st = .stopping → (SMap.get? s.runs n).any Run.stopped = true → exec (.stopIdleTimeout core) s = .next (detachRun (containCore s n) n)) ∧
    (¬ (c.st = .stopping ∧ (SMap.get? s.runs n).any Run.stopped = true) → exec (.stopIdleTimeout core) s = .next s)

/-- The head of a queue starts if nothing holds it back, and the oldest entry in flight completes (R88, R89, R92, R98, R125,
R128, R131, R135, R137, R143, R172). QUEUE_ENTRY_START starts the head of a queue of a running or stopping core if no
older entry that has not completed conflicts with it and its unit is free; an operation that faults ends the command
with its fault. QUEUED_INSTRUCTION_COMPLETE and DMA_TRANSFER_COMPLETE act on the oldest entry in flight alone: a
discarded transfer, an MMA, an element entry or a TST just leaves; a TLD that still waits for its object stays, one that
faults leaves and ends the command, one whose check passed leaves with its tile in the scratchpad; a TCHK writes its
predicate, a checkpoint goes on to wait for its acknowledgements, a CSEND or CRECV leaves once it has moved its data.
With nothing in flight nothing changes. -/
def Obligations.EntriesStartAndCompleteInOrder : Prop :=
  ∀ (core : Fin 32) (s : State),
    let n := core.val
    let c := coreOf s n
    (∀ q : QueueName,
      (queueIn c q = [] → exec (.queueEntryStart core q) s = .next s) ∧
      (∀ e r, queueIn c q = e :: r →
        (mayStart c e = false ∨ (c.st ≠ .running ∧ c.st ≠ .stopping) → exec (.queueEntryStart core q) s = .next s) ∧
        (mayStart c e = true → c.st = .running ∨ c.st = .stopping →
          let s1 := setCore s n (setQueue c q r)
          (∀ f, startOp s1 n e = .error f → exec (.queueEntryStart core q) s = .next (faultCmd s1 n f e.pc)) ∧
          (∀ v, startOp s1 n e = .ok (v, none) → e.op ≠ .lsend →
            exec (.queueEntryStart core q) s = .next (onCore v n fun k =>
              setFlight k q (flightIn k q ++ [{ e with old := changedBytes c.spad (coreOf v n).spad }])))))) ∧
    (∀ element : Bool,
      let q : QueueName := if element then .element else .matrix
      let drop : State := onCore s n fun k => setFlight k q (flightIn k q).tail
      (flightIn c q = [] → exec (.queuedInstructionComplete core element) s = .next s) ∧
      (∀ e r, flightIn c q = e :: r → e.op ≠ .kmap → ¬ (e.op = .macc ∧ fld e.w 53 51 = 3) →
        exec (.queuedInstructionComplete core element) s = .next (finish drop n)) ∧
      (∀ e r, flightIn c q = e :: r → e.op = .macc → fld e.w 53 51 = 3 →
        exec (.queuedInstructionComplete core element) s = .next (ckptRead s n e)) ∧
      (∀ e r, flightIn c q = e :: r → e.op = .kmap →
        (completeKmap s n e = none → exec (.queuedInstructionComplete core element) s = .next s) ∧
        (∀ f, completeKmap s n e = some (.error f) →
          exec (.queuedInstructionComplete core element) s = .next (faultCmd drop n f e.pc)) ∧
        (∀ t, completeKmap s n e = some (.ok t) → exec (.queuedInstructionComplete core element) s =
          .next (finish (onCore t n fun k => setFlight k q (flightIn k q).tail) n)))) ∧
    (∀ engine : Fin 2,
      let q : QueueName := if engine = 1 then .dma1 else .dma0
      let drop (t : State) : State := onCore t n fun k => setFlight k q (flightIn k q).tail
      (flightIn c q = [] → exec (.dmaTransferComplete core engine) s = .next s) ∧
      (∀ e r, flightIn c q = e :: r →
        (e.discard = true ∨ e.op = .tst ∨ e.op = .tpf ∨ e.op = .macc ∨ ((e.op = .csend ∨ e.op = .crecv) ∧ e.mrk = true) →
          exec (.dmaTransferComplete core engine) s = .next (finish (drop s) n)) ∧
        (e.discard = false →
          ((e.op = .csend ∨ e.op = .crecv) → e.mrk = false → exec (.dmaTransferComplete core engine) s = .next s) ∧
          (∀ k ∈ [(QOp.tld, completeTld s n e), (.tchk, completeTchk s n e), (.lrecv, completeLrecv s n e)], e.op = k.1 →
            (k.2 = none → exec (.dmaTransferComplete core engine) s = .next s) ∧
            (∀ f, k.2 = some (.error f) → exec (.dmaTransferComplete core engine) s = .next (faultCmd (drop s) n f e.pc)) ∧
            (∀ t, k.2 = some (.ok t) → exec (.dmaTransferComplete core engine) s = .next (finish (drop t) n))))))

/-- A stream pair moves the sender's bytes to the receiver, or faults the side that R169 names (R169, R67, R78).
STREAM_PAIR_TRANSFER acts only if the oldest unpaired CSEND of core a to b and the oldest unpaired CRECV of b from a on
the channel are both in flight. Different lengths fault both with TILE_FORMAT; a double error in the sender's rows
faults the sender with ECC_UNCORR; a piece that fails its CRC faults the receiver with CHECK_MISMATCH; else the
receiver's rows take the sender's bytes and both entries are marked done. -/
def Obligations.StreamPairMovesTheSendersRows : Prop :=
  ∀ (a b : Fin 32) (ch : Fin 8) (crcBad : Bool) (s : State),
    let ca := coreOf s a.val
    let cb := coreOf s b.val
    (oldestStream ca .csend b.val ch.val = none ∨ oldestStream cb .crecv a.val ch.val = none →
      exec (.streamPairTransfer a b ch crcBad) s = .next s) ∧
    (∀ x y, oldestStream ca .csend b.val ch.val = some x → oldestStream cb .crecv a.val ch.val = some y →
      (x ∉ inFlight ca ∨ y ∉ inFlight cb → exec (.streamPairTransfer a b ch crcBad) s = .next s) ∧
      (x ∈ inFlight ca → y ∈ inFlight cb →
        (strLen ca x ≠ strLen cb y → exec (.streamPairTransfer a b ch crcBad) s =
          .next (faultEntry (faultEntry s a.val x { bit := .tileFormat }) b.val y { bit := .tileFormat })) ∧
        (strLen ca x = strLen cb y →
          let r := strRead s a.val x
          (r.2.1 = true → exec (.streamPairTransfer a b ch crcBad) s =
            .next (faultEntry s a.val x { bit := .eccUncorr })) ∧
          (r.2.1 = false →
            let s1 := markDone (nextFree (setCore s a.val r.1)) a.val x
            (crcBad = true → exec (.streamPairTransfer a b ch crcBad) s =
              .next (faultEntry s1 b.val y { bit := .checkMismatch })) ∧
            (crcBad = false → exec (.streamPairTransfer a b ch crcBad) s =
              .next (markDone (onCore s1 b.val fun c => writePieces c r.2.2 (strPieces c y)) b.val y))))))

/-- A write of a mailbox word stores it, a write of word 7 posts the message, and a refused write only records the fault
(R22, R23, R464, R465). For every sender, mailbox, word and value. The mask is asked first (cause 1), then for word 7 a
receiver of 0xFF (cause 3), then FULL (cause 0). A write by what is no sender ends in a bus error alone. A refused write
ends in a bus error: MBX_FAULT_COUNT grows by 1 up to 0xFFFF_FFFF, and if MBX_FAULT holds no record it takes cause,
sender, mailbox and word and Keeper hart 0 is interrupted; no mailbox word and no FULL bit changes. An accepted write of
words 0 to 6 stores that word and nothing else. An accepted write of word 7 stores it, puts the sender's identifier over
word 0 bits [31:24], sets FULL and rings the doorbells of the receiver: SEC's, the DSP's, or those of the Keeper harts
that MBX_RECV names, and none for a hardware receiver. -/
def Obligations.MailboxWritesPostOrRecordTheRefusal : Prop :=
  ∀ (by_ : Req) (m : Fin 128) (w : Fin 7) (v : Word) (s : State),
    let b := s.mbx
    let write (k : Nat) : Instr := if h : k < 7 then .mailboxWordWrite by_ m ⟨k, h⟩ v else .mailboxPost by_ m v
    let refused (k cause : Nat) : Prop :=
      let c := satAdd b.faultCount 1
      (bitOf b.fault.toNat 31 = true →
        exec (write k) s = .next { s with mbx := { b with faultCount := c }, resp := .busError }) ∧
      (bitOf b.fault.toNat 31 = false →
        exec (write k) s = .next { s with
          mbx := { b with faultCount := c,
                          fault := word (2 ^ 31 + cause * 2 ^ 24 + senderId by_ * 2 ^ 16 + m.val * 2 ^ 8 + k) }
          irqs := .senderFault :: s.irqs
          resp := .busError })
    (mbxAllows b m.val by_ = false → maskBit by_ ≠ none → refused w.val 1 ∧ refused 7 1) ∧
    (maskBit by_ = none → exec (write w.val) s = .next { s with resp := .busError } ∧ exec (write 7) s = .next { s with resp := .busError }) ∧
    (mbxAllows b m.val by_ = true →
      (mbxReceiver b m.val = 0xFF → refused 7 3) ∧
      (mbxReceiver b m.val ≠ 0xFF → mbxFull b m.val = true → refused 7 0) ∧
      (mbxFull b m.val = true → refused w.val 0) ∧
      (mbxFull b m.val = false →
        exec (write w.val) s =
          .next { s with mbx := { b with words := SMap.put b.words (8 * m.val + w.val) v 0 }, resp := .ok } ∧
        (mbxReceiver b m.val ≠ 0xFF →
          let ws := SMap.put b.words (8 * m.val + 7) v 0
          let w0 := bits (SMap.getD ws (8 * m.val) 0).toNat 23 0 + senderId by_ * 2 ^ 24
          exec (write 7) s = .next { s with
            mbx := { b with words := SMap.put ws (8 * m.val) (word w0) 0, full := b.full ||| (1#128 <<< m.val) }
            irqs := doorbells b m.val ++ s.irqs
            resp := .ok }))) ∧
    (mbxReceiver b m.val = 0 → ∀ h : Fin 4,
      Irq.doorbell (.keeper h) m.val ∈ doorbells b m.val ↔ bitOf (mbxRecv b m.val) (12 + h.val) = true) ∧
    (mbxReceiver b m.val = 0x08 → doorbells b m.val = [.doorbell .sec m.val]) ∧
    (mbxReceiver b m.val = 0x10 → doorbells b m.val = [.doorbell .dsp m.val]) ∧
    (0x20 ≤ mbxReceiver b m.val → doorbells b m.val = [])

/-- A read of word 7 frees the mailbox and rings TAKEN; a held message posts once its mailbox is free; masks lock for good
(R22, R24, R25, R135, R464, R465). A read of word 7 by the mailbox's receiver or a Keeper hart answers the word; on a
FULL mailbox it clears FULL and interrupts the sender that word 0 names, if that is a Keeper hart, SEC or the DSP; any
other reader gets a bus error and changes nothing. The oldest message that a hardware sender holds posts if its mailbox
is not FULL, as R23 says; a refused one is dropped with one fault record; else nothing changes; a core goes on from its
end report. MBX_MASK_LOCK takes SEC's ones and is refused to all others. -/
def Obligations.TakingFreesTheMailboxAndHeldMessagesFollow : Prop :=
  ∀ (by_ : Req) (m : Fin 128) (i : Fin 4) (v : Word) (s : State),
    let b := s.mbx
    let mine := isKeeper by_ = true ∨ receiverCode by_ = some (mbxReceiver b m.val)
    let id := bits (mbxWord b m.val 0).toNat 31 24
    (¬ mine → exec (.mailboxTake by_ m) s = .next { s with resp := .busError }) ∧
    (mine → mbxFull b m.val = false → exec (.mailboxTake by_ m) s = .next { s with resp := .data (mbxWord b m.val 7) }) ∧
    (mine → mbxFull b m.val = true → exec (.mailboxTake by_ m) s = .next { s with
      mbx := { b with full := b.full &&& ~~~(1#128 <<< m.val) }
      irqs := takenIrq id m.val ++ s.irqs
      resp := .data (mbxWord b m.val 7) }) ∧
    (∀ h : Fin 4, takenIrq (1 + h.val) m.val = [.taken (.keeper h) m.val]) ∧
    takenIrq 0x08 m.val = [.taken .sec m.val] ∧ takenIrq 0x10 m.val = [.taken .dsp m.val] ∧
    (∀ k, 0x10 < k → takenIrq k m.val = []) ∧
    (by_ = .sec → exec (.mbxMaskLock by_ i v) s = .next { s with
      mbx := { b with lock := b.lock ||| (v.setWidth 128 <<< (32 * i.val)) }, resp := .ok }) ∧
    (by_ ≠ .sec → exec (.mbxMaskLock by_ i v) s = .next { s with resp := .busError }) ∧
    (∀ h : HeldMsg, (b.held.find? fun x => x.sender == senderId by_) = some h →
      (mbxFull b h.mailbox = true → exec (.heldMessagePost by_) s = .next s) ∧
      (mbxFull b h.mailbox = false →
        let s1 := { s with mbx := { b with held := b.held.erase h } }
        let posted := if mbxAllows b h.mailbox by_ = false then senderFault s1 1 (senderId by_) h.mailbox 0
          else if mbxReceiver b h.mailbox = 0xFF then
            senderFault (mbxWords s1 h.mailbox 0 (h.words.take 7)) 3 (senderId by_) h.mailbox 7
          else mbxPostNow (mbxWords s1 h.mailbox 0 (h.words.take 7)) by_ h.mailbox (h.words.getD 7 0)
        (∀ n, by_ = .coreSeq n → exec (.heldMessagePost by_) s = .next (coreRest posted n.val)) ∧
        ((∀ n, by_ ≠ .coreSeq n) → exec (.heldMessagePost by_) s = .next posted))) ∧
    ((b.held.find? fun x => x.sender == senderId by_) = none → exec (.heldMessagePost by_) s = .next s)

/-- A register write is aligned, mapped and allowed, or ends in a bus error and changes nothing; then its register acts (R8,
R9, R19, R20, R22, R98, R289, R416, R464, R466, R494). A misaligned address, a hole, a block that the requester does not
reach, and an offset without a register answer a bus error and change nothing. A write to MBX_WORD is the mailbox write
of that word. Owner registers take the partitions 0 to 8 while owner_lock is 0 and ignore all else (SEC's by SEC alone).
A Keeper write to MBX_SENDER_MASK or MBX_RECV of a locked mailbox changes nothing. RW1C fields clear where 1 is written
(RAS_ALARM, CORE_FAULT); the three read-only SYS words of the tick ignore writes. -/
def Obligations.RegisterWritesReachTheirRegister : Prop :=
  ∀ (by_ : Req) (h : Fin 4) (a : BitVec 48) (v : Word) (s : State),
    let k : Req := .keeper h
    let write (r : Req) (a : Nat) : Host.Outcome State Fault Refusal := exec (.registerWrite r (BitVec.ofNat 48 a) v) s
    let ok (t : State) : Host.Outcome State Fault Refusal := .next { t with resp := .ok }
    let error : Host.Outcome State Fault Refusal := .next { s with resp := .busError }
    let owner (m : SMap Nat) (x : Nat) : SMap Nat :=
      if s.own.lock = true ∨ 8 < bits v.toNat 3 0 then m else SMap.put m x (bits v.toNat 3 0) 0
    (regionOf s.board a.toNat = none ∨ a.toNat % 4 ≠ 0 →
      exec (.registerWrite by_ a v) s = error) ∧
    (∀ r, regionOf s.board a.toNat = some r →
      (reaches by_ true r = false → exec (.registerWrite by_ a v) s = error) ∧
      (∀ t, a.toNat % 4 = 0 → reaches by_ true r = true → ¬ (r = .mbxRegs ∧ a.toNat % 0x1000000 < 0x1000) →
        blockWrite s by_ r a.toNat v = some t → exec (.registerWrite by_ a v) s = ok t) ∧
      (blockWrite s by_ r a.toNat v = none → ¬ (r = .mbxRegs ∧ a.toNat % 0x1000000 < 0x1000) →
        exec (.registerWrite by_ a v) s = error)) ∧
    (∀ (m : Fin 128) (w : Fin 7), reaches by_ true .mbxRegs = true →
      write by_ (mbxRegBase + 32 * m.val + 4 * w.val) = exec (.mailboxWordWrite by_ m w v) s ∧
      write by_ (mbxRegBase + 32 * m.val + 28) = exec (.mailboxPost by_ m v) s) ∧
    (∀ u, u < 32 → write k (memRegBase + 0x100 + 4 * u) = ok { s with own := { s.own with hbm := owner s.own.hbm u } }) ∧
    (∀ c, c < 8 → write k (memRegBase + 0x180 + 4 * c) = ok { s with own := { s.own with lp := owner s.own.lp c } }) ∧
    (∀ n, n < 32 → write .sec (secRegBase + 0x200 + 4 * n) = ok { s with own := { s.own with core := owner s.own.core n } } ∧
      write k (secRegBase + 0x200 + 4 * n) = error) ∧
    (∀ w, w < 16 → write .sec (secRegBase + 0x280 + 4 * w) = ok { s with own := { s.own with ssr := owner s.own.ssr w } }) ∧
    (∀ p, p < 4 → write .sec (secRegBase + 0x2C0 + 4 * p) = ok { s with own := { s.own with cam := owner s.own.cam p } }) ∧
    (∀ m, m < 128 → mbxLocked s.mbx m = true →
      write k (mbxRegBase + 0x10000 + 8 * m) = ok s ∧ write k (mbxRegBase + 0x10800 + 4 * m) = ok s) ∧
    (∀ n, n < 32 → write k (coreRegBase + 0x10000 * n + 0x40) = ok (setCore s n
      { coreOf s n with fault := (coreOf s n).fault &&& ~~~(v &&& 0x7F0F) })) ∧
    write k (rasRegBase + 8) = ok { s with ras := { s.ras with alarm := s.ras.alarm &&& ~~~(v &&& 0xF) } } ∧
    (∀ r ∈ [sysRegBase + 0x10, sysRegBase + 0x14, sysRegBase], write k r = ok s)

/-- A request is dropped, refused NO_SLOT, or gets a handle and ACCEPTED; then permission and arguments are checked (R332,
R340, R341, R342, R346, R347). For each of the 42 request rows. A request of an association that does not exist is
dropped. With no free slot, at 4,096 open or done handles, or at the principal's limit, the reply is NO_SLOT and no
handle is taken. Else a handle is opened in the slot free longest under the next generation, the reply is ACCEPTED with
its number (never 0 in its generation), and: without the permission bit the request completes NOT_PERMITTED (0x0015);
with bad arguments BAD_REQUEST (0x001D). A free slot is one never taken, or one released at least 1 s ago. -/
def Obligations.RequestsAreOfferedAndCheckedBeforeTheyAct : Prop :=
  ∀ (head : List Byte), ∀ r ∈ requestRows head, ∀ (rq : Request) (s : State),
    let s1 : State := { s with k := { s.k with inbox := s.k.inbox.erase rq } }
    (SMap.get? s.k.assocs rq.assoc = none → exec (r.1 rq) s = .next s1) ∧
    (∀ a, SMap.get? s.k.assocs rq.assoc = some a →
      (principalOf s a.principal = none ∨ freeSlot s = none →
        exec (r.1 rq) s = .next (replyTo s1 rq.assoc rq.hostTag 0x01 0 [])) ∧
      (∀ p k, principalOf s a.principal = some p → freeSlot s = some k →
        (4096 ≤ handlesAll s ∨ p.limit ≤ handlesOf s a.principal →
          exec (r.1 rq) s = .next (replyTo s1 rq.assoc rq.hostTag 0x01 0 [])) ∧
        (handlesAll s < 4096 → handlesOf s a.principal < p.limit →
          let g := nextGen ((SMap.get? s.k.handles k).elim 0 Handle.gen)
          let h := k * 2 ^ 20 + g
          let x : Handle := { gen := g, st := .opened, principal := a.principal, part := a.principal, assoc := rq.assoc,
                              code := r.2, hostTag := rq.hostTag, tickAccept := s.tick }
          let t := replyTo { s1 with k := { s1.k with handles := SMap.set s1.k.handles k x } } rq.assoc rq.hostTag 0x00 h []
          offer s rq r.2 = .taken t h a.principal ∧
          ((∃ b, permOf r.2 = some b ∧ permitted t a.principal b = false) →
            exec (r.1 rq) s = .next (complete t h 0x0015)) ∧
          ((∀ b, permOf r.2 = some b → permitted t a.principal b = true) → argsFit r.2 rq.args = false →
            exec (r.1 rq) s = .next (complete t h 0x001D))))) ∧
    (∀ g, 1 ≤ nextGen g) ∧
    (∀ k, freeSlot s = some k → SMap.get? s.k.handles k = none ∧ k < 4096 ∨
      ∃ x, (k, x) ∈ s.k.handles ∧ x.st = .released ∧ x.releasedAt + ticksPerSecond ≤ s.tick)

/-- A request completes once: its 64-byte record goes out on a live association of its principal, or is held (R347, R348,
R351). `complete`, with which every request row ends, changes nothing for a handle that is unknown, not open, or has its
record. Else, with a live association (the request's, else another of the principal), the handle is done, holds the
record, and the record of 64 bytes goes out as one COMPLETION; without one the record is held for the principal. The
record carries handle, status, detail, request code, both results and the ticks of acceptance and completion. A record
is 64 bytes. -/
def Obligations.CompletionSendsOneRecordOrHoldsIt : Prop :=
  ∀ (s : State) (h status r0 r1 detail : Nat),
    (handleOf s h = none → complete s h status r0 r1 detail = s) ∧
    (∀ x, handleOf s h = some x →
      (x.st ≠ .opened ∨ x.record.isSome = true → complete s h status r0 r1 detail = s) ∧
      (x.st = .opened → x.record = none →
        let r := recordOf s h x status detail r0 r1
        (r.handle = h ∧ r.status = status ∧ r.detail = detail ∧ r.request = x.code ∧ r.result0 = r0 % 2 ^ 32 ∧
          r.result1 = r1 % 2 ^ 32 ∧ r.tickDone = s.tick ∧ r.tickAccept = x.tickAccept % 2 ^ 32) ∧
        (∀ n, recordRoute s x = some n →
          complete s h status r0 r1 detail =
            sendMsg (modHandle s h fun y => { y with st := .done, record := some r }) n 0x12 (recordBytes r) [h] ∧
          (assocLive s x.assoc = true → n = x.assoc)) ∧
        (recordRoute s x = none →
          complete s h status r0 r1 detail = onK (modHandle s h fun y => { y with record := some r }) fun k =>
            { k with principals := SMap.modify k.principals x.principal fun p => { p with held := p.held ++ [r] } }))) ∧
    (∀ r : Record, (recordBytes r).length = 64)

/-- QUEUE_CREATE, QUEUE_DESTROY, QUEUE_SETTINGS and SCHEDULE_SET, once accepted (R217, R295, R296, R303, R304, R308, R314,
R326, R342, R349). QUEUE_CREATE of a live model with good stream parameters takes the lowest free queue number from 16
to 1,023, which holds the queue that the arguments describe, and completes with it; an unknown model completes
NOT_FOUND, bad stream parameters BAD_REQUEST, lack of a number, a frame or a receive buffer NO_CAPACITY. QUEUE_DESTROY
of a number below 16 is BAD_REQUEST for the system principal and NOT_PERMITTED for others; an absent queue NOT_FOUND,
another partition's NOT_PERMITTED; else it is marked and completes when no job is left. QUEUE_SETTINGS joins the queue's
pending settings, in force at once without a rotation; it does not set the class of a system queue. SCHEDULE_SET with a
bad table, or one that would leave an admitted job unable to start, completes BAD_SCHEDULE; else the shadow takes the
sectors and the table is armed. -/
def Obligations.QueueRequestsCreateDestroyAndSetQueues : Prop :=
  ∀ (rq : Request) (s t : State) (h p : Nat),
    let a := rq.args
    let q := arg a 0 2
    (Accepted 0x03 rq s t h p →
      let m := modelKey p (arg a 0 2)
      let v := queueFrom p m a
      (liveModel t m = none → exec (.queueCreate rq) s = .next (complete t h 0x001C)) ∧
      (∀ x, liveModel t m = some x →
        (streamOk v x.kind = false → exec (.queueCreate rq) s = .next (complete t h 0x001D)) ∧
        (streamOk v x.kind = true → createQueue t v (routesOf a) = none →
          exec (.queueCreate rq) s = .next (complete (nextFree t) h 0x0017)) ∧
        (∀ u n, streamOk v x.kind = true → createQueue t v (routesOf a) = some (u, n) →
          exec (.queueCreate rq) s = .next (complete u h 0 n) ∧ 16 ≤ n ∧ n < 1024 ∧ SMap.get? t.k.queues n = none ∧
          (∀ k, 16 ≤ k → k < n → (SMap.get? t.k.queues k).isSome = true) ∧
          ∃ fs, SMap.get? u.k.queues n = some { v with frames := fs }))) ∧
    (Accepted 0x04 rq s t h p →
      (q < 16 → exec (.queueDestroy rq) s = .next (complete t h (if p = 0 then 0x001D else 0x0015))) ∧
      (16 ≤ q → queueAt t q = none → exec (.queueDestroy rq) s = .next (complete t h 0x001C)) ∧
      (∀ v, 16 ≤ q → queueAt t q = some v →
        (v.part ≠ p → exec (.queueDestroy rq) s = .next (complete t h 0x0015)) ∧
        (v.part = p → v.destroy.isSome = true → exec (.queueDestroy rq) s = .next (complete t h 0x001C)) ∧
        (v.part = p → v.destroy = none →
          let u := sweepQueues (modQueue t q fun v => { v with destroy := some h })
          exec (.queueDestroy rq) s = .next (if (queueAt u q).isSome then u else syncQueue u q)))) ∧
    (Accepted 0x05 rq s t h p → ∀ v, queueAt t q = some v → v.part = p → v.destroy = none →
      let x : QSet := { handle := h, mask := arg a 2 1, cls := arg a 3 1, prio := arg a 4 1, depth := arg a 5 1, thresh := arg a 6 2 }
      let u := modQueue t q fun v => { v with pend := v.pend ++ [x] }
      let own := q < 16 ∧ bitOf (arg a 2 1) 0 = true
      (own → exec (.queueSettings rq) s = .next (complete t h 0x001D)) ∧
      (¬ own → (rotOf t p).period ≠ 0 → exec (.queueSettings rq) s = .next u) ∧
      (¬ own → (rotOf t p).period = 0 → exec (.queueSettings rq) s = .next (reschedule (applySettings u q) p))) ∧
    (Accepted 0x06 rq s t h p →
      let period := arg a 0 4
      let n := arg a 4 1
      (freeRange t p n = none → exec (.scheduleSet rq) s = .next (complete t h 0x001B)) ∧
      (∀ f, freeRange t p n = some f →
        let secs := (span 0 n).map fun i => (f + i, sectorOfBytes (part a (16 + 16 * i) 16))
        f + n ≤ 512 ∧
        (tableOk t p period n f secs = false ∨ jobsFit t p period secs = false →
          exec (.scheduleSet rq) s = .next (complete t h 0x001B)) ∧
        (tableOk t p period n f secs = true → jobsFit t p period secs = true →
          let u := onSched t fun x => { x with shSectors := secs.foldl (fun m e => SMap.put m e.1 e.2 {}) x.shSectors }
          exec (.scheduleSet rq) s = .next (reschedule (armTable (setRot u p { rotOf t p with
            shPeriod := period, shCount := n, shFirst := f, waiting := (rotOf t p).waiting ++ [(h, f)] }) p) p))))

/-- LOAD_MODEL, LOAD_DATA, STORE_IMAGE, UNLOAD_MODEL, NVME_COMMAND_COMPLETE and LOAD_IMAGE_TIMEOUT (R260, R265, R280, R282,
R284, R342, R343, R344, R345). LOAD_MODEL with image 0xFFFF_FFFF opens a load of the announced number of tiles and takes
the first ones; with an image number it reads the store, NOT_FOUND where there is none. STORE_IMAGE opens a store in the
same way; NO_CAPACITY without a formatted drive. LOAD_DATA for no open load of the principal is NOT_FOUND, with tiles
beyond the count BAD_REQUEST, with a bad tile INPUT_CHECK_FAIL; good tiles are stored, it completes with the number of
new ones and of those missing, and the load goes on. After 60 s without a new tile an open load ends CANCELLED; else
nothing changes. A failed NVMe command is tried again (writes once, reads three times) and then ends its request with
0x0013; one that ended well goes on. UNLOAD_MODEL marks a live model, which goes when no job uses it. -/
def Obligations.ImagesAreLoadedStoredAndUnloaded : Prop :=
  ∀ (rq : Request) (head : List Byte) (s t : State) (h p id : Nat) (ok : Bool),
    let a := rq.args
    (Accepted 0x01 rq s t h p →
      (arg a 0 4 = 0xFFFFFFFF → exec (.loadModel rq head) s = .next (openTiles t
        { handle := h, store := false, part := p, args := a, head := head, n := arg a 24 4, model := freeModel t p } rq.tiles)) ∧
      (arg a 0 4 ≠ 0xFFFFFFFF →
        exec (.loadModel rq head) s = .next (openStored t h p a) ∧
        (storeHere t = false ∨ imageEntry t (arg a 0 4) = none → openStored t h p a = complete t h 0x001C))) ∧
    (Accepted 0x08 rq s t h p →
      (storeHere t = false → exec (.storeImage rq head) s = .next (complete t h 0x0017)) ∧
      (storeHere t = true → exec (.storeImage rq head) s = .next (openTiles t
        { handle := h, store := true, part := 0, args := a, head := head, n := arg a 4 4 } rq.tiles))) ∧
    (Accepted 0x07 rq s t h p →
      (openFor t (arg a 0 4) p = none → exec (.loadData rq) s = .next (complete t h 0x001C)) ∧
      (∀ o, openFor t (arg a 0 4) p = some o →
        (o.n < arg a 4 4 + rq.tiles.length → exec (.loadData rq) s = .next (complete t h 0x001D)) ∧
        (arg a 4 4 + rq.tiles.length ≤ o.n →
          (∀ i r, badTiles rq.tiles 2 (arg a 4 4) isImageTile = i :: r → exec (.loadData rq) s =
            .next (complete (rcount t (hostRegBase + 0x110) (r.length + 1)) h 0x0013 (arg a 4 4 + i))) ∧
          (badTiles rq.tiles 2 (arg a 4 4) isImageTile = [] →
            let u := storeTiles t o.handle (arg a 4 4) rq.tiles
            let left := (openingOf u o.handle).elim 0 missing
            exec (.loadData rq) s =
              .next (afterTiles (complete u h 0 (missing o - left) left) o.handle (SMap.get? o.tiles 0).isSome))))) ∧
    (Accepted 0x02 rq s t h p →
      let m := modelKey p (arg a 0 2)
      (modelAt t m = none ∨ (modelAt t m).any (fun x => x.unload.isSome) = true →
        exec (.unloadModel rq) s = .next (complete t h 0x001C)) ∧
      (∀ x, modelAt t m = some x → x.unload = none →
        exec (.unloadModel rq) s = .next (sweepModels (modModel t m fun x => { x with unload := some h })))) ∧
    (∀ o, openingOf s id = some o →
      (o.image = 0xFFFFFFFF → o.writing = false → o.lastTile + 60 * ticksPerSecond ≤ s.tick →
        exec (.loadImageTimeout id) s = .next (failOpening s o 0x0010)) ∧
      (o.image ≠ 0xFFFFFFFF ∨ o.writing = true ∨ s.tick < o.lastTile + 60 * ticksPerSecond →
        exec (.loadImageTimeout id) s = .next s)) ∧
    (openingOf s id = none → exec (.loadImageTimeout id) s = .next s) ∧
    ((s.pcie.store.cmds.find? fun c => c.id == id) = none → exec (.nvmeCommandComplete id ok) s = .next s) ∧
    (∀ c, (s.pcie.store.cmds.find? fun c => c.id == id) = some c →
      (c.fails + 1 < (if c.write = true then 2 else 4) → exec (.nvmeCommandComplete id false) s = .next (onDisk s fun d =>
        { d with cmds := d.cmds.map fun x => if x.id = id then { x with fails := x.fails + 1 } else x })) ∧
      (let u := onDisk s fun d => { d with cmds := d.cmds.filter fun x => x.id != id }
       (openingOf u c.handle = none → exec (.nvmeCommandComplete id true) s = .next (sweepEntries u)) ∧
       (∀ o, openingOf u c.handle = some o →
         (c.write = true → exec (.nvmeCommandComplete id true) s = .next (writeEnded u o c.entry)) ∧
         (c.write = false → exec (.nvmeCommandComplete id true) s = .next (sweepEntries (readEnded u o c.entry))) ∧
         ((if c.write = true then 2 else 4) ≤ c.fails + 1 → exec (.nvmeCommandComplete id false) s =
           .next (sweepEntries (failOpening (if c.write then freeEntry u c.entry else u) o 0x0013))))))

/-- STORE_DELETE, STORE_LIST and STORE_FORMAT, once accepted (R283, R342, R344). Without a formatted drive STORE_DELETE and
STORE_LIST complete NO_CAPACITY. STORE_DELETE of an unknown image completes NOT_FOUND; of a valid one it frees entry and
extent and completes, or waits until no LOAD_MODEL reads it. STORE_LIST returns the entries of at most the asked number
of images, numbers rising from the first asked, as 64 bytes each, with their count and the count of all images.
STORE_FORMAT without a drive or while the store is in use completes NO_CAPACITY; else the directory is empty and it
completes with the number of blocks. -/
def Obligations.StoreRequestsDeleteListAndFormat : Prop :=
  ∀ (rq : Request) (s t : State) (h p : Nat),
    let a := rq.args
    (Accepted 0x09 rq s t h p →
      (storeHere t = false → exec (.storeDelete rq) s = .next (complete t h 0x0017)) ∧
      (storeHere t = true → imageEntry t (arg a 0 4) = none → exec (.storeDelete rq) s = .next (complete t h 0x001C)) ∧
      (∀ k e, storeHere t = true → imageEntry t (arg a 0 4) = some (k, e) →
        let u := onDisk t fun d => { d with dir := SMap.modify d.dir k fun e => { e with deleter := some h } }
        exec (.storeDelete rq) s = .next (retireEntry u k) ∧
        ((∀ c ∈ t.pcie.store.cmds, c.entry = k → c.write = true) → SMap.get? t.pcie.store.dir k = some e →
          exec (.storeDelete rq) s = .next (complete (freeEntry u k) h 0)))) ∧
    (Accepted 0x0A rq s t h p →
      (storeHere t = false → exec (.storeList rq) s = .next (complete t h 0x0017)) ∧
      (storeHere t = true →
        let images := (t.pcie.store.dir.map Prod.snd).filter fun e => !e.tokenLog && e.valid
        let asked := sortBy (fun a b => decide (a.number ≤ b.number)) (images.filter fun e => decide (arg a 0 4 ≤ e.number))
        let sent := asked.take (arg a 4 4)
        exec (.storeList rq) s = .next
          (complete (keepOuts t h (reportTiles 4096 (sent.flatMap dirBytes))) h 0 sent.length images.length) ∧
        sent.Sublist asked ∧ List.Pairwise (fun a b => a.number ≤ b.number) sent ∧ (∀ e ∈ sent, arg a 0 4 ≤ e.number ∧ e.valid = true) ∧
        (sent.flatMap dirBytes).length = 64 * sent.length)) ∧
    (Accepted 0x0B rq s t h p →
      (driveHere t = false ∨ storeBusy t = true → exec (.storeFormat rq) s = .next (complete t h 0x0017)) ∧
      (driveHere t = true → storeBusy t = false → exec (.storeFormat rq) s = .next (complete
        { t with pcie := { t.pcie with store := { t.pcie.store with formatted := true, serial := t.board.serial, dir := [], bytes := [] } } }
        h 0 t.pcie.store.blocks)))

/-- OPEN_SESSION, CLOSE_SESSION, SESSION_SETTINGS and SUBMIT_INPUT, once accepted (R181, R192, R199, R209, R218, R274, R275,
R341, R342, R377). OPEN_SESSION of a live model with a queue argument that fits it takes the lowest free session number,
at the lowest free place, with the seal format asked (0xFF: the model's), and completes with the number (on a placement
once every stage confirmed); no place, number or memory is NO_CAPACITY. CLOSE_SESSION marks the session; it goes and
completes when no admitted job holds it. SESSION_SETTINGS of a format that the model does not permit is BAD_REQUEST;
else the format waits for the next empty slot, a session without admitted jobs goes cold if asked, and it completes.
SUBMIT_INPUT checks tile count, tiles, context and ring room in that order (BAD_REQUEST, INPUT_CHECK_FAIL, CONTEXT_FULL,
RING_FULL); good tiles all join the ring with their reset marks. -/
def Obligations.SessionRequestsOpenFeedAndClose : Prop :=
  ∀ (rq : Request) (s t : State) (h p : Nat),
    let a := rq.args
    let n := arg a 0 4
    let mine (v : Session) : Prop := sessionAt t n = some v ∧ v.part = p ∧ v.closing = none
    (Accepted 0x10 rq s t h p →
      let mk := modelKey p (arg a 0 2)
      let q := arg a 2 2
      (liveModel t mk = none → exec (.openSession rq) s = .next (complete t h 0x001C)) ∧
      (∀ m, liveModel t mk = some m → (isStream m = true → ∃ v, queueAt t q = some v ∧ v.part = p) →
        (queueArgOk t mk q m = false → exec (.openSession rq) s = .next (complete t h 0x001D)) ∧
        (queueArgOk t mk q m = true → (arg a 4 1 = 1 → bitOf m.flags 0 = true ∨ m.sealFmt ≠ 0) →
          (∀ k i, newPlace t mk q m = some k → SMap.firstFree t.k.sessions 0 65536 = some i →
            let v : Session := { part := p, model := mk, queue := q, sealFmt := if arg a 4 1 = 0xFF then m.sealFmt else arg a 4 1,
                                 place := k, lastRef := t.tick }
            (makeSession t v m i = none → exec (.openSession rq) s = .next (complete t h 0x0017)) ∧
            (∀ u, makeSession t v m i = some u →
              exec (.openSession rq) s = .next (openStages u mk h i v.sealFmt) ∧
              (frontOfModel u mk = none → exec (.openSession rq) s = .next (complete u h 0 i)))) ∧
          (newPlace t mk q m = none ∨ SMap.firstFree t.k.sessions 0 65536 = none →
            exec (.openSession rq) s = .next (complete t h 0x0017))))) ∧
    (Accepted 0x11 rq s t h p → ∀ v, mine v → exec (.closeSession rq) s =
      .next (sweepSessions (modSession t n fun v => { v with closing := some h }))) ∧
    (Accepted 0x12 rq s t h p → ∀ v, mine v →
      let permits := (modelAt t v.model).any fun m => bitOf m.flags 0 || m.sealFmt == 1
      let u := if arg a 4 1 = 0xFF then t else applySealFormat (modSession t n fun v => { v with sealNext := some (arg a 4 1) }) n
      (arg a 4 1 = 1 → permits = false → exec (.sessionSettings rq) s = .next (complete t h 0x001D)) ∧
      (arg a 4 1 ≠ 1 ∨ permits = true →
        exec (.sessionSettings rq) s = .next (complete (if bitOf (arg a 5 1) 0 && !sessionBusy u v then goCold u n else u) h 0))) ∧
    (Accepted 0x14 rq s t h p → ∀ v, mine v →
      (liveModel t v.model = none ∨ queueAt t v.queue = none → exec (.submitInput rq) s = .next (complete t h 0x001C)) ∧
      (∀ m y, liveModel t v.model = some m → queueAt t v.queue = some y →
        let k := rq.tiles.length
        (arg a 4 4 ≠ k → exec (.submitInput rq) s = .next (complete t h 0x001D)) ∧
        (arg a 4 4 = k → badTiles rq.tiles 1 0 (fun f => f == 1) = [] →
          (contextFull t n v k = true → exec (.submitInput rq) s = .next (complete t h 0x0018)) ∧
          (contextFull t n v k = false → y.ringCap < v.ring.length + k →
            exec (.submitInput rq) s = .next (complete t h 0x001A)) ∧
          (contextFull t n v k = false → v.ring.length + k ≤ y.ringCap →
            ∃ new : List RingFrame, new.map RingFrame.tile = rq.tiles ∧
              (∀ i (hi : i < new.length), new[i].reset = (decide (i < 32) && bitOf (arg a 8 4) i)) ∧
              exec (.submitInput rq) s = .next (complete
                (modSession t n fun v => { v with ring := v.ring ++ new, lastRef := t.tick }) h 0 k (v.ring.length + k)))))) ∧
    (∀ c ∈ [(0x11, exec (.closeSession rq) s), (0x12, exec (.sessionSettings rq) s), (0x14, exec (.submitInput rq) s)],
      Accepted c.1 rq s t h p →
        (sessionAt t n = none → c.2 = .next (complete t h 0x001C)) ∧
        (∀ v, sessionAt t n = some v → v.part ≠ p → c.2 = .next (complete t h 0x0015)) ∧
        (∀ v, sessionAt t n = some v → v.part = p → v.closing.isSome = true → c.2 = .next (complete t h 0x001C)))

/-- INVOKE puts a job on its queue's ring; CANCEL stops it; QUERY_HANDLE and READ_OUTPUT answer (R296, R305, R308, R340,
R342, R347, R352, R353, R354, R516). INVOKE, accepted, on a queue of the principal, with a live model of that kind of
job, all tiles there and good, a ring below 256 jobs, budgets that fit, room in the session's context and a mode in
reach, appends one job to the queue and to its session, in arrival order, with the arguments, inputs and command graph
of the request; it does not complete yet. Each failed check completes it with the status of R342. CANCEL and
QUERY_HANDLE are answered at once and take no handle: bad arguments BAD_REQUEST, an unknown handle or another
principal's 0x05. CANCEL of a finished handle answers 0x06, of a job 0x04, marks it cancelled and stops its commands.
QUERY_HANDLE gives the state code and, unless open, the record. READ_OUTPUT streams the kept tiles asked for and
completes with their number. -/
def Obligations.JobsAreInvokedCancelledAndRead : Prop :=
  ∀ (rq : Request) (s t : State) (h p : Nat),
    let a := rq.args
    (Accepted 0x13 rq s t h p →
      let q := arg a 0 2
      let u := repoint t q
      (q < 16 → exec (.invoke rq) s = .next (complete u h (if p = 0 then 0x001D else 0x0015))) ∧
      (16 ≤ q → queueAt u q = none → exec (.invoke rq) s = .next (complete u h 0x001C)) ∧
      (∀ v, 16 ≤ q → queueAt u q = some v →
        (v.part ≠ p → exec (.invoke rq) s = .next (complete u h 0x0015)) ∧
        (v.part = p → v.destroy = none →
          (liveModel u v.model = none → exec (.invoke rq) s = .next (complete u h 0x001C)) ∧
          (∀ m, liveModel u v.model = some m →
            (graphFor u p m (arg a 2 2) = none ∨ arg a 10 2 ≠ rq.tiles.length →
              exec (.invoke rq) s = .next (complete u h 0x001D)) ∧
            (∀ g, graphFor u p m (arg a 2 2) = some g → arg a 10 2 = rq.tiles.length →
              ∀ ses : Option (Nat × Session),
                (ses = none ∧ arg a 4 4 = 0xFFFFFFFF) ∨ (∃ x, ses = some (arg a 4 4, x) ∧ arg a 4 4 ≠ 0xFFFFFFFF ∧
                  sessionAt u (arg a 4 4) = some x ∧ x.part = p ∧ x.closing = none ∧ sameModel u x.model v.model = true) →
                (∀ i r, badTiles rq.tiles 1 0 knownFormat = i :: r → exec (.invoke rq) s =
                  .next (complete (rcount u (hostRegBase + 0x110) (r.length + 1)) h 0x0013 (0 + i))) ∧
                (badTiles rq.tiles 1 0 knownFormat = [] →
                  let fits := budgetsFit u p q v (rotOf u p).table (rotOf u p).period (g.map GCmd.budget)
                  let full := ses.any fun x => contextFull u x.1 x.2 (inputPositions rq.tiles + arg a 12 4)
                  let x : Job := { handle := h, part := p, queue := q, model := v.model, kind := arg a 2 2, session := ses.map Prod.fst,
                                   minPrec := arg a 8 1, retain := arg a 9 1 == 1, limit := arg a 12 4, args := part a 16 60,
                                   inputs := rq.tiles, cmds := g.map fun c => { g := c } }
                  (256 ≤ ringJobs u v → exec (.invoke rq) s = .next (complete u h 0x0019)) ∧
                  (ringJobs u v < 256 → fits = false → exec (.invoke rq) s = .next (complete u h 0x0012)) ∧
                  (ringJobs u v < 256 → fits = true → full = true → exec (.invoke rq) s = .next (complete u h 0x0018)) ∧
                  (ringJobs u v < 256 → fits = true → full = false →
                    (aboveCeiling u (neededMode u x) = true → exec (.invoke rq) s = .next (complete u h 0x0017)) ∧
                    (aboveCeiling u (neededMode u x) = false → Answers (.invoke rq) s fun w =>
                      SMap.get? w.k.jobs u.k.jobNext = some x ∧ w.k.jobNext = u.k.jobNext + 1 ∧
                      (queueAt w q).map Queue.jobs = some (v.jobs ++ [u.k.jobNext]) ∧
                      (∀ n y, ses = some (n, y) → (sessionAt w n).map Session.jobs = some (y.jobs ++ [u.k.jobNext])) ∧
                      w = { u with k := w.k, events := w.events } ∧ w.k.handles = u.k.handles)))))))) ∧
    (Accepted 0x17 rq s t h p →
      (∀ x, handleOf t (arg a 0 4) = some x → x.principal = p →
        let ts := (x.outs.drop (arg a 4 4)).take (arg a 8 4)
        let send (s : State) (i : Nat) : State := match ts[i]? with
          | some t => streamTile s rq.assoc (arg a 0 4) (arg a 4 4 + i) (arg a 4 4 + i + 1 == x.outs.length) t
          | none => s
        exec (.readOutput rq) s = .next (complete ((span 0 ts.length).foldl send t) h 0 ts.length)) ∧
      (handleOf t (arg a 0 4) = none ∨ (handleOf t (arg a 0 4)).any (fun x => x.principal != p) = true →
        exec (.readOutput rq) s = .next (complete t h 0x001C))) ∧
    (let s1 : State := { s with k := { s.k with inbox := s.k.inbox.erase rq } }
     let say (s : State) (st : Nat) : State := replyTo s rq.assoc rq.hostTag st 0 []
     (SMap.get? s.k.assocs rq.assoc = none → exec (.cancel rq) s = .next s1 ∧ exec (.queryHandle rq) s = .next s1) ∧
     (∀ o, SMap.get? s.k.assocs rq.assoc = some o →
       (argsOk a [(0, 4)] = false → exec (.cancel rq) s = .next (say s1 0x02) ∧ exec (.queryHandle rq) s = .next (say s1 0x02)) ∧
       (argsOk a [(0, 4)] = true →
         (handleOf s (arg a 0 4) = none ∨ (handleOf s (arg a 0 4)).any (fun x => x.principal != o.principal) = true →
           exec (.cancel rq) s = .next (say s1 0x05) ∧ exec (.queryHandle rq) s = .next (say s1 0x05)) ∧
         (∀ x, handleOf s (arg a 0 4) = some x → x.principal = o.principal →
           (x.record.isSome = true → exec (.cancel rq) s = .next (say s1 0x06)) ∧
           (∀ j y, x.record = none → (s.k.jobs.find? fun j => j.2.handle == arg a 0 4) = some (j, y) →
             exec (.cancel rq) s = .next (cancelJob (say s1 0x04) j y)) ∧
           (x.record = none → (s.k.jobs.find? fun j => j.2.handle == arg a 0 4) = none →
             exec (.cancel rq) s = .next ((cancelWaiting s1 (arg a 0 4)).elim (say s1 0x06) fun t => say t 0x04)) ∧
           exec (.queryHandle rq) s = .next (replyTo s1 rq.assoc rq.hostTag 0x04 0 (leBytes 1 (handleCode x.st) ++ leBytes 3 0 ++
             if x.st = .opened then [] else x.record.elim [] recordBytes))))))

/-- JOB_ADMISSION admits a waiting job whose turn it is; SESSION_REINGEST puts Keeper's own job first; SCALE_SHIFT shifts
once (R64, R190, R201, R220, R257, R265, R276, R317, R516, assumption log 24). JOB_ADMISSION of a job that is unknown,
admitted or cancelled changes nothing; nor of one whose session has an earlier job or waits to be ingested again. Else
it is admitted if its reservations can be made, and stays waiting if they cannot; one that no longer fits its session's
context ends CONTEXT_FULL, and one whose new model has no such kind BAD_REQUEST. SESSION_REINGEST of a session without a
lost position, without jobs, or whose first job has started changes nothing; else a job with handle 0 that ingests the
log from the position goes to the front of session and queue (the model's choice, log 24). SCALE_SHIFT without a pending
new scale of that tensor, or while a started job of the model is left, changes nothing; else every stored A16 value of
the tensor is shifted and the pending scale is gone. -/
def Obligations.JobsAreAdmittedReingestedAndRescaled : Prop :=
  ∀ (j n m : Nat) (session : Fin 65536) (tensor : Fin 65536) (s : State),
    (jobAt s j = none → exec (.jobAdmission j) s = .next s) ∧
    (∀ x0, jobAt s j = some x0 →
      (x0.admitted = true ∨ x0.cancelled = true → exec (.jobAdmission j) s = .next s) ∧
      (x0.admitted = false → x0.cancelled = false →
        (remodel (repoint s x0.queue) j x0 = none →
          exec (.jobAdmission j) s = .next (reschedule (endJob s j 0x001D 0 0 0) x0.part)) ∧
        (∀ u x, remodel (repoint s x0.queue) j x0 = some (u, x) →
          (x.session = none → exec (.jobAdmission j) s = .next (tryAdmit u j x)) ∧
          (∀ k v, x.session = some k → sessionAt u k = some v →
            (v.jobs.head? ≠ some j ∨ (v.reingest.isSome = true ∧ x.refill = false) ∨ v.model ≠ x.model →
              exec (.jobAdmission j) s = .next u) ∧
            (v.jobs.head? = some j → v.reingest = none ∨ x.refill = true → v.model = x.model →
              (x.refill = false → contextFull u k v (mayAdd v x) = true →
                exec (.jobAdmission j) s = .next (reschedule (endJob u j 0x0018 0 0 0) x.part)) ∧
              (x.refill = true ∨ contextFull u k v (mayAdd v x) = false →
                exec (.jobAdmission j) s = .next (tryAdmit u j x))))))) ∧
    (∀ x, allocSems s x.part x.queue (semSlots x) = none → tryAdmit s j x = s) ∧
    (let k := session.val
     (sessionAt s k = none → exec (.sessionReingest session) s = .next s) ∧
     (∀ v, sessionAt s k = some v →
       (v.reingest = none ∨ v.jobs = [] → exec (.sessionReingest session) s = .next s) ∧
       (∀ pos i r x, v.reingest = some pos → v.jobs = i :: r → jobAt s i = some x →
         (x.refill = true ∨ x.started = true → exec (.sessionReingest session) s = .next s) ∧
         (x.refill = false → x.started = false →
           (v.cold = false → exec (.sessionReingest session) s = .next (putRefill s k v i x pos)) ∧
           (∀ t, v.cold = true → reserveKv s k = some t →
             exec (.sessionReingest session) s = .next (putRefill t k v i x pos)) ∧
           (v.cold = true → reserveKv s k = none → ∃ need, exec (.sessionReingest session) s = .next (evict s v.part need)))))) ∧
    (∀ v x pos, j ≠ s.k.jobNext → ∃ y, SMap.get? (putRefill s n v j x pos).k.jobs s.k.jobNext = some y ∧ y.handle = 0 ∧
      y.refill = true ∧ y.session = some n ∧ y.queue = x.queue ∧ y.part = x.part ∧ y.inputs = logTiles v pos ∧ y.admitted = false) ∧
    ((s.k.rescales.find? fun r => r.model == m && r.tensor == tensor.val) = none → exec (.scaleShift m tensor) s = .next s) ∧
    (∀ r, (s.k.rescales.find? fun r => r.model == m && r.tensor == tensor.val) = some r →
      ((∃ x ∈ s.k.jobs, x.2.model = m ∧ x.2.started = true) → exec (.scaleShift m tensor) s = .next s) ∧
      ((∀ x ∈ s.k.jobs, x.2.model = m → x.2.started = false) →
        let u := modModel (onK (nextFree (shiftTensor s m tensor.val r.k)) fun q => { q with rescales := q.rescales.erase r }) m
          fun m => { m with recalNew := true }
        exec (.scaleShift m tensor) s =
          .next ((u.k.models.filter fun x => x.1 == m).foldl (fun s x => reschedule s x.2.part) u)))

/-- TENANT_CREATE and TENANT_REMOVE, the ends of a quench's steps and of a key rotation's rewrite (R341, R439, R454, R455,
R456, R460, R461, R462, assumption log 35). TENANT_CREATE outside FIELD or while a life-cycle change waits completes
NOT_PERMITTED, with bad arguments or a CAK that does not decrypt BAD_REQUEST, where something named is not free, does
not fit or no key can be made NO_CAPACITY; else the creation joins those that wait for the named cores and goes on.
TENANT_REMOVE of a tenant that is absent or being removed completes NOT_FOUND; else its quench starts: every open handle
of the tenant completes, its jobs go, its commands stop. TENANT_DRAIN_COMPLETE acts once the tenant's cores are at rest:
keys, principal and associations are gone, the quench is zeroised. TENANT_SCRUB_COMPLETE acts after that: what the
partition had is gone. QUENCH_ACK_TIMEOUT counts an awaited member lost. KEY_REWRITE_COMPLETE puts every deep block
under the new generation. -/
def Obligations.TenantsAreCreatedQuenchedAndRotated : Prop :=
  ∀ (rq : Request) (s u : State) (h p : Nat) (tenant : Fin 9) (member : BitVec 16),
    let a := rq.args
    let t := tenant.val
    let m := member.toNat
    let z := zeroTenant s t
    let w := scrubTenant s t
    (Accepted 0x20 rq s u h p →
      let v := tenantFrom a
      let cak := u.secStore.deviceKey.any fun k => Config.oaepOk k (part a 32 512)
      let free := namedFree u (arg a 0 1) v && (clearNamed u v).isSome && !u.sec.trngFail
      (lifeCycle u ≠ 2 ∨ u.k.lifeChange.isSome = true → exec (.tenantCreate rq) s = .next (complete u h 0x0015)) ∧
      (lifeCycle u = 2 → u.k.lifeChange = none →
        (tenantArgsOk u a = false ∨ cak = false → exec (.tenantCreate rq) s = .next (complete u h 0x001D)) ∧
        (tenantArgsOk u a = true → cak = true → free = false → exec (.tenantCreate rq) s = .next (complete u h 0x0017)) ∧
        (tenantArgsOk u a = true → cak = true → free = true → exec (.tenantCreate rq) s =
          .next (tryCreations (onK u fun k => { k with
            creations := k.creations ++ [{ handle := h, t := arg a 0 1, tenant := v, args := a.take 32 }] }))))) ∧
    (Accepted 0x21 rq s u h p →
      let n := arg a 0 1
      (SMap.get? u.secStore.tenants n = none ∨ (SMap.get? u.k.quenches n).isSome = true →
        exec (.tenantRemove rq) s = .next (complete u h 0x001C)) ∧
      ((SMap.get? u.secStore.tenants n).isSome = true → SMap.get? u.k.quenches n = none →
        exec (.tenantRemove rq) s = .next (startQuench u n (some h) none) ∧
        (∀ x ∈ (startQuench u n (some h) none).k.jobs, x.2.part ≠ n) ∧
        (∀ o ∈ (startQuench u n (some h) none).k.openings, o.part ≠ n))) ∧
    (SMap.get? s.k.quenches t = none →
      exec (.tenantDrainComplete tenant) s = .next s ∧ exec (.tenantScrubComplete tenant) s = .next s ∧
      exec (.quenchAckTimeout tenant member) s = .next s) ∧
    (∀ q, SMap.get? s.k.quenches t = some q →
      (q.zeroised = true ∨ tenantDrained s t = false → exec (.tenantDrainComplete tenant) s = .next s) ∧
      (q.zeroised = false → tenantDrained s t = true →
        let s1 := logAppend (zeroTenant ((ctxsOf s t).foldl camDisable s) t) 0x0A t [t, 2]
        let s2 := reportRetired (modQuench s1 t fun q => { q with zeroised := true }) ((gensOf s t).map Prod.snd)
        exec (.tenantDrainComplete tenant) s =
          .next (tryHandovers (q.origin.elim s2 fun a => retireSend s2 a (.retireAck t none 1)))) ∧
      (q.zeroised = false ∨ q.scrubbed = true → exec (.tenantScrubComplete tenant) s = .next s) ∧
      (q.zeroised = true → q.scrubbed = false → exec (.tenantScrubComplete tenant) s = .next (drainOwn (scrubDone s t q))) ∧
      (m ∉ q.acks1 → m ∉ q.acks2 → exec (.quenchAckTimeout tenant member) s = .next s) ∧
      (m ∈ q.acks1 ∨ m ∈ q.acks2 → exec (.quenchAckTimeout tenant member) s =
        .next (drainOwn (ackQuench (loseMember s m) t m true true)))) ∧
    ((∀ x ∈ z.k.assocs, x.2.principal ≠ t) ∧
      z = { s with sec := z.sec, secStore := z.secStore, port0 := z.port0, port1 := z.port1, k := z.k }) ∧
    ((∀ e ∈ w.own.core ++ w.own.ssr ++ w.own.hbm ++ w.own.lp ++ w.own.cam, e.2 ≠ t) ∧
      (∀ o ∈ w.mm.objs, o.1 / 65536 ≠ t) ∧ (∀ g ∈ w.mm.pages, g.2.part ≠ t) ∧ (∀ f ∈ w.mm.fixedF, f.2 ≠ t) ∧
      (∀ v ∈ w.sems, v.2.part ≠ t)) ∧
    (SMap.get? s.k.rotations t = none → exec (.keyRewriteComplete tenant) s = .next s) ∧
    (∀ r, SMap.get? s.k.rotations t = some r →
      (r.active = false ∨ r.clean = true ∨ s.fab.addr ∉ r.rewrites → exec (.keyRewriteComplete tenant) s = .next s) ∧
      (r.active = true → r.clean = false → s.fab.addr ∈ r.rewrites →
        let s1 := rewriteBlocks s t r.gen
        (r.origin = s.fab.addr → exec (.keyRewriteComplete tenant) s = .next (rewritten s1 t s.fab.addr)) ∧
        (r.origin ≠ s.fab.addr → exec (.keyRewriteComplete tenant) s =
          .next (placeSend (modRotation s1 t fun r => { r with rewrites := [] }) r.origin (.keyClean t r.gen) false))))

/-- READ_RECORDS, the three calibration requests, ATTEST, TELEMETRY_SET and LOGBOOK_DROP_SUMMARY (R331, R332, R453, R504,
R505, R506, R508, R509, R510, assumption logs 28 and 36). READ_RECORDS returns records in rising sequence, of the
principal's own partition unless it is the system's, at most the count asked, 64 bytes each. The boot record is returned
for first 0xFFFF_FFFF and count 1 (its results are free). A calibration write sets the entry with origin 2 and one more
write, extends M7 with the arguments and appends a record; an erase leaves it without data; a read returns its 64 bytes.
ATTEST on a device with key and certificate makes a fresh token nonce, which it keeps, and returns a signed quote over
the selected registers and the certificate; without them NOT_FOUND (the model's choice, log 36). TELEMETRY_SET sets the
principal's interval and mask. LOGBOOK_DROP_SUMMARY records the drops of a second that has ended, if there were any. -/
def Obligations.RecordsCalibrationAttestationAndTelemetryAnswer : Prop :=
  ∀ (rq : Request) (s t : State) (h p : Nat),
    let a := rq.args
    (Accepted 0x23 rq s t h p →
      (arg a 0 4 = 0xFFFFFFFF ∧ arg a 4 4 = 1 → exec (.readRecords rq) s = .next (complete
        (returnTiles { t with freeCtr := t.freeCtr + 2 } h (reportTiles 4096 (bootBytes t))) h 0
        (Config.freeNat t.freeCtr) (Config.freeNat (t.freeCtr + 1)))) ∧
      (¬ (arg a 0 4 = 0xFFFFFFFF ∧ arg a 4 4 = 1) →
        let rs := recordsFor t p (arg a 0 4) (arg a 4 4)
        exec (.readRecords rq) s = .next (complete (returnTiles t h (reportTiles 4096 (rs.flatMap logBytes))) h 0 rs.length
          (rs.head?.elim 0 LogRec.seq)) ∧
        rs.length ≤ arg a 4 4 ∧ (∀ r ∈ rs, p = 0 ∨ r.part = p) ∧ List.Pairwise (fun a b => a.seq ≤ b.seq) rs ∧
        (∀ r ∈ rs, ∃ k, (k, r) ∈ t.log.recs) ∧ (rs.flatMap logBytes).length = 64 * rs.length)) ∧
    (Accepted 0x24 rq s t h p →
      let id := arg a 0 2
      let k := (calSlot id).getD 0
      let old := SMap.get? t.boot.cal k
      let put (d : List Byte) : State :=
        let e : CalEntry := { origin := 2, writes := old.elim 0 CalEntry.writes + 1, data := d }
        let s1 : State := { t with boot := { t.boot with cal := SMap.set t.boot.cal k e } }
        complete (applyCal (logAppend (extend s1 7 a) 0x0E 0 [id, 2]) k d) h 0
      ∀ row ∈ [exec (.calibrationWrite rq) s, exec (.calibrationErase rq) s, exec (.calibrationRead rq) s],
        (bitOf (arg a 2 1) 1 = true → row = .next (complete (returnTiles t h [reportTile 0 (calBytes id old)]) h 0)) ∧
        (bitOf (arg a 2 1) 1 = false → bitOf (arg a 2 1) 0 = true → row = .next (put [])) ∧
        (bitOf (arg a 2 1) 1 = false → bitOf (arg a 2 1) 0 = false → row = .next (put (part a 4 (arg a 3 1))))) ∧
    (Accepted 0x26 rq s t h p →
      (t.secStore.deviceKey = none ∨ t.secStore.cert = none → exec (.attest rq) s = .next (complete t h 0x001C)) ∧
      (∀ key cert, t.secStore.deviceKey = some key → t.secStore.cert = some cert →
        let q := quoteHead t (part a 0 32) (freshNonce t) (arg a 32 4)
        let s1 : State := { t with freeCtr := t.freeCtr + 8, sec := { t.sec with nonce := some (freshNonce t, t.tick) } }
        exec (.attest rq) s = .next (complete (returnTiles s1 h
          [reportTile 0 (q ++ leBytes 512 (Config.sign key q).toNat), reportTile 1 cert]) h 0 2))) ∧
    (Accepted 0x27 rq s t h p →
      exec (.telemetrySet rq) s = .next (complete { t with k := { t.k with principals := SMap.modify t.k.principals p fun y =>
        { y with telemetryMs := arg a 0 4, telemetryMask := arg a 4 4 } } } h 0)) ∧
    (s.log.dropped = 0 ∨ s.tick / ticksPerSecond = s.log.second → exec .logbookDropSummary s = .next s) ∧
    (s.log.dropped ≠ 0 → s.tick / ticksPerSecond ≠ s.log.second →
      let r : LogRec := { seq := s.log.next, tick := s.tick, boot := s.boot.bootCount, type := 0x11, part := 0xFF,
                          args := [s.log.dropped] }
      exec .logbookDropSummary s = .next { s with log := { s.log with
        dropped := 0, recs := SMap.set s.log.recs (s.log.next % 65536) r, next := s.log.next + 1,
        second := s.tick / ticksPerSecond, inSecond := 1 } })

/-- The UPDATE rows: firmware, ISP parameters, model switch, key rotation, life cycle, provisioning, clears (R433, R439,
R447, R451, R460, R501, R514, R515, R516, R517, R518, assumption log 40). For each of the 14 UPDATE rows, accepted. A
bad tile completes INPUT_CHECK_FAIL. Else class and action decide: classes 0 to 3 install, commit or revert firmware
(commit and revert of a class that is not in trial: BAD_REQUEST; commit raises the rollback count to at least the
version; revert goes back to the other slot); 0x10 writes an ISP parameter window shadow and clears hold; 0x20 switches
models; 0x30 asks for a key rotation (NOT_FOUND for no tenant); 0x40 asks for a life-cycle state, or acts on a
REVOKE_ROOT or AUDIO_GATE token; 0x41 provisions, outside MANUFACTURING NOT_PERMITTED; 0x50 clears boot steps at the
next start; 0x51 clears the retirement map in SERVICE, elsewhere NOT_PERMITTED. -/
def Obligations.UpdatesActByTheirClass : Prop :=
  ∀ row ∈ updateRows, ∀ (rq : Request) (s t : State) (h p : Nat), Accepted 0x25 rq s t h p →
    let a := rq.args
    let cls := arg a 0 1
    let data := tileBytes rq.tiles
    let goes (u : State) : Prop := exec (row rq) s = .next (drainOwn u)
    (∀ i r, badTiles rq.tiles 1 0 (fun f => f == 0x0B) = i :: r → exec (row rq) s =
      .next (complete (rcount t (hostRegBase + 0x110) (r.length + 1)) h 0x0013 (0 + i))) ∧
    (badTiles rq.tiles 1 0 (fun f => f == 0x0B) = [] →
      (cls ≤ 3 →
        (arg a 1 1 = 0 → goes (installFw t h cls (bitOf (arg a 2 1) 0) data)) ∧
        (arg a 1 1 = 1 → inTrial t cls = false → goes (complete t h 0x001D)) ∧
        (arg a 1 1 = 1 → inTrial t cls = true → goes (complete (commitTrial t cls) h 0)) ∧
        (arg a 1 1 = 2 → inTrial t cls = false → goes (complete t h 0x001D)) ∧
        (arg a 1 1 = 2 → inTrial t cls = true → goes (askHandover (revertSlot t cls) cls (some h)))) ∧
      (cls = 0x10 → goes (ispUpdate t h (arg a 4 4) data)) ∧
      (cls = 0x20 → goes (modelSwitch t h (modelKey p (arg a 4 4)) (modelKey p (arg a 8 4)))) ∧
      (cls = 0x30 → goes (askRotation t h (arg a 4 4))) ∧
      (cls = 0x40 → goes (lifeUpdate t h (arg a 4 4) data)) ∧
      (cls = 0x41 → goes (provision t h (arg a 1 1) data)) ∧
      (cls = 0x50 → goes (complete (clearSteps t (arg a 4 4)) h 0)) ∧
      (cls = 0x51 → lifeCycle t = 3 → goes (complete { t with boot := { t.boot with
        unretireCores := t.boot.unretireCores ||| arg a 4 4, unretireWays := t.boot.unretireWays ||| arg a 8 4 } } h 0)) ∧
      (cls = 0x51 → lifeCycle t ≠ 3 → goes (complete t h 0x0015))) ∧
    (SMap.getD (commitTrial t cls).otp.rollback cls 0 =
      max (SMap.getD t.otp.rollback cls 0) (slotVersion (fwOf t cls) (fwOf t cls).active)) ∧
    (fwOf (commitTrial t cls) cls).state = 0 ∧ (fwOf (commitTrial t cls) cls).active = (fwOf t cls).active ∧
    (fwOf (revertSlot t cls) cls).active = 1 - (fwOf t cls).active ∧ (fwOf (revertSlot t cls) cls).state = 0 ∧
    ((∃ c, c < 4 ∧ (fwOf t c).state ≠ 0) → ∀ auto, installFw t h cls auto data = complete t h 0x0017) ∧
    (∀ ctx, 16 ≤ ctx ∨ data = [] ∨ data.length % 4 ≠ 0 ∨ 0x10000 < data.length → ispUpdate t h ctx data = complete t h 0x001D) ∧
    (SMap.get? t.secStore.tenants (arg a 4 4) = none → askRotation t h (arg a 4 4) = complete t h 0x001C) ∧
    (lifeCycle t ≠ 1 → ∀ act, provision t h act data = complete t h 0x0015) ∧
    (∀ n, t.k.lifeChange.isSome = true → askLife t h n data = complete t h 0x0017) ∧
    (∀ n, t.k.lifeChange = none → n ≠ 3 → n ≠ 4 → freeChange t n = false → askLife t h n data = complete t h 0x0015)

/-- FABRIC_PLACE loads stage 0 and asks the other stages; MEMBER_LEAVE marks the member and tells every member (R341, R374,
R376, R379, R380, assumption log 34). FABRIC_PLACE of an image that the store does not hold completes NOT_FOUND, of a
plan that does not suit image, addresses or partition BAD_REQUEST; a plan that replaces orphaned stages moves those;
else stage 0 is loaded here under the next placement number (its failure is the status), the placement waits for every
other stage and mirror partner, each of which is asked, and it ends when all have answered. MEMBER_LEAVE on a device
that is not the fabric head, or with a replacement that is no other member, completes NOT_FOUND, and so does an unknown
member; else the entry's state is 2, the list is flooded, and every member is told; it completes when all have reported.
What the PLACE messages hold is the model's own (log 34). -/
def Obligations.PlacementsAndLeavesStart : Prop :=
  ∀ (rq : Request) (s t : State) (h p : Nat),
    let a := rq.args
    (Accepted 0x28 rq s t h p →
      (planImage t (planFrom t a []) = none → exec (.fabricPlace rq) s = .next (complete t h 0x001C)) ∧
      (∀ image, planImage t (planFrom t a []) = some image →
        let plan := planFrom t a image
        let good := addressesAre t plan && planFits plan image && partOk t plan
        (good = false → exec (.fabricPlace rq) s = .next (complete t h 0x001D)) ∧
        (∀ e, good = true → (t.fab.fronts.find? fun e => replaces e.2 plan) = some e →
          exec (.fabricPlace rq) s = .next (replaceFront t e.1 h plan)) ∧
        (good = true → (t.fab.fronts.find? fun e => replaces e.2 plan) = none →
          let place := 65536 * t.fab.addr + t.fab.placeNext
          (∀ e, loadStage t place 0 plan image = .error e → exec (.fabricPlace rq) s = .next (complete t h e)) ∧
          (∀ u, loadStage t place 0 plan image = .ok u →
            let q := (stageAt u place 0).elim 0xFFFF HeldStage.queue
            let plan1 : PlacePlan := { plan with stages := modAt plan.stages 0 fun x => { x with queue := q } }
            let f : Front := { plan := plan1, handle := some h, waiting := span 1 (plan.stages.length - 1) ++
              ((span 0 plan.stages.length).filter fun i => (stageOf plan i).mirror != 0).map fun i => 64 + i }
            exec (.fabricPlace rq) s = .next (endPlace (askStages
              (onFab u fun b => { b with fronts := SMap.set b.fronts place f, placeNext := b.placeNext + 1 }) place plan1) place))))) ∧
    (Accepted 0x29 rq s t h p →
      let addr := arg a 0 2
      let repl := arg a 2 2
      let allowed := fabricHead t = true ∧ (repl = 0 ∨ (memberAt t repl = true ∧ repl ≠ addr))
      (¬ allowed ∨ memberAt t addr = false → exec (.memberLeave rq) s = .next (complete t h 0x001C)) ∧
      (allowed → memberAt t addr = true →
        let u := floodLight t (t.fab.light.map fun e => if e.2.address = addr then (e.1, { e.2 with state := 2 }) else e)
        let all := u.fab.addr :: otherMembers u
        let w := onFab u fun b => { b with leaves := b.leaves ++ [{ handle := h, addr := addr, waiting := all }] }
        exec (.memberLeave rq) s =
          .next (all.foldl (fun s m => placeSend s m (.leave addr repl (bitOf (arg a 4 1) 0)) true) w)))

/-- Rotations, sector starts and ends come when the tick reaches them; end reports and telemetry are taken by Keeper (R26,
R300, R302, R303, R304, R305, R310, R320, R355, R554). ROTATION_START acts if the period is not 0 and has elapsed since
the last start: open sectors close at the new start or earlier, an armed table is taken, and the start moves on by
exactly one period. SECTOR_OPEN acts on a valid entry of the table in force whose start has come and whose end has not,
once per rotation: it is open from its start, noted as opened, posts one sector message, and closes again at once for a
demoted queue. SECTOR_CLOSE closes an open sector whose end has come. SCHED_TABLE_ARM, by a Keeper hart, sets the shadow
count and first entry and arms the table, which is in force at once without a rotation. KEEPER_END_REPORT takes the
report of a core and lets waiting creations and moves go on. TELEMETRY_INTERVAL sends one message when the principal's
time has come and sets the next time. -/
def Obligations.SectorsOpenAndCloseByTheTable : Prop :=
  ∀ (p : Fin 9) (ix : Fin 512) (by_ : Req) (v : Word) (core : Fin 32) (outs : List Tile) (s : State),
    let r := rotOf s p.val
    let x := SMap.getD r.table ix.val {}
    let next := r.lastStart + r.period * schedUnit
    let start := r.lastStart + x.start * schedUnit
    (r.period = 0 ∨ s.tick < next → exec (.rotationStart p) s = .next s) ∧
    (r.period ≠ 0 → next ≤ s.tick →
      let s1 := (openSectors s p.val).foldl (fun s o => closeSector s o (min next (closeTick s o)) 1) s
      let s2 := takeTable s1 p.val
      let s3 := setRot s2 p.val { rotOf s2 p.val with lastStart := next, opened := [] }
      exec (.rotationStart p) s = .next (reschedule ((queuesOf s3 p.val).foldl applySettings s3) p.val)) ∧
    (r.period = 0 ∨ x.valid = false ∨ ix.val ∈ r.opened ∨ s.tick < start ∨ start + x.length * schedUnit ≤ s.tick →
      exec (.sectorOpen p ix) s = .next s) ∧
    (r.period ≠ 0 → x.valid = true → ix.val ∉ r.opened → start ≤ s.tick → s.tick < start + x.length * schedUnit →
      let o : OpenSector := { part := p.val, ix := ix.val, openedAt := start }
      let s1 := onSched (setRot (noteOpened s x ix.val start) p.val { r with opened := ix.val :: r.opened }) fun h => { h with open_ := h.open_ ++ [o] }
      let s2 := if rbit s1 (schedRegBase + 4) 0 then hwPost s1 .sched 5
          [0x10000, word (ix.val + p.val * 2 ^ 16), word x.queue, word start, word (start / 2 ^ 32), 0, 0, 0] else s1
      (sectorsOff s2 p.val x.queue = false → exec (.sectorOpen p ix) s = .next (reschedule s2 p.val)) ∧
      (sectorsOff s2 p.val x.queue = true →
        exec (.sectorOpen p ix) s = .next (reschedule (closeSector s2 o start 2) p.val))) ∧
    ((∀ o ∈ openSectors s p.val, o.ix ≠ ix.val) → exec (.sectorClose p ix) s = .next s) ∧
    (∀ o, ((openSectors s p.val).find? fun o => o.ix == ix.val) = some o →
      (s.tick < closeTick s o → exec (.sectorClose p ix) s = .next s) ∧
      (closeTick s o ≤ s.tick →
        exec (.sectorClose p ix) s = .next (reschedule (closeSector s o (closeTick s o) 1) p.val))) ∧
    (isKeeper by_ = false → exec (.schedTableArm by_ p v) s = .next { s with resp := .busError }) ∧
    (isKeeper by_ = true →
      let u := setRot s p.val { r with shCount := bits v.toNat 22 16, shFirst := bits v.toNat 8 0 }
      exec (.schedTableArm by_ p v) s = .next { armTable u p.val with resp := .ok } ∧
      (r.period ≠ 0 → armTable u p.val = setRot u p.val { rotOf u p.val with armed := true })) ∧
    (let t := takeEndReport s core.val outs
     exec (.keeperEndReport core outs) s =
       .next (drainOwn (tryMoves (tryCreations ((runSession s core.val).elim t fun n => mirrorPages t n))))) ∧
    (SMap.get? s.k.principals p.val = none → exec (.telemetryInterval p) s = .next s) ∧
    (∀ y, SMap.get? s.k.principals p.val = some y →
      (s.tick < y.nextTelemetry → exec (.telemetryInterval p) s = .next s) ∧
      (y.nextTelemetry ≤ s.tick → Answers (.telemetryInterval p) s fun t =>
        (∃ z, SMap.get? t.k.principals p.val = some z ∧ z.nextTelemetry = s.tick + y.telemetryMs * 250000) ∧
        t.mem = s.mem ∧ t.cores = s.cores ∧ t.tick = s.tick))

/-- Promotions, demotions, deep writes, translation fills and deletions of the memory manager (R203, R253, R256, R258, R259,
R260, R261, R262, R263, R287, R288). PROMOTION_DISPATCH does nothing while paused, at eight promotions in flight of the
partition, or with none queued; else the earliest by deadline is dispatched into free frames or evicts for them.
PROMOTION_COMPLETE of an item in flight lands it RESIDENT if no block failed twice, else fails it. DEMOTION_COMPLETE of
a DEMOTING item without pins and with a deep copy makes it DEEP and frees its frames; DEEP_COPY_WRITE_COMPLETE ends a
pending write; OTU_FILL serves the oldest of the first 32 misses of its entry: pin, last reference, cache entry, and a
promotion if not RESIDENT; OBJECT_DELETE removes a dying, unclaimed, unpinned (or PROMOTING) object. Each does nothing
otherwise. OTC_INVALIDATE empties idle cores' caches at once; PROMO_PAUSE sets its bit; both need a Keeper hart. -/
def Obligations.ObjectsAndPagesMoveBetweenTiers : Prop :=
  ∀ (p : Fin 9) (n session : Fin 65536) (item : Item) (reads : List DeepRead) (core : Fin 32) (by_ : Req) (v : Bool) (s : State),
    let key := 65536 * p.val + n.val
    let ckey := 65536 * corePart s core.val + n.val
    let running := (s.mm.promoIn.filter fun x => itemPart s x.item == p.val).length
    (s.mm.promoPause = true ∨ 8 ≤ running ∨ promoOrder s p.val = [] → exec (.promotionDispatch p) s = .next s) ∧
    (∀ x r, s.mm.promoPause = false → running < 8 → promoOrder s p.val = x :: r →
      (∀ y ∈ r, x.deadline ≤ y.deadline) ∧
      (framesFree s p.val < promoNeed s x.item →
        exec (.promotionDispatch p) s = .next (evict s p.val (promoNeed s x.item))) ∧
      (∀ t, promoNeed s x.item ≤ framesFree s p.val → promoFrames s x.item = some t → exec (.promotionDispatch p) s =
        .next (onMem (setItemSt t x.item .promoting) fun m => { m with promoQ := m.promoQ.erase x, promoIn := m.promoIn ++ [x] }))) ∧
    ((s.mm.promoIn.find? fun x => x.item == item) = none ∨ itemDeep s item = none →
      exec (.promotionComplete item reads) s = .next s) ∧
    (∀ x d, (s.mm.promoIn.find? fun x => x.item == item) = some x → itemDeep s item = some d →
      let bad := reads.filter fun b => b.first.val != 0 && b.second.val != 0 && decide (b.block < d.blocks.length)
      (bad = [] → exec (.promotionComplete item reads) s =
        .next ((reads.filter DeepRead.corrected).foldl (fun s b => relocate s item b.block) (landPromo (countReads s reads) x d))) ∧
      (bad ≠ [] → exec (.promotionComplete item reads) s = .next (failPromo (countReads s reads) x d bad))) ∧
    (∀ x d q k o, x.item = .obj q k → SMap.get? s.mm.objs (65536 * q + k) = some o →
      SMap.get? (landPromo s x d).mm.objs (65536 * q + k) =
        some { o with st := .resident, lastRef := s.tick, deadline := none, failed := false }) ∧
    (∀ q k o, item = .obj q k → SMap.get? s.mm.objs (65536 * q + k) = some o →
      (o.st = .demoting → o.pinMask = 0 → o.deep.isSome = true → Answers (.demotionComplete item) s fun t =>
        SMap.get? t.mm.objs (65536 * q + k) = some { o with st := .deep, frames := [] } ∧
        t.mm.evictCount = satAdd s.mm.evictCount 1 ∧ t = { s with mm := t.mm }) ∧
      (o.st ≠ .demoting ∨ o.pinMask ≠ 0 ∨ o.deep = none → exec (.demotionComplete item) s = .next s)) ∧
    (item ∉ s.mm.deepWrites → exec (.deepCopyWriteComplete item) s = .next s) ∧
    (item ∈ s.mm.deepWrites →
      let u : State := { s with mm := { s.mm with deepWrites := s.mm.deepWrites.erase item } }
      (∀ t, itemPoisoned s item = false → writeDeep u item = some t → exec (.deepCopyWriteComplete item) s = .next t) ∧
      (itemPoisoned s item = true ∨ writeDeep u item = none → exec (.deepCopyWriteComplete item) s =
        .next (if itemSt s item = some .demoting then setItemSt u item .resident else u))) ∧
    ((∀ q, ((s.mm.otuQ.take 32).find? fun q => q.2 == ckey) = some q → q.1 ≠ core.val) → exec (.otuFill core n) s = .next s) ∧
    (∀ o, ((s.mm.otuQ.take 32).find? fun q => q.2 == ckey) = some (core.val, ckey) → SMap.get? s.mm.objs ckey = some o →
      let u := setCore (modObj (onMem s fun m => { m with otuQ := m.otuQ.erase (core.val, ckey) }) ckey fun o =>
        { o with pinMask := if bitOf o.pinMask core.val then o.pinMask else o.pinMask + 2 ^ core.val, lastRef := s.tick })
        core.val (otcTouch (coreOf s core.val) ckey)
      (o.st = .resident → exec (.otuFill core n) s = .next u) ∧
      (o.st ≠ .resident → exec (.otuFill core n) s = .next (promote u (.obj (ckey / 65536) (ckey % 65536)) s.tick))) ∧
    (SMap.get? s.mm.objs key = none → exec (.objectDelete p n) s = .next s) ∧
    (∀ o, SMap.get? s.mm.objs key = some o →
      (o.dying = false ∨ o.claims ≠ 0 ∨ (o.pinMask ≠ 0 ∧ o.st ≠ .promoting) → exec (.objectDelete p n) s = .next s) ∧
      (o.dying = true → o.claims = 0 → o.pinMask = 0 ∨ o.st = .promoting → exec (.objectDelete p n) s = .next { s with
        mm := { s.mm with objs := SMap.erase s.mm.objs key, promoQ := s.mm.promoQ.filter fun x => x.item != .obj p.val n.val,
                          promoIn := s.mm.promoIn.filter fun x => x.item != .obj p.val n.val,
                          deepWrites := s.mm.deepWrites.erase (.obj p.val n.val) } })) ∧
    (sessionAt s session.val = none → exec (.pageWalkerPromote session) s = .next s) ∧
    (Answers (.pageWalkerPromote session) s fun t => t = s ∨ ∃ g, (g ∈ pagesOf s session.val) ∧ g.2.st = .deep ∧
      t = nextFree (promote (modPage s g.1 fun g => { g with walked := true }) (.page g.1) (s.tick + Config.freeNat s.freeCtr))) ∧
    (isKeeper by_ = false → exec (.otcInvalidate by_) s = .next { s with resp := .busError } ∧
      exec (.promoPause by_ v) s = .next { s with resp := .busError }) ∧
    (isKeeper by_ = true →
      exec (.otcInvalidate by_) s = .next { s with resp := .ok, cores := s.cores.map fun e =>
        (e.1, if e.2.st = .running ∨ e.2.st = .stopping then { e.2 with otcInval := true } else { e.2 with otc := [] }) } ∧
      exec (.promoPause by_ v) s = .next { s with resp := .ok, mm := { s.mm with promoPause := v } })

/-- Configuration accesses, link control and the endpoint's requests of the PCIe root port (R281, R282, R292, R293). Every
register access needs a Keeper hart, else a bus error. A configuration read of another target than bus 0 or 1, device 0,
function 0 answers all ones, of those a free value; a write to another target changes nothing. Retrain counts on a link
that is up and does nothing on one that is down. PERST asserted, a disabled port and a lost link have no speed and no
width. An MSI-X vector sets its bit and interrupts. An inbound write inside the staging area stores its bytes; outside
it moves nothing and counts, up to 0xFFFF_FFFF. The training state is free wherever the spec gives none. -/
def Obligations.PcieRootPortReadsWritesAndCounts : Prop :=
  ∀ (by_ : Req) (v : Word) (b : Bool) (k : Fin 32) (addr : BitVec 64) (len : Fin 4097) (data : List Byte) (speed : Fin 4)
    (width : Fin 3) (s : State),
    let x := s.pcie
    let free := Config.freeNat s.freeCtr % 64
    let ok (t : State) : Host.Outcome State Fault Refusal := .next { t with resp := .ok }
    let set (y : Pcie) : State := { s with pcie := y }
    let fresh (y : Pcie) : State := { s with pcie := { y with ltssm := free }, freeCtr := s.freeCtr + 1 }
    let down (y : Pcie) : State := fresh { y with linkUp := false, speed := 0, width := 0 }
    (isKeeper by_ = false → ∀ i ∈ [Instr.pcieCfgRead by_, .pcieCfgWrite by_ v, .pcieRetrain by_, .pciePerst by_ b, .pcieEnable by_ b],
      exec i s = .next { s with resp := .busError }) ∧
    (isKeeper by_ = true →
      (cfgTarget x.cfgAddr = true →
        exec (.pcieCfgRead by_) s = .next { s with freeCtr := s.freeCtr + 1, resp := .data (Config.freeWord s.freeCtr) } ∧
        exec (.pcieCfgWrite by_ v) s = ok (set { x with cfg := SMap.set x.cfg (bits x.cfgAddr.toNat 27 2) v })) ∧
      (cfgTarget x.cfgAddr = false →
        exec (.pcieCfgRead by_) s = .next { s with resp := .data 0xFFFFFFFF } ∧ exec (.pcieCfgWrite by_ v) s = ok s) ∧
      (x.linkUp = true → exec (.pcieRetrain by_) s = ok (fresh { x with retrains := satAdd x.retrains 1 })) ∧
      (x.linkUp = false → exec (.pcieRetrain by_) s = ok s) ∧
      exec (.pciePerst by_ true) s = ok (down { x with perst := true }) ∧
      exec (.pciePerst by_ false) s = ok (set { x with perst := false }) ∧
      exec (.pcieEnable by_ true) s = ok (set { x with en := true }) ∧
      exec (.pcieEnable by_ false) s = ok (down { x with en := false })) ∧
    exec (.pcieMsixArrival k) s = .next { s with pcie := { x with msi := x.msi ||| word (2 ^ k.val) }, irqs := .msix k.val :: s.irqs } ∧
    (x.inBase ≤ addr.toNat → addr.toNat + data.length ≤ x.inBase + x.inLimit + 1 →
      exec (.pcieInboundRequest addr len (some data)) s = .next (writeMem s addr.toNat data)) ∧
    (x.inBase ≤ addr.toNat → addr.toNat + len.val ≤ x.inBase + x.inLimit + 1 →
      exec (.pcieInboundRequest addr len none) s = .next s) ∧
    (addr.toNat < x.inBase ∨ x.inBase + x.inLimit + 1 < addr.toNat + data.length →
      exec (.pcieInboundRequest addr len (some data)) s = .next (set { x with inReject := satAdd x.inReject 1 })) ∧
    (x.en = false ∨ x.perst = true → exec (.pcieLinkChange b speed width) s = .next s) ∧
    (x.en = true → x.perst = false →
      exec (.pcieLinkChange true speed width) s =
        .next (fresh { x with linkUp := true, speed := speed.val + 1, width := 2 ^ width.val }) ∧
      exec (.pcieLinkChange false speed width) s = .next (down x)) ∧
    (∀ i, Memory.wf s.mem = true → (∀ j, j < data.length → i ≠ addr.toNat + j) →
      Memory.read (writeMem s addr.toNat data).mem i = Memory.read s.mem i) ∧
    (∀ j (hj : j < data.length), Memory.wf s.mem = true →
      Memory.read (writeMem s addr.toNat data).mem (addr.toNat + j) = data[j])

/-- Frames below TCT are counted, refused or answered; traffic moves between the host ports as R329 says (R327, R328, R329,
R330, R331, R332, R356, R486, R515). Every frame that comes in counts in HOST_RX. A frame that MACsec refuses counts in
HOST_MACSEC_DROP and has no other effect. An accepted ARP request or neighbour solicitation is answered on a port that
carries traffic, an echo on any port whose link is up. Link loss takes the port down and its keys away, and fails over
if it was active and the other is up; a port that comes up starts MKA and becomes active if no other is up; after 10 s
of unbroken link traffic returns to the preferred port; HOST_CTRL.failover swaps at once; none moves to a port that is
marked faulty. TC10_SLEEP_REQUEST is accepted with no handle open or done, else rejected, and ignored where the port
does not allow it. An MKA frame under no installed CAK is dropped and counted; else the key server's answer sets or
clears the keys of one principal on a port that is up. -/
def Obligations.HostPortsAnswerFailAndComeBack : Prop :=
  ∀ (rx : HostRx) (data : List Byte) (port : Fin 2) (cause : Fin 5) (sqi : Fin 8) (who : Fin 9) (by_ : Req) (up : Bool) (s : State),
    let p := port.val
    let q := 1 - p
    let s1 := rcount s (hostRegBase + 0x100) 1
    let dropped := rcount s1 (hostRegBase + 0x114) 1
    let relay := rbit s hostCtrl 4
    let down : State := modPort s p fun x => { x with state := 0, saks := [], sqi := 0 }
    (rxPrincipal s1 rx = none → ∀ i ∈ [Instr.arpRequest rx, .ndSolicitation rx, .icmpEcho rx data], exec i s = .next dropped) ∧
    (∀ n, rxPrincipal s1 rx = some n →
      exec (.arpRequest rx) s = .next (if carries s1 rx.port.val then hostSend s1 (.arpReply rx.port.val) else s1) ∧
      exec (.ndSolicitation rx) s = .next (if carries s1 rx.port.val then hostSend s1 (.neighborAdvert rx.port.val) else s1) ∧
      exec (.icmpEcho rx data) s = .next (if portUp s1 rx.port.val then hostSend s1 (.echoReply rx.port.val data) else s1)) ∧
    exec (.hostFrameDropped port cause) s = .next (if cause.val = 4 then dropped else s1) ∧
    (relay = false → s.activePort = p → portUp s p = true → portUp s q = true → portBad down q = false →
      exec (.hostLinkLoss port) s = .next (moveTo (rcount down (hostRegBase + 0x118) 1) q)) ∧
    (relay = true ∨ s.activePort ≠ p ∨ portUp s p = false ∨ portUp s q = false ∨ portBad down q = true →
      exec (.hostLinkLoss port) s = .next down) ∧
    (∀ t x, (moveTo t x).activePort = x ∧ (moveTo t x).mem = t.mem ∧ (moveTo t x).cores = t.cores) ∧
    (rbits s (portCfg p) 1 0 = 0 ∨ portBad s p = true → exec (.hostLinkUp port sqi) s = .next s) ∧
    (rbits s (portCfg p) 1 0 ≠ 0 → portBad s p = false → s.k.phyHost = none →
      let t := hostSend (modPort s p fun x => { x with state := 2, sqi := sqi.val, upSince := s.tick }) (.mka p)
      Answers (.hostLinkUp port sqi) s fun u =>
        ((relay = true ∨ s.activePort = p ∨ portUp s q = true) → u = t) ∧
        (relay = false → s.activePort ≠ p → portUp s q = false → u.activePort = p)) ∧
    (portWithRole s 1 = none → exec .hostLinkReturn s = .next s) ∧
    (∀ x, portWithRole s 1 = some x →
      (relay = false → s.activePort ≠ x → portUp s x = true → (portOf s x).upSince + 10 * ticksPerSecond ≤ s.tick →
        exec .hostLinkReturn s = .next (failTo s x)) ∧
      (relay = true ∨ s.activePort = x ∨ portUp s x = false ∨ s.tick < (portOf s x).upSince + 10 * ticksPerSecond →
        exec .hostLinkReturn s = .next s)) ∧
    (isKeeper by_ = false → exec (.hostFailover by_) s = .next { s with resp := .busError } ∧
      exec (.hostPortRestart by_ port) s = .next { s with resp := .busError }) ∧
    (isKeeper by_ = true → exec (.hostFailover by_) s = .next { failTo s (1 - s.activePort) with resp := .ok } ∧
      exec (.hostPortRestart by_ port) s = .next { portRestart s p with resp := .ok } ∧
      (relay = true ∨ s.activePort ≠ p ∨ portUp s p = false ∨ portUp s q = false →
        portRestart s p = modPort (rboundary s (portCfg p)) p fun x =>
          { x with state := if rbits (rboundary s (portCfg p)) (portCfg p) 1 0 = 0 then 0 else 1, saks := [] })) ∧
    (∀ x, portBad s x = true → failTo s x = s) ∧
    (rbit s (portCfg p) 6 = false ∨ portUp s p = false → exec (.tc10SleepRequest port) s = .next s) ∧
    (rbit s (portCfg p) 6 = true → portUp s p = true →
      (handlesBusy s = true → exec (.tc10SleepRequest port) s = .next { s with hostOut := .sleepAnswer p false :: s.hostOut }) ∧
      (handlesBusy s = false → exec (.tc10SleepRequest port) s = .next
        (modPort { s with hostOut := .sleepAnswer p true :: s.hostOut } p fun x => { x with state := 3, saks := [] }))) ∧
    (hasCak s who.val = false → exec (.mkaFrame port who true up) s = .next dropped) ∧ exec (.mkaFrame port who false up) s = .next dropped ∧
    (hasCak s who.val = true → portUp s p = false → exec (.mkaFrame port who true up) s = .next s1) ∧
    (hasCak s who.val = true → portUp s p = true → exec (.mkaFrame port who true up) s = .next (hostSend (modPort s1 p fun x =>
      { x with saks := if up then who.val :: x.saks.erase who.val else x.saks.erase who.val }) (.mka p)))

/-- TCT associations open, resume and close; their frames are acknowledged once, and the timers run (R26, R327, R331, R332,
R333, R334, R335, R336, R337, R338, R340). An OPEN on a carrying port with TCT on resumes the association that it names
if that is the principal's and was lost less than 60 s ago; else it is refused at 36 associations, or 4 of the
principal; else the lowest free number from 1 opens. CLOSE is acknowledged and ends its association. A frame of an
unknown or lost association, of another principal, or with TCT off, only counts. A REQUEST frame already received counts
as a duplicate and is acknowledged again, with no other effect; a complete message that is malformed or has an unknown
code is answered with its status, and else waits in Keeper's inbox. The timers resend the unacknowledged frames and
double the interval up to 64 ms, send a keepalive after 250 ms of silence, mark an association lost after 2 s and end it
60 s later; each does nothing before. The TCT engine sends the message of a FULL mailbox 12 and frees it. -/
def Obligations.TctAssociationsOpenCarryAndEnd : Prop :=
  ∀ (rx : HostRx) (seq resume : Nat) (f : TctFrame) (n type : Nat) (payload : List Byte) (s : State),
    let s1 := rcount s (hostRegBase + 0x100) 1
    let live : Prop := rbit s1 hostCtrl 0 = true ∧ carries s1 rx.port.val = true
    let per (p : Nat) : Nat := (s1.k.assocs.filter fun a => a.2.principal == p).length
    let mine (p : Nat) (a : Assoc) : Prop := live ∧ SMap.get? s1.k.assocs f.assoc = some a ∧ a.principal = p ∧ a.lostAt = none
    let heard : State := takeAck (modAssoc s1 f.assoc fun a => { a with port := rx.port.val, lastRx := s1.tick }) f.assoc f
    (rxPrincipal s1 rx = none → ∀ i ∈ [Instr.tctOpen rx seq resume, .tctClose rx f, .tctRequestFrame rx f, .tctAck rx f, .tctTime rx f,
      .tctKeepalive rx f], exec i s = .next (rcount s1 (hostRegBase + 0x114) 1)) ∧
    (∀ p, rxPrincipal s1 rx = some p →
      (¬ live ∨ principalOf s1 p = none → exec (.tctOpen rx seq resume) s = .next s1) ∧
      (∀ x, live → principalOf s1 p = some x →
        (∀ a t, resume ≠ 0 → SMap.get? s1.k.assocs resume = some a → a.principal = p → a.lostAt = some t →
          s1.tick < t + 60 * ticksPerSecond →
          let u := modAssoc s1 resume fun a => { a with lostAt := none, port := rx.port.val, lastRx := s1.tick, retryMs := 1 }
          exec (.tctOpen rx seq resume) s = .next (sendHeld (sendMsg (resend u resume) resume 0x02
            (openAck resume p x.perms a.txSeq) []) p)) ∧
        (resume = 0 ∨ resumable s1 resume p = false →
          (36 ≤ s1.k.assocs.length ∨ 4 ≤ per p →
            exec (.tctOpen rx seq resume) s = .next (hostSend s1 (.tct rx.port.val { type := 0x03 }))) ∧
          (∀ k, s1.k.assocs.length < 36 → per p < 4 → SMap.firstFree s1.k.assocs 1 37 = some k →
            let first := Config.freeNat s1.freeCtr % 2 ^ 32
            let a : Assoc := { principal := p, port := rx.port.val, rxNext := seq % 2 ^ 32, txSeq := first,
                               lastRx := s1.tick, lastTx := s1.tick }
            exec (.tctOpen rx seq resume) s = .next (sendHeld (sendMsg
              (onK (nextFree s1) fun q => { q with assocs := SMap.set q.assocs k a }) k 0x02 (openAck k p x.perms first) []) p)))) ∧
      ((∀ a, ¬ mine p a) → ∀ i ∈ [Instr.tctClose rx f, .tctRequestFrame rx f, .tctAck rx f, .tctTime rx f, .tctKeepalive rx f],
        exec i s = .next s1) ∧
      (∀ a, mine p a →
        exec (.tctAck rx f) s = .next heard ∧ exec (.tctKeepalive rx f) s = .next heard ∧
        exec (.tctClose rx f) s = .next (onK (reliable heard f id) fun k => { k with assocs := SMap.erase k.assocs f.assoc }) ∧
        exec (.tctRequestFrame rx f) s = .next (reliable heard f fun s => joinSegment s f) ∧
        (∀ b, SMap.get? heard.k.assocs f.assoc = some b →
          (∀ t, b.lastTime = some t → s.tick < t + 250000 → exec (.tctTime rx f) s = .next heard) ∧
          (let frame : TctFrame := { type := 0x16, seq := (b.txSeq + 2 ^ 32 - 1) % 2 ^ 32,
                                     payload := f.payload.take 8 ++ leBytes 8 heard.tick ++ leBytes 8 (heard.tick + Config.freeNat heard.freeCtr) }
           b.lastTime = none → exec (.tctTime rx f) s =
             .next (emit (nextFree (modAssoc heard f.assoc fun a => { a with lastTime := some heard.tick })) f.assoc frame))))) ∧
    (∀ b st, msgRefusal b = some st → messageDone s n b = replyTo s n (word (leNat ((b.drop 4).take 4))) st 0 []) ∧
    (∀ b, msgRefusal b = none → ∃ t, messageDone s n b = t ∧ t.k = { s.k with inbox := s.k.inbox ++ [msgRequest n b] }) ∧
    (SMap.get? s.k.assocs n = none → ∀ i ∈ [Instr.tctRetransmitTimeout n, .keepaliveTimer n, .associationLost n,
      .associationExpiry n], exec i s = .next s) ∧
    (∀ a, SMap.get? s.k.assocs n = some a →
      (a.unacked = [] ∨ a.lostAt.isSome = true → exec (.tctRetransmitTimeout n) s = .next s) ∧
      (a.unacked ≠ [] → a.lostAt = none → exec (.tctRetransmitTimeout n) s =
        .next (modAssoc (resend s n) n fun a => { a with retryMs := min 64 (2 * a.retryMs) })) ∧
      (a.lostAt = none → a.lastTx + 250 * 250000 ≤ s.tick → exec (.keepaliveTimer n) s =
        .next (emit s n { type := 0x17, seq := (a.txSeq + 2 ^ 32 - 1) % 2 ^ 32 })) ∧
      (a.lostAt.isSome = true ∨ s.tick < a.lastTx + 250 * 250000 → exec (.keepaliveTimer n) s = .next s) ∧
      (a.lostAt = none → a.lastRx + 2 * ticksPerSecond ≤ s.tick → exec (.associationLost n) s =
        .next (modAssoc s n fun a => { a with lostAt := some s.tick })) ∧
      (a.lostAt.isSome = true ∨ s.tick < a.lastRx + 2 * ticksPerSecond → exec (.associationLost n) s = .next s) ∧
      (∀ t, a.lostAt = some t → t + 60 * ticksPerSecond ≤ s.tick → exec (.associationExpiry n) s =
        .next { s with k := { s.k with assocs := SMap.erase s.k.assocs n } }) ∧
      (a.lostAt = none → exec (.associationExpiry n) s = .next s)) ∧
    (mbxFull s.mbx 12 = true → mbxReceiver s.mbx 12 = 0x40 →
      exec (.tctOutboundMessage n type payload) s = .next (sendMsg (mbxTake s .tct 12) n type payload [])) ∧
    (mbxFull s.mbx 12 = false ∨ mbxReceiver s.mbx 12 ≠ 0x40 → exec (.tctOutboundMessage n type payload) s = .next s)

/-- Recording starts only under a good configuration, fills the ring frame by frame, and locks its configuration (R394,
R396, R397, R399, R400, R401, R402, R403, R416, R419, R486, assumption logs 17 and 42). AON_RUN_START, by a Keeper hart,
sets run and the run position if clocks go with the rate, the ring lies in the SRAM and holds at least 8 s, and some
channel is recorded (that one without a channel is refused is the model's choice, log 17); else it sets ring_cfg_err;
while recording it does nothing. RING_FRAME_RECORD writes one frame at the ring position modulo the ring's length in
frames, zeros for the first 64 of a run, and counts the position up; while recording is off it does nothing. A write of
a configuration register is ignored while recording and sets cfg_while_busy; else the register takes the bits of its
fields, and ch_mask no excluded channel. AON_LATCH keeps position and device tick. dsp_reset is ignored while a
candidate is open; asserting it zeroes the AON SRAM outside the ring. The low word of a 64-bit register latches its high
word. The DSP's writes to Keeper's fields change nothing; other requesters get a bus error. -/
def Obligations.RecordingWritesTheRingInOrder : Prop :=
  ∀ (by_ : Req) (samples : List Int) (reg : AonReg) (v : Word) (k : Fin 7) (s : State),
    let a := s.aon
    let ok (t : State) : Host.Outcome State Fault Refusal := .next { t with resp := .ok }
    let set (b : Aon) : State := { s with aon := b }
    let low := bits a.ringSize.toNat 10 0
    let len := bits a.ringSize.toNat 26 16
    (runOk a = true ↔ clocksOk a = true ∧ low + len ≤ 1536 ∧ 0 < frameBytes a ∧ 8 * outRate a ≤ len * 4096 / frameBytes a) ∧
    (isKeeper by_ = true →
      (a.run = true → exec (.aonRunStart by_) s = ok s) ∧
      (a.run = false → runOk a = true → exec (.aonRunStart by_) s = ok (set { a with run := true, runPos := a.pos })) ∧
      (a.run = false → runOk a = false → exec (.aonRunStart by_) s = ok (set { a with ringCfgErr := true })) ∧
      exec (.aonRunStop by_) s = ok (writeTrims (set { a with run := false })) ∧
      (a.trimDue = [] → writeTrims (set { a with run := false }) = set { a with run := false }) ∧
      (a.candOpen = true → exec (.dspResetAssert by_) s = ok (set { a with cfgWhileBusy := true }) ∧
        exec (.dspResetRelease by_) s = ok (set { a with cfgWhileBusy := true })) ∧
      (a.candOpen = false → exec (.dspResetRelease by_) s = ok (set { a with dspReset := false }) ∧
        Answers (.dspResetAssert by_) s fun t => t = { s with aon := { a with dspReset := true }, mem := t.mem, resp := .ok } ∧
          (Memory.wf s.mem = true → ∀ x, Memory.read t.mem x = if (aonSramBase ≤ x ∧ x < aonSramBase + ringBase a) ∨
            (aonSramBase + ringBase a + ringLen a ≤ x ∧ x < aonSramBase + aonSramSize) then 0 else Memory.read s.mem x))) ∧
    (by_ = .dsp → ∀ i ∈ [Instr.aonRunStart by_, .aonRunStop by_, .dspResetAssert by_, .dspResetRelease by_], exec i s = ok s) ∧
    (isKeeper by_ = true ∨ by_ = .dsp →
      exec (.aonLatch by_) s = ok (set { a with latchPos := a.pos, latchTick := s.tick }) ∧
      (a.run = true → exec (.aonConfigWrite by_ reg v) s = ok (set { a with cfgWhileBusy := true })) ∧
      (a.run = false → ∃ b, exec (.aonConfigWrite by_ reg v) s = ok (set b) ∧
        (reg = .ringCfg → b = { a with ringCfg := v &&& 0xFFFF0031 &&& ~~~(word (a.pdmExcluded * 65536)) }) ∧
        (reg = .ringSize → b = { a with ringSize := v &&& 0x07FF07FF }) ∧
        (reg = .pdm 0 → b = { a with pdm0 := v &&& 3 }) ∧ (reg = .pdm 1 → b = { a with pdm1 := v &&& 3 }) ∧
        (∀ c, reg = .trim c → b = { a with trim := SMap.put a.trim c.val (v &&& 0xFF00FFFF) 0x4000 })) ∧
      exec (.aonPosLowRead by_ k) s = .next { s with
        aon := { a with hi := SMap.put a.hi k.val (word (aonLong a k.val / 2 ^ 32)) 0 }, resp := .data (word (aonLong a k.val)) }) ∧
    (isKeeper by_ = false → by_ ≠ .dsp → ∀ i ∈ [Instr.aonRunStart by_, .aonRunStop by_, .aonLatch by_, .dspResetAssert by_,
      .dspResetRelease by_, .aonConfigWrite by_ reg v, .aonPosLowRead by_ k], exec i s = .next { s with resp := .busError }) ∧
    (a.run = false → exec (.ringFrameRecord samples) s = .next s) ∧
    (a.run = true →
      let start := aonSramBase + ringBase a + (a.pos % ringFrames a) * frameBytes a
      let frame := frameOf a samples
      exec (.ringFrameRecord samples) s =
        .next { s with mem := Memory.writeBytes s.mem start frame, aon := { a with pos := (a.pos + 1) % 2 ^ 64 } } ∧
      frame.length = frameBytes a ∧
      (a.pos < a.runPos + 64 → ∀ b ∈ frame, b = 0) ∧
      (0 < ringFrames a → ringBase a + (a.pos % ringFrames a) * frameBytes a + frame.length ≤ ringBase a + ringLen a))

/-- Keeper reads the ring only through the open gate; candidates and the DSP's messages open and close it (R394, R404, R405,
R406, R407, R408, R410, R507). A read of the ring by Keeper answers data only if every byte read belongs to a frame of
the present run at or after the gate's start, with the gate open; a refused read counts and is recorded; a read that
leaves the ring is a bus error; the DSP reads all of the SRAM. GATE_CLOSE, and GATE_EXPIRY once the position has reached
the gate's end, close the gate: the staging area is zeroed and the closing recorded. service_open acts in SERVICE alone
and counts elsewhere. A candidate opens if none is open, starting at the mark; closing it, or its expiry when the ring
is about to lose its start, carries out a deferred downward request. A WAKE or EVENT that the mailbox takes widens the
gate to 2 s before its mark and 30 s after the position, latches the ring and requests BEACON; CLOSED only posts; none
acts while the DSP is in reset. A rejecting verdict closes the gate. -/
def Obligations.TheReadGateShowsOnlyWhatItOpened : Prop :=
  ∀ (by_ : Req) (off : Fin 0x600000) (n : Fin 4) (m : DspMsg) (num : BitVec 16) (s : State),
    let a := s.aon
    let o := off.val
    let data := word (Memory.le s.mem (aonSramBase + o) (n.val + 1))
    let inRing := ringBase a ≤ o ∧ o + n.val + 1 ≤ ringBase a + ringLen a
    let seen := ∀ x, ringBase a + x ≥ o → ringBase a + x < o + n.val + 1 → ringReadable a x = true
    let ok (t : State) : Host.Outcome State Fault Refusal := .next { t with resp := .ok }
    let closed (i : Instr) : Prop := a.gateOpen = true → ∃ t, (exec i s = .next t ∨ exec i s = ok t) ∧
      t = logAppend (stageZero { s with aon := { a with gateOpen := false } }) 0x0C 0 [4] ∧ t.aon.gateOpen = false
    (by_ = .dsp → exec (.ringGatedRead by_ off n) s = .next { s with resp := .data data }) ∧
    (isKeeper by_ = true →
      (¬ inRing → exec (.ringGatedRead by_ off n) s = .next { s with resp := .busError }) ∧
      (inRing → seen → exec (.ringGatedRead by_ off n) s = .next { s with resp := .data data }) ∧
      (inRing → ¬ seen → exec (.ringGatedRead by_ off n) s = .next
        { logAppend { s with aon := { a with gateDenied := satAdd a.gateDenied 1 } } 0x0C 0 [5] with resp := .busError })) ∧
    (∀ x, ringReadable a x = true → a.gateOpen = true ∧ ∃ p, frameInSlot a (x / frameBytes a) = some p ∧ a.gateStart ≤ p ∧
      a.runPos ≤ p ∧ p < a.pos ∧ p % ringFrames a = x / frameBytes a ∧ a.pos ≤ p + ringFrames a) ∧
    (isKeeper by_ = true → closed (.gateClose by_) ∧ (a.gateOpen = false → exec (.gateClose by_) s = ok s) ∧
      (lifeCycle s = 3 → exec (.gateServiceOpen by_) s = ok (openGate s (a.pos - 2 * outRate a) (a.pos + 30 * outRate a))) ∧
      (lifeCycle s ≠ 3 → exec (.gateServiceOpen by_) s = ok { s with aon := { a with gateDenied := satAdd a.gateDenied 1 } })) ∧
    (a.gateEnd ≤ a.pos → closed .gateExpiry) ∧ (a.pos < a.gateEnd ∨ a.gateOpen = false → exec .gateExpiry s = .next s) ∧
    (by_ = .dsp →
      (a.candOpen = true → exec (.candidateOpen by_) s = ok s) ∧
      (a.candOpen = false → exec (.candidateOpen by_) s = ok { s with aon := { a with candOpen := true, candStart := a.candMark } } ∧
        exec (.candidateClose by_) s = ok s) ∧
      (a.candOpen = true → exec (.candidateClose by_) s = ok (closeCandidate s))) ∧
    (isKeeper by_ = true → exec (.candidateOpen by_) s = ok s ∧ exec (.candidateClose by_) s = ok s) ∧
    (a.candOpen = true → 0 < frameBytes a → a.candStart + (ringFrames a - outRate a) ≤ a.pos →
      exec .candidateExpiry s = .next (closeCandidate s)) ∧
    (a.candOpen = false ∨ a.pos < a.candStart + (ringFrames a - outRate a) → exec .candidateExpiry s = .next s) ∧
    (a.deferred = none → s.k.handovers = [] → closeCandidate s = { s with aon := { a with candOpen := false } }) ∧
    (a.dspReset = true → ∀ i ∈ [Instr.wake m, .event m, .closed m], exec i s = .next s) ∧
    (a.dspReset = false → exec (.closed m) s = .next (dspPost s 3 m).1 ∧ ∀ w ∈ [(Instr.wake m, 1), (.event m, 2)],
      ((dspPost s w.2 m).2 = false → exec w.1 s = .next (dspPost s w.2 m).1) ∧
      ((dspPost s w.2 m).2 = true →
        let u := (dspPost s w.2 m).1
        let f := outRate u.aon
        let t := checkSetMode (wakeUp (latch (openGate u (m.mark.toNat - 2 * f) (u.aon.pos + 30 * f))) w.2)
        exec w.1 s = .next (if t.power.started then stageCopy t else t))) ∧
    (mbxFull s.mbx 17 = true → ∀ b, exec (.wakeVerdict num b) s = .next s) ∧
    (mbxFull s.mbx 17 = false → Answers (.wakeVerdict num false) s fun t => t.aon.gateOpen = false)

/-- Mode requests, SET_MODE, transitions, idle holds, deferred requests and wake-ups (R29, R30, R32, R33, R34, R330, R342,
R409, R410, R411, R412, R414). A mode request by Keeper: while a transition runs, one below its goal waits and any other
is an upward request; at rest, one at or above the mode is an upward request, one below starts down, or is deferred
while a candidate is open. An upward request above the mode targets the next mode and leaves BUOY by driving MAIN_EN
high; one at or below the mode starts nothing. A transition completes only when what it needs is there (Keeper started,
memory trained; commands ended), and the mode then is its target. IDLE_HOLD_EXPIRY does nothing in BUOY, during a
transition, with the hold off or while an admitted job needs the mode. A deferred request is carried out 1.5 s later at
the latest. SET_MODE, accepted, sets the holds and completes at once for mode 0xFF; else it supersedes a waiting one
(CANCELLED) and asks for the mode. TC10_WAKEUP in BUOY on a port that was enabled requests BEACON, and wakes a sleeping
link of a running main domain. -/
def Obligations.ModesClimbAndFallAsRequested : Prop :=
  ∀ (by_ : Req) (m : Mode) (port : Fin 2) (rq : Request) (s t : State) (h p : Nat),
    let a := s.aon
    let x := rq.args
    let base (u : State) : State := { u with power := { u.power with mainEn := true, pgTries := if u.power.pgTries < 2 then 0 else 1 },
                                             hostOut := .wakeup 1 :: .wakeup 0 :: u.hostOut }
    (isKeeper by_ = true → exec (.modeRequest by_ m) s = .next { checkSetMode (modeReq s m) with resp := .ok }) ∧
    (by_ = .dsp → exec (.modeRequest by_ m) s = .next { s with resp := .ok }) ∧
    (a.busy = true → modeNo m < modeNo a.goal → modeReq s m = { s with aon := { a with wanted := some m, deferred := none } }) ∧
    (a.busy = true → modeNo a.goal ≤ modeNo m → modeReq s m = askUp s m 4) ∧
    (a.busy = false → modeNo a.mode ≤ modeNo m → modeReq s m = askUp s m 4) ∧
    (a.busy = false → modeNo m < modeNo a.mode →
      (a.candOpen = true → modeReq s m = { s with aon := { a with deferred := some m, deferredAt := s.tick } }) ∧
      (a.candOpen = false → a.mode ≠ .beacon → modeReq s m = { s with aon := { a with
        target := modeOf (modeNo a.mode - 1), goal := m, busy := true, up := false, wanted := none, deferred := none } })) ∧
    (∀ cause, a.busy = false → modeNo a.mode < modeNo m →
      let u : State := { s with aon := { a with cause := cause, target := modeOf (modeNo a.mode + 1), goal := m, busy := true, up := true,
                                                wanted := none, deferred := none } }
      askUp s m cause = if a.mode = .buoy ∧ s.power.mainEn = false then base u else u) ∧
    (∀ cause, a.busy = false → modeNo m ≤ modeNo a.mode → ∃ d, askUp s m cause = { s with aon := { a with deferred := d } }) ∧
    (Answers .modeTransitionComplete s fun u => a.busy = false → s.k.handovers = [] → s.boot.kind ≠ 1 → u = s) ∧
    (a.busy = true → a.up = true → stepReady s a.target = false → s.k.handovers = [] → s.boot.kind ≠ 1 →
      exec .modeTransitionComplete s = .next s) ∧
    (a.busy = true → a.up = false → downReady s a.mode = false → s.k.handovers = [] → s.boot.kind ≠ 1 →
      exec .modeTransitionComplete s = .next s) ∧
    (a.busy = true → (if a.up then stepReady s a.target else downReady s a.mode) = true → s.k.handovers = [] → s.boot.kind ≠ 1 →
      Answers .modeTransitionComplete s fun u => u.aon.mode = a.target) ∧
    (stepReady s .lantern = true ↔ s.mm.hbmTrained = true ∧ (s.mm.lpTrained = true ∨ s.mm.noDeep = true)) ∧
    (stepReady s .beacon = true ↔ s.power.mainReset = false ∧ s.power.started = true) ∧
    (downReady s .beacon = true ↔ s.runs = []) ∧
    (s.power.started = false ∨ s.boot.kind ≠ 1 → exec .backgroundTrainingDone s = .next s) ∧
    (let one (u : State) (k : Nat) : State := if !u.power.mainReset && (stepEntry u k).state == 1 then runStep u k else u
     s.power.started = true → s.boot.kind = 1 → exec .backgroundTrainingDone s = .next (one (one s 8) 9)) ∧
    (a.busy = true ∨ a.mode = .buoy ∨ a.deferred.isSome = true ∨ s.power.started = false ∨ holdOf s.k a.mode = 0xFFFFFFFF ∨
      s.k.lowering.isSome = true ∨ modeNeeded s = true → exec .idleHoldExpiry s = .next s) ∧
    (a.busy = false → a.mode ≠ .buoy → a.deferred = none → s.power.started = true → holdOf s.k a.mode ≠ 0xFFFFFFFF →
      s.k.lowering = none → modeNeeded s = false → exec .idleHoldExpiry s = .next (lowerTo s (modeOf (modeNo a.mode - 1)))) ∧
    (a.deferred = none → exec .deferredDownTimeout s = .next s) ∧
    (∀ d, a.deferred = some d →
      (s.tick < a.deferredAt + 1500 * 250000 → exec .deferredDownTimeout s = .next s) ∧
      (a.deferredAt + 1500 * 250000 ≤ s.tick →
        exec .deferredDownTimeout s = .next (checkSetMode (stepDown { s with aon := { a with deferred := none } } d)))) ∧
    (Accepted 0x22 rq s t h p →
      let pick (n old : Nat) : Nat := if n = 0 then old else n
      let k := { t.k with holdBeacon := pick (arg x 4 4) t.k.holdBeacon, holdLantern := pick (arg x 8 4) t.k.holdLantern,
                          holdLighthouse := pick (arg x 12 4) t.k.holdLighthouse }
      let t1 : State := { t with k := k }
      let goal := modeOf (arg x 0 1)
      let t3 := onK (endSetMode t1 0x0010) fun k => { k with setMode := some (h, goal), lowering := none }
      (arg x 0 1 = 0xFF → exec (.setMode rq) s = .next (complete t1 h 0 (modeNo t.aon.mode))) ∧
      (arg x 0 1 ≠ 0xFF →
        (modeNo goal < modeNo t3.aon.mode → t3.aon.busy = false → exec (.setMode rq) s = .next (checkSetMode (lowerTo t3 goal))) ∧
        (modeNo t3.aon.mode ≤ modeNo goal ∨ t3.aon.busy = true →
          exec (.setMode rq) s = .next (checkSetMode (modeReq t3 goal))))) ∧
    (a.mode = .buoy → bitOf s.power.tc10 port.val = true → exec (.tc10Wakeup port) s = .next (askUp s .beacon 3)) ∧
    (a.mode ≠ .buoy ∨ bitOf s.power.tc10 port.val = false →
      (s.power.mainReset = false → (portOf s port.val).state = 3 →
        exec (.tc10Wakeup port) s = .next (modPort s port.val fun x => { x with state := 1 })) ∧
      (s.power.mainReset = true ∨ (portOf s port.val).state ≠ 3 → exec (.tc10Wakeup port) s = .next s))

/-- Power good, PORST_N, THROTTLE_N, the thermal trip and the AON reset; what a main reset leaves; the power cap and the
tick (R31, R392, R480, R524, R528, R530, R531, R532, R534, R537, R538, R545). A main reset leaves the AON domain, fuses,
security store, board, the logbook's records and next number, retirement maps, the memory of PSRAM, AON SRAM, MRAM and
flash, and mailbox 16; every core is off, no job, queue, model, session, association or run is left, and all other
memory reads 0. A loss of MAIN_PG with MAIN_EN high, and a failure to rise (once retried, then BUOY), make one with
ALARM_N and MAIN_EN low; MAIN_EN_RETRY raises it again. PORST_N resets the main domain while its rails are good, and is
ignored with MAIN_EN low; its release requests LIGHTHOUSE and starts cold. A release needs MAIN_PG, PORST_N high, no
trip and no halt, and starts the tick at 0. THERMAL_TRIP resets once, with RAS_ALARM.thermal; an AON reset requests
BEACON. The cap of THROTTLE_N acts through the minimum of the caps; the duty follows R533 and is at most 0xFF.
SYS_TICK_LO latches the high word. -/
def Obligations.PowerRailsResetsAndTripsTakeEffect : Prop :=
  ∀ (by_ : Req) (power : Word) (temps : List Int) (s : State),
    let t := mainReset s
    let w := s.power
    let off : State := { t with power := { t.power with mainEn := false, mainPg := false } }
    let lost (again : Bool) : State := { off with power := { off.power with failLatch := true, cold := true, retryDue := again, resetCause := 0 } }
    let set (p : Power) : State := { s with power := p }
    let free (u : State) : Prop := u.power.mainPg = true ∧ u.power.porstLow = false ∧ u.power.tripped = false ∧ u.boot.halted = none
    (t.aon = s.aon ∧ t.otp = s.otp ∧ t.secStore = s.secStore ∧ t.board = s.board ∧ t.log.recs = s.log.recs ∧ t.log.next = s.log.next ∧
      t.mm.retired = s.mm.retired ∧ t.ras.coresRetired = s.ras.coresRetired ∧ t.ras.waysRetired = s.ras.waysRetired ∧
      (∀ k, mbxFull t.mbx k = (mbxFull s.mbx k && k == 16)) ∧ (∀ n, coreOf t n = {}) ∧ t.k = {} ∧ t.runs = [] ∧ t.sems = [] ∧
      t.mm.objs = [] ∧ t.mm.pages = [] ∧ t.sec = {} ∧ t.regs = [] ∧ t.poison = [] ∧ t.events = [] ∧ t.power.mainReset = true ∧
      (Memory.wf s.mem = true → ∀ a, Memory.read t.mem a = if keepsMain a = true then Memory.read s.mem a else 0)) ∧
    (∀ u, free u → releaseMain u = { u with tick := 0, power := { u.power with mainReset := false } }) ∧
    (∀ u, ¬ free u → releaseMain u = u) ∧
    (w.mainEn = false ∨ w.mainPg = true → exec .mainPgRise s = .next s) ∧
    (w.mainEn = true → w.mainPg = false → exec .mainPgRise s = .next (releaseMain (set { w with mainPg := true, pgTries := 0 }))) ∧
    (w.mainEn = true → w.mainPg = true → exec .mainPgFall s = .next (lost true)) ∧
    (w.mainEn = false ∨ w.mainPg = false → exec .mainPgFall s = .next s) ∧
    (w.mainEn = false ∨ w.mainPg = true → exec .mainPgTimeout s = .next s) ∧
    (w.mainEn = true → w.mainPg = false →
      (w.pgTries = 0 → exec .mainPgTimeout s = .next { lost true with power := { (lost true).power with pgTries := 1 } }) ∧
      (1 ≤ w.pgTries → Answers .mainPgTimeout s fun u => u = { lost false with
        power := { (lost false).power with pgTries := w.pgTries + 1 }
        aon := { s.aon with mode := .buoy, target := .buoy, goal := .buoy, busy := false, up := false, wanted := none } })) ∧
    (exec .mainEnRetry s = .next (if w.retryDue then set { w with retryDue := false, mainEn := true } else s)) ∧
    (w.mainEn = false → exec .porstNAssert s = .next s) ∧
    (w.mainEn = true → w.mainPg = false → exec .porstNAssert s = .next (set { w with porstLow := true })) ∧
    (w.mainEn = true → w.mainPg = true →
      exec .porstNAssert s = .next { t with power := { t.power with porstLow := true, resetCause := 2 } }) ∧
    (w.porstLow = false → exec .porstNRelease s = .next s) ∧
    (w.porstLow = true → w.mainEn = false → exec .porstNRelease s = .next (set { w with porstLow := false })) ∧
    (w.porstLow = true → w.mainEn = true → exec .porstNRelease s = .next (releaseMain { s with
      aon := { s.aon with busy := false, up := false, goal := .lighthouse, target := s.aon.mode, wanted := none, deferred := none }
      power := { w with porstLow := false, cold := true } })) ∧
    (exec (.throttleNChange false) s = .next (set { w with throttleLow := false })) ∧
    (w.throttleLow = true ∨ w.mainReset = true → exec (.throttleNChange true) s = .next (set { w with throttleLow := true })) ∧
    (w.throttleLow = false → w.mainReset = false → exec (.throttleNChange true) s =
      .next (raiseEvent (set { w with throttleLow := true }) 0x0502 0xFFFF (extCapW s))) ∧
    (w.mainPg = false ∨ w.tripped = true → exec .thermalTrip s = .next s) ∧
    (w.mainPg = true → w.tripped = false → exec .thermalTrip s = .next { t with
      ras := { t.ras with alarm := t.ras.alarm ||| 8 }, power := { t.power with tripped := true, cold := true, resetCause := 0x10 } }) ∧
    (w.tripped = false → exec .thermalTripRelease s = .next s ∧ exec .thermalTripTimeout s = .next s) ∧
    (w.tripped = true → exec .thermalTripRelease s = .next (releaseMain (set { w with tripped := false })) ∧
      exec .thermalTripTimeout s = .next { lost true with power := { (lost true).power with tripped := false, resetCause := 0x10 } }) ∧
    (exec .aonReset s = .next (askUp (aonReset s) .beacon 5) ∧ (aonReset s).aon = {} ∧ (aonReset s).mbx = {} ∧
      (aonReset s).power.mainEn = ({} : Power).mainEn ∧ (aonReset s).power.cold = true) ∧
    (isKeeper by_ = true → exec (.sysTickRead by_) s =
      .next { s with power := { w with tickHi := word (s.tick / 2 ^ 32) }, resp := .data (word s.tick) }) ∧
    (isKeeper by_ = false → exec (.sysTickRead by_) s = .next { s with resp := .busError }) ∧
    (w.mainReset = true → exec (.powerCapStep power temps) s = .next s) ∧
    (w.mainReset = false →
      let ts : SMap Int := (span 0 (min 18 temps.length)).map fun k => (k, temps.getD k 0)
      let c := effectiveCap (set { w with temps := ts, powerMw := power.toNat })
      Answers (.powerCapStep power temps) s fun u => u.power.duty = nextDuty w.duty c power.toNat ∧ u.power.temps = ts ∧
        u.power.powerMw = power.toNat ∧ u = { s with cores := u.cores, power := u.power, log := u.log, events := u.events } ∧
        (∀ n, (coreOf s n).st ≠ .off → (coreOf u n).duty = word u.power.duty) ∧ (w.duty ≤ 0xFF → u.power.duty ≤ 0xFF)) ∧
    (∀ d c x, (970 * c < x → nextDuty d c x = d * (970 * c) / x) ∧ (970 * c ≥ x → x < 950 * c → nextDuty d c x = min (d + 8) 0xFF) ∧
      (950 * c ≤ x → x ≤ 970 * c → nextDuty d c x = d)) ∧
    (effectiveCap s ≤ capW s ∧ effectiveCap s ≤ thermalCap (hottest s) ∧ (w.throttleLow = true → effectiveCap s ≤ extCapW s)) ∧
    (w.duty = 0 → effectiveCap s * 1000 < w.powerMw → w.mainReset = false →
      exec .powerCapUnmet s = .next (raiseEvent (set { w with unmet := true }) 0x0501 0xFFFF w.powerMw)) ∧
    (w.duty ≠ 0 ∨ w.powerMw ≤ effectiveCap s * 1000 ∨ w.mainReset = true → exec .powerCapUnmet s = .next s)

/-- SEC's register rows, its restart and messages, the health monitor, Keeper's restart and the alarm path (R26, R452, R458,
R466, R467, R480, R489, R490, R493, assumption log 9). SEC alone zeroises the tenant slots and writes owner_unlock;
others get a bus error. A SEC restart reloads the slots from the sealed store, spends the nonce, extends M0 alone and
leaves the engines. A TRNG failure counts while the source runs. SEC takes mailbox 11 where it is its receiver, Keeper
mailbox 10. DSP_PING posts type 0x12 in mailbox 17 unless one waits. The monitor ages every FULL mailbox, forgets the
others, and past the limit acts with a record of type 0x0F. A Keeper restart that succeeds is recorded and told; the
second failure within 1 h takes the alarm path, as do a lost PLL lock, VDD_CORE out of range, and alarm_force in
SERVICE: RAS_ALARM keeps the cause, SYS_RESET_CAUSE is alarm, the main domain resets, and AON, PSRAM and MRAM keep their
contents. -/
def Obligations.SecAlarmsAndTheHealthMonitorAct : Prop :=
  ∀ (by_ : Req) (v : Bool) (w : Word) (header : List Byte) (cause : AlarmCause) (s : State),
    let x := s.sec
    let b := s.mbx
    let u := trialFault s 0
    let recent := s.ras.keeperRestarts.filter fun t => decide (s.tick < t + hourTicks)
    let alarmed (i : Instr) (r : Word) : Prop := Answers i s fun t =>
      t.ras.alarm = r ∧ t.power.resetCause = 8 ∧ t.power.cold = true ∧ t.power.started = false ∧ t.runs = [] ∧
        t.ras.coresRetired = s.ras.coresRetired ∧ t.otp = s.otp ∧
        (t.power.mainReset = false ↔ s.power.mainPg = true ∧ s.power.porstLow = false ∧ s.power.tripped = false ∧
          s.boot.halted = none) ∧
        (Memory.wf s.mem = true → ∀ a, Memory.read t.mem a = if keepsMain a then Memory.read s.mem a else 0)
    (exec (.secZeroiseAll .sec) s = .next { s with sec := { x with slots := [], engines := [] }, resp := .ok }) ∧
    (exec (.secOwnerUnlock .sec v) s =
      .next { s with sec := { x with ownerUnlock := v }, own := { s.own with lock := !v }, resp := .ok }) ∧
    (by_ ≠ .sec → ∀ i ∈ [Instr.secZeroiseAll by_, .secOwnerUnlock by_ v], exec i s = .next { s with resp := .busError }) ∧
    (exec (.secRestart header) s = .next (secRestart u header)) ∧
    (Answers (.secRestart header) s fun t => t.sec.slots = s.secStore.keys ∧ t.sec.engines = x.engines ∧ t.sec.nonce = none ∧
      t.sec.ready = true ∧ t.sec.restarting = false ∧ (∀ i, i ≠ 0 → meas t i = meas s i) ∧
      meas t 0 = Config.sha512 (digestBytes (meas s 0) ++ digestBytes (Config.sha512 header))) ∧
    (x.trngEn = true → exec .trngHealthFail s =
      .next { s with sec := { x with trngFail := true, trngFails := satAdd x.trngFails 1 } }) ∧
    (x.trngEn = false → exec .trngHealthFail s = .next s) ∧
    (mbxFull b 11 = false → exec .secRequest s = .next s) ∧ (mbxFull b 10 = false → exec .secResult s = .next s) ∧
    (mbxFull b 11 = true →
      (mbxReceiver b 11 = 0x08 → exec .secRequest s = .next { mbxClear s 11 with resp := .data (mbxWord b 11 7) }) ∧
      (mbxReceiver b 11 ≠ 0x08 → exec .secRequest s = .next { s with resp := .busError })) ∧
    (mbxFull b 10 = true → exec .secResult s = .next { mbxClear s 10 with resp := .data (mbxWord b 10 7) }) ∧
    (s.power.mainReset = true ∨ s.power.started = false ∨ mbxFull b 17 = true → exec .dspPing s = .next s) ∧
    (s.power.mainReset = false → s.power.started = true → mbxFull b 17 = false → mbxAllows b 17 (.keeper 3) = true →
      mbxReceiver b 17 = 0x10 → Answers .dspPing s fun t =>
        t.mbx.full = b.full ||| (1#128 <<< 17) ∧ mbxWord t.mbx 17 0 = 0x04120000 ∧ t.irqs = .doorbell .dsp 17 :: s.irqs) ∧
    (s.power.mainReset = true ∨ s.power.started = false → exec .healthMonitorSample s = .next s) ∧
    (s.power.mainReset = false → s.power.started = true →
      exec .healthMonitorSample s = .next ((span 0 128).foldl monitorMail s) ∧
      (b.full = 0 → Answers .healthMonitorSample s fun t => t = { s with ras := { s.ras with mailSince := t.ras.mailSince } } ∧
        (SMap.wf s.ras.mailSince = true → ∀ m < 128, SMap.get? t.ras.mailSince m = none))) ∧
    (∀ m, mbxFull b m = true →
      (SMap.get? s.ras.mailSince m = none →
        monitorMail s m = { s with ras := { s.ras with mailSince := SMap.set s.ras.mailSince m s.tick } }) ∧
      (∀ t, SMap.get? s.ras.mailSince m = some t →
        ((mailLimit s m).all (fun n => decide (s.tick ≤ t + n)) = true → monitorMail s m = s) ∧
        ((mailLimit s m).any (fun n => decide (t + n < s.tick)) = true →
          let d := logAppend (deadReceiver s m) 0x0F 0 [mbxReceiver b m, m]
          monitorMail s m = { d with ras := { d.ras with mailSince := SMap.erase d.ras.mailSince m } }))) ∧
    (s.power.mainReset = true → exec (.keeperRestart v) s = .next s ∧ exec (.alarmPath cause) s = .next s) ∧
    (s.power.mainReset = false →
      exec (.keeperRestart true) s =
        .next (raiseEvent (logAppend (keeperAgain s) 0x01 0xFF [2, s.ras.alarm.toNat]) 0x030B) ∧
      (recent = [] → Answers (.keeperRestart false) s fun t => t.ras = { s.ras with keeperRestarts := [s.tick] } ∧
        t.power = s.power ∧ t.mem = s.mem) ∧
      (recent ≠ [] → alarmed (.keeperRestart false) (s.ras.alarm ||| 1)) ∧
      (cause ≠ .keeper ∨ 2 ≤ recent.length → alarmed (.alarmPath cause) (s.ras.alarm ||| alarmBit cause)) ∧
      (recent.length < 2 → exec (.alarmPath .keeper) s = .next s)) ∧
    (isKeeper by_ = true →
      let r := rset s (rasRegBase + 4) (w &&& 3)
      (bitOf w.toNat 2 = true → lifeCycle s = 3 → alarmed (.alarmForce by_ w) s.ras.alarm ∧
        Answers (.alarmForce by_ w) s fun t => t.ras.alarmForced = true ∧ alarmN t = true) ∧
      (bitOf w.toNat 2 = false ∨ lifeCycle s ≠ 3 → exec (.alarmForce by_ w) s = .next { r with resp := .ok })) ∧
    (isKeeper by_ = false → exec (.alarmForce by_ w) s = .next { s with resp := .busError })

/-- Patrol and SRAM scrubs count errors, retire frames and ways for good, and move deep blocks, never in place (R250, R259,
R263, R315, R472, R475, R479, R481, R482, R483, R484, assumption log 33). A patrol does nothing while scrubbing is off,
the memory is not trained, or in BUOY or BEACON. A corrected error in an HBM frame counts, the second within 24 h
retires the frame; an uncorrectable one poisons its word and retires it. A retired frame is recorded and stays retired,
and no allocation ever takes it; with 4,096 in a stack FRAME_MAP_FULL is raised instead. A deep block read with a
corrected error goes to free granules of its channel under the current generation. SRAM_SCRUB takes the errors in turn;
the second unbounded fault of a way within 24 h retires it, the first holds it. SCRUB_LATE is raised once a pass. A worn
MRAM block gets the lowest unused block of the reserve. Calibration keeps its temperature; monitor trims take the slots
16 to 39. -/
def Obligations.ScrubsCountRetireAndRelocate : Prop :=
  ∀ (corr uncorr : List Nat) (done a f n p : Nat) (item : Item) (reads : List DeepRead) (found : List (SramPlace × Bool))
    (deep : Bool) (block : Fin 2048) (ifc : Fin 10) (temp : Int) (trims more : List (Nat × List Byte)) (s : State),
    let off := scrubEn s = false ∨ s.aon.mode = .buoy ∨ s.aon.mode = .beacon
    let g := a / 0x10000
    let owner (f : Nat) : Nat := SMap.getD s.own.hbm (f / framesPerUnit) 0
    let mine := reads.filter fun b => decide (b.block < (itemDeep s item).elim 0 fun d => d.blocks.length)
    let bad := mine.filter fun b => b.first.val != 0 && b.second.val != 0
    let moved := (mine.filter DeepRead.corrected).foldl (fun s b => relocate s item b.block) (countReads s mine)
    (off ∨ s.mm.hbmTrained = false → exec (.hbmPatrolScrub corr uncorr done) s = .next s) ∧
    (¬ off → s.mm.hbmTrained = true →
      let t := (uncorr.filter (hbmAwake s)).foldl frameUncorr ((corr.filter (hbmAwake s)).foldl frameCorr s)
      exec (.hbmPatrolScrub corr uncorr done) s = .next { t with
        ras := { t.ras with hbmPass := if 1000 ≤ done then 0 else done, hbmLate := t.ras.hbmLate && decide (done < 1000) } }) ∧
    (let k := 5 + stackOf g
     let l := within s.tick (SMap.getD s.mm.frameErrs g []) ++ [s.tick]
     let seen := countCorr { s with mm := { s.mm with frameErrs := SMap.set s.mm.frameErrs g l } } k 1
     let poisoned := countUncorr { s with poison := SMap.set s.poison (a / 8) () } k 1
     (within s.tick (SMap.getD s.mm.frameErrs g []) = [] → frameCorr s a = seen) ∧
     (within s.tick (SMap.getD s.mm.frameErrs g []) ≠ [] → frameCorr s a = retireFrame seen g) ∧
     frameUncorr s a = retireFrame poisoned g ∧ (SMap.get? poisoned.poison (a / 8)).isSome = true) ∧
    ((SMap.get? s.mm.retired f).isSome = true → retireFrame s f = s) ∧
    ((SMap.get? s.mm.retired f).isSome = false → 4096 ≤ retiredIn s (stackOf f) →
      retireFrame s f = raiseEvent (logAppend s 0x10 (owner f) [1, f, stackOf f]) 0x0302 0xFFFF (stackOf f)) ∧
    (retiredIn s (stackOf f) < 4096 → (SMap.get? (retireFrame s f).mm.retired f).isSome = true) ∧
    (∀ x, (SMap.get? s.mm.retired x).isSome = true → (SMap.get? (retireFrame s f).mm.retired x).isSome = true) ∧
    (∀ x us, freeFrameIn s us = some x → SMap.get? s.mm.retired x = none) ∧
    (∀ t fs, allocRun s p n = some (t, fs) → ∀ x ∈ fs, SMap.get? s.mm.retired x = none) ∧
    (off ∨ s.mm.lpTrained = false → exec (.deepPatrolScrub item reads done) s = .next s) ∧
    (¬ off → s.mm.lpTrained = true →
      let t := if bad = [] then moved else deepBad moved item bad
      exec (.deepPatrolScrub item reads done) s = .next { t with
        ras := { t.ras with deepPass := if 1000 ≤ done then 0 else done, deepLate := t.ras.deepLate && decide (done < 1000) } }) ∧
    (∀ d b, itemDeep s item = some d → d.blocks[n]? = some b → relocate s item n ≠ s → ∃ q,
      relocate s item n = setDeep s item (some { d with
        blocks := setAt d.blocks n { b with granule := q, gen := SMap.getD s.mm.keyGen (itemPart s item) 0 } }) ∧
      ∀ y ∈ deepBlocks s, y.channel = b.channel → q + b.count ≤ y.granule ∨ y.granule + y.count ≤ q) ∧
    (s.power.mainReset = true → exec (.sramScrub found) s = .next s) ∧
    (s.power.mainReset = false → exec (.sramScrub found) s = .next (found.foldl sramError s)) ∧
    (∀ e : SramPlace × Bool,
      ((∀ c, e.1 ≠ .rows c) → e.2 = false → sramError s e = countCorr s (sramSource e.1) 1) ∧
      (∀ w, e = (.ssr w, true) → sramError s e = wayFault (countUncorr s 0 1) w.val) ∧
      (e = (.keeperSram, true) ∨ e = (.sessionTable, true) → sramError s e = countUncorr s (sramSource e.1) 1) ∧
      (e = (.aonSram, true) → sramError s e = dspRestart (countUncorr s 3 1)) ∧
      (∀ k m, e = (.semaphore k, true) → SMap.get? s.sems k.val = some m → sramError s e =
        if m.part = 0 then teardown (countUncorr s 0 1) m.ownerQueue else partitionReset (countUncorr s 0 1) m.part 0)) ∧
    (∀ w, (within s.tick (SMap.getD s.ras.wayFaults w []) = [] → (SMap.get? (wayFault s w).ras.wayHold w).isSome = true) ∧
      (within s.tick (SMap.getD s.ras.wayFaults w []) ≠ [] → (SMap.get? (wayFault s w).ras.waysRetired w).isSome = true)) ∧
    (scrubEn s = false → exec (.scrubLate deep) s = .next s) ∧
    (s.ras.hbmLate = true ∨ s.mm.hbmTrained = false → exec (.scrubLate false) s = .next s) ∧
    (s.ras.deepLate = true ∨ s.mm.lpTrained = false → exec (.scrubLate true) s = .next s) ∧
    (scrubEn s = true → s.ras.hbmLate = false → s.mm.hbmTrained = true →
      exec (.scrubLate false) s = .next (raiseEvent { s with ras := { s.ras with hbmLate := true } } 0x0303 0xFFFF 0)) ∧
    (scrubEn s = true → s.ras.deepLate = false → s.mm.lpTrained = true →
      exec (.scrubLate true) s = .next (raiseEvent { s with ras := { s.ras with deepLate := true } } 0x0303 0xFFFF 1)) ∧
    (0x470 ≤ block.val → exec (.mramWearRemap block) s = .next s) ∧
    (let used := s.ras.remap.map Prod.snd
     block.val < 0x470 →
      (∀ b, 0x470 ≤ b → b < 0x800 → b ∉ used → (∀ c, 0x470 ≤ c → c < b → c ∈ used) → exec (.mramWearRemap block) s =
        .next { s with ras := { s.ras with remap := SMap.set s.ras.remap block.val b } }) ∧
      ((∀ b, 0x470 ≤ b → b < 0x800 → b ∈ used) → exec (.mramWearRemap block) s = .next s)) ∧
    (let up := if ifc.val < 2 then s.mm.hbmTrained else s.mm.lpTrained
     (up = true → exec (.interfaceCalibration ifc temp) s =
        .next { s with ras := { s.ras with lastCal := SMap.set s.ras.lastCal ifc.val temp } }) ∧
     (up = false → exec (.interfaceCalibration ifc temp) s = .next s)) ∧
    (s.power.mainReset = true → exec (.monitorRecalibration trims) s = .next s) ∧
    (s.power.mainReset = false →
      exec (.monitorRecalibration []) s = .next s ∧
      (∀ k d, 16 ≤ k → k < 40 → d.length = 4 → exec (.monitorRecalibration [(k, d)]) s =
        .next { s with ras := { s.ras with trims := SMap.set s.ras.trims k d } }) ∧
      (∀ k d, k < 16 ∨ 40 ≤ k ∨ d.length ≠ 4 → exec (.monitorRecalibration [(k, d)]) s = .next s) ∧
      (∀ t, exec (.monitorRecalibration trims) s = .next t →
        exec (.monitorRecalibration more) t = exec (.monitorRecalibration (trims ++ more)) s))

/-- A self-test slice runs on a free target, is deferred out of range, wipes what it tests, and its failure retires or
excludes (R478, R479, R480, R485, R486, R487, R488, assumption log 32). Slices are tried while st_en is set and main
reset is released. With VDD_CORE outside 0.72 to 0.80 V, no root PLL lock or that monitor excluded a slice is deferred
and counted, keeping its first deferral's tick; after 24 h its retry raises SELFTEST_LATE, once. A slice with no free
target does nothing. One that runs is counted, gives its result, and leaves its BIST contents dead, but resident
accumulator rows. A failed core slice retires the core, a failed way its way; a PHY PLL raises PLL_FAULT, the root PLL
takes the alarm path, a loopback raises PORT_FAULT, a PDM channel PDM_FAULT, an excluded VDD_CORE monitor SENSOR_FAULT;
on-die sensors more than 5 degrees C off the median are excluded. A held core stays held until every slice of the full
check has passed. The numbering of loopback ports and PLL targets is the model's (log 32). -/
def Obligations.SelfTestSlicesRunOrAreDeferred : Prop :=
  ∀ (x : Slice) (vdd : Nat) (pass : Bool) (s : State),
    let run := exec (.selftestSlice x vdd pass) s
    let good := 720 ≤ vdd ∧ vdd ≤ 800 ∧ s.ras.pllLocked = true ∧ bitOf s.ras.vmonOff 0 = false
    let on := s.power.mainReset = false ∧ slicesEn s = true
    let k := sliceKey x
    let ended (ok : Bool) : State :=
      let t := bistWipe s x
      { t with ras := { t.ras with
          vmon := vdd
          slices := t.ras.slices + 1
          deferred := SMap.erase t.ras.deferred k
          lateTold := SMap.erase t.ras.lateTold k
          stResult := word (b2n (!ok) * 2 ^ 31 + sliceTarget x * 2 ^ 16 + sliceCode x) } }
    let put := { s with ras := { s.ras with
        vmon := vdd
        stDeferred := satAdd s.ras.stDeferred 1
        deferred := if (SMap.get? s.ras.deferred k).isSome then s.ras.deferred else SMap.set s.ras.deferred k s.tick } }
    (¬ on → run = .next s) ∧
    (on → ¬ good → run = .next put) ∧
    (on → good → targetFree s x = false → run = .next s) ∧
    (on → good → targetFree s x = true → x ≠ .temperature →
      run = .next (if pass then slicePass (ended true) x else sliceFail (ended false) x)) ∧
    (on → good → x = .temperature → run = .next ((strayed s).foldl dropSensor (ended (strayed s).isEmpty))) ∧
    (∀ c, sliceCore x = some c → targetFree s x = true →
      (coreOf s c).st = .held ∨ (coreIdle s c = true ∧ workFor s c = false)) ∧
    (∀ w, x = .ssrWay w → targetFree s x = true →
      modeNo (wayMode w.val) ≤ modeNo s.aon.mode ∧
      ∀ r ∈ s.runs, ∀ j, jobAt s r.2.job = some j → j.part ≠ SMap.getD s.own.ssr w.val 0) ∧
    (∀ w, x = .ssrWay w → Memory.wf s.mem = true → ∀ a, Memory.read (bistWipe s x).mem a =
      if ssrBase + w.val * 0x200000 ≤ a ∧ a < ssrBase + (w.val + 1) * 0x200000 then 0 else Memory.read s.mem a) ∧
    (∀ c q, x = .accQuarter c q → SMap.wf (coreOf s c.val).acc = true → ∀ r,
      (r / 256 = q.val ∧ SMap.get? (coreOf s c.val).rowOwner r = none → SMap.get? (coreOf (bistWipe s x) c.val).acc r = none) ∧
      (r / 256 ≠ q.val ∨ (SMap.get? (coreOf s c.val).rowOwner r).isSome = true →
        SMap.get? (coreOf (bistWipe s x) c.val).acc r = SMap.get? (coreOf s c.val).acc r)) ∧
    (∀ c, x = .weightBanks c → bistWipe s x = onCore s c.val fun y => { y with bank0 := none, bank1 := none, icache := [] }) ∧
    (∀ c, sliceCore x = some c → (SMap.get? (sliceFail s x).ras.coresRetired c).isSome = true) ∧
    (∀ c n, (SMap.get? s.ras.checkHold c).isNone = true → checkPassed s c n = s) ∧
    (∀ c n, (SMap.get? s.ras.checkHold c).isSome = true →
      let l := SMap.getD s.ras.passed c []
      let l1 := if l.contains n then l else n :: l
      (∃ m ∈ fullCheck, m ∉ l1) → checkPassed s c n = { s with ras := { s.ras with passed := SMap.set s.ras.passed c l1 } }) ∧
    (∀ m, m ∈ fullCheck ↔ m = 16 ∨ (32 ≤ m ∧ m < 48) ∨ (48 ≤ m ∧ m < 52) ∨ m = 64) ∧
    (∀ w, x = .ssrWay w → sliceFail s x = retireWay s w.val ∧ (SMap.get? (sliceFail s x).ras.waysRetired w.val).isSome = true) ∧
    (∀ t, x = .pll t →
      (t.val = 0 → sliceFail s x = alarmPath s fun r => { r with alarm := r.alarm ||| 2 }) ∧
      (t.val ≠ 0 → { code := 0x0306, queue := 0xFFFF, arg := t.val, tick := s.tick } ∈ (sliceFail s x).events)) ∧
    (∀ p, x = .loopback p → { code := 0x0307, queue := 0xFFFF, arg := p.val, tick := s.tick } ∈ (sliceFail s x).events) ∧
    (∀ p, x = .pdm p → sliceFail s x =
      raiseEvent { s with aon := { s.aon with pdmExcluded := s.aon.pdmExcluded ||| 2 ^ p.val } } 0x0308 0xFFFF p.val) ∧
    (∀ m, x = .voltage m →
      (bitOf s.ras.vmonOff m.val = true → sliceFail s x = s) ∧
      (bitOf s.ras.vmonOff m.val = false →
        let t := { s with ras := { s.ras with vmonOff := s.ras.vmonOff + 2 ^ m.val } }
        sliceFail s x = if m.val = 0 then raiseEvent t 0x0309 0xFFFF 0 else t)) ∧
    (∀ j t, (j, t) ∈ s.power.temps → j < 16 →
      let m := median ((s.power.temps.filter fun y => decide (y.1 < 16)).map Prod.snd)
      (m + 40 < t ∨ t + 40 < m → j ∈ strayed s)) ∧
    ((SMap.get? s.ras.deferred k).isNone = true → exec (.selftestDeferRetry x vdd pass) s = .next s) ∧
    (∀ since, SMap.get? s.ras.deferred k = some since → on → ¬ good →
      let late := since + dayTicks ≤ s.tick ∧ SMap.get? s.ras.lateTold k = none
      (¬ late → exec (.selftestDeferRetry x vdd pass) s = .next put) ∧
      (late → exec (.selftestDeferRetry x vdd pass) s = .next (raiseEvent
        { put with ras := { put.ras with lateTold := SMap.set put.ras.lateTold k () } } 0x0304 0xFFFF (sliceCode x))))

/-- Cold and warm starts, training, the boot watchdog, and the end of firmware trials (R441, R446, R452, R497, R498, R499,
R500, R503, R504, R517, assumption log 41). A start runs only if main reset is released, no start has run since and no
halt is in force, of the kind that is due; it counts the boot and gives its kind. A cold start with an empty boot record
and nothing failing has B01 to B07 DONE and waits in B08 with Keeper started (log 41); in RAW and RETIRED it stops after
B01. MEMORY_TRAINING_DONE ends the step that waits for it: after HBM the start waits in B09. Without B21 30 s after the
release, main reset, and trials revert. A trial with auto-commit commits 60 s after its start, for PHY microcode when
its ports are back: the rollback count rises to its version. A trial of 24 h reverts to the other slot and is told, and
the component starts from it when it may. -/
def Obligations.StartsRunTheirStepsAndTrialsEnd : Prop :=
  ∀ (obs : StartObs) (hbm : Bool) (cls : Fin 4) (s : State),
    let due := s.power.mainReset = false ∧ s.power.started = false ∧ s.power.startAt = none ∧ s.boot.halted = none
    let v := fwOf s cls.val
    let x := if hbm then 8 else 9
    (¬ due ∨ s.power.cold = false → exec (.coldStart obs) s = .next s) ∧
    (¬ due ∨ s.power.cold = true → exec (.warmStart obs) s = .next s) ∧
    (due → s.power.cold = true → Answers (.coldStart obs) s fun t =>
      t.boot.kind = 0 ∧ t.boot.bootCount = (s.boot.bootCount + 1) % 2 ^ 32) ∧
    (due → s.power.cold = false → Answers (.warmStart obs) s fun t =>
      t.boot.kind = 1 ∧ t.boot.bootCount = (s.boot.bootCount + 1) % 2 ^ 32) ∧
    (due → s.power.cold = true → (lifeCycle s = 0 ∨ lifeCycle s = 4) → Answers (.coldStart obs) s fun t =>
      t.power.started = false ∧ (t.power.mainReset = false → t.mm = s.mm)) ∧
    (due → s.power.cold = true → lifeCycle s ≠ 0 → lifeCycle s ≠ 4 → s.boot.steps = [] → s.boot.clear = [] →
      slotDead s 0 (fwOf s 0).active = false → slotDead s 1 (fwOf s 1).active = false → Answers (.coldStart {}) s fun t =>
        t.power.startAt = some 8 ∧ t.power.started = true ∧ t.ras.pllLocked = true ∧ t.sec.ready = true ∧ t.ras.alarm = 0 ∧
        t.mm.psramReady = true ∧ t.mbx.lock = 0xFFFFFFFFFFFFFFFFFFFFFFFFFFFFFFFF ∧
        (∀ k, 1 ≤ k → k ≤ 7 → (stepEntry t k).state = 2) ∧ (stepEntry t 8).state = 1 ∧
        ∀ k, 9 ≤ k → (stepEntry t k).state = 0) ∧
    (s.power.mainReset = true ∨ (stepEntry s x).state ≠ 1 → exec (.memoryTrainingDone hbm) s = .next s) ∧
    (s.boot.kind ≠ 1 → s.power.startAt ≠ some x → exec (.memoryTrainingDone hbm) s = .next s) ∧
    (s.boot.kind = 1 → s.power.mainReset = false → (stepEntry s x).state = 1 →
      exec (.memoryTrainingDone hbm) s = .next (if s.power.started then runStep s x else s)) ∧
    (s.boot.kind = 0 → s.power.mainReset = false → (stepEntry s 8).state = 1 → s.power.startAt = some 8 →
      stepOff s 8 = false → stepOff s 9 = false → s.power.obs.fails = [] → s.power.obs.stop = none →
      Answers (.memoryTrainingDone true) s fun t => t.mm.hbmTrained = true ∧ t.power.startAt = some 9 ∧
        (stepEntry t 8).state = 2 ∧ (stepEntry t 9).state = 1 ∧ t.mm.lpTrained = s.mm.lpTrained) ∧
    (s.power.mainReset = true ∨ s.tick < 30 * ticksPerSecond ∨ (s.power.started = true ∧ s.power.startAt = none) →
      exec .bootWatchdog s = .next s) ∧
    (s.power.mainReset = false → 30 * ticksPerSecond ≤ s.tick → s.power.started = false ∨ s.power.startAt.isSome = true →
      Answers .bootWatchdog s fun t => t.power.resetCause = 4 ∧ t.power.cold = true ∧ t.power.started = false ∧
        t.power.startAt = none ∧ t.runs = [] ∧ (∀ c < 4, inTrial t c = false) ∧
        (∀ k, stepEntry t k = stepEntry s k)) ∧
    (inTrial s cls.val = false ∨ v.autoCommit = false → exec (.updateAutoCommit cls) s = .next s) ∧
    (let over_ := if cls.val = 3 then portsBack s = true else v.startedAt + 60 * ticksPerSecond ≤ s.tick
     inTrial s cls.val = true → v.autoCommit = true →
      (¬ over_ → exec (.updateAutoCommit cls) s = .next s) ∧
      (over_ → Answers (.updateAutoCommit cls) s fun t =>
        fwOf t cls.val = { v with state := 0, autoCommit := false } ∧ t.otp = { s.otp with rollback := t.otp.rollback } ∧
        (∀ c, SMap.getD t.otp.rollback c 0 = if c = cls.val then max (SMap.getD s.otp.rollback c 0) (slotVersion v v.active)
          else SMap.getD s.otp.rollback c 0) ∧
        (∀ i, i ≠ 4 → meas t i = meas s i))) ∧
    (inTrial s cls.val = false ∨ trialAge s cls.val < 86400 * ticksPerSecond → exec (.updateTrialExpiry cls) s = .next s) ∧
    (inTrial s cls.val = true → 86400 * ticksPerSecond ≤ trialAge s cls.val →
      exec (.updateTrialExpiry cls) s = .next (askHandover (revertSlot s cls.val) cls.val none) ∧
      fwOf (revertSlot s cls.val) cls.val = { v with state := 0, active := 1 - v.active, autoCommit := false } ∧
      (revertSlot s cls.val).events = { code := 0x0403, queue := 0xFFFF, arg := cls.val, tick := s.tick } :: s.events ∧
      ((∀ z ∈ s.k.handovers, handoverReady (revertSlot s cls.val) z.cls = false) →
        handoverReady (revertSlot s cls.val) cls.val = false →
        Answers (.updateTrialExpiry cls) s fun t => t.k.handovers = s.k.handovers ++ [{ cls := cls.val, handle := none }] ∧
          t.mem = s.mem))

/-- CSI-2 packets start, fill and end frames; header errors, overflow, wrong lengths and stray packets do what R432 says
(R422, R423, R425, R426, R430, R431, R432, R433, assumption log 30). No packet passes a receiver that is off,
unsynchronised or faulty, or an ISP that does not run. A corrected header counts and is as a good one; an uncorrectable
one counts, cuts every open frame of the port (cause 1) and drops synchronisation. Frame Start cuts an open frame (cause
4), applies the shadow, skips, drops or takes the next free buffer, wrapping round. A line of a context's type is
stored, flagged for CRC or length; missing raw pixels read black; one beyond in_height is stray; a full buffer cuts the
frame (cause 2); one with no frame or context counts as stray, but while discarding. Frame End ends a frame, cut (cause
5) if lines are missing. An ended frame's 32-byte record lies at rec_base + 32 k. A row that no packet fills is free
(log 30). -/
def Obligations.CameraPacketsBuildFrames : Prop :=
  ∀ (port vc : Fin 4) (hdr : Fin 3) (num : BitVec 16) (dt : Fin 64) (px : List Nat) (crcBad full : Bool) (ctx : Fin 16)
    (cause st : Nat) (s : State),
    let p := port.val
    let x := ctx.val
    let c := ctxOf s x
    let hears := (camPort s p).en = true ∧ (camPort s p).sync = true ∧ (camPort s p).faulty = false ∧ s.cam.en = true
    let here := ctxsOn s p vc.val
    let mine := here.filter fun y => camType (ctxOf s y).win == dt.val
    let line := exec (.csiLinePacket port vc 0 dt px crcBad full) s
    let packets (h : Fin 3) : List Instr :=
      [.csiFrameStart port vc h num, .csiFrameEnd port vc h, .csiLinePacket port vc h dt px crcBad full]
    (¬ hears → ∀ i ∈ packets hdr ++ [.csiShortPacketIgnored port 0, .csiShortPacketIgnored port 1], exec i s = .next s) ∧
    (hears →
      (∀ i ∈ packets 2, exec i s = .next (headerBad s p)) ∧
      exec (.csiFrameStart port vc 1 num) s = exec (.csiFrameStart port vc 0 num) (camCount s 0 p) ∧
      exec (.csiFrameEnd port vc 1) s = exec (.csiFrameEnd port vc 0) (camCount s 0 p) ∧
      exec (.csiLinePacket port vc 1 dt px crcBad full) s = exec (.csiLinePacket port vc 0 dt px crcBad full) (camCount s 0 p) ∧
      exec (.csiShortPacketIgnored port 0) s = .next s ∧ exec (.csiShortPacketIgnored port 1) s = .next (camCount s 0 p) ∧
      exec (.csiFrameStart port vc 0 num) s = .next (here.foldl (fun s y => takeStart s p vc.val num.toNat y) s) ∧
      (here = [] → exec (.csiFrameEnd port vc 0) s = .next s) ∧
      (here = [x] →
        (c.frame = none → exec (.csiFrameEnd port vc 0) s = .next s) ∧
        (∀ f, c.frame = some f → exec (.csiFrameEnd port vc 0) s =
          .next (if f.lines.length < inHeight c.win then endFrame s x 5 3 else endFrame s x 0 1))) ∧
      (here ≠ [] → dt.val = 0x12 → line = .next s) ∧
      (here = [] ∨ dt.val ≠ 0x12 →
        (mine = [] → line = .next (camCount s 4 p)) ∧
        (mine ≠ [] → (∀ y ∈ mine, (ctxOf s y).frame = none) →
          ((∃ y ∈ mine, (ctxOf s y).st = 3) → line = .next s) ∧
          ((∀ y ∈ mine, (ctxOf s y).st ≠ 3) → line = .next (camCount s 4 p))) ∧
        (mine = [x] → ∀ f, c.frame = some f →
          (full = true → line = .next (endFrame (camCount s 3 p) x 2 3)) ∧
          (full = false → inHeight c.win ≤ f.lines.length →
            line = .next (camCount (if crcBad then camCount s 2 p else s) 4 p)) ∧
          (full = false → f.lines.length < inHeight c.win →
            Answers (.csiLinePacket port vc 0 dt px crcBad false) s fun t => ∃ n,
              (ctxOf t x).frame = some { f with
                lines := f.lines ++ [fitLine s c.win f.lines.length px]
                flags := f.flags ++ [crcBad || px.length != inWidth c.win * comps c.win]
                written := n } ∧
              f.written ≤ n ∧ (f.lines.length + 1 = inHeight c.win → outH c.win ≤ n) ∧ ∀ y, y ≠ x → ctxOf t y = ctxOf s y)))) ∧
    (let h := headerBad s p
     (camPort h p).sync = false ∧ ∀ y < 16, pfield (ctxOf s y).win 4 1 = p → (ctxOf h y).frame = none) ∧
    (∀ f, c.frame = some f → takeStart s p vc.val num.toNat x = takeStart (endFrame s x 4 3) p vc.val num.toNat x) ∧
    (c.frame = none → c.shadow = c.win → pfield c.win 4 1 = p → pfield c.win 5 1 = vc.val →
      let took := takeStart s p vc.val num.toNat x
      (c.skip ≠ 0 → took = modCtx s x fun _ => { c with skip := c.skip - 1, st := 3 }) ∧
      (c.skip = 0 → nextBuf c = none → took = modCtx s x fun _ => { c with dropped := satAdd c.dropped 1, st := 3 }) ∧
      (∀ k, c.skip = 0 → nextBuf c = some k → took = modCtx s x fun _ => { c with
        free := setBits c.free k k 0
        buf := k
        used := true
        st := 2
        skip := pfield c.win 0x54 1
        frame := some { buf := k, csi := num.toNat, tickFs := s.tick } })) ∧
    (let n := nbufOf c.win
     let first := if c.used then (c.buf + 1) % n else 0
     (∀ k, nextBuf c = some k → k < n ∧ bitOf c.free k = true ∧
       ∀ j < (k + n - first) % n, bitOf c.free ((first + j) % n) = false) ∧
     (nextBuf c = none → ∀ k < n, bitOf c.free k = false)) ∧
    (c.frame = none → endFrame s x cause st = s) ∧
    (∀ f, c.frame = some f →
      let t := endFrame s x cause st
      let r := camRecord s x c f cause (validLines c.win f.lines.length)
      ctxOf t x = { c with frame := none, st := st, ended := c.ended ++ [f.buf] } ∧
      (∀ y, y ≠ x → ctxOf t y = ctxOf s y) ∧ r.length = 32 ∧ (Memory.wf s.mem = true → readMem t (pfield c.win 0x78 8 + 32 * f.buf) 32 = r)) ∧
    (let l := fitLine s c.win st px
     l.length = inWidth c.win * comps c.win ∧
     (rawBits (camType c.win) ≠ 0 → ∀ i, px.length ≤ i → i < l.length →
       l[i]? = some (pfield c.win (0x20 + 2 * cfaPos i st) 2)))

/-- Timeouts, finished frames, buffer release, context and port enables, hold, low_rate and lane states (R424, R429, R430,
R431, R432, R433, R436, R437). CAM_FRAME_TIMEOUT cuts an open frame (cause 3) once timeout_us has passed. CAM_FRAME_DONE
acknowledges the oldest ended frame: its bit in frame_done, CAM_CTX_SEQ and, if enabled, an interrupt. A release frees
the buffers of its mask but one being written. An enable needs good parameters, addresses in its partition and the
port's owner, and in low_rate at most 3 others; else cfg_err. A disable cuts the open frame (cause 4). The shadow takes
effect at a boundary unless hold is set or it breaks a range, which sets cfg_err. low_rate is refused with more than
four contexts enabled. A port's enable applies its shadowed fields; a disabled one is off; lane states are taken while
it is on and high-speed restores synchronisation. Keeper alone writes these. -/
def Obligations.CameraContextsPortsAndBuffersFollowTheirRegisters : Prop :=
  ∀ (by_ : Req) (ctx : Fin 16) (mask : BitVec 16) (v : Bool) (port st : Fin 4) (lanes : Fin 16) (s : State),
    let x := ctx.val
    let c := ctxOf s x
    let p := port.val
    let ok (t : State) : Host.Outcome State Fault Refusal := .next { t with resp := .ok }
    let b := camBoundary s x
    let n := (ctxsEnabled b).length
    let err (t : State) : State := { t with cam := { t.cam with cfgErr := true } }
    let good := rangesOk (ctxOf b x).win = true ∧ addressesOk b c.part (ctxOf b x).win = true ∧
      SMap.getD s.own.cam (pfield (ctxOf b x).win 4 1) 0 = c.part
    (isKeeper by_ = false → ∀ i ∈ [Instr.camBufferRelease by_ ctx mask, .camContextEnable by_ ctx v, .camParamHold by_ ctx v,
      .camLowRate by_ v, .camPortEnable by_ port v], exec i s = .next { s with resp := .busError }) ∧
    (c.frame = none → exec (.camFrameTimeout ctx) s = .next s) ∧
    (∀ f, c.frame = some f →
      let due := f.tickFs + pfield c.win 0x58 4 * ticksPerUs ≤ s.tick
      (due → exec (.camFrameTimeout ctx) s = .next (endFrame s x 3 3)) ∧ (¬ due → exec (.camFrameTimeout ctx) s = .next s)) ∧
    (c.ended = [] → exec (.camFrameDone ctx) s = .next s) ∧
    (∀ k r, c.ended = k :: r → Answers (.camFrameDone ctx) s fun t =>
      ctxOf t x = { c with ended := r, seq := (c.seq + 1) % 2 ^ 32 } ∧ (∀ y, y ≠ x → ctxOf t y = ctxOf s y) ∧
      t.cam.frameDone = setBits s.cam.frameDone x x 1 ∧
      t.irqs = (if s.cam.irq then [.camera] else []) ++ s.irqs ∧ t.mem = s.mem) ∧
    (isKeeper by_ = true →
      (Answers (.camBufferRelease by_ ctx mask) s fun t => ctxOf t x = { c with free := (ctxOf t x).free } ∧
        (∀ k < 16, bitOf (ctxOf t x).free k = true ↔ bitOf c.free k = true ∨ (mask.getLsbD k = true ∧ bufBusy c k = false)) ∧
        ∀ y, y ≠ x → ctxOf t y = ctxOf s y) ∧
      exec (.camParamHold by_ ctx v) s = ok (modCtx s x fun _ => { c with hold := v }) ∧
      (c.en = true → exec (.camContextEnable by_ ctx true) s = ok s) ∧
      (c.en = false → s.cam.lowRate = false ∨ n < 4 → good → exec (.camContextEnable by_ ctx true) s =
        ok (modCtx b x fun c => { c with en := true, st := 1, seq := 0, skip := 0 })) ∧
      (c.en = false → (s.cam.lowRate = true ∧ 4 ≤ n) ∨ ¬ good →
        exec (.camContextEnable by_ ctx true) s = ok (err b)) ∧
      (Answers (.camContextEnable by_ ctx false) s fun t => (ctxOf t x).en = false ∧ (ctxOf t x).st = 0 ∧
        (ctxOf t x).frame = none ∧ (c.frame = none → t.mem = s.mem) ∧ ∀ y, y ≠ x → ctxOf t y = ctxOf s y) ∧
      (v = false ∨ s.cam.lowRate = true ∨ (ctxsEnabled s).length ≤ 4 →
        exec (.camLowRate by_ v) s = ok { s with cam := { s.cam with lowRate := v } }) ∧
      (s.cam.lowRate = false → 4 < (ctxsEnabled s).length → exec (.camLowRate by_ true) s = ok (err s)) ∧
      ((camPort s p).en = true → exec (.camPortEnable by_ port true) s = ok s) ∧
      ((camPort s p).en = false → Answers (.camPortEnable by_ port true) s fun t =>
        camPort t p = { camPort s p with en := true, state := 1, lanesOk := 0, sync := true } ∧
        t = { rboundary s (camPortCfg p) with cam := t.cam, resp := .ok } ∧ ∀ q, q ≠ p → camPort t q = camPort s q) ∧
      (Answers (.camPortEnable by_ port false) s fun t =>
        camPort t p = { camPort s p with en := false, state := 0, lanesOk := 0 } ∧
        t = { s with cam := t.cam, resp := .ok } ∧ ∀ q, q ≠ p → camPort t q = camPort s q)) ∧
    (c.hold = true ∨ c.shadow = c.win → b = s) ∧
    (c.hold = false → c.shadow ≠ c.win →
      (rangesOk c.shadow = true → addressesOk s c.part c.shadow = true → b = modCtx s x fun c => { c with win := c.shadow }) ∧
      (rangesOk c.shadow = false ∨ addressesOk s c.part c.shadow = false → b = err s)) ∧
    ((camPort s p).en = false → exec (.csiLaneStateChange port st lanes) s = .next s) ∧
    ((camPort s p).en = true → Answers (.csiLaneStateChange port st lanes) s fun t =>
      camPort t p = { camPort s p with state := st.val + 1, lanesOk := lanes.val, sync := (camPort s p).sync || st.val == 1 } ∧
      t = { s with cam := t.cam })

/-- Links train, authenticate, deliver in order, resend, rekey, fall and restart, and a lost peer is told (R26, R362, R365,
R366, R367, R369, R380, R388, R467, assumption logs 11 and 20). A frame on a port that is not up, or with FAB off,
changes nothing; one with a wrong counter is counted and answered by a NAK; else it is accepted and acknowledged. IDLE
does no more; KEY holds the next key; LINK_ACK drops what is acknowledged, and the KEY frame's acknowledgement begins
the next epoch at counter 0; LINK_NAK resends, the ninth time restarting the link; CREDIT goes on to its destination.
Training with all lanes sends AUTH; a peer under no live root or with a bad signature is refused, counted and told, a
wrong cabling refused; else both directions start at epoch 1, counter 0, and what was not acknowledged goes again in
order. A port sends KEY where its epoch ends, unless no key can be made. No valid frame for 1 ms takes the link down; 50
ms later its peer is lost, as is a member that leaves PLACE unanswered. A restart applies the port's shadowed fields.
That acknowledgements pass a full window is the model's choice (log 20). -/
def Obligations.AgconLinksTrainAuthenticateAndRekey : Prop :=
  ∀ (port : Fin 4) (f : FabFrame) (n : Nat) (lanes mask : Fin 16) (root : Fin 2) (good : Bool) (role : Fin 4)
    (peer : BitVec 16) (cause : Fin 4) (by_ : Req) (s : State),
    let p := port.val
    let x := fabPort s p
    let up := s.fab.en = true ∧ x.state = 3
    let set (g : FabPort → FabPort) (s : State) : State := modFabPort s p g
    (¬ up → ∀ i ∈ [Instr.idle port f, .key port f, .linkAck port f n, .linkNak port f n, .credit port f],
      exec i s = .next s) ∧
    (up → counterOk x f = false → ∀ i ∈ [Instr.idle port f, .key port f, .linkAck port f n, .linkNak port f n, .credit port f],
      exec i s = .next (linkNak (fabCount (fabCount s 0x204 1) 0x20C 1) p)) ∧
    (Arrives s p f →
      (∀ k, f.type = k → exec (.idle port f) s = .next (accepted s p k f) ∧
        exec (.key port f) s = .next (set (fun x => { x with rxKey := true }) (accepted s p k f))) ∧
      exec (.linkAck port f n) s = .next (takeLinkAck (accepted s p 0x04 f) p n) ∧
      (let u := takeLinkAck (accepted s p 0x04 f) p n
       ((fabPort u p).resends < 8 → exec (.linkNak port f n) s = .next (resendFrom u p n)) ∧
       (8 ≤ (fabPort u p).resends → exec (.linkNak port f n) s = .next (linkRestart u p))) ∧
      (let u := accepted s p 0x02 f
       (f.dest = u.fab.addr → exec (.credit port f) s = .next u) ∧
       (f.dest ≠ u.fab.addr → exec (.credit port f) s = .next (fabSend u { f with type := 0x02 })))) ∧
    (∀ r d, f.dest = s.fab.addr → f.creditReturn ≠ 0 → f.type = 0x01 →
      s.routes.find? (fun r => r.1 / 16 == f.creditQueue && r.2.dest == f.src) = some (r, d) →
      giveCredits s f = { s with routes := SMap.set s.routes r { d with credits := min d.total (d.credits + f.creditReturn) } }) ∧
    (let rest := x.unacked.filter fun f => decide (n ≤ f.counter)
     let kept := set (fun x => { x with unacked := rest, resends := if rest.length < x.unacked.length then 0 else x.resends }) s
     (x.rekey = none → x.waiting = [] → takeLinkAck s p n = kept) ∧
     (∀ k, x.rekey = some k → n ≤ k → takeLinkAck s p n = kept) ∧
     (∀ k, x.rekey = some k → k < n → takeLinkAck s p n = newEpoch kept p)) ∧
    (x.waiting = [] → newEpoch s p = fabCount (set (fun x => { x with
      epoch := x.epoch + 1, txNext := 0, unacked := [], resends := 0, rekey := none, epochAt := s.tick }) s) 0x218 1) ∧
    (let fs := (x.unacked.filter fun f => decide (n ≤ f.counter)).map fun f => { f with retrans := true }
     let t := resendFrom s p n
     t.fab.wire = (fs.map fun f => (p, f)).reverse ++ s.fab.wire ∧ (SMap.wf s.fab.ports = true → fabPort t p =
       { x with resends := x.resends + 1 })) ∧
    (let t := linkUp s p peer.toNat
     let again := x.unacked.filter (fun f => f.type != 0x04 && f.type != 0x03 && f.type != 0x11) ++ x.waiting
     let plain (f : FabFrame) : FabFrame := { f with epoch := 0, counter := 0, retrans := false }
     (fabPort t p).state = 3 ∧ (fabPort t p).peer = peer.toNat ∧ (fabPort t p).epoch = 1 ∧ (fabPort t p).rxEpoch = 1 ∧
       (fabPort t p).rxNext = 0 ∧ (fabPort t p).rekey = none ∧ (fabPort t p).downAt = none ∧
       (again.length ≤ 64 → (fabPort t p).unacked.map plain = again.map plain ∧
         ∀ (i : Nat) (g : FabFrame), (fabPort t p).unacked[i]? = some g → g.epoch = 1 ∧ g.counter = i)) ∧
    (let off := s.fab.en = false ∨ fabRole s p = 0 ∨ x.faulty = true ∨ 1 < x.state
     (off → exec (.agconLinkTrained port lanes) s = .next s) ∧
     (¬ off → lanes.val ≠ 15 → exec (.agconLinkTrained port lanes) s =
       .next (tokenLost (set (fun x => { x with state := 0, lanes := lanes.val }) s) p)) ∧
     (¬ off → Answers (.agconLinkTrained port 15) s fun t => (fabPort t p).state = 2 ∧ (fabPort t p).lanes = 15 ∧
       t.fab.wire = (p, { type := 0x10, src := s.fab.addr }) :: s.fab.wire)) ∧
    (s.fab.en = false ∨ x.state ≠ 2 → exec (.auth port root good role peer) s = .next s) ∧
    (s.fab.en = true → x.state = 2 →
      let u := fabCount s 0x204 1
      let badCable := rolesOk (fabRole s p) role.val = false ∨
        (fabRole s p = 3 ∧ peer.toNat ≠ 0 ∧ s.fab.addr ≠ 0 ∧ segOf peer.toNat = segOf s.fab.addr)
      (good = false ∨ rootLive s root.val = false → exec (.auth port root good role peer) s = .next (tokenLost (raiseEvent
        (logAppend (fabCount (set (fun x => { x with state := 5 }) u) 0x210 1) 0x0C 0 [2]) 0x0205 0xFFFF peer.toNat) p)) ∧
      (good = true → rootLive s root.val = true → badCable →
        exec (.auth port root good role peer) s = .next (tokenLost (cablingFault u p) p)) ∧
      (good = true → rootLive s root.val = true → ¬ badCable →
        exec (.auth port root good role peer) s = .next (portReady (linkUp u p peer.toNat) p))) ∧
    (let ends := 2 ^ 40 ≤ x.txNext ∨ x.epochAt + 3600 * ticksPerSecond ≤ s.tick
     let key := x.state = 3 ∧ ends ∧ x.rekey = none ∧ s.sec.trngFail = false
     (¬ key → exec (.agconRekey port) s = .next s) ∧
     (key → Answers (.agconRekey port) s fun t => (fabPort t p).rekey = some x.txNext ∧
       t.fab.wire = (p, { type := 0x11, src := s.fab.addr, epoch := x.epoch, counter := x.txNext }) :: s.fab.wire)) ∧
    (x.state = 0 ∨ x.state = 5 → exec (.agconLinkDown port) s = .next s) ∧
    (x.state ≠ 0 → x.state ≠ 5 → exec (.agconLinkDown port) s = .next (tokenLost (set (fun x => { x with
      state := 0, lanes := 0, epoch := 0, rekey := none, downAt := x.downAt.or (some s.tick) }) s) p)) ∧
    (isKeeper by_ = false → exec (.agconPortRestart by_ mask) s = .next { s with resp := .busError }) ∧
    (isKeeper by_ = true → exec (.agconPortRestart by_ mask) s =
      .next { ([0, 1, 2, 3].filter fun p => bitOf mask.val p).foldl (fun s p => linkRestart s p) s with resp := .ok }) ∧
    (let u := rboundary s (fabPortCfg p)
     linkRestart s p = modFabPort u p fun x => { x with
       state := if fabRole u p = 0 ∨ x.faulty = true then 0 else 1
       lanes := 0
       epoch := 0
       rekey := none
       rxKey := false
       downAt := x.downAt.or (some s.tick) }) ∧
    (x.state ≠ 3 → exec (.agconFrameRejected port cause) s = .next s) ∧
    (x.state = 3 → exec (.agconFrameRejected port cause) s =
      .next (linkNak (fabCount (fabCount s 0x204 1) (if cause.val = 2 then 0x210 else 0x20C) 1) p)) ∧
    (let m := 112 + p
     let mine := mbxFull s.mbx m = true ∧ mbxReceiver s.mbx m = 0x41 + p
     (¬ mine → exec (.fabricControlSend port f) s = .next s) ∧
     (mine → exec (.fabricControlSend port f) s =
       .next (linkSend { mbxClear s m with resp := .data (mbxWord s.mbx m 7) } p f))) ∧
    (x.downAt.all (fun t => decide (s.tick < t + 50 * ticksPerMs)) = true → exec (.peerLost port) s = .next s) ∧
    (x.downAt.any (fun t => decide (t + 50 * ticksPerMs ≤ s.tick)) = true →
      exec (.peerLost port) s = .next (drainOwn (loseMember s x.peer))) ∧
    (let asked := SMap.get? s.fab.asked peer.toNat
     (asked.all (fun t => decide (s.tick < t + 50 * ticksPerMs)) = true → exec (.placeTimeout peer) s = .next s) ∧
     (asked.any (fun t => decide (t + 50 * ticksPerMs ≤ s.tick)) = true → exec (.placeTimeout peer) s = .next (drainOwn
       (loseMember { s with fab := { s.fab with asked := SMap.erase s.fab.asked peer.toNat } } peer.toNat)))) ∧
    (∀ a, a = 0 ∨ a = s.fab.addr ∨ (lightOf s a).all (fun e => e.state != 1 && e.state != 2) = true → loseMember s a = s)

/-- Mooring hands out addresses, conflicts are refused and told, and floods, light lists, routes and losses act once (R10,
R362, R371, R372, R373, R374, R375, R380, R386, R459). MOOR_START acts on a segment head alone: it takes station 1 and
its token goes on. A MOOR token elsewhere than on the upstream port raises its event; a head refuses it (HEAD_CONFLICT);
station 17 and up is refused, its port too (MOOR_OVERFLOW); another address than the device has is refused
(MOOR_MISMATCH); else the device takes it. MOOR_END at the head closes the mooring and floods SEG_REPORT; an unmoored
device ignores it. PROBE gives a cross port its peer, refusing one of the own segment. A flooded frame acts once by
origin and generation. The fabric head alone builds the list, of the next generation, from the reports. LIGHT installs
list, generation and routes, after the retired keys are zeroed. MEMBER_LOST raises its event for a member. ROUTE_COMMIT
applies the shadow of every FAB_ROUTE; the path to a station follows R375. -/
def Obligations.MooringGivesAddressesAndTheLightListIsInstalled : Prop :=
  ∀ (port : Fin 4) (f : FabFrame) (seg : Fin 16) (stn : Fin 256) (entries : List LightEntry) (closed : Bool)
    (addr : BitVec 16) (origin gen dest : Nat) (m : LightMsg) (by_ : Req) (s : State),
    let p := port.val
    let up := s.fab.en = true ∧ (fabPort s p).state = 3
    let u := ctlPost (accepted s p f.type f) p
    let a := fabAddrOf seg.val stn.val
    let head := rbit s hostCtrl 5
    let rows : List Instr := [.moor port f seg stn, .moorEnd port f entries closed, .probe port f addr,
      .segReport port f origin gen entries, .light port f m, .memberLost port f origin gen addr]
    (¬ up → ∀ i ∈ rows, exec i s = .next s) ∧
    (up → counterOk (fabPort s p) f = false → ∀ i ∈ rows,
      exec i s = .next (linkNak (fabCount (fabCount s 0x204 1) 0x20C 1) p)) ∧
    (Arrives s p f →
      exec (.moor port f seg stn) s = .next (takeMoor u p f seg.val stn.val) ∧
      (u.fab.addr = 0 → exec (.moorEnd port f entries closed) s = .next u) ∧
      (u.fab.addr ≠ 0 → exec (.moorEnd port f entries closed) s = .next (endMoor u entries closed)) ∧
      (fabRole u p ≠ 3 → exec (.probe port f addr) s = .next u) ∧
      (fabRole u p = 3 →
        (u.fab.addr ≠ 0 → segOf addr.toNat = segOf u.fab.addr → exec (.probe port f addr) s = .next (cablingFault u p)) ∧
        (u.fab.addr = 0 ∨ segOf addr.toNat ≠ segOf u.fab.addr →
          exec (.probe port f addr) s = .next (modFabPort u p fun x => { x with peer := addr.toNat }))) ∧
      (let seen (type : Nat) : Bool := u.fab.seen.contains (type, origin, gen)
       let on (type : Nat) : State := floodFrom { u with fab := { u.fab with seen := (type, origin, gen) :: u.fab.seen } } (some p)
         { f with type := type }
       let lost := (lightOf (on 0x25) addr.toNat).any fun e => e.state == 1 || e.state == 2
       (seen 0x23 = true → exec (.segReport port f origin gen entries) s = .next u) ∧
       (seen 0x23 = false → exec (.segReport port f origin gen entries) s = .next (keepReport (on 0x23) (segOf origin) entries)) ∧
       (seen 0x25 = true → exec (.memberLost port f origin gen addr) s = .next u) ∧
       (seen 0x25 = false → lost = false → exec (.memberLost port f origin gen addr) s = .next (on 0x25)) ∧
       (seen 0x25 = false → lost = true → exec (.memberLost port f origin gen addr) s =
         .next (drainOwn (markLost (raiseEvent (on 0x25) 0x0201 0xFFFF addr.toNat) addr.toNat))) ∧
       (m.origin = origin → m.gen = gen → seen 0x24 = true → exec (.light port f m) s = .next u) ∧
       (m.origin = origin → m.gen = gen → seen 0x24 = false →
         exec (.light port f m) s = .next (if (on 0x24).fab.addr = 0 then on 0x24 else drainOwn (tryMoves
           ((newlyLost (on 0x24).fab.light m.entries).foldl recover (installLight (on 0x24) m))))))) ∧
    (fabRole s p ≠ 1 → takeMoor s p f seg.val stn.val = raiseEvent s 0x0206 0xFFFF f.src) ∧
    (fabRole s p = 1 →
      (head = true → takeMoor s p f seg.val stn.val = raiseEvent s 0x0203 0xFFFF f.src) ∧
      (head = false → 17 ≤ stn.val → takeMoor s p f seg.val stn.val =
        raiseEvent (modFabPort s p fun x => { x with state := 5 }) 0x0202 0xFFFF a) ∧
      (head = false → stn.val < 17 → s.fab.addr ≠ 0 → s.fab.addr ≠ a →
        takeMoor s p f seg.val stn.val = raiseEvent s 0x0204 0xFFFF a) ∧
      (head = false → stn.val < 17 → (s.fab.addr = 0 ∨ s.fab.addr = a) →
        takeMoor s p f seg.val stn.val = extendToken (probeAll { s with fab := { s.fab with addr := a } }) ∧
        (takeMoor s p f seg.val stn.val).fab.addr = a)) ∧
    (fabPortOf s 2 = none → extendToken s = endMoor s [] false) ∧
    (∀ q, fabPortOf s 2 = some q →
      ((fabPort s q).state = 3 → (fabPort s q).peer = fabAddrOf (segOf s.fab.addr) 1 → stnOf s.fab.addr ≠ 1 →
        extendToken s = endMoor s [] true) ∧
      ((fabPort s q).state = 3 → (fabPort s q).peer ≠ fabAddrOf (segOf s.fab.addr) 1 ∨ stnOf s.fab.addr = 1 →
        extendToken s = linkSend { s with fab := { s.fab with token := false } } q
          { type := 0x20, src := s.fab.addr, payload := [BitVec.ofNat 8 (segOf s.fab.addr), BitVec.ofNat 8 (stnOf s.fab.addr + 1)] }) ∧
      ((fabPort s q).state = 5 → extendToken s = endMoor s [] false)) ∧
    (isKeeper by_ = false → ∀ i ∈ [Instr.moorStart by_, .routeCommit by_], exec i s = .next { s with resp := .busError }) ∧
    (isKeeper by_ = true →
      (head = false → exec (.moorStart by_) s = .next { s with resp := .ok }) ∧
      (head = true → Answers (.moorStart by_) s fun t => t.fab.addr = fabAddrOf s.fab.segment 1 ∧ t.resp = .ok) ∧
      exec (.routeCommit by_) s = .next { (span 0 16).foldl (fun s k => rboundary s (fabRouteReg k)) s with resp := .ok }) ∧
    (fabricHead s = false ∨ s.fab.reports = [] → exec .lightBuild s = .next s) ∧
    (fabricHead s = true → s.fab.reports ≠ [] → Answers .lightBuild s fun t =>
      t.fab.lightGen = s.fab.lightGen + 1 ∧ t.fab.lightValid = true ∧ t.fab.reports = [] ∧
      ∀ e ∈ s.fab.reports.flatMap Prod.snd, (SMap.get? t.fab.light (lightIx e.address)).isSome = true) ∧
    (let t := installLight s m
     t.fab.light = m.entries ∧ t.fab.lightGen = m.gen ∧ t.fab.lightValid = true ∧ t.secStore.retired = m.retired ∧
       (SMap.wf s.sec.slots = true → ∀ k id, id ∈ m.retired → (SMap.get? t.sec.slots k).all (fun x => x.keyId != id || decide (16 ≤ k)) = true)) ∧
    (segOf dest = segOf s.fab.addr → segClosed s.fab.light (segOf s.fab.addr) = false →
      nextPort s dest = fabPortOf s (if stnOf s.fab.addr < stnOf dest then 2 else 1)) ∧
    (segOf dest = segOf s.fab.addr → segClosed s.fab.light (segOf s.fab.addr) = true →
      let n := stationsOf s.fab.light (segOf s.fab.addr)
      stnOf dest ≤ n → stnOf s.fab.addr ≤ n →
        let down := (stnOf dest + n - stnOf s.fab.addr) % n
        nextPort s dest = fabPortOf s (if down ≤ n - down then 2 else 1))

/-- DATA, RERUN, PLACE, MOVE and KEY_RETIRE frames act at their destination, are delivered once, and go on elsewhere (R171,
R368, R370, R375, R377, R378, R461, assumption logs 34 and 39). A routed frame that arrives for another member goes on,
a system DATA or MOVE tile only if its check agrees, else its source is asked to send again. At its destination a DATA
or MOVE frame under a generation that is not held is discarded and counted in FAB_STALE_KEY; one whose check fails
discards what came in of its message and sends RERUN; a second copy of a delivered message is discarded and counted;
frames join in order and the last queues the message for LRECV with its data whole. A message enters the list of
delivered ones exactly then. PLACE, KEY_RETIRE and their answers mark the member as answering and act; control frames
are posted to Keeper first. What these messages hold (log 34) and that a discarded frame's credit returns at once (log
39) are the model's choice. -/
def Obligations.RoutedFramesActAtTheirDestinationAndGoOnElsewhere : Prop :=
  ∀ (port : Fin 4) (f : FabFrame) (tenant : Fin 9) (gen : Option Nat) (phase : Nat) (s : State),
    let p := port.val
    let up := s.fab.en = true ∧ (fabPort s p).state = 3
    let typed (k : Nat) : FabFrame := { f with type := k }
    let retire (m : FabMsg) : FabFrame := { f with type := 0x32, msg := some m }
    let rows : List (Instr × Nat × Bool × (State → State)) :=
      [(.data port f, 0x01, false, fun t => takeData t (typed 0x01)), (.move port f, 0x31, false, fun t => takeMove t (typed 0x31)),
       (.rerun port f, 0x26, true, fun t => takeRerun t (typed 0x26)), (.place port f, 0x30, true, fun t => takeMsg t (typed 0x30)),
       (.keyRetire port f tenant gen, 0x32, true, fun t => takeMsg t (retire (.retire tenant.val gen))),
       (.keyRetireAck port f tenant gen phase, 0x32, true, fun t => takeMsg t (retire (.retireAck tenant.val gen phase)))]
    let ask := fabSend s { type := 0x26, dest := f.src, src := s.fab.addr, srcQueue := f.srcQueue, destQueue := f.destQueue,
                           frames := f.frames, job := if f.type = 0x31 then 0xFFFFFFFF else f.job, command := f.command,
                           sendIx := f.sendIx }
    (¬ up → ∀ r ∈ rows, exec r.1 s = .next s) ∧
    (up → counterOk (fabPort s p) f = false → ∀ r ∈ rows,
      exec r.1 s = .next (linkNak (fabCount (fabCount s 0x204 1) 0x20C 1) p)) ∧
    (Arrives s p f → ∀ r ∈ rows,
      let u := accepted s p r.2.1 f
      (f.dest = u.fab.addr → exec r.1 s = .next (drainOwn (r.2.2.2 (if r.2.2.1 then ctlPost u p else u)))) ∧
      (f.dest ≠ u.fab.addr →
        (r.2.1 = 0x01 ∨ r.2.1 = 0x31 → exec r.1 s = .next
          (if f.part = 0 ∧ frameGood f = false then askRerun u (typed r.2.1) else fabSend u (typed r.2.1))) ∧
        (r.2.1 = 0x26 ∨ r.2.1 = 0x30 → exec r.1 s = .next (fabSend u (typed r.2.1))))) ∧
    (Arrives s p f → f.dest ≠ (accepted s p 0x32 f).fab.addr →
      exec (.keyRetire port f tenant gen) s = .next (fabSend (accepted s p 0x32 f) (retire (.retire tenant.val gen))) ∧
      exec (.keyRetireAck port f tenant gen phase) s =
        .next (fabSend (accepted s p 0x32 f) (retire (.retireAck tenant.val gen phase)))) ∧
    (frameGood f = true ↔ 16 ≤ f.payload.length ∧ leNat (f.payload.take 4) = (crc32c (f.payload.drop 16)).toNat ∧
      leNat ((f.payload.drop 4).take 2) = f.payload.length - 16) ∧
    askRerun s f = ask ∧
    (keyHeld s f.part f.gen = false → takeData s f = fabCount s 0x214 1 ∧ takeMove s f = fabCount s 0x214 1) ∧
    (keyHeld s f.part f.gen = true → frameGood f = false →
      takeData s f = askRerun (returnCredits (dropPart s f) f 1) f ∧ takeMove s f = ask) ∧
    (keyHeld s f.part f.gen = true → frameGood f = true →
      (wasSeen s f = true → takeData s f = returnCredits (fabCount s 0x21C 1) f 1) ∧
      (wasSeen s f = false → queueAt s f.destQueue = none → takeData s f = s) ∧
      (∀ q, wasSeen s f = false → queueAt s f.destQueue = some q →
        (q.part ≠ f.part → takeData s f = s) ∧
        (q.part = f.part → takeData s f = noteFrame (joinFrame s f) f.src f.job f.destQueue)) ∧
      (∀ t, f.move = some t → takeMove s f = moveTile s f.src f.part t)) ∧
    (let got := (partOf s f).elim 0 PartMsg.got
     let data := ((partOf s f).elim [] fun m => m.msg.data) ++ f.payload.drop 16
     let t := joinFrame s f
     (f.frameIx < got → t = returnCredits (fabCount s 0x21C 1) f 1) ∧ (got < f.frameIx → t = s) ∧
     (f.frameIx = got → got + 1 < f.frames → t.inMsgs = s.inMsgs ∧ t.fab.seenMsgs = s.fab.seenMsgs ∧
       ∃ m ∈ t.fab.partMsgs, m.got = got + 1 ∧ m.msg.data = data) ∧
     (f.frameIx = got → f.frames ≤ got + 1 → (∃ m, t.inMsgs = s.inMsgs ++ [m] ∧ m.data = data ∧
         (partOf s f = none → m.src = f.src ∧ m.queue = f.destQueue ∧ m.tag = f.tag)) ∧
       t.fab.seenMsgs = s.fab.seenMsgs ++ [{ src := f.src, job := f.job, command := f.command, sendIx := f.sendIx, queue := f.destQueue }] ∧
       wasSeen t f = true)) ∧
    (∀ m, f.msg = some m → takeMsg s f = placeMsg { s with fab := { s.fab with asked := SMap.erase s.fab.asked f.src } } f.src m)

/-- The OSPI controller: GO, window reads, a command's end and its timeout (R19, R20, R548, R549, assumption log 31).
PERI_OSPI_GO by Keeper starts a command of the given length; while one runs, or above 256, nothing starts (the model's
choice, log 31). A window read by Keeper or SEC of an aligned word answers it, or waits while a command runs, and waits
are answered in order when it ends; others and unaligned ones get a bus error. A command that ends stops busy, puts its
read data into the buffer from byte 0 if it reads, and leaves in the flash what JESD251 makes it; a time-out sets err.
Without a running command both do nothing. Outside the flash window no byte of memory changes. -/
def Obligations.TheFlashControllerRunsCommandsAndAnswersReads : Prop :=
  ∀ (by_ : Req) (v : Word) (off : BitVec 28) (data : List Byte) (ch : List (Nat × Byte)) (s : State),
    let o := s.peri.ospi
    let n := bits v.toNat 8 0
    let set (x : Ospi) : State := { s with peri := { s.peri with ospi := x } }
    let word_ : State := { s with resp := .data (word (Memory.le s.mem (flashWindow + off.toNat) 4)) }
    let reader := isKeeper by_ = true ∨ by_ = .sec
    (isKeeper by_ = false → exec (.periOspiGo by_ v) s = .next { s with resp := .busError }) ∧
    (isKeeper by_ = true →
      (o.busy = true ∨ 256 < n → exec (.periOspiGo by_ v) s = .next { s with resp := .ok }) ∧
      (o.busy = false → n ≤ 256 → exec (.periOspiGo by_ v) s = .next { set { o with busy := true, len := n } with resp := .ok })) ∧
    (¬ reader ∨ off.toNat % 4 ≠ 0 → exec (.ospiWindowRead by_ off) s = .next { s with resp := .busError }) ∧
    (reader → off.toNat % 4 = 0 →
      (o.busy = false → exec (.ospiWindowRead by_ off) s = .next word_) ∧
      (o.busy = true → exec (.ospiWindowRead by_ off) s =
        .next (set { o with waits := o.waits ++ [{ by_ := by_, addr := flashWindow + off.toNat }] }))) ∧
    (o.busy = false → exec (.ospiCommandDone data ch) s = .next s ∧ exec .ospiCommandTimeout s = .next s) ∧
    (o.busy = true →
      (Answers .ospiCommandTimeout s fun t => t.peri.ospi = { o with busy := false, err := true, waits := [] } ∧ t.mem = s.mem ∧
        (o.waits = [] → t = set { o with busy := false, err := true }) ∧
        (∀ r w, o.waits = r ++ [w] → t.resp = .data (word (Memory.le s.mem w.addr 4)))) ∧
      (Answers (.ospiCommandDone data ch) s fun t =>
        t.peri.ospi = { o with busy := false, buf := t.peri.ospi.buf, waits := [] } ∧
        (bits o.cmd.toNat 15 14 ≠ 2 → t.peri.ospi.buf = o.buf) ∧
        (bits o.cmd.toNat 15 14 = 2 → SMap.wf o.buf = true → ∀ k, SMap.getD t.peri.ospi.buf k 0 =
          if k < o.len ∧ k < data.length then data.getD k 0 else SMap.getD o.buf k 0) ∧
        (∀ r w, o.waits = r ++ [w] → t.resp = .data (word (Memory.le t.mem w.addr 4))) ∧
        (Memory.wf s.mem = true → ∀ a, a < flashWindow ∨ flashWindow + 0x10000000 ≤ a →
          Memory.read t.mem a = Memory.read s.mem a) ∧
        (Memory.wf s.mem = true → ∀ k b, ch = [(k, b)] → k < 0x10000000 → Memory.read t.mem (flashWindow + k) = b)))

/-- I2C and SPI transfers and FIFOs, GPIO interrupts and the UART console (R19, R20, R548, R550, R551, R552, assumption log
31). Writes and reads of these registers are Keeper's; others get a bus error. A command with go starts a transfer, I2C
after a held bus with a repeated start, SPI under its chip select; while one runs the write changes nothing (log 31).
Its end sets done, interrupts Keeper, moves the bytes between FIFO and bus, and keeps the bus (stop 0) or the chip
select (hold 1); a stretch over 25 ms ends with a stop and sets timeout; without a running transfer nothing happens.
FIFOs are first in, first out, of 32 and 64 bytes; a full one takes no byte and an empty I2C FIFO reads 0 (log 31), an
empty SPI or UART FIFO a free byte. A pin's level enters PERI_GPIO_IN; a match of its type sets its bit and interrupts
where enabled. The UART, while enabled, sends from its FIFO in order and sets overrun where a byte finds 64 waiting. -/
def Obligations.SerialBusesPinsAndTheConsoleMoveTheirBytes : Prop :=
  ∀ (by_ : Req) (b : Fin 4) (c2 : Fin 2) (v : Word) (x : Byte) (sent : Nat) (data : List Byte) (nack lost level : Bool)
    (pin : Fin 16) (s : State),
    let c := i2cOf s b.val
    let d := spiOf s c2.val
    let pr := s.peri
    let ok (t : State) : Host.Outcome State Fault Refusal := .next { t with resp := .ok }
    let fields := { c with cmd := v &&& 0x73FF001F }
    let sfields := { d with hold := bitOf v.toNat 8, len := bits v.toNat 5 0 }
    let n := bits c.cmd.toNat 4 0 + 1
    let moved := if bitOf c.cmd.toNat 30 then { c with rx := (c.rx ++ data.take n).take 32 } else { c with tx := c.tx.drop (min sent n) }
    let ended (i : I2c) : Host.Outcome State Fault Refusal :=
      .next { modI2c s b.val fun _ => { i with busy := false, done := true, repeated := false } with irqs := .i2c b.val :: s.irqs }
    let m := min (d.len + 1) d.tx.length
    let k := pin.val
    let was := bitOf pr.gpioIn k
    let type := bits pr.gpioType (2 * k + 1) (2 * k)
    let seen := { s with peri := { pr with gpioIn := setBits pr.gpioIn k k (b2n level) } }
    let hit := bitOf pr.gpioEn k = true ∧ ((type = 0 ∧ was = false ∧ level = true) ∨ (type = 1 ∧ was = true ∧ level = false) ∨
      (type = 2 ∧ was ≠ level) ∨ (type = 3 ∧ level = false))
    let on := bitOf pr.uartCfg.toNat 16 = true
    (isKeeper by_ = false → ∀ i ∈ [Instr.i2cTransfer by_ b v, .i2cFifoWrite by_ b x, .i2cFifoRead by_ b, .spiTransfer by_ c2 v,
      .spiFifoWrite by_ c2 x, .spiFifoRead by_ c2, .uartDataWrite by_ x, .uartDataRead by_],
      exec i s = .next { s with resp := .busError }) ∧
    (isKeeper by_ = true →
      (c.busy = true → exec (.i2cTransfer by_ b v) s = ok (modI2c s b.val id)) ∧
      (c.busy = false → bitOf v.toNat 31 = false → exec (.i2cTransfer by_ b v) s = ok (modI2c s b.val fun _ => fields)) ∧
      (c.busy = false → bitOf v.toNat 31 = true →
        exec (.i2cTransfer by_ b v) s = ok (modI2c s b.val fun _ => { fields with busy := true, repeated := c.held })) ∧
      exec (.i2cFifoWrite by_ b x) s = ok (modI2c s b.val fun _ =>
        { c with tx := if c.tx.length < 32 then c.tx ++ [x] else c.tx.take 32 }) ∧
      exec (.i2cFifoRead by_ b) s = .next { modI2c s b.val fun _ => { c with rx := c.rx.drop 1 } with
        resp := .data (word (c.rx.headD 0).toNat) } ∧
      (d.busy = true → exec (.spiTransfer by_ c2 v) s = ok (modSpi s c2.val id)) ∧
      (d.busy = false → bitOf v.toNat 31 = false → exec (.spiTransfer by_ c2 v) s = ok (modSpi s c2.val fun _ => sfields)) ∧
      (d.busy = false → bitOf v.toNat 31 = true → exec (.spiTransfer by_ c2 v) s =
        ok (modSpi s c2.val fun _ => { sfields with busy := true, cs := some (bits d.cfg.toNat 1 0) })) ∧
      exec (.spiFifoWrite by_ c2 x) s = ok (modSpi s c2.val fun _ =>
        { d with tx := if d.tx.length < 64 then d.tx ++ [x] else d.tx.take 64 }) ∧
      (∃ w, exec (.spiFifoRead by_ c2) s = .next { modSpi s c2.val fun _ => { d with rx := d.rx.drop 1 } with
          freeCtr := s.freeCtr + 1, resp := .data w } ∧
        (∀ y r, d.rx = y :: r → w = word y.toNat) ∧ w.toNat < 256) ∧
      exec (.uartDataWrite by_ x) s = ok { s with peri := { pr with
        uartTx := if pr.uartTx.length < 64 then pr.uartTx ++ [x] else pr.uartTx.take 64 } } ∧
      (∃ w, exec (.uartDataRead by_) s = .next { s with
          peri := { pr with uartRx := pr.uartRx.drop 1 }, freeCtr := s.freeCtr + 1, resp := .data w } ∧
        (∀ y r, pr.uartRx = y :: r → w = word y.toNat) ∧ w.toNat < 256)) ∧
    (c.busy = false → exec (.i2cTransferDone b sent data nack lost) s = .next s ∧
      exec (.i2cStretchTimeout b sent data) s = .next s) ∧
    (c.busy = true →
      exec (.i2cTransferDone b sent data nack lost) s = ended { moved with
        nack := c.nack || nack, arbLost := c.arbLost || lost, held := !bitOf c.cmd.toNat 29 && !lost } ∧
      exec (.i2cStretchTimeout b sent data) s = ended { moved with timeout := true, held := false }) ∧
    (d.busy = false → exec (.spiTransferDone c2 data) s = .next s) ∧
    (d.busy = true → exec (.spiTransferDone c2 data) s = .next { modSpi s c2.val fun _ => { d with
        busy := false
        done := true
        tx := d.tx.drop m
        rx := (d.rx ++ data.take m).take 64
        cs := if d.hold then d.cs else none } with irqs := .spi c2.val :: s.irqs }) ∧
    (¬ hit → exec (.gpioInterrupt pin level) s = .next seen) ∧
    (hit → exec (.gpioInterrupt pin level) s = .next { seen with
      peri := { seen.peri with gpioIrq := pr.gpioIrq ||| 2 ^ k }, irqs := .gpio k :: s.irqs }) ∧
    (¬ on → exec (.uartRxByte x) s = .next s ∧ exec .uartTxByteDone s = .next s) ∧
    (on →
      (pr.uartRx.length < 64 → exec (.uartRxByte x) s = .next { s with peri := { pr with uartRx := pr.uartRx ++ [x] } }) ∧
      (64 ≤ pr.uartRx.length → exec (.uartRxByte x) s = .next { s with peri := { pr with uartOverrun := true } }) ∧
      (pr.uartTx = [] → exec .uartTxByteDone s = .next s) ∧
      (∀ y r, pr.uartTx = y :: r → exec .uartTxByteDone s =
        .next { s with peri := { pr with uartTx := r, uartSent := y :: pr.uartSent } }))

/-- From every state whose memory is in canonical form, a step, a device tick included, leads to one (R1, R19, R439, R440,
R505, assumption logs 4 and 13). The invariant holds of the next state of every step that starts where it holds,
whatever waits in the queue, and a step takes just the front command off the queue. Also fuses only blow, and neither a
logbook sequence number nor a free value's number comes back. -/
def Obligations.EveryStepKeepsTheCanonicalForm : Prop :=
  ∀ s t : State, step s = .next t →
    (Inv s → Inv t) ∧ t.pending = s.pending.tail ∧ FusesGrow s.otp t.otp ∧ s.log.next ≤ t.log.next ∧ s.freeCtr ≤ t.freeCtr

/-- The state after reset has an empty queue, canonical memory, and stays so over a step (R392, assumption log 4).
State.reset has no command waiting and its memory lists nothing; the invariant holds of it. -/
def Obligations.ResetMeetsTheInvariant : Prop :=
  Inv State.reset ∧ State.reset.pending = [] ∧ State.reset.mem = [] ∧ ∃ t, step State.reset = .next t ∧ Inv t

/-- What reset leaves in the registers whose tables give a reset value (R31, R322, R323, R392, R418, R419, R421, R436, R437,
R467, R549, R550). After reset the main domain is held in reset, the mode is BUOY with cause AON reset, nothing is
recorded, gate and candidate are closed and the DSP is in reset; AON_RING_CFG, AON_RING_SIZE, AON_CH_TRIM, SCHED_CTRL,
CAM_PORT_CFG, PERI_OSPI_CFG, PERI_I2C_CMD, PERI_SPI_CFG read as their tables say; every camera buffer is free; SEC's
entropy source runs; no core runs and no event waits. -/
def Obligations.ResetLeavesTheTabledValues : Prop :=
  let s := State.reset
  s.power.mainReset = true ∧ s.power.mainEn = false ∧ s.aon.mode = .buoy ∧ s.aon.target = .buoy ∧ s.aon.busy = false ∧
  s.aon.cause = 5 ∧ s.aon.run = false ∧ s.aon.gateOpen = false ∧ s.aon.candOpen = false ∧ s.aon.dspReset = true ∧
  s.aon.ringCfg = 0x10 ∧ s.aon.ringSize = 0x04000000 ∧ s.aon.pdm0 = 0 ∧ s.aon.pdm1 = 0 ∧
  (∀ c : Fin 16, SMap.getD s.aon.trim c.val 0x4000 = 0x4000) ∧
  rget s (schedRegBase + 4) = 0x0A01 ∧ rget s (schedRegBase + 0x4000) = 0x06000000 ∧ rget s (schedRegBase + 0x4004) = 0x0180 ∧
  (∀ p : Fin 4, rget s (camPortCfg p.val) = 0xE40A) ∧ rget s (rasRegBase + 4) = 3 ∧
  s.peri.ospi.cfg = 0x03000090 ∧ (∀ b : Fin 4, (i2cOf s b.val).cmd = 0x20000000) ∧ (∀ b : Fin 2, (spiOf s b.val).cfg = 0x0B00) ∧
  (∀ x : Fin 16, (ctxOf s x.val).free = 0xFFFF ∧ (ctxOf s x.val).en = false) ∧ s.cam.irq = true ∧ s.sec.trngEn = true ∧
  s.sec.trngFail = false ∧ (∀ n : Fin 32, issuing (coreOf s n.val) = false) ∧ s.runs = [] ∧ s.events = [] ∧ s.irqs = [] ∧
  s.log.recs = []

/-- Every well-formed command answers a next state in every state; only a Kuner word of another row is refused (R71, R99,
R128). For every command and state: a well-formed command answers a next state; one that is not well formed is refused
by the name illFormed; no command ends in a fault, and none is refused in any other way. -/
def Obligations.EveryWellFormedCommandAnswers : Prop :=
  ∀ (i : Instr) (s : State),
    (i.wellFormed = true → ∃ t, exec i s = .next t ∧ t.pending = s.pending) ∧
    (i.wellFormed = false → exec i s = .refused .illFormed) ∧
    (∀ f, exec i s ≠ .fault f) ∧
    (∀ r, exec i s = .refused r → r = .illFormed) ∧
    (i.kuner = none → ∃ t, exec i s = .next t)

/-- No command and no reset takes the device back in its life cycle, un-revokes a root or restores the device secret (R438,
R439, R440, R447, R449). Over every command that answers a next state: the life-cycle state stays or moves on (FIELD and
SERVICE alternate), RETIRED stays, a revoked root stays revoked, a destroyed device secret stays destroyed, and a
programmed root digest stays. Resets change no life-cycle state. -/
def Obligations.TheLifeCycleNeverGoesBack : Prop :=
  ∀ (i : Instr) (s t : State), exec i s = .next t →
    lifeRank (lifeCycle s) ≤ lifeRank (lifeCycle t) ∧ (lifeCycle s = 4 → lifeCycle t = 4) ∧
    (∀ k, rootRevoked s k = true → rootRevoked t k = true) ∧ (∀ k d, rootDigest s k = some d → rootDigest t k = some d) ∧
    (s.otp.deviceSecret = false → t.otp.deviceSecret = false) ∧
    (i ∈ [Instr.aonReset, .mainPgRise, .mainPgFall, .mainPgTimeout, .mainEnRetry, .porstNAssert, .porstNRelease, .bootWatchdog] →
      lifeCycle t = lifeCycle s ∧ (∀ c < 4, SMap.getD s.otp.rollback c 0 = SMap.getD t.otp.rollback c 0))

/-- Device memory and sparse maps read back what was written, change nothing else, and are one list per content (R19,
assumption log 4). On canonical memory: a byte written reads back and every other byte is as before; bytes written in a
row read back in their order; a cleared range reads as nothing written and the rest as before; each operation keeps the
canonical form; and two canonical memories that read alike are the same list. A sparse map reads back what was set,
without any premise, and other keys as before. -/
def Obligations.MemoryReadsBackWhatWasWritten : Prop :=
  (∀ (m : Memory) (a c : Nat) (b : Byte) (bs : List Byte) (lo hi : Nat), Memory.wf m = true →
    Memory.read (Memory.write m a b) a = b ∧ (c ≠ a → Memory.read (Memory.write m a b) c = Memory.read m c) ∧
    Memory.readBytes (Memory.writeBytes m a bs) a bs.length = bs ∧
    (c < a ∨ a + bs.length ≤ c → Memory.read (Memory.writeBytes m a bs) c = Memory.read m c) ∧
    Memory.read (Memory.clear m lo hi) c = (if lo ≤ c ∧ c < hi then unlistedByte else Memory.read m c) ∧
    Memory.wf (Memory.write m a b) = true ∧ Memory.wf (Memory.writeBytes m a bs) = true ∧ Memory.wf (Memory.clear m lo hi) = true) ∧
  (∀ m n : Memory, Memory.wf m = true → Memory.wf n = true → (∀ a, Memory.read m a = Memory.read n a) → m = n) ∧
  (∀ (m : SMap Nat) (k j v : Nat), SMap.get? (SMap.set m k v) k = some v ∧
    (j ≠ k → SMap.get? (SMap.set m k v) j = SMap.get? m j))
end

