-- ==== Sys2Proof/Laws/Exec.lean ====
section
/-! SUPPORT. Sys2Proof/Laws/Exec.lean: which meaning exec calls for each command, so that no proof unfolds the dispatch. -/

namespace Sys2Proof.Machine

@[simp] theorem exec_registerWrite (by_ : Req) (addr : BitVec 48) (v : Word) (s : State) : exec (.registerWrite by_ addr v) s = execRegisterWrite by_ addr v s := rfl
@[simp] theorem exec_mailboxWordWrite (by_ : Req) (m : Fin 128) (w : Fin 7) (v : Word) (s : State) : exec (.mailboxWordWrite by_ m w v) s = execMailboxWordWrite by_ m w v s := rfl
@[simp] theorem exec_mailboxPost (by_ : Req) (m : Fin 128) (v : Word) (s : State) : exec (.mailboxPost by_ m v) s = execMailboxPost by_ m v s := rfl
@[simp] theorem exec_mailboxTake (by_ : Req) (m : Fin 128) (s : State) : exec (.mailboxTake by_ m) s = execMailboxTake by_ m s := rfl
@[simp] theorem exec_heldMessagePost (by_ : Req) (s : State) : exec (.heldMessagePost by_) s = execHeldMessagePost by_ s := rfl
@[simp] theorem exec_mbxMaskLock (by_ : Req) (ix : Fin 4) (v : Word) (s : State) : exec (.mbxMaskLock by_ ix v) s = execMbxMaskLock by_ ix v s := rfl
@[simp] theorem exec_commandDispatch (core : Fin 32) (s : State) : exec (.commandDispatch core) s = execCommandDispatch core s := rfl
@[simp] theorem exec_queueEntryStart (core : Fin 32) (q : QueueName) (s : State) : exec (.queueEntryStart core q) s = execQueueEntryStart core q s := rfl
@[simp] theorem exec_dmaTransferComplete (core : Fin 32) (engine : Fin 2) (s : State) : exec (.dmaTransferComplete core engine) s = execDmaTransferComplete core engine s := rfl
@[simp] theorem exec_watchdog (core : Fin 32) (s : State) : exec (.watchdog core) s = execWatchdog core s := rfl
@[simp] theorem exec_coreStop (by_ : Req) (core : Fin 32) (s : State) : exec (.coreStop by_ core) s = execCoreStop by_ core s := rfl
@[simp] theorem exec_coreClearResident (by_ : Req) (core : Fin 32) (s : State) : exec (.coreClearResident by_ core) s = execCoreClearResident by_ core s := rfl
@[simp] theorem exec_coreBistHold (by_ : Req) (core : Fin 32) (v : Bool) (s : State) : exec (.coreBistHold by_ core v) s = execCoreBistHold by_ core v s := rfl
@[simp] theorem exec_coreRetire (by_ : Req) (core : Fin 32) (s : State) : exec (.coreRetire by_ core) s = execCoreRetire by_ core s := rfl
@[simp] theorem exec_coreEnable (by_ : Req) (core : Fin 32) (v : Bool) (s : State) : exec (.coreEnable by_ core v) s = execCoreEnable by_ core v s := rfl
@[simp] theorem exec_coreArrayDutyWrite (by_ : Req) (core : Fin 32) (v : Word) (s : State) : exec (.coreArrayDutyWrite by_ core v) s = execCoreArrayDutyWrite by_ core v s := rfl
@[simp] theorem exec_stopIdleTimeout (core : Fin 32) (s : State) : exec (.stopIdleTimeout core) s = execStopIdleTimeout core s := rfl
@[simp] theorem exec_add (core : Fin 32) (w : BitVec 64) (s : State) : exec (.add core w) s = execAdd core w s := rfl
@[simp] theorem exec_sub (core : Fin 32) (w : BitVec 64) (s : State) : exec (.sub core w) s = execSub core w s := rfl
@[simp] theorem exec_and (core : Fin 32) (w : BitVec 64) (s : State) : exec (.and core w) s = execAnd core w s := rfl
@[simp] theorem exec_or (core : Fin 32) (w : BitVec 64) (s : State) : exec (.or core w) s = execOr core w s := rfl
@[simp] theorem exec_xor (core : Fin 32) (w : BitVec 64) (s : State) : exec (.xor core w) s = execXor core w s := rfl
@[simp] theorem exec_sll (core : Fin 32) (w : BitVec 64) (s : State) : exec (.sll core w) s = execSll core w s := rfl
@[simp] theorem exec_srl (core : Fin 32) (w : BitVec 64) (s : State) : exec (.srl core w) s = execSrl core w s := rfl
@[simp] theorem exec_sra (core : Fin 32) (w : BitVec 64) (s : State) : exec (.sra core w) s = execSra core w s := rfl
@[simp] theorem exec_mul (core : Fin 32) (w : BitVec 64) (s : State) : exec (.mul core w) s = execMul core w s := rfl
@[simp] theorem exec_mulh (core : Fin 32) (w : BitVec 64) (s : State) : exec (.mulh core w) s = execMulh core w s := rfl
@[simp] theorem exec_mulhu (core : Fin 32) (w : BitVec 64) (s : State) : exec (.mulhu core w) s = execMulhu core w s := rfl
@[simp] theorem exec_min (core : Fin 32) (w : BitVec 64) (s : State) : exec (.min core w) s = execMin core w s := rfl
@[simp] theorem exec_max (core : Fin 32) (w : BitVec 64) (s : State) : exec (.max core w) s = execMax core w s := rfl
@[simp] theorem exec_minu (core : Fin 32) (w : BitVec 64) (s : State) : exec (.minu core w) s = execMinu core w s := rfl
@[simp] theorem exec_maxu (core : Fin 32) (w : BitVec 64) (s : State) : exec (.maxu core w) s = execMaxu core w s := rfl
@[simp] theorem exec_cmpEq (core : Fin 32) (w : BitVec 64) (s : State) : exec (.cmpEq core w) s = execCmpEq core w s := rfl
@[simp] theorem exec_cmpNe (core : Fin 32) (w : BitVec 64) (s : State) : exec (.cmpNe core w) s = execCmpNe core w s := rfl
@[simp] theorem exec_cmpLt (core : Fin 32) (w : BitVec 64) (s : State) : exec (.cmpLt core w) s = execCmpLt core w s := rfl
@[simp] theorem exec_cmpGe (core : Fin 32) (w : BitVec 64) (s : State) : exec (.cmpGe core w) s = execCmpGe core w s := rfl
@[simp] theorem exec_cmpLtu (core : Fin 32) (w : BitVec 64) (s : State) : exec (.cmpLtu core w) s = execCmpLtu core w s := rfl
@[simp] theorem exec_cmpGeu (core : Fin 32) (w : BitVec 64) (s : State) : exec (.cmpGeu core w) s = execCmpGeu core w s := rfl
@[simp] theorem exec_pand (core : Fin 32) (w : BitVec 64) (s : State) : exec (.pand core w) s = execPand core w s := rfl
@[simp] theorem exec_por (core : Fin 32) (w : BitVec 64) (s : State) : exec (.por core w) s = execPor core w s := rfl
@[simp] theorem exec_pxor (core : Fin 32) (w : BitVec 64) (s : State) : exec (.pxor core w) s = execPxor core w s := rfl
@[simp] theorem exec_pandn (core : Fin 32) (w : BitVec 64) (s : State) : exec (.pandn core w) s = execPandn core w s := rfl
@[simp] theorem exec_pnot (core : Fin 32) (w : BitVec 64) (s : State) : exec (.pnot core w) s = execPnot core w s := rfl
@[simp] theorem exec_sld (core : Fin 32) (w : BitVec 64) (s : State) : exec (.sld core w) s = execSld core w s := rfl
@[simp] theorem exec_sst (core : Fin 32) (w : BitVec 64) (s : State) : exec (.sst core w) s = execSst core w s := rfl
@[simp] theorem exec_sget (core : Fin 32) (w : BitVec 64) (s : State) : exec (.sget core w) s = execSget core w s := rfl
@[simp] theorem exec_b (core : Fin 32) (w : BitVec 64) (s : State) : exec (.b core w) s = execB core w s := rfl
@[simp] theorem exec_bl (core : Fin 32) (w : BitVec 64) (s : State) : exec (.bl core w) s = execBl core w s := rfl
@[simp] theorem exec_br (core : Fin 32) (w : BitVec 64) (s : State) : exec (.br core w) s = execBr core w s := rfl
@[simp] theorem exec_brl (core : Fin 32) (w : BitVec 64) (s : State) : exec (.brl core w) s = execBrl core w s := rfl
@[simp] theorem exec_loop (core : Fin 32) (w : BitVec 64) (s : State) : exec (.loop core w) s = execLoop core w s := rfl
@[simp] theorem exec_tld (core : Fin 32) (w : BitVec 64) (s : State) : exec (.tld core w) s = execTld core w s := rfl
@[simp] theorem exec_tst (core : Fin 32) (w : BitVec 64) (s : State) : exec (.tst core w) s = execTst core w s := rfl
@[simp] theorem exec_tpf (core : Fin 32) (w : BitVec 64) (s : State) : exec (.tpf core w) s = execTpf core w s := rfl
@[simp] theorem exec_tchk (core : Fin 32) (w : BitVec 64) (s : State) : exec (.tchk core w) s = execTchk core w s := rfl
@[simp] theorem exec_tdescLoad (core : Fin 32) (w : BitVec 64) (s : State) : exec (.tdescLoad core w) s = execTdescLoad core w s := rfl
@[simp] theorem exec_tdescCopy (core : Fin 32) (w : BitVec 64) (s : State) : exec (.tdescCopy core w) s = execTdescCopy core w s := rfl
@[simp] theorem exec_tdescSet (core : Fin 32) (w : BitVec 64) (s : State) : exec (.tdescSet core w) s = execTdescSet core w s := rfl
@[simp] theorem exec_tdescAdd (core : Fin 32) (w : BitVec 64) (s : State) : exec (.tdescAdd core w) s = execTdescAdd core w s := rfl
@[simp] theorem exec_tdescSeti (core : Fin 32) (w : BitVec 64) (s : State) : exec (.tdescSeti core w) s = execTdescSeti core w s := rfl
@[simp] theorem exec_mwl (core : Fin 32) (w : BitVec 64) (s : State) : exec (.mwl core w) s = execMwl core w s := rfl
@[simp] theorem exec_mma (core : Fin 32) (w : BitVec 64) (s : State) : exec (.mma core w) s = execMma core w s := rfl
@[simp] theorem exec_mmas (core : Fin 32) (w : BitVec 64) (s : State) : exec (.mmas core w) s = execMmas core w s := rfl
@[simp] theorem exec_maccZero (core : Fin 32) (w : BitVec 64) (s : State) : exec (.maccZero core w) s = execMaccZero core w s := rfl
@[simp] theorem exec_maccRes (core : Fin 32) (w : BitVec 64) (s : State) : exec (.maccRes core w) s = execMaccRes core w s := rfl
@[simp] theorem exec_maccUnres (core : Fin 32) (w : BitVec 64) (s : State) : exec (.maccUnres core w) s = execMaccUnres core w s := rfl
@[simp] theorem exec_maccCkpt (core : Fin 32) (w : BitVec 64) (s : State) : exec (.maccCkpt core w) s = execMaccCkpt core w s := rfl
@[simp] theorem exec_maccRestore (core : Fin 32) (w : BitVec 64) (s : State) : exec (.maccRestore core w) s = execMaccRestore core w s := rfl
@[simp] theorem exec_kapp (core : Fin 32) (w : BitVec 64) (s : State) : exec (.kapp core w) s = execKapp core w s := rfl
@[simp] theorem exec_kseal (core : Fin 32) (w : BitVec 64) (s : State) : exec (.kseal core w) s = execKseal core w s := rfl
@[simp] theorem exec_kmap (core : Fin 32) (w : BitVec 64) (s : State) : exec (.kmap core w) s = execKmap core w s := rfl
@[simp] theorem exec_kmapPrefetch (core : Fin 32) (w : BitVec 64) (s : State) : exec (.kmapPrefetch core w) s = execKmapPrefetch core w s := rfl
@[simp] theorem exec_eopMov (core : Fin 32) (w : BitVec 64) (s : State) : exec (.eopMov core w) s = execEopMov core w s := rfl
@[simp] theorem exec_eopAdd (core : Fin 32) (w : BitVec 64) (s : State) : exec (.eopAdd core w) s = execEopAdd core w s := rfl
@[simp] theorem exec_eopSub (core : Fin 32) (w : BitVec 64) (s : State) : exec (.eopSub core w) s = execEopSub core w s := rfl
@[simp] theorem exec_eopMul (core : Fin 32) (w : BitVec 64) (s : State) : exec (.eopMul core w) s = execEopMul core w s := rfl
@[simp] theorem exec_eopMin (core : Fin 32) (w : BitVec 64) (s : State) : exec (.eopMin core w) s = execEopMin core w s := rfl
@[simp] theorem exec_eopMax (core : Fin 32) (w : BitVec 64) (s : State) : exec (.eopMax core w) s = execEopMax core w s := rfl
@[simp] theorem exec_eopAbs (core : Fin 32) (w : BitVec 64) (s : State) : exec (.eopAbs core w) s = execEopAbs core w s := rfl
@[simp] theorem exec_eopNeg (core : Fin 32) (w : BitVec 64) (s : State) : exec (.eopNeg core w) s = execEopNeg core w s := rfl
@[simp] theorem exec_eopRelu (core : Fin 32) (w : BitVec 64) (s : State) : exec (.eopRelu core w) s = execEopRelu core w s := rfl
@[simp] theorem exec_eopExp2 (core : Fin 32) (w : BitVec 64) (s : State) : exec (.eopExp2 core w) s = execEopExp2 core w s := rfl
@[simp] theorem exec_eopExp (core : Fin 32) (w : BitVec 64) (s : State) : exec (.eopExp core w) s = execEopExp core w s := rfl
@[simp] theorem exec_eopLog2 (core : Fin 32) (w : BitVec 64) (s : State) : exec (.eopLog2 core w) s = execEopLog2 core w s := rfl
@[simp] theorem exec_eopRcp (core : Fin 32) (w : BitVec 64) (s : State) : exec (.eopRcp core w) s = execEopRcp core w s := rfl
@[simp] theorem exec_eopRsqrt (core : Fin 32) (w : BitVec 64) (s : State) : exec (.eopRsqrt core w) s = execEopRsqrt core w s := rfl
@[simp] theorem exec_eopSqrt (core : Fin 32) (w : BitVec 64) (s : State) : exec (.eopSqrt core w) s = execEopSqrt core w s := rfl
@[simp] theorem exec_eopSigmoid (core : Fin 32) (w : BitVec 64) (s : State) : exec (.eopSigmoid core w) s = execEopSigmoid core w s := rfl
@[simp] theorem exec_eopTanh (core : Fin 32) (w : BitVec 64) (s : State) : exec (.eopTanh core w) s = execEopTanh core w s := rfl
@[simp] theorem exec_eopSilu (core : Fin 32) (w : BitVec 64) (s : State) : exec (.eopSilu core w) s = execEopSilu core w s := rfl
@[simp] theorem exec_eopGelu (core : Fin 32) (w : BitVec 64) (s : State) : exec (.eopGelu core w) s = execEopGelu core w s := rfl
@[simp] theorem exec_eopAnd (core : Fin 32) (w : BitVec 64) (s : State) : exec (.eopAnd core w) s = execEopAnd core w s := rfl
@[simp] theorem exec_eopOr (core : Fin 32) (w : BitVec 64) (s : State) : exec (.eopOr core w) s = execEopOr core w s := rfl
@[simp] theorem exec_eopXor (core : Fin 32) (w : BitVec 64) (s : State) : exec (.eopXor core w) s = execEopXor core w s := rfl
@[simp] theorem exec_eopShl (core : Fin 32) (w : BitVec 64) (s : State) : exec (.eopShl core w) s = execEopShl core w s := rfl
@[simp] theorem exec_eopSra (core : Fin 32) (w : BitVec 64) (s : State) : exec (.eopSra core w) s = execEopSra core w s := rfl
@[simp] theorem exec_erq (core : Fin 32) (w : BitVec 64) (s : State) : exec (.erq core w) s = execErq core w s := rfl
@[simp] theorem exec_esmx (core : Fin 32) (w : BitVec 64) (s : State) : exec (.esmx core w) s = execEsmx core w s := rfl
@[simp] theorem exec_enormRms (core : Fin 32) (w : BitVec 64) (s : State) : exec (.enormRms core w) s = execEnormRms core w s := rfl
@[simp] theorem exec_enormLayer (core : Fin 32) (w : BitVec 64) (s : State) : exec (.enormLayer core w) s = execEnormLayer core w s := rfl
@[simp] theorem exec_egateLstm (core : Fin 32) (w : BitVec 64) (s : State) : exec (.egateLstm core w) s = execEgateLstm core w s := rfl
@[simp] theorem exec_egateGru (core : Fin 32) (w : BitVec 64) (s : State) : exec (.egateGru core w) s = execEgateGru core w s := rfl
@[simp] theorem exec_egateDssm (core : Fin 32) (w : BitVec 64) (s : State) : exec (.egateDssm core w) s = execEgateDssm core w s := rfl
@[simp] theorem exec_escanScan (core : Fin 32) (w : BitVec 64) (s : State) : exec (.escanScan core w) s = execEscanScan core w s := rfl
@[simp] theorem exec_escanCombine (core : Fin 32) (w : BitVec 64) (s : State) : exec (.escanCombine core w) s = execEscanCombine core w s := rfl
@[simp] theorem exec_eredSum (core : Fin 32) (w : BitVec 64) (s : State) : exec (.eredSum core w) s = execEredSum core w s := rfl
@[simp] theorem exec_eredMax (core : Fin 32) (w : BitVec 64) (s : State) : exec (.eredMax core w) s = execEredMax core w s := rfl
@[simp] theorem exec_eredMin (core : Fin 32) (w : BitVec 64) (s : State) : exec (.eredMin core w) s = execEredMin core w s := rfl
@[simp] theorem exec_eredArgmax (core : Fin 32) (w : BitVec 64) (s : State) : exec (.eredArgmax core w) s = execEredArgmax core w s := rfl
@[simp] theorem exec_eredSumsq (core : Fin 32) (w : BitVec 64) (s : State) : exec (.eredSumsq core w) s = execEredSumsq core w s := rfl
@[simp] theorem exec_wquantRange (core : Fin 32) (w : BitVec 64) (s : State) : exec (.wquantRange core w) s = execWquantRange core w s := rfl
@[simp] theorem exec_wquantEncode (core : Fin 32) (w : BitVec 64) (s : State) : exec (.wquantEncode core w) s = execWquantEncode core w s := rfl
@[simp] theorem exec_swait (core : Fin 32) (w : BitVec 64) (s : State) : exec (.swait core w) s = execSwait core w s := rfl
@[simp] theorem exec_swaitPeek (core : Fin 32) (w : BitVec 64) (s : State) : exec (.swaitPeek core w) s = execSwaitPeek core w s := rfl
@[simp] theorem exec_swaitSatisfy (sem : Fin 1024) (s : State) : exec (.swaitSatisfy sem) s = execSwaitSatisfy sem s := rfl
@[simp] theorem exec_spost (core : Fin 32) (w : BitVec 64) (s : State) : exec (.spost core w) s = execSpost core w s := rfl
@[simp] theorem exec_fence (core : Fin 32) (w : BitVec 64) (s : State) : exec (.fence core w) s = execFence core w s := rfl
@[simp] theorem exec_endCmd (core : Fin 32) (w : BitVec 64) (s : State) : exec (.endCmd core w) s = execEnd core w s := rfl
@[simp] theorem exec_csend (core : Fin 32) (w : BitVec 64) (s : State) : exec (.csend core w) s = execCsend core w s := rfl
@[simp] theorem exec_crecv (core : Fin 32) (w : BitVec 64) (s : State) : exec (.crecv core w) s = execCrecv core w s := rfl
@[simp] theorem exec_streamPairTransfer (a : Fin 32) (b : Fin 32) (ch : Fin 8) (crcBad : Bool) (s : State) : exec (.streamPairTransfer a b ch crcBad) s = execStreamPairTransfer a b ch crcBad s := rfl
@[simp] theorem exec_lsend (core : Fin 32) (w : BitVec 64) (s : State) : exec (.lsend core w) s = execLsend core w s := rfl
@[simp] theorem exec_lrecv (core : Fin 32) (w : BitVec 64) (s : State) : exec (.lrecv core w) s = execLrecv core w s := rfl
@[simp] theorem exec_keeperEndReport (core : Fin 32) (outs : List Tile) (s : State) : exec (.keeperEndReport core outs) s = execKeeperEndReport core outs s := rfl
@[simp] theorem exec_scaleShift (model : Nat) (tensor : Fin 65536) (s : State) : exec (.scaleShift model tensor) s = execScaleShift model tensor s := rfl
@[simp] theorem exec_sessionReingest (session : Fin 65536) (s : State) : exec (.sessionReingest session) s = execSessionReingest session s := rfl
@[simp] theorem exec_jobAdmission (job : Nat) (s : State) : exec (.jobAdmission job) s = execJobAdmission job s := rfl
@[simp] theorem exec_rotationStart (p : Fin 9) (s : State) : exec (.rotationStart p) s = execRotationStart p s := rfl
@[simp] theorem exec_schedTableArm (by_ : Req) (p : Fin 9) (v : Word) (s : State) : exec (.schedTableArm by_ p v) s = execSchedTableArm by_ p v s := rfl
@[simp] theorem exec_sectorOpen (p : Fin 9) (ix : Fin 512) (s : State) : exec (.sectorOpen p ix) s = execSectorOpen p ix s := rfl
@[simp] theorem exec_sectorClose (p : Fin 9) (ix : Fin 512) (s : State) : exec (.sectorClose p ix) s = execSectorClose p ix s := rfl
@[simp] theorem exec_semWaitReport (core : Fin 32) (s : State) : exec (.semWaitReport core) s = execSemWaitReport core s := rfl
@[simp] theorem exec_telemetryInterval (principal : Fin 9) (s : State) : exec (.telemetryInterval principal) s = execTelemetryInterval principal s := rfl
@[simp] theorem exec_otuFill (core : Fin 32) (obj : Fin 65536) (s : State) : exec (.otuFill core obj) s = execOtuFill core obj s := rfl
@[simp] theorem exec_promotionDispatch (part : Fin 9) (s : State) : exec (.promotionDispatch part) s = execPromotionDispatch part s := rfl
@[simp] theorem exec_promotionComplete (item : Item) (reads : List DeepRead) (s : State) : exec (.promotionComplete item reads) s = execPromotionComplete item reads s := rfl
@[simp] theorem exec_demotionComplete (item : Item) (s : State) : exec (.demotionComplete item) s = execDemotionComplete item s := rfl
@[simp] theorem exec_deepCopyWriteComplete (item : Item) (s : State) : exec (.deepCopyWriteComplete item) s = execDeepCopyWriteComplete item s := rfl
@[simp] theorem exec_objectDelete (part : Fin 9) (obj : Fin 65536) (s : State) : exec (.objectDelete part obj) s = execObjectDelete part obj s := rfl
@[simp] theorem exec_pageWalkerPromote (session : Fin 65536) (s : State) : exec (.pageWalkerPromote session) s = execPageWalkerPromote session s := rfl
@[simp] theorem exec_otcInvalidate (by_ : Req) (s : State) : exec (.otcInvalidate by_) s = execOtcInvalidate by_ s := rfl
@[simp] theorem exec_promoPause (by_ : Req) (v : Bool) (s : State) : exec (.promoPause by_ v) s = execPromoPause by_ v s := rfl
@[simp] theorem exec_pcieCfgRead (by_ : Req) (s : State) : exec (.pcieCfgRead by_) s = execPcieCfgRead by_ s := rfl
@[simp] theorem exec_pcieCfgWrite (by_ : Req) (v : Word) (s : State) : exec (.pcieCfgWrite by_ v) s = execPcieCfgWrite by_ v s := rfl
@[simp] theorem exec_pcieRetrain (by_ : Req) (s : State) : exec (.pcieRetrain by_) s = execPcieRetrain by_ s := rfl
@[simp] theorem exec_pciePerst (by_ : Req) (v : Bool) (s : State) : exec (.pciePerst by_ v) s = execPciePerst by_ v s := rfl
@[simp] theorem exec_pcieEnable (by_ : Req) (v : Bool) (s : State) : exec (.pcieEnable by_ v) s = execPcieEnable by_ v s := rfl
@[simp] theorem exec_pcieMsixArrival (vector : Fin 32) (s : State) : exec (.pcieMsixArrival vector) s = execPcieMsixArrival vector s := rfl
@[simp] theorem exec_pcieInboundRequest (addr : BitVec 64) (len : Fin 4097) (wr : Option (List Byte)) (s : State) : exec (.pcieInboundRequest addr len wr) s = execPcieInboundRequest addr len wr s := rfl
@[simp] theorem exec_nvmeCommandComplete (id : Nat) (ok : Bool) (s : State) : exec (.nvmeCommandComplete id ok) s = execNvmeCommandComplete id ok s := rfl
@[simp] theorem exec_arpRequest (rx : HostRx) (s : State) : exec (.arpRequest rx) s = execArpRequest rx s := rfl
@[simp] theorem exec_ndSolicitation (rx : HostRx) (s : State) : exec (.ndSolicitation rx) s = execNdSolicitation rx s := rfl
@[simp] theorem exec_icmpEcho (rx : HostRx) (data : List Byte) (s : State) : exec (.icmpEcho rx data) s = execIcmpEcho rx data s := rfl
@[simp] theorem exec_hostLinkLoss (port : Fin 2) (s : State) : exec (.hostLinkLoss port) s = execHostLinkLoss port s := rfl
@[simp] theorem exec_hostLinkReturn (s : State) : exec (.hostLinkReturn) s = execHostLinkReturn s := rfl
@[simp] theorem exec_hostFailover (by_ : Req) (s : State) : exec (.hostFailover by_) s = execHostFailover by_ s := rfl
@[simp] theorem exec_hostPortRestart (by_ : Req) (port : Fin 2) (s : State) : exec (.hostPortRestart by_ port) s = execHostPortRestart by_ port s := rfl
@[simp] theorem exec_tc10SleepRequest (port : Fin 2) (s : State) : exec (.tc10SleepRequest port) s = execTc10SleepRequest port s := rfl
@[simp] theorem exec_tc10Wakeup (port : Fin 2) (s : State) : exec (.tc10Wakeup port) s = execTc10Wakeup port s := rfl
@[simp] theorem exec_mkaFrame (port : Fin 2) (principal : Fin 9) (valid : Bool) (up : Bool) (s : State) : exec (.mkaFrame port principal valid up) s = execMkaFrame port principal valid up s := rfl
@[simp] theorem exec_tctOpen (rx : HostRx) (hostSeq : Nat) (resume : Nat) (s : State) : exec (.tctOpen rx hostSeq resume) s = execTctOpen rx hostSeq resume s := rfl
@[simp] theorem exec_tctClose (rx : HostRx) (f : TctFrame) (s : State) : exec (.tctClose rx f) s = execTctClose rx f s := rfl
@[simp] theorem exec_tctRequestFrame (rx : HostRx) (f : TctFrame) (s : State) : exec (.tctRequestFrame rx f) s = execTctRequestFrame rx f s := rfl
@[simp] theorem exec_tctAck (rx : HostRx) (f : TctFrame) (s : State) : exec (.tctAck rx f) s = execTctAck rx f s := rfl
@[simp] theorem exec_tctTime (rx : HostRx) (f : TctFrame) (s : State) : exec (.tctTime rx f) s = execTctTime rx f s := rfl
@[simp] theorem exec_tctKeepalive (rx : HostRx) (f : TctFrame) (s : State) : exec (.tctKeepalive rx f) s = execTctKeepalive rx f s := rfl
@[simp] theorem exec_tctRetransmitTimeout (assoc : Nat) (s : State) : exec (.tctRetransmitTimeout assoc) s = execTctRetransmitTimeout assoc s := rfl
@[simp] theorem exec_keepaliveTimer (assoc : Nat) (s : State) : exec (.keepaliveTimer assoc) s = execKeepaliveTimer assoc s := rfl
@[simp] theorem exec_associationLost (assoc : Nat) (s : State) : exec (.associationLost assoc) s = execAssociationLost assoc s := rfl
@[simp] theorem exec_associationExpiry (assoc : Nat) (s : State) : exec (.associationExpiry assoc) s = execAssociationExpiry assoc s := rfl
@[simp] theorem exec_tctOutboundMessage (assoc : Nat) (type : Nat) (payload : List Byte) (s : State) : exec (.tctOutboundMessage assoc type payload) s = execTctOutboundMessage assoc type payload s := rfl
@[simp] theorem exec_loadModel (rq : Request) (head : List Byte) (s : State) : exec (.loadModel rq head) s = execLoadModel rq head s := rfl
@[simp] theorem exec_unloadModel (rq : Request) (s : State) : exec (.unloadModel rq) s = execUnloadModel rq s := rfl
@[simp] theorem exec_queueCreate (rq : Request) (s : State) : exec (.queueCreate rq) s = execQueueCreate rq s := rfl
@[simp] theorem exec_queueDestroy (rq : Request) (s : State) : exec (.queueDestroy rq) s = execQueueDestroy rq s := rfl
@[simp] theorem exec_queueSettings (rq : Request) (s : State) : exec (.queueSettings rq) s = execQueueSettings rq s := rfl
@[simp] theorem exec_scheduleSet (rq : Request) (s : State) : exec (.scheduleSet rq) s = execScheduleSet rq s := rfl
@[simp] theorem exec_loadData (rq : Request) (s : State) : exec (.loadData rq) s = execLoadData rq s := rfl
@[simp] theorem exec_loadImageTimeout (handle : Nat) (s : State) : exec (.loadImageTimeout handle) s = execLoadImageTimeout handle s := rfl
@[simp] theorem exec_storeImage (rq : Request) (head : List Byte) (s : State) : exec (.storeImage rq head) s = execStoreImage rq head s := rfl
@[simp] theorem exec_storeDelete (rq : Request) (s : State) : exec (.storeDelete rq) s = execStoreDelete rq s := rfl
@[simp] theorem exec_storeList (rq : Request) (s : State) : exec (.storeList rq) s = execStoreList rq s := rfl
@[simp] theorem exec_storeFormat (rq : Request) (s : State) : exec (.storeFormat rq) s = execStoreFormat rq s := rfl
@[simp] theorem exec_openSession (rq : Request) (s : State) : exec (.openSession rq) s = execOpenSession rq s := rfl
@[simp] theorem exec_closeSession (rq : Request) (s : State) : exec (.closeSession rq) s = execCloseSession rq s := rfl
@[simp] theorem exec_sessionSettings (rq : Request) (s : State) : exec (.sessionSettings rq) s = execSessionSettings rq s := rfl
@[simp] theorem exec_invoke (rq : Request) (s : State) : exec (.invoke rq) s = execInvoke rq s := rfl
@[simp] theorem exec_submitInput (rq : Request) (s : State) : exec (.submitInput rq) s = execSubmitInput rq s := rfl
@[simp] theorem exec_cancel (rq : Request) (s : State) : exec (.cancel rq) s = execCancel rq s := rfl
@[simp] theorem exec_queryHandle (rq : Request) (s : State) : exec (.queryHandle rq) s = execQueryHandle rq s := rfl
@[simp] theorem exec_readOutput (rq : Request) (s : State) : exec (.readOutput rq) s = execReadOutput rq s := rfl
@[simp] theorem exec_tenantCreate (rq : Request) (s : State) : exec (.tenantCreate rq) s = execTenantCreate rq s := rfl
@[simp] theorem exec_tenantRemove (rq : Request) (s : State) : exec (.tenantRemove rq) s = execTenantRemove rq s := rfl
@[simp] theorem exec_setMode (rq : Request) (s : State) : exec (.setMode rq) s = execSetMode rq s := rfl
@[simp] theorem exec_readRecords (rq : Request) (s : State) : exec (.readRecords rq) s = execReadRecords rq s := rfl
@[simp] theorem exec_calibrationWrite (rq : Request) (s : State) : exec (.calibrationWrite rq) s = execCalibrationWrite rq s := rfl
@[simp] theorem exec_calibrationErase (rq : Request) (s : State) : exec (.calibrationErase rq) s = execCalibrationErase rq s := rfl
@[simp] theorem exec_calibrationRead (rq : Request) (s : State) : exec (.calibrationRead rq) s = execCalibrationRead rq s := rfl
@[simp] theorem exec_attest (rq : Request) (s : State) : exec (.attest rq) s = execAttest rq s := rfl
@[simp] theorem exec_telemetrySet (rq : Request) (s : State) : exec (.telemetrySet rq) s = execTelemetrySet rq s := rfl
@[simp] theorem exec_fabricPlace (rq : Request) (s : State) : exec (.fabricPlace rq) s = execFabricPlace rq s := rfl
@[simp] theorem exec_memberLeave (rq : Request) (s : State) : exec (.memberLeave rq) s = execMemberLeave rq s := rfl
@[simp] theorem exec_updateInstall (rq : Request) (s : State) : exec (.updateInstall rq) s = execUpdateInstall rq s := rfl
@[simp] theorem exec_updateCommit (rq : Request) (s : State) : exec (.updateCommit rq) s = execUpdateCommit rq s := rfl
@[simp] theorem exec_updateRevert (rq : Request) (s : State) : exec (.updateRevert rq) s = execUpdateRevert rq s := rfl
@[simp] theorem exec_ispParameterUpdate (rq : Request) (s : State) : exec (.ispParameterUpdate rq) s = execIspParameterUpdate rq s := rfl
@[simp] theorem exec_modelSwitch (rq : Request) (s : State) : exec (.modelSwitch rq) s = execModelSwitch rq s := rfl
@[simp] theorem exec_tenantKeyRotation (rq : Request) (s : State) : exec (.tenantKeyRotation rq) s = execTenantKeyRotation rq s := rfl
@[simp] theorem exec_lifeCycleChange (rq : Request) (s : State) : exec (.lifeCycleChange rq) s = execLifeCycleChange rq s := rfl
@[simp] theorem exec_revokeRoot (rq : Request) (s : State) : exec (.revokeRoot rq) s = execRevokeRoot rq s := rfl
@[simp] theorem exec_provisionRootDigest (rq : Request) (s : State) : exec (.provisionRootDigest rq) s = execProvisionRootDigest rq s := rfl
@[simp] theorem exec_provisionDeviceKey (rq : Request) (s : State) : exec (.provisionDeviceKey rq) s = execProvisionDeviceKey rq s := rfl
@[simp] theorem exec_provisionCertificate (rq : Request) (s : State) : exec (.provisionCertificate rq) s = execProvisionCertificate rq s := rfl
@[simp] theorem exec_provisionSystemCak (rq : Request) (s : State) : exec (.provisionSystemCak rq) s = execProvisionSystemCak rq s := rfl
@[simp] theorem exec_bootStepClear (rq : Request) (s : State) : exec (.bootStepClear rq) s = execBootStepClear rq s := rfl
@[simp] theorem exec_retirementMapClear (rq : Request) (s : State) : exec (.retirementMapClear rq) s = execRetirementMapClear rq s := rfl
@[simp] theorem exec_updateAutoCommit (cls : Fin 4) (s : State) : exec (.updateAutoCommit cls) s = execUpdateAutoCommit cls s := rfl
@[simp] theorem exec_updateTrialExpiry (cls : Fin 4) (s : State) : exec (.updateTrialExpiry cls) s = execUpdateTrialExpiry cls s := rfl
@[simp] theorem exec_agconLinkTrained (port : Fin 4) (lanes : Fin 16) (s : State) : exec (.agconLinkTrained port lanes) s = execAgconLinkTrained port lanes s := rfl
@[simp] theorem exec_auth (port : Fin 4) (root : Fin 2) (ok : Bool) (role : Fin 4) (peer : BitVec 16) (s : State) : exec (.auth port root ok role peer) s = execAuth port root ok role peer s := rfl
@[simp] theorem exec_key (port : Fin 4) (f : FabFrame) (s : State) : exec (.key port f) s = execKey port f s := rfl
@[simp] theorem exec_agconRekey (port : Fin 4) (s : State) : exec (.agconRekey port) s = execAgconRekey port s := rfl
@[simp] theorem exec_data (port : Fin 4) (f : FabFrame) (s : State) : exec (.data port f) s = execData port f s := rfl
@[simp] theorem exec_credit (port : Fin 4) (f : FabFrame) (s : State) : exec (.credit port f) s = execCredit port f s := rfl
@[simp] theorem exec_idle (port : Fin 4) (f : FabFrame) (s : State) : exec (.idle port f) s = execIdle port f s := rfl
@[simp] theorem exec_linkAck (port : Fin 4) (f : FabFrame) (n : Nat) (s : State) : exec (.linkAck port f n) s = execLinkAck port f n s := rfl
@[simp] theorem exec_linkNak (port : Fin 4) (f : FabFrame) (n : Nat) (s : State) : exec (.linkNak port f n) s = execLinkNak port f n s := rfl
@[simp] theorem exec_agconLinkDown (port : Fin 4) (s : State) : exec (.agconLinkDown port) s = execAgconLinkDown port s := rfl
@[simp] theorem exec_peerLost (port : Fin 4) (s : State) : exec (.peerLost port) s = execPeerLost port s := rfl
@[simp] theorem exec_moor (port : Fin 4) (f : FabFrame) (seg : Fin 16) (stn : Fin 256) (s : State) : exec (.moor port f seg stn) s = execMoor port f seg stn s := rfl
@[simp] theorem exec_moorEnd (port : Fin 4) (f : FabFrame) (entries : List LightEntry) (closed : Bool) (s : State) : exec (.moorEnd port f entries closed) s = execMoorEnd port f entries closed s := rfl
@[simp] theorem exec_probe (port : Fin 4) (f : FabFrame) (addr : BitVec 16) (s : State) : exec (.probe port f addr) s = execProbe port f addr s := rfl
@[simp] theorem exec_segReport (port : Fin 4) (f : FabFrame) (origin : Nat) (gen : Nat) (entries : List LightEntry) (s : State) : exec (.segReport port f origin gen entries) s = execSegReport port f origin gen entries s := rfl
@[simp] theorem exec_lightBuild (s : State) : exec (.lightBuild) s = execLightBuild s := rfl
@[simp] theorem exec_light (port : Fin 4) (f : FabFrame) (m : LightMsg) (s : State) : exec (.light port f m) s = execLight port f m s := rfl
@[simp] theorem exec_memberLost (port : Fin 4) (f : FabFrame) (origin : Nat) (gen : Nat) (addr : BitVec 16) (s : State) : exec (.memberLost port f origin gen addr) s = execMemberLost port f origin gen addr s := rfl
@[simp] theorem exec_placeTimeout (member : BitVec 16) (s : State) : exec (.placeTimeout member) s = execPlaceTimeout member s := rfl
@[simp] theorem exec_rerun (port : Fin 4) (f : FabFrame) (s : State) : exec (.rerun port f) s = execRerun port f s := rfl
@[simp] theorem exec_place (port : Fin 4) (f : FabFrame) (s : State) : exec (.place port f) s = execPlace port f s := rfl
@[simp] theorem exec_move (port : Fin 4) (f : FabFrame) (s : State) : exec (.move port f) s = execMove port f s := rfl
@[simp] theorem exec_keyRetire (port : Fin 4) (f : FabFrame) (tenant : Fin 9) (gen : Option Nat) (s : State) : exec (.keyRetire port f tenant gen) s = execKeyRetire port f tenant gen s := rfl
@[simp] theorem exec_keyRetireAck (port : Fin 4) (f : FabFrame) (tenant : Fin 9) (gen : Option Nat) (phase : Nat) (s : State) : exec (.keyRetireAck port f tenant gen phase) s = execKeyRetireAck port f tenant gen phase s := rfl
@[simp] theorem exec_fabricControlSend (port : Fin 4) (f : FabFrame) (s : State) : exec (.fabricControlSend port f) s = execFabricControlSend port f s := rfl
@[simp] theorem exec_moorStart (by_ : Req) (s : State) : exec (.moorStart by_) s = execMoorStart by_ s := rfl
@[simp] theorem exec_routeCommit (by_ : Req) (s : State) : exec (.routeCommit by_) s = execRouteCommit by_ s := rfl
@[simp] theorem exec_agconPortRestart (by_ : Req) (mask : Fin 16) (s : State) : exec (.agconPortRestart by_ mask) s = execAgconPortRestart by_ mask s := rfl
@[simp] theorem exec_aonReset (s : State) : exec (.aonReset) s = execAonReset s := rfl
@[simp] theorem exec_ringFrameRecord (samples : List Int) (s : State) : exec (.ringFrameRecord samples) s = execRingFrameRecord samples s := rfl
@[simp] theorem exec_aonRunStart (by_ : Req) (s : State) : exec (.aonRunStart by_) s = execAonRunStart by_ s := rfl
@[simp] theorem exec_aonRunStop (by_ : Req) (s : State) : exec (.aonRunStop by_) s = execAonRunStop by_ s := rfl
@[simp] theorem exec_aonLatch (by_ : Req) (s : State) : exec (.aonLatch by_) s = execAonLatch by_ s := rfl
@[simp] theorem exec_dspResetAssert (by_ : Req) (s : State) : exec (.dspResetAssert by_) s = execDspResetAssert by_ s := rfl
@[simp] theorem exec_dspResetRelease (by_ : Req) (s : State) : exec (.dspResetRelease by_) s = execDspResetRelease by_ s := rfl
@[simp] theorem exec_aonConfigWrite (by_ : Req) (reg : AonReg) (v : Word) (s : State) : exec (.aonConfigWrite by_ reg v) s = execAonConfigWrite by_ reg v s := rfl
@[simp] theorem exec_ringGatedRead (by_ : Req) (off : Fin 0x600000) (n : Fin 4) (s : State) : exec (.ringGatedRead by_ off n) s = execRingGatedRead by_ off n s := rfl
@[simp] theorem exec_aonPosLowRead (by_ : Req) (r : Fin 7) (s : State) : exec (.aonPosLowRead by_ r) s = execAonPosLowRead by_ r s := rfl
@[simp] theorem exec_gateServiceOpen (by_ : Req) (s : State) : exec (.gateServiceOpen by_) s = execGateServiceOpen by_ s := rfl
@[simp] theorem exec_gateClose (by_ : Req) (s : State) : exec (.gateClose by_) s = execGateClose by_ s := rfl
@[simp] theorem exec_gateExpiry (s : State) : exec (.gateExpiry) s = execGateExpiry s := rfl
@[simp] theorem exec_candidateOpen (by_ : Req) (s : State) : exec (.candidateOpen by_) s = execCandidateOpen by_ s := rfl
@[simp] theorem exec_candidateClose (by_ : Req) (s : State) : exec (.candidateClose by_) s = execCandidateClose by_ s := rfl
@[simp] theorem exec_candidateExpiry (s : State) : exec (.candidateExpiry) s = execCandidateExpiry s := rfl
@[simp] theorem exec_wake (m : DspMsg) (s : State) : exec (.wake m) s = execWake m s := rfl
@[simp] theorem exec_event (m : DspMsg) (s : State) : exec (.event m) s = execEvent m s := rfl
@[simp] theorem exec_closed (m : DspMsg) (s : State) : exec (.closed m) s = execClosed m s := rfl
@[simp] theorem exec_wakeVerdict (number : BitVec 16) (confirmed : Bool) (s : State) : exec (.wakeVerdict number confirmed) s = execWakeVerdict number confirmed s := rfl
@[simp] theorem exec_dspPing (s : State) : exec (.dspPing) s = execDspPing s := rfl
@[simp] theorem exec_modeRequest (by_ : Req) (mode : Mode) (s : State) : exec (.modeRequest by_ mode) s = execModeRequest by_ mode s := rfl
@[simp] theorem exec_modeTransitionComplete (s : State) : exec (.modeTransitionComplete) s = execModeTransitionComplete s := rfl
@[simp] theorem exec_backgroundTrainingDone (s : State) : exec (.backgroundTrainingDone) s = execBackgroundTrainingDone s := rfl
@[simp] theorem exec_idleHoldExpiry (s : State) : exec (.idleHoldExpiry) s = execIdleHoldExpiry s := rfl
@[simp] theorem exec_deferredDownTimeout (s : State) : exec (.deferredDownTimeout) s = execDeferredDownTimeout s := rfl
@[simp] theorem exec_csiFrameStart (port : Fin 4) (vc : Fin 4) (hdr : Fin 3) (number : BitVec 16) (s : State) : exec (.csiFrameStart port vc hdr number) s = execCsiFrameStart port vc hdr number s := rfl
@[simp] theorem exec_csiFrameEnd (port : Fin 4) (vc : Fin 4) (hdr : Fin 3) (s : State) : exec (.csiFrameEnd port vc hdr) s = execCsiFrameEnd port vc hdr s := rfl
@[simp] theorem exec_csiLinePacket (port : Fin 4) (vc : Fin 4) (hdr : Fin 3) (dt : Fin 64) (px : List Nat) (crcBad : Bool) (full : Bool) (s : State) : exec (.csiLinePacket port vc hdr dt px crcBad full) s = execCsiLinePacket port vc hdr dt px crcBad full s := rfl
@[simp] theorem exec_csiShortPacketIgnored (port : Fin 4) (hdr : Fin 2) (s : State) : exec (.csiShortPacketIgnored port hdr) s = execCsiShortPacketIgnored port hdr s := rfl
@[simp] theorem exec_camFrameTimeout (ctx : Fin 16) (s : State) : exec (.camFrameTimeout ctx) s = execCamFrameTimeout ctx s := rfl
@[simp] theorem exec_camFrameDone (ctx : Fin 16) (s : State) : exec (.camFrameDone ctx) s = execCamFrameDone ctx s := rfl
@[simp] theorem exec_camBufferRelease (by_ : Req) (ctx : Fin 16) (mask : BitVec 16) (s : State) : exec (.camBufferRelease by_ ctx mask) s = execCamBufferRelease by_ ctx mask s := rfl
@[simp] theorem exec_camContextEnable (by_ : Req) (ctx : Fin 16) (v : Bool) (s : State) : exec (.camContextEnable by_ ctx v) s = execCamContextEnable by_ ctx v s := rfl
@[simp] theorem exec_camParamHold (by_ : Req) (ctx : Fin 16) (v : Bool) (s : State) : exec (.camParamHold by_ ctx v) s = execCamParamHold by_ ctx v s := rfl
@[simp] theorem exec_camLowRate (by_ : Req) (v : Bool) (s : State) : exec (.camLowRate by_ v) s = execCamLowRate by_ v s := rfl
@[simp] theorem exec_camPortEnable (by_ : Req) (port : Fin 4) (v : Bool) (s : State) : exec (.camPortEnable by_ port v) s = execCamPortEnable by_ port v s := rfl
@[simp] theorem exec_secZeroiseAll (by_ : Req) (s : State) : exec (.secZeroiseAll by_) s = execSecZeroiseAll by_ s := rfl
@[simp] theorem exec_secOwnerUnlock (by_ : Req) (v : Bool) (s : State) : exec (.secOwnerUnlock by_ v) s = execSecOwnerUnlock by_ v s := rfl
@[simp] theorem exec_secRequest (s : State) : exec (.secRequest) s = execSecRequest s := rfl
@[simp] theorem exec_secResult (s : State) : exec (.secResult) s = execSecResult s := rfl
@[simp] theorem exec_secRestart (header : List Byte) (s : State) : exec (.secRestart header) s = execSecRestart header s := rfl
@[simp] theorem exec_trngHealthFail (s : State) : exec (.trngHealthFail) s = execTrngHealthFail s := rfl
@[simp] theorem exec_tenantDrainComplete (tenant : Fin 9) (s : State) : exec (.tenantDrainComplete tenant) s = execTenantDrainComplete tenant s := rfl
@[simp] theorem exec_tenantScrubComplete (tenant : Fin 9) (s : State) : exec (.tenantScrubComplete tenant) s = execTenantScrubComplete tenant s := rfl
@[simp] theorem exec_quenchAckTimeout (tenant : Fin 9) (member : BitVec 16) (s : State) : exec (.quenchAckTimeout tenant member) s = execQuenchAckTimeout tenant member s := rfl
@[simp] theorem exec_keeperRestart (ok : Bool) (s : State) : exec (.keeperRestart ok) s = execKeeperRestart ok s := rfl
@[simp] theorem exec_alarmPath (cause : AlarmCause) (s : State) : exec (.alarmPath cause) s = execAlarmPath cause s := rfl
@[simp] theorem exec_alarmForce (by_ : Req) (v : Word) (s : State) : exec (.alarmForce by_ v) s = execAlarmForce by_ v s := rfl
@[simp] theorem exec_healthMonitorSample (s : State) : exec (.healthMonitorSample) s = execHealthMonitorSample s := rfl
@[simp] theorem exec_hbmPatrolScrub (corr uncorr : List Nat) (done : Nat) (s : State) : exec (.hbmPatrolScrub corr uncorr done) s = execHbmPatrolScrub corr uncorr done s := rfl
@[simp] theorem exec_deepPatrolScrub (item : Item) (reads : List DeepRead) (done : Nat) (s : State) : exec (.deepPatrolScrub item reads done) s = execDeepPatrolScrub item reads done s := rfl
@[simp] theorem exec_sramScrub (found : List (SramPlace × Bool)) (s : State) : exec (.sramScrub found) s = execSramScrub found s := rfl
@[simp] theorem exec_scrubLate (deep : Bool) (s : State) : exec (.scrubLate deep) s = execScrubLate deep s := rfl
@[simp] theorem exec_mramWearRemap (block : Fin 2048) (s : State) : exec (.mramWearRemap block) s = execMramWearRemap block s := rfl
@[simp] theorem exec_interfaceCalibration (ifc : Fin 10) (temp : Int) (s : State) : exec (.interfaceCalibration ifc temp) s = execInterfaceCalibration ifc temp s := rfl
@[simp] theorem exec_monitorRecalibration (trims : List (Nat × List Byte)) (s : State) : exec (.monitorRecalibration trims) s = execMonitorRecalibration trims s := rfl
@[simp] theorem exec_selftestSlice (slice : Slice) (vdd : Nat) (pass : Bool) (s : State) : exec (.selftestSlice slice vdd pass) s = execSelftestSlice slice vdd pass s := rfl
@[simp] theorem exec_selftestDeferRetry (slice : Slice) (vdd : Nat) (pass : Bool) (s : State) : exec (.selftestDeferRetry slice vdd pass) s = execSelftestDeferRetry slice vdd pass s := rfl
@[simp] theorem exec_coldStart (obs : StartObs) (s : State) : exec (.coldStart obs) s = execColdStart obs s := rfl
@[simp] theorem exec_memoryTrainingDone (hbm : Bool) (s : State) : exec (.memoryTrainingDone hbm) s = execMemoryTrainingDone hbm s := rfl
@[simp] theorem exec_bootWatchdog (s : State) : exec (.bootWatchdog) s = execBootWatchdog s := rfl
@[simp] theorem exec_warmStart (obs : StartObs) (s : State) : exec (.warmStart obs) s = execWarmStart obs s := rfl
@[simp] theorem exec_logbookDropSummary (s : State) : exec (.logbookDropSummary) s = execLogbookDropSummary s := rfl
@[simp] theorem exec_mainPgRise (s : State) : exec (.mainPgRise) s = execMainPgRise s := rfl
@[simp] theorem exec_mainPgFall (s : State) : exec (.mainPgFall) s = execMainPgFall s := rfl
@[simp] theorem exec_mainPgTimeout (s : State) : exec (.mainPgTimeout) s = execMainPgTimeout s := rfl
@[simp] theorem exec_mainEnRetry (s : State) : exec (.mainEnRetry) s = execMainEnRetry s := rfl
@[simp] theorem exec_porstNAssert (s : State) : exec (.porstNAssert) s = execPorstNAssert s := rfl
@[simp] theorem exec_porstNRelease (s : State) : exec (.porstNRelease) s = execPorstNRelease s := rfl
@[simp] theorem exec_throttleNChange (low : Bool) (s : State) : exec (.throttleNChange low) s = execThrottleNChange low s := rfl
@[simp] theorem exec_powerCapStep (p : Word) (temps : List Int) (s : State) : exec (.powerCapStep p temps) s = execPowerCapStep p temps s := rfl
@[simp] theorem exec_powerCapUnmet (s : State) : exec (.powerCapUnmet) s = execPowerCapUnmet s := rfl
@[simp] theorem exec_thermalTrip (s : State) : exec (.thermalTrip) s = execThermalTrip s := rfl
@[simp] theorem exec_thermalTripRelease (s : State) : exec (.thermalTripRelease) s = execThermalTripRelease s := rfl
@[simp] theorem exec_thermalTripTimeout (s : State) : exec (.thermalTripTimeout) s = execThermalTripTimeout s := rfl
@[simp] theorem exec_sysTickRead (by_ : Req) (s : State) : exec (.sysTickRead by_) s = execSysTickRead by_ s := rfl
@[simp] theorem exec_periOspiGo (by_ : Req) (v : Word) (s : State) : exec (.periOspiGo by_ v) s = execPeriOspiGo by_ v s := rfl
@[simp] theorem exec_ospiWindowRead (by_ : Req) (off : BitVec 28) (s : State) : exec (.ospiWindowRead by_ off) s = execOspiWindowRead by_ off s := rfl
@[simp] theorem exec_ospiCommandDone (data : List Byte) (ch : List (Nat × Byte)) (s : State) : exec (.ospiCommandDone data ch) s = execOspiCommandDone data ch s := rfl
@[simp] theorem exec_ospiCommandTimeout (s : State) : exec (.ospiCommandTimeout) s = execOspiCommandTimeout s := rfl
@[simp] theorem exec_i2cTransfer (by_ : Req) (b : Fin 4) (v : Word) (s : State) : exec (.i2cTransfer by_ b v) s = execI2cTransfer by_ b v s := rfl
@[simp] theorem exec_i2cTransferDone (b : Fin 4) (sent : Nat) (data : List Byte) (nack arbLost : Bool) (s : State) : exec (.i2cTransferDone b sent data nack arbLost) s = execI2cTransferDone b sent data nack arbLost s := rfl
@[simp] theorem exec_i2cStretchTimeout (b : Fin 4) (sent : Nat) (data : List Byte) (s : State) : exec (.i2cStretchTimeout b sent data) s = execI2cStretchTimeout b sent data s := rfl
@[simp] theorem exec_i2cFifoWrite (by_ : Req) (b : Fin 4) (v : Byte) (s : State) : exec (.i2cFifoWrite by_ b v) s = execI2cFifoWrite by_ b v s := rfl
@[simp] theorem exec_i2cFifoRead (by_ : Req) (b : Fin 4) (s : State) : exec (.i2cFifoRead by_ b) s = execI2cFifoRead by_ b s := rfl
@[simp] theorem exec_spiTransfer (by_ : Req) (b : Fin 2) (v : Word) (s : State) : exec (.spiTransfer by_ b v) s = execSpiTransfer by_ b v s := rfl
@[simp] theorem exec_spiTransferDone (b : Fin 2) (data : List Byte) (s : State) : exec (.spiTransferDone b data) s = execSpiTransferDone b data s := rfl
@[simp] theorem exec_spiFifoWrite (by_ : Req) (b : Fin 2) (v : Byte) (s : State) : exec (.spiFifoWrite by_ b v) s = execSpiFifoWrite by_ b v s := rfl
@[simp] theorem exec_spiFifoRead (by_ : Req) (b : Fin 2) (s : State) : exec (.spiFifoRead by_ b) s = execSpiFifoRead by_ b s := rfl
@[simp] theorem exec_gpioInterrupt (pin : Fin 16) (level : Bool) (s : State) : exec (.gpioInterrupt pin level) s = execGpioInterrupt pin level s := rfl
@[simp] theorem exec_uartDataWrite (by_ : Req) (v : Byte) (s : State) : exec (.uartDataWrite by_ v) s = execUartDataWrite by_ v s := rfl
@[simp] theorem exec_uartDataRead (by_ : Req) (s : State) : exec (.uartDataRead by_) s = execUartDataRead by_ s := rfl
@[simp] theorem exec_uartRxByte (v : Byte) (s : State) : exec (.uartRxByte v) s = execUartRxByte v s := rfl
@[simp] theorem exec_queuedInstructionComplete (core : Fin 32) (element : Bool) (s : State) : exec (.queuedInstructionComplete core element) s = execQueuedInstructionComplete core element s := rfl
@[simp] theorem exec_hostLinkUp (port : Fin 2) (sqi : Fin 8) (s : State) : exec (.hostLinkUp port sqi) s = execHostLinkUp port sqi s := rfl
@[simp] theorem exec_hostFrameDropped (port : Fin 2) (cause : Fin 5) (s : State) : exec (.hostFrameDropped port cause) s = execHostFrameDropped port cause s := rfl
@[simp] theorem exec_agconFrameRejected (port : Fin 4) (cause : Fin 4) (s : State) : exec (.agconFrameRejected port cause) s = execAgconFrameRejected port cause s := rfl
@[simp] theorem exec_csiLaneStateChange (port : Fin 4) (st : Fin 4) (lanes : Fin 16) (s : State) : exec (.csiLaneStateChange port st lanes) s = execCsiLaneStateChange port st lanes s := rfl
@[simp] theorem exec_pcieLinkChange (up : Bool) (speed : Fin 4) (width : Fin 3) (s : State) : exec (.pcieLinkChange up speed width) s = execPcieLinkChange up speed width s := rfl
@[simp] theorem exec_uartTxByteDone (s : State) : exec (.uartTxByteDone) s = execUartTxByteDone s := rfl
@[simp] theorem exec_keyRewriteComplete (tenant : Fin 9) (s : State) : exec (.keyRewriteComplete tenant) s = execKeyRewriteComplete tenant s := rfl

end Sys2Proof.Machine
end

