-- ==== Sys2Proof/Laws/SMap.lean ====
section
/-! SUPPORT. Sys2Proof/Laws/SMap.lean: laws of the sparse map: reading after a change, and the canonical form. -/

namespace Sys2Proof.Machine

variable {α : Type}

theorem SMap.get?_nil (k : Nat) : SMap.get? ([] : SMap α) k = none := rfl

theorem SMap.sortedFrom_mono : ∀ {m : SMap α} {lo hi : Nat}, lo ≤ hi → SMap.sortedFrom hi m = true → SMap.sortedFrom lo m = true
  | [], _, _, _, _ => rfl
  | (k, v) :: r, lo, hi, h, hs => by
    simp only [SMap.sortedFrom, Bool.and_eq_true, decide_eq_true_eq] at hs ⊢
    exact ⟨Nat.le_trans h hs.1, hs.2⟩

/-- A key below every listed key reads nothing. -/
theorem SMap.get?_below : ∀ {m : SMap α} {lo k : Nat}, SMap.sortedFrom lo m = true → k < lo → SMap.get? m k = none
  | [], _, _, _, _ => rfl
  | (j, v) :: r, lo, k, hs, h => by
    simp only [SMap.sortedFrom, Bool.and_eq_true, decide_eq_true_eq] at hs
    have h1 : k ≠ j := by omega
    have h2 : k < j := by omega
    simp [SMap.get?, h1, h2]

theorem SMap.sortedFrom_set : ∀ {m : SMap α} {lo k : Nat} {v : α}, SMap.sortedFrom lo m = true → lo ≤ k →
    SMap.sortedFrom lo (SMap.set m k v) = true
  | [], lo, k, v, _, h => by simp [SMap.set, SMap.sortedFrom, h]
  | (j, w) :: r, lo, k, v, hs, h => by
    simp only [SMap.sortedFrom, Bool.and_eq_true, decide_eq_true_eq] at hs
    unfold SMap.set
    split
    · rename_i hk
      simp only [SMap.sortedFrom, Bool.and_eq_true, decide_eq_true_eq]
      exact ⟨h, hk, hs.2⟩
    · split
      · rename_i _ hk
        subst hk
        simp only [SMap.sortedFrom, Bool.and_eq_true, decide_eq_true_eq]
        exact ⟨h, hs.2⟩
      · simp only [SMap.sortedFrom, Bool.and_eq_true, decide_eq_true_eq]
        exact ⟨hs.1, SMap.sortedFrom_set hs.2 (by omega)⟩

theorem SMap.sortedFrom_erase : ∀ {m : SMap α} {lo k : Nat}, SMap.sortedFrom lo m = true → SMap.sortedFrom lo (SMap.erase m k) = true
  | [], _, _, _ => rfl
  | (j, w) :: r, lo, k, hs => by
    have hs' := hs
    simp only [SMap.sortedFrom, Bool.and_eq_true, decide_eq_true_eq] at hs
    unfold SMap.erase
    split
    · exact hs'
    · split
      · exact SMap.sortedFrom_mono (by omega) hs.2
      · simp only [SMap.sortedFrom, Bool.and_eq_true, decide_eq_true_eq]
        exact ⟨hs.1, SMap.sortedFrom_erase hs.2⟩

theorem SMap.sortedFrom_filter {f : Nat × α → Bool} : ∀ {m : SMap α} {lo : Nat}, SMap.sortedFrom lo m = true →
    SMap.sortedFrom lo (m.filter f) = true
  | [], _, _ => rfl
  | (j, w) :: r, lo, hs => by
    simp only [SMap.sortedFrom, Bool.and_eq_true, decide_eq_true_eq] at hs
    simp only [List.filter]
    split
    · simp only [SMap.sortedFrom, Bool.and_eq_true, decide_eq_true_eq]
      exact ⟨hs.1, SMap.sortedFrom_filter hs.2⟩
    · exact SMap.sortedFrom_mono (by omega) (SMap.sortedFrom_filter hs.2)

/-- Setting a key keeps the canonical form. -/
theorem SMap.wf_set {m : SMap α} {k : Nat} {v : α} (h : SMap.wf m = true) : SMap.wf (SMap.set m k v) = true :=
  SMap.sortedFrom_set h (Nat.zero_le _)

/-- Dropping a key keeps the canonical form. -/
theorem SMap.wf_erase {m : SMap α} {k : Nat} (h : SMap.wf m = true) : SMap.wf (SMap.erase m k) = true :=
  SMap.sortedFrom_erase h

/-- Putting a value keeps the canonical form. -/
theorem SMap.wf_put [DecidableEq α] {m : SMap α} {k : Nat} {v d : α} (h : SMap.wf m = true) : SMap.wf (SMap.put m k v d) = true := by
  unfold SMap.put
  split
  · exact SMap.wf_erase h
  · exact SMap.wf_set h

/-- A key that was set reads the value set. -/
theorem SMap.get?_set_same : ∀ (m : SMap α) (k : Nat) (v : α), SMap.get? (SMap.set m k v) k = some v
  | [], k, v => by simp [SMap.set, SMap.get?]
  | (j, w) :: r, k, v => by
    unfold SMap.set
    split
    · simp [SMap.get?]
    · split
      · simp [SMap.get?]
      · rename_i h1 h2
        simp [SMap.get?, h1, h2, SMap.get?_set_same r k v]

/-- Another key reads as before. -/
theorem SMap.get?_set_other : ∀ (m : SMap α) {k x : Nat} (v : α), x ≠ k → SMap.get? (SMap.set m k v) x = SMap.get? m x
  | [], k, x, v, h => by simp [SMap.set, SMap.get?, h]
  | (j, w) :: r, k, x, v, h => by
    unfold SMap.set
    split
    · rename_i hk
      simp only [SMap.get?, h, if_false]
      split
      · have h1 : x ≠ j := by omega
        have h2 : x < j := by omega
        simp [h1, h2]
      · rfl
    · split
      · rename_i _ hk
        subst hk
        simp [SMap.get?, h]
      · simp only [SMap.get?]
        split
        · rfl
        · split
          · rfl
          · exact SMap.get?_set_other r v h

/-- A key that was set reads the value set. -/
theorem SMap.getD_set_same (m : SMap α) (k : Nat) (v d : α) : SMap.getD (SMap.set m k v) k d = v := by
  simp [SMap.getD, SMap.get?_set_same]

/-- Another key reads as before. -/
theorem SMap.getD_set_other (m : SMap α) {k x : Nat} (v d : α) (h : x ≠ k) :
    SMap.getD (SMap.set m k v) x d = SMap.getD m x d := by
  simp [SMap.getD, SMap.get?_set_other m v h]

/-- A key other than the dropped one reads as before. -/
theorem SMap.get?_erase_other : ∀ (m : SMap α) {k x : Nat}, x ≠ k → SMap.get? (SMap.erase m k) x = SMap.get? m x ∨
    (SMap.wf m = false)
  | [], _, _, _ => Or.inl rfl
  | (j, w) :: r, k, x, h => by
    by_cases hw : SMap.wf ((j, w) :: r) = true
    · left
      simp only [SMap.wf, SMap.sortedFrom, Bool.and_eq_true, decide_eq_true_eq] at hw
      unfold SMap.erase
      split
      · rfl
      · split
        · rename_i _ hk
          subst hk
          simp only [SMap.get?, h, if_false]
          split
          · exact SMap.get?_below hw.2 (by omega)
          · rfl
        · simp only [SMap.get?]
          split
          · rfl
          · split
            · rfl
            · cases SMap.get?_erase_other r h with
              | inl e => exact e
              | inr e =>
                have := SMap.sortedFrom_mono (Nat.zero_le _) hw.2
                simp [SMap.wf, this] at e
    · right
      simpa using hw

/-- A dropped key reads nothing. -/
theorem SMap.get?_erase_same : ∀ {m : SMap α} {lo : Nat} (k : Nat), SMap.sortedFrom lo m = true → SMap.get? (SMap.erase m k) k = none
  | [], _, _, _ => rfl
  | (j, w) :: r, lo, k, hs => by
    simp only [SMap.sortedFrom, Bool.and_eq_true, decide_eq_true_eq] at hs
    unfold SMap.erase
    split
    · rename_i h
      have h1 : k ≠ j := by omega
      simp [SMap.get?, h1, h]
    · split
      · rename_i _ h
        subst h
        exact SMap.get?_below hs.2 (by omega)
      · rename_i h1 h2
        simp [SMap.get?, h1, h2, SMap.get?_erase_same k hs.2]

/-- A key that was put reads the value put. -/
theorem SMap.getD_put_same [DecidableEq α] {m : SMap α} (h : SMap.wf m = true) (k : Nat) (v d : α) :
    SMap.getD (SMap.put m k v d) k d = v := by
  unfold SMap.put
  split
  · rename_i e
    simp [SMap.getD, SMap.get?_erase_same k h, e]
  · exact SMap.getD_set_same m k v d

/-- Another key reads as before. -/
theorem SMap.getD_put_other [DecidableEq α] {m : SMap α} (hm : SMap.wf m = true) {k x : Nat} (v d : α) (h : x ≠ k) :
    SMap.getD (SMap.put m k v d) x d = SMap.getD m x d := by
  unfold SMap.put
  split
  · cases SMap.get?_erase_other m h with
    | inl e => simp [SMap.getD, e]
    | inr e => simp [hm] at e
  · exact SMap.getD_set_other m v d h

end Sys2Proof.Machine
end

