-- ==== Sys2Proof/Laws/Memory.lean ====
section
/-! SUPPORT. Sys2Proof/Laws/Memory.lean: every operation on device memory keeps its canonical form, and what a byte reads as
after a write. -/

namespace Sys2Proof.Machine

theorem Memory.wf_iff {m : Memory} : Memory.wf m = true ↔ SMap.wf m = true ∧ ∀ c ∈ m, c.2 ≠ unlistedByte := by
  simp [Memory.wf, List.all_eq_true]

theorem SMap.mem_set {α : Type} : ∀ {m : SMap α} {k : Nat} {v : α} {c : Nat × α}, c ∈ SMap.set m k v → c = (k, v) ∨ c ∈ m
  | [], k, v, c, h => by simpa [SMap.set] using h
  | (j, w) :: r, k, v, c, h => by
    unfold SMap.set at h
    split at h
    · simpa using h
    · split at h
      · simp only [List.mem_cons] at h ⊢
        rcases h with h | h
        · exact .inl h
        · exact .inr (.inr h)
      · simp only [List.mem_cons] at h ⊢
        rcases h with h | h
        · exact .inr (.inl h)
        · rcases SMap.mem_set h with h | h
          · exact .inl h
          · exact .inr (.inr h)

theorem SMap.mem_erase {α : Type} : ∀ {m : SMap α} {k : Nat} {c : Nat × α}, c ∈ SMap.erase m k → c ∈ m
  | [], _, _, h => h
  | (j, w) :: r, k, c, h => by
    unfold SMap.erase at h
    split at h
    · exact h
    · split at h
      · exact List.mem_cons_of_mem _ h
      · simp only [List.mem_cons] at h ⊢
        rcases h with h | h
        · exact .inl h
        · exact .inr (SMap.mem_erase h)

/-- A byte written keeps the canonical form. -/
theorem Memory.wf_write {m : Memory} (h : Memory.wf m = true) (a : Nat) (b : Byte) : Memory.wf (Memory.write m a b) = true := by
  rw [Memory.wf_iff] at h ⊢
  refine ⟨SMap.wf_put h.1, fun c hc => ?_⟩
  unfold Memory.write SMap.put at hc
  split at hc
  · exact h.2 c (SMap.mem_erase hc)
  · rename_i hb
    rcases SMap.mem_set hc with rfl | hc
    · exact hb
    · exact h.2 c hc

/-- Bytes written keep the canonical form. -/
theorem Memory.wf_writeBytes : ∀ {m : Memory} (_ : Memory.wf m = true) (a : Nat) (bs : List Byte),
    Memory.wf (Memory.writeBytes m a bs) = true
  | _, h, _, [] => h
  | _, h, a, b :: r => Memory.wf_writeBytes (Memory.wf_write h a b) (a + 1) r

/-- Cells written keep the canonical form. -/
theorem Memory.wf_writeCells : ∀ {m : Memory} (_ : Memory.wf m = true) (cs : List Host.Cell),
    Memory.wf (Memory.writeCells m cs) = true
  | _, h, [] => h
  | _, h, (a, b) :: r => Memory.wf_writeCells (Memory.wf_write h a b) r

/-- Dropping cells keeps the canonical form. -/
theorem Memory.wf_filter {m : Memory} (h : Memory.wf m = true) (f : Host.Cell → Bool) : Memory.wf (List.filter f m) = true := by
  rw [Memory.wf_iff] at h ⊢
  exact ⟨SMap.sortedFrom_filter h.1, fun c hc => h.2 c (List.mem_filter.mp hc).1⟩

/-- A scrub keeps the canonical form. -/
theorem Memory.wf_clear {m : Memory} (h : Memory.wf m = true) (lo hi : Nat) : Memory.wf (Memory.clear m lo hi) = true :=
  Memory.wf_filter h _

/-- A little-endian field keeps the canonical form. -/
theorem Memory.wf_setLe {m : Memory} (h : Memory.wf m = true) (a n v : Nat) : Memory.wf (Memory.setLe m a n v) = true :=
  Memory.wf_writeBytes h a _

/-- The byte written is the byte read. -/
theorem Memory.read_write_same {m : Memory} (h : Memory.wf m = true) (a : Nat) (b : Byte) :
    Memory.read (Memory.write m a b) a = b :=
  SMap.getD_put_same (Memory.wf_iff.mp h).1 a b _

/-- Another byte is untouched. -/
theorem Memory.read_write_other {m : Memory} (h : Memory.wf m = true) {a x : Nat} (b : Byte) (hx : x ≠ a) :
    Memory.read (Memory.write m a b) x = Memory.read m x :=
  SMap.getD_put_other (Memory.wf_iff.mp h).1 b _ hx

/-- A byte outside those written is untouched. -/
theorem Memory.read_writeBytes_other : ∀ {m : Memory} (_ : Memory.wf m = true) (a : Nat) (bs : List Byte) {x : Nat},
    (x < a ∨ a + bs.length ≤ x) → Memory.read (Memory.writeBytes m a bs) x = Memory.read m x
  | _, _, _, [], _, _ => rfl
  | m, h, a, b :: r, x, hx => by
    simp only [List.length_cons] at hx
    have h1 : Memory.read (Memory.writeBytes (Memory.write m a b) (a + 1) r) x = Memory.read (Memory.write m a b) x :=
      Memory.read_writeBytes_other (Memory.wf_write h a b) (a + 1) r (by omega)
    exact h1.trans (Memory.read_write_other h b (by omega))

/-- The bytes written are the bytes read. -/
theorem Memory.read_writeBytes_same : ∀ {m : Memory} (_ : Memory.wf m = true) (a : Nat) (bs : List Byte) (i : Nat),
    i < bs.length → Memory.read (Memory.writeBytes m a bs) (a + i) = bs.getD i 0
  | _, _, _, [], i, hi => by simp at hi
  | m, h, a, b :: r, 0, _ => by
    have h1 : Memory.read (Memory.writeBytes (Memory.write m a b) (a + 1) r) a = Memory.read (Memory.write m a b) a :=
      Memory.read_writeBytes_other (Memory.wf_write h a b) (a + 1) r (by omega)
    exact h1.trans (Memory.read_write_same h a b)
  | m, h, a, b :: r, i + 1, hi => by
    have h1 := Memory.read_writeBytes_same (Memory.wf_write h a b) (a + 1) r i (by simpa using hi)
    rw [show a + (i + 1) = a + 1 + i by omega]
    simpa [Memory.writeBytes] using h1

end Sys2Proof.Machine
end

