-- ==== Sys2Proof/Laws/Keeps.lean ====
section
/-! SUPPORT. Sys2Proof/Laws/Keeps.lean: the relation `Keeps` is a preorder, and what an update of the state's fields keeps. -/

namespace Sys2Proof.Machine

theorem FusesGrow.refl (a : Otp) : FusesGrow a a := by
  constructor <;> first | exact BitVec.and_self | exact Nat.le_refl _ | exact fun _ => rfl | exact fun h => h | exact fun _ => Nat.le_refl _

theorem and_trans_eq {n : Nat} {a b c : BitVec n} (h1 : a &&& b = a) (h2 : b &&& c = b) : a &&& c = a := by
  rw [← h1, BitVec.and_assoc, h2]

theorem FusesGrow.trans {a b c : Otp} (h1 : FusesGrow a b) (h2 : FusesGrow b c) : FusesGrow a c where
  provision := and_trans_eq h1.provision h2.provision
  field := and_trans_eq h1.field h2.field
  retired := and_trans_eq h1.retired h2.retired
  serviceIn := Nat.le_trans h1.serviceIn h2.serviceIn
  serviceOut := Nat.le_trans h1.serviceOut h2.serviceOut
  root0 := fun h => by rw [h2.root0 (by rw [h1.root0 h]; exact h), h1.root0 h]
  root1 := fun h => by rw [h2.root1 (by rw [h1.root1 h]; exact h), h1.root1 h]
  revoked0 := and_trans_eq h1.revoked0 h2.revoked0
  revoked1 := and_trans_eq h1.revoked1 h2.revoked1
  rollback := fun k => Nat.le_trans (h1.rollback k) (h2.rollback k)
  secret := fun h => h1.secret (h2.secret h)

theorem Keeps.refl (s : State) : Keeps s s := ⟨id, rfl, FusesGrow.refl _, Nat.le_refl _, Nat.le_refl _⟩

theorem Keeps.trans {s t u : State} (h1 : Keeps s t) (h2 : Keeps t u) : Keeps s u where
  memory := fun h => h2.memory (h1.memory h)
  queue := h2.queue.trans h1.queue
  fuses := h1.fuses.trans h2.fuses
  logbook := Nat.le_trans h1.logbook h2.logbook
  free := Nat.le_trans h1.free h2.free

/-- A state whose memory, queue, fuses, logbook and free counter are those of t. -/
theorem keeps_same {s0 t u : State} (h : Keeps s0 t) (hm : u.mem = t.mem) (hq : u.pending = t.pending) (ho : u.otp = t.otp)
    (hl : u.log = t.log) (hf : u.freeCtr = t.freeCtr) : Keeps s0 u :=
  h.trans ⟨fun w => by rw [hm]; exact w, hq, by rw [ho]; exact FusesGrow.refl _, Nat.le_of_eq (by rw [hl]),
    Nat.le_of_eq (by rw [hf])⟩

/-- t with these fuses, memory, logbook and free counter. -/
def kept (t : State) (f : Nat) (o : Otp) (m : List Host.Cell) (l : Logbook) : State :=
  { t with freeCtr := f, otp := o, mem := m, log := l }

theorem kept_self {s0 t : State} : Keeps s0 (kept t t.freeCtr t.otp t.mem t.log) ↔ Keeps s0 t := Iff.rfl

/-- An update of fields: only those that `Keeps` speaks of matter. -/
theorem keeps_fields {s0 t : State} {f_ : Nat} {o_ : Otp} {m_ : List Host.Cell} {l_ : Logbook}
    {resp_ : Resp} {irqs_ : List Irq} {board_ : Board} {own_ : Owners} {tick_ : Nat} {poison_ : SMap Unit}
    {mbx_ : Mbx} {cores_ : SMap Core} {sems_ : SMap Sem} {mm_ : Mem} {pcie_ : Pcie} {ras_ : Ras} {aon_ : Aon}
    {boot_ : Boot} {power_ : Power} {events_ : List Event} {runs_ : SMap Run} {donations_ : List Donation}
    {k_ : Keeper} {sched_ : Sched} {port0_ : HostPort} {port1_ : HostPort} {activePort_ : Nat}
    {hostOut_ : List HostOut} {regs_ : SMap Word} {shadow_ : SMap Word} {routes_ : SMap Route}
    {inMsgs_ : List InMsg} {fab_ : Fab} {cam_ : Cam} {sec_ : Sec} {secStore_ : SecStore} {peri_ : Peri} :
    Keeps s0 { t with
      freeCtr := f_, otp := o_, mem := m_, log := l_,
      resp := resp_, irqs := irqs_, board := board_, own := own_, tick := tick_, poison := poison_, mbx := mbx_,
      cores := cores_, sems := sems_, mm := mm_, pcie := pcie_, ras := ras_, aon := aon_, boot := boot_,
      power := power_, events := events_, runs := runs_, donations := donations_, k := k_, sched := sched_,
      port0 := port0_, port1 := port1_, activePort := activePort_, hostOut := hostOut_, regs := regs_,
      shadow := shadow_, routes := routes_, inMsgs := inMsgs_, fab := fab_, cam := cam_, sec := sec_,
      secStore := secStore_, peri := peri_ } ↔ Keeps s0 (kept t f_ o_ m_ l_) :=
  ⟨fun h => keeps_same h rfl rfl rfl rfl rfl, fun h => keeps_same h rfl rfl rfl rfl rfl⟩

theorem keeps_kept {s0 t : State} {f : Nat} {o : Otp} {m : List Host.Cell} {l : Logbook} (h : Keeps s0 t)
    (hm : Memory.wf t.mem = true → Memory.wf m = true) (ho : FusesGrow t.otp o) (hl : t.log.next ≤ l.next) (hf : t.freeCtr ≤ f) :
    Keeps s0 (kept t f o m l) :=
  h.trans ⟨hm, rfl, ho, hl, hf⟩

/-- Either branch of a test. -/
theorem keeps_ite {s0 a b : State} {c : Prop} [Decidable c] (ha : Keeps s0 a) (hb : Keeps s0 b) : Keeps s0 (if c then a else b) := by
  split
  · exact ha
  · exact hb

theorem fuses_rollback {o : Otp} {c v : Nat} :
    FusesGrow o { o with rollback := SMap.set o.rollback c (max (SMap.getD o.rollback c 0) v) } where
  provision := BitVec.and_self
  field := BitVec.and_self
  retired := BitVec.and_self
  serviceIn := Nat.le_refl _
  serviceOut := Nat.le_refl _
  root0 := fun _ => rfl
  root1 := fun _ => rfl
  revoked0 := BitVec.and_self
  revoked1 := BitVec.and_self
  rollback := fun k => by
    by_cases h : k = c
    · subst h
      rw [SMap.getD_set_same]
      exact Nat.le_max_left _ _
    · exact Nat.le_of_eq (SMap.getD_set_other _ _ _ h).symm
  secret := id

theorem and_ones8 (b : BitVec 8) : b &&& 0xFF#8 = b := BitVec.and_allOnes

theorem fuses_revoked0 {o : Otp} : FusesGrow o { o with revoked0 := 0xFF } :=
  { FusesGrow.refl o with revoked0 := and_ones8 _ }

theorem fuses_revoked1 {o : Otp} : FusesGrow o { o with revoked1 := 0xFF } :=
  { FusesGrow.refl o with revoked1 := and_ones8 _ }

theorem fuses_root1 {o : Otp} {v : BitVec 512} (h : o.root1.isSome = false) : FusesGrow o { o with root1 := some v } :=
  { FusesGrow.refl o with root1 := fun e => by rw [h] at e; cases e }

theorem fuses_field {o : Otp} : FusesGrow o { o with lcField := 0xFF } :=
  { FusesGrow.refl o with field := and_ones8 _ }

theorem fuses_retired {o : Otp} : FusesGrow o { o with lcRetired := 0xFF, deviceSecret := false } :=
  { FusesGrow.refl o with retired := and_ones8 _, secret := fun e => by cases e }

theorem fuses_serviceIn {o : Otp} : FusesGrow o { o with serviceIn := o.serviceIn + 1 } :=
  { FusesGrow.refl o with serviceIn := Nat.le_succ _ }

theorem fuses_serviceOut {o : Otp} : FusesGrow o { o with serviceOut := o.serviceOut + 1 } :=
  { FusesGrow.refl o with serviceOut := Nat.le_succ _ }

/-- A computation that may fault keeps what `Keeps` says where it answers a state. -/
structure KeepsX {ε : Type} (s0 : State) (r : Except ε State) : Prop where
  all : ∀ t, r = .ok t → Keeps s0 t

theorem KeepsX.out {ε : Type} {s0 t : State} {r : Except ε State} (h : KeepsX s0 r) (e : r = .ok t) : Keeps s0 t := h.all t e

theorem keepsX_ok {ε : Type} {s0 t : State} (h : Keeps s0 t) : KeepsX s0 (.ok t : Except ε State) := by
  constructor
  intro u e
  cases e
  exact h

theorem keepsX_pure {ε : Type} {s0 t : State} (h : Keeps s0 t) : KeepsX s0 (pure t : Except ε State) := keepsX_ok h

theorem keepsX_error {ε : Type} {s0 : State} {x : ε} : KeepsX s0 (.error x) := by
  constructor
  intro u e
  cases e

theorem keepsX_bind {ε α : Type} {s0 : State} {x : Except ε α} {f : α → Except ε State} (h : ∀ a, KeepsX s0 (f a)) :
    KeepsX s0 (x >>= f) := by
  constructor
  intro u e
  cases x with
  | error y => cases e
  | ok a => exact (h a).all u e

theorem keepsX_bind_state {ε : Type} {s0 : State} {x : Except ε State} {f : State → Except ε State} (hx : KeepsX s0 x)
    (h : ∀ a, Keeps s0 a → KeepsX s0 (f a)) : KeepsX s0 (x >>= f) := by
  constructor
  intro u e
  cases x with
  | error y => cases e
  | ok a => exact (h a (hx.all a rfl)).all u e

theorem keepsX_ite {ε : Type} {s0 : State} {a b : Except ε State} {c : Prop} [Decidable c] (ha : KeepsX s0 a) (hb : KeepsX s0 b) :
    KeepsX s0 (if c then a else b) := by
  split
  · exact ha
  · exact hb

theorem keepsX_faultOf {s0 : State} {b : FaultBit} : KeepsX s0 (faultOf b : Except CmdFault State) := keepsX_error

theorem keepsX_faultAt {s0 : State} {b : FaultBit} {a : Nat} : KeepsX s0 (faultAt b a : Except CmdFault State) := keepsX_error

/-- A meaning keeps what `Keeps` says where it answers a next state. -/
structure KeepsE (s0 : State) (r : Host.Outcome State Fault Refusal) : Prop where
  all : ∀ t, r = .next t → Keeps s0 t

theorem keepsE_next {s0 t : State} (h : Keeps s0 t) : KeepsE s0 (.next t) := ⟨fun u e => by cases e; exact h⟩

theorem keepsE_refused {s0 : State} {x : Refusal} : KeepsE s0 (.refused x) := ⟨fun u e => by cases e⟩

theorem keepsE_ite {s0 : State} {a b : Host.Outcome State Fault Refusal} {c : Prop} [Decidable c] (ha : KeepsE s0 a)
    (hb : KeepsE s0 b) : KeepsE s0 (if c then a else b) := by
  split
  · exact ha
  · exact hb

/-- An optional state keeps what `Keeps` says where there is one. -/
structure KeepsO (s0 : State) (o : Option State) : Prop where
  all : ∀ t, o = some t → Keeps s0 t

theorem KeepsO.out {s0 t : State} {o : Option State} (h : KeepsO s0 o) (e : o = some t) : Keeps s0 t := h.all t e

theorem keepsO_some {s0 t : State} (h : Keeps s0 t) : KeepsO s0 (some t) := ⟨fun u e => by cases e; exact h⟩

theorem keepsO_none {s0 : State} : KeepsO s0 none := ⟨fun u e => by cases e⟩

theorem keepsO_bind {s0 : State} {o : Option State} {f : State → Option State} (ho : KeepsO s0 o)
    (h : ∀ a, Keeps s0 a → KeepsO s0 (f a)) : KeepsO s0 (o.bind f) := by
  constructor
  intro u e
  cases o with
  | none => cases e
  | some a => exact (h a (ho.all a rfl)).all u e

theorem keepsO_foldl {α : Type} {s0 : State} {f : Option State → α → Option State}
    (hf : ∀ o x, KeepsO s0 o → KeepsO s0 (f o x)) : ∀ {o : Option State} (l : List α), KeepsO s0 o → KeepsO s0 (l.foldl f o)
  | _, [], h => h
  | o, x :: r, h => keepsO_foldl hf r (hf o x h)

theorem keeps_getD {s0 t : State} {o : Option State} (h : ∀ u, o = some u → Keeps s0 u) (ht : Keeps s0 t) :
    Keeps s0 (o.getD t) := by
  cases o with
  | none => exact ht
  | some u => exact h u rfl

theorem keeps_elim {α : Type} {s0 a : State} {f : α → State} {o : Option α} (h : Keeps s0 a) (hf : ∀ x, Keeps s0 (f x)) :
    Keeps s0 (o.elim a f) := by
  cases o with
  | none => exact h
  | some x => exact hf x

/-- A fold of an operation that keeps. -/
theorem keeps_foldl {α : Type} {s0 : State} {f : State → α → State} (hf : ∀ t x, Keeps s0 t → Keeps s0 (f t x)) :
    ∀ {s : State} (l : List α), Keeps s0 s → Keeps s0 (l.foldl f s)
  | _, [], h => h
  | s, x :: r, h => keeps_foldl hf r (hf s x h)

/-- A fold over a state and something beside it. -/
theorem keeps_foldl_fst {α β : Type} {s0 : State} {f : State × β → α → State × β}
    (hf : ∀ t x, Keeps s0 t.1 → Keeps s0 (f t x).1) : ∀ {s : State × β} (l : List α), Keeps s0 s.1 → Keeps s0 (l.foldl f s).1
  | _, [], h => h
  | s, x :: r, h => keeps_foldl_fst hf r (hf s x h)

end Sys2Proof.Machine
end

