-- ==== Sys2Proof/Laws/KeepsMap.lean ====
section
/-! SUPPORT. Sys2Proof/Laws/KeepsMap.lean: each operation of Machine/Map.lean keeps what `Keeps` says. -/

namespace Sys2Proof.Machine

set_option simprocs false
set_option linter.all false

theorem keeps_busError {z0 : State} (s : State) (hK : Keeps z0 s) : Keeps z0 (busError s) := by
  unfold busError
  try dsimp only
  repeat' (first
    | with_reducible assumption | simp only [↓keeps_fields, ↓kept_self] | with_reducible apply keeps_busError)

theorem keeps_busOk {z0 : State} (s : State) (hK : Keeps z0 s) : Keeps z0 (busOk s) := by
  unfold busOk
  try dsimp only
  repeat' (first
    | with_reducible assumption | simp only [↓keeps_fields, ↓kept_self])

theorem keeps_busData {z0 : State} (s : State) (w : Word) (hK : Keeps z0 s) : Keeps z0 (busData s w) := by
  unfold busData
  try dsimp only
  repeat' (first
    | with_reducible assumption | simp only [↓keeps_fields, ↓kept_self])

theorem keeps_writeMem {z0 : State} (s : State) (a : Nat) (bs : List Byte) (hK : Keeps z0 s) : Keeps z0 (writeMem s a bs) := by
  unfold writeMem
  try dsimp only
  repeat' (first
    | intro _ | with_reducible assumption | simp only [↓keeps_fields, ↓kept_self] | with_reducible apply keeps_kept
    | with_reducible exact FusesGrow.refl _ | with_reducible exact Nat.le_refl _
    | with_reducible exact Nat.le_add_right _ _ | with_reducible apply Memory.wf_writeBytes
    | with_reducible apply Memory.wf_filter | assumption)

theorem keeps_writeTile {z0 : State} (s : State) (a tag : Nat) (payload : List Byte) (format origin originId index : Nat)
    (hK : Keeps z0 s) : Keeps z0 (writeTile s a tag payload format origin originId index) := by
  unfold writeTile
  try dsimp only
  repeat' (first
    | with_reducible assumption | with_reducible apply keeps_writeMem)

end Sys2Proof.Machine
end

