-- ==== Sys2Proof/Laws/KeepsMailbox.lean ====
section
/-! SUPPORT. Sys2Proof/Laws/KeepsMailbox.lean: each operation of Machine/Mailbox.lean keeps what `Keeps` says. -/

namespace Sys2Proof.Machine

set_option simprocs false
set_option linter.all false

theorem keeps_senderFault {z0 : State} (s : State) (cause sender m w : Nat) (hK : Keeps z0 s) : Keeps z0 (senderFault s
    cause sender m w) := by
  unfold senderFault
  try dsimp only
  repeat' (first
    | with_reducible assumption | with_reducible apply keeps_ite | simp only [↓keeps_fields, ↓kept_self]
    | with_reducible apply keeps_senderFault | split)

theorem keeps_mbxStore {z0 : State} (s : State) (m w : Nat) (v : Word) (hK : Keeps z0 s) : Keeps z0 (mbxStore s m w v) := by
  unfold mbxStore
  try dsimp only
  repeat' (first
    | with_reducible assumption | simp only [↓keeps_fields, ↓kept_self])

theorem keeps_mbxPostNow {z0 : State} (s : State) (by_ : Req) (m : Nat) (v : Word) (hK : Keeps z0 s) : Keeps z0 (mbxPostNow
    s by_ m v) := by
  unfold mbxPostNow
  try dsimp only
  repeat' (first
    | with_reducible assumption | simp only [↓keeps_fields, ↓kept_self] | with_reducible apply keeps_mbxStore
    | split)

theorem keeps_mbxWrite {z0 : State} (s : State) (by_ : Req) (m w : Nat) (v : Word) (hK : Keeps z0 s) : Keeps z0 (mbxWrite s
    by_ m w v) := by
  unfold mbxWrite
  try dsimp only
  repeat' (first
    | with_reducible assumption | with_reducible apply keeps_ite | simp only [↓keeps_fields, ↓kept_self]
    | with_reducible apply keeps_busError | with_reducible apply keeps_senderFault
    | with_reducible apply keeps_busOk | with_reducible apply keeps_mbxPostNow | with_reducible apply keeps_mbxStore
    | split)

theorem keeps_execMailboxWordWrite {z0 : State} {by_ : Req} {m : Fin 128} {w : Fin 7} {v : Word} {s : State} (hK : Keeps z0
    s) : KeepsE z0 (execMailboxWordWrite by_ m w v s) := by
  unfold execMailboxWordWrite
  try dsimp only
  repeat' (first
    | intro _ | with_reducible assumption | with_reducible apply keepsE_next | with_reducible apply keeps_mbxWrite)

theorem keeps_execMailboxPost {z0 : State} {by_ : Req} {m : Fin 128} {v : Word} {s : State} (hK : Keeps z0 s) : KeepsE z0
    (execMailboxPost by_ m v s) := by
  unfold execMailboxPost
  try dsimp only
  repeat' (first
    | intro _ | with_reducible assumption | with_reducible apply keepsE_next | with_reducible apply keeps_mbxWrite)

theorem keeps_mbxClear {z0 : State} (s : State) (m : Nat) (hK : Keeps z0 s) : Keeps z0 (mbxClear s m) := by
  unfold mbxClear
  try dsimp only
  repeat' (first
    | with_reducible assumption | simp only [↓keeps_fields, ↓kept_self] | assumption)

theorem keeps_mbxTake {z0 : State} (s : State) (by_ : Req) (m : Nat) (hK : Keeps z0 s) : Keeps z0 (mbxTake s by_ m) := by
  unfold mbxTake
  try dsimp only
  repeat' (first
    | with_reducible assumption | with_reducible apply keeps_ite | simp only [↓keeps_fields, ↓kept_self]
    | with_reducible apply keeps_busData | with_reducible apply keeps_mbxClear | with_reducible apply keeps_busError
    | split)

theorem keeps_execMailboxTake {z0 : State} {by_ : Req} {m : Fin 128} {s : State} (hK : Keeps z0 s) : KeepsE z0
    (execMailboxTake by_ m s) := by
  unfold execMailboxTake
  try dsimp only
  repeat' (first
    | intro _ | with_reducible assumption | with_reducible apply keepsE_next | with_reducible apply keeps_mbxTake)

theorem keeps_mbxWords {z0 : State} (s : State) (m k : Nat) (a0_ : List Word) (hK : Keeps z0 s) : Keeps z0 (mbxWords s m k
    a0_) := by
  induction a0_ generalizing s m k with
  | nil =>
    unfold mbxWords
    exact hK
  | cons a r ih =>
    unfold mbxWords
    try dsimp only
    repeat' (first
      | with_reducible assumption
      | with_reducible apply ih | with_reducible apply keeps_mbxStore | split)

theorem keeps_hwWrite {z0 : State} (s : State) (by_ : Req) (m : Nat) (ws : List Word) (hK : Keeps z0 s) : Keeps z0 (hwWrite
    s by_ m ws) := by
  unfold hwWrite
  try dsimp only
  repeat' (first
    | intro _ | with_reducible assumption | with_reducible apply keeps_ite | with_reducible apply keeps_senderFault
    | with_reducible apply keeps_mbxWords | with_reducible apply keeps_mbxPostNow | with_reducible apply keeps_getD
    | split)

theorem keeps_hwPost {z0 : State} (s : State) (by_ : Req) (m : Nat) (ws : List Word) (hK : Keeps z0 s) : Keeps z0 (hwPost s
    by_ m ws) := by
  unfold hwPost
  try dsimp only
  repeat' (first
    | with_reducible assumption | with_reducible apply keeps_ite | simp only [↓keeps_fields, ↓kept_self]
    | with_reducible apply keeps_hwWrite | with_reducible apply keeps_senderFault | split | assumption)

theorem keeps_releaseHeld {z0 : State} (s : State) (by_ : Req) (hK : Keeps z0 s) : Keeps z0 (releaseHeld s by_) := by
  unfold releaseHeld
  try dsimp only
  repeat' (first
    | with_reducible assumption | simp only [↓keeps_fields, ↓kept_self] | with_reducible apply keeps_hwWrite | split)

theorem keeps_execMbxMaskLock {z0 : State} {by_ : Req} {i : Fin 4} {v : Word} {s : State} (hK : Keeps z0 s) : KeepsE z0
    (execMbxMaskLock by_ i v s) := by
  unfold execMbxMaskLock
  try dsimp only
  repeat' (first
    | intro _ | with_reducible assumption | with_reducible apply keepsE_next | with_reducible apply keeps_ite
    | with_reducible apply keepsE_ite | simp only [↓keeps_fields, ↓kept_self] | with_reducible apply keeps_busOk
    | with_reducible apply keeps_busError | split)

end Sys2Proof.Machine
end

