-- ==== Sys2Proof/Laws/KeepsRegs.lean ====
section
/-! SUPPORT. Sys2Proof/Laws/KeepsRegs.lean: each operation of Machine/Regs.lean keeps what `Keeps` says. -/

namespace Sys2Proof.Machine

set_option simprocs false
set_option linter.all false

theorem keeps_rset {z0 : State} (s : State) (a : Nat) (v : Word) (hK : Keeps z0 s) : Keeps z0 (rset s a v) := by
  unfold rset
  try dsimp only
  repeat' (first
    | with_reducible assumption | simp only [↓keeps_fields, ↓kept_self])

theorem keeps_rsetBits {z0 : State} (s : State) (a hi lo v : Nat) (hK : Keeps z0 s) : Keeps z0 (rsetBits s a hi lo v) := by
  unfold rsetBits
  try dsimp only
  repeat' (first
    | with_reducible assumption | with_reducible apply keeps_rset)

theorem keeps_rcount {z0 : State} (s : State) (a n : Nat) (hK : Keeps z0 s) : Keeps z0 (rcount s a n) := by
  unfold rcount
  try dsimp only
  repeat' (first
    | with_reducible assumption | with_reducible apply keeps_rset)

theorem keeps_rboundary {z0 : State} (s : State) (a : Nat) (hK : Keeps z0 s) : Keeps z0 (rboundary s a) := by
  unfold rboundary
  try dsimp only
  repeat' (first
    | with_reducible assumption | simp only [↓keeps_fields, ↓kept_self] | with_reducible apply keeps_rset)

theorem keeps_rwrite {z0 : State} (s : State) (a : Nat) (v : Word) (hK : Keeps z0 s) : Keeps z0 (rwrite s a v) := by
  unfold rwrite
  try dsimp only
  repeat' (first
    | with_reducible assumption | with_reducible apply keeps_ite | simp only [↓keeps_fields, ↓kept_self]
    | with_reducible apply keeps_rset | split)

end Sys2Proof.Machine
end

