-- ==== Sys2Proof/Laws/KeepsFabLink.lean ====
section
/-! SUPPORT. Sys2Proof/Laws/KeepsFabLink.lean: each operation of Machine/FabLink.lean keeps what `Keeps` says. -/

namespace Sys2Proof.Machine

set_option simprocs false
set_option linter.all false

theorem keeps_onFab {z0 : State} (s : State) (f : Fab → Fab) (hK : Keeps z0 s) : Keeps z0 (onFab s f) := by
  unfold onFab
  try dsimp only
  repeat' (first
    | with_reducible assumption | simp only [↓keeps_fields, ↓kept_self])

theorem keeps_modFabPort {z0 : State} (s : State) (p : Nat) (f : FabPort → FabPort) (hK : Keeps z0 s) : Keeps z0 (modFabPort
    s p f) := by
  unfold modFabPort
  try dsimp only
  repeat' (first
    | intro _ | with_reducible assumption | simp only [↓keeps_fields, ↓kept_self] | with_reducible apply keeps_onFab
    | with_reducible apply keeps_getD)

theorem keeps_fabCount {z0 : State} (s : State) (off n : Nat) (hK : Keeps z0 s) : Keeps z0 (fabCount s off n) := by
  unfold fabCount
  try dsimp only
  repeat' (first
    | with_reducible assumption | with_reducible apply keeps_rcount)

theorem keeps_linkEmit {z0 : State} (s : State) (p : Nat) (f : FabFrame) (hK : Keeps z0 s) : Keeps z0 (linkEmit s p f) := by
  unfold linkEmit
  try dsimp only
  repeat' (first
    | with_reducible assumption | simp only [↓keeps_fields, ↓kept_self] | with_reducible apply keeps_modFabPort
    | with_reducible apply keeps_fabCount | with_reducible apply keeps_onFab)

theorem keeps_linkSend {z0 : State} (s : State) (p : Nat) (f : FabFrame) (hK : Keeps z0 s) : Keeps z0 (linkSend s p f) := by
  unfold linkSend
  try dsimp only
  repeat' (first
    | with_reducible assumption | with_reducible apply keeps_ite | simp only [↓keeps_fields, ↓kept_self]
    | with_reducible apply keeps_linkEmit | with_reducible apply keeps_modFabPort | split)

theorem keeps_linkPump {z0 : State} (s : State) (p : Nat) (a0_ : Nat) (hK : Keeps z0 s) : Keeps z0 (linkPump s p a0_) := by
  induction a0_ generalizing s p with
  | zero =>
    unfold linkPump
    exact hK
  | succ n ih =>
    unfold linkPump
    try dsimp only
    repeat' (first
      | with_reducible assumption
      | with_reducible apply ih | with_reducible apply keeps_ite | simp only [↓keeps_fields, ↓kept_self]
      | with_reducible apply keeps_linkEmit | with_reducible apply keeps_modFabPort | split)

theorem keeps_linkSendAll {z0 : State} (s : State) (p : Nat) (a0_ : List FabFrame) (hK : Keeps z0 s) : Keeps z0 (linkSendAll
    s p a0_) := by
  induction a0_ generalizing s p with
  | nil =>
    unfold linkSendAll
    exact hK
  | cons a r ih =>
    unfold linkSendAll
    try dsimp only
    repeat' (first
      | with_reducible assumption
      | with_reducible apply ih | with_reducible apply keeps_linkSend | split)

theorem keeps_fabSend {z0 : State} (s : State) (f : FabFrame) (hK : Keeps z0 s) : Keeps z0 (fabSend s f) := by
  unfold fabSend
  try dsimp only
  repeat' (first
    | with_reducible assumption | with_reducible apply keeps_ite | simp only [↓keeps_fields, ↓kept_self]
    | with_reducible apply keeps_onFab | with_reducible apply keeps_linkSend | split)

theorem keeps_fabSendAll {z0 : State} (s : State) (a0_ : List FabFrame) (hK : Keeps z0 s) : Keeps z0 (fabSendAll s a0_) := by
  induction a0_ generalizing s with
  | nil =>
    unfold fabSendAll
    exact hK
  | cons a r ih =>
    unfold fabSendAll
    try dsimp only
    repeat' (first
      | with_reducible assumption
      | with_reducible apply ih | with_reducible apply keeps_fabSend | split)

theorem keeps_floodFrom {z0 : State} (s : State) (from_ : Option Nat) (f : FabFrame) (hK : Keeps z0 s) : Keeps z0 (floodFrom
    s from_ f) := by
  unfold floodFrom
  try dsimp only
  repeat' (first
    | intro _ | with_reducible assumption | with_reducible apply keeps_linkSend | with_reducible apply keeps_foldl)

theorem keeps_flood {z0 : State} (s : State) (type : Nat) (hK : Keeps z0 s) : Keeps z0 (flood s type) := by
  unfold flood
  try dsimp only
  repeat' (first
    | with_reducible assumption | simp only [↓keeps_fields, ↓kept_self] | with_reducible apply keeps_onFab
    | with_reducible apply keeps_floodFrom)

theorem keeps_onFlood {z0 : State} (s : State) (p : Nat) (f : FabFrame) (origin gen : Nat) (go : State → State) (h_go : ∀
    (x0_ : State), Keeps z0 x0_ → Keeps z0 (go x0_)) (hK : Keeps z0 s) : Keeps z0 (onFlood s p f origin gen go) := by
  unfold onFlood
  try dsimp only
  repeat' (first
    | intro _ | with_reducible assumption | with_reducible apply h_go | with_reducible apply keeps_ite
    | simp only [↓keeps_fields, ↓kept_self] | with_reducible apply keeps_floodFrom
    | with_reducible apply keeps_onFab | split)

theorem keeps_linkAck {z0 : State} (s : State) (p : Nat) (hK : Keeps z0 s) : Keeps z0 (linkAck s p) := by
  unfold linkAck
  try dsimp only
  repeat' (first
    | with_reducible assumption | with_reducible apply keeps_linkSend)

theorem keeps_linkNak {z0 : State} (s : State) (p : Nat) (hK : Keeps z0 s) : Keeps z0 (linkNak s p) := by
  unfold linkNak
  try dsimp only
  repeat' (first
    | with_reducible assumption | with_reducible apply keeps_linkSend)

theorem keeps_giveCredits {z0 : State} (s : State) (f : FabFrame) (hK : Keeps z0 s) : Keeps z0 (giveCredits s f) := by
  unfold giveCredits
  try dsimp only
  repeat' (first
    | with_reducible assumption | with_reducible apply keeps_ite | simp only [↓keeps_fields, ↓kept_self] | split)

theorem keeps_onLink {z0 : State} (s : State) (p : Nat) (f : FabFrame) (go : State → State) (h_go : ∀ (x0_ : State), Keeps
    z0 x0_ → Keeps z0 (go x0_)) (hK : Keeps z0 s) : Keeps z0 (onLink s p f go) := by
  unfold onLink
  try dsimp only
  repeat' (first
    | intro _ | with_reducible assumption | with_reducible apply h_go | with_reducible apply keeps_ite
    | simp only [↓keeps_fields, ↓kept_self] | with_reducible apply keeps_fabCount
    | with_reducible apply keeps_linkNak | with_reducible apply keeps_modFabPort
    | with_reducible apply keeps_giveCredits | with_reducible apply keeps_linkAck | split)

theorem keeps_ctlPost {z0 : State} (s : State) (p : Nat) (hK : Keeps z0 s) : Keeps z0 (ctlPost s p) := by
  unfold ctlPost
  try dsimp only
  repeat' (first
    | intro _ | with_reducible assumption | simp only [↓keeps_fields, ↓kept_self] | with_reducible apply keeps_kept
    | with_reducible apply keeps_hwPost | with_reducible exact FusesGrow.refl _ | with_reducible exact Nat.le_refl _
    | with_reducible exact Nat.le_add_right _ _ | assumption | exact Nat.le_add_right _ _)

theorem keeps_onControl {z0 : State} (s : State) (p : Nat) (f : FabFrame) (go : State → State) (h_go : ∀ (x0_ : State),
    Keeps z0 x0_ → Keeps z0 (go x0_)) (hK : Keeps z0 s) : Keeps z0 (onControl s p f go) := by
  unfold onControl
  try dsimp only
  repeat' (first
    | intro _ | with_reducible assumption | with_reducible apply h_go | with_reducible apply keeps_onLink
    | with_reducible apply keeps_ctlPost)

theorem keeps_newEpoch {z0 : State} (s : State) (p : Nat) (hK : Keeps z0 s) : Keeps z0 (newEpoch s p) := by
  unfold newEpoch
  try dsimp only
  repeat' (first
    | with_reducible assumption | simp only [↓keeps_fields, ↓kept_self] | with_reducible apply keeps_modFabPort
    | with_reducible apply keeps_linkPump | with_reducible apply keeps_fabCount)

theorem keeps_takeLinkAck {z0 : State} (s : State) (p n : Nat) (hK : Keeps z0 s) : Keeps z0 (takeLinkAck s p n) := by
  unfold takeLinkAck
  try dsimp only
  repeat' (first
    | with_reducible assumption | with_reducible apply keeps_ite | simp only [↓keeps_fields, ↓kept_self]
    | with_reducible apply keeps_modFabPort | with_reducible apply keeps_newEpoch
    | with_reducible apply keeps_linkPump | split)

theorem keeps_linkRestart {z0 : State} (s : State) (p : Nat) (hK : Keeps z0 s) : Keeps z0 (linkRestart s p) := by
  unfold linkRestart
  try dsimp only
  repeat' (first
    | with_reducible assumption | with_reducible apply keeps_ite | simp only [↓keeps_fields, ↓kept_self]
    | with_reducible apply keeps_rboundary | with_reducible apply keeps_modFabPort | split)

theorem keeps_resendFrom {z0 : State} (s : State) (p n : Nat) (hK : Keeps z0 s) : Keeps z0 (resendFrom s p n) := by
  unfold resendFrom
  try dsimp only
  repeat' (first
    | with_reducible assumption | simp only [↓keeps_fields, ↓kept_self] | with_reducible apply keeps_modFabPort
    | with_reducible apply keeps_fabCount | with_reducible apply keeps_onFab)

theorem keeps_linkUp {z0 : State} (s : State) (p peer : Nat) (hK : Keeps z0 s) : Keeps z0 (linkUp s p peer) := by
  unfold linkUp
  try dsimp only
  repeat' (first
    | with_reducible assumption | simp only [↓keeps_fields, ↓kept_self] | with_reducible apply keeps_modFabPort
    | with_reducible apply keeps_linkSendAll)

end Sys2Proof.Machine
end

