-- ==== Sys2Proof/Laws/KeepsRecords.lean ====
section
/-! SUPPORT. Sys2Proof/Laws/KeepsRecords.lean: each operation of Machine/Records.lean keeps what `Keeps` says. -/

namespace Sys2Proof.Machine

set_option simprocs false
set_option linter.all false

theorem keeps_logAppend {z0 : State} (s : State) (type part : Nat) (args : List Nat) (hK : Keeps z0 s) : Keeps z0 (logAppend
    s type part args) := by
  unfold logAppend
  try dsimp only
  repeat' (first
    | intro _ | with_reducible assumption | with_reducible apply keeps_ite | simp only [↓keeps_fields, ↓kept_self]
    | with_reducible apply keeps_kept | with_reducible exact FusesGrow.refl _ | with_reducible exact Nat.le_refl _
    | with_reducible exact Nat.le_add_right _ _ | split | assumption)

theorem keeps_raiseEvent {z0 : State} (s : State) (code : Nat) (queue : Nat) (arg : Nat) (hK : Keeps z0 s) : Keeps z0
    (raiseEvent s code queue arg) := by
  unfold raiseEvent
  try dsimp only
  repeat' (first
    | with_reducible assumption | simp only [↓keeps_fields, ↓kept_self])

theorem keeps_logCheck {z0 : State} (s : State) (part tag kind : Nat) (hK : Keeps z0 s) : Keeps z0 (logCheck s part tag
    kind) := by
  unfold logCheck
  try dsimp only
  repeat' (first
    | with_reducible assumption | with_reducible apply keeps_ite | simp only [↓keeps_fields, ↓kept_self]
    | with_reducible apply keeps_logAppend | split)

end Sys2Proof.Machine
end

