-- ==== Sys2Proof/Laws/KeepsRequests.lean ====
section
/-! SUPPORT. Sys2Proof/Laws/KeepsRequests.lean: each operation of Machine/Requests.lean keeps what `Keeps` says. -/

namespace Sys2Proof.Machine

set_option simprocs false
set_option linter.all false

theorem keeps_onK {z0 : State} (s : State) (f : Keeper → Keeper) (hK : Keeps z0 s) : Keeps z0 (onK s f) := by
  unfold onK
  try dsimp only
  repeat' (first
    | with_reducible assumption | simp only [↓keeps_fields, ↓kept_self])

theorem keeps_modAssoc {z0 : State} (s : State) (a : Nat) (f : Assoc → Assoc) (hK : Keeps z0 s) : Keeps z0 (modAssoc s a f) := by
  unfold modAssoc
  try dsimp only
  repeat' (first
    | with_reducible assumption | simp only [↓keeps_fields, ↓kept_self] | with_reducible apply keeps_onK)

theorem keeps_modQueue {z0 : State} (s : State) (q : Nat) (f : Queue → Queue) (hK : Keeps z0 s) : Keeps z0 (modQueue s q f) := by
  unfold modQueue
  try dsimp only
  repeat' (first
    | with_reducible assumption | simp only [↓keeps_fields, ↓kept_self] | with_reducible apply keeps_onK)

theorem keeps_modJob {z0 : State} (s : State) (j : Nat) (f : Job → Job) (hK : Keeps z0 s) : Keeps z0 (modJob s j f) := by
  unfold modJob
  try dsimp only
  repeat' (first
    | with_reducible assumption | simp only [↓keeps_fields, ↓kept_self] | with_reducible apply keeps_onK)

theorem keeps_modSession {z0 : State} (s : State) (x : Nat) (f : Session → Session) (hK : Keeps z0 s) : Keeps z0 (modSession
    s x f) := by
  unfold modSession
  try dsimp only
  repeat' (first
    | with_reducible assumption | simp only [↓keeps_fields, ↓kept_self] | with_reducible apply keeps_onK)

theorem keeps_modModel {z0 : State} (s : State) (m : Nat) (f : Model → Model) (hK : Keeps z0 s) : Keeps z0 (modModel s m f) := by
  unfold modModel
  try dsimp only
  repeat' (first
    | with_reducible assumption | simp only [↓keeps_fields, ↓kept_self] | with_reducible apply keeps_onK)

theorem keeps_modPort {z0 : State} (s : State) (p : Nat) (f : HostPort → HostPort) (hK : Keeps z0 s) : Keeps z0 (modPort s p
    f) := by
  unfold modPort
  try dsimp only
  repeat' (first
    | with_reducible assumption | with_reducible apply keeps_ite | simp only [↓keeps_fields, ↓kept_self] | split)

theorem keeps_emit {z0 : State} (s : State) (n : Nat) (f : TctFrame) (hK : Keeps z0 s) : Keeps z0 (emit s n f) := by
  unfold emit
  try dsimp only
  repeat' (first
    | with_reducible assumption | simp only [↓keeps_fields, ↓kept_self] | with_reducible apply keeps_rcount
    | with_reducible apply keeps_modAssoc | split)

theorem keeps_emitAll {z0 : State} (s : State) (n : Nat) (a0_ : List TctFrame) (hK : Keeps z0 s) : Keeps z0 (emitAll s n
    a0_) := by
  induction a0_ generalizing s n with
  | nil =>
    unfold emitAll
    exact hK
  | cons a r ih =>
    unfold emitAll
    try dsimp only
    repeat' (first
      | with_reducible assumption
      | with_reducible apply ih | with_reducible apply keeps_emit | split)

theorem keeps_pump {z0 : State} (s : State) (n : Nat) (hK : Keeps z0 s) : Keeps z0 (pump s n) := by
  unfold pump
  try dsimp only
  repeat' (first
    | with_reducible assumption | with_reducible apply keeps_ite | simp only [↓keeps_fields, ↓kept_self]
    | with_reducible apply keeps_emitAll | with_reducible apply keeps_modAssoc | split)

theorem keeps_sendMsg {z0 : State} (s : State) (n type : Nat) (payload : List Byte) (handles : List Nat) (hK : Keeps z0 s) :
    Keeps z0 (sendMsg s n type payload handles) := by
  unfold sendMsg
  try dsimp only
  repeat' (first
    | intro _ | with_reducible assumption | with_reducible apply keeps_ite | simp only [↓keeps_fields, ↓kept_self]
    | with_reducible apply keeps_pump | with_reducible apply keeps_modAssoc | with_reducible apply keeps_getD
    | split)

theorem keeps_replyTo {z0 : State} (s : State) (n : Nat) (hostTag : Word) (status handle : Nat) (result : List Byte) (hK :
    Keeps z0 s) : Keeps z0 (replyTo s n hostTag status handle result) := by
  unfold replyTo
  try dsimp only
  repeat' (first
    | with_reducible assumption | with_reducible apply keeps_sendMsg)

theorem keeps_modHandle {z0 : State} (s : State) (h : Nat) (f : Handle → Handle) (hK : Keeps z0 s) : Keeps z0 (modHandle s h
    f) := by
  unfold modHandle
  try dsimp only
  repeat' (first
    | with_reducible assumption | simp only [↓keeps_fields, ↓kept_self] | with_reducible apply keeps_onK)

theorem keeps_deliver {z0 : State} (s : State) (r : Record) (x : Handle) (hK : Keeps z0 s) : Keeps z0 (deliver s r x) := by
  unfold deliver
  try dsimp only
  repeat' (first
    | with_reducible assumption | simp only [↓keeps_fields, ↓kept_self] | with_reducible apply keeps_sendMsg
    | with_reducible apply keeps_modHandle | with_reducible apply keeps_onK | split)

theorem keeps_complete {z0 : State} (s : State) (h status : Nat) (r0 : Nat) (r1 : Nat) (detail : Nat) (hK : Keeps z0 s) :
    Keeps z0 (complete s h status r0 r1 detail) := by
  unfold complete
  try dsimp only
  repeat' (first
    | with_reducible assumption | with_reducible apply keeps_ite | simp only [↓keeps_fields, ↓kept_self]
    | with_reducible apply keeps_deliver | split)

theorem keeps_keepOuts {z0 : State} (s : State) (h : Nat) (ts : List Tile) (hK : Keeps z0 s) : Keeps z0 (keepOuts s h ts) := by
  unfold keepOuts
  try dsimp only
  repeat' (first
    | with_reducible assumption | simp only [↓keeps_fields, ↓kept_self] | with_reducible apply keeps_modHandle)

theorem keeps_offer {s0 : State} (s : State) (rq : Request) (code : Nat) (hK : Keeps s0 s) :
    (∀ t, offer s rq code = .refused t → Keeps s0 t) ∧ (∀ t n p, offer s rq code = .taken t n p → Keeps s0 t) := by
  have h1 : Keeps s0 (onK s fun k => { k with inbox := k.inbox.erase rq }) := keeps_onK _ _ hK
  unfold offer
  generalize (onK s fun k => { k with inbox := k.inbox.erase rq }) = s1 at h1
  dsimp only
  constructor
  · intro t e
    repeat' (first | cases e | split at e)
    all_goals first
      | exact h1
      | exact keeps_replyTo _ _ _ _ _ _ h1
  · intro t n p e
    repeat' (first | cases e | split at e)
    exact keeps_replyTo _ _ _ _ _ _ (keeps_onK _ _ h1)

theorem keeps_offer_refused {s0 : State} {s : State} {rq : Request} {code : Nat} (hK : Keeps s0 s) {t : State}
    (e : offer s rq code = .refused t) : Keeps s0 t := (keeps_offer s rq code hK).1 t e

theorem keeps_offer_taken {s0 : State} {s : State} {rq : Request} {code : Nat} (hK : Keeps s0 s) {t : State} {n p : Nat}
    (e : offer s rq code = .taken t n p) : Keeps s0 t := (keeps_offer s rq code hK).2 t n p e

theorem keeps_onRequest {z0 : State} (s : State) (rq : Request) (code : Nat) (perm : Option Nat) (ok : List Byte → Bool)
    (run : State → Nat → Nat → State) (h_run : ∀ (x0_ : State) (x1_ : Nat) (x2_ : Nat), Keeps z0 x0_ → Keeps z0 (run x0_ x1_
    x2_)) (hK : Keeps z0 s) : Keeps z0 (onRequest s rq code perm ok run) := by
  unfold onRequest
  try dsimp only
  repeat' (first
    | intro _ | with_reducible assumption | with_reducible apply h_run | with_reducible apply keeps_ite
    | simp only [↓keeps_fields, ↓kept_self] | refine keeps_offer_taken ?_ (by assumption)
    | refine keeps_offer_refused ?_ (by assumption) | with_reducible apply keeps_complete | split)

theorem keeps_withTiles {z0 : State} (s : State) (h : Nat) (ts : List Tile) (origin first : Nat) (fmt : Nat → Bool) (go :
    State → State) (h_go : ∀ (x0_ : State), Keeps z0 x0_ → Keeps z0 (go x0_)) (hK : Keeps z0 s) : Keeps z0 (withTiles s h ts
    origin first fmt go) := by
  unfold withTiles
  try dsimp only
  repeat' (first
    | intro _ | with_reducible assumption | with_reducible apply h_go | simp only [↓keeps_fields, ↓kept_self]
    | with_reducible apply keeps_complete | with_reducible apply keeps_rcount | split)

end Sys2Proof.Machine
end

