-- ==== Sys2Proof/Laws/KeepsHostLink.lean ====
section
/-! SUPPORT. Sys2Proof/Laws/KeepsHostLink.lean: each operation of Machine/HostLink.lean keeps what `Keeps` says. -/

namespace Sys2Proof.Machine

set_option simprocs false
set_option linter.all false

theorem keeps_received {z0 : State} (s : State) (m : HostRx) (f : State → Nat → State) (h_f : ∀ (x0_ : State) (x1_ : Nat),
    Keeps z0 x0_ → Keeps z0 (f x0_ x1_)) (hK : Keeps z0 s) : Keeps z0 (received s m f) := by
  unfold received
  try dsimp only
  repeat' (first
    | intro _ | with_reducible assumption | with_reducible apply h_f | simp only [↓keeps_fields, ↓kept_self]
    | with_reducible apply keeps_rcount | split)

theorem keeps_hostSend {z0 : State} (s : State) (o : HostOut) (hK : Keeps z0 s) : Keeps z0 (hostSend s o) := by
  unfold hostSend
  try dsimp only
  repeat' (first
    | with_reducible assumption | simp only [↓keeps_fields, ↓kept_self] | with_reducible apply keeps_rcount)

theorem keeps_execArpRequest {z0 : State} {rx : HostRx} {s : State} (hK : Keeps z0 s) : KeepsE z0 (execArpRequest rx s) := by
  unfold execArpRequest
  try dsimp only
  repeat' (first
    | intro _ | with_reducible assumption | with_reducible apply keepsE_next | with_reducible apply keeps_ite
    | with_reducible apply keepsE_ite | with_reducible apply keeps_received | with_reducible apply keeps_hostSend
    | split)

theorem keeps_execNdSolicitation {z0 : State} {rx : HostRx} {s : State} (hK : Keeps z0 s) : KeepsE z0 (execNdSolicitation rx
    s) := by
  unfold execNdSolicitation
  try dsimp only
  repeat' (first
    | intro _ | with_reducible assumption | with_reducible apply keepsE_next | with_reducible apply keeps_ite
    | with_reducible apply keepsE_ite | with_reducible apply keeps_received | with_reducible apply keeps_hostSend
    | split)

theorem keeps_execIcmpEcho {z0 : State} {rx : HostRx} {data : List Byte} {s : State} (hK : Keeps z0 s) : KeepsE z0
    (execIcmpEcho rx data s) := by
  unfold execIcmpEcho
  try dsimp only
  repeat' (first
    | intro _ | with_reducible assumption | with_reducible apply keepsE_next | with_reducible apply keeps_ite
    | with_reducible apply keepsE_ite | with_reducible apply keeps_received | with_reducible apply keeps_hostSend
    | split)

theorem keeps_execHostFrameDropped {z0 : State} {_port : Fin 2} {cause : Fin 5} {s : State} (hK : Keeps z0 s) : KeepsE z0
    (execHostFrameDropped _port cause s) := by
  unfold execHostFrameDropped
  try dsimp only
  repeat' (first
    | intro _ | with_reducible assumption | with_reducible apply keepsE_next | with_reducible apply keeps_ite
    | with_reducible apply keepsE_ite | with_reducible apply keeps_rcount | split)

theorem keeps_resend {z0 : State} (s : State) (n : Nat) (hK : Keeps z0 s) : Keeps z0 (resend s n) := by
  unfold resend
  try dsimp only
  repeat' (first
    | with_reducible assumption | with_reducible apply keeps_ite | simp only [↓keeps_fields, ↓kept_self]
    | with_reducible apply keeps_emitAll | with_reducible apply keeps_rcount | split)

theorem keeps_resendAll {z0 : State} (s : State) (hK : Keeps z0 s) : Keeps z0 (resendAll s) := by
  unfold resendAll
  try dsimp only
  repeat' (first
    | intro _ | with_reducible assumption | with_reducible apply keeps_resend | with_reducible apply keeps_foldl)

theorem keeps_moveTo {z0 : State} (s : State) (p : Nat) (hK : Keeps z0 s) : Keeps z0 (moveTo s p) := by
  unfold moveTo
  try dsimp only
  repeat' (first
    | with_reducible assumption | simp only [↓keeps_fields, ↓kept_self] | with_reducible apply keeps_hostSend
    | with_reducible apply keeps_raiseEvent | with_reducible apply keeps_resendAll)

theorem keeps_failTo {z0 : State} (s : State) (p : Nat) (hK : Keeps z0 s) : Keeps z0 (failTo s p) := by
  unfold failTo
  try dsimp only
  repeat' (first
    | with_reducible assumption | with_reducible apply keeps_ite | with_reducible apply keeps_moveTo
    | with_reducible apply keeps_rcount | split)

theorem keeps_execHostLinkLoss {z0 : State} {port : Fin 2} {s : State} (hK : Keeps z0 s) : KeepsE z0 (execHostLinkLoss port
    s) := by
  unfold execHostLinkLoss
  try dsimp only
  repeat' (first
    | intro _ | with_reducible assumption | with_reducible apply keepsE_next | with_reducible apply keeps_ite
    | with_reducible apply keepsE_ite | simp only [↓keeps_fields, ↓kept_self] | with_reducible apply keeps_modPort
    | with_reducible apply keeps_failTo | split)

theorem keeps_phyTurn {z0 : State} (s : State) (p : Nat) (hK : Keeps z0 s) : Keeps z0 (phyTurn s p) := by
  unfold phyTurn
  try dsimp only
  repeat' (first
    | with_reducible assumption | with_reducible apply keeps_ite | simp only [↓keeps_fields, ↓kept_self]
    | with_reducible apply keeps_failTo | with_reducible apply keeps_modPort | with_reducible apply keeps_onK
    | split)

theorem keeps_execHostLinkUp {z0 : State} {port : Fin 2} {sqi : Fin 8} {s : State} (hK : Keeps z0 s) : KeepsE z0
    (execHostLinkUp port sqi s) := by
  unfold execHostLinkUp
  try dsimp only
  repeat' (first
    | intro _ | with_reducible assumption | with_reducible apply keepsE_next | with_reducible apply keeps_ite
    | with_reducible apply keepsE_ite | simp only [↓keeps_fields, ↓kept_self] | with_reducible apply keeps_hostSend
    | with_reducible apply keeps_modPort | with_reducible apply keeps_moveTo | with_reducible apply keeps_phyTurn
    | split)

theorem keeps_execHostLinkReturn {z0 : State} {s : State} (hK : Keeps z0 s) : KeepsE z0 (execHostLinkReturn s) := by
  unfold execHostLinkReturn
  try dsimp only
  repeat' (first
    | intro _ | with_reducible assumption | with_reducible apply keepsE_next | with_reducible apply keeps_ite
    | with_reducible apply keepsE_ite | simp only [↓keeps_fields, ↓kept_self] | with_reducible apply keeps_failTo
    | split)

theorem keeps_mayWrite {z0 : State} (s : State) (by_ : Req) (r : Region) (f : State → State) (h_f : ∀ (x0_ : State), Keeps
    z0 x0_ → Keeps z0 (f x0_)) (hK : Keeps z0 s) : Keeps z0 (mayWrite s by_ r f) := by
  unfold mayWrite
  try dsimp only
  repeat' (first
    | intro _ | with_reducible assumption | with_reducible apply h_f | with_reducible apply keeps_ite
    | with_reducible apply keeps_busOk | with_reducible apply keeps_busError | split)

theorem keeps_execHostFailover {z0 : State} {by_ : Req} {s : State} (hK : Keeps z0 s) : KeepsE z0 (execHostFailover by_ s) := by
  unfold execHostFailover
  try dsimp only
  repeat' (first
    | intro _ | with_reducible assumption | with_reducible apply keepsE_next | with_reducible apply keeps_mayWrite
    | with_reducible apply keeps_failTo)

theorem keeps_portRestart {z0 : State} (s : State) (p : Nat) (hK : Keeps z0 s) : Keeps z0 (portRestart s p) := by
  unfold portRestart
  try dsimp only
  repeat' (first
    | with_reducible assumption | with_reducible apply keeps_ite | simp only [↓keeps_fields, ↓kept_self]
    | with_reducible apply keeps_rboundary | with_reducible apply keeps_modPort | with_reducible apply keeps_failTo
    | split)

theorem keeps_execHostPortRestart {z0 : State} {by_ : Req} {port : Fin 2} {s : State} (hK : Keeps z0 s) : KeepsE z0
    (execHostPortRestart by_ port s) := by
  unfold execHostPortRestart
  try dsimp only
  repeat' (first
    | intro _ | with_reducible assumption | with_reducible apply keepsE_next | with_reducible apply keeps_mayWrite
    | with_reducible apply keeps_portRestart)

theorem keeps_execTc10SleepRequest {z0 : State} {port : Fin 2} {s : State} (hK : Keeps z0 s) : KeepsE z0
    (execTc10SleepRequest port s) := by
  unfold execTc10SleepRequest
  try dsimp only
  repeat' (first
    | intro _ | with_reducible assumption | with_reducible apply keepsE_next | with_reducible apply keeps_ite
    | with_reducible apply keepsE_ite | simp only [↓keeps_fields, ↓kept_self] | with_reducible apply keeps_modPort
    | split)

theorem keeps_execMkaFrame {z0 : State} {port : Fin 2} {principal : Fin 9} {valid up : Bool} {s : State} (hK : Keeps z0 s) :
    KeepsE z0 (execMkaFrame port principal valid up s) := by
  unfold execMkaFrame
  try dsimp only
  repeat' (first
    | intro _ | with_reducible assumption | with_reducible apply keepsE_next | with_reducible apply keeps_ite
    | with_reducible apply keepsE_ite | simp only [↓keeps_fields, ↓kept_self] | with_reducible apply keeps_rcount
    | with_reducible apply keeps_hostSend | with_reducible apply keeps_modPort | split)

end Sys2Proof.Machine
end

