-- ==== Sys2Proof/Laws/KeepsSec.lean ====
section
/-! SUPPORT. Sys2Proof/Laws/KeepsSec.lean: each operation of Machine/Sec.lean keeps what `Keeps` says. -/

namespace Sys2Proof.Machine

set_option simprocs false
set_option linter.all false

theorem keeps_onSec {z0 : State} (s : State) (f : Sec → Sec) (hK : Keeps z0 s) : Keeps z0 (onSec s f) := by
  unfold onSec
  try dsimp only
  repeat' (first
    | with_reducible assumption | simp only [↓keeps_fields, ↓kept_self])

theorem keeps_onStore {z0 : State} (s : State) (f : SecStore → SecStore) (hK : Keeps z0 s) : Keeps z0 (onStore s f) := by
  unfold onStore
  try dsimp only
  repeat' (first
    | with_reducible assumption | simp only [↓keeps_fields, ↓kept_self])

theorem keeps_countAuthFail {z0 : State} (s : State) (hK : Keeps z0 s) : Keeps z0 (countAuthFail s) := by
  unfold countAuthFail
  try dsimp only
  repeat' (first
    | with_reducible assumption | simp only [↓keeps_fields, ↓kept_self] | with_reducible apply keeps_onSec)

theorem keeps_extend {z0 : State} (s : State) (i : Nat) (event : List Byte) (hK : Keeps z0 s) : Keeps z0 (extend s i event) := by
  unfold extend
  try dsimp only
  repeat' (first
    | with_reducible assumption | simp only [↓keeps_fields, ↓kept_self] | with_reducible apply keeps_onSec)

theorem keeps_imageRefused {z0 : State} (s : State) (step : Nat) (hK : Keeps z0 s) : Keeps z0 (imageRefused s step) := by
  unfold imageRefused
  try dsimp only
  repeat' (first
    | with_reducible assumption | with_reducible apply keeps_logAppend | with_reducible apply keeps_countAuthFail)

theorem keeps_takeToken {z0 : State} (s : State) (type : Nat) (t : List Byte) (hK : Keeps z0 s) : Keeps z0 (takeToken s type
    t).1 := by
  unfold takeToken
  try dsimp only
  repeat' (first
    | with_reducible assumption | with_reducible apply keeps_ite | simp only [↓keeps_fields, ↓kept_self]
    | with_reducible apply keeps_onSec | with_reducible apply keeps_logAppend
    | with_reducible apply keeps_countAuthFail | split)

theorem keepsP_takeToken {z0 : State} (s : State) (type : Nat) (t : List Byte) (hK : Keeps z0 s) {t_ : State} {y_} (e_ :
    takeToken s type t = (t_, y_)) : Keeps z0 t_ := by
  have := keeps_takeToken (s := s) (type := type) (t := t)  hK
  rw [e_] at this
  exact this

theorem keeps_makeKey {z0 : State} (s : State) (t g : Nat) (id : BitVec 64) (hK : Keeps z0 s) : Keeps z0 (makeKey s t g id) := by
  unfold makeKey
  try dsimp only
  repeat' (first
    | with_reducible assumption | simp only [↓keeps_fields, ↓kept_self] | with_reducible apply keeps_onStore
    | with_reducible apply keeps_onSec | assumption)

theorem keeps_zeroKey {z0 : State} (s : State) (k : Nat) (hK : Keeps z0 s) : Keeps z0 (zeroKey s k) := by
  unfold zeroKey
  try dsimp only
  repeat' (first
    | with_reducible assumption | simp only [↓keeps_fields, ↓kept_self] | with_reducible apply keeps_onStore
    | with_reducible apply keeps_onSec)

theorem keeps_zeroRetired {z0 : State} (s : State) (ids : List (BitVec 64)) (hK : Keeps z0 s) : Keeps z0 (zeroRetired s ids) := by
  unfold zeroRetired
  try dsimp only
  repeat' (first
    | intro _ | with_reducible assumption | with_reducible apply keeps_ite | with_reducible apply keeps_zeroKey
    | with_reducible apply keeps_foldl | split)

theorem keeps_secWrite {z0 : State} (s : State) (by_ : Req) (f : State → State) (h_f : ∀ (x0_ : State), Keeps z0 x0_ → Keeps
    z0 (f x0_)) (hK : Keeps z0 s) : Keeps z0 (secWrite s by_ f) := by
  unfold secWrite
  try dsimp only
  repeat' (first
    | intro _ | with_reducible assumption | with_reducible apply h_f | with_reducible apply keeps_ite
    | with_reducible apply keeps_busOk | with_reducible apply keeps_busError | split)

theorem keeps_zeroiseAll {z0 : State} (s : State) (hK : Keeps z0 s) : Keeps z0 (zeroiseAll s) := by
  unfold zeroiseAll
  try dsimp only
  repeat' (first
    | with_reducible assumption | simp only [↓keeps_fields, ↓kept_self] | with_reducible apply keeps_onSec)

theorem keeps_execSecZeroiseAll {z0 : State} {by_ : Req} {s : State} (hK : Keeps z0 s) : KeepsE z0 (execSecZeroiseAll by_ s) := by
  unfold execSecZeroiseAll
  try dsimp only
  repeat' (first
    | intro _ | with_reducible assumption | with_reducible apply keepsE_next | with_reducible apply keeps_secWrite
    | with_reducible apply keeps_zeroiseAll)

theorem keeps_ownerUnlock {z0 : State} (s : State) (v : Bool) (hK : Keeps z0 s) : Keeps z0 (ownerUnlock s v) := by
  unfold ownerUnlock
  try dsimp only
  repeat' (first
    | with_reducible assumption | simp only [↓keeps_fields, ↓kept_self] | with_reducible apply keeps_onSec
    | with_reducible apply keeps_ownerUnlock)

theorem keeps_execSecOwnerUnlock {z0 : State} {by_ : Req} {v : Bool} {s : State} (hK : Keeps z0 s) : KeepsE z0
    (execSecOwnerUnlock by_ v s) := by
  unfold execSecOwnerUnlock
  try dsimp only
  repeat' (first
    | intro _ | with_reducible assumption | with_reducible apply keepsE_next | with_reducible apply keeps_secWrite
    | with_reducible apply keeps_ownerUnlock)

theorem keeps_secRestart {z0 : State} (s : State) (header : List Byte) (hK : Keeps z0 s) : Keeps z0 (secRestart s header) := by
  unfold secRestart
  try dsimp only
  repeat' (first
    | with_reducible assumption | simp only [↓keeps_fields, ↓kept_self] | with_reducible apply keeps_extend
    | with_reducible apply keeps_onSec)

theorem keeps_execTrngHealthFail {z0 : State} {s : State} (hK : Keeps z0 s) : KeepsE z0 (execTrngHealthFail s) := by
  unfold execTrngHealthFail
  try dsimp only
  repeat' (first
    | intro _ | with_reducible assumption | with_reducible apply keepsE_next | with_reducible apply keeps_ite
    | with_reducible apply keepsE_ite | simp only [↓keeps_fields, ↓kept_self] | with_reducible apply keeps_onSec
    | split)

end Sys2Proof.Machine
end

