-- ==== Sys2Proof/Laws/KeepsAgcon.lean ====
section
/-! SUPPORT. Sys2Proof/Laws/KeepsAgcon.lean: each operation of Machine/Agcon.lean keeps what `Keeps` says. -/

namespace Sys2Proof.Machine

set_option simprocs false
set_option linter.all false

theorem keeps_sendMoor {z0 : State} (s : State) (hK : Keeps z0 s) : Keeps z0 (sendMoor s) := by
  unfold sendMoor
  try dsimp only
  repeat' (first
    | with_reducible assumption | simp only [↓keeps_fields, ↓kept_self] | with_reducible apply keeps_linkSend
    | with_reducible apply keeps_onFab | split)

theorem keeps_keepReport {z0 : State} (s : State) (seg : Nat) (es : List LightEntry) (hK : Keeps z0 s) : Keeps z0
    (keepReport s seg es) := by
  unfold keepReport
  try dsimp only
  repeat' (first
    | with_reducible assumption | with_reducible apply keeps_ite | simp only [↓keeps_fields, ↓kept_self]
    | with_reducible apply keeps_onFab | split)

theorem keeps_headMoored {z0 : State} (s : State) (es : List LightEntry) (closed : Bool) (hK : Keeps z0 s) : Keeps z0
    (headMoored s es closed) := by
  unfold headMoored
  try dsimp only
  repeat' (first
    | with_reducible assumption | simp only [↓keeps_fields, ↓kept_self] | with_reducible apply keeps_onFab
    | with_reducible apply keeps_flood | with_reducible apply keeps_keepReport)

theorem keeps_endMoor {z0 : State} (s : State) (es : List LightEntry) (closed : Bool) (hK : Keeps z0 s) : Keeps z0 (endMoor
    s es closed) := by
  unfold endMoor
  try dsimp only
  repeat' (first
    | with_reducible assumption | with_reducible apply keeps_ite | simp only [↓keeps_fields, ↓kept_self]
    | with_reducible apply keeps_onFab | with_reducible apply keeps_headMoored | with_reducible apply keeps_linkSend
    | split)

theorem keeps_extendToken {z0 : State} (s : State) (hK : Keeps z0 s) : Keeps z0 (extendToken s) := by
  unfold extendToken
  try dsimp only
  repeat' (first
    | with_reducible assumption | with_reducible apply keeps_ite | simp only [↓keeps_fields, ↓kept_self]
    | with_reducible apply keeps_endMoor | with_reducible apply keeps_sendMoor | with_reducible apply keeps_onFab
    | with_reducible apply keeps_modFabPort | split)

theorem keeps_sendProbe {z0 : State} (s : State) (p : Nat) (hK : Keeps z0 s) : Keeps z0 (sendProbe s p) := by
  unfold sendProbe
  try dsimp only
  repeat' (first
    | with_reducible assumption | with_reducible apply keeps_ite | with_reducible apply keeps_linkSend | split)

theorem keeps_probeAll {z0 : State} (s : State) (hK : Keeps z0 s) : Keeps z0 (probeAll s) := by
  unfold probeAll
  try dsimp only
  repeat' (first
    | intro _ | with_reducible assumption | with_reducible apply keeps_sendProbe | with_reducible apply keeps_foldl)

theorem keeps_takeAddress {z0 : State} (s : State) (a : Nat) (hK : Keeps z0 s) : Keeps z0 (takeAddress s a) := by
  unfold takeAddress
  try dsimp only
  repeat' (first
    | with_reducible assumption | simp only [↓keeps_fields, ↓kept_self] | with_reducible apply keeps_probeAll
    | with_reducible apply keeps_onFab)

theorem keeps_moorStart {z0 : State} (s : State) (hK : Keeps z0 s) : Keeps z0 (moorStart s) := by
  unfold moorStart
  try dsimp only
  repeat' (first
    | with_reducible assumption | with_reducible apply keeps_ite | simp only [↓keeps_fields, ↓kept_self]
    | with_reducible apply keeps_extendToken | with_reducible apply keeps_onFab
    | with_reducible apply keeps_takeAddress | split)

theorem keeps_execMoorStart {z0 : State} {by_ : Req} {s : State} (hK : Keeps z0 s) : KeepsE z0 (execMoorStart by_ s) := by
  unfold execMoorStart
  try dsimp only
  repeat' (first
    | intro _ | with_reducible assumption | with_reducible apply keepsE_next | with_reducible apply keeps_mayWrite
    | with_reducible apply keeps_moorStart)

theorem keeps_takeMoor {z0 : State} (s : State) (p : Nat) (f : FabFrame) (seg stn : Nat) (hK : Keeps z0 s) : Keeps z0
    (takeMoor s p f seg stn) := by
  unfold takeMoor
  try dsimp only
  repeat' (first
    | with_reducible assumption | with_reducible apply keeps_ite | simp only [↓keeps_fields, ↓kept_self]
    | with_reducible apply keeps_raiseEvent | with_reducible apply keeps_modFabPort
    | with_reducible apply keeps_extendToken | with_reducible apply keeps_takeAddress | split)

theorem keeps_execMoor {z0 : State} {port : Fin 4} {f : FabFrame} {seg : Fin 16} {stn : Fin 256} {s : State} (hK : Keeps z0
    s) : KeepsE z0 (execMoor port f seg stn s) := by
  unfold execMoor
  try dsimp only
  repeat' (first
    | intro _ | with_reducible assumption | with_reducible apply keepsE_next | with_reducible apply keeps_onControl
    | with_reducible apply keeps_takeMoor)

theorem keeps_execMoorEnd {z0 : State} {port : Fin 4} {f : FabFrame} {entries : List LightEntry} {closed : Bool} {s : State}
    (hK : Keeps z0 s) : KeepsE z0 (execMoorEnd port f entries closed s) := by
  unfold execMoorEnd
  try dsimp only
  repeat' (first
    | intro _ | with_reducible assumption | with_reducible apply keepsE_next | with_reducible apply keeps_ite
    | with_reducible apply keepsE_ite | with_reducible apply keeps_onControl | with_reducible apply keeps_endMoor
    | split)

theorem keeps_cablingFault {z0 : State} (s : State) (p : Nat) (hK : Keeps z0 s) : Keeps z0 (cablingFault s p) := by
  unfold cablingFault
  try dsimp only
  repeat' (first
    | with_reducible assumption | simp only [↓keeps_fields, ↓kept_self] | with_reducible apply keeps_raiseEvent
    | with_reducible apply keeps_modFabPort)

theorem keeps_execProbe {z0 : State} {port : Fin 4} {f : FabFrame} {addr : BitVec 16} {s : State} (hK : Keeps z0 s) : KeepsE
    z0 (execProbe port f addr s) := by
  unfold execProbe
  try dsimp only
  repeat' (first
    | intro _ | with_reducible assumption | with_reducible apply keepsE_next | with_reducible apply keeps_ite
    | with_reducible apply keepsE_ite | simp only [↓keeps_fields, ↓kept_self] | with_reducible apply keeps_onControl
    | with_reducible apply keeps_cablingFault | with_reducible apply keeps_modFabPort | split)

theorem keeps_execSegReport {z0 : State} {port : Fin 4} {f : FabFrame} {origin gen : Nat} {entries : List LightEntry} {s :
    State} (hK : Keeps z0 s) : KeepsE z0 (execSegReport port f origin gen entries s) := by
  unfold execSegReport
  try dsimp only
  repeat' (first
    | intro _ | with_reducible assumption | with_reducible apply keepsE_next | simp only [↓keeps_fields, ↓kept_self]
    | with_reducible apply keeps_onControl | with_reducible apply keeps_onFlood
    | with_reducible apply keeps_keepReport)

theorem keeps_routeCommit {z0 : State} (s : State) (hK : Keeps z0 s) : Keeps z0 (routeCommit s) := by
  unfold routeCommit
  try dsimp only
  repeat' (first
    | intro _ | with_reducible assumption | with_reducible apply keeps_rboundary | with_reducible apply keeps_foldl)

theorem keeps_execRouteCommit {z0 : State} {by_ : Req} {s : State} (hK : Keeps z0 s) : KeepsE z0 (execRouteCommit by_ s) := by
  unfold execRouteCommit
  try dsimp only
  repeat' (first
    | intro _ | with_reducible assumption | with_reducible apply keepsE_next | with_reducible apply keeps_mayWrite
    | with_reducible apply keeps_routeCommit)

theorem keeps_installLight {z0 : State} (s : State) (m : LightMsg) (hK : Keeps z0 s) : Keeps z0 (installLight s m) := by
  unfold installLight
  try dsimp only
  repeat' (first
    | intro _ | with_reducible assumption | simp only [↓keeps_fields, ↓kept_self]
    | with_reducible apply keeps_onStore | with_reducible apply keeps_zeroRetired | with_reducible apply keeps_onFab
    | with_reducible apply keeps_routeCommit | with_reducible apply keeps_foldl | with_reducible apply keeps_getD)

theorem keeps_floodLight {z0 : State} (s : State) (l : SMap LightEntry) (hK : Keeps z0 s) : Keeps z0 (floodLight s l) := by
  unfold floodLight
  try dsimp only
  repeat' (first
    | with_reducible assumption | with_reducible apply keeps_flood | with_reducible apply keeps_installLight)

theorem keeps_execLightBuild {z0 : State} {s : State} (hK : Keeps z0 s) : KeepsE z0 (execLightBuild s) := by
  unfold execLightBuild
  try dsimp only
  repeat' (first
    | intro _ | with_reducible assumption | with_reducible apply keepsE_next | with_reducible apply keeps_ite
    | with_reducible apply keepsE_ite | simp only [↓keeps_fields, ↓kept_self]
    | with_reducible apply keeps_raiseEvent | with_reducible apply keeps_floodLight
    | with_reducible apply keeps_onFab | with_reducible apply keeps_foldl | split)

theorem keeps_tokenLost {z0 : State} (s : State) (p : Nat) (hK : Keeps z0 s) : Keeps z0 (tokenLost s p) := by
  unfold tokenLost
  try dsimp only
  repeat' (first
    | with_reducible assumption | with_reducible apply keeps_ite | with_reducible apply keeps_endMoor | split)

theorem keeps_execAgconLinkTrained {z0 : State} {port : Fin 4} {lanes : Fin 16} {s : State} (hK : Keeps z0 s) : KeepsE z0
    (execAgconLinkTrained port lanes s) := by
  unfold execAgconLinkTrained
  try dsimp only
  repeat' (first
    | intro _ | with_reducible assumption | with_reducible apply keepsE_next | with_reducible apply keeps_ite
    | with_reducible apply keepsE_ite | simp only [↓keeps_fields, ↓kept_self]
    | with_reducible apply keeps_modFabPort | with_reducible apply keeps_fabCount | with_reducible apply keeps_onFab
    | with_reducible apply keeps_tokenLost | split)

theorem keeps_portReady {z0 : State} (s : State) (p : Nat) (hK : Keeps z0 s) : Keeps z0 (portReady s p) := by
  unfold portReady
  try dsimp only
  repeat' (first
    | with_reducible assumption | with_reducible apply keeps_ite | with_reducible apply keeps_sendProbe
    | with_reducible apply keeps_extendToken | split)

theorem keeps_execAuth {z0 : State} {port : Fin 4} {root : Fin 2} {ok : Bool} {role : Fin 4} {peer : BitVec 16} {s : State}
    (hK : Keeps z0 s) : KeepsE z0 (execAuth port root ok role peer s) := by
  unfold execAuth
  try dsimp only
  repeat' (first
    | intro _ | with_reducible assumption | with_reducible apply keepsE_next | with_reducible apply keeps_ite
    | with_reducible apply keepsE_ite | simp only [↓keeps_fields, ↓kept_self] | with_reducible apply keeps_fabCount
    | with_reducible apply keeps_modFabPort | with_reducible apply keeps_tokenLost
    | with_reducible apply keeps_raiseEvent | with_reducible apply keeps_logAppend
    | with_reducible apply keeps_cablingFault | with_reducible apply keeps_portReady
    | with_reducible apply keeps_linkUp | split)

theorem keeps_execKey {z0 : State} {port : Fin 4} {f : FabFrame} {s : State} (hK : Keeps z0 s) : KeepsE z0 (execKey port f
    s) := by
  unfold execKey
  try dsimp only
  repeat' (first
    | intro _ | with_reducible assumption | with_reducible apply keepsE_next | simp only [↓keeps_fields, ↓kept_self]
    | with_reducible apply keeps_onLink | with_reducible apply keeps_modFabPort)

theorem keeps_execAgconRekey {z0 : State} {port : Fin 4} {s : State} (hK : Keeps z0 s) : KeepsE z0 (execAgconRekey port s) := by
  unfold execAgconRekey
  try dsimp only
  repeat' (first
    | intro _ | with_reducible assumption | with_reducible apply keepsE_next | with_reducible apply keeps_ite
    | with_reducible apply keepsE_ite | simp only [↓keeps_fields, ↓kept_self] | with_reducible apply keeps_linkEmit
    | with_reducible apply keeps_modFabPort | split)

theorem keeps_execIdle {z0 : State} {port : Fin 4} {f : FabFrame} {s : State} (hK : Keeps z0 s) : KeepsE z0 (execIdle port f
    s) := by
  unfold execIdle
  try dsimp only
  repeat' (first
    | intro _ | with_reducible assumption | with_reducible apply keepsE_next | with_reducible apply keeps_onLink
    | assumption)

theorem keeps_execLinkAck {z0 : State} {port : Fin 4} {f : FabFrame} {n : Nat} {s : State} (hK : Keeps z0 s) : KeepsE z0
    (execLinkAck port f n s) := by
  unfold execLinkAck
  try dsimp only
  repeat' (first
    | intro _ | with_reducible assumption | with_reducible apply keepsE_next | simp only [↓keeps_fields, ↓kept_self]
    | with_reducible apply keeps_onLink | with_reducible apply keeps_takeLinkAck)

theorem keeps_execLinkNak {z0 : State} {port : Fin 4} {f : FabFrame} {n : Nat} {s : State} (hK : Keeps z0 s) : KeepsE z0
    (execLinkNak port f n s) := by
  unfold execLinkNak
  try dsimp only
  repeat' (first
    | intro _ | with_reducible assumption | with_reducible apply keepsE_next | with_reducible apply keeps_ite
    | with_reducible apply keepsE_ite | simp only [↓keeps_fields, ↓kept_self] | with_reducible apply keeps_onLink
    | with_reducible apply keeps_takeLinkAck | with_reducible apply keeps_linkRestart
    | with_reducible apply keeps_resendFrom | split)

theorem keeps_execCredit {z0 : State} {port : Fin 4} {f : FabFrame} {s : State} (hK : Keeps z0 s) : KeepsE z0 (execCredit
    port f s) := by
  unfold execCredit
  try dsimp only
  repeat' (first
    | intro _ | with_reducible assumption | with_reducible apply keepsE_next | with_reducible apply keeps_ite
    | with_reducible apply keepsE_ite | simp only [↓keeps_fields, ↓kept_self] | with_reducible apply keeps_onLink
    | with_reducible apply keeps_fabSend | split)

theorem keeps_execAgconLinkDown {z0 : State} {port : Fin 4} {s : State} (hK : Keeps z0 s) : KeepsE z0 (execAgconLinkDown
    port s) := by
  unfold execAgconLinkDown
  try dsimp only
  repeat' (first
    | intro _ | with_reducible assumption | with_reducible apply keepsE_next | with_reducible apply keeps_ite
    | with_reducible apply keepsE_ite | simp only [↓keeps_fields, ↓kept_self] | with_reducible apply keeps_tokenLost
    | with_reducible apply keeps_modFabPort | split)

theorem keeps_fabRestart {z0 : State} (s : State) (mask : Nat) (hK : Keeps z0 s) : Keeps z0 (fabRestart s mask) := by
  unfold fabRestart
  try dsimp only
  repeat' (first
    | intro _ | with_reducible assumption | with_reducible apply keeps_linkRestart
    | with_reducible apply keeps_foldl)

theorem keeps_execAgconPortRestart {z0 : State} {by_ : Req} {mask : Fin 16} {s : State} (hK : Keeps z0 s) : KeepsE z0
    (execAgconPortRestart by_ mask s) := by
  unfold execAgconPortRestart
  try dsimp only
  repeat' (first
    | intro _ | with_reducible assumption | with_reducible apply keepsE_next | with_reducible apply keeps_mayWrite
    | with_reducible apply keeps_fabRestart)

theorem keeps_execAgconFrameRejected {z0 : State} {port : Fin 4} {cause : Fin 4} {s : State} (hK : Keeps z0 s) : KeepsE z0
    (execAgconFrameRejected port cause s) := by
  unfold execAgconFrameRejected
  try dsimp only
  repeat' (first
    | intro _ | with_reducible assumption | with_reducible apply keepsE_next | with_reducible apply keeps_ite
    | with_reducible apply keepsE_ite | with_reducible apply keeps_linkNak | with_reducible apply keeps_fabCount
    | split)

theorem keeps_execFabricControlSend {z0 : State} {port : Fin 4} {f : FabFrame} {s : State} (hK : Keeps z0 s) : KeepsE z0
    (execFabricControlSend port f s) := by
  unfold execFabricControlSend
  try dsimp only
  repeat' (first
    | intro _ | with_reducible assumption | with_reducible apply keepsE_next | with_reducible apply keeps_ite
    | with_reducible apply keepsE_ite | with_reducible apply keeps_linkSend | with_reducible apply keeps_mbxTake
    | split)

end Sys2Proof.Machine
end

