-- ==== Sys2Proof/Laws/KeepsAon.lean ====
section
/-! SUPPORT. Sys2Proof/Laws/KeepsAon.lean: each operation of Machine/Aon.lean keeps what `Keeps` says. -/

namespace Sys2Proof.Machine

set_option simprocs false
set_option linter.all false

theorem keeps_onAon {z0 : State} (s : State) (f : Aon → Aon) (hK : Keeps z0 s) : Keeps z0 (onAon s f) := by
  unfold onAon
  try dsimp only
  repeat' (first
    | with_reducible assumption | simp only [↓keeps_fields, ↓kept_self])

theorem keeps_aonWrite {z0 : State} (s : State) (by_ : Req) (keeper dsp : Bool) (f : State → State) (h_f : ∀ (x0_ : State),
    Keeps z0 x0_ → Keeps z0 (f x0_)) (hK : Keeps z0 s) : Keeps z0 (aonWrite s by_ keeper dsp f) := by
  unfold aonWrite
  try dsimp only
  repeat' (first
    | intro _ | with_reducible assumption | with_reducible apply h_f | with_reducible apply keeps_ite
    | with_reducible apply keeps_busError | with_reducible apply keeps_busOk | split)

theorem keeps_execRingFrameRecord {z0 : State} {samples : List Int} {s : State} (hK : Keeps z0 s) : KeepsE z0
    (execRingFrameRecord samples s) := by
  unfold execRingFrameRecord
  try dsimp only
  repeat' (first
    | intro _ | with_reducible assumption | with_reducible apply keepsE_next | with_reducible apply keeps_ite
    | with_reducible apply keepsE_ite | simp only [↓keeps_fields, ↓kept_self] | with_reducible apply keeps_kept
    | with_reducible exact FusesGrow.refl _ | with_reducible exact Nat.le_refl _
    | with_reducible exact Nat.le_add_right _ _ | with_reducible apply Memory.wf_writeBytes | split | assumption)

theorem keeps_runStart {z0 : State} (s : State) (hK : Keeps z0 s) : Keeps z0 (runStart s) := by
  unfold runStart
  try dsimp only
  repeat' (first
    | with_reducible assumption | with_reducible apply keeps_ite | simp only [↓keeps_fields, ↓kept_self]
    | with_reducible apply keeps_onAon | split)

theorem keeps_execAonRunStart {z0 : State} {by_ : Req} {s : State} (hK : Keeps z0 s) : KeepsE z0 (execAonRunStart by_ s) := by
  unfold execAonRunStart
  try dsimp only
  repeat' (first
    | intro _ | with_reducible assumption | with_reducible apply keepsE_next | with_reducible apply keeps_aonWrite
    | with_reducible apply keeps_runStart)

theorem keeps_writeTrims {z0 : State} (s : State) (hK : Keeps z0 s) : Keeps z0 (writeTrims s) := by
  unfold writeTrims
  try dsimp only
  repeat' (first
    | intro _ | with_reducible assumption | simp only [↓keeps_fields, ↓kept_self] | with_reducible apply keeps_onAon
    | with_reducible apply keeps_foldl)

theorem keeps_runStop {z0 : State} (s : State) (hK : Keeps z0 s) : Keeps z0 (runStop s) := by
  unfold runStop
  try dsimp only
  repeat' (first
    | with_reducible assumption | simp only [↓keeps_fields, ↓kept_self] | with_reducible apply keeps_writeTrims
    | with_reducible apply keeps_onAon)

theorem keeps_execAonRunStop {z0 : State} {by_ : Req} {s : State} (hK : Keeps z0 s) : KeepsE z0 (execAonRunStop by_ s) := by
  unfold execAonRunStop
  try dsimp only
  repeat' (first
    | intro _ | with_reducible assumption | with_reducible apply keepsE_next | with_reducible apply keeps_aonWrite
    | with_reducible apply keeps_runStop)

theorem keeps_latch {z0 : State} (s : State) (hK : Keeps z0 s) : Keeps z0 (latch s) := by
  unfold latch
  try dsimp only
  repeat' (first
    | with_reducible assumption | simp only [↓keeps_fields, ↓kept_self] | with_reducible apply keeps_onAon)

theorem keeps_execAonLatch {z0 : State} {by_ : Req} {s : State} (hK : Keeps z0 s) : KeepsE z0 (execAonLatch by_ s) := by
  unfold execAonLatch
  try dsimp only
  repeat' (first
    | intro _ | with_reducible assumption | with_reducible apply keepsE_next | with_reducible apply keeps_aonWrite
    | with_reducible apply keeps_latch)

theorem keeps_clearDspSram {z0 : State} (s : State) (hK : Keeps z0 s) : Keeps z0 (clearDspSram s) := by
  unfold clearDspSram
  try dsimp only
  repeat' (first
    | intro _ | with_reducible assumption | simp only [↓keeps_fields, ↓kept_self] | with_reducible apply keeps_kept
    | with_reducible exact FusesGrow.refl _ | with_reducible exact Nat.le_refl _
    | with_reducible exact Nat.le_add_right _ _ | with_reducible apply Memory.wf_clear | assumption)

theorem keeps_dspReset {z0 : State} (s : State) (v : Bool) (hK : Keeps z0 s) : Keeps z0 (dspReset s v) := by
  unfold dspReset
  try dsimp only
  repeat' (first
    | with_reducible assumption | with_reducible apply keeps_ite | simp only [↓keeps_fields, ↓kept_self]
    | with_reducible apply keeps_onAon | with_reducible apply keeps_clearDspSram
    | with_reducible apply keeps_dspReset | split)

theorem keeps_execDspResetAssert {z0 : State} {by_ : Req} {s : State} (hK : Keeps z0 s) : KeepsE z0 (execDspResetAssert by_
    s) := by
  unfold execDspResetAssert
  try dsimp only
  repeat' (first
    | intro _ | with_reducible assumption | with_reducible apply keepsE_next | with_reducible apply keeps_aonWrite
    | with_reducible apply keeps_dspReset)

theorem keeps_execDspResetRelease {z0 : State} {by_ : Req} {s : State} (hK : Keeps z0 s) : KeepsE z0 (execDspResetRelease
    by_ s) := by
  unfold execDspResetRelease
  try dsimp only
  repeat' (first
    | intro _ | with_reducible assumption | with_reducible apply keepsE_next | with_reducible apply keeps_aonWrite
    | with_reducible apply keeps_dspReset)

theorem keeps_aonConfigWrite {z0 : State} (s : State) (reg : AonReg) (v : Word) (hK : Keeps z0 s) : Keeps z0 (aonConfigWrite
    s reg v) := by
  unfold aonConfigWrite
  try dsimp only
  repeat' (first
    | with_reducible assumption | with_reducible apply keeps_ite | simp only [↓keeps_fields, ↓kept_self]
    | with_reducible apply keeps_onAon | split)

theorem keeps_execAonConfigWrite {z0 : State} {by_ : Req} {reg : AonReg} {v : Word} {s : State} (hK : Keeps z0 s) : KeepsE
    z0 (execAonConfigWrite by_ reg v s) := by
  unfold execAonConfigWrite
  try dsimp only
  repeat' (first
    | intro _ | with_reducible assumption | with_reducible apply keepsE_next | with_reducible apply keeps_aonWrite
    | with_reducible apply keeps_aonConfigWrite)

theorem keeps_gateDenied {z0 : State} (s : State) (hK : Keeps z0 s) : Keeps z0 (gateDenied s) := by
  unfold gateDenied
  try dsimp only
  repeat' (first
    | with_reducible assumption | simp only [↓keeps_fields, ↓kept_self] | with_reducible apply keeps_logAppend
    | with_reducible apply keeps_onAon | with_reducible apply keeps_gateDenied)

theorem keeps_execRingGatedRead {z0 : State} {by_ : Req} {off : Fin 0x600000} {n : Fin 4} {s : State} (hK : Keeps z0 s) :
    KeepsE z0 (execRingGatedRead by_ off n s) := by
  unfold execRingGatedRead
  try dsimp only
  repeat' (first
    | intro _ | with_reducible assumption | with_reducible apply keepsE_next | with_reducible apply keeps_ite
    | with_reducible apply keepsE_ite | with_reducible apply keeps_busData | with_reducible apply keeps_busError
    | with_reducible apply keeps_gateDenied | split)

theorem keeps_execAonPosLowRead {z0 : State} {by_ : Req} {r : Fin 7} {s : State} (hK : Keeps z0 s) : KeepsE z0
    (execAonPosLowRead by_ r s) := by
  unfold execAonPosLowRead
  try dsimp only
  repeat' (first
    | intro _ | with_reducible assumption | with_reducible apply keepsE_next | with_reducible apply keeps_ite
    | with_reducible apply keepsE_ite | simp only [↓keeps_fields, ↓kept_self] | with_reducible apply keeps_busData
    | with_reducible apply keeps_onAon | with_reducible apply keeps_busError | split)

theorem keeps_openGate {z0 : State} (s : State) (start end_ : Nat) (hK : Keeps z0 s) : Keeps z0 (openGate s start end_) := by
  unfold openGate
  try dsimp only
  repeat' (first
    | with_reducible assumption | with_reducible apply keeps_ite | simp only [↓keeps_fields, ↓kept_self]
    | with_reducible apply keeps_logAppend | with_reducible apply keeps_onAon | split)

theorem keeps_serviceOpen {z0 : State} (s : State) (hK : Keeps z0 s) : Keeps z0 (serviceOpen s) := by
  unfold serviceOpen
  try dsimp only
  repeat' (first
    | with_reducible assumption | with_reducible apply keeps_ite | simp only [↓keeps_fields, ↓kept_self]
    | with_reducible apply keeps_openGate | with_reducible apply keeps_onAon | with_reducible apply keeps_gateDenied
    | split)

theorem keeps_execGateServiceOpen {z0 : State} {by_ : Req} {s : State} (hK : Keeps z0 s) : KeepsE z0 (execGateServiceOpen
    by_ s) := by
  unfold execGateServiceOpen
  try dsimp only
  repeat' (first
    | intro _ | with_reducible assumption | with_reducible apply keepsE_next | with_reducible apply keeps_aonWrite
    | with_reducible apply keeps_serviceOpen)

theorem keeps_stageTag {z0 : State} (s : State) (n k : Nat) (hK : Keeps z0 s) : Keeps z0 (stageTag s n k) := by
  unfold stageTag
  try dsimp only
  repeat' (first
    | intro _ | with_reducible assumption | with_reducible apply keeps_ite | simp only [↓keeps_fields, ↓kept_self]
    | with_reducible apply keeps_kept | with_reducible exact FusesGrow.refl _ | with_reducible exact Nat.le_refl _
    | with_reducible exact Nat.le_add_right _ _ | with_reducible apply Memory.wf_writeBytes | split | assumption)

theorem keeps_stageCopy {z0 : State} (s : State) (hK : Keeps z0 s) : Keeps z0 (stageCopy s) := by
  unfold stageCopy
  try dsimp only
  repeat' (first
    | intro _ | with_reducible assumption | with_reducible apply keeps_ite | simp only [↓keeps_fields, ↓kept_self]
    | with_reducible apply keeps_kept | with_reducible apply keeps_stageTag | with_reducible apply keeps_foldl
    | with_reducible apply keeps_getD | with_reducible exact FusesGrow.refl _ | with_reducible exact Nat.le_refl _
    | with_reducible exact Nat.le_add_right _ _ | with_reducible apply Memory.wf_writeBytes
    | with_reducible apply Memory.wf_filter | split | assumption)

theorem keeps_stageZero {z0 : State} (s : State) (hK : Keeps z0 s) : Keeps z0 (stageZero s) := by
  unfold stageZero
  try dsimp only
  repeat' (first
    | intro _ | with_reducible assumption | simp only [↓keeps_fields, ↓kept_self] | with_reducible apply keeps_kept
    | with_reducible exact FusesGrow.refl _ | with_reducible exact Nat.le_refl _
    | with_reducible exact Nat.le_add_right _ _ | with_reducible apply Memory.wf_clear | assumption)

theorem keeps_closeGate {z0 : State} (s : State) (hK : Keeps z0 s) : Keeps z0 (closeGate s) := by
  unfold closeGate
  try dsimp only
  repeat' (first
    | with_reducible assumption | with_reducible apply keeps_ite | simp only [↓keeps_fields, ↓kept_self]
    | with_reducible apply keeps_logAppend | with_reducible apply keeps_stageZero | with_reducible apply keeps_onAon
    | split)

theorem keeps_execGateClose {z0 : State} {by_ : Req} {s : State} (hK : Keeps z0 s) : KeepsE z0 (execGateClose by_ s) := by
  unfold execGateClose
  try dsimp only
  repeat' (first
    | intro _ | with_reducible assumption | with_reducible apply keepsE_next | with_reducible apply keeps_aonWrite
    | with_reducible apply keeps_closeGate)

theorem keeps_execGateExpiry {z0 : State} {s : State} (hK : Keeps z0 s) : KeepsE z0 (execGateExpiry s) := by
  unfold execGateExpiry
  try dsimp only
  repeat' (first
    | intro _ | with_reducible assumption | with_reducible apply keepsE_next | with_reducible apply keeps_ite
    | with_reducible apply keepsE_ite | with_reducible apply keeps_closeGate | split)

theorem keeps_leaveBuoy {z0 : State} (s : State) (hK : Keeps z0 s) : Keeps z0 (leaveBuoy s) := by
  unfold leaveBuoy
  try dsimp only
  repeat' (first
    | with_reducible assumption | with_reducible apply keeps_ite | simp only [↓keeps_fields, ↓kept_self] | split)

theorem keeps_stepUp {z0 : State} (s : State) (goal : Mode) (hK : Keeps z0 s) : Keeps z0 (stepUp s goal) := by
  unfold stepUp
  try dsimp only
  repeat' (first
    | with_reducible assumption | with_reducible apply keeps_ite | simp only [↓keeps_fields, ↓kept_self]
    | with_reducible apply keeps_leaveBuoy | split)

theorem keeps_askUp {z0 : State} (s : State) (m : Mode) (cause : Nat) (hK : Keeps z0 s) : Keeps z0 (askUp s m cause) := by
  unfold askUp
  try dsimp only
  repeat' (first
    | with_reducible assumption | with_reducible apply keeps_ite | simp only [↓keeps_fields, ↓kept_self]
    | with_reducible apply keeps_stepUp | split)

end Sys2Proof.Machine
end

