-- ==== Sys2Proof/Laws/KeepsOperands.lean ====
section
/-! SUPPORT. Sys2Proof/Laws/KeepsOperands.lean: each operation of Machine/Operands.lean keeps what `Keeps` says. -/

namespace Sys2Proof.Machine

set_option simprocs false
set_option linter.all false

theorem keeps_setCore {z0 : State} (s : State) (n : Nat) (c : Core) (hK : Keeps z0 s) : Keeps z0 (setCore s n c) := by
  unfold setCore
  try dsimp only
  repeat' (first
    | with_reducible assumption | simp only [↓keeps_fields, ↓kept_self])

theorem keeps_onCore {z0 : State} (s : State) (n : Nat) (f : Core → Core) (hK : Keeps z0 s) : Keeps z0 (onCore s n f) := by
  unfold onCore
  try dsimp only
  repeat' (first
    | with_reducible assumption | with_reducible apply keeps_setCore)

end Sys2Proof.Machine
end

