-- ==== Sys2Proof/Laws/KeepsFlags.lean ====
section
/-! SUPPORT. Sys2Proof/Laws/KeepsFlags.lean: each operation of Machine/Flags.lean keeps what `Keeps` says. -/

namespace Sys2Proof.Machine

set_option simprocs false
set_option linter.all false

theorem keeps_nextFree {z0 : State} (s : State) (hK : Keeps z0 s) : Keeps z0 (nextFree s) := by
  unfold nextFree
  try dsimp only
  repeat' (first
    | intro _ | with_reducible assumption | simp only [↓keeps_fields, ↓kept_self] | with_reducible apply keeps_kept
    | with_reducible exact FusesGrow.refl _ | with_reducible exact Nat.le_refl _
    | with_reducible exact Nat.le_add_right _ _ | assumption | exact Nat.le_add_right _ _)

theorem keeps_recordFault {z0 : State} (s : State) (n : Nat) (f : CmdFault) (pc : Nat) (hK : Keeps z0 s) : Keeps z0
    (recordFault s n f pc) := by
  unfold recordFault
  try dsimp only
  repeat' (first
    | intro _ | with_reducible assumption | with_reducible apply keeps_ite | simp only [↓keeps_fields, ↓kept_self]
    | with_reducible apply keeps_setCore | with_reducible apply keeps_nextFree | with_reducible apply keeps_getD
    | split)

end Sys2Proof.Machine
end

