-- ==== Sys2Proof/Laws/KeepsCamera.lean ====
section
/-! SUPPORT. Sys2Proof/Laws/KeepsCamera.lean: each operation of Machine/Camera.lean keeps what `Keeps` says. -/

namespace Sys2Proof.Machine

set_option simprocs false
set_option linter.all false

theorem keeps_onCam {z0 : State} (s : State) (f : Cam → Cam) (hK : Keeps z0 s) : Keeps z0 (onCam s f) := by
  unfold onCam
  try dsimp only
  repeat' (first
    | with_reducible assumption | simp only [↓keeps_fields, ↓kept_self])

theorem keeps_modCtx {z0 : State} (s : State) (x : Nat) (f : CamCtx → CamCtx) (hK : Keeps z0 s) : Keeps z0 (modCtx s x f) := by
  unfold modCtx
  try dsimp only
  repeat' (first
    | intro _ | with_reducible assumption | simp only [↓keeps_fields, ↓kept_self] | with_reducible apply keeps_onCam
    | with_reducible apply keeps_getD)

theorem keeps_modCamPort {z0 : State} (s : State) (p : Nat) (f : CamPort → CamPort) (hK : Keeps z0 s) : Keeps z0 (modCamPort
    s p f) := by
  unfold modCamPort
  try dsimp only
  repeat' (first
    | intro _ | with_reducible assumption | simp only [↓keeps_fields, ↓kept_self] | with_reducible apply keeps_onCam
    | with_reducible apply keeps_getD)

theorem keeps_camCount {z0 : State} (s : State) (k p : Nat) (hK : Keeps z0 s) : Keeps z0 (camCount s k p) := by
  unfold camCount
  try dsimp only
  repeat' (first
    | with_reducible assumption | with_reducible apply keeps_rcount)

theorem keeps_camBoundary {z0 : State} (s : State) (x : Nat) (hK : Keeps z0 s) : Keeps z0 (camBoundary s x) := by
  unfold camBoundary
  try dsimp only
  repeat' (first
    | with_reducible assumption | with_reducible apply keeps_ite | simp only [↓keeps_fields, ↓kept_self]
    | with_reducible apply keeps_modCtx | with_reducible apply keeps_onCam | split)

theorem keeps_writeLines {z0 : State} (s : State) (w : SMap Word) (f : CamFrame) (a b : Nat) (hK : Keeps z0 s) : Keeps z0
    (writeLines s w f a b) := by
  unfold writeLines
  try dsimp only
  repeat' (first
    | intro _ | with_reducible assumption | with_reducible apply keeps_writeMem | with_reducible apply keeps_foldl)

theorem keeps_writeCamTag {z0 : State} (s : State) (w : SMap Word) (k i : Nat) (hK : Keeps z0 s) : Keeps z0 (writeCamTag s w
    k i) := by
  unfold writeCamTag
  try dsimp only
  repeat' (first
    | with_reducible assumption | with_reducible apply keeps_writeMem)

theorem keeps_endFrame {z0 : State} (s : State) (x cause st : Nat) (hK : Keeps z0 s) : Keeps z0 (endFrame s x cause st) := by
  unfold endFrame
  try dsimp only
  repeat' (first
    | intro _ | with_reducible assumption | simp only [↓keeps_fields, ↓kept_self]
    | with_reducible apply keeps_nextFree | with_reducible apply keeps_writeLines
    | with_reducible apply keeps_writeMem | with_reducible apply keeps_writeCamTag
    | with_reducible apply keeps_writeTile | with_reducible apply keeps_modCtx | with_reducible apply keeps_foldl
    | split)

theorem keeps_headerBad {z0 : State} (s : State) (p : Nat) (hK : Keeps z0 s) : Keeps z0 (headerBad s p) := by
  unfold headerBad
  try dsimp only
  repeat' (first
    | intro _ | with_reducible assumption | simp only [↓keeps_fields, ↓kept_self]
    | with_reducible apply keeps_modCamPort | with_reducible apply keeps_endFrame
    | with_reducible apply keeps_camCount | with_reducible apply keeps_foldl)

theorem keeps_onPacket {z0 : State} (s : State) (p hdr : Nat) (go : State → State) (h_go : ∀ (x0_ : State), Keeps z0 x0_ →
    Keeps z0 (go x0_)) (hK : Keeps z0 s) : Keeps z0 (onPacket s p hdr go) := by
  unfold onPacket
  try dsimp only
  repeat' (first
    | intro _ | with_reducible assumption | with_reducible apply h_go | with_reducible apply keeps_ite
    | with_reducible apply keeps_headerBad | with_reducible apply keeps_camCount | split)

theorem keeps_takeStart {z0 : State} (s : State) (p vc num x : Nat) (hK : Keeps z0 s) : Keeps z0 (takeStart s p vc num x) := by
  unfold takeStart
  try dsimp only
  repeat' (first
    | with_reducible assumption | with_reducible apply keeps_ite | simp only [↓keeps_fields, ↓kept_self]
    | with_reducible apply keeps_camBoundary | with_reducible apply keeps_endFrame
    | with_reducible apply keeps_modCtx | split)

theorem keeps_execCsiFrameStart {z0 : State} {port vc : Fin 4} {hdr : Fin 3} {number : BitVec 16} {s : State} (hK : Keeps z0
    s) : KeepsE z0 (execCsiFrameStart port vc hdr number s) := by
  unfold execCsiFrameStart
  try dsimp only
  repeat' (first
    | intro _ | with_reducible assumption | with_reducible apply keepsE_next | with_reducible apply keeps_onPacket
    | with_reducible apply keeps_takeStart | with_reducible apply keeps_foldl)

theorem keeps_execCsiFrameEnd {z0 : State} {port vc : Fin 4} {hdr : Fin 3} {s : State} (hK : Keeps z0 s) : KeepsE z0
    (execCsiFrameEnd port vc hdr s) := by
  unfold execCsiFrameEnd
  try dsimp only
  repeat' (first
    | intro _ | with_reducible assumption | with_reducible apply keepsE_next | with_reducible apply keeps_ite
    | with_reducible apply keepsE_ite | simp only [↓keeps_fields, ↓kept_self] | with_reducible apply keeps_onPacket
    | with_reducible apply keeps_endFrame | with_reducible apply keeps_foldl | split)

theorem keeps_takeLine {z0 : State} (s : State) (p x : Nat) (px : List Nat) (crcBad : Bool) (full : Bool) (hK : Keeps z0 s)
    : Keeps z0 (takeLine s p x px crcBad full) := by
  unfold takeLine
  try dsimp only
  repeat' (first
    | with_reducible assumption | with_reducible apply keeps_ite | simp only [↓keeps_fields, ↓kept_self]
    | with_reducible apply keeps_endFrame | with_reducible apply keeps_camCount
    | with_reducible apply keeps_nextFree | with_reducible apply keeps_writeLines
    | with_reducible apply keeps_modCtx | split)

theorem keeps_execCsiLinePacket {z0 : State} {port vc : Fin 4} {hdr : Fin 3} {dt : Fin 64} {px : List Nat} {crcBad full :
    Bool} {s : State} (hK : Keeps z0 s) : KeepsE z0 (execCsiLinePacket port vc hdr dt px crcBad full s) := by
  unfold execCsiLinePacket
  try dsimp only
  repeat' (first
    | intro _ | with_reducible assumption | with_reducible apply keepsE_next | with_reducible apply keeps_ite
    | with_reducible apply keepsE_ite | with_reducible apply keeps_onPacket | with_reducible apply keeps_camCount
    | with_reducible apply keeps_takeLine | with_reducible apply keeps_foldl | split)

theorem keeps_execCsiShortPacketIgnored {z0 : State} {port : Fin 4} {hdr : Fin 2} {s : State} (hK : Keeps z0 s) : KeepsE z0
    (execCsiShortPacketIgnored port hdr s) := by
  unfold execCsiShortPacketIgnored
  try dsimp only
  repeat' (first
    | intro _ | with_reducible assumption | with_reducible apply keepsE_next | with_reducible apply keeps_onPacket
    | assumption)

theorem keeps_execCamFrameTimeout {z0 : State} {ctx : Fin 16} {s : State} (hK : Keeps z0 s) : KeepsE z0 (execCamFrameTimeout
    ctx s) := by
  unfold execCamFrameTimeout
  try dsimp only
  repeat' (first
    | intro _ | with_reducible assumption | with_reducible apply keepsE_next | with_reducible apply keeps_ite
    | with_reducible apply keepsE_ite | simp only [↓keeps_fields, ↓kept_self] | with_reducible apply keeps_endFrame
    | split)

theorem keeps_execCamFrameDone {z0 : State} {ctx : Fin 16} {s : State} (hK : Keeps z0 s) : KeepsE z0 (execCamFrameDone ctx
    s) := by
  unfold execCamFrameDone
  try dsimp only
  repeat' (first
    | intro _ | with_reducible assumption | with_reducible apply keepsE_next | with_reducible apply keeps_ite
    | with_reducible apply keepsE_ite | simp only [↓keeps_fields, ↓kept_self] | with_reducible apply keeps_modCtx
    | with_reducible apply keeps_onCam | split)

theorem keeps_bufRelease {z0 : State} (s : State) (x : Nat) (mask : BitVec 16) (hK : Keeps z0 s) : Keeps z0 (bufRelease s x
    mask) := by
  unfold bufRelease
  try dsimp only
  repeat' (first
    | with_reducible assumption | simp only [↓keeps_fields, ↓kept_self] | with_reducible apply keeps_modCtx | split)

theorem keeps_execCamBufferRelease {z0 : State} {by_ : Req} {ctx : Fin 16} {mask : BitVec 16} {s : State} (hK : Keeps z0 s)
    : KeepsE z0 (execCamBufferRelease by_ ctx mask s) := by
  unfold execCamBufferRelease
  try dsimp only
  repeat' (first
    | intro _ | with_reducible assumption | with_reducible apply keepsE_next | with_reducible apply keeps_mayWrite
    | with_reducible apply keeps_bufRelease)

theorem keeps_camEnable {z0 : State} (s : State) (x : Nat) (hK : Keeps z0 s) : Keeps z0 (camEnable s x) := by
  unfold camEnable
  try dsimp only
  repeat' (first
    | intro _ | with_reducible assumption | with_reducible apply keeps_ite | simp only [↓keeps_fields, ↓kept_self]
    | with_reducible apply keeps_camBoundary | with_reducible apply keeps_onCam | with_reducible apply keeps_modCtx
    | with_reducible apply keeps_getD | split)

theorem keeps_camDisable {z0 : State} (s : State) (x : Nat) (hK : Keeps z0 s) : Keeps z0 (camDisable s x) := by
  unfold camDisable
  try dsimp only
  repeat' (first
    | with_reducible assumption | simp only [↓keeps_fields, ↓kept_self] | with_reducible apply keeps_modCtx
    | with_reducible apply keeps_endFrame)

theorem keeps_execCamContextEnable {z0 : State} {by_ : Req} {ctx : Fin 16} {v : Bool} {s : State} (hK : Keeps z0 s) : KeepsE
    z0 (execCamContextEnable by_ ctx v s) := by
  unfold execCamContextEnable
  try dsimp only
  repeat' (first
    | intro _ | with_reducible assumption | with_reducible apply keepsE_next | with_reducible apply keeps_ite
    | with_reducible apply keepsE_ite | with_reducible apply keeps_mayWrite | with_reducible apply keeps_camEnable
    | with_reducible apply keeps_camDisable | split)

theorem keeps_execCamParamHold {z0 : State} {by_ : Req} {ctx : Fin 16} {v : Bool} {s : State} (hK : Keeps z0 s) : KeepsE z0
    (execCamParamHold by_ ctx v s) := by
  unfold execCamParamHold
  try dsimp only
  repeat' (first
    | intro _ | with_reducible assumption | with_reducible apply keepsE_next | simp only [↓keeps_fields, ↓kept_self]
    | with_reducible apply keeps_mayWrite | with_reducible apply keeps_modCtx)

theorem keeps_setLowRate {z0 : State} (s : State) (v : Bool) (hK : Keeps z0 s) : Keeps z0 (setLowRate s v) := by
  unfold setLowRate
  try dsimp only
  repeat' (first
    | with_reducible assumption | with_reducible apply keeps_ite | simp only [↓keeps_fields, ↓kept_self]
    | with_reducible apply keeps_onCam | split)

theorem keeps_execCamLowRate {z0 : State} {by_ : Req} {v : Bool} {s : State} (hK : Keeps z0 s) : KeepsE z0 (execCamLowRate
    by_ v s) := by
  unfold execCamLowRate
  try dsimp only
  repeat' (first
    | intro _ | with_reducible assumption | with_reducible apply keepsE_next | with_reducible apply keeps_mayWrite
    | with_reducible apply keeps_setLowRate)

theorem keeps_camPortEnable {z0 : State} (s : State) (p : Nat) (v : Bool) (hK : Keeps z0 s) : Keeps z0 (camPortEnable s p v) := by
  unfold camPortEnable
  try dsimp only
  repeat' (first
    | with_reducible assumption | with_reducible apply keeps_ite | simp only [↓keeps_fields, ↓kept_self]
    | with_reducible apply keeps_modCamPort | with_reducible apply keeps_rboundary | split)

theorem keeps_execCamPortEnable {z0 : State} {by_ : Req} {port : Fin 4} {v : Bool} {s : State} (hK : Keeps z0 s) : KeepsE z0
    (execCamPortEnable by_ port v s) := by
  unfold execCamPortEnable
  try dsimp only
  repeat' (first
    | intro _ | with_reducible assumption | with_reducible apply keepsE_next | with_reducible apply keeps_mayWrite
    | with_reducible apply keeps_camPortEnable)

theorem keeps_execCsiLaneStateChange {z0 : State} {port : Fin 4} {st : Fin 4} {lanes : Fin 16} {s : State} (hK : Keeps z0 s)
    : KeepsE z0 (execCsiLaneStateChange port st lanes s) := by
  unfold execCsiLaneStateChange
  try dsimp only
  repeat' (first
    | intro _ | with_reducible assumption | with_reducible apply keepsE_next | with_reducible apply keeps_ite
    | with_reducible apply keepsE_ite | simp only [↓keeps_fields, ↓kept_self]
    | with_reducible apply keeps_modCamPort | split)

theorem keeps_camToBeacon {z0 : State} (s : State) (hK : Keeps z0 s) : Keeps z0 (camToBeacon s) := by
  unfold camToBeacon
  try dsimp only
  repeat' (first
    | intro _ | with_reducible assumption | simp only [↓keeps_fields, ↓kept_self]
    | with_reducible apply keeps_setLowRate | with_reducible apply keeps_onCam
    | with_reducible apply keeps_camDisable | with_reducible apply keeps_foldl)

theorem keeps_camToLantern {z0 : State} (s : State) (hK : Keeps z0 s) : Keeps z0 (camToLantern s) := by
  unfold camToLantern
  try dsimp only
  repeat' (first
    | intro _ | with_reducible assumption | simp only [↓keeps_fields, ↓kept_self]
    | with_reducible apply keeps_setLowRate | with_reducible apply keeps_camEnable
    | with_reducible apply keeps_onCam | with_reducible apply keeps_foldl)

end Sys2Proof.Machine
end

