-- ==== Sys2Proof/Laws/KeepsObjects.lean ====
section
/-! SUPPORT. Sys2Proof/Laws/KeepsObjects.lean: each operation of Machine/Objects.lean keeps what `Keeps` says. -/

namespace Sys2Proof.Machine

set_option simprocs false
set_option linter.all false

theorem keeps_modObj {z0 : State} (s : State) (key : Nat) (f : Obj → Obj) (hK : Keeps z0 s) : Keeps z0 (modObj s key f) := by
  unfold modObj
  try dsimp only
  repeat' (first
    | with_reducible assumption | simp only [↓keeps_fields, ↓kept_self])

theorem keeps_modPage {z0 : State} (s : State) (l2 : Nat) (f : Page → Page) (hK : Keeps z0 s) : Keeps z0 (modPage s l2 f) := by
  unfold modPage
  try dsimp only
  repeat' (first
    | with_reducible assumption | simp only [↓keeps_fields, ↓kept_self])

theorem keeps_setItemSt {z0 : State} (s : State) (i : Item) (v : ObjSt) (hK : Keeps z0 s) : Keeps z0 (setItemSt s i v) := by
  unfold setItemSt
  try dsimp only
  repeat' (first
    | with_reducible assumption | simp only [↓keeps_fields, ↓kept_self] | with_reducible apply keeps_modObj
    | with_reducible apply keeps_modPage | split)

theorem keeps_noteDeadline {z0 : State} (s : State) (i : Item) (d : Nat) (hK : Keeps z0 s) : Keeps z0 (noteDeadline s i d) := by
  unfold noteDeadline
  try dsimp only
  repeat' (first
    | with_reducible assumption | simp only [↓keeps_fields, ↓kept_self] | with_reducible apply keeps_modObj
    | with_reducible apply keeps_modPage | split)

theorem keeps_promote {z0 : State} (s : State) (i : Item) (deadline : Nat) (hK : Keeps z0 s) : Keeps z0 (promote s i
    deadline) := by
  unfold promote
  try dsimp only
  repeat' (first
    | with_reducible assumption | with_reducible apply keeps_ite | simp only [↓keeps_fields, ↓kept_self]
    | with_reducible apply keeps_setItemSt | with_reducible apply keeps_noteDeadline | split)

theorem keeps_otcLookup {z0 : State} (s : State) (n key : Nat) (hK : Keeps z0 s) : Keeps z0 (otcLookup s n key) := by
  unfold otcLookup
  try dsimp only
  repeat' (first
    | with_reducible assumption | with_reducible apply keeps_ite | simp only [↓keeps_fields, ↓kept_self]
    | with_reducible apply keeps_setCore | split)

theorem keeps_fixFrame {z0 : State} (s : State) (f part : Nat) (hK : Keeps z0 s) : Keeps z0 (fixFrame s f part) := by
  unfold fixFrame
  try dsimp only
  repeat' (first
    | with_reducible assumption | simp only [↓keeps_fields, ↓kept_self])

theorem keeps_allocFrames {z0 : State} {s : State} {part n i : Nat} {a0_ : Nat} (hK : Keeps z0 s) {t_ : State} (e_ :
    allocFrames s part n i a0_ = some t_) : Keeps z0 t_ := by
  induction a0_ generalizing s part n i t_  with
  | zero =>
    unfold allocFrames at e_
    cases e_
    first | exact hK | done
  | succ n ih =>
    unfold allocFrames at e_
    try dsimp only at e_
    repeat' (first | cases e_ | split at e_ | (rw [Option.map_eq_some_iff] at e_; obtain ⟨a_, ha_, e_⟩ := e_) | (rw [Option.bind_eq_some_iff] at e_; obtain ⟨a_, ha_, e_⟩ := e_))
    all_goals repeat' (first
      | with_reducible assumption | simp only [↓keeps_fields, ↓kept_self] | with_reducible apply keeps_modObj | (apply ih (e_ := by assumption))
      | split)

theorem keeps_allocFixed {z0 : State} {s : State} {part : Nat} {a0_ : Nat} (hK : Keeps z0 s) {t_ : State} {y_} (e_ :
    allocFixed s part a0_ = some (t_, y_)) : Keeps z0 t_ := by
  induction a0_ generalizing s part t_ y_ with
  | zero =>
    unfold allocFixed at e_
    cases e_
    first | exact hK | done
  | succ n ih =>
    unfold allocFixed at e_
    try dsimp only at e_
    repeat' (first | cases e_ | split at e_ | (rw [Option.map_eq_some_iff] at e_; obtain ⟨a_, ha_, e_⟩ := e_) | (rw [Option.bind_eq_some_iff] at e_; obtain ⟨a_, ha_, e_⟩ := e_))
    all_goals repeat' (first
      | with_reducible assumption | simp only [↓keeps_fields, ↓kept_self] | with_reducible apply keeps_fixFrame
      | (apply ih (e_ := by assumption))
      | split)

theorem keeps_syncPage {z0 : State} (s : State) (l2 : Nat) (hK : Keeps z0 s) : Keeps z0 (syncPage s l2) := by
  unfold syncPage
  try dsimp only
  repeat' (first
    | with_reducible assumption | with_reducible apply keeps_ite | simp only [↓keeps_fields, ↓kept_self]
    | with_reducible apply keeps_writeMem | split)

theorem keeps_poolEv {z0 : State} (s : State) (part : Nat) (f : PoolEv → PoolEv) (hK : Keeps z0 s) : Keeps z0 (poolEv s part
    f) := by
  unfold poolEv
  try dsimp only
  repeat' (first
    | intro _ | with_reducible assumption | simp only [↓keeps_fields, ↓kept_self] | with_reducible apply keeps_getD)

end Sys2Proof.Machine
end

