-- ==== Sys2Proof/Laws/KeepsSched.lean ====
section
/-! SUPPORT. Sys2Proof/Laws/KeepsSched.lean: each operation of Machine/Sched.lean keeps what `Keeps` says. -/

namespace Sys2Proof.Machine

set_option simprocs false
set_option linter.all false

theorem keeps_onSched {z0 : State} (s : State) (f : Sched → Sched) (hK : Keeps z0 s) : Keeps z0 (onSched s f) := by
  unfold onSched
  try dsimp only
  repeat' (first
    | with_reducible assumption | simp only [↓keeps_fields, ↓kept_self])

theorem keeps_setRot {z0 : State} (s : State) (p : Nat) (r : Rot) (hK : Keeps z0 s) : Keeps z0 (setRot s p r) := by
  unfold setRot
  try dsimp only
  repeat' (first
    | with_reducible assumption | simp only [↓keeps_fields, ↓kept_self] | with_reducible apply keeps_onSched)

theorem keeps_launchArea {z0 : State} {s : State} {p : Nat} (hK : Keeps z0 s) {t_ : State} {y_} (e_ : launchArea s p = some
    (t_, y_)) : Keeps z0 t_ := by
  unfold launchArea at e_
  try dsimp only at e_
  repeat' (first | cases e_ | split at e_ | (rw [Option.map_eq_some_iff] at e_; obtain ⟨a_, ha_, e_⟩ := e_) | (rw [Option.bind_eq_some_iff] at e_; obtain ⟨a_, ha_, e_⟩ := e_))
  all_goals repeat' (first
    | with_reducible assumption | simp only [↓keeps_fields, ↓kept_self] | refine keeps_allocFixed ?_ (by assumption)
    | with_reducible apply keeps_onK | split)

theorem keeps_keeperPost {z0 : State} (s : State) (m : Nat) (ws : List Word) (hK : Keeps z0 s) : Keeps z0 (keeperPost s m
    ws) := by
  unfold keeperPost
  try dsimp only
  repeat' (first
    | intro _ | with_reducible assumption | with_reducible apply keeps_mbxWrite | with_reducible apply keeps_foldl
    | with_reducible apply keeps_getD)

theorem keeps_startSems {z0 : State} (s : State) (x : Job) (hK : Keeps z0 s) : Keeps z0 (startSems s x) := by
  unfold startSems
  try dsimp only
  repeat' (first
    | intro _ | with_reducible assumption | simp only [↓keeps_fields, ↓kept_self] | with_reducible apply keeps_foldl
    | split)

theorem keeps_placeSend {z0 : State} (s : State) (dest : Nat) (m : FabMsg) (answer : Bool) (hK : Keeps z0 s) : Keeps z0
    (placeSend s dest m answer) := by
  unfold placeSend
  try dsimp only
  repeat' (first
    | with_reducible assumption | with_reducible apply keeps_ite | simp only [↓keeps_fields, ↓kept_self]
    | with_reducible apply keeps_fabSend | with_reducible apply keeps_onFab | split)

theorem keeps_tellOthers {z0 : State} (s : State) (f : Front) (m : FabMsg) (answer : Bool) (hK : Keeps z0 s) : Keeps z0
    (tellOthers s f m answer) := by
  unfold tellOthers
  try dsimp only
  repeat' (first
    | intro _ | with_reducible assumption | with_reducible apply keeps_placeSend | with_reducible apply keeps_foldl)

theorem keeps_noteLoss {z0 : State} (s : State) (n pos : Nat) (hK : Keeps z0 s) : Keeps z0 (noteLoss s n pos) := by
  unfold noteLoss
  try dsimp only
  repeat' (first
    | intro _ | with_reducible assumption | simp only [↓keeps_fields, ↓kept_self] | with_reducible apply keeps_onK
    | with_reducible apply keeps_placeSend | split)

theorem keeps_tellStages {z0 : State} (s : State) (j : Nat) (x : Job) (hK : Keeps z0 s) : Keeps z0 (tellStages s j x) := by
  unfold tellStages
  try dsimp only
  repeat' (first
    | intro _ | with_reducible assumption | with_reducible apply keeps_ite | simp only [↓keeps_fields, ↓kept_self]
    | with_reducible apply keeps_placeSend | with_reducible apply keeps_modJob | with_reducible apply keeps_foldl
    | with_reducible apply keeps_getD | with_reducible apply keeps_elim | split)

theorem keeps_startJob {z0 : State} (s : State) (j : Nat) (x : Job) (hK : Keeps z0 s) : Keeps z0 (startJob s j x) := by
  unfold startJob
  try dsimp only
  repeat' (first
    | intro _ | with_reducible assumption | with_reducible apply keeps_ite | simp only [↓keeps_fields, ↓kept_self]
    | with_reducible apply keeps_modJob | with_reducible apply keeps_startSems | with_reducible apply keeps_modQueue
    | with_reducible apply keeps_modModel | with_reducible apply keeps_tellStages | with_reducible apply keeps_elim
    | split)

theorem keeps_restoreNow {z0 : State} (s : State) (q : Nat) (hK : Keeps z0 s) : Keeps z0 (restoreNow s q) := by
  unfold restoreNow
  try dsimp only
  repeat' (first
    | intro _ | with_reducible assumption | with_reducible apply keeps_ite | simp only [↓keeps_fields, ↓kept_self]
    | with_reducible apply keeps_onCore | with_reducible apply keeps_modQueue | with_reducible apply keeps_foldl
    | split)

theorem keeps_launchOne {z0 : State} (s : State) (p : Nat) (w : Work) (cmd : JCmd) (c : Nat) (hK : Keeps z0 s) : Keeps z0
    (launchOne s p w cmd c) := by
  unfold launchOne
  try dsimp only
  repeat' (first
    | with_reducible assumption | with_reducible apply keeps_ite | simp only [↓keeps_fields, ↓kept_self]
    | refine keeps_launchArea ?_ (by assumption) | with_reducible apply keeps_restoreNow
    | with_reducible apply keeps_startJob | with_reducible apply keeps_writeMem
    | with_reducible apply keeps_keeperPost | with_reducible apply keeps_modJob | split | assumption)

theorem keeps_noteFirst {z0 : State} (s : State) (w : Work) (hK : Keeps z0 s) : Keeps z0 (noteFirst s w) := by
  unfold noteFirst
  try dsimp only
  repeat' (first
    | with_reducible assumption | with_reducible apply keeps_ite | simp only [↓keeps_fields, ↓kept_self]
    | with_reducible apply keeps_onSched | with_reducible apply keeps_modJob | split)

theorem keeps_launchAll {z0 : State} (s : State) (p : Nat) (w : Work) (cores : List Nat) (hK : Keeps z0 s) : Keeps z0
    (launchAll s p w cores) := by
  unfold launchAll
  try dsimp only
  repeat' (first
    | intro _ | with_reducible assumption | with_reducible apply keeps_launchOne
    | with_reducible apply keeps_noteFirst | with_reducible apply keeps_foldl)

theorem keeps_placeAll {z0 : State} (s : State) (p : Nat) (held : List Nat) (a0_ : List Work) (hK : Keeps z0 s) : Keeps z0
    (placeAll s p held a0_) := by
  induction a0_ generalizing s p held with
  | nil =>
    unfold placeAll
    exact hK
  | cons a r ih =>
    unfold placeAll
    try dsimp only
    repeat' (first
      | with_reducible assumption
      | with_reducible apply ih | with_reducible apply keeps_ite | simp only [↓keeps_fields, ↓kept_self]
      | with_reducible apply keeps_launchAll | split)

theorem keeps_noteReady {z0 : State} (s : State) (p : Nat) (hK : Keeps z0 s) : Keeps z0 (noteReady s p) := by
  unfold noteReady
  try dsimp only
  repeat' (first
    | intro _ | with_reducible assumption | with_reducible apply keeps_ite | simp only [↓keeps_fields, ↓kept_self]
    | with_reducible apply keeps_onK | split)

theorem keeps_dispatchPart {z0 : State} (s : State) (p : Nat) (hK : Keeps z0 s) : Keeps z0 (dispatchPart s p) := by
  unfold dispatchPart
  try dsimp only
  repeat' (first
    | with_reducible assumption | with_reducible apply keeps_ite | with_reducible apply keeps_placeAll | with_reducible apply keeps_noteReady | split)

end Sys2Proof.Machine
end

