-- ==== Sys2Proof/Laws/KeepsSlots.lean ====
section
/-! SUPPORT. Sys2Proof/Laws/KeepsSlots.lean: each operation of Machine/Slots.lean keeps what `Keeps` says. -/

namespace Sys2Proof.Machine

set_option simprocs false
set_option linter.all false

theorem keeps_writeHeader {z0 : State} (s : State) (n : Nat) (m : Model) (v : Session) (k : Nat) (hK : Keeps z0 s) : Keeps
    z0 (writeHeader s n m v k) := by
  unfold writeHeader
  try dsimp only
  repeat' (first
    | with_reducible assumption | with_reducible apply keeps_nextFree | with_reducible apply keeps_writeTile)

theorem keeps_writeHeaders {z0 : State} (s : State) (n : Nat) (hK : Keeps z0 s) : Keeps z0 (writeHeaders s n) := by
  unfold writeHeaders
  try dsimp only
  repeat' (first
    | intro _ | with_reducible assumption | with_reducible apply keeps_ite | simp only [↓keeps_fields, ↓kept_self]
    | with_reducible apply keeps_writeHeader | with_reducible apply keeps_foldl | split)

theorem keeps_applySealFormat {z0 : State} (s : State) (n : Nat) (hK : Keeps z0 s) : Keeps z0 (applySealFormat s n) := by
  unfold applySealFormat
  try dsimp only
  repeat' (first
    | with_reducible assumption | with_reducible apply keeps_ite | simp only [↓keeps_fields, ↓kept_self]
    | with_reducible apply keeps_writeHeaders | with_reducible apply keeps_modSession | split)

theorem keeps_freeSeal {z0 : State} (s : State) (g : SealPage) (hK : Keeps z0 s) : Keeps z0 (freeSeal s g) := by
  unfold freeSeal
  try dsimp only
  repeat' (first
    | with_reducible assumption | simp only [↓keeps_fields, ↓kept_self])

theorem keeps_commitPage {z0 : State} (s : State) (n : Nat) (m : Model) (v : Session) (g : SealPage) (hK : Keeps z0 s) :
    Keeps z0 (commitPage s n m v g) := by
  unfold commitPage
  try dsimp only
  repeat' (first
    | with_reducible assumption | with_reducible apply keeps_ite | simp only [↓keeps_fields, ↓kept_self]
    | with_reducible apply keeps_freeSeal | with_reducible apply keeps_syncPage | split)

theorem keeps_dropPage {z0 : State} (s : State) (key : Nat) (hK : Keeps z0 s) : Keeps z0 (dropPage s key) := by
  unfold dropPage
  try dsimp only
  repeat' (first
    | with_reducible assumption | with_reducible apply keeps_ite | simp only [↓keeps_fields, ↓kept_self]
    | with_reducible apply keeps_writeMem | split)

theorem keeps_rollbackTo {z0 : State} (s : State) (n pos : Nat) (hK : Keeps z0 s) : Keeps z0 (rollbackTo s n pos) := by
  unfold rollbackTo
  try dsimp only
  repeat' (first
    | intro _ | with_reducible assumption | with_reducible apply keeps_ite | simp only [↓keeps_fields, ↓kept_self]
    | with_reducible apply keeps_dropPage | with_reducible apply keeps_noteLoss
    | with_reducible apply keeps_writeHeaders | with_reducible apply keeps_modSession
    | with_reducible apply keeps_foldl | split)

theorem keeps_rollback {z0 : State} (s : State) (x : Job) (hK : Keeps z0 s) : Keeps z0 (rollback s x) := by
  unfold rollback
  try dsimp only
  repeat' (first
    | intro _ | with_reducible assumption | with_reducible apply keeps_ite | simp only [↓keeps_fields, ↓kept_self]
    | with_reducible apply keeps_modSession | with_reducible apply keeps_rollbackTo
    | with_reducible apply keeps_foldl | with_reducible exact fuses_rollback | split)

theorem keeps_freeFixed {z0 : State} (s : State) (fs : List Nat) (hK : Keeps z0 s) : Keeps z0 (freeFixed s fs) := by
  unfold freeFixed
  try dsimp only
  repeat' (first
    | intro _ | with_reducible assumption | simp only [↓keeps_fields, ↓kept_self] | with_reducible apply keeps_foldl)

theorem keeps_goCold {z0 : State} (s : State) (n : Nat) (hK : Keeps z0 s) : Keeps z0 (goCold s n) := by
  unfold goCold
  try dsimp only
  repeat' (first
    | intro _ | with_reducible assumption | with_reducible apply keeps_ite | simp only [↓keeps_fields, ↓kept_self]
    | with_reducible apply keeps_dropPage | with_reducible apply keeps_modSession
    | with_reducible apply keeps_freeFixed | with_reducible apply keeps_poolEv | with_reducible apply keeps_noteLoss
    | with_reducible apply keeps_foldl | split)

theorem keeps_allocRun {z0 : State} {s : State} {part k : Nat} (hK : Keeps z0 s) {t_ : State} {y_} (e_ : allocRun s part k =
    some (t_, y_)) : Keeps z0 t_ := by
  unfold allocRun at e_
  try dsimp only at e_
  repeat' (first | cases e_ | split at e_ | (rw [Option.map_eq_some_iff] at e_; obtain ⟨a_, ha_, e_⟩ := e_) | (rw [Option.bind_eq_some_iff] at e_; obtain ⟨a_, ha_, e_⟩ := e_))
  all_goals repeat' (first
    | intro _ | with_reducible assumption | with_reducible apply keeps_fixFrame | with_reducible apply keeps_foldl)

theorem keeps_initTables {z0 : State} (s : State) (a heads : Nat) (hK : Keeps z0 s) : Keeps z0 (initTables s a heads) := by
  unfold initTables
  try dsimp only
  repeat' (first
    | intro _ | with_reducible assumption | with_reducible apply keeps_writeMem | with_reducible apply keeps_foldl)

theorem keeps_reserveKv {z0 : State} {s : State} {n : Nat} (hK : Keeps z0 s) {t_ : State} (e_ : reserveKv s n = some t_) :
    Keeps z0 t_ := by
  unfold reserveKv at e_
  try dsimp only at e_
  repeat' (first | cases e_ | split at e_ | (rw [Option.map_eq_some_iff] at e_; obtain ⟨a_, ha_, e_⟩ := e_) | (rw [Option.bind_eq_some_iff] at e_; obtain ⟨a_, ha_, e_⟩ := e_))
  all_goals repeat' (first
    | with_reducible assumption | with_reducible apply keeps_ite | simp only [↓keeps_fields, ↓kept_self]
    | with_reducible apply keeps_writeHeaders | with_reducible apply keeps_modSession
    | refine keeps_allocRun ?_ (by assumption) | with_reducible apply keeps_initTables | split)

end Sys2Proof.Machine
end

