-- ==== Sys2Proof/Laws/KeepsFirmware.lean ====
section
/-! SUPPORT. Sys2Proof/Laws/KeepsFirmware.lean: each operation of Machine/Firmware.lean keeps what `Keeps` says. -/

namespace Sys2Proof.Machine

set_option simprocs false
set_option linter.all false

theorem keeps_onBoot {z0 : State} (s : State) (f : Boot → Boot) (hK : Keeps z0 s) : Keeps z0 (onBoot s f) := by
  unfold onBoot
  try dsimp only
  repeat' (first
    | with_reducible assumption | simp only [↓keeps_fields, ↓kept_self])

theorem keeps_modFw {z0 : State} (s : State) (cls : Nat) (f : Firmware → Firmware) (hK : Keeps z0 s) : Keeps z0 (modFw s cls
    f) := by
  unfold modFw
  try dsimp only
  repeat' (first
    | with_reducible assumption | simp only [↓keeps_fields, ↓kept_self] | with_reducible apply keeps_onBoot)

theorem keeps_loadKeeper {z0 : State} (s : State) (slot bank : Nat) (hK : Keeps z0 s) : Keeps z0 (loadKeeper s slot bank) := by
  unfold loadKeeper
  try dsimp only
  repeat' (first
    | intro _ | with_reducible assumption | simp only [↓keeps_fields, ↓kept_self] | with_reducible apply keeps_kept
    | with_reducible apply keeps_onBoot | with_reducible exact FusesGrow.refl _ | with_reducible exact Nat.le_refl _
    | with_reducible exact Nat.le_add_right _ _ | with_reducible apply Memory.wf_writeBytes | assumption)

theorem keeps_loadDsp {z0 : State} (s : State) (slot : Nat) (hK : Keeps z0 s) : Keeps z0 (loadDsp s slot) := by
  unfold loadDsp
  try dsimp only
  repeat' (first
    | intro _ | with_reducible assumption | with_reducible apply keeps_ite | simp only [↓keeps_fields, ↓kept_self]
    | with_reducible apply keeps_kept | with_reducible apply keeps_clearDspSram | with_reducible apply keeps_onAon
    | with_reducible apply keeps_dspReset | with_reducible exact FusesGrow.refl _
    | with_reducible exact Nat.le_refl _ | with_reducible exact Nat.le_add_right _ _
    | with_reducible apply Memory.wf_writeBytes | with_reducible apply Memory.wf_clear | split | assumption)

theorem keeps_restartPhys {z0 : State} (s : State) (hK : Keeps z0 s) : Keeps z0 (restartPhys s) := by
  unfold restartPhys
  try dsimp only
  repeat' (first
    | intro _ | with_reducible assumption | with_reducible apply keeps_ite | simp only [↓keeps_fields, ↓kept_self]
    | with_reducible apply keeps_linkRestart | with_reducible apply keeps_modPort | with_reducible apply keeps_onK
    | with_reducible apply keeps_foldl | split)

theorem keeps_startFrom {z0 : State} (s : State) (cls slot : Nat) (hK : Keeps z0 s) : Keeps z0 (startFrom s cls slot) := by
  unfold startFrom
  try dsimp only
  repeat' (first
    | with_reducible assumption | simp only [↓keeps_fields, ↓kept_self] | with_reducible apply keeps_secRestart
    | with_reducible apply keeps_extend | with_reducible apply keeps_loadKeeper | with_reducible apply keeps_loadDsp
    | with_reducible apply keeps_restartPhys | split)

theorem keeps_doHandover {z0 : State} (s : State) (x : Handover) (hK : Keeps z0 s) : Keeps z0 (doHandover s x) := by
  unfold doHandover
  try dsimp only
  repeat' (first
    | with_reducible assumption | with_reducible apply keeps_ite | simp only [↓keeps_fields, ↓kept_self]
    | with_reducible apply keeps_startFrom | with_reducible apply keeps_onK | with_reducible apply keeps_modFw
    | with_reducible apply keeps_raiseEvent | with_reducible apply keeps_complete | split)

theorem keeps_tryHandovers {z0 : State} (s : State) (hK : Keeps z0 s) : Keeps z0 (tryHandovers s) := by
  unfold tryHandovers
  try dsimp only
  repeat' (first
    | intro _ | with_reducible assumption | with_reducible apply keeps_ite | with_reducible apply keeps_doHandover
    | with_reducible apply keeps_foldl | split)

theorem keeps_askHandover {z0 : State} (s : State) (cls : Nat) (h : Option Nat) (hK : Keeps z0 s) : Keeps z0 (askHandover s
    cls h) := by
  unfold askHandover
  try dsimp only
  repeat' (first
    | with_reducible assumption | simp only [↓keeps_fields, ↓kept_self] | with_reducible apply keeps_tryHandovers
    | with_reducible apply keeps_onK)

theorem keeps_commitTrial {z0 : State} (s : State) (cls : Nat) (hK : Keeps z0 s) : Keeps z0 (commitTrial s cls) := by
  unfold commitTrial
  try dsimp only
  repeat' (first
    | intro _ | with_reducible assumption | simp only [↓keeps_fields, ↓kept_self] | with_reducible apply keeps_kept
    | with_reducible apply keeps_modFw | with_reducible apply keeps_rollback | with_reducible apply keeps_logAppend
    | with_reducible apply keeps_extend | with_reducible apply keeps_getD | with_reducible exact FusesGrow.refl _
    | with_reducible exact fuses_rollback | with_reducible exact Nat.le_refl _
    | with_reducible exact Nat.le_add_right _ _ | assumption)

theorem keeps_revertSlot {z0 : State} (s : State) (cls : Nat) (hK : Keeps z0 s) : Keeps z0 (revertSlot s cls) := by
  unfold revertSlot
  try dsimp only
  repeat' (first
    | with_reducible assumption | simp only [↓keeps_fields, ↓kept_self] | with_reducible apply keeps_modFw
    | with_reducible apply keeps_raiseEvent | with_reducible apply keeps_logAppend)

theorem keeps_trialFault {z0 : State} (s : State) (cls : Nat) (hK : Keeps z0 s) : Keeps z0 (trialFault s cls) := by
  unfold trialFault
  try dsimp only
  repeat' (first
    | with_reducible assumption | with_reducible apply keeps_ite | with_reducible apply keeps_revertSlot | split)

theorem keeps_trialStart {z0 : State} (s : State) (cls : Nat) (hK : Keeps z0 s) : Keeps z0 (trialStart s cls) := by
  unfold trialStart
  try dsimp only
  repeat' (first
    | with_reducible assumption | with_reducible apply keeps_ite | simp only [↓keeps_fields, ↓kept_self]
    | with_reducible apply keeps_modFw | with_reducible apply keeps_revertSlot | split)

theorem keeps_execUpdateAutoCommit {z0 : State} {cls : Fin 4} {s : State} (hK : Keeps z0 s) : KeepsE z0
    (execUpdateAutoCommit cls s) := by
  unfold execUpdateAutoCommit
  try dsimp only
  repeat' (first
    | intro _ | with_reducible assumption | with_reducible apply keepsE_next | with_reducible apply keeps_ite
    | with_reducible apply keepsE_ite | with_reducible apply keeps_commitTrial | split)

theorem keeps_execUpdateTrialExpiry {z0 : State} {cls : Fin 4} {s : State} (hK : Keeps z0 s) : KeepsE z0
    (execUpdateTrialExpiry cls s) := by
  unfold execUpdateTrialExpiry
  try dsimp only
  repeat' (first
    | intro _ | with_reducible assumption | with_reducible apply keepsE_next | with_reducible apply keeps_ite
    | with_reducible apply keepsE_ite | with_reducible apply keeps_askHandover
    | with_reducible apply keeps_revertSlot | split)

theorem keeps_execSecRestart {z0 : State} {header : List Byte} {s : State} (hK : Keeps z0 s) : KeepsE z0 (execSecRestart
    header s) := by
  unfold execSecRestart
  try dsimp only
  repeat' (first
    | intro _ | with_reducible assumption | with_reducible apply keepsE_next | with_reducible apply keeps_secRestart
    | with_reducible apply keeps_trialFault)

theorem keeps_installFw {z0 : State} (s : State) (h cls : Nat) (auto : Bool) (image : List Byte) (hK : Keeps z0 s) : Keeps
    z0 (installFw s h cls auto image) := by
  unfold installFw
  try dsimp only
  repeat' (first
    | intro _ | with_reducible assumption | with_reducible apply keeps_ite | simp only [↓keeps_fields, ↓kept_self]
    | with_reducible apply keeps_kept | with_reducible apply keeps_complete
    | with_reducible apply keeps_imageRefused | with_reducible apply keeps_modFw
    | with_reducible apply keeps_logAppend | with_reducible apply keeps_askHandover
    | with_reducible exact FusesGrow.refl _ | with_reducible exact Nat.le_refl _
    | with_reducible exact Nat.le_add_right _ _ | with_reducible apply Memory.wf_writeBytes | split | assumption)

theorem keeps_commitFw {z0 : State} (s : State) (h cls : Nat) (hK : Keeps z0 s) : Keeps z0 (commitFw s h cls) := by
  unfold commitFw
  try dsimp only
  repeat' (first
    | with_reducible assumption | with_reducible apply keeps_ite | with_reducible apply keeps_complete
    | with_reducible apply keeps_commitTrial | split)

theorem keeps_revertFw {z0 : State} (s : State) (h cls : Nat) (hK : Keeps z0 s) : Keeps z0 (revertFw s h cls) := by
  unfold revertFw
  try dsimp only
  repeat' (first
    | with_reducible assumption | with_reducible apply keeps_ite | with_reducible apply keeps_askHandover
    | with_reducible apply keeps_revertSlot | with_reducible apply keeps_complete | split)

end Sys2Proof.Machine
end

