-- ==== Sys2Proof/Laws/KeepsCoreCtl.lean ====
section
/-! SUPPORT. Sys2Proof/Laws/KeepsCoreCtl.lean: each operation of Machine/CoreCtl.lean keeps what `Keeps` says. -/

namespace Sys2Proof.Machine

set_option simprocs false
set_option linter.all false

theorem keeps_coreRest {z0 : State} (s : State) (n : Nat) (hK : Keeps z0 s) : Keeps z0 (coreRest s n) := by
  unfold coreRest
  try dsimp only
  repeat' (first
    | with_reducible assumption | simp only [↓keeps_fields, ↓kept_self] | with_reducible apply keeps_setCore)

theorem keeps_sendReport {z0 : State} (s : State) (n : Nat) (hK : Keeps z0 s) : Keeps z0 (sendReport s n) := by
  unfold sendReport
  try dsimp only
  repeat' (first
    | with_reducible assumption | with_reducible apply keeps_ite | simp only [↓keeps_fields, ↓kept_self]
    | with_reducible apply keeps_coreRest | with_reducible apply keeps_hwWrite | split)

theorem keeps_finish {z0 : State} (s : State) (n : Nat) (hK : Keeps z0 s) : Keeps z0 (finish s n) := by
  unfold finish
  try dsimp only
  repeat' (first
    | with_reducible assumption | with_reducible apply keeps_ite | with_reducible apply keeps_sendReport | split)

theorem keeps_endCommand {z0 : State} (s : State) (n : Nat) (e : Ending) (hK : Keeps z0 s) : Keeps z0 (endCommand s n e) := by
  unfold endCommand
  try dsimp only
  repeat' (first
    | with_reducible assumption | simp only [↓keeps_fields, ↓kept_self] | with_reducible apply keeps_setCore
    | with_reducible apply keeps_finish)

theorem keeps_faultCmd {z0 : State} (s : State) (n : Nat) (f : CmdFault) (pc : Nat) (hK : Keeps z0 s) : Keeps z0 (faultCmd s
    n f pc) := by
  unfold faultCmd
  try dsimp only
  repeat' (first
    | with_reducible assumption | with_reducible apply keeps_ite | with_reducible apply keeps_recordFault
    | with_reducible apply keeps_endCommand | split)

theorem keeps_launch {z0 : State} (s : State) (n a : Nat) (hK : Keeps z0 s) : Keeps z0 (launch s n a) := by
  unfold launch
  try dsimp only
  repeat' (first
    | with_reducible assumption | with_reducible apply keeps_ite | simp only [↓keeps_fields, ↓kept_self]
    | with_reducible apply keeps_faultCmd | with_reducible apply keeps_onCore | split)

theorem keeps_dispatch {z0 : State} (s : State) (n : Nat) (w1 w2 w3 w4 w5 : Word) (hK : Keeps z0 s) : Keeps z0 (dispatch s n
    w1 w2 w3 w4 w5) := by
  unfold dispatch
  try dsimp only
  repeat' (first
    | with_reducible assumption | with_reducible apply keeps_ite | with_reducible apply keeps_setCore
    | with_reducible apply keeps_faultCmd | with_reducible apply keeps_launch | split)

theorem keeps_execCommandDispatch {z0 : State} {core : Fin 32} {s : State} (hK : Keeps z0 s) : KeepsE z0
    (execCommandDispatch core s) := by
  unfold execCommandDispatch
  try dsimp only
  repeat' (first
    | intro _ | with_reducible assumption | with_reducible apply keepsE_next | with_reducible apply keeps_ite
    | with_reducible apply keepsE_ite | with_reducible apply keeps_dispatch | with_reducible apply keeps_mbxTake
    | split)

theorem keeps_execWatchdog {z0 : State} {core : Fin 32} {s : State} (hK : Keeps z0 s) : KeepsE z0 (execWatchdog core s) := by
  unfold execWatchdog
  try dsimp only
  repeat' (first
    | intro _ | with_reducible assumption | with_reducible apply keepsE_next | with_reducible apply keeps_ite
    | with_reducible apply keepsE_ite | with_reducible apply keeps_faultCmd | split)

theorem keeps_stopCore {z0 : State} (s : State) (n : Nat) (hK : Keeps z0 s) : Keeps z0 (stopCore s n) := by
  unfold stopCore
  try dsimp only
  repeat' (first
    | with_reducible assumption | with_reducible apply keeps_ite | with_reducible apply keeps_endCommand | split)

theorem keeps_ctrlWrite {z0 : State} (s : State) (n : Nat) (f : Core → Core) (hK : Keeps z0 s) : Keeps z0 (ctrlWrite s n f) := by
  unfold ctrlWrite
  try dsimp only
  repeat' (first
    | with_reducible assumption | with_reducible apply keeps_ite | with_reducible apply keeps_setCore | split)

theorem keeps_keeperWrite {z0 : State} (by_ : Req) (s : State) (f : State → State) (h_f : ∀ (x0_ : State), Keeps z0 x0_ →
    Keeps z0 (f x0_)) (hK : Keeps z0 s) : Keeps z0 (keeperWrite by_ s f) := by
  unfold keeperWrite
  try dsimp only
  repeat' (first
    | intro _ | with_reducible assumption | with_reducible apply h_f | with_reducible apply keeps_ite
    | with_reducible apply keeps_busOk | with_reducible apply keeps_busError | split)

theorem keeps_execCoreStop {z0 : State} {by_ : Req} {core : Fin 32} {s : State} (hK : Keeps z0 s) : KeepsE z0 (execCoreStop
    by_ core s) := by
  unfold execCoreStop
  try dsimp only
  repeat' (first
    | intro _ | with_reducible assumption | with_reducible apply keepsE_next
    | with_reducible apply keeps_keeperWrite | with_reducible apply keeps_stopCore)

theorem keeps_execCoreClearResident {z0 : State} {by_ : Req} {core : Fin 32} {s : State} (hK : Keeps z0 s) : KeepsE z0
    (execCoreClearResident by_ core s) := by
  unfold execCoreClearResident
  try dsimp only
  repeat' (first
    | intro _ | with_reducible assumption | with_reducible apply keepsE_next | simp only [↓keeps_fields, ↓kept_self]
    | with_reducible apply keeps_keeperWrite | with_reducible apply keeps_ctrlWrite)

theorem keeps_execCoreBistHold {z0 : State} {by_ : Req} {core : Fin 32} {v : Bool} {s : State} (hK : Keeps z0 s) : KeepsE z0
    (execCoreBistHold by_ core v s) := by
  unfold execCoreBistHold
  try dsimp only
  repeat' (first
    | intro _ | with_reducible assumption | with_reducible apply keepsE_next | simp only [↓keeps_fields, ↓kept_self]
    | with_reducible apply keeps_keeperWrite | with_reducible apply keeps_ctrlWrite)

theorem keeps_execCoreRetire {z0 : State} {by_ : Req} {core : Fin 32} {s : State} (hK : Keeps z0 s) : KeepsE z0
    (execCoreRetire by_ core s) := by
  unfold execCoreRetire
  try dsimp only
  repeat' (first
    | intro _ | with_reducible assumption | with_reducible apply keepsE_next | simp only [↓keeps_fields, ↓kept_self]
    | with_reducible apply keeps_keeperWrite | with_reducible apply keeps_ctrlWrite)

theorem keeps_execCoreEnable {z0 : State} {by_ : Req} {core : Fin 32} {v : Bool} {s : State} (hK : Keeps z0 s) : KeepsE z0
    (execCoreEnable by_ core v s) := by
  unfold execCoreEnable
  try dsimp only
  repeat' (first
    | intro _ | with_reducible assumption | with_reducible apply keepsE_next | simp only [↓keeps_fields, ↓kept_self]
    | with_reducible apply keeps_keeperWrite | with_reducible apply keeps_ctrlWrite)

theorem keeps_execCoreArrayDutyWrite {z0 : State} {by_ : Req} {core : Fin 32} {v : Word} {s : State} (hK : Keeps z0 s) :
    KeepsE z0 (execCoreArrayDutyWrite by_ core v s) := by
  unfold execCoreArrayDutyWrite
  try dsimp only
  repeat' (first
    | intro _ | with_reducible assumption | with_reducible apply keepsE_next | simp only [↓keeps_fields, ↓kept_self]
    | with_reducible apply keeps_keeperWrite | with_reducible apply keeps_onCore)

end Sys2Proof.Machine
end

