-- ==== Sys2Proof/Laws/KeepsKv.lean ====
section
/-! SUPPORT. Sys2Proof/Laws/KeepsKv.lean: each operation of Machine/Kv.lean keeps what `Keeps` says. -/

namespace Sys2Proof.Machine

set_option simprocs false
set_option linter.all false

theorem keeps_startKapp {z0 : State} {s : State} {n : Nat} {e : QEntry} (hK : Keeps z0 s) : KeepsX z0 (startKapp s n e) := by
  unfold startKapp
  try dsimp only
  repeat' (first
    | intro _ | with_reducible assumption | with_reducible apply keeps_ite | with_reducible apply keepsX_ite
    | simp only [↓keeps_fields, ↓kept_self] | with_reducible apply keeps_setCore
    | with_reducible apply keeps_writeTile | with_reducible apply keeps_nextFree | with_reducible apply keepsX_ok
    | with_reducible apply keepsX_pure | with_reducible apply keepsX_error | with_reducible exact keepsX_faultOf
    | with_reducible exact keepsX_faultAt | with_reducible apply keepsX_bind_state
    | with_reducible apply keepsX_bind | with_reducible apply keeps_foldl | split)

theorem keeps_writePage {z0 : State} (s : State) (n page : Nat) (kv8 : Bool) (keys vals : List (EncBlock × Word)) (aux :
    List Byte) (hK : Keeps z0 s) : Keeps z0 (writePage s n page kv8 keys vals aux) := by
  unfold writePage
  try dsimp only
  repeat' (first
    | intro _ | with_reducible assumption | with_reducible apply keeps_writeTile | with_reducible apply keeps_foldl)

theorem keeps_startKseal {z0 : State} {s : State} {n : Nat} {e : QEntry} (hK : Keeps z0 s) : KeepsX z0 (startKseal s n e) := by
  unfold startKseal
  try dsimp only
  repeat' (first
    | intro _ | with_reducible assumption | with_reducible apply keeps_ite | with_reducible apply keepsX_ite
    | with_reducible apply keeps_writePage | with_reducible apply keepsX_ok | with_reducible apply keepsX_pure
    | with_reducible apply keepsX_error | with_reducible exact keepsX_faultOf | with_reducible exact keepsX_faultAt
    | with_reducible apply keepsX_bind_state | with_reducible apply keepsX_bind | split)

theorem keeps_pinPage {z0 : State} (s : State) (n l2 : Nat) (hK : Keeps z0 s) : Keeps z0 (pinPage s n l2) := by
  unfold pinPage
  try dsimp only
  repeat' (first
    | with_reducible assumption | with_reducible apply keeps_ite | simp only [↓keeps_fields, ↓kept_self]
    | with_reducible apply keeps_modPage | with_reducible apply keeps_onCore | split)

theorem keeps_startKmap {z0 : State} {s : State} {n : Nat} {e : QEntry} (hK : Keeps z0 s) : KeepsX z0 (startKmap s n e) := by
  unfold startKmap
  try dsimp only
  repeat' (first
    | intro _ | with_reducible assumption | with_reducible apply keeps_ite | with_reducible apply keepsX_ite
    | simp only [↓keeps_fields, ↓kept_self] | with_reducible apply keeps_nextFree
    | with_reducible apply keeps_promote | with_reducible apply keeps_pinPage | with_reducible apply keepsX_ok
    | with_reducible apply keepsX_pure | with_reducible apply keepsX_error | with_reducible exact keepsX_faultOf
    | with_reducible exact keepsX_faultAt | with_reducible apply keepsX_bind_state
    | with_reducible apply keepsX_bind | with_reducible apply keeps_foldl | split)

theorem keeps_completeKmap {z0 : State} {s : State} {n : Nat} {e : QEntry} (hK : Keeps z0 s) {r_} (e_ : completeKmap s n e =
    some r_) : KeepsX z0 r_ := by
  unfold completeKmap at e_
  try dsimp only at e_
  repeat' (first | cases e_ | split at e_ | (rw [Option.map_eq_some_iff] at e_; obtain ⟨a_, ha_, e_⟩ := e_) | (rw [Option.bind_eq_some_iff] at e_; obtain ⟨a_, ha_, e_⟩ := e_))
  all_goals repeat' (first
    | with_reducible assumption | with_reducible apply keeps_ite | simp only [↓keeps_fields, ↓kept_self]
    | with_reducible apply keeps_onCore | with_reducible apply keepsX_ok | with_reducible apply keepsX_pure
    | with_reducible apply keepsX_error | with_reducible exact keepsX_faultOf | with_reducible exact keepsX_faultAt
    | with_reducible apply keepsX_bind_state | with_reducible apply keepsX_bind | split)

end Sys2Proof.Machine
end

