-- ==== Sys2Proof/Laws/KeepsDma.lean ====
section
/-! SUPPORT. Sys2Proof/Laws/KeepsDma.lean: each operation of Machine/Dma.lean keeps what `Keeps` says. -/

namespace Sys2Proof.Machine

set_option simprocs false
set_option linter.all false

theorem keeps_tileLookup {z0 : State} (s : State) (n : Nat) (a0_ : TileLoc) (hK : Keeps z0 s) : Keeps z0 (tileLookup s n
    a0_) := by
  unfold tileLookup
  repeat' (first
    | with_reducible assumption | with_reducible apply keeps_otcLookup | split)

theorem keeps_startTld {z0 : State} {s : State} {n : Nat} {e : QEntry} (hK : Keeps z0 s) : KeepsX z0 (startTld s n e) := by
  unfold startTld
  try dsimp only
  repeat' (first
    | intro _ | with_reducible assumption | with_reducible apply keeps_tileLookup | with_reducible apply keepsX_ok
    | with_reducible apply keepsX_pure | with_reducible apply keepsX_error | with_reducible exact keepsX_faultOf
    | with_reducible exact keepsX_faultAt | with_reducible apply keepsX_bind_state
    | with_reducible apply keepsX_bind)

theorem keeps_startTchk {z0 : State} {s : State} {n : Nat} {e : QEntry} (hK : Keeps z0 s) : KeepsX z0 (startTchk s n e) := by
  unfold startTchk
  try dsimp only
  repeat' (first
    | intro _ | with_reducible assumption | with_reducible apply keeps_tileLookup | with_reducible apply keepsX_ok
    | with_reducible apply keepsX_pure | with_reducible apply keepsX_error | with_reducible exact keepsX_faultOf
    | with_reducible exact keepsX_faultAt | with_reducible apply keepsX_bind_state
    | with_reducible apply keepsX_bind)

theorem keeps_noteStore {z0 : State} (s : State) (n tag : Nat) (hK : Keeps z0 s) : Keeps z0 (noteStore s n tag) := by
  unfold noteStore
  repeat' (first
    | with_reducible assumption | simp only [↓keeps_fields, ↓kept_self])

theorem keeps_startTst {z0 : State} {s : State} {n : Nat} {e : QEntry} (hK : Keeps z0 s) : KeepsX z0 (startTst s n e) := by
  unfold startTst
  try dsimp only
  repeat' (first
    | intro _ | with_reducible assumption | with_reducible apply keeps_ite | with_reducible apply keepsX_ite
    | simp only [↓keeps_fields, ↓kept_self] | with_reducible apply keeps_writeTile | with_reducible apply keeps_noteStore
    | with_reducible apply keeps_nextFree | with_reducible apply keeps_setCore | with_reducible apply keepsX_ok
    | with_reducible apply keepsX_pure | with_reducible apply keepsX_error | with_reducible exact keepsX_faultOf
    | with_reducible exact keepsX_faultAt | with_reducible apply keepsX_bind_state
    | with_reducible apply keepsX_bind | split)

theorem keeps_startTpf {z0 : State} {s : State} {n : Nat} {e : QEntry} (hK : Keeps z0 s) : KeepsX z0 (startTpf s n e) := by
  unfold startTpf
  try dsimp only
  repeat' (first
    | intro _ | with_reducible assumption | with_reducible apply keeps_ite | with_reducible apply keepsX_ite
    | simp only [↓keeps_fields, ↓kept_self] | with_reducible apply keeps_promote | with_reducible apply keepsX_ok
    | with_reducible apply keepsX_pure | with_reducible apply keepsX_error | with_reducible exact keepsX_faultOf
    | with_reducible exact keepsX_faultAt | with_reducible apply keepsX_bind_state
    | with_reducible apply keepsX_bind | split)

theorem keeps_landTile {z0 : State} (s : State) (n : Nat) (e : QEntry) (data : List Byte) (hK : Keeps z0 s) : Keeps z0
    (landTile s n e data) := by
  unfold landTile
  try dsimp only
  repeat' (first
    | with_reducible assumption | with_reducible apply keeps_onCore)

theorem keeps_completeTld {z0 : State} {s : State} {n : Nat} {e : QEntry} (hK : Keeps z0 s) {r_} (e_ : completeTld s n e =
    some r_) : KeepsX z0 r_ := by
  unfold completeTld at e_
  try dsimp only at e_
  repeat' (first | cases e_ | split at e_ | (rw [Option.map_eq_some_iff] at e_; obtain ⟨a_, ha_, e_⟩ := e_) | (rw [Option.bind_eq_some_iff] at e_; obtain ⟨a_, ha_, e_⟩ := e_))
  all_goals repeat' (first
    | with_reducible assumption | simp only [↓keeps_fields, ↓kept_self] | with_reducible apply keeps_landTile
    | with_reducible apply keepsX_ok | with_reducible apply keepsX_pure | with_reducible apply keepsX_error
    | with_reducible exact keepsX_faultOf | with_reducible exact keepsX_faultAt
    | with_reducible apply keepsX_bind_state | with_reducible apply keepsX_bind | split)

theorem keeps_completeTchk {z0 : State} {s : State} {n : Nat} {e : QEntry} (hK : Keeps z0 s) {r_} (e_ : completeTchk s n e =
    some r_) : KeepsX z0 r_ := by
  unfold completeTchk at e_
  try dsimp only at e_
  repeat' (first | cases e_ | split at e_ | (rw [Option.map_eq_some_iff] at e_; obtain ⟨a_, ha_, e_⟩ := e_) | (rw [Option.bind_eq_some_iff] at e_; obtain ⟨a_, ha_, e_⟩ := e_))
  all_goals repeat' (first
    | with_reducible assumption | simp only [↓keeps_fields, ↓kept_self] | with_reducible apply keeps_onCore
    | with_reducible apply keeps_logCheck | with_reducible apply keepsX_ok | with_reducible apply keepsX_pure
    | with_reducible apply keepsX_error | with_reducible exact keepsX_faultOf | with_reducible exact keepsX_faultAt
    | with_reducible apply keepsX_bind_state | with_reducible apply keepsX_bind | split)

end Sys2Proof.Machine
end

