-- ==== Sys2Proof/Laws/KeepsElement.lean ====
section
/-! SUPPORT. Sys2Proof/Laws/KeepsElement.lean: each operation of Machine/Element.lean keeps what `Keeps` says. -/

namespace Sys2Proof.Machine

set_option simprocs false
set_option linter.all false

theorem keeps_elRun {z0 : State} {s : State} {n : Nat} {reads writes : List (Opnd × Nat × Bool)} {f : List Host.Cell → Core
    → Core} {also : List (Nat × Nat)} (hK : Keeps z0 s) : KeepsX z0 (elRun s n reads writes f also) := by
  unfold elRun
  try dsimp only
  repeat' (first
    | intro _ | with_reducible assumption | with_reducible apply keeps_nextFree | with_reducible apply keeps_setCore
    | with_reducible apply keepsX_ok | with_reducible apply keepsX_pure | with_reducible apply keepsX_error
    | with_reducible exact keepsX_faultOf | with_reducible exact keepsX_faultAt
    | with_reducible apply keepsX_bind_state | with_reducible apply keepsX_bind | split)

theorem keeps_startEop {z0 : State} {s : State} {n : Nat} {e : QEntry} (hK : Keeps z0 s) : KeepsX z0 (startEop s n e) := by
  unfold startEop
  try dsimp only
  repeat' (first
    | intro _ | with_reducible assumption | with_reducible apply keeps_ite | with_reducible apply keepsX_ite
    | with_reducible apply keeps_elRun | refine KeepsX.out (keeps_elRun ?_) (by assumption)
    | with_reducible apply keepsX_ok | with_reducible apply keepsX_pure | with_reducible apply keepsX_error
    | with_reducible exact keepsX_faultOf | with_reducible exact keepsX_faultAt
    | with_reducible apply keepsX_bind_state | with_reducible apply keepsX_bind | split)

theorem keeps_startErq {z0 : State} {s : State} {n : Nat} {e : QEntry} (hK : Keeps z0 s) : KeepsX z0 (startErq s n e) := by
  unfold startErq
  try dsimp only
  repeat' (first
    | intro _ | with_reducible assumption | with_reducible apply keeps_ite | with_reducible apply keepsX_ite
    | simp only [↓keeps_fields, ↓kept_self] | with_reducible apply keeps_nextFree
    | with_reducible apply keeps_setCore | with_reducible apply keepsX_ok | with_reducible apply keepsX_pure
    | with_reducible apply keepsX_error | with_reducible exact keepsX_faultOf | with_reducible exact keepsX_faultAt
    | with_reducible apply keepsX_bind_state | with_reducible apply keepsX_bind | with_reducible apply keeps_foldl
    | with_reducible apply keeps_getD | split)

theorem keeps_startEsmx {z0 : State} {s : State} {n : Nat} {e : QEntry} (hK : Keeps z0 s) : KeepsX z0 (startEsmx s n e) := by
  unfold startEsmx
  try dsimp only
  repeat' (first
    | intro _ | with_reducible assumption | with_reducible apply keeps_ite | with_reducible apply keepsX_ite
    | with_reducible apply keeps_nextFree | with_reducible apply keeps_setCore | with_reducible apply keepsX_ok
    | with_reducible apply keepsX_pure | with_reducible apply keepsX_error | with_reducible exact keepsX_faultOf
    | with_reducible exact keepsX_faultAt | with_reducible apply keepsX_bind_state
    | with_reducible apply keepsX_bind | with_reducible apply keeps_foldl | split)

theorem keeps_startEnorm {z0 : State} {s : State} {n : Nat} {e : QEntry} (hK : Keeps z0 s) : KeepsX z0 (startEnorm s n e) := by
  unfold startEnorm
  try dsimp only
  repeat' (first
    | intro _ | with_reducible assumption | with_reducible apply keeps_ite | with_reducible apply keepsX_ite
    | with_reducible apply keeps_elRun | refine KeepsX.out (keeps_elRun ?_) (by assumption)
    | with_reducible apply keepsX_ok | with_reducible apply keepsX_pure | with_reducible apply keepsX_error
    | with_reducible exact keepsX_faultOf | with_reducible exact keepsX_faultAt
    | with_reducible apply keepsX_bind_state | with_reducible apply keepsX_bind | split)

theorem keeps_startEgate {z0 : State} {s : State} {n : Nat} {e : QEntry} (hK : Keeps z0 s) : KeepsX z0 (startEgate s n e) := by
  unfold startEgate
  try dsimp only
  repeat' (first
    | intro _ | with_reducible assumption | with_reducible apply keeps_ite | with_reducible apply keepsX_ite
    | with_reducible apply keeps_nextFree | with_reducible apply keeps_setCore | with_reducible apply keepsX_ok
    | with_reducible apply keepsX_pure | with_reducible apply keepsX_error | with_reducible exact keepsX_faultOf
    | with_reducible exact keepsX_faultAt | with_reducible apply keepsX_bind_state
    | with_reducible apply keepsX_bind | with_reducible apply keeps_foldl | with_reducible apply keeps_getD | split)

theorem keeps_startEscan {z0 : State} {s : State} {n : Nat} {e : QEntry} (hK : Keeps z0 s) : KeepsX z0 (startEscan s n e) := by
  unfold startEscan
  try dsimp only
  repeat' (first
    | intro _ | with_reducible assumption | with_reducible apply keeps_ite | with_reducible apply keepsX_ite
    | with_reducible apply keeps_elRun | refine KeepsX.out (keeps_elRun ?_) (by assumption)
    | with_reducible apply keepsX_ok | with_reducible apply keepsX_pure | with_reducible apply keepsX_error
    | with_reducible exact keepsX_faultOf | with_reducible exact keepsX_faultAt
    | with_reducible apply keepsX_bind_state | with_reducible apply keepsX_bind | with_reducible apply keeps_foldl
    | split)

theorem keeps_startEred {z0 : State} {s : State} {n : Nat} {e : QEntry} (hK : Keeps z0 s) : KeepsX z0 (startEred s n e) := by
  unfold startEred
  try dsimp only
  repeat' (first
    | intro _ | with_reducible assumption | with_reducible apply keeps_ite | with_reducible apply keepsX_ite
    | with_reducible apply keeps_elRun | refine KeepsX.out (keeps_elRun ?_) (by assumption)
    | with_reducible apply keepsX_ok | with_reducible apply keepsX_pure | with_reducible apply keepsX_error
    | with_reducible exact keepsX_faultOf | with_reducible exact keepsX_faultAt
    | with_reducible apply keepsX_bind_state | with_reducible apply keepsX_bind | with_reducible apply keeps_getD
    | split)

theorem keeps_startWquantRange {z0 : State} {s : State} {n : Nat} {e : QEntry} (hK : Keeps z0 s) : KeepsX z0
    (startWquantRange s n e) := by
  unfold startWquantRange
  try dsimp only
  repeat' (first
    | intro _ | with_reducible assumption | with_reducible apply keeps_ite | with_reducible apply keepsX_ite
    | with_reducible apply keeps_elRun | refine KeepsX.out (keeps_elRun ?_) (by assumption)
    | with_reducible apply keepsX_ok | with_reducible apply keepsX_pure | with_reducible apply keepsX_error
    | with_reducible exact keepsX_faultOf | with_reducible exact keepsX_faultAt
    | with_reducible apply keepsX_bind_state | with_reducible apply keepsX_bind | with_reducible apply keeps_getD
    | split)

theorem keeps_startWquantEncode {z0 : State} {s : State} {n : Nat} {e : QEntry} (hK : Keeps z0 s) : KeepsX z0
    (startWquantEncode s n e) := by
  unfold startWquantEncode
  try dsimp only
  repeat' (first
    | intro _ | with_reducible assumption | with_reducible apply keeps_ite | with_reducible apply keepsX_ite
    | with_reducible apply keeps_elRun | refine KeepsX.out (keeps_elRun ?_) (by assumption)
    | with_reducible apply keepsX_ok | with_reducible apply keepsX_pure | with_reducible apply keepsX_error
    | with_reducible exact keepsX_faultOf | with_reducible exact keepsX_faultAt
    | with_reducible apply keepsX_bind_state | with_reducible apply keepsX_bind | with_reducible apply keeps_foldl
    | with_reducible apply keeps_getD | split)

theorem keeps_startElement {z0 : State} {s : State} {n : Nat} {e : QEntry} (hK : Keeps z0 s) : KeepsX z0 (startElement s n
    e) := by
  unfold startElement
  try dsimp only
  repeat' (first
    | intro _ | with_reducible assumption | with_reducible apply keeps_ite | with_reducible apply keepsX_ite
    | simp only [↓keeps_fields, ↓kept_self] | with_reducible apply keeps_startEop
    | refine KeepsX.out (keeps_startEop ?_) (by assumption) | with_reducible apply keeps_startErq
    | refine KeepsX.out (keeps_startErq ?_) (by assumption) | with_reducible apply keeps_startEsmx
    | refine KeepsX.out (keeps_startEsmx ?_) (by assumption) | with_reducible apply keeps_startEnorm
    | refine KeepsX.out (keeps_startEnorm ?_) (by assumption) | with_reducible apply keeps_startEgate
    | refine KeepsX.out (keeps_startEgate ?_) (by assumption) | with_reducible apply keeps_startEscan
    | refine KeepsX.out (keeps_startEscan ?_) (by assumption) | with_reducible apply keeps_startEred
    | refine KeepsX.out (keeps_startEred ?_) (by assumption) | with_reducible apply keeps_startWquantEncode
    | refine KeepsX.out (keeps_startWquantEncode ?_) (by assumption) | with_reducible apply keeps_startWquantRange
    | refine KeepsX.out (keeps_startWquantRange ?_) (by assumption) | with_reducible apply keepsX_ok
    | with_reducible apply keepsX_pure | with_reducible apply keepsX_error | with_reducible exact keepsX_faultOf
    | with_reducible exact keepsX_faultAt | with_reducible apply keepsX_bind_state
    | with_reducible apply keepsX_bind | split)

end Sys2Proof.Machine
end

