-- ==== Sys2Proof/Laws/KeepsMatrix.lean ====
section
/-! SUPPORT. Sys2Proof/Laws/KeepsMatrix.lean: each operation of Machine/Matrix.lean keeps what `Keeps` says. -/

namespace Sys2Proof.Machine

set_option simprocs false
set_option linter.all false

theorem keeps_startMwl {z0 : State} {s : State} {n : Nat} {e : QEntry} (hK : Keeps z0 s) : KeepsX z0 (startMwl s n e) := by
  unfold startMwl
  try dsimp only
  repeat' (first
    | intro _ | with_reducible assumption | with_reducible apply keeps_ite | with_reducible apply keepsX_ite
    | with_reducible apply keeps_nextFree | with_reducible apply keeps_setCore | with_reducible apply keepsX_ok
    | with_reducible apply keepsX_pure | with_reducible apply keepsX_error | with_reducible exact keepsX_faultOf
    | with_reducible exact keepsX_faultAt | with_reducible apply keepsX_bind_state
    | with_reducible apply keepsX_bind | split)

theorem keeps_startMma {s0 : State} {s : State} {n : Nat} {e : QEntry} (hK : Keeps s0 s) {t : State} {f : Option CmdFault}
    (e_ : startMma s n e = .ok (t, f)) : Keeps s0 t := by
  unfold startMma at e_
  dsimp only at e_
  split at e_
  · cases e_
  · simp only [bind, Except.bind] at e_
    repeat' (split at e_ <;> first | (cases e_; done) | skip)
    all_goals
      simp only [pure, Except.pure] at e_
      cases e_
      exact keeps_nextFree _ (keeps_setCore _ _ _ hK)

theorem keeps_maccCkpt {z0 : State} {s : State} {n : Nat} {e : QEntry} (hK : Keeps z0 s) : KeepsX z0 (maccCkpt s n e) := by
  unfold maccCkpt
  try dsimp only
  repeat' (first
    | intro _ | with_reducible assumption | with_reducible apply keeps_writeTile | with_reducible apply keeps_setCore
    | with_reducible apply keepsX_ok | with_reducible apply keepsX_pure | with_reducible apply keepsX_error
    | with_reducible exact keepsX_faultOf | with_reducible exact keepsX_faultAt | with_reducible apply keepsX_bind_state
    | with_reducible apply keepsX_bind | with_reducible apply keeps_foldl | split)

theorem keeps_maccRestore {z0 : State} {s : State} {n : Nat} {e : QEntry} (hK : Keeps z0 s) : KeepsX z0 (maccRestore s n e) := by
  unfold maccRestore
  try dsimp only
  repeat' (first
    | intro _ | with_reducible assumption | simp only [↓keeps_fields, ↓kept_self]
    | with_reducible apply keeps_onCore | with_reducible apply keepsX_ok | with_reducible apply keepsX_pure
    | with_reducible apply keepsX_error | with_reducible exact keepsX_faultOf | with_reducible exact keepsX_faultAt
    | with_reducible apply keepsX_bind_state | with_reducible apply keepsX_bind | with_reducible apply keeps_foldl
    | split)

theorem keeps_startMacc {z0 : State} {s : State} {n : Nat} {e : QEntry} (hK : Keeps z0 s) : KeepsX z0 (startMacc s n e) := by
  unfold startMacc
  try dsimp only
  repeat' (first
    | intro _ | with_reducible assumption | simp only [↓keeps_fields, ↓kept_self]
    | with_reducible apply keeps_setCore | with_reducible apply keeps_maccCkpt
    | refine KeepsX.out (keeps_maccCkpt ?_) (by assumption) | with_reducible apply keeps_maccRestore
    | refine KeepsX.out (keeps_maccRestore ?_) (by assumption) | with_reducible apply keepsX_ok
    | with_reducible apply keepsX_pure | with_reducible apply keepsX_error | with_reducible exact keepsX_faultOf
    | with_reducible exact keepsX_faultAt | with_reducible apply keepsX_bind_state
    | with_reducible apply keepsX_bind | split)

end Sys2Proof.Machine
end

