-- ==== Sys2Proof/Laws/KeepsStream.lean ====
section
/-! SUPPORT. Sys2Proof/Laws/KeepsStream.lean: each operation of Machine/Stream.lean keeps what `Keeps` says. -/

namespace Sys2Proof.Machine

set_option simprocs false
set_option linter.all false

theorem keeps_startStream {z0 : State} {s : State} {n : Nat} {e : QEntry} (hK : Keeps z0 s) : KeepsX z0 (startStream s n e) := by
  unfold startStream
  try dsimp only
  repeat' (first
    | intro _ | with_reducible assumption | simp only [↓keeps_fields, ↓kept_self] | with_reducible apply keepsX_ok
    | with_reducible apply keepsX_pure | with_reducible apply keepsX_error | with_reducible exact keepsX_faultOf
    | with_reducible exact keepsX_faultAt | with_reducible apply keepsX_bind_state
    | with_reducible apply keepsX_bind | split)

theorem keeps_lsendMore {z0 : State} (s : State) (n : Nat) (e : QEntry) (hK : Keeps z0 s) : Keeps z0 (lsendMore s n e).1 := by
  unfold lsendMore
  try dsimp only
  repeat' (first
    | with_reducible assumption | simp only [↓keeps_fields, ↓kept_self] | with_reducible apply keeps_nextFree
    | with_reducible apply keeps_setCore | with_reducible apply keeps_fabSendAll | split)

theorem keepsP_lsendMore {z0 : State} (s : State) (n : Nat) (e : QEntry) (hK : Keeps z0 s) {t_ : State} {y_} (e_ : lsendMore
    s n e = (t_, y_)) : Keeps z0 t_ := by
  have := keeps_lsendMore (s := s) (n := n) (e := e)  hK
  rw [e_] at this
  exact this

theorem keeps_completeLrecv {z0 : State} {s : State} {n : Nat} {e : QEntry} (hK : Keeps z0 s) {r_} (e_ : completeLrecv s n e
    = some r_) : KeepsX z0 r_ := by
  unfold completeLrecv at e_
  try dsimp only at e_
  repeat' (first | cases e_ | split at e_ | (rw [Option.map_eq_some_iff] at e_; obtain ⟨a_, ha_, e_⟩ := e_) | (rw [Option.bind_eq_some_iff] at e_; obtain ⟨a_, ha_, e_⟩ := e_))
  all_goals repeat' (first
    | with_reducible assumption | with_reducible apply keeps_ite | simp only [↓keeps_fields, ↓kept_self]
    | with_reducible apply keeps_setCore | with_reducible apply keepsX_ok | with_reducible apply keepsX_pure
    | with_reducible apply keepsX_error | with_reducible exact keepsX_faultOf | with_reducible exact keepsX_faultAt
    | with_reducible apply keepsX_bind_state | with_reducible apply keepsX_bind | split)

end Sys2Proof.Machine
end

