-- ==== Sys2Proof/Laws/KeepsQueue.lean ====
section
/-! SUPPORT. Sys2Proof/Laws/KeepsQueue.lean: each operation of Machine/Queue.lean keeps what `Keeps` says. -/

namespace Sys2Proof.Machine

set_option simprocs false
set_option linter.all false

theorem keeps_startOp_plain {s0 : State} {r : Except CmdFault State} (h : KeepsX s0 r) {t : State} {f : Option CmdFault}
    (e_ : (r.map fun t => (t, (none : Option CmdFault))) = .ok (t, f)) : Keeps s0 t := by
  cases r with
  | error x => cases e_
  | ok a =>
    cases e_
    exact h.out rfl

theorem keeps_startOp {s0 : State} {s : State} {n : Nat} {e : QEntry} (hK : Keeps s0 s) {t : State} {f : Option CmdFault}
    (e_ : startOp s n e = .ok (t, f)) : Keeps s0 t := by
  unfold startOp at e_
  dsimp only at e_
  split at e_
  · exact keeps_startOp_plain (keeps_startTld hK) e_
  · exact keeps_startOp_plain (keeps_startTst hK) e_
  · exact keeps_startOp_plain (keeps_startTpf hK) e_
  · exact keeps_startOp_plain (keeps_startTchk hK) e_
  · exact keeps_startOp_plain (keeps_startStream hK) e_
  · exact keeps_startOp_plain (keeps_startStream hK) e_
  · exact keeps_startOp_plain (keeps_startStream hK) e_
  · exact keeps_startOp_plain (keeps_startStream hK) e_
  · exact keeps_startOp_plain (keeps_startMwl hK) e_
  · exact keeps_startMma hK e_
  · exact keeps_startMma hK e_
  · exact keeps_startOp_plain (keeps_startMacc hK) e_
  · exact keeps_startOp_plain (keeps_startKapp hK) e_
  · exact keeps_startOp_plain (keeps_startKseal hK) e_
  · exact keeps_startOp_plain (keeps_startKmap hK) e_
  · exact keeps_startOp_plain (keeps_startElement hK) e_

theorem keeps_startHead {s0 : State} (s : State) (n : Nat) (q : QueueName) (e : QEntry) (hK : Keeps s0 s) :
    Keeps s0 (startHead s n q e) := by
  unfold startHead
  dsimp only
  have h1 : Keeps s0 (setCore s n (setQueue (coreOf s n) q (queueIn (coreOf s n) q).tail)) := keeps_setCore _ _ _ hK
  split
  · exact keeps_faultCmd _ _ _ _ h1
  · rename_i s2 f e_
    have h2 := keeps_startOp h1 e_
    have h3 : Keeps s0 (if e.op = .lsend then lsendMore s2 n e else (s2, e)).1 := by
      split
      · exact keeps_lsendMore _ _ _ h2
      · exact h2
    split
    · exact keeps_onCore _ _ _ h3
    · exact keeps_faultCmd _ _ _ _ (keeps_onCore _ _ _ h3)

theorem keeps_tryStart {z0 : State} (s : State) (n : Nat) (q : QueueName) (hK : Keeps z0 s) : Keeps z0 (tryStart s n q) := by
  unfold tryStart
  try dsimp only
  repeat' (first
    | with_reducible assumption | with_reducible apply keeps_ite | simp only [↓keeps_fields, ↓kept_self]
    | with_reducible apply keeps_startHead | split)

theorem keeps_execQueueEntryStart {z0 : State} {core : Fin 32} {q : QueueName} {s : State} (hK : Keeps z0 s) : KeepsE z0
    (execQueueEntryStart core q s) := by
  unfold execQueueEntryStart
  try dsimp only
  repeat' (first
    | intro _ | with_reducible assumption | with_reducible apply keepsE_next | with_reducible apply keeps_tryStart)

theorem keeps_retire {z0 : State} (s : State) (n : Nat) (q : QueueName) (hK : Keeps z0 s) : Keeps z0 (retire s n q) := by
  unfold retire
  try dsimp only
  repeat' (first
    | with_reducible assumption | with_reducible apply keeps_finish | with_reducible apply keeps_onCore)

theorem keeps_settle {s0 : State} (s : State) (n : Nat) (q : QueueName) (e : QEntry) (r : Option (Except CmdFault State))
    (hK : Keeps s0 s) (hr : ∀ x, r = some x → KeepsX s0 x) : Keeps s0 (settle s n q e r) := by
  unfold settle
  split
  · exact hK
  · exact keeps_faultCmd _ _ _ _ (keeps_onCore _ _ _ hK)
  · exact keeps_retire _ _ _ ((hr _ rfl).out rfl)

theorem keeps_ckptRead {z0 : State} (s : State) (n : Nat) (e : QEntry) (hK : Keeps z0 s) : Keeps z0 (ckptRead s n e) := by
  unfold ckptRead
  try dsimp only
  repeat' (first
    | with_reducible assumption | with_reducible apply keeps_ite | simp only [↓keeps_fields, ↓kept_self]
    | with_reducible apply keeps_onCore | split)

theorem keeps_execQueuedInstructionComplete {z0 : State} {core : Fin 32} {element : Bool} {s : State} (hK : Keeps z0 s) :
    KeepsE z0 (execQueuedInstructionComplete core element s) := by
  unfold execQueuedInstructionComplete
  try dsimp only
  repeat' (first
    | intro _ | with_reducible assumption | with_reducible apply keepsE_next | with_reducible apply keeps_ite
    | with_reducible apply keepsE_ite | simp only [↓keeps_fields, ↓kept_self] | with_reducible apply keeps_settle
    | refine keeps_completeKmap ?_ (by assumption) | with_reducible apply keeps_ckptRead
    | with_reducible apply keeps_retire | split)

theorem keeps_setOldest {z0 : State} (s : State) (n : Nat) (q : QueueName) (e : QEntry) (hK : Keeps z0 s) : Keeps z0
    (setOldest s n q e) := by
  unfold setOldest
  try dsimp only
  repeat' (first
    | with_reducible assumption | with_reducible apply keeps_onCore)

theorem keeps_execDmaTransferComplete {z0 : State} {core : Fin 32} {engine : Fin 2} {s : State} (hK : Keeps z0 s) : KeepsE
    z0 (execDmaTransferComplete core engine s) := by
  unfold execDmaTransferComplete
  try dsimp only
  repeat' (first
    | intro _ | with_reducible assumption | with_reducible apply keepsE_next | with_reducible apply keeps_ite
    | with_reducible apply keepsE_ite | simp only [↓keeps_fields, ↓kept_self] | with_reducible apply keeps_retire
    | with_reducible apply keeps_settle | refine keeps_completeTld ?_ (by assumption)
    | refine keeps_completeTchk ?_ (by assumption) | refine keeps_completeLrecv ?_ (by assumption)
    | with_reducible apply keeps_lsendMore | exact keepsP_lsendMore (by assumption) (by assumption)
    | with_reducible apply keeps_setOldest | split)

theorem keeps_markDone {z0 : State} (s : State) (n : Nat) (e : QEntry) (hK : Keeps z0 s) : Keeps z0 (markDone s n e) := by
  unfold markDone
  try dsimp only
  repeat' (first
    | with_reducible assumption | with_reducible apply keeps_ite | simp only [↓keeps_fields, ↓kept_self]
    | with_reducible apply keeps_onCore | split)

theorem keeps_faultEntry {z0 : State} (s : State) (n : Nat) (e : QEntry) (f : CmdFault) (hK : Keeps z0 s) : Keeps z0
    (faultEntry s n e f) := by
  unfold faultEntry
  try dsimp only
  repeat' (first
    | with_reducible assumption | simp only [↓keeps_fields, ↓kept_self] | with_reducible apply keeps_faultCmd
    | with_reducible apply keeps_onCore)

theorem keeps_execStreamPairTransfer {z0 : State} {a b : Fin 32} {ch : Fin 8} {crcBad : Bool} {s : State} (hK : Keeps z0 s)
    : KeepsE z0 (execStreamPairTransfer a b ch crcBad s) := by
  unfold execStreamPairTransfer
  try dsimp only
  repeat' (first
    | intro _ | with_reducible assumption | with_reducible apply keepsE_next | with_reducible apply keeps_ite
    | with_reducible apply keepsE_ite | simp only [↓keeps_fields, ↓kept_self]
    | with_reducible apply keeps_faultEntry | with_reducible apply keeps_markDone
    | with_reducible apply keeps_nextFree | with_reducible apply keeps_setCore | with_reducible apply keeps_onCore
    | split)

end Sys2Proof.Machine
end

