-- ==== Sys2Proof/Laws/KeepsMemMgr.lean ====
section
/-! SUPPORT. Sys2Proof/Laws/KeepsMemMgr.lean: each operation of Machine/MemMgr.lean keeps what `Keeps` says. -/

namespace Sys2Proof.Machine

set_option simprocs false
set_option linter.all false

theorem keeps_onMem {z0 : State} (s : State) (f : Mem → Mem) (hK : Keeps z0 s) : Keeps z0 (onMem s f) := by
  unfold onMem
  try dsimp only
  repeat' (first
    | with_reducible assumption | simp only [↓keeps_fields, ↓kept_self])

theorem keeps_setDeep {z0 : State} (s : State) (i : Item) (d : Option DeepCopy) (hK : Keeps z0 s) : Keeps z0 (setDeep s i d) := by
  unfold setDeep
  try dsimp only
  repeat' (first
    | with_reducible assumption | simp only [↓keeps_fields, ↓kept_self] | with_reducible apply keeps_modObj
    | with_reducible apply keeps_modPage | split)

theorem keeps_countRatio {z0 : State} (s : State) (bs : List DeepBlk) (parts : List (List Byte)) (hK : Keeps z0 s) : Keeps
    z0 (countRatio s bs parts) := by
  unfold countRatio
  try dsimp only
  repeat' (first
    | intro _ | with_reducible assumption | simp only [↓keeps_fields, ↓kept_self] | with_reducible apply keeps_onMem
    | with_reducible apply keeps_foldl | with_reducible apply keeps_getD)

theorem keeps_writeDeep {z0 : State} {s : State} {i : Item} (hK : Keeps z0 s) {t_ : State} (e_ : writeDeep s i = some t_) :
    Keeps z0 t_ := by
  unfold writeDeep at e_
  try dsimp only at e_
  repeat' (first | cases e_ | split at e_ | (rw [Option.map_eq_some_iff] at e_; obtain ⟨a_, ha_, e_⟩ := e_) | (rw [Option.bind_eq_some_iff] at e_; obtain ⟨a_, ha_, e_⟩ := e_))
  all_goals repeat' (first
    | with_reducible assumption | with_reducible apply keeps_setDeep | with_reducible apply keeps_countRatio)

theorem keeps_demote {z0 : State} (s : State) (i : Item) (hK : Keeps z0 s) : Keeps z0 (demote s i) := by
  unfold demote
  try dsimp only
  repeat' (first
    | with_reducible assumption | with_reducible apply keeps_ite | simp only [↓keeps_fields, ↓kept_self]
    | with_reducible apply keeps_setItemSt | with_reducible apply keeps_onMem | split)

theorem keeps_takeItems {z0 : State} (s : State) (need : Nat) (a0_ : List Item) (hK : Keeps z0 s) : Keeps z0 (takeItems s
    need a0_).1 := by
  unfold takeItems
  try dsimp only
  repeat' (first
    | with_reducible assumption | with_reducible apply keeps_ite | simp only [↓keeps_fields, ↓kept_self]
    | with_reducible apply keeps_takeItems | exact keepsP_takeItems (by assumption) (by assumption)
    | with_reducible apply keeps_demote | with_reducible apply keeps_goCold | split)

theorem keepsP_takeItems {z0 : State} (s : State) (need : Nat) (a0_ : List Item) (hK : Keeps z0 s) {t_ : State} {y_} (e_ :
    takeItems s need a0_ = (t_, y_)) : Keeps z0 t_ := by
  have := keeps_takeItems (s := s) (need := need) (a0_ := a0_)  hK
  rw [e_] at this
  exact this

theorem keeps_takeCands {z0 : State} (s : State) (need : Nat) (a0_ : List Cand) (hK : Keeps z0 s) : Keeps z0 (takeCands s
    need a0_) := by
  induction a0_ generalizing s need with
  | nil =>
    unfold takeCands
    exact hK
  | cons a r ih =>
    unfold takeCands
    try dsimp only
    repeat' (first
      | with_reducible assumption
      | with_reducible apply ih | with_reducible apply keeps_ite | with_reducible apply keeps_takeItems
      | exact keepsP_takeItems (by assumption) (by assumption) | split)

theorem keeps_narrow {z0 : State} (s : State) (p : Nat) (hK : Keeps z0 s) : Keeps z0 (narrow s p) := by
  unfold narrow
  try dsimp only
  repeat' (first
    | intro _ | with_reducible assumption | with_reducible apply keeps_ite | simp only [↓keeps_fields, ↓kept_self]
    | with_reducible apply keeps_applySealFormat | with_reducible apply keeps_modSession
    | with_reducible apply keeps_nextFree | with_reducible apply keeps_foldl | split)

theorem keeps_evict {z0 : State} (s : State) (p need : Nat) (hK : Keeps z0 s) : Keeps z0 (evict s p need) := by
  unfold evict
  try dsimp only
  repeat' (first
    | with_reducible assumption | with_reducible apply keeps_ite | with_reducible apply keeps_takeCands
    | with_reducible apply keeps_narrow | split)

theorem keeps_promoFrames {z0 : State} {s : State} {i : Item} (hK : Keeps z0 s) {t_ : State} (e_ : promoFrames s i = some
    t_) : Keeps z0 t_ := by
  unfold promoFrames at e_
  try dsimp only at e_
  repeat' (first | cases e_ | split at e_ | (rw [Option.map_eq_some_iff] at e_; obtain ⟨a_, ha_, e_⟩ := e_) | (rw [Option.bind_eq_some_iff] at e_; obtain ⟨a_, ha_, e_⟩ := e_))
  all_goals repeat' (first
    | with_reducible assumption | simp only [↓keeps_fields, ↓kept_self]
    | refine keeps_allocFrames ?_ (by assumption) | with_reducible apply keeps_modPage | split)

theorem keeps_dispatchPromo {z0 : State} (s : State) (p : Nat) (x : Promo) (hK : Keeps z0 s) : Keeps z0 (dispatchPromo s p
    x) := by
  unfold dispatchPromo
  try dsimp only
  repeat' (first
    | with_reducible assumption | with_reducible apply keeps_ite | simp only [↓keeps_fields, ↓kept_self]
    | with_reducible apply keeps_evict | refine keeps_promoFrames ?_ (by assumption)
    | with_reducible apply keeps_onMem | with_reducible apply keeps_setItemSt | split)

theorem keeps_execPromotionDispatch {z0 : State} {part : Fin 9} {s : State} (hK : Keeps z0 s) : KeepsE z0
    (execPromotionDispatch part s) := by
  unfold execPromotionDispatch
  try dsimp only
  repeat' (first
    | intro _ | with_reducible assumption | with_reducible apply keepsE_next | with_reducible apply keeps_ite
    | with_reducible apply keepsE_ite | simp only [↓keeps_fields, ↓kept_self]
    | with_reducible apply keeps_dispatchPromo | split)

theorem keeps_writeObj {z0 : State} (s : State) (frames : List Nat) (o : Nat) (b : List Byte) (hK : Keeps z0 s) : Keeps z0
    (writeObj s frames o b) := by
  unfold writeObj
  try dsimp only
  repeat' (first
    | intro _ | with_reducible assumption | with_reducible apply keeps_ite | with_reducible apply keeps_writeMem
    | with_reducible apply keeps_foldl | split)

theorem keeps_landPromo {z0 : State} (s : State) (x : Promo) (d : DeepCopy) (hK : Keeps z0 s) : Keeps z0 (landPromo s x d) := by
  unfold landPromo
  try dsimp only
  repeat' (first
    | with_reducible assumption | with_reducible apply keeps_ite | simp only [↓keeps_fields, ↓kept_self]
    | with_reducible apply keeps_modObj | with_reducible apply keeps_writeObj | with_reducible apply keeps_syncPage
    | with_reducible apply keeps_modPage | with_reducible apply keeps_writeMem | with_reducible apply keeps_onMem
    | with_reducible apply keeps_poolEv | split)

theorem keeps_faultWaiter {z0 : State} (s : State) (n : Nat) (hK : Keeps z0 s) : Keeps z0 (faultWaiter s n) := by
  unfold faultWaiter
  try dsimp only
  repeat' (first
    | with_reducible assumption | with_reducible apply keeps_ite | simp only [↓keeps_fields, ↓kept_self]
    | with_reducible apply keeps_faultEntry | refine keeps_completeKmap ?_ (by assumption)
    | with_reducible apply keeps_faultCmd | with_reducible apply keeps_onCore | split)

theorem keeps_failItem {z0 : State} (s : State) (i : Item) (v : Bool) (hK : Keeps z0 s) : Keeps z0 (failItem s i v) := by
  unfold failItem
  try dsimp only
  repeat' (first
    | with_reducible assumption | simp only [↓keeps_fields, ↓kept_self] | with_reducible apply keeps_modObj
    | with_reducible apply keeps_modPage | split)

theorem keeps_rebuildItem {z0 : State} (s : State) (x : Promo) (d : DeepCopy) (hK : Keeps z0 s) : Keeps z0 (rebuildItem s x
    d) := by
  unfold rebuildItem
  try dsimp only
  repeat' (first
    | intro _ | with_reducible assumption | with_reducible apply keeps_ite | simp only [↓keeps_fields, ↓kept_self]
    | with_reducible apply keeps_promote | with_reducible apply keeps_setDeep | with_reducible apply keeps_modObj
    | with_reducible apply keeps_countRatio | with_reducible apply keeps_modPage
    | with_reducible apply keeps_rollbackTo | with_reducible apply keeps_elim | with_reducible exact fuses_rollback
    | split)

theorem keeps_failPromo {z0 : State} (s : State) (x : Promo) (d : DeepCopy) (bad : List DeepRead) (hK : Keeps z0 s) : Keeps
    z0 (failPromo s x d bad) := by
  unfold failPromo
  try dsimp only
  repeat' (first
    | intro _ | with_reducible assumption | simp only [↓keeps_fields, ↓kept_self]
    | with_reducible apply keeps_logAppend | with_reducible apply keeps_onMem | with_reducible apply keeps_failItem
    | with_reducible apply keeps_rebuildItem | with_reducible apply keeps_faultWaiter
    | with_reducible apply keeps_foldl | with_reducible apply keeps_elim | split)

theorem keeps_countReads {z0 : State} (s : State) (l : List DeepRead) (hK : Keeps z0 s) : Keeps z0 (countReads s l) := by
  unfold countReads
  try dsimp only
  repeat' (first
    | intro _ | with_reducible assumption | with_reducible apply keeps_ite | simp only [↓keeps_fields, ↓kept_self]
    | with_reducible apply keeps_onMem | with_reducible apply keeps_foldl | split)

theorem keeps_relocate {z0 : State} (s : State) (i : Item) (k : Nat) (hK : Keeps z0 s) : Keeps z0 (relocate s i k) := by
  unfold relocate
  try dsimp only
  repeat' (first
    | intro _ | with_reducible assumption | simp only [↓keeps_fields, ↓kept_self]
    | with_reducible apply keeps_setDeep | with_reducible apply keeps_getD | split)

theorem keeps_execPromotionComplete {z0 : State} {item : Item} {reads : List DeepRead} {s : State} (hK : Keeps z0 s) :
    KeepsE z0 (execPromotionComplete item reads s) := by
  unfold execPromotionComplete
  try dsimp only
  repeat' (first
    | intro _ | with_reducible assumption | with_reducible apply keepsE_next | with_reducible apply keeps_ite
    | with_reducible apply keepsE_ite | simp only [↓keeps_fields, ↓kept_self]
    | with_reducible apply keeps_countReads | with_reducible apply keeps_relocate
    | with_reducible apply keeps_landPromo | with_reducible apply keeps_failPromo | with_reducible apply keeps_foldl
    | split)

theorem keeps_execDemotionComplete {z0 : State} {item : Item} {s : State} (hK : Keeps z0 s) : KeepsE z0
    (execDemotionComplete item s) := by
  unfold execDemotionComplete
  try dsimp only
  repeat' (first
    | intro _ | with_reducible assumption | with_reducible apply keepsE_next | with_reducible apply keeps_ite
    | with_reducible apply keepsE_ite | simp only [↓keeps_fields, ↓kept_self] | with_reducible apply keeps_modObj
    | with_reducible apply keeps_syncPage | with_reducible apply keeps_modPage | with_reducible apply keeps_poolEv
    | with_reducible apply keeps_onMem | with_reducible apply keeps_elim | split)

theorem keeps_execDeepCopyWriteComplete {s0 : State} {item : Item} {s : State} (hK : Keeps s0 s) :
    KeepsE s0 (execDeepCopyWriteComplete item s) := by
  unfold execDeepCopyWriteComplete
  refine keepsE_next ?_
  split
  · exact hK
  · have h1 : Keeps s0 (onMem s fun m => { m with deepWrites := m.deepWrites.erase item }) := keeps_onMem _ _ hK
    generalize (onMem s fun m => { m with deepWrites := m.deepWrites.erase item }) = s1 at h1
    dsimp only
    split
    · rename_i t e
      split at e
      · cases e
      · exact keeps_writeDeep h1 e
    · split
      · exact keeps_setItemSt _ _ _ h1
      · exact h1

theorem keeps_otuFill {z0 : State} (s : State) (n key : Nat) (hK : Keeps z0 s) : Keeps z0 (otuFill s n key) := by
  unfold otuFill
  try dsimp only
  repeat' (first
    | with_reducible assumption | with_reducible apply keeps_ite | simp only [↓keeps_fields, ↓kept_self]
    | with_reducible apply keeps_onMem | with_reducible apply keeps_modObj | with_reducible apply keeps_setCore
    | with_reducible apply keeps_promote | split)

theorem keeps_execOtuFill {z0 : State} {core : Fin 32} {obj : Fin 65536} {s : State} (hK : Keeps z0 s) : KeepsE z0
    (execOtuFill core obj s) := by
  unfold execOtuFill
  try dsimp only
  repeat' (first
    | intro _ | with_reducible assumption | with_reducible apply keepsE_next | with_reducible apply keeps_ite
    | with_reducible apply keepsE_ite | simp only [↓keeps_fields, ↓kept_self] | with_reducible apply keeps_otuFill
    | split)

theorem keeps_deleteObj {z0 : State} (s : State) (p n : Nat) (hK : Keeps z0 s) : Keeps z0 (deleteObj s p n) := by
  unfold deleteObj
  try dsimp only
  repeat' (first
    | with_reducible assumption | simp only [↓keeps_fields, ↓kept_self] | with_reducible apply keeps_onMem)

theorem keeps_execObjectDelete {z0 : State} {part : Fin 9} {obj : Fin 65536} {s : State} (hK : Keeps z0 s) : KeepsE z0
    (execObjectDelete part obj s) := by
  unfold execObjectDelete
  try dsimp only
  repeat' (first
    | intro _ | with_reducible assumption | with_reducible apply keepsE_next | with_reducible apply keeps_ite
    | with_reducible apply keepsE_ite | simp only [↓keeps_fields, ↓kept_self] | with_reducible apply keeps_deleteObj
    | split)

theorem keeps_execPageWalkerPromote {z0 : State} {session : Fin 65536} {s : State} (hK : Keeps z0 s) : KeepsE z0
    (execPageWalkerPromote session s) := by
  unfold execPageWalkerPromote
  try dsimp only
  repeat' (first
    | intro _ | with_reducible assumption | with_reducible apply keepsE_next | with_reducible apply keeps_ite
    | with_reducible apply keepsE_ite | simp only [↓keeps_fields, ↓kept_self] | with_reducible apply keeps_nextFree
    | with_reducible apply keeps_promote | with_reducible apply keeps_modPage | split)

theorem keeps_otcInvalidate {z0 : State} (s : State) (hK : Keeps z0 s) : Keeps z0 (otcInvalidate s) := by
  unfold otcInvalidate
  try dsimp only
  repeat' (first
    | with_reducible assumption | with_reducible apply keeps_ite | simp only [↓keeps_fields, ↓kept_self] | split)

theorem keeps_execOtcInvalidate {z0 : State} {by_ : Req} {s : State} (hK : Keeps z0 s) : KeepsE z0 (execOtcInvalidate by_ s) := by
  unfold execOtcInvalidate
  try dsimp only
  repeat' (first
    | intro _ | with_reducible assumption | with_reducible apply keepsE_next | with_reducible apply keeps_mayWrite
    | with_reducible apply keeps_otcInvalidate)

theorem keeps_execPromoPause {z0 : State} {by_ : Req} {v : Bool} {s : State} (hK : Keeps z0 s) : KeepsE z0 (execPromoPause
    by_ v s) := by
  unfold execPromoPause
  try dsimp only
  repeat' (first
    | intro _ | with_reducible assumption | with_reducible apply keepsE_next | simp only [↓keeps_fields, ↓kept_self]
    | with_reducible apply keeps_mayWrite | with_reducible apply keeps_onMem)

end Sys2Proof.Machine
end

