-- ==== Sys2Proof/Laws/KeepsImage.lean ====
section
/-! SUPPORT. Sys2Proof/Laws/KeepsImage.lean: each operation of Machine/Image.lean keeps what `Keeps` says. -/

namespace Sys2Proof.Machine

set_option simprocs false
set_option linter.all false

theorem keeps_createObj {z0 : State} (s : State) (p n size model : Nat) (fixed : Bool) (hK : Keeps z0 s) : Keeps z0
    (createObj s p n size model fixed) := by
  unfold createObj
  try dsimp only
  repeat' (first
    | intro _ | with_reducible assumption | simp only [↓keeps_fields, ↓kept_self]
    | refine keeps_allocFrames ?_ (by assumption) | with_reducible apply keeps_getD)

theorem keeps_uncreateObj {z0 : State} (s : State) (p n : Nat) (hK : Keeps z0 s) : Keeps z0 (uncreateObj s p n) := by
  unfold uncreateObj
  try dsimp only
  repeat' (first
    | with_reducible assumption | simp only [↓keeps_fields, ↓kept_self])

theorem keeps_landObj {s0 : State} (s : State) (p n : Nat) (bytes : List Byte) (hK : Keeps s0 s) :
    Keeps s0 (landObj s p n bytes) := by
  unfold landObj
  split
  · exact hK
  · rename_i o _
    have h1 : Keeps s0 (if o.frames.length < framesFor o.size then
        (allocFrames (modObj s (objKey p n) fun o => { o with frames := [] }) p n 0 (framesFor o.size)).getD s
      else s) := by
      split
      · exact keeps_getD (fun _ e => keeps_allocFrames (keeps_modObj _ _ _ hK) e) hK
      · exact hK
    generalize (if o.frames.length < framesFor o.size then
        (allocFrames (modObj s (objKey p n) fun o => { o with frames := [] }) p n 0 (framesFor o.size)).getD s
      else s) = s1 at h1
    dsimp only
    repeat' (first
      | with_reducible assumption
      | with_reducible apply keeps_ite
      | simp only [↓keeps_fields, ↓kept_self]
      | with_reducible apply keeps_modObj
      | with_reducible apply keeps_writeMem
      | with_reducible apply keeps_foldl
      | with_reducible apply keeps_countRatio
      | with_reducible apply keeps_writeObj
      | intro _
      | split)

theorem keeps_landObjs {s0 : State} (p : Nat) : ∀ (l : List Nat) (bs : List (List Byte)) (s : State), Keeps s0 s →
    Keeps s0 (landObjs s p l bs)
  | [], _, s, h => by
    unfold landObjs
    exact h
  | _ :: _, [], s, h => by
    unfold landObjs
    exact h
  | n :: r, b :: c, s, h => by
    unfold landObjs
    exact keeps_landObjs p r c _ (keeps_landObj _ _ _ _ h)

theorem keeps_placePrograms {s0 : State} {l : List (Nat × List Byte)} : ∀ (s : State) (a : Nat), Keeps s0 s →
    Keeps s0 (placePrograms s a l).1 := by
  induction l with
  | nil =>
    intro s a h
    unfold placePrograms
    exact h
  | cons x r ih =>
    intro s a h
    unfold placePrograms
    exact ih _ _ (keeps_writeMem _ _ _ h)

theorem keepsP_placePrograms {s0 : State} {l : List (Nat × List Byte)} {s : State} {a : Nat} (hK : Keeps s0 s) {t_ : State} {y_}
    (e_ : placePrograms s a l = (t_, y_)) : Keeps s0 t_ := by
  have := keeps_placePrograms (l := l) s a hK
  rw [e_] at this
  exact this

theorem keeps_placeStripes {z0 : State} {s : State} {p k : Nat} {a0_ : List Nat} (hK : Keeps z0 s) {t_ : State} {y_} (e_ :
    placeStripes s p k a0_ = some (t_, y_)) : Keeps z0 t_ := by
  induction a0_ generalizing s p k t_ y_ with
  | nil =>
    unfold placeStripes at e_
    cases e_
    first | exact hK | done
  | cons a r ih =>
    unfold placeStripes at e_
    try dsimp only at e_
    repeat' (first | cases e_ | split at e_ | (rw [Option.map_eq_some_iff] at e_; obtain ⟨a_, ha_, e_⟩ := e_) | (rw [Option.bind_eq_some_iff] at e_; obtain ⟨a_, ha_, e_⟩ := e_))
    all_goals repeat' (first
      | intro _ | with_reducible assumption | simp only [↓keeps_fields, ↓kept_self]
      | with_reducible apply keeps_fixFrame | with_reducible apply keeps_foldl | (apply ih (e_ := by assumption))
      | split)

theorem keeps_placeModel {z0 : State} {s : State} {m : Model} {info : ImageInfo} (hK : Keeps z0 s) {t_ : State} {y_} (e_ :
    placeModel s m info = some (t_, y_)) : Keeps z0 t_ := by
  unfold placeModel at e_
  try dsimp only at e_
  repeat' (first | cases e_ | split at e_ | (rw [Option.map_eq_some_iff] at e_; obtain ⟨a_, ha_, e_⟩ := e_) | (rw [Option.bind_eq_some_iff] at e_; obtain ⟨a_, ha_, e_⟩ := e_))
  all_goals repeat' (first
    | with_reducible assumption | with_reducible apply keeps_ite | simp only [↓keeps_fields, ↓kept_self]
    | refine keeps_allocRun ?_ (by assumption) | with_reducible apply keeps_placePrograms
    | exact keepsP_placePrograms (by assumption) (by assumption) | refine keeps_allocFixed ?_ (by assumption)
    | refine keeps_placeStripes ?_ (by assumption) | split)

theorem keeps_loadImage {s0 : State} {s : State} {part num : Nat} {args head area : List Byte} {objs : List Nat} (hK : Keeps s0 s)
    {t : State} {m : Model} (e_ : loadImage s part num args head area objs = .loaded t m) : Keeps s0 t := by
  unfold loadImage at e_
  dsimp only at e_
  repeat' (first | cases e_ | split at e_)
  rename_i s1 m1 e1
  exact keeps_extend _ _ _ (keeps_landObjs _ _ _ _ (keeps_onK _ _ (keeps_placeModel hK e1)))

theorem keeps_openObjs {z0 : State} (s : State) (part num : Nat) (head : List Byte) (fixed : Bool) (hK : Keeps z0 s) : Keeps
    z0 (openObjs s part num head fixed).1 := by
  unfold openObjs
  try dsimp only
  repeat' (first
    | intro _ | with_reducible assumption | with_reducible apply keeps_createObj | with_reducible apply keeps_foldl)

theorem keepsP_openObjs {z0 : State} (s : State) (part num : Nat) (head : List Byte) (fixed : Bool) (hK : Keeps z0 s) {t_ :
    State} {y_} (e_ : openObjs s part num head fixed = (t_, y_)) : Keeps z0 t_ := by
  have := keeps_openObjs (s := s) (part := part) (num := num) (head := head) (fixed := fixed)  hK
  rw [e_] at this
  exact this

end Sys2Proof.Machine
end

