-- ==== Sys2Proof/Laws/KeepsPcie.lean ====
section
/-! SUPPORT. Sys2Proof/Laws/KeepsPcie.lean: each operation of Machine/Pcie.lean keeps what `Keeps` says. -/

namespace Sys2Proof.Machine

set_option simprocs false
set_option linter.all false

theorem keeps_onPcie {z0 : State} (s : State) (f : Pcie → Pcie) (hK : Keeps z0 s) : Keeps z0 (onPcie s f) := by
  unfold onPcie
  try dsimp only
  repeat' (first
    | with_reducible assumption | simp only [↓keeps_fields, ↓kept_self])

theorem keeps_execPcieCfgRead {z0 : State} {by_ : Req} {s : State} (hK : Keeps z0 s) : KeepsE z0 (execPcieCfgRead by_ s) := by
  unfold execPcieCfgRead
  try dsimp only
  repeat' (first
    | intro _ | with_reducible assumption | with_reducible apply keepsE_next | with_reducible apply keeps_ite
    | with_reducible apply keepsE_ite | with_reducible apply keeps_busData | with_reducible apply keeps_nextFree
    | with_reducible apply keeps_busError | split)

theorem keeps_cfgWrite {z0 : State} (s : State) (v : Word) (hK : Keeps z0 s) : Keeps z0 (cfgWrite s v) := by
  unfold cfgWrite
  try dsimp only
  repeat' (first
    | with_reducible assumption | with_reducible apply keeps_ite | simp only [↓keeps_fields, ↓kept_self]
    | with_reducible apply keeps_onPcie | split)

theorem keeps_execPcieCfgWrite {z0 : State} {by_ : Req} {v : Word} {s : State} (hK : Keeps z0 s) : KeepsE z0
    (execPcieCfgWrite by_ v s) := by
  unfold execPcieCfgWrite
  try dsimp only
  repeat' (first
    | intro _ | with_reducible assumption | with_reducible apply keepsE_next | with_reducible apply keeps_mayWrite
    | with_reducible apply keeps_cfgWrite)

theorem keeps_linkDown {z0 : State} (s : State) (hK : Keeps z0 s) : Keeps z0 (linkDown s) := by
  unfold linkDown
  try dsimp only
  repeat' (first
    | with_reducible assumption | simp only [↓keeps_fields, ↓kept_self] | with_reducible apply keeps_nextFree
    | with_reducible apply keeps_onPcie | with_reducible apply keeps_linkUp)

theorem keeps_pcieRetrain {z0 : State} (s : State) (hK : Keeps z0 s) : Keeps z0 (pcieRetrain s) := by
  unfold pcieRetrain
  try dsimp only
  repeat' (first
    | with_reducible assumption | with_reducible apply keeps_ite | simp only [↓keeps_fields, ↓kept_self]
    | with_reducible apply keeps_nextFree | with_reducible apply keeps_onPcie | split)

theorem keeps_execPcieRetrain {z0 : State} {by_ : Req} {s : State} (hK : Keeps z0 s) : KeepsE z0 (execPcieRetrain by_ s) := by
  unfold execPcieRetrain
  try dsimp only
  repeat' (first
    | intro _ | with_reducible assumption | with_reducible apply keepsE_next | with_reducible apply keeps_mayWrite
    | with_reducible apply keeps_pcieRetrain)

theorem keeps_pciePerst {z0 : State} (s : State) (v : Bool) (hK : Keeps z0 s) : Keeps z0 (pciePerst s v) := by
  unfold pciePerst
  try dsimp only
  repeat' (first
    | with_reducible assumption | with_reducible apply keeps_ite | simp only [↓keeps_fields, ↓kept_self]
    | with_reducible apply keeps_onPcie | with_reducible apply keeps_linkDown | split)

theorem keeps_execPciePerst {z0 : State} {by_ : Req} {v : Bool} {s : State} (hK : Keeps z0 s) : KeepsE z0 (execPciePerst by_
    v s) := by
  unfold execPciePerst
  try dsimp only
  repeat' (first
    | intro _ | with_reducible assumption | with_reducible apply keepsE_next | with_reducible apply keeps_mayWrite
    | with_reducible apply keeps_pciePerst)

theorem keeps_pcieEnable {z0 : State} (s : State) (v : Bool) (hK : Keeps z0 s) : Keeps z0 (pcieEnable s v) := by
  unfold pcieEnable
  try dsimp only
  repeat' (first
    | with_reducible assumption | with_reducible apply keeps_ite | simp only [↓keeps_fields, ↓kept_self]
    | with_reducible apply keeps_onPcie | with_reducible apply keeps_linkDown | split)

theorem keeps_execPcieEnable {z0 : State} {by_ : Req} {v : Bool} {s : State} (hK : Keeps z0 s) : KeepsE z0 (execPcieEnable
    by_ v s) := by
  unfold execPcieEnable
  try dsimp only
  repeat' (first
    | intro _ | with_reducible assumption | with_reducible apply keepsE_next | with_reducible apply keeps_mayWrite
    | with_reducible apply keeps_pcieEnable)

theorem keeps_execPcieMsixArrival {z0 : State} {vector : Fin 32} {s : State} (hK : Keeps z0 s) : KeepsE z0
    (execPcieMsixArrival vector s) := by
  unfold execPcieMsixArrival
  try dsimp only
  repeat' (first
    | intro _ | with_reducible assumption | with_reducible apply keepsE_next | simp only [↓keeps_fields, ↓kept_self]
    | with_reducible apply keeps_onPcie | split)

theorem keeps_execPcieInboundRequest {z0 : State} {addr : BitVec 64} {len : Fin 4097} {wr : Option (List Byte)} {s : State}
    (hK : Keeps z0 s) : KeepsE z0 (execPcieInboundRequest addr len wr s) := by
  unfold execPcieInboundRequest
  try dsimp only
  repeat' (first
    | intro _ | with_reducible assumption | with_reducible apply keepsE_next | with_reducible apply keeps_ite
    | with_reducible apply keepsE_ite | simp only [↓keeps_fields, ↓kept_self] | with_reducible apply keeps_writeMem
    | with_reducible apply keeps_onPcie | split)

theorem keeps_execPcieLinkChange {z0 : State} {up : Bool} {speed : Fin 4} {width : Fin 3} {s : State} (hK : Keeps z0 s) :
    KeepsE z0 (execPcieLinkChange up speed width s) := by
  unfold execPcieLinkChange
  try dsimp only
  repeat' (first
    | intro _ | with_reducible assumption | with_reducible apply keepsE_next | with_reducible apply keeps_ite
    | with_reducible apply keepsE_ite | simp only [↓keeps_fields, ↓kept_self] | with_reducible apply keeps_nextFree
    | with_reducible apply keeps_onPcie | with_reducible apply keeps_linkUp | with_reducible apply keeps_linkDown
    | split)

end Sys2Proof.Machine
end

