-- ==== Sys2Proof/Laws/KeepsStore.lean ====
section
/-! SUPPORT. Sys2Proof/Laws/KeepsStore.lean: each operation of Machine/Store.lean keeps what `Keeps` says. -/

namespace Sys2Proof.Machine

set_option simprocs false
set_option linter.all false

theorem keeps_onDisk {z0 : State} (s : State) (f : Store → Store) (hK : Keeps z0 s) : Keeps z0 (onDisk s f) := by
  unfold onDisk
  try dsimp only
  repeat' (first
    | with_reducible assumption | simp only [↓keeps_fields, ↓kept_self] | with_reducible apply keeps_onPcie)

theorem keeps_newEntry {z0 : State} {s : State} {e : DirEntry} {bytes : List Byte} (hK : Keeps z0 s) {t_ : State} {y_} (e_ :
    newEntry s e bytes = some (t_, y_)) : Keeps z0 t_ := by
  unfold newEntry at e_
  try dsimp only at e_
  repeat' (first | cases e_ | split at e_ | (rw [Option.map_eq_some_iff] at e_; obtain ⟨a_, ha_, e_⟩ := e_) | (rw [Option.bind_eq_some_iff] at e_; obtain ⟨a_, ha_, e_⟩ := e_))
  all_goals repeat' (first
    | with_reducible assumption | simp only [↓keeps_fields, ↓kept_self] | with_reducible apply keeps_onDisk | split)

theorem keeps_freeEntry {z0 : State} (s : State) (k : Nat) (hK : Keeps z0 s) : Keeps z0 (freeEntry s k) := by
  unfold freeEntry
  try dsimp only
  repeat' (first
    | with_reducible assumption | simp only [↓keeps_fields, ↓kept_self] | with_reducible apply keeps_onDisk)

theorem keeps_retireEntry {z0 : State} (s : State) (k : Nat) (hK : Keeps z0 s) : Keeps z0 (retireEntry s k) := by
  unfold retireEntry
  try dsimp only
  repeat' (first
    | with_reducible assumption | with_reducible apply keeps_ite | simp only [↓keeps_fields, ↓kept_self]
    | with_reducible apply keeps_onDisk | with_reducible apply keeps_freeEntry | with_reducible apply keeps_complete
    | split)

theorem keeps_sweepEntries {z0 : State} (s : State) (hK : Keeps z0 s) : Keeps z0 (sweepEntries s) := by
  unfold sweepEntries
  try dsimp only
  repeat' (first
    | intro _ | with_reducible assumption | with_reducible apply keeps_ite | with_reducible apply keeps_retireEntry
    | with_reducible apply keeps_foldl | split)

theorem keeps_startNvme {z0 : State} (s : State) (h entry : Nat) (write : Bool) (hK : Keeps z0 s) : Keeps z0 (startNvme s h
    entry write) := by
  unfold startNvme
  try dsimp only
  repeat' (first
    | with_reducible assumption | simp only [↓keeps_fields, ↓kept_self] | with_reducible apply keeps_onDisk
    | assumption)

theorem keeps_execStoreDelete {z0 : State} {rq : Request} {s : State} (hK : Keeps z0 s) : KeepsE z0 (execStoreDelete rq s) := by
  unfold execStoreDelete
  try dsimp only
  repeat' (first
    | intro _ | with_reducible assumption | with_reducible apply keepsE_next | with_reducible apply keeps_ite
    | with_reducible apply keepsE_ite | simp only [↓keeps_fields, ↓kept_self] | with_reducible apply keeps_onRequest
    | with_reducible apply keeps_complete | with_reducible apply keeps_retireEntry
    | with_reducible apply keeps_onDisk | split)

theorem keeps_execStoreList {z0 : State} {rq : Request} {s : State} (hK : Keeps z0 s) : KeepsE z0 (execStoreList rq s) := by
  unfold execStoreList
  try dsimp only
  repeat' (first
    | intro _ | with_reducible assumption | with_reducible apply keepsE_next | with_reducible apply keeps_ite
    | with_reducible apply keepsE_ite | with_reducible apply keeps_onRequest | with_reducible apply keeps_complete
    | with_reducible apply keeps_keepOuts | split)

theorem keeps_execStoreFormat {z0 : State} {rq : Request} {s : State} (hK : Keeps z0 s) : KeepsE z0 (execStoreFormat rq s) := by
  unfold execStoreFormat
  try dsimp only
  repeat' (first
    | intro _ | with_reducible assumption | with_reducible apply keepsE_next | with_reducible apply keeps_ite
    | with_reducible apply keepsE_ite | simp only [↓keeps_fields, ↓kept_self] | with_reducible apply keeps_onRequest
    | with_reducible apply keeps_complete | with_reducible apply keeps_onDisk | split)

end Sys2Proof.Machine
end

