-- ==== Sys2Proof/Laws/KeepsScalar.lean ====
section
/-! SUPPORT. Sys2Proof/Laws/KeepsScalar.lean: each operation of Machine/Scalar.lean keeps what `Keeps` says. -/

namespace Sys2Proof.Machine

set_option simprocs false
set_option linter.all false

theorem keeps_issue {z0 : State} (s0 : State) (n : Nat) (w : BitVec 64) (run : State → State) (skip : State → State) (h_run
    : ∀ (x0_ : State), Keeps z0 x0_ → Keeps z0 (run x0_)) (h_skip : ∀ (x0_ : State), Keeps z0 x0_ → Keeps z0 (skip x0_)) (hK
    : Keeps z0 s0) : Keeps z0 (issue s0 n w run skip) := by
  unfold issue
  try dsimp only
  repeat' (first
    | intro _ | with_reducible assumption | with_reducible apply h_run | with_reducible apply h_skip
    | with_reducible apply keeps_ite | with_reducible apply keeps_setCore | with_reducible apply keeps_faultCmd
    | split)

theorem keeps_kunerRow {z0 : State} {code : Nat} {core : Fin 32} {w : BitVec 64} {s : State} {run skip : State → State}
    (h_run : ∀ (x0_ : State), Keeps z0 x0_ → Keeps z0 (run x0_)) (h_skip : ∀ (x0_ : State), Keeps z0 x0_ → Keeps z0 (skip
    x0_)) (hK : Keeps z0 s) : KeepsE z0 (kunerRow code core w s run skip) := by
  unfold kunerRow
  try dsimp only
  repeat' (first
    | intro _ | with_reducible assumption | with_reducible apply h_run | with_reducible apply h_skip
    | with_reducible apply keepsE_next | with_reducible exact keepsE_refused | with_reducible apply keeps_ite
    | with_reducible apply keepsE_ite | simp only [↓keeps_fields, ↓kept_self] | with_reducible apply keeps_issue
    | split)

theorem keeps_kuner {z0 : State} {code : Nat} {core : Fin 32} {w : BitVec 64} {s : State} {run : State → State} (h_run : ∀
    (x0_ : State), Keeps z0 x0_ → Keeps z0 (run x0_)) (hK : Keeps z0 s) : KeepsE z0 (kuner code core w s run) := by
  unfold kuner
  try dsimp only
  repeat' (first
    | intro _ | with_reducible assumption | with_reducible apply h_run | with_reducible apply keepsE_next
    | with_reducible apply keeps_kunerRow | with_reducible apply keeps_onCore)

theorem keeps_alu {z0 : State} {code : Nat} {f : Word → Word → Word} {core : Fin 32} {w : BitVec 64} {s : State} (hK : Keeps
    z0 s) : KeepsE z0 (alu code f core w s) := by
  unfold alu
  try dsimp only
  repeat' (first
    | intro _ | with_reducible assumption | with_reducible apply keepsE_next | with_reducible apply keeps_kuner
    | with_reducible apply keeps_onCore)

theorem keeps_execAdd {z0 : State} {core : Fin 32} {w : BitVec 64} {s : State} (hK : Keeps z0 s) : KeepsE z0 (execAdd core w
    s) := by
  unfold execAdd
  try dsimp only
  repeat' (first
    | intro _ | with_reducible assumption | with_reducible apply keepsE_next | with_reducible apply keeps_alu)

theorem keeps_execSub {z0 : State} {core : Fin 32} {w : BitVec 64} {s : State} (hK : Keeps z0 s) : KeepsE z0 (execSub core w
    s) := by
  unfold execSub
  try dsimp only
  repeat' (first
    | intro _ | with_reducible assumption | with_reducible apply keepsE_next | with_reducible apply keeps_alu)

theorem keeps_execAnd {z0 : State} {core : Fin 32} {w : BitVec 64} {s : State} (hK : Keeps z0 s) : KeepsE z0 (execAnd core w
    s) := by
  unfold execAnd
  try dsimp only
  repeat' (first
    | intro _ | with_reducible assumption | with_reducible apply keepsE_next | with_reducible apply keeps_alu)

theorem keeps_execOr {z0 : State} {core : Fin 32} {w : BitVec 64} {s : State} (hK : Keeps z0 s) : KeepsE z0 (execOr core w
    s) := by
  unfold execOr
  try dsimp only
  repeat' (first
    | intro _ | with_reducible assumption | with_reducible apply keepsE_next | with_reducible apply keeps_alu
    | split)

theorem keeps_execXor {z0 : State} {core : Fin 32} {w : BitVec 64} {s : State} (hK : Keeps z0 s) : KeepsE z0 (execXor core w
    s) := by
  unfold execXor
  try dsimp only
  repeat' (first
    | intro _ | with_reducible assumption | with_reducible apply keepsE_next | with_reducible apply keeps_alu)

theorem keeps_execSll {z0 : State} {core : Fin 32} {w : BitVec 64} {s : State} (hK : Keeps z0 s) : KeepsE z0 (execSll core w
    s) := by
  unfold execSll
  try dsimp only
  repeat' (first
    | intro _ | with_reducible assumption | with_reducible apply keepsE_next | with_reducible apply keeps_alu)

theorem keeps_execSrl {z0 : State} {core : Fin 32} {w : BitVec 64} {s : State} (hK : Keeps z0 s) : KeepsE z0 (execSrl core w
    s) := by
  unfold execSrl
  try dsimp only
  repeat' (first
    | intro _ | with_reducible assumption | with_reducible apply keepsE_next | with_reducible apply keeps_alu)

theorem keeps_execSra {z0 : State} {core : Fin 32} {w : BitVec 64} {s : State} (hK : Keeps z0 s) : KeepsE z0 (execSra core w
    s) := by
  unfold execSra
  try dsimp only
  repeat' (first
    | intro _ | with_reducible assumption | with_reducible apply keepsE_next | with_reducible apply keeps_alu)

theorem keeps_execMul {z0 : State} {core : Fin 32} {w : BitVec 64} {s : State} (hK : Keeps z0 s) : KeepsE z0 (execMul core w
    s) := by
  unfold execMul
  try dsimp only
  repeat' (first
    | intro _ | with_reducible assumption | with_reducible apply keepsE_next | with_reducible apply keeps_alu)

theorem keeps_execMulh {z0 : State} {core : Fin 32} {w : BitVec 64} {s : State} (hK : Keeps z0 s) : KeepsE z0 (execMulh core
    w s) := by
  unfold execMulh
  try dsimp only
  repeat' (first
    | intro _ | with_reducible assumption | with_reducible apply keepsE_next | with_reducible apply keeps_alu)

theorem keeps_execMulhu {z0 : State} {core : Fin 32} {w : BitVec 64} {s : State} (hK : Keeps z0 s) : KeepsE z0 (execMulhu
    core w s) := by
  unfold execMulhu
  try dsimp only
  repeat' (first
    | intro _ | with_reducible assumption | with_reducible apply keepsE_next | with_reducible apply keeps_alu)

theorem keeps_execMin {z0 : State} {core : Fin 32} {w : BitVec 64} {s : State} (hK : Keeps z0 s) : KeepsE z0 (execMin core w
    s) := by
  unfold execMin
  try dsimp only
  repeat' (first
    | intro _ | with_reducible assumption | with_reducible apply keepsE_next | with_reducible apply keeps_ite
    | with_reducible apply keepsE_ite | with_reducible apply keeps_alu | split)

theorem keeps_execMax {z0 : State} {core : Fin 32} {w : BitVec 64} {s : State} (hK : Keeps z0 s) : KeepsE z0 (execMax core w
    s) := by
  unfold execMax
  try dsimp only
  repeat' (first
    | intro _ | with_reducible assumption | with_reducible apply keepsE_next | with_reducible apply keeps_ite
    | with_reducible apply keepsE_ite | with_reducible apply keeps_alu | split)

theorem keeps_execMinu {z0 : State} {core : Fin 32} {w : BitVec 64} {s : State} (hK : Keeps z0 s) : KeepsE z0 (execMinu core
    w s) := by
  unfold execMinu
  try dsimp only
  repeat' (first
    | intro _ | with_reducible assumption | with_reducible apply keepsE_next | with_reducible apply keeps_ite
    | with_reducible apply keepsE_ite | with_reducible apply keeps_alu | split)

theorem keeps_execMaxu {z0 : State} {core : Fin 32} {w : BitVec 64} {s : State} (hK : Keeps z0 s) : KeepsE z0 (execMaxu core
    w s) := by
  unfold execMaxu
  try dsimp only
  repeat' (first
    | intro _ | with_reducible assumption | with_reducible apply keepsE_next | with_reducible apply keeps_ite
    | with_reducible apply keepsE_ite | with_reducible apply keeps_alu | split)

theorem keeps_cmp {z0 : State} {k : Nat} {f : Word → Word → Bool} {core : Fin 32} {w : BitVec 64} {s : State} (hK : Keeps z0
    s) : KeepsE z0 (cmp k f core w s) := by
  unfold cmp
  try dsimp only
  repeat' (first
    | intro _ | with_reducible assumption | with_reducible apply keepsE_next | with_reducible apply keeps_kuner
    | with_reducible apply keeps_onCore)

theorem keeps_execCmpEq {z0 : State} {core : Fin 32} {w : BitVec 64} {s : State} (hK : Keeps z0 s) : KeepsE z0 (execCmpEq
    core w s) := by
  unfold execCmpEq
  try dsimp only
  repeat' (first
    | intro _ | with_reducible assumption | with_reducible apply keepsE_next | with_reducible apply keeps_cmp)

theorem keeps_execCmpNe {z0 : State} {core : Fin 32} {w : BitVec 64} {s : State} (hK : Keeps z0 s) : KeepsE z0 (execCmpNe
    core w s) := by
  unfold execCmpNe
  try dsimp only
  repeat' (first
    | intro _ | with_reducible assumption | with_reducible apply keepsE_next | with_reducible apply keeps_cmp)

theorem keeps_execCmpLt {z0 : State} {core : Fin 32} {w : BitVec 64} {s : State} (hK : Keeps z0 s) : KeepsE z0 (execCmpLt
    core w s) := by
  unfold execCmpLt
  try dsimp only
  repeat' (first
    | intro _ | with_reducible assumption | with_reducible apply keepsE_next | with_reducible apply keeps_cmp)

theorem keeps_execCmpGe {z0 : State} {core : Fin 32} {w : BitVec 64} {s : State} (hK : Keeps z0 s) : KeepsE z0 (execCmpGe
    core w s) := by
  unfold execCmpGe
  try dsimp only
  repeat' (first
    | intro _ | with_reducible assumption | with_reducible apply keepsE_next | with_reducible apply keeps_cmp)

theorem keeps_execCmpLtu {z0 : State} {core : Fin 32} {w : BitVec 64} {s : State} (hK : Keeps z0 s) : KeepsE z0 (execCmpLtu
    core w s) := by
  unfold execCmpLtu
  try dsimp only
  repeat' (first
    | intro _ | with_reducible assumption | with_reducible apply keepsE_next | with_reducible apply keeps_cmp)

theorem keeps_execCmpGeu {z0 : State} {core : Fin 32} {w : BitVec 64} {s : State} (hK : Keeps z0 s) : KeepsE z0 (execCmpGeu
    core w s) := by
  unfold execCmpGeu
  try dsimp only
  repeat' (first
    | intro _ | with_reducible assumption | with_reducible apply keepsE_next | with_reducible apply keeps_cmp)

theorem keeps_plogic {z0 : State} {k : Nat} {f : Bool → Bool → Bool} {core : Fin 32} {w : BitVec 64} {s : State} (hK : Keeps
    z0 s) : KeepsE z0 (plogic k f core w s) := by
  unfold plogic
  try dsimp only
  repeat' (first
    | intro _ | with_reducible assumption | with_reducible apply keepsE_next | with_reducible apply keeps_kuner
    | with_reducible apply keeps_onCore)

theorem keeps_execPand {z0 : State} {core : Fin 32} {w : BitVec 64} {s : State} (hK : Keeps z0 s) : KeepsE z0 (execPand core
    w s) := by
  unfold execPand
  try dsimp only
  repeat' (first
    | intro _ | with_reducible assumption | with_reducible apply keepsE_next | with_reducible apply keeps_plogic)

theorem keeps_execPor {z0 : State} {core : Fin 32} {w : BitVec 64} {s : State} (hK : Keeps z0 s) : KeepsE z0 (execPor core w
    s) := by
  unfold execPor
  try dsimp only
  repeat' (first
    | intro _ | with_reducible assumption | with_reducible apply keepsE_next | with_reducible apply keeps_plogic
    | split)

theorem keeps_execPxor {z0 : State} {core : Fin 32} {w : BitVec 64} {s : State} (hK : Keeps z0 s) : KeepsE z0 (execPxor core
    w s) := by
  unfold execPxor
  try dsimp only
  repeat' (first
    | intro _ | with_reducible assumption | with_reducible apply keepsE_next | with_reducible apply keeps_plogic)

theorem keeps_execPandn {z0 : State} {core : Fin 32} {w : BitVec 64} {s : State} (hK : Keeps z0 s) : KeepsE z0 (execPandn
    core w s) := by
  unfold execPandn
  try dsimp only
  repeat' (first
    | intro _ | with_reducible assumption | with_reducible apply keepsE_next | with_reducible apply keeps_plogic)

theorem keeps_execPnot {z0 : State} {core : Fin 32} {w : BitVec 64} {s : State} (hK : Keeps z0 s) : KeepsE z0 (execPnot core
    w s) := by
  unfold execPnot
  try dsimp only
  repeat' (first
    | intro _ | with_reducible assumption | with_reducible apply keepsE_next | with_reducible apply keeps_plogic)

theorem keeps_seqFault {z0 : State} (s : State) (n : Nat) (b : FaultBit) (hK : Keeps z0 s) : Keeps z0 (seqFault s n b) := by
  unfold seqFault
  try dsimp only
  repeat' (first
    | with_reducible assumption | with_reducible apply keeps_faultCmd)

theorem keeps_execSld {z0 : State} {core : Fin 32} {w : BitVec 64} {s : State} (hK : Keeps z0 s) : KeepsE z0 (execSld core w
    s) := by
  unfold execSld
  try dsimp only
  repeat' (first
    | intro _ | with_reducible assumption | with_reducible apply keepsE_next | with_reducible apply keeps_ite
    | with_reducible apply keepsE_ite | simp only [↓keeps_fields, ↓kept_self] | with_reducible apply keeps_kuner
    | with_reducible apply keeps_faultCmd | with_reducible apply keeps_nextFree | with_reducible apply keeps_setCore
    | with_reducible apply keeps_seqFault | with_reducible apply keeps_onCore | split)

theorem keeps_execSst {z0 : State} {core : Fin 32} {w : BitVec 64} {s : State} (hK : Keeps z0 s) : KeepsE z0 (execSst core w
    s) := by
  unfold execSst
  try dsimp only
  repeat' (first
    | intro _ | with_reducible assumption | with_reducible apply keepsE_next | with_reducible apply keeps_ite
    | with_reducible apply keepsE_ite | simp only [↓keeps_fields, ↓kept_self] | with_reducible apply keeps_kuner
    | with_reducible apply keeps_faultCmd | with_reducible apply keeps_onCore | split)

theorem keeps_execSget {z0 : State} {core : Fin 32} {w : BitVec 64} {s : State} (hK : Keeps z0 s) : KeepsE z0 (execSget core
    w s) := by
  unfold execSget
  try dsimp only
  repeat' (first
    | intro _ | with_reducible assumption | with_reducible apply keepsE_next | with_reducible apply keeps_ite
    | with_reducible apply keepsE_ite | simp only [↓keeps_fields, ↓kept_self] | with_reducible apply keeps_kuner
    | with_reducible apply keeps_onCore | split)

theorem keeps_branchTo {z0 : State} (s : State) (n : Nat) (t : Int) (link : Option Nat) (hK : Keeps z0 s) : Keeps z0
    (branchTo s n t link) := by
  unfold branchTo
  try dsimp only
  repeat' (first
    | with_reducible assumption | with_reducible apply keeps_ite | simp only [↓keeps_fields, ↓kept_self]
    | with_reducible apply keeps_seqFault | with_reducible apply keeps_onCore | split)

theorem keeps_execB {z0 : State} {core : Fin 32} {w : BitVec 64} {s : State} (hK : Keeps z0 s) : KeepsE z0 (execB core w s) := by
  unfold execB
  try dsimp only
  repeat' (first
    | intro _ | with_reducible assumption | with_reducible apply keepsE_next | with_reducible apply keeps_kuner
    | with_reducible apply keeps_branchTo)

theorem keeps_execBl {z0 : State} {core : Fin 32} {w : BitVec 64} {s : State} (hK : Keeps z0 s) : KeepsE z0 (execBl core w
    s) := by
  unfold execBl
  try dsimp only
  repeat' (first
    | intro _ | with_reducible assumption | with_reducible apply keepsE_next | with_reducible apply keeps_kuner
    | with_reducible apply keeps_branchTo)

theorem keeps_execBr {z0 : State} {core : Fin 32} {w : BitVec 64} {s : State} (hK : Keeps z0 s) : KeepsE z0 (execBr core w
    s) := by
  unfold execBr
  try dsimp only
  repeat' (first
    | intro _ | with_reducible assumption | with_reducible apply keepsE_next | with_reducible apply keeps_kuner
    | with_reducible apply keeps_branchTo)

theorem keeps_execBrl {z0 : State} {core : Fin 32} {w : BitVec 64} {s : State} (hK : Keeps z0 s) : KeepsE z0 (execBrl core w
    s) := by
  unfold execBrl
  try dsimp only
  repeat' (first
    | intro _ | with_reducible assumption | with_reducible apply keepsE_next | with_reducible apply keeps_kuner
    | with_reducible apply keeps_branchTo)

theorem keeps_execLoop {z0 : State} {core : Fin 32} {w : BitVec 64} {s : State} (hK : Keeps z0 s) : KeepsE z0 (execLoop core
    w s) := by
  unfold execLoop
  try dsimp only
  repeat' (first
    | intro _ | with_reducible assumption | with_reducible apply keepsE_next | with_reducible apply keeps_ite
    | with_reducible apply keepsE_ite | with_reducible apply keeps_onCore | with_reducible apply keeps_seqFault
    | with_reducible apply keeps_kunerRow | split)

theorem keeps_tdesc {z0 : State} {mode : Nat} {f : Core → BitVec 256} {core : Fin 32} {w : BitVec 64} {s : State} (hK :
    Keeps z0 s) : KeepsE z0 (tdesc mode f core w s) := by
  unfold tdesc
  try dsimp only
  repeat' (first
    | intro _ | with_reducible assumption | with_reducible apply keepsE_next | with_reducible apply keeps_ite
    | with_reducible apply keepsE_ite | with_reducible apply keeps_kuner | with_reducible apply keeps_onCore | split)

theorem keeps_execTdescLoad {z0 : State} {core : Fin 32} {w : BitVec 64} {s : State} (hK : Keeps z0 s) : KeepsE z0
    (execTdescLoad core w s) := by
  unfold execTdescLoad
  try dsimp only
  repeat' (first
    | intro _ | with_reducible assumption | with_reducible apply keepsE_next | with_reducible apply keeps_ite
    | with_reducible apply keepsE_ite | simp only [↓keeps_fields, ↓kept_self] | with_reducible apply keeps_kuner
    | with_reducible apply keeps_faultCmd | with_reducible apply keeps_nextFree | with_reducible apply keeps_setCore
    | with_reducible apply keeps_seqFault | with_reducible apply keeps_onCore | split)

theorem keeps_execTdescCopy {z0 : State} {core : Fin 32} {w : BitVec 64} {s : State} (hK : Keeps z0 s) : KeepsE z0
    (execTdescCopy core w s) := by
  unfold execTdescCopy
  try dsimp only
  repeat' (first
    | intro _ | with_reducible assumption | with_reducible apply keepsE_next | with_reducible apply keeps_tdesc)

theorem keeps_execTdescSet {z0 : State} {core : Fin 32} {w : BitVec 64} {s : State} (hK : Keeps z0 s) : KeepsE z0
    (execTdescSet core w s) := by
  unfold execTdescSet
  try dsimp only
  repeat' (first
    | intro _ | with_reducible assumption | with_reducible apply keepsE_next | with_reducible apply keeps_tdesc)

theorem keeps_execTdescAdd {z0 : State} {core : Fin 32} {w : BitVec 64} {s : State} (hK : Keeps z0 s) : KeepsE z0
    (execTdescAdd core w s) := by
  unfold execTdescAdd
  try dsimp only
  repeat' (first
    | intro _ | with_reducible assumption | with_reducible apply keepsE_next | with_reducible apply keeps_tdesc)

theorem keeps_execTdescSeti {z0 : State} {core : Fin 32} {w : BitVec 64} {s : State} (hK : Keeps z0 s) : KeepsE z0
    (execTdescSeti core w s) := by
  unfold execTdescSeti
  try dsimp only
  repeat' (first
    | intro _ | with_reducible assumption | with_reducible apply keepsE_next | with_reducible apply keeps_tdesc)

end Sys2Proof.Machine
end

