-- ==== Sys2Proof/Laws/KeepsKuner.lean ====
section
/-! SUPPORT. Sys2Proof/Laws/KeepsKuner.lean: each operation of Machine/Kuner.lean keeps what `Keeps` says. -/

namespace Sys2Proof.Machine

set_option simprocs false
set_option linter.all false

theorem keeps_place {z0 : State} (s : State) (n : Nat) (op : QOp) (w : BitVec 64) (hK : Keeps z0 s) : Keeps z0 (place s n op
    w) := by
  unfold place
  try dsimp only
  repeat' (first
    | with_reducible assumption | with_reducible apply keeps_ite | with_reducible apply keeps_tryStart
    | with_reducible apply keeps_onCore | split)

theorem keeps_queuedRow {z0 : State} {code : Nat} {op : QOp} {core : Fin 32} {w : BitVec 64} {s : State} (hK : Keeps z0 s) :
    KeepsE z0 (queuedRow code op core w s) := by
  unfold queuedRow
  try dsimp only
  repeat' (first
    | intro _ | with_reducible assumption | with_reducible apply keepsE_next | with_reducible apply keeps_kuner
    | with_reducible apply keeps_place)

theorem keeps_execTld {z0 : State} {core : Fin 32} {w : BitVec 64} {s : State} (hK : Keeps z0 s) : KeepsE z0 (execTld core w
    s) := by
  unfold execTld
  try dsimp only
  repeat' (first
    | intro _ | with_reducible assumption | with_reducible apply keepsE_next | with_reducible apply keeps_queuedRow)

theorem keeps_execTst {z0 : State} {core : Fin 32} {w : BitVec 64} {s : State} (hK : Keeps z0 s) : KeepsE z0 (execTst core w
    s) := by
  unfold execTst
  try dsimp only
  repeat' (first
    | intro _ | with_reducible assumption | with_reducible apply keepsE_next | with_reducible apply keeps_queuedRow)

theorem keeps_execTpf {z0 : State} {core : Fin 32} {w : BitVec 64} {s : State} (hK : Keeps z0 s) : KeepsE z0 (execTpf core w
    s) := by
  unfold execTpf
  try dsimp only
  repeat' (first
    | intro _ | with_reducible assumption | with_reducible apply keepsE_next | with_reducible apply keeps_queuedRow)

theorem keeps_execTchk {z0 : State} {core : Fin 32} {w : BitVec 64} {s : State} (hK : Keeps z0 s) : KeepsE z0 (execTchk core
    w s) := by
  unfold execTchk
  try dsimp only
  repeat' (first
    | intro _ | with_reducible assumption | with_reducible apply keepsE_next | with_reducible apply keeps_queuedRow)

theorem keeps_execMwl {z0 : State} {core : Fin 32} {w : BitVec 64} {s : State} (hK : Keeps z0 s) : KeepsE z0 (execMwl core w
    s) := by
  unfold execMwl
  try dsimp only
  repeat' (first
    | intro _ | with_reducible assumption | with_reducible apply keepsE_next | with_reducible apply keeps_queuedRow)

theorem keeps_execMma {z0 : State} {core : Fin 32} {w : BitVec 64} {s : State} (hK : Keeps z0 s) : KeepsE z0 (execMma core w
    s) := by
  unfold execMma
  try dsimp only
  repeat' (first
    | intro _ | with_reducible assumption | with_reducible apply keepsE_next | with_reducible apply keeps_queuedRow)

theorem keeps_execMmas {z0 : State} {core : Fin 32} {w : BitVec 64} {s : State} (hK : Keeps z0 s) : KeepsE z0 (execMmas core
    w s) := by
  unfold execMmas
  try dsimp only
  repeat' (first
    | intro _ | with_reducible assumption | with_reducible apply keepsE_next | with_reducible apply keeps_queuedRow)

theorem keeps_execMaccZero {z0 : State} {core : Fin 32} {w : BitVec 64} {s : State} (hK : Keeps z0 s) : KeepsE z0
    (execMaccZero core w s) := by
  unfold execMaccZero
  try dsimp only
  repeat' (first
    | intro _ | with_reducible assumption | with_reducible apply keepsE_next | with_reducible apply keeps_queuedRow)

theorem keeps_execMaccRes {z0 : State} {core : Fin 32} {w : BitVec 64} {s : State} (hK : Keeps z0 s) : KeepsE z0
    (execMaccRes core w s) := by
  unfold execMaccRes
  try dsimp only
  repeat' (first
    | intro _ | with_reducible assumption | with_reducible apply keepsE_next | with_reducible apply keeps_queuedRow)

theorem keeps_execMaccUnres {z0 : State} {core : Fin 32} {w : BitVec 64} {s : State} (hK : Keeps z0 s) : KeepsE z0
    (execMaccUnres core w s) := by
  unfold execMaccUnres
  try dsimp only
  repeat' (first
    | intro _ | with_reducible assumption | with_reducible apply keepsE_next | with_reducible apply keeps_queuedRow)

theorem keeps_execMaccCkpt {z0 : State} {core : Fin 32} {w : BitVec 64} {s : State} (hK : Keeps z0 s) : KeepsE z0
    (execMaccCkpt core w s) := by
  unfold execMaccCkpt
  try dsimp only
  repeat' (first
    | intro _ | with_reducible assumption | with_reducible apply keepsE_next | with_reducible apply keeps_queuedRow)

theorem keeps_execMaccRestore {z0 : State} {core : Fin 32} {w : BitVec 64} {s : State} (hK : Keeps z0 s) : KeepsE z0
    (execMaccRestore core w s) := by
  unfold execMaccRestore
  try dsimp only
  repeat' (first
    | intro _ | with_reducible assumption | with_reducible apply keepsE_next | with_reducible apply keeps_queuedRow)

theorem keeps_execKapp {z0 : State} {core : Fin 32} {w : BitVec 64} {s : State} (hK : Keeps z0 s) : KeepsE z0 (execKapp core
    w s) := by
  unfold execKapp
  try dsimp only
  repeat' (first
    | intro _ | with_reducible assumption | with_reducible apply keepsE_next | with_reducible apply keeps_queuedRow)

theorem keeps_execKseal {z0 : State} {core : Fin 32} {w : BitVec 64} {s : State} (hK : Keeps z0 s) : KeepsE z0 (execKseal
    core w s) := by
  unfold execKseal
  try dsimp only
  repeat' (first
    | intro _ | with_reducible assumption | with_reducible apply keepsE_next | with_reducible apply keeps_queuedRow)

theorem keeps_execKmap {z0 : State} {core : Fin 32} {w : BitVec 64} {s : State} (hK : Keeps z0 s) : KeepsE z0 (execKmap core
    w s) := by
  unfold execKmap
  try dsimp only
  repeat' (first
    | intro _ | with_reducible assumption | with_reducible apply keepsE_next | with_reducible apply keeps_queuedRow)

theorem keeps_execKmapPrefetch {z0 : State} {core : Fin 32} {w : BitVec 64} {s : State} (hK : Keeps z0 s) : KeepsE z0
    (execKmapPrefetch core w s) := by
  unfold execKmapPrefetch
  try dsimp only
  repeat' (first
    | intro _ | with_reducible assumption | with_reducible apply keepsE_next | with_reducible apply keeps_queuedRow)

theorem keeps_execEopMov {z0 : State} {core : Fin 32} {w : BitVec 64} {s : State} (hK : Keeps z0 s) : KeepsE z0 (execEopMov
    core w s) := by
  unfold execEopMov
  try dsimp only
  repeat' (first
    | intro _ | with_reducible assumption | with_reducible apply keepsE_next | with_reducible apply keeps_queuedRow)

theorem keeps_execEopAdd {z0 : State} {core : Fin 32} {w : BitVec 64} {s : State} (hK : Keeps z0 s) : KeepsE z0 (execEopAdd
    core w s) := by
  unfold execEopAdd
  try dsimp only
  repeat' (first
    | intro _ | with_reducible assumption | with_reducible apply keepsE_next | with_reducible apply keeps_queuedRow)

theorem keeps_execEopSub {z0 : State} {core : Fin 32} {w : BitVec 64} {s : State} (hK : Keeps z0 s) : KeepsE z0 (execEopSub
    core w s) := by
  unfold execEopSub
  try dsimp only
  repeat' (first
    | intro _ | with_reducible assumption | with_reducible apply keepsE_next | with_reducible apply keeps_queuedRow)

theorem keeps_execEopMul {z0 : State} {core : Fin 32} {w : BitVec 64} {s : State} (hK : Keeps z0 s) : KeepsE z0 (execEopMul
    core w s) := by
  unfold execEopMul
  try dsimp only
  repeat' (first
    | intro _ | with_reducible assumption | with_reducible apply keepsE_next | with_reducible apply keeps_queuedRow)

theorem keeps_execEopMin {z0 : State} {core : Fin 32} {w : BitVec 64} {s : State} (hK : Keeps z0 s) : KeepsE z0 (execEopMin
    core w s) := by
  unfold execEopMin
  try dsimp only
  repeat' (first
    | intro _ | with_reducible assumption | with_reducible apply keepsE_next | with_reducible apply keeps_queuedRow)

theorem keeps_execEopMax {z0 : State} {core : Fin 32} {w : BitVec 64} {s : State} (hK : Keeps z0 s) : KeepsE z0 (execEopMax
    core w s) := by
  unfold execEopMax
  try dsimp only
  repeat' (first
    | intro _ | with_reducible assumption | with_reducible apply keepsE_next | with_reducible apply keeps_queuedRow)

theorem keeps_execEopAbs {z0 : State} {core : Fin 32} {w : BitVec 64} {s : State} (hK : Keeps z0 s) : KeepsE z0 (execEopAbs
    core w s) := by
  unfold execEopAbs
  try dsimp only
  repeat' (first
    | intro _ | with_reducible assumption | with_reducible apply keepsE_next | with_reducible apply keeps_queuedRow)

theorem keeps_execEopNeg {z0 : State} {core : Fin 32} {w : BitVec 64} {s : State} (hK : Keeps z0 s) : KeepsE z0 (execEopNeg
    core w s) := by
  unfold execEopNeg
  try dsimp only
  repeat' (first
    | intro _ | with_reducible assumption | with_reducible apply keepsE_next | with_reducible apply keeps_queuedRow)

theorem keeps_execEopRelu {z0 : State} {core : Fin 32} {w : BitVec 64} {s : State} (hK : Keeps z0 s) : KeepsE z0
    (execEopRelu core w s) := by
  unfold execEopRelu
  try dsimp only
  repeat' (first
    | intro _ | with_reducible assumption | with_reducible apply keepsE_next | with_reducible apply keeps_queuedRow)

theorem keeps_execEopExp2 {z0 : State} {core : Fin 32} {w : BitVec 64} {s : State} (hK : Keeps z0 s) : KeepsE z0
    (execEopExp2 core w s) := by
  unfold execEopExp2
  try dsimp only
  repeat' (first
    | intro _ | with_reducible assumption | with_reducible apply keepsE_next | with_reducible apply keeps_queuedRow)

theorem keeps_execEopExp {z0 : State} {core : Fin 32} {w : BitVec 64} {s : State} (hK : Keeps z0 s) : KeepsE z0 (execEopExp
    core w s) := by
  unfold execEopExp
  try dsimp only
  repeat' (first
    | intro _ | with_reducible assumption | with_reducible apply keepsE_next | with_reducible apply keeps_queuedRow)

theorem keeps_execEopLog2 {z0 : State} {core : Fin 32} {w : BitVec 64} {s : State} (hK : Keeps z0 s) : KeepsE z0
    (execEopLog2 core w s) := by
  unfold execEopLog2
  try dsimp only
  repeat' (first
    | intro _ | with_reducible assumption | with_reducible apply keepsE_next | with_reducible apply keeps_queuedRow)

theorem keeps_execEopRcp {z0 : State} {core : Fin 32} {w : BitVec 64} {s : State} (hK : Keeps z0 s) : KeepsE z0 (execEopRcp
    core w s) := by
  unfold execEopRcp
  try dsimp only
  repeat' (first
    | intro _ | with_reducible assumption | with_reducible apply keepsE_next | with_reducible apply keeps_queuedRow)

theorem keeps_execEopRsqrt {z0 : State} {core : Fin 32} {w : BitVec 64} {s : State} (hK : Keeps z0 s) : KeepsE z0
    (execEopRsqrt core w s) := by
  unfold execEopRsqrt
  try dsimp only
  repeat' (first
    | intro _ | with_reducible assumption | with_reducible apply keepsE_next | with_reducible apply keeps_queuedRow)

theorem keeps_execEopSqrt {z0 : State} {core : Fin 32} {w : BitVec 64} {s : State} (hK : Keeps z0 s) : KeepsE z0
    (execEopSqrt core w s) := by
  unfold execEopSqrt
  try dsimp only
  repeat' (first
    | intro _ | with_reducible assumption | with_reducible apply keepsE_next | with_reducible apply keeps_queuedRow)

theorem keeps_execEopSigmoid {z0 : State} {core : Fin 32} {w : BitVec 64} {s : State} (hK : Keeps z0 s) : KeepsE z0
    (execEopSigmoid core w s) := by
  unfold execEopSigmoid
  try dsimp only
  repeat' (first
    | intro _ | with_reducible assumption | with_reducible apply keepsE_next | with_reducible apply keeps_queuedRow)

theorem keeps_execEopTanh {z0 : State} {core : Fin 32} {w : BitVec 64} {s : State} (hK : Keeps z0 s) : KeepsE z0
    (execEopTanh core w s) := by
  unfold execEopTanh
  try dsimp only
  repeat' (first
    | intro _ | with_reducible assumption | with_reducible apply keepsE_next | with_reducible apply keeps_queuedRow)

theorem keeps_execEopSilu {z0 : State} {core : Fin 32} {w : BitVec 64} {s : State} (hK : Keeps z0 s) : KeepsE z0
    (execEopSilu core w s) := by
  unfold execEopSilu
  try dsimp only
  repeat' (first
    | intro _ | with_reducible assumption | with_reducible apply keepsE_next | with_reducible apply keeps_queuedRow)

theorem keeps_execEopGelu {z0 : State} {core : Fin 32} {w : BitVec 64} {s : State} (hK : Keeps z0 s) : KeepsE z0
    (execEopGelu core w s) := by
  unfold execEopGelu
  try dsimp only
  repeat' (first
    | intro _ | with_reducible assumption | with_reducible apply keepsE_next | with_reducible apply keeps_queuedRow)

theorem keeps_execEopAnd {z0 : State} {core : Fin 32} {w : BitVec 64} {s : State} (hK : Keeps z0 s) : KeepsE z0 (execEopAnd
    core w s) := by
  unfold execEopAnd
  try dsimp only
  repeat' (first
    | intro _ | with_reducible assumption | with_reducible apply keepsE_next | with_reducible apply keeps_queuedRow)

theorem keeps_execEopOr {z0 : State} {core : Fin 32} {w : BitVec 64} {s : State} (hK : Keeps z0 s) : KeepsE z0 (execEopOr
    core w s) := by
  unfold execEopOr
  try dsimp only
  repeat' (first
    | intro _ | with_reducible assumption | with_reducible apply keepsE_next | with_reducible apply keeps_queuedRow)

theorem keeps_execEopXor {z0 : State} {core : Fin 32} {w : BitVec 64} {s : State} (hK : Keeps z0 s) : KeepsE z0 (execEopXor
    core w s) := by
  unfold execEopXor
  try dsimp only
  repeat' (first
    | intro _ | with_reducible assumption | with_reducible apply keepsE_next | with_reducible apply keeps_queuedRow)

theorem keeps_execEopShl {z0 : State} {core : Fin 32} {w : BitVec 64} {s : State} (hK : Keeps z0 s) : KeepsE z0 (execEopShl
    core w s) := by
  unfold execEopShl
  try dsimp only
  repeat' (first
    | intro _ | with_reducible assumption | with_reducible apply keepsE_next | with_reducible apply keeps_queuedRow)

theorem keeps_execEopSra {z0 : State} {core : Fin 32} {w : BitVec 64} {s : State} (hK : Keeps z0 s) : KeepsE z0 (execEopSra
    core w s) := by
  unfold execEopSra
  try dsimp only
  repeat' (first
    | intro _ | with_reducible assumption | with_reducible apply keepsE_next | with_reducible apply keeps_queuedRow)

theorem keeps_execErq {z0 : State} {core : Fin 32} {w : BitVec 64} {s : State} (hK : Keeps z0 s) : KeepsE z0 (execErq core w
    s) := by
  unfold execErq
  try dsimp only
  repeat' (first
    | intro _ | with_reducible assumption | with_reducible apply keepsE_next | with_reducible apply keeps_queuedRow)

theorem keeps_execEsmx {z0 : State} {core : Fin 32} {w : BitVec 64} {s : State} (hK : Keeps z0 s) : KeepsE z0 (execEsmx core
    w s) := by
  unfold execEsmx
  try dsimp only
  repeat' (first
    | intro _ | with_reducible assumption | with_reducible apply keepsE_next | with_reducible apply keeps_queuedRow)

theorem keeps_execEnormRms {z0 : State} {core : Fin 32} {w : BitVec 64} {s : State} (hK : Keeps z0 s) : KeepsE z0
    (execEnormRms core w s) := by
  unfold execEnormRms
  try dsimp only
  repeat' (first
    | intro _ | with_reducible assumption | with_reducible apply keepsE_next | with_reducible apply keeps_queuedRow)

theorem keeps_execEnormLayer {z0 : State} {core : Fin 32} {w : BitVec 64} {s : State} (hK : Keeps z0 s) : KeepsE z0
    (execEnormLayer core w s) := by
  unfold execEnormLayer
  try dsimp only
  repeat' (first
    | intro _ | with_reducible assumption | with_reducible apply keepsE_next | with_reducible apply keeps_queuedRow)

theorem keeps_execEgateLstm {z0 : State} {core : Fin 32} {w : BitVec 64} {s : State} (hK : Keeps z0 s) : KeepsE z0
    (execEgateLstm core w s) := by
  unfold execEgateLstm
  try dsimp only
  repeat' (first
    | intro _ | with_reducible assumption | with_reducible apply keepsE_next | with_reducible apply keeps_queuedRow)

theorem keeps_execEgateGru {z0 : State} {core : Fin 32} {w : BitVec 64} {s : State} (hK : Keeps z0 s) : KeepsE z0
    (execEgateGru core w s) := by
  unfold execEgateGru
  try dsimp only
  repeat' (first
    | intro _ | with_reducible assumption | with_reducible apply keepsE_next | with_reducible apply keeps_queuedRow)

theorem keeps_execEgateDssm {z0 : State} {core : Fin 32} {w : BitVec 64} {s : State} (hK : Keeps z0 s) : KeepsE z0
    (execEgateDssm core w s) := by
  unfold execEgateDssm
  try dsimp only
  repeat' (first
    | intro _ | with_reducible assumption | with_reducible apply keepsE_next | with_reducible apply keeps_queuedRow)

theorem keeps_execEscanScan {z0 : State} {core : Fin 32} {w : BitVec 64} {s : State} (hK : Keeps z0 s) : KeepsE z0
    (execEscanScan core w s) := by
  unfold execEscanScan
  try dsimp only
  repeat' (first
    | intro _ | with_reducible assumption | with_reducible apply keepsE_next | with_reducible apply keeps_queuedRow)

theorem keeps_execEscanCombine {z0 : State} {core : Fin 32} {w : BitVec 64} {s : State} (hK : Keeps z0 s) : KeepsE z0
    (execEscanCombine core w s) := by
  unfold execEscanCombine
  try dsimp only
  repeat' (first
    | intro _ | with_reducible assumption | with_reducible apply keepsE_next | with_reducible apply keeps_queuedRow)

theorem keeps_execEredSum {z0 : State} {core : Fin 32} {w : BitVec 64} {s : State} (hK : Keeps z0 s) : KeepsE z0
    (execEredSum core w s) := by
  unfold execEredSum
  try dsimp only
  repeat' (first
    | intro _ | with_reducible assumption | with_reducible apply keepsE_next | with_reducible apply keeps_queuedRow)

theorem keeps_execEredMax {z0 : State} {core : Fin 32} {w : BitVec 64} {s : State} (hK : Keeps z0 s) : KeepsE z0
    (execEredMax core w s) := by
  unfold execEredMax
  try dsimp only
  repeat' (first
    | intro _ | with_reducible assumption | with_reducible apply keepsE_next | with_reducible apply keeps_queuedRow)

theorem keeps_execEredMin {z0 : State} {core : Fin 32} {w : BitVec 64} {s : State} (hK : Keeps z0 s) : KeepsE z0
    (execEredMin core w s) := by
  unfold execEredMin
  try dsimp only
  repeat' (first
    | intro _ | with_reducible assumption | with_reducible apply keepsE_next | with_reducible apply keeps_queuedRow)

theorem keeps_execEredArgmax {z0 : State} {core : Fin 32} {w : BitVec 64} {s : State} (hK : Keeps z0 s) : KeepsE z0
    (execEredArgmax core w s) := by
  unfold execEredArgmax
  try dsimp only
  repeat' (first
    | intro _ | with_reducible assumption | with_reducible apply keepsE_next | with_reducible apply keeps_queuedRow)

theorem keeps_execEredSumsq {z0 : State} {core : Fin 32} {w : BitVec 64} {s : State} (hK : Keeps z0 s) : KeepsE z0
    (execEredSumsq core w s) := by
  unfold execEredSumsq
  try dsimp only
  repeat' (first
    | intro _ | with_reducible assumption | with_reducible apply keepsE_next | with_reducible apply keeps_queuedRow)

theorem keeps_execWquantRange {z0 : State} {core : Fin 32} {w : BitVec 64} {s : State} (hK : Keeps z0 s) : KeepsE z0
    (execWquantRange core w s) := by
  unfold execWquantRange
  try dsimp only
  repeat' (first
    | intro _ | with_reducible assumption | with_reducible apply keepsE_next | with_reducible apply keeps_queuedRow)

theorem keeps_execWquantEncode {z0 : State} {core : Fin 32} {w : BitVec 64} {s : State} (hK : Keeps z0 s) : KeepsE z0
    (execWquantEncode core w s) := by
  unfold execWquantEncode
  try dsimp only
  repeat' (first
    | intro _ | with_reducible assumption | with_reducible apply keepsE_next | with_reducible apply keeps_queuedRow)

theorem keeps_execCsend {z0 : State} {core : Fin 32} {w : BitVec 64} {s : State} (hK : Keeps z0 s) : KeepsE z0 (execCsend
    core w s) := by
  unfold execCsend
  try dsimp only
  repeat' (first
    | intro _ | with_reducible assumption | with_reducible apply keepsE_next | with_reducible apply keeps_queuedRow)

theorem keeps_execCrecv {z0 : State} {core : Fin 32} {w : BitVec 64} {s : State} (hK : Keeps z0 s) : KeepsE z0 (execCrecv
    core w s) := by
  unfold execCrecv
  try dsimp only
  repeat' (first
    | intro _ | with_reducible assumption | with_reducible apply keepsE_next | with_reducible apply keeps_queuedRow)

theorem keeps_execLsend {z0 : State} {core : Fin 32} {w : BitVec 64} {s : State} (hK : Keeps z0 s) : KeepsE z0 (execLsend
    core w s) := by
  unfold execLsend
  try dsimp only
  repeat' (first
    | intro _ | with_reducible assumption | with_reducible apply keepsE_next | with_reducible apply keeps_queuedRow)

theorem keeps_execLrecv {z0 : State} {core : Fin 32} {w : BitVec 64} {s : State} (hK : Keeps z0 s) : KeepsE z0 (execLrecv
    core w s) := by
  unfold execLrecv
  try dsimp only
  repeat' (first
    | intro _ | with_reducible assumption | with_reducible apply keepsE_next | with_reducible apply keeps_queuedRow)

end Sys2Proof.Machine
end

