-- ==== Sys2Proof/Laws/KeepsSectors.lean ====
section
/-! SUPPORT. Sys2Proof/Laws/KeepsSectors.lean: each operation of Machine/Sectors.lean keeps what `Keeps` says. -/

namespace Sys2Proof.Machine

set_option simprocs false
set_option linter.all false

theorem keeps_syncQueue {z0 : State} (s : State) (q : Nat) (hK : Keeps z0 s) : Keeps z0 (syncQueue s q) := by
  unfold syncQueue
  try dsimp only
  repeat' (first
    | with_reducible assumption | simp only [↓keeps_fields, ↓kept_self] | with_reducible apply keeps_rset | split)

theorem keeps_systemQueues {z0 : State} (s : State) (hK : Keeps z0 s) : Keeps z0 (systemQueues s) := by
  unfold systemQueues
  try dsimp only
  repeat' (first
    | intro _ | with_reducible assumption | with_reducible apply keeps_ite | simp only [↓keeps_fields, ↓kept_self]
    | with_reducible apply keeps_syncQueue | with_reducible apply keeps_onK | with_reducible apply keeps_foldl | split)

theorem keeps_sectorMsg {z0 : State} (s : State) (type p ix queue t reason : Nat) (hK : Keeps z0 s) : Keeps z0 (sectorMsg s
    type p ix queue t reason) := by
  unfold sectorMsg
  try dsimp only
  repeat' (first
    | with_reducible assumption | with_reducible apply keeps_ite | with_reducible apply keeps_hwPost | split)

theorem keeps_closeSector {z0 : State} (s : State) (o : OpenSector) (t reason : Nat) (hK : Keeps z0 s) : Keeps z0
    (closeSector s o t reason) := by
  unfold closeSector
  try dsimp only
  repeat' (first
    | with_reducible assumption | simp only [↓keeps_fields, ↓kept_self] | with_reducible apply keeps_onSched
    | with_reducible apply keeps_sectorMsg)

theorem keeps_closeIdle {z0 : State} (s : State) (p : Nat) (hK : Keeps z0 s) : Keeps z0 (closeIdle s p) := by
  unfold closeIdle
  try dsimp only
  repeat' (first
    | intro _ | with_reducible assumption | with_reducible apply keeps_ite | with_reducible apply keeps_closeSector
    | with_reducible apply keeps_foldl | split)

theorem keeps_endIdleDonations {z0 : State} (s : State) (hK : Keeps z0 s) : Keeps z0 (endIdleDonations s) := by
  unfold endIdleDonations
  try dsimp only
  repeat' (first
    | intro _ | with_reducible assumption | with_reducible apply keeps_ite | simp only [↓keeps_fields, ↓kept_self]
    | with_reducible apply keeps_onSched | split)

theorem keeps_reschedule {z0 : State} (s : State) (p : Nat) (hK : Keeps z0 s) : Keeps z0 (reschedule s p) := by
  unfold reschedule
  try dsimp only
  repeat' (first
    | with_reducible assumption | with_reducible apply keeps_endIdleDonations | with_reducible apply keeps_dispatchPart
    | with_reducible apply keeps_closeIdle | split)

theorem keeps_endSchedules {z0 : State} (s : State) (status : Nat) (l : List (Nat × Nat)) (hK : Keeps z0 s) : Keeps z0
    (endSchedules s status l) := by
  unfold endSchedules
  try dsimp only
  repeat' (first
    | intro _ | with_reducible assumption | with_reducible apply keeps_ite | with_reducible apply keeps_complete
    | with_reducible apply keeps_foldl | split)

theorem keeps_takeTable {z0 : State} (s : State) (p : Nat) (hK : Keeps z0 s) : Keeps z0 (takeTable s p) := by
  unfold takeTable
  try dsimp only
  repeat' (first
    | with_reducible assumption | with_reducible apply keeps_ite | simp only [↓keeps_fields, ↓kept_self]
    | with_reducible apply keeps_endSchedules | with_reducible apply keeps_setRot
    | with_reducible apply keeps_rsetBits | with_reducible apply keeps_raiseEvent | split)

theorem keeps_armTable {z0 : State} (s : State) (p : Nat) (hK : Keeps z0 s) : Keeps z0 (armTable s p) := by
  unfold armTable
  try dsimp only
  repeat' (first
    | with_reducible assumption | with_reducible apply keeps_ite | simp only [↓keeps_fields, ↓kept_self]
    | with_reducible apply keeps_setRot | with_reducible apply keeps_takeTable | split)

theorem keeps_applySettings {z0 : State} (s : State) (q : Nat) (hK : Keeps z0 s) : Keeps z0 (applySettings s q) := by
  unfold applySettings
  try dsimp only
  repeat' (first
    | intro _ | with_reducible assumption | with_reducible apply keeps_ite | simp only [↓keeps_fields, ↓kept_self]
    | with_reducible apply keeps_syncQueue | with_reducible apply keeps_modQueue
    | with_reducible apply keeps_complete | with_reducible apply keeps_foldl | split)

theorem keeps_startRotation {z0 : State} (s : State) (p : Nat) (hK : Keeps z0 s) : Keeps z0 (startRotation s p) := by
  unfold startRotation
  try dsimp only
  repeat' (first
    | intro _ | with_reducible assumption | simp only [↓keeps_fields, ↓kept_self]
    | with_reducible apply keeps_closeSector | with_reducible apply keeps_takeTable
    | with_reducible apply keeps_setRot | with_reducible apply keeps_reschedule
    | with_reducible apply keeps_applySettings | with_reducible apply keeps_foldl)

theorem keeps_execRotationStart {z0 : State} {p : Fin 9} {s : State} (hK : Keeps z0 s) : KeepsE z0 (execRotationStart p s) := by
  unfold execRotationStart
  try dsimp only
  repeat' (first
    | intro _ | with_reducible assumption | with_reducible apply keepsE_next | with_reducible apply keeps_ite
    | with_reducible apply keepsE_ite | with_reducible apply keeps_startRotation | split)

theorem keeps_rotWrite {z0 : State} (s : State) (p : Nat) (v : Word) (hK : Keeps z0 s) : Keeps z0 (rotWrite s p v) := by
  unfold rotWrite
  try dsimp only
  repeat' (first
    | with_reducible assumption | simp only [↓keeps_fields, ↓kept_self] | with_reducible apply keeps_armTable
    | with_reducible apply keeps_setRot)

theorem keeps_execSchedTableArm {z0 : State} {by_ : Req} {p : Fin 9} {v : Word} {s : State} (hK : Keeps z0 s) : KeepsE z0
    (execSchedTableArm by_ p v s) := by
  unfold execSchedTableArm
  try dsimp only
  repeat' (first
    | intro _ | with_reducible assumption | with_reducible apply keepsE_next | with_reducible apply keeps_mayWrite
    | with_reducible apply keeps_rotWrite)

theorem keeps_noteOpened {z0 : State} (s : State) (x : Sector) (ix t : Nat) (hK : Keeps z0 s) : Keeps z0 (noteOpened s x ix t) := by
  unfold noteOpened
  try dsimp only
  repeat' (first
    | intro _ | with_reducible assumption | with_reducible apply keeps_ite | simp only [↓keeps_fields, ↓kept_self]
    | with_reducible apply keeps_onSched | split)

theorem keeps_openSector {z0 : State} (s : State) (p ix : Nat) (hK : Keeps z0 s) : Keeps z0 (openSector s p ix) := by
  unfold openSector
  try dsimp only
  repeat' (first
    | intro _ | with_reducible assumption | with_reducible apply keeps_ite | simp only [↓keeps_fields, ↓kept_self]
    | with_reducible apply keeps_onSched | with_reducible apply keeps_setRot | with_reducible apply keeps_sectorMsg
    | with_reducible apply keeps_reschedule | with_reducible apply keeps_closeSector | with_reducible apply keeps_noteOpened
    | with_reducible apply keeps_getD | split)

theorem keeps_execSectorOpen {z0 : State} {p : Fin 9} {ix : Fin 512} {s : State} (hK : Keeps z0 s) : KeepsE z0
    (execSectorOpen p ix s) := by
  unfold execSectorOpen
  try dsimp only
  repeat' (first
    | intro _ | with_reducible assumption | with_reducible apply keepsE_next | with_reducible apply keeps_ite
    | with_reducible apply keepsE_ite | with_reducible apply keeps_openSector | with_reducible apply keeps_getD
    | split)

theorem keeps_execSectorClose {z0 : State} {p : Fin 9} {ix : Fin 512} {s : State} (hK : Keeps z0 s) : KeepsE z0
    (execSectorClose p ix s) := by
  unfold execSectorClose
  try dsimp only
  repeat' (first
    | intro _ | with_reducible assumption | with_reducible apply keepsE_next | with_reducible apply keeps_ite
    | with_reducible apply keepsE_ite | simp only [↓keeps_fields, ↓kept_self]
    | with_reducible apply keeps_reschedule | with_reducible apply keeps_closeSector | split)

end Sys2Proof.Machine
end

