-- ==== Sys2Proof/Laws/KeepsWaiters.lean ====
section
/-! SUPPORT. Sys2Proof/Laws/KeepsWaiters.lean: each operation of Machine/Waiters.lean keeps what `Keeps` says. -/

namespace Sys2Proof.Machine

set_option simprocs false
set_option linter.all false

theorem keeps_dropSession {z0 : State} (s : State) (n : Nat) (hK : Keeps z0 s) : Keeps z0 (dropSession s n) := by
  unfold dropSession
  try dsimp only
  repeat' (first
    | intro _ | with_reducible assumption | simp only [↓keeps_fields, ↓kept_self]
    | with_reducible apply keeps_tellOthers | with_reducible apply keeps_dropPage | with_reducible apply keeps_onK
    | with_reducible apply keeps_freeFixed | with_reducible apply keeps_foldl | split)

theorem keeps_sweepSessions {z0 : State} (s : State) (hK : Keeps z0 s) : Keeps z0 (sweepSessions s) := by
  unfold sweepSessions
  try dsimp only
  repeat' (first
    | intro _ | with_reducible assumption | simp only [↓keeps_fields, ↓kept_self]
    | with_reducible apply keeps_complete | with_reducible apply keeps_dropSession
    | with_reducible apply keeps_foldl | split)

theorem keeps_dropQueue {z0 : State} (s : State) (q : Nat) (hK : Keeps z0 s) : Keeps z0 (dropQueue s q) := by
  unfold dropQueue
  try dsimp only
  repeat' (first
    | intro _ | with_reducible assumption | simp only [↓keeps_fields, ↓kept_self]
    | with_reducible apply keeps_dropSession | with_reducible apply keeps_onK | with_reducible apply keeps_freeFixed
    | with_reducible apply keeps_syncQueue | with_reducible apply keeps_foldl | split)

theorem keeps_sweepQueues {z0 : State} (s : State) (hK : Keeps z0 s) : Keeps z0 (sweepQueues s) := by
  unfold sweepQueues
  try dsimp only
  repeat' (first
    | intro _ | with_reducible assumption | simp only [↓keeps_fields, ↓kept_self]
    | with_reducible apply keeps_complete | with_reducible apply keeps_dropQueue | with_reducible apply keeps_foldl
    | split)

theorem keeps_markDying {z0 : State} (s : State) (p n : Nat) (hK : Keeps z0 s) : Keeps z0 (markDying s p n) := by
  unfold markDying
  try dsimp only
  repeat' (first
    | with_reducible assumption | simp only [↓keeps_fields, ↓kept_self] | with_reducible apply keeps_modObj)

theorem keeps_dropModel {z0 : State} (s : State) (m : Nat) (hK : Keeps z0 s) : Keeps z0 (dropModel s m) := by
  unfold dropModel
  try dsimp only
  repeat' (first
    | intro _ | with_reducible assumption | simp only [↓keeps_fields, ↓kept_self]
    | with_reducible apply keeps_dropSession | with_reducible apply keeps_onFab
    | with_reducible apply keeps_tellOthers | with_reducible apply keeps_markDying
    | with_reducible apply keeps_freeFixed | with_reducible apply keeps_onK | with_reducible apply keeps_foldl
    | split)

theorem keeps_sweepModels {z0 : State} (s : State) (hK : Keeps z0 s) : Keeps z0 (sweepModels s) := by
  unfold sweepModels
  try dsimp only
  repeat' (first
    | intro _ | with_reducible assumption | simp only [↓keeps_fields, ↓kept_self]
    | with_reducible apply keeps_complete | with_reducible apply keeps_dropModel | with_reducible apply keeps_foldl
    | split)

theorem keeps_moveSession {z0 : State} (s : State) (w : ModelSwitch) (n : Nat) (hK : Keeps z0 s) : Keeps z0 (moveSession s w
    n) := by
  unfold moveSession
  try dsimp only
  repeat' (first
    | intro _ | with_reducible assumption | with_reducible apply keeps_ite | simp only [↓keeps_fields, ↓kept_self]
    | with_reducible apply keeps_goCold | with_reducible apply keeps_place | with_reducible apply keeps_onK
    | with_reducible apply keeps_modSession | with_reducible apply keeps_getD | split)

theorem keeps_goOn {z0 : State} (s : State) (w : ModelSwitch) (hK : Keeps z0 s) : Keeps z0 (goOn s w) := by
  unfold goOn
  try dsimp only
  repeat' (first
    | intro _ | with_reducible assumption | with_reducible apply keeps_ite | simp only [↓keeps_fields, ↓kept_self]
    | with_reducible apply keeps_moveSession | with_reducible apply keeps_complete | with_reducible apply keeps_onK
    | with_reducible apply keeps_foldl | split)

theorem keeps_sweepSwitches {z0 : State} (s : State) (hK : Keeps z0 s) : Keeps z0 (sweepSwitches s) := by
  unfold sweepSwitches
  try dsimp only
  repeat' (first
    | intro _ | with_reducible assumption | with_reducible apply keeps_goOn | with_reducible apply keeps_foldl)

theorem keeps_sweep {z0 : State} (s : State) (hK : Keeps z0 s) : Keeps z0 (sweep s) := by
  unfold sweep
  try dsimp only
  repeat' (first
    | with_reducible assumption | with_reducible apply keeps_sweepModels | with_reducible apply keeps_sweepQueues
    | with_reducible apply keeps_sweepSessions | with_reducible apply keeps_sweepSwitches)

end Sys2Proof.Machine
end

