-- ==== Sys2Proof/Laws/KeepsLoad.lean ====
section
/-! SUPPORT. Sys2Proof/Laws/KeepsLoad.lean: each operation of Machine/Load.lean keeps what `Keeps` says. -/

namespace Sys2Proof.Machine

set_option simprocs false
set_option linter.all false

theorem keeps_modOpening {z0 : State} (s : State) (h : Nat) (f : Opening → Opening) (hK : Keeps z0 s) : Keeps z0 (modOpening
    s h f) := by
  unfold modOpening
  try dsimp only
  repeat' (first
    | with_reducible assumption | with_reducible apply keeps_ite | simp only [↓keeps_fields, ↓kept_self]
    | with_reducible apply keeps_onK | split)

theorem keeps_dropOpening {z0 : State} (s : State) (h : Nat) (hK : Keeps z0 s) : Keeps z0 (dropOpening s h) := by
  unfold dropOpening
  try dsimp only
  repeat' (first
    | with_reducible assumption | simp only [↓keeps_fields, ↓kept_self] | with_reducible apply keeps_onK)

theorem keeps_uncreateAll {z0 : State} (s : State) (o : Opening) (hK : Keeps z0 s) : Keeps z0 (uncreateAll s o) := by
  unfold uncreateAll
  try dsimp only
  repeat' (first
    | intro _ | with_reducible assumption | with_reducible apply keeps_uncreateObj
    | with_reducible apply keeps_foldl)

theorem keeps_failOpening {z0 : State} (s : State) (o : Opening) (status : Nat) (detail : Nat) (r0 : Nat) (hK : Keeps z0 s)
    : Keeps z0 (failOpening s o status detail r0) := by
  unfold failOpening
  try dsimp only
  repeat' (first
    | with_reducible assumption | with_reducible apply keeps_complete | with_reducible apply keeps_dropOpening
    | with_reducible apply keeps_uncreateAll)

theorem keeps_restoreSessions {z0 : State} (s : State) (i : Nat) (m : Model) (hK : Keeps z0 s) : Keeps z0 (restoreSessions s
    i m) := by
  unfold restoreSessions
  try dsimp only
  repeat' (first
    | intro _ | with_reducible assumption | simp only [↓keeps_fields, ↓kept_self]
    | refine keeps_allocFixed ?_ (by assumption) | with_reducible apply keeps_retireEntry
    | with_reducible apply keeps_onK | with_reducible apply keeps_foldl | split)

theorem keeps_endLoad {z0 : State} (s : State) (o : Opening) (head area : List Byte) (hK : Keeps z0 s) : Keeps z0 (endLoad s
    o head area) := by
  unfold endLoad
  try dsimp only
  repeat' (first
    | with_reducible assumption | with_reducible apply keeps_ite | simp only [↓keeps_fields, ↓kept_self]
    | refine keeps_loadImage ?_ (by assumption) | with_reducible apply keeps_failOpening
    | with_reducible apply keeps_onK | with_reducible apply keeps_restoreSessions
    | with_reducible apply keeps_complete | with_reducible apply keeps_keepOuts
    | with_reducible apply keeps_dropOpening | split)

theorem keeps_writeStore {z0 : State} (s : State) (o : Opening) (hK : Keeps z0 s) : Keeps z0 (writeStore s o) := by
  unfold writeStore
  try dsimp only
  repeat' (first
    | with_reducible assumption | simp only [↓keeps_fields, ↓kept_self] | refine keeps_newEntry ?_ (by assumption)
    | with_reducible apply keeps_failOpening | with_reducible apply keeps_startNvme
    | with_reducible apply keeps_modOpening | split)

theorem keeps_lastTile {z0 : State} (s : State) (o : Opening) (hK : Keeps z0 s) : Keeps z0 (lastTile s o) := by
  unfold lastTile
  try dsimp only
  repeat' (first
    | with_reducible assumption | with_reducible apply keeps_ite | with_reducible apply keeps_failOpening
    | with_reducible apply keeps_imageRefused | with_reducible apply keeps_writeStore
    | with_reducible apply keeps_endLoad | split)

theorem keeps_afterTiles {z0 : State} (s : State) (h : Nat) (had0 : Bool) (hK : Keeps z0 s) : Keeps z0 (afterTiles s h had0) := by
  unfold afterTiles
  try dsimp only
  repeat' (first
    | with_reducible assumption | with_reducible apply keeps_ite | simp only [↓keeps_fields, ↓kept_self]
    | with_reducible apply keeps_failOpening | with_reducible apply keeps_imageRefused
    | with_reducible apply keeps_lastTile | split)

theorem keeps_storeTiles {z0 : State} (s : State) (h first : Nat) (ts : List Tile) (hK : Keeps z0 s) : Keeps z0 (storeTiles
    s h first ts) := by
  unfold storeTiles
  try dsimp only
  repeat' (first
    | intro _ | with_reducible assumption | with_reducible apply keeps_ite | simp only [↓keeps_fields, ↓kept_self]
    | with_reducible apply keeps_modOpening | with_reducible apply keeps_lastTile | with_reducible apply keeps_foldl
    | split)

theorem keeps_openTiles {z0 : State} (s : State) (o : Opening) (ts : List Tile) (hK : Keeps z0 s) : Keeps z0 (openTiles s o
    ts) := by
  unfold openTiles
  try dsimp only
  repeat' (first
    | intro _ | with_reducible assumption | with_reducible apply keeps_ite | simp only [↓keeps_fields, ↓kept_self]
    | with_reducible apply keeps_complete | with_reducible apply keeps_withTiles
    | with_reducible apply keeps_openObjs | exact keepsP_openObjs (by assumption) (by assumption)
    | with_reducible apply keeps_lastTile | with_reducible apply keeps_afterTiles
    | with_reducible apply keeps_storeTiles | with_reducible apply keeps_onK | split)

theorem keeps_openStored {z0 : State} (s : State) (h p : Nat) (args : List Byte) (hK : Keeps z0 s) : Keeps z0 (openStored s
    h p args) := by
  unfold openStored
  try dsimp only
  repeat' (first
    | intro _ | with_reducible assumption | with_reducible apply keeps_ite | simp only [↓keeps_fields, ↓kept_self]
    | with_reducible apply keeps_complete | with_reducible apply keeps_openObjs
    | exact keepsP_openObjs (by assumption) (by assumption) | with_reducible apply keeps_lastTile
    | with_reducible apply keeps_startNvme | with_reducible apply keeps_onK | with_reducible apply keeps_getD
    | split)

theorem keeps_execLoadModel {z0 : State} {rq : Request} {head : List Byte} {s : State} (hK : Keeps z0 s) : KeepsE z0
    (execLoadModel rq head s) := by
  unfold execLoadModel
  try dsimp only
  repeat' (first
    | intro _ | with_reducible assumption | with_reducible apply keepsE_next | with_reducible apply keeps_ite
    | with_reducible apply keepsE_ite | with_reducible apply keeps_onRequest | with_reducible apply keeps_openTiles
    | with_reducible apply keeps_openStored | split)

theorem keeps_execStoreImage {z0 : State} {rq : Request} {head : List Byte} {s : State} (hK : Keeps z0 s) : KeepsE z0
    (execStoreImage rq head s) := by
  unfold execStoreImage
  try dsimp only
  repeat' (first
    | intro _ | with_reducible assumption | with_reducible apply keepsE_next | with_reducible apply keeps_ite
    | with_reducible apply keepsE_ite | with_reducible apply keeps_onRequest | with_reducible apply keeps_complete
    | with_reducible apply keeps_openTiles | split)

theorem keeps_execLoadData {z0 : State} {rq : Request} {s : State} (hK : Keeps z0 s) : KeepsE z0 (execLoadData rq s) := by
  unfold execLoadData
  try dsimp only
  repeat' (first
    | intro _ | with_reducible assumption | with_reducible apply keepsE_next | with_reducible apply keeps_ite
    | with_reducible apply keepsE_ite | simp only [↓keeps_fields, ↓kept_self] | with_reducible apply keeps_onRequest
    | with_reducible apply keeps_complete | with_reducible apply keeps_withTiles
    | with_reducible apply keeps_storeTiles | with_reducible apply keeps_afterTiles
    | with_reducible apply keeps_elim | split)

theorem keeps_execLoadImageTimeout {z0 : State} {handle : Nat} {s : State} (hK : Keeps z0 s) : KeepsE z0
    (execLoadImageTimeout handle s) := by
  unfold execLoadImageTimeout
  try dsimp only
  repeat' (first
    | intro _ | with_reducible assumption | with_reducible apply keepsE_next | with_reducible apply keeps_ite
    | with_reducible apply keepsE_ite | simp only [↓keeps_fields, ↓kept_self]
    | with_reducible apply keeps_failOpening | split)

theorem keeps_readEnded {z0 : State} (s : State) (o : Opening) (entry : Nat) (hK : Keeps z0 s) : Keeps z0 (readEnded s o
    entry) := by
  unfold readEnded
  try dsimp only
  repeat' (first
    | intro _ | with_reducible assumption | with_reducible apply keeps_ite | simp only [↓keeps_fields, ↓kept_self]
    | with_reducible apply keeps_failOpening | with_reducible apply keeps_imageRefused
    | with_reducible apply keeps_endLoad | with_reducible apply keeps_getD | split)

theorem keeps_writeEnded {z0 : State} (s : State) (o : Opening) (entry : Nat) (hK : Keeps z0 s) : Keeps z0 (writeEnded s o
    entry) := by
  unfold writeEnded
  try dsimp only
  repeat' (first
    | intro _ | with_reducible assumption | with_reducible apply keeps_ite | simp only [↓keeps_fields, ↓kept_self]
    | with_reducible apply keeps_onDisk | with_reducible apply keeps_retireEntry
    | with_reducible apply keeps_complete | with_reducible apply keeps_dropOpening | with_reducible apply keeps_elim
    | split)

theorem keeps_execNvmeCommandComplete {z0 : State} {id : Nat} {ok : Bool} {s : State} (hK : Keeps z0 s) : KeepsE z0
    (execNvmeCommandComplete id ok s) := by
  unfold execNvmeCommandComplete
  try dsimp only
  repeat' (first
    | intro _ | with_reducible assumption | with_reducible apply keepsE_next | with_reducible apply keeps_ite
    | with_reducible apply keepsE_ite | simp only [↓keeps_fields, ↓kept_self] | with_reducible apply keeps_onDisk
    | with_reducible apply keeps_sweepEntries | with_reducible apply keeps_failOpening
    | with_reducible apply keeps_freeEntry | with_reducible apply keeps_writeEnded
    | with_reducible apply keeps_readEnded | split | assumption)

theorem keeps_execUnloadModel {z0 : State} {rq : Request} {s : State} (hK : Keeps z0 s) : KeepsE z0 (execUnloadModel rq s) := by
  unfold execUnloadModel
  try dsimp only
  repeat' (first
    | intro _ | with_reducible assumption | with_reducible apply keepsE_next | with_reducible apply keeps_ite
    | with_reducible apply keepsE_ite | simp only [↓keeps_fields, ↓kept_self] | with_reducible apply keeps_onRequest
    | with_reducible apply keeps_complete | with_reducible apply keeps_sweepModels
    | with_reducible apply keeps_modModel | split)

end Sys2Proof.Machine
end

