-- ==== Sys2Proof/Laws/KeepsModeCtl.lean ====
section
/-! SUPPORT. Sys2Proof/Laws/KeepsModeCtl.lean: each operation of Machine/ModeCtl.lean keeps what `Keeps` says. -/

namespace Sys2Proof.Machine

set_option simprocs false
set_option linter.all false

theorem keeps_freeOldLogs {z0 : State} (s : State) (hK : Keeps z0 s) : Keeps z0 (freeOldLogs s) := by
  unfold freeOldLogs
  try dsimp only
  repeat' (first
    | intro _ | with_reducible assumption | with_reducible apply keeps_freeEntry | with_reducible apply keeps_foldl)

theorem keeps_saveLog {z0 : State} {s : State} {n : Nat} {v : Session} (hK : Keeps z0 s) {t_ : State} {y_} (e_ : saveLog s n
    v = some (t_, y_)) : Keeps z0 t_ := by
  unfold saveLog at e_
  try dsimp only at e_
  repeat' (first | cases e_ | split at e_ | (rw [Option.map_eq_some_iff] at e_; obtain ⟨a_, ha_, e_⟩ := e_) | (rw [Option.bind_eq_some_iff] at e_; obtain ⟨a_, ha_, e_⟩ := e_))
  all_goals repeat' (first
    | with_reducible assumption | simp only [↓keeps_fields, ↓kept_self] | refine keeps_newEntry ?_ (by assumption))

theorem keeps_saveLogs {z0 : State} {s : State} {a0_ : List (Nat × Session)} (hK : Keeps z0 s) {t_ : State} {y_} (e_ :
    saveLogs s a0_ = some (t_, y_)) : Keeps z0 t_ := by
  induction a0_ generalizing s t_ y_ with
  | nil =>
    unfold saveLogs at e_
    cases e_
    first | exact hK | done
  | cons a r ih =>
    unfold saveLogs at e_
    try dsimp only at e_
    repeat' (first | cases e_ | split at e_ | (rw [Option.map_eq_some_iff] at e_; obtain ⟨a_, ha_, e_⟩ := e_) | (rw [Option.bind_eq_some_iff] at e_; obtain ⟨a_, ha_, e_⟩ := e_))
    all_goals repeat' (first
      | with_reducible assumption | simp only [↓keeps_fields, ↓kept_self] | refine keeps_saveLog ?_ (by assumption)
      | (apply ih (e_ := by assumption))
      | split)

theorem keeps_buoyWork {z0 : State} {s : State} (hK : Keeps z0 s) {t_ : State} (e_ : buoyWork s = some t_) : Keeps z0 t_ := by
  unfold buoyWork at e_
  try dsimp only at e_
  repeat' (first | cases e_ | split at e_ | (rw [Option.map_eq_some_iff] at e_; obtain ⟨a_, ha_, e_⟩ := e_) | (rw [Option.bind_eq_some_iff] at e_; obtain ⟨a_, ha_, e_⟩ := e_))
  all_goals repeat' (first
    | intro _ | with_reducible assumption | with_reducible apply keeps_ite | simp only [↓keeps_fields, ↓kept_self]
    | with_reducible apply keeps_freeOldLogs | with_reducible apply keeps_goCold
    | refine keeps_saveLogs ?_ (by assumption) | with_reducible apply keeps_foldl | split)

theorem keeps_sleepRequests {z0 : State} (s : State) (hK : Keeps z0 s) : Keeps z0 (sleepRequests s) := by
  unfold sleepRequests
  try dsimp only
  repeat' (first
    | intro _ | with_reducible assumption | with_reducible apply keeps_ite | simp only [↓keeps_fields, ↓kept_self]
    | with_reducible apply keeps_foldl | split)

theorem keeps_endSetMode {z0 : State} (s : State) (status : Nat) (hK : Keeps z0 s) : Keeps z0 (endSetMode s status) := by
  unfold endSetMode
  try dsimp only
  repeat' (first
    | with_reducible assumption | with_reducible apply keeps_ite | simp only [↓keeps_fields, ↓kept_self]
    | with_reducible apply keeps_complete | with_reducible apply keeps_onK | split)

theorem keeps_checkSetMode {z0 : State} (s : State) (hK : Keeps z0 s) : Keeps z0 (checkSetMode s) := by
  unfold checkSetMode
  try dsimp only
  repeat' (first
    | with_reducible assumption | with_reducible apply keeps_ite | simp only [↓keeps_fields, ↓kept_self]
    | with_reducible apply keeps_endSetMode | split)

theorem keeps_floorBeacon {z0 : State} (s : State) (hK : Keeps z0 s) : Keeps z0 (floorBeacon s) := by
  unfold floorBeacon
  try dsimp only
  repeat' (first
    | with_reducible assumption | simp only [↓keeps_fields, ↓kept_self] | with_reducible apply keeps_endSetMode
    | with_reducible apply keeps_raiseEvent | with_reducible apply keeps_onAon)

theorem keeps_stepDown {z0 : State} (s : State) (goal : Mode) (hK : Keeps z0 s) : Keeps z0 (stepDown s goal) := by
  unfold stepDown
  try dsimp only
  repeat' (first
    | with_reducible assumption | with_reducible apply keeps_ite | simp only [↓keeps_fields, ↓kept_self]
    | with_reducible apply keeps_onAon | with_reducible apply keeps_floorBeacon
    | refine keeps_buoyWork ?_ (by assumption) | with_reducible apply keeps_sleepRequests | split)

theorem keeps_startDown {z0 : State} (s : State) (m : Mode) (hK : Keeps z0 s) : Keeps z0 (startDown s m) := by
  unfold startDown
  try dsimp only
  repeat' (first
    | with_reducible assumption | with_reducible apply keeps_ite | simp only [↓keeps_fields, ↓kept_self]
    | with_reducible apply keeps_onAon | with_reducible apply keeps_stepDown | split)

theorem keeps_modeReq {z0 : State} (s : State) (m : Mode) (hK : Keeps z0 s) : Keeps z0 (modeReq s m) := by
  unfold modeReq
  try dsimp only
  repeat' (first
    | with_reducible assumption | with_reducible apply keeps_ite | simp only [↓keeps_fields, ↓kept_self]
    | with_reducible apply keeps_onAon | with_reducible apply keeps_askUp | with_reducible apply keeps_startDown
    | split)

theorem keeps_tryLower {z0 : State} (s : State) (hK : Keeps z0 s) : Keeps z0 (tryLower s) := by
  unfold tryLower
  try dsimp only
  repeat' (first
    | with_reducible assumption | with_reducible apply keeps_ite | simp only [↓keeps_fields, ↓kept_self]
    | with_reducible apply keeps_checkSetMode | with_reducible apply keeps_modeReq | with_reducible apply keeps_onK
    | split)

theorem keeps_lowerTo {z0 : State} (s : State) (m : Mode) (hK : Keeps z0 s) : Keeps z0 (lowerTo s m) := by
  unfold lowerTo
  try dsimp only
  repeat' (first
    | with_reducible assumption | simp only [↓keeps_fields, ↓kept_self] | with_reducible apply keeps_tryLower
    | with_reducible apply keeps_onK)

theorem keeps_execModeRequest {z0 : State} {by_ : Req} {mode : Mode} {s : State} (hK : Keeps z0 s) : KeepsE z0
    (execModeRequest by_ mode s) := by
  unfold execModeRequest
  try dsimp only
  repeat' (first
    | intro _ | with_reducible assumption | with_reducible apply keepsE_next | with_reducible apply keeps_aonWrite
    | with_reducible apply keeps_checkSetMode | with_reducible apply keeps_modeReq)

end Sys2Proof.Machine
end

