-- ==== Sys2Proof/Laws/KeepsRebuild.lean ====
section
/-! SUPPORT. Sys2Proof/Laws/KeepsRebuild.lean: each operation of Machine/Rebuild.lean keeps what `Keeps` says. -/

namespace Sys2Proof.Machine

set_option simprocs false
set_option linter.all false

theorem keeps_rebuildObject {z0 : State} (s : State) (p n : Nat) (hK : Keeps z0 s) : Keeps z0 (rebuildObject s p n) := by
  unfold rebuildObject
  repeat' (first
    | with_reducible assumption | with_reducible apply keeps_writeObj | split)

theorem keeps_rebuildPage {z0 : State} (s : State) (key : Nat) (hK : Keeps z0 s) : Keeps z0 (rebuildPage s key) := by
  unfold rebuildPage
  repeat' (first
    | with_reducible assumption | with_reducible apply keeps_ite | with_reducible apply keeps_writeMem
    | with_reducible apply keeps_rollbackTo | split)

theorem keeps_loseSlot {z0 : State} (s : State) (n : Nat) (hK : Keeps z0 s) : Keeps z0 (loseSlot s n) := by
  unfold loseSlot
  try dsimp only
  repeat' (first
    | with_reducible assumption | with_reducible apply keeps_noteLoss | with_reducible apply keeps_modSession)

theorem keeps_stageAgain {z0 : State} (s : State) (hK : Keeps z0 s) : Keeps z0 (stageAgain s) := by
  unfold stageAgain
  repeat' (first
    | with_reducible assumption | simp only [↓keeps_fields, ↓kept_self] | with_reducible apply keeps_stageCopy | split)

theorem keeps_psramMismatch {z0 : State} (s : State) (t : TileLoc) (hK : Keeps z0 s) : Keeps z0 (psramMismatch s t) := by
  unfold psramMismatch
  repeat' (first
    | with_reducible assumption | with_reducible apply keeps_ite | simp only [↓keeps_fields, ↓kept_self]
    | with_reducible apply keeps_logCheck | with_reducible apply keeps_writeTile | split)
  exact keeps_kept hK id (FusesGrow.refl _) (Nat.le_refl _) (Nat.le_add_right _ _)

end Sys2Proof.Machine
end

