-- ==== Sys2Proof/Laws/KeepsJobs.lean ====
section
/-! SUPPORT. Sys2Proof/Laws/KeepsJobs.lean: each operation of Machine/Jobs.lean keeps what `Keeps` says. -/

namespace Sys2Proof.Machine

set_option simprocs false
set_option linter.all false

theorem keeps_claimAll {z0 : State} (s : State) (part model : Nat) (f : Nat → Nat) (hK : Keeps z0 s) : Keeps z0 (claimAll s
    part model f) := by
  unfold claimAll
  try dsimp only
  repeat' (first
    | intro _ | with_reducible assumption | simp only [↓keeps_fields, ↓kept_self]
    | with_reducible apply keeps_modObj | with_reducible apply keeps_foldl | split)

theorem keeps_releaseJob {z0 : State} (s : State) (x : Job) (hK : Keeps z0 s) : Keeps z0 (releaseJob s x) := by
  unfold releaseJob
  try dsimp only
  repeat' (first
    | intro _ | with_reducible assumption | with_reducible apply keeps_ite | simp only [↓keeps_fields, ↓kept_self]
    | with_reducible apply keeps_claimAll | with_reducible apply keeps_freeSeal | with_reducible apply keeps_foldl
    | split)

theorem keeps_purgeMsgs {z0 : State} (s : State) (q j : Nat) (hK : Keeps z0 s) : Keeps z0 (purgeMsgs s q j) := by
  unfold purgeMsgs
  try dsimp only
  repeat' (first
    | with_reducible assumption | simp only [↓keeps_fields, ↓kept_self] | with_reducible apply keeps_onFab)

theorem keeps_tellEnd {z0 : State} (s : State) (j : Nat) (x : Job) (good : Bool) (detail : Nat) (hK : Keeps z0 s) : Keeps z0
    (tellEnd s j x good detail) := by
  unfold tellEnd
  try dsimp only
  repeat' (first
    | intro _ | with_reducible assumption | with_reducible apply keeps_ite | simp only [↓keeps_fields, ↓kept_self]
    | with_reducible apply keeps_placeSend | with_reducible apply keeps_tellOthers
    | with_reducible apply keeps_purgeMsgs | split)

theorem keeps_endJob {z0 : State} (s : State) (j status detail r0 r1 : Nat) (hK : Keeps z0 s) : Keeps z0 (endJob s j status
    detail r0 r1) := by
  unfold endJob
  try dsimp only
  repeat' (first
    | with_reducible assumption | with_reducible apply keeps_ite | simp only [↓keeps_fields, ↓kept_self]
    | with_reducible apply keeps_rollback | with_reducible apply keeps_releaseJob
    | with_reducible apply keeps_modQueue | with_reducible apply keeps_modSession
    | with_reducible apply keeps_tellEnd | with_reducible apply keeps_onFab | with_reducible apply keeps_onK
    | with_reducible apply keeps_sweep | with_reducible apply keeps_deliver | with_reducible apply keeps_keepOuts
    | with_reducible exact fuses_rollback | split)

theorem keeps_extendSession {z0 : State} (s : State) (x : Job) (hK : Keeps z0 s) : Keeps z0 (extendSession s x) := by
  unfold extendSession
  try dsimp only
  repeat' (first
    | with_reducible assumption | simp only [↓keeps_fields, ↓kept_self] | with_reducible apply keeps_nextFree
    | with_reducible apply keeps_modSession | split)

theorem keeps_settleJob {z0 : State} (s : State) (j : Nat) (hK : Keeps z0 s) : Keeps z0 (settleJob s j) := by
  unfold settleJob
  try dsimp only
  repeat' (first
    | with_reducible assumption | with_reducible apply keeps_ite | simp only [↓keeps_fields, ↓kept_self]
    | with_reducible apply keeps_endJob | with_reducible apply keeps_extendSession | split)

theorem keeps_recalibrate {z0 : State} (s : State) (m tensor : Nat) (x : Model) (r : SatRec) (hK : Keeps z0 s) : Keeps z0
    (recalibrate s m tensor x r) := by
  unfold recalibrate
  try dsimp only
  repeat' (first
    | with_reducible assumption | with_reducible apply keeps_ite | simp only [↓keeps_fields, ↓kept_self]
    | with_reducible apply keeps_onK | with_reducible apply keeps_logAppend | split)

theorem keeps_mergeSats {z0 : State} (s : State) (j : Nat) (m program : Nat) (slots : SMap SatSlot) (hK : Keeps z0 s) :
    Keeps z0 (mergeSats s j m program slots) := by
  unfold mergeSats
  try dsimp only
  repeat' (first
    | intro _ | with_reducible assumption | with_reducible apply keeps_ite | simp only [↓keeps_fields, ↓kept_self]
    | with_reducible apply keeps_modJob | with_reducible apply keeps_onK | with_reducible apply keeps_recalibrate
    | with_reducible apply keeps_raiseEvent | with_reducible apply keeps_foldl | split)

theorem keeps_stopRun {z0 : State} (s : State) (c : Nat) (hK : Keeps z0 s) : Keeps z0 (stopRun s c) := by
  unfold stopRun
  try dsimp only
  repeat' (first
    | with_reducible assumption | simp only [↓keeps_fields, ↓kept_self] | with_reducible apply keeps_stopCore)

theorem keeps_stopRuns {z0 : State} (s : State) (f : Run → Bool) (hK : Keeps z0 s) : Keeps z0 (stopRuns s f) := by
  unfold stopRuns
  try dsimp only
  repeat' (first
    | intro _ | with_reducible assumption | with_reducible apply keeps_stopRun | with_reducible apply keeps_foldl)

theorem keeps_restoreSems {z0 : State} (s : State) (j : Nat) (hK : Keeps z0 s) : Keeps z0 (restoreSems s j) := by
  unfold restoreSems
  try dsimp only
  repeat' (first
    | intro _ | with_reducible assumption | with_reducible apply keeps_ite | simp only [↓keeps_fields, ↓kept_self]
    | with_reducible apply keeps_foldl | with_reducible apply keeps_elim | split)

theorem keeps_zeroWays {z0 : State} (s : State) (p : Nat) (hK : Keeps z0 s) : Keeps z0 (zeroWays s p) := by
  unfold zeroWays
  try dsimp only
  repeat' (first
    | intro _ | with_reducible assumption | with_reducible apply keeps_ite | simp only [↓keeps_fields, ↓kept_self]
    | with_reducible apply keeps_kept | with_reducible apply keeps_foldl | with_reducible apply keeps_getD
    | with_reducible exact FusesGrow.refl _ | with_reducible exact Nat.le_refl _
    | with_reducible exact Nat.le_add_right _ _ | with_reducible apply Memory.wf_clear | split | assumption)

theorem keeps_clearCore {z0 : State} (s : State) (c : Nat) (hK : Keeps z0 s) : Keeps z0 (clearCore s c) := by
  unfold clearCore
  try dsimp only
  repeat' (first
    | with_reducible assumption | simp only [↓keeps_fields, ↓kept_self] | with_reducible apply keeps_ctrlWrite)

theorem keeps_queueReplay {z0 : State} (s : State) (q steps : Nat) (hK : Keeps z0 s) : Keeps z0 (queueReplay s q steps) := by
  unfold queueReplay
  try dsimp only
  repeat' (first
    | intro _ | with_reducible assumption | with_reducible apply keeps_ite | simp only [↓keeps_fields, ↓kept_self]
    | with_reducible apply keeps_onK | with_reducible apply keeps_getD | with_reducible apply keeps_elim | split)

theorem keeps_dropReplay {z0 : State} (s : State) (q : Nat) (hK : Keeps z0 s) : Keeps z0 (dropReplay s q) := by
  unfold dropReplay
  try dsimp only
  repeat' (first
    | intro _ | with_reducible assumption | simp only [↓keeps_fields, ↓kept_self] | with_reducible apply keeps_onK
    | with_reducible apply keeps_foldl)

theorem keeps_restoreRows {z0 : State} (s : State) (q : Nat) (hK : Keeps z0 s) : Keeps z0 (restoreRows s q) := by
  unfold restoreRows
  try dsimp only
  repeat' (first
    | with_reducible assumption | with_reducible apply keeps_ite | simp only [↓keeps_fields, ↓kept_self]
    | with_reducible apply keeps_modQueue | with_reducible apply keeps_dropReplay | with_reducible apply keeps_onK
    | with_reducible apply keeps_queueReplay | split)

theorem keeps_partitionReset {z0 : State} (s : State) (p : Nat) (cause : Nat) (hK : Keeps z0 s) : Keeps z0 (partitionReset s
    p cause) := by
  unfold partitionReset
  try dsimp only
  repeat' (first
    | intro _ | with_reducible assumption | with_reducible apply keeps_ite | simp only [↓keeps_fields, ↓kept_self] | with_reducible apply keeps_stopRuns
    | with_reducible apply keeps_clearCore | with_reducible apply keeps_zeroWays
    | with_reducible apply keeps_restoreRows | with_reducible apply keeps_logAppend
    | with_reducible apply keeps_rcount | with_reducible apply keeps_foldl | split)

theorem keeps_teardown {z0 : State} (s : State) (q : Nat) (hK : Keeps z0 s) : Keeps z0 (teardown s q) := by
  unfold teardown
  try dsimp only
  repeat' (first
    | with_reducible assumption | with_reducible apply keeps_restoreRows | with_reducible apply keeps_stopRuns)

theorem keeps_resetFor {z0 : State} (s : State) (x : Job) (cause : Nat) (hK : Keeps z0 s) : Keeps z0 (resetFor s x cause) := by
  unfold resetFor
  try dsimp only
  repeat' (first
    | with_reducible assumption | with_reducible apply keeps_ite | with_reducible apply keeps_teardown
    | with_reducible apply keeps_partitionReset | split)

theorem keeps_retireCore {z0 : State} (s : State) (c : Nat) (hK : Keeps z0 s) : Keeps z0 (retireCore s c) := by
  unfold retireCore
  try dsimp only
  repeat' (first
    | with_reducible assumption | with_reducible apply keeps_ite | simp only [↓keeps_fields, ↓kept_self]
    | with_reducible apply keeps_ctrlWrite | with_reducible apply keeps_raiseEvent
    | with_reducible apply keeps_logAppend | split)

theorem keeps_coreFault {z0 : State} (s : State) (c : Nat) (hK : Keeps z0 s) : Keeps z0 (coreFault s c) := by
  unfold coreFault
  try dsimp only
  repeat' (first
    | intro _ | with_reducible assumption | with_reducible apply keeps_ite | simp only [↓keeps_fields, ↓kept_self]
    | with_reducible apply keeps_onK | with_reducible apply keeps_retireCore | with_reducible apply keeps_ctrlWrite
    | with_reducible apply keeps_getD | split)

theorem keeps_waitAgain {z0 : State} (s : State) (j cmd : Nat) (hK : Keeps z0 s) : Keeps z0 (waitAgain s j
    cmd) := by
  unfold waitAgain
  try dsimp only
  repeat' (first
    | with_reducible assumption | with_reducible apply keeps_ite | simp only [↓keeps_fields, ↓kept_self]
    | with_reducible apply keeps_modJob | split | assumption)

theorem keeps_noRun {z0 : State} (s : State) (j cmd : Nat) (hK : Keeps z0 s) : Keeps z0 (noRun s j cmd) := by
  unfold noRun
  try dsimp only
  repeat' (first
    | intro _ | with_reducible assumption | with_reducible apply keeps_ite | simp only [↓keeps_fields, ↓kept_self]
    | with_reducible apply keeps_modJob | split)

theorem keeps_runOver {z0 : State} (s : State) (r : Run) (x : Job) (hK : Keeps z0 s) : Keeps z0 (runOver s r x) := by
  unfold runOver
  try dsimp only
  repeat' (first
    | intro _ | with_reducible assumption | with_reducible apply keeps_ite | simp only [↓keeps_fields, ↓kept_self]
    | with_reducible apply keeps_noRun | with_reducible apply keeps_waitAgain | split)

theorem keeps_failJob {z0 : State} (s : State) (j detail cmd pc : Nat) (hK : Keeps z0 s) : Keeps z0 (failJob s j detail cmd
    pc) := by
  unfold failJob
  try dsimp only
  repeat' (first
    | with_reducible assumption | simp only [↓keeps_fields, ↓kept_self] | with_reducible apply keeps_modJob
    | with_reducible apply keeps_settleJob | with_reducible apply keeps_stopRuns)

theorem keeps_rerunProducer {z0 : State} (s : State) (j producer reader : Nat) (hK : Keeps z0 s) : Keeps z0 (rerunProducer s
    j producer reader) := by
  unfold rerunProducer
  try dsimp only
  repeat' (first
    | with_reducible assumption | with_reducible apply keeps_modJob | with_reducible apply keeps_ite
    | with_reducible apply keeps_waitAgain | split)

theorem keeps_initialStreams {z0 : State} (s : State) (q : Nat) (hK : Keeps z0 s) : Keeps z0 (initialStreams s q) := by
  unfold initialStreams
  try dsimp only
  repeat' (first
    | intro _ | with_reducible assumption | with_reducible apply keeps_foldl | with_reducible apply keeps_modSession
    | with_reducible apply keeps_modQueue | with_reducible apply keeps_dropReplay)

theorem keeps_keptTile {z0 : State} (s : State) (c j : Nat) (x : Job) (t : TileLoc) (tag : Nat) (hK : Keeps z0 s) : Keeps z0
    (keptTile s c j x t tag) := by
  unfold keptTile
  try dsimp only
  repeat' (first
    | intro _ | with_reducible assumption | with_reducible apply keeps_ite | with_reducible apply keeps_modJob
    | with_reducible apply keeps_settleJob | with_reducible apply keeps_stopRuns | with_reducible apply keeps_initialStreams
    | with_reducible apply keeps_foldl | split)

theorem keeps_rebuild {z0 : State} (s : State) (c : Nat) (r : Run) (x : Job) (hK : Keeps z0 s) : Keeps z0 (rebuild s c r x) := by
  unfold rebuild
  repeat' (first
    | with_reducible assumption | with_reducible apply keeps_rebuildObject | with_reducible apply keeps_rebuildPage
    | with_reducible apply keeps_rerunProducer | with_reducible apply keeps_loseSlot | with_reducible apply keeps_stageAgain
    | with_reducible apply keeps_psramMismatch | with_reducible apply keeps_keptTile | split)

theorem keeps_hardwareFault {z0 : State} (s : State) (c : Nat) (r : Run) (x : Job) (fault : Nat) (hK : Keeps z0 s) : Keeps
    z0 (hardwareFault s c r x fault) := by
  unfold hardwareFault
  try dsimp only
  repeat' (first
    | intro _ | with_reducible assumption | with_reducible apply keeps_ite | simp only [↓keeps_fields, ↓kept_self]
    | with_reducible apply keeps_logAppend | with_reducible apply keeps_nextFree | with_reducible apply keeps_onK
    | with_reducible apply keeps_runOver | with_reducible apply keeps_coreFault
    | with_reducible apply keeps_resetFor | with_reducible apply keeps_failJob | with_reducible apply keeps_rebuild
    | with_reducible apply keeps_getD
    | with_reducible apply keeps_elim | split | assumption)

theorem keeps_programFault {z0 : State} (s : State) (r : Run) (x : Job) (fault pc : Nat) (hK : Keeps z0 s) : Keeps z0
    (programFault s r x fault pc) := by
  unfold programFault
  try dsimp only
  repeat' (first
    | with_reducible assumption | with_reducible apply keeps_noRun | with_reducible apply keeps_failJob
    | with_reducible apply keeps_resetFor | assumption)

theorem keeps_settleSems {z0 : State} (s : State) (j : Nat) (hK : Keeps z0 s) : Keeps z0 (settleSems s j) := by
  unfold settleSems
  try dsimp only
  repeat' (first
    | intro _ | with_reducible assumption | with_reducible apply keeps_ite | simp only [↓keeps_fields, ↓kept_self]
    | with_reducible apply keeps_restoreSems | split)

theorem keeps_interruptRun {z0 : State} (s : State) (r : Run) (hK : Keeps z0 s) : Keeps z0 (interruptRun s r) := by
  unfold interruptRun
  try dsimp only
  repeat' (first
    | intro _ | with_reducible assumption | with_reducible apply keeps_ite | simp only [↓keeps_fields, ↓kept_self]
    | with_reducible apply keeps_settleJob | with_reducible apply keeps_settleSems | with_reducible apply keeps_runOver | split)

theorem keeps_commitCkpt {z0 : State} (s : State) (q : Nat) (members : List Nat) (hK : Keeps z0 s) : Keeps z0 (commitCkpt s
    q members) := by
  unfold commitCkpt
  try dsimp only
  repeat' (first
    | intro _ | with_reducible assumption | with_reducible apply keeps_ite | simp only [↓keeps_fields, ↓kept_self]
    | with_reducible apply keeps_modSession | with_reducible apply keeps_modQueue | with_reducible apply keeps_foldl
    | split)

theorem keeps_endReplay {z0 : State} (s : State) (j : Nat) (x : Job) (hK : Keeps z0 s) : Keeps z0 (endReplay s j x) := by
  unfold endReplay
  try dsimp only
  repeat' (first
    | with_reducible assumption | with_reducible apply keeps_ite | simp only [↓keeps_fields, ↓kept_self]
    | with_reducible apply keeps_onK | with_reducible apply keeps_queueReplay | split)

theorem keeps_streamTile {z0 : State} (s : State) (assoc h ix : Nat) (last : Bool) (t : Tile) (hK : Keeps z0 s) : Keeps z0
    (streamTile s assoc h ix last t) := by
  unfold streamTile
  try dsimp only
  repeat' (first
    | with_reducible assumption | with_reducible apply keeps_sendMsg)

theorem keeps_sendOuts {z0 : State} (s : State) (j : Nat) (ts : List Tile) (last : Bool) (hK : Keeps z0 s) : Keeps z0
    (sendOuts s j ts last) := by
  unfold sendOuts
  try dsimp only
  repeat' (first
    | intro _ | with_reducible assumption | with_reducible apply keeps_ite | simp only [↓keeps_fields, ↓kept_self]
    | with_reducible apply keeps_modJob | with_reducible apply keeps_streamTile | with_reducible apply keeps_foldl
    | split)

theorem keeps_commitPages {z0 : State} (s : State) (j cmd : Nat) (hK : Keeps z0 s) : Keeps z0 (commitPages s j cmd) := by
  unfold commitPages
  try dsimp only
  repeat' (first
    | intro _ | with_reducible assumption | with_reducible apply keeps_ite | simp only [↓keeps_fields, ↓kept_self]
    | with_reducible apply keeps_writeHeaders | with_reducible apply keeps_modJob
    | with_reducible apply keeps_commitPage | with_reducible apply keeps_failJob
    | with_reducible apply keeps_freeSeal | with_reducible apply keeps_foldl | with_reducible apply keeps_elim
    | split | assumption)

theorem keeps_cleanEnd {z0 : State} (s : State) (c : Nat) (r : Run) (x : Job) (t sh ww cause : Nat) (outs : List Tile) (hK :
    Keeps z0 s) : Keeps z0 (cleanEnd s c r x t sh ww cause outs) := by
  unfold cleanEnd
  try dsimp only
  repeat' (first
    | intro _ | with_reducible assumption | with_reducible apply keeps_ite | simp only [↓keeps_fields, ↓kept_self]
    | with_reducible apply keeps_mergeSats | with_reducible apply keeps_modJob | with_reducible apply keeps_onK
    | with_reducible apply keeps_sendOuts | with_reducible apply keeps_commitPages
    | with_reducible apply keeps_settleJob | with_reducible apply keeps_endReplay
    | with_reducible apply keeps_commitCkpt | with_reducible apply keeps_elim | split | assumption)

theorem keeps_countOverrun {z0 : State} (s : State) (c : Nat) (r : Run) (hK : Keeps z0 s) : Keeps z0 (countOverrun s c r) := by
  unfold countOverrun
  try dsimp only
  repeat' (first
    | intro _ | with_reducible assumption | with_reducible apply keeps_ite | simp only [↓keeps_fields, ↓kept_self]
    | with_reducible apply keeps_modQueue | with_reducible apply keeps_logAppend
    | with_reducible apply keeps_raiseEvent | with_reducible apply keeps_rcount | with_reducible apply keeps_foldl
    | split)

theorem keeps_countViolation {z0 : State} (s : State) (r : Run) (budget : Nat) (hK : Keeps z0 s) : Keeps z0 (countViolation
    s r budget) := by
  unfold countViolation
  try dsimp only
  repeat' (first
    | with_reducible assumption | with_reducible apply keeps_ite | simp only [↓keeps_fields, ↓kept_self]
    | with_reducible apply keeps_modQueue | with_reducible apply keeps_rcount | with_reducible apply keeps_rsetBits
    | with_reducible apply keeps_raiseEvent | split)

theorem keeps_countDonation {z0 : State} (s : State) (r : Run) (hK : Keeps z0 s) : Keeps z0 (countDonation s r) := by
  unfold countDonation
  try dsimp only
  repeat' (first
    | intro _ | with_reducible assumption | with_reducible apply keeps_ite | simp only [↓keeps_fields, ↓kept_self]
    | with_reducible apply keeps_modJob | with_reducible apply keeps_rcount | with_reducible apply keeps_modQueue
    | split)

theorem keeps_consumeMsgs {z0 : State} (s : State) (c : Nat) (clean : Bool) (hK : Keeps z0 s) : Keeps z0 (consumeMsgs s c
    clean) := by
  unfold consumeMsgs
  try dsimp only
  repeat' (first
    | with_reducible assumption | with_reducible apply keeps_ite | simp only [↓keeps_fields, ↓kept_self]
    | with_reducible apply keeps_onFab | with_reducible apply keeps_fabSendAll | split)

theorem keeps_takeEndReport {z0 : State} (s : State) (c : Nat) (outs : List Tile) (hK : Keeps z0 s) : Keeps z0
    (takeEndReport s c outs) := by
  unfold takeEndReport
  try dsimp only
  repeat' (first
    | intro _ | with_reducible assumption | with_reducible apply keeps_ite | simp only [↓keeps_fields, ↓kept_self]
    | with_reducible apply keeps_mbxTake | with_reducible apply keeps_countDonation
    | with_reducible apply keeps_countViolation | with_reducible apply keeps_countOverrun
    | with_reducible apply keeps_consumeMsgs | with_reducible apply keeps_hardwareFault
    | with_reducible apply keeps_programFault | with_reducible apply keeps_interruptRun
    | with_reducible apply keeps_settleJob | with_reducible apply keeps_settleSems
    | with_reducible apply keeps_cleanEnd | with_reducible apply keeps_tryLower
    | with_reducible apply keeps_reschedule | with_reducible apply keeps_elim | split | assumption)

end Sys2Proof.Machine
end

