-- ==== Sys2Proof/Laws/KeepsReset.lean ====
section
/-! SUPPORT. Sys2Proof/Laws/KeepsReset.lean: each operation of Machine/Reset.lean keeps what `Keeps` says. -/

namespace Sys2Proof.Machine

set_option simprocs false
set_option linter.all false

theorem keeps_mainReset {z0 : State} (s : State) (hK : Keeps z0 s) : Keeps z0 (mainReset s) := by
  unfold mainReset
  try dsimp only
  repeat' (first
    | intro _ | with_reducible assumption | simp only [↓keeps_fields, ↓kept_self] | with_reducible apply keeps_kept
    | with_reducible apply keeps_mainReset | with_reducible exact FusesGrow.refl _
    | with_reducible exact Nat.le_refl _ | with_reducible exact Nat.le_add_right _ _
    | with_reducible apply Memory.wf_writeBytes | with_reducible apply Memory.wf_clear
    | with_reducible apply Memory.wf_filter | with_reducible apply Memory.wf_writeCells | assumption
    | exact Nat.le_add_right _ _)

theorem keeps_mainOff {z0 : State} (s : State) (hK : Keeps z0 s) : Keeps z0 (mainOff s) := by
  unfold mainOff
  try dsimp only
  repeat' (first
    | with_reducible assumption | simp only [↓keeps_fields, ↓kept_self] | with_reducible apply keeps_mainReset)

theorem keeps_aonReset {z0 : State} (s : State) (hK : Keeps z0 s) : Keeps z0 (aonReset s) := by
  unfold aonReset
  try dsimp only
  repeat' (first
    | intro _ | with_reducible assumption | simp only [↓keeps_fields, ↓kept_self] | with_reducible apply keeps_kept
    | with_reducible apply keeps_mainReset | with_reducible exact FusesGrow.refl _
    | with_reducible exact Nat.le_refl _ | with_reducible exact Nat.le_add_right _ _
    | with_reducible apply Memory.wf_writeBytes | with_reducible apply Memory.wf_clear
    | with_reducible apply Memory.wf_filter | with_reducible apply Memory.wf_writeCells | split | assumption)

theorem keeps_execAonReset {z0 : State} {s : State} (hK : Keeps z0 s) : KeepsE z0 (execAonReset s) := by
  unfold execAonReset
  try dsimp only
  repeat' (first
    | intro _ | with_reducible assumption | with_reducible apply keepsE_next | with_reducible apply keeps_askUp
    | with_reducible apply keeps_aonReset)

theorem keeps_releaseMain {z0 : State} (s : State) (hK : Keeps z0 s) : Keeps z0 (releaseMain s) := by
  unfold releaseMain
  try dsimp only
  repeat' (first
    | with_reducible assumption | with_reducible apply keeps_ite | simp only [↓keeps_fields, ↓kept_self]
    | with_reducible apply keeps_mainReset | split)

theorem keeps_execMainPgRise {z0 : State} {s : State} (hK : Keeps z0 s) : KeepsE z0 (execMainPgRise s) := by
  unfold execMainPgRise
  try dsimp only
  repeat' (first
    | intro _ | with_reducible assumption | with_reducible apply keepsE_next | with_reducible apply keeps_ite
    | with_reducible apply keepsE_ite | simp only [↓keeps_fields, ↓kept_self]
    | with_reducible apply keeps_releaseMain | split)

theorem keeps_powerLost {z0 : State} (s : State) (again : Bool) (hK : Keeps z0 s) : Keeps z0 (powerLost s again) := by
  unfold powerLost
  try dsimp only
  repeat' (first
    | with_reducible assumption | simp only [↓keeps_fields, ↓kept_self] | with_reducible apply keeps_mainOff)

theorem keeps_execMainPgFall {z0 : State} {s : State} (hK : Keeps z0 s) : KeepsE z0 (execMainPgFall s) := by
  unfold execMainPgFall
  try dsimp only
  repeat' (first
    | intro _ | with_reducible assumption | with_reducible apply keepsE_next | with_reducible apply keeps_ite
    | with_reducible apply keepsE_ite | with_reducible apply keeps_powerLost | split)

theorem keeps_staysBuoy {z0 : State} (s : State) (hK : Keeps z0 s) : Keeps z0 (staysBuoy s) := by
  unfold staysBuoy
  try dsimp only
  repeat' (first
    | with_reducible assumption | simp only [↓keeps_fields, ↓kept_self] | with_reducible apply keeps_onAon)

theorem keeps_execMainPgTimeout {z0 : State} {s : State} (hK : Keeps z0 s) : KeepsE z0 (execMainPgTimeout s) := by
  unfold execMainPgTimeout
  try dsimp only
  repeat' (first
    | intro _ | with_reducible assumption | with_reducible apply keepsE_next | with_reducible apply keeps_ite
    | with_reducible apply keepsE_ite | simp only [↓keeps_fields, ↓kept_self] | with_reducible apply keeps_powerLost
    | with_reducible apply keeps_staysBuoy | split)

theorem keeps_execMainEnRetry {z0 : State} {s : State} (hK : Keeps z0 s) : KeepsE z0 (execMainEnRetry s) := by
  unfold execMainEnRetry
  try dsimp only
  repeat' (first
    | intro _ | with_reducible assumption | with_reducible apply keepsE_next | with_reducible apply keeps_ite
    | with_reducible apply keepsE_ite | simp only [↓keeps_fields, ↓kept_self] | split)

theorem keeps_execPorstNAssert {z0 : State} {s : State} (hK : Keeps z0 s) : KeepsE z0 (execPorstNAssert s) := by
  unfold execPorstNAssert
  try dsimp only
  repeat' (first
    | intro _ | with_reducible assumption | with_reducible apply keepsE_next | with_reducible apply keeps_ite
    | with_reducible apply keepsE_ite | simp only [↓keeps_fields, ↓kept_self] | with_reducible apply keeps_mainReset
    | split)

theorem keeps_execPorstNRelease {z0 : State} {s : State} (hK : Keeps z0 s) : KeepsE z0 (execPorstNRelease s) := by
  unfold execPorstNRelease
  try dsimp only
  repeat' (first
    | intro _ | with_reducible assumption | with_reducible apply keepsE_next | with_reducible apply keeps_ite
    | with_reducible apply keepsE_ite | simp only [↓keeps_fields, ↓kept_self] | with_reducible apply keeps_onAon
    | with_reducible apply keeps_releaseMain | split)

end Sys2Proof.Machine
end

