-- ==== Sys2Proof/Laws/KeepsModes.lean ====
section
/-! SUPPORT. Sys2Proof/Laws/KeepsModes.lean: each operation of Machine/Modes.lean keeps what `Keeps` says. -/

namespace Sys2Proof.Machine

set_option simprocs false
set_option linter.all false

theorem keeps_powerCore {z0 : State} (s : State) (c : Nat) (hK : Keeps z0 s) : Keeps z0 (powerCore s c) := by
  unfold powerCore
  try dsimp only
  repeat' (first
    | with_reducible assumption | with_reducible apply keeps_ite | simp only [↓keeps_fields, ↓kept_self]
    | with_reducible apply keeps_onCore | with_reducible apply keeps_retire | split)

theorem keeps_coreOff {z0 : State} (s : State) (c : Nat) (hK : Keeps z0 s) : Keeps z0 (coreOff s c) := by
  unfold coreOff
  try dsimp only
  repeat' (first
    | intro _ | with_reducible assumption | with_reducible apply keeps_setCore
    | with_reducible apply keeps_restoreRows | with_reducible apply keeps_foldl)

theorem keeps_wayOff {z0 : State} (s : State) (w : Nat) (hK : Keeps z0 s) : Keeps z0 (wayOff s w) := by
  unfold wayOff
  try dsimp only
  repeat' (first
    | intro _ | with_reducible assumption | simp only [↓keeps_fields, ↓kept_self] | with_reducible apply keeps_kept
    | with_reducible exact FusesGrow.refl _ | with_reducible exact Nat.le_refl _
    | with_reducible exact Nat.le_add_right _ _ | with_reducible apply Memory.wf_clear | assumption)

theorem keeps_pcieUp {z0 : State} (s : State) (hK : Keeps z0 s) : Keeps z0 (pcieUp s) := by
  unfold pcieUp
  try dsimp only
  repeat' (first
    | intro _ | with_reducible assumption | with_reducible apply keeps_ite | simp only [↓keeps_fields, ↓kept_self]
    | with_reducible apply keeps_kept | with_reducible apply keeps_onPcie | with_reducible apply keeps_linkUp
    | with_reducible apply keeps_getD | with_reducible exact FusesGrow.refl _ | with_reducible exact Nat.le_refl _
    | with_reducible exact Nat.le_add_right _ _ | split | assumption | exact Nat.le_add_right _ _)

theorem keeps_agconIdle {z0 : State} (s : State) (idle : Bool) (hK : Keeps z0 s) : Keeps z0 (agconIdle s idle) := by
  unfold agconIdle
  try dsimp only
  repeat' (first
    | intro _ | with_reducible assumption | with_reducible apply keeps_ite | simp only [↓keeps_fields, ↓kept_self]
    | with_reducible apply keeps_modFabPort | with_reducible apply keeps_foldl | split)

theorem keeps_powerUp {z0 : State} (s : State) (m : Mode) (hK : Keeps z0 s) : Keeps z0 (powerUp s m) := by
  unfold powerUp
  try dsimp only
  repeat' (first
    | intro _ | with_reducible assumption | with_reducible apply keeps_ite | with_reducible apply keeps_powerCore
    | with_reducible apply keeps_agconIdle | with_reducible apply keeps_pcieUp
    | with_reducible apply keeps_camToLantern | with_reducible apply keeps_camToBeacon
    | with_reducible apply keeps_foldl | split)

theorem keeps_powerDown {z0 : State} (s : State) (m : Mode) (hK : Keeps z0 s) : Keeps z0 (powerDown s m) := by
  unfold powerDown
  try dsimp only
  repeat' (first
    | intro _ | with_reducible assumption | with_reducible apply keeps_ite | with_reducible apply keeps_wayOff
    | with_reducible apply keeps_coreOff | with_reducible apply keeps_agconIdle
    | with_reducible apply keeps_linkDown | with_reducible apply keeps_camToBeacon
    | with_reducible apply keeps_foldl | split)

theorem keeps_askForJobs {z0 : State} (s : State) (hK : Keeps z0 s) : Keeps z0 (askForJobs s) := by
  unfold askForJobs
  try dsimp only
  repeat' (first
    | intro _ | with_reducible assumption | with_reducible apply keeps_ite | with_reducible apply keeps_askUp
    | with_reducible apply keeps_foldl | with_reducible apply keeps_elim | split)

theorem keeps_rescheduleAll {z0 : State} (s : State) (hK : Keeps z0 s) : Keeps z0 (rescheduleAll s) := by
  unfold rescheduleAll
  try dsimp only
  repeat' (first
    | intro _ | with_reducible assumption | with_reducible apply keeps_reschedule | with_reducible apply keeps_foldl)

theorem keeps_enterBuoy {z0 : State} (s : State) (hK : Keeps z0 s) : Keeps z0 (enterBuoy s) := by
  unfold enterBuoy
  try dsimp only
  repeat' (first
    | with_reducible assumption | with_reducible apply keeps_ite | simp only [↓keeps_fields, ↓kept_self]
    | with_reducible apply keeps_stageZero | with_reducible apply keeps_mainOff | split)

theorem keeps_takeWanted {z0 : State} (s : State) (hK : Keeps z0 s) : Keeps z0 (takeWanted s) := by
  unfold takeWanted
  try dsimp only
  repeat' (first
    | with_reducible assumption | simp only [↓keeps_fields, ↓kept_self] | with_reducible apply keeps_modeReq
    | with_reducible apply keeps_onAon | split)

theorem keeps_stepOn {z0 : State} (s : State) (goal : Mode) (w : Option Mode) (hK : Keeps z0 s) : Keeps z0 (stepOn s goal w) := by
  unfold stepOn
  try dsimp only
  repeat' (first
    | with_reducible assumption | simp only [↓keeps_fields, ↓kept_self] | with_reducible apply keeps_onAon
    | with_reducible apply keeps_stepUp)

theorem keeps_upDone {z0 : State} (s : State) (hK : Keeps z0 s) : Keeps z0 (upDone s) := by
  unfold upDone
  try dsimp only
  repeat' (first
    | with_reducible assumption | with_reducible apply keeps_ite | simp only [↓keeps_fields, ↓kept_self]
    | with_reducible apply keeps_powerUp | with_reducible apply keeps_latch | with_reducible apply keeps_onAon
    | with_reducible apply keeps_rescheduleAll | with_reducible apply keeps_checkSetMode
    | with_reducible apply keeps_stepOn | with_reducible apply keeps_askForJobs
    | with_reducible apply keeps_takeWanted | split)

theorem keeps_downDone {z0 : State} (s : State) (hK : Keeps z0 s) : Keeps z0 (downDone s) := by
  unfold downDone
  try dsimp only
  repeat' (first
    | with_reducible assumption | with_reducible apply keeps_ite | simp only [↓keeps_fields, ↓kept_self]
    | with_reducible apply keeps_powerDown | with_reducible apply keeps_onAon
    | with_reducible apply keeps_checkSetMode | with_reducible apply keeps_takeWanted
    | with_reducible apply keeps_enterBuoy | with_reducible apply keeps_stepDown
    | with_reducible apply keeps_rescheduleAll | with_reducible apply keeps_askForJobs | split)

theorem keeps_endTransition {z0 : State} (s : State) (hK : Keeps z0 s) : Keeps z0 (endTransition s) := by
  unfold endTransition
  try dsimp only
  repeat' (first
    | with_reducible assumption | with_reducible apply keeps_ite | with_reducible apply keeps_tryHandovers
    | with_reducible apply keeps_upDone | with_reducible apply keeps_downDone | split)

theorem keeps_execIdleHoldExpiry {z0 : State} {s : State} (hK : Keeps z0 s) : KeepsE z0 (execIdleHoldExpiry s) := by
  unfold execIdleHoldExpiry
  try dsimp only
  repeat' (first
    | intro _ | with_reducible assumption | with_reducible apply keepsE_next | with_reducible apply keeps_ite
    | with_reducible apply keepsE_ite | with_reducible apply keeps_lowerTo | split)

theorem keeps_execSetMode {z0 : State} {rq : Request} {s : State} (hK : Keeps z0 s) : KeepsE z0 (execSetMode rq s) := by
  unfold execSetMode
  try dsimp only
  repeat' (first
    | intro _ | with_reducible assumption | with_reducible apply keepsE_next | with_reducible apply keeps_ite
    | with_reducible apply keepsE_ite | simp only [↓keeps_fields, ↓kept_self] | with_reducible apply keeps_onRequest
    | with_reducible apply keeps_onK | with_reducible apply keeps_complete | with_reducible apply keeps_endSetMode
    | with_reducible apply keeps_checkSetMode | with_reducible apply keeps_lowerTo
    | with_reducible apply keeps_modeReq | split)

theorem keeps_candidateOpen {z0 : State} (s : State) (hK : Keeps z0 s) : Keeps z0 (candidateOpen s) := by
  unfold candidateOpen
  try dsimp only
  repeat' (first
    | with_reducible assumption | with_reducible apply keeps_ite | simp only [↓keeps_fields, ↓kept_self]
    | with_reducible apply keeps_onAon | split)

theorem keeps_execCandidateOpen {z0 : State} {by_ : Req} {s : State} (hK : Keeps z0 s) : KeepsE z0 (execCandidateOpen by_ s) := by
  unfold execCandidateOpen
  try dsimp only
  repeat' (first
    | intro _ | with_reducible assumption | with_reducible apply keepsE_next | with_reducible apply keeps_aonWrite
    | with_reducible apply keeps_candidateOpen)

theorem keeps_closeCandidate {z0 : State} (s : State) (hK : Keeps z0 s) : Keeps z0 (closeCandidate s) := by
  unfold closeCandidate
  try dsimp only
  repeat' (first
    | with_reducible assumption | simp only [↓keeps_fields, ↓kept_self] | with_reducible apply keeps_tryHandovers
    | with_reducible apply keeps_onAon | with_reducible apply keeps_checkSetMode
    | with_reducible apply keeps_startDown | split)

theorem keeps_execCandidateClose {z0 : State} {by_ : Req} {s : State} (hK : Keeps z0 s) : KeepsE z0 (execCandidateClose by_
    s) := by
  unfold execCandidateClose
  try dsimp only
  repeat' (first
    | intro _ | with_reducible assumption | with_reducible apply keepsE_next | with_reducible apply keeps_ite
    | with_reducible apply keepsE_ite | with_reducible apply keeps_aonWrite
    | with_reducible apply keeps_closeCandidate | split)

theorem keeps_execCandidateExpiry {z0 : State} {s : State} (hK : Keeps z0 s) : KeepsE z0 (execCandidateExpiry s) := by
  unfold execCandidateExpiry
  try dsimp only
  repeat' (first
    | intro _ | with_reducible assumption | with_reducible apply keepsE_next | with_reducible apply keeps_ite
    | with_reducible apply keepsE_ite | with_reducible apply keeps_closeCandidate | split)

theorem keeps_execDeferredDownTimeout {z0 : State} {s : State} (hK : Keeps z0 s) : KeepsE z0 (execDeferredDownTimeout s) := by
  unfold execDeferredDownTimeout
  try dsimp only
  repeat' (first
    | intro _ | with_reducible assumption | with_reducible apply keepsE_next | with_reducible apply keeps_ite
    | with_reducible apply keepsE_ite | simp only [↓keeps_fields, ↓kept_self]
    | with_reducible apply keeps_checkSetMode | with_reducible apply keeps_stepDown
    | with_reducible apply keeps_onAon | split)

theorem keeps_dspPost {z0 : State} (s : State) (type : Nat) (m : DspMsg) (hK : Keeps z0 s) : Keeps z0 (dspPost s type m).1 := by
  unfold dspPost
  try dsimp only
  repeat' (first
    | intro _ | with_reducible assumption | with_reducible apply keeps_ite | simp only [↓keeps_fields, ↓kept_self]
    | with_reducible apply keeps_mbxWords | with_reducible apply keeps_mbxWrite | with_reducible apply keeps_foldl
    | with_reducible apply keeps_getD | split)

theorem keepsP_dspPost {z0 : State} (s : State) (type : Nat) (m : DspMsg) (hK : Keeps z0 s) {t_ : State} {y_} (e_ : dspPost
    s type m = (t_, y_)) : Keeps z0 t_ := by
  have := keeps_dspPost (s := s) (type := type) (m := m)  hK
  rw [e_] at this
  exact this

theorem keeps_wakeUp {z0 : State} (s : State) (cause : Nat) (hK : Keeps z0 s) : Keeps z0 (wakeUp s cause) := by
  unfold wakeUp
  try dsimp only
  repeat' (first
    | with_reducible assumption | with_reducible apply keeps_ite | with_reducible apply keeps_askUp)

theorem keeps_onWake {z0 : State} (s : State) (type cause : Nat) (m : DspMsg) (hK : Keeps z0 s) : Keeps z0 (onWake s type
    cause m) := by
  unfold onWake
  try dsimp only
  repeat' (first
    | with_reducible assumption | with_reducible apply keeps_ite | with_reducible apply keeps_dspPost
    | exact keepsP_dspPost (by assumption) (by assumption) | with_reducible apply keeps_latch
    | with_reducible apply keeps_openGate | with_reducible apply keeps_checkSetMode
    | with_reducible apply keeps_wakeUp | with_reducible apply keeps_stageCopy | split)

theorem keeps_execWake {z0 : State} {m : DspMsg} {s : State} (hK : Keeps z0 s) : KeepsE z0 (execWake m s) := by
  unfold execWake
  try dsimp only
  repeat' (first
    | intro _ | with_reducible assumption | with_reducible apply keepsE_next | with_reducible apply keeps_onWake)

theorem keeps_execEvent {z0 : State} {m : DspMsg} {s : State} (hK : Keeps z0 s) : KeepsE z0 (execEvent m s) := by
  unfold execEvent
  try dsimp only
  repeat' (first
    | intro _ | with_reducible assumption | with_reducible apply keepsE_next | with_reducible apply keeps_onWake)

theorem keeps_execClosed {z0 : State} {m : DspMsg} {s : State} (hK : Keeps z0 s) : KeepsE z0 (execClosed m s) := by
  unfold execClosed
  try dsimp only
  repeat' (first
    | intro _ | with_reducible assumption | with_reducible apply keepsE_next | with_reducible apply keeps_ite
    | with_reducible apply keepsE_ite | with_reducible apply keeps_dspPost
    | exact keepsP_dspPost (by assumption) (by assumption) | split)

theorem keeps_execWakeVerdict {z0 : State} {number : BitVec 16} {confirmed : Bool} {s : State} (hK : Keeps z0 s) : KeepsE z0
    (execWakeVerdict number confirmed s) := by
  unfold execWakeVerdict
  try dsimp only
  repeat' (first
    | intro _ | with_reducible assumption | with_reducible apply keepsE_next | with_reducible apply keeps_ite
    | with_reducible apply keepsE_ite | with_reducible apply keeps_keeperPost | with_reducible apply keeps_mbxTake
    | with_reducible apply keeps_closeCandidate | with_reducible apply keeps_closeGate | split)

theorem keeps_execTc10Wakeup {z0 : State} {port : Fin 2} {s : State} (hK : Keeps z0 s) : KeepsE z0 (execTc10Wakeup port s) := by
  unfold execTc10Wakeup
  try dsimp only
  repeat' (first
    | intro _ | with_reducible assumption | with_reducible apply keepsE_next | with_reducible apply keeps_ite
    | with_reducible apply keepsE_ite | simp only [↓keeps_fields, ↓kept_self] | with_reducible apply keeps_askUp
    | with_reducible apply keeps_modPort | split)

end Sys2Proof.Machine
end

