-- ==== Sys2Proof/Laws/KeepsMove.lean ====
section
/-! SUPPORT. Sys2Proof/Laws/KeepsMove.lean: each operation of Machine/Move.lean keeps what `Keeps` says. -/

namespace Sys2Proof.Machine

set_option simprocs false
set_option linter.all false

theorem keeps_relinkTable {z0 : State} (s : State) (v : Session) (hK : Keeps z0 s) : Keeps z0 (relinkTable s v) := by
  unfold relinkTable
  try dsimp only
  repeat' (first
    | intro _ | with_reducible assumption | with_reducible apply keeps_ite | simp only [↓keeps_fields, ↓kept_self]
    | with_reducible apply keeps_writeMem | with_reducible apply keeps_foldl | split)

theorem keeps_applyMoves {z0 : State} (s : State) (l : List (Nat × Nat)) (hK : Keeps z0 s) : Keeps z0 (applyMoves s l) := by
  unfold applyMoves
  try dsimp only
  repeat' (first
    | intro _ | with_reducible assumption | with_reducible apply keeps_ite | simp only [↓keeps_fields, ↓kept_self]
    | with_reducible apply keeps_kept | with_reducible apply keeps_relinkTable | with_reducible apply keeps_syncPage
    | with_reducible apply keeps_foldl | with_reducible exact FusesGrow.refl _ | with_reducible exact Nat.le_refl _
    | with_reducible exact Nat.le_add_right _ _ | with_reducible apply Memory.wf_writeBytes
    | with_reducible apply Memory.wf_clear | with_reducible apply Memory.wf_filter
    | with_reducible apply Memory.wf_writeCells | unfold moveBytes | split | assumption)

theorem keeps_moveOut {z0 : State} {s : State} {p : Nat} {f : Nat → Bool} {units : List Nat} (hK : Keeps z0 s) {t_ : State}
    (e_ : moveOut s p f units = some t_) : Keeps z0 t_ := by
  unfold moveOut at e_
  try dsimp only at e_
  repeat' (first | cases e_ | split at e_ | (rw [Option.map_eq_some_iff] at e_; obtain ⟨a_, ha_, e_⟩ := e_) | (rw [Option.bind_eq_some_iff] at e_; obtain ⟨a_, ha_, e_⟩ := e_))
  all_goals repeat' (first
    | with_reducible assumption | with_reducible apply keeps_applyMoves)

theorem keeps_moveBlock {z0 : State} {s : State} {i : Item} {cs : List Nat} {k : Nat} (hK : Keeps z0 s) {t_ : State} (e_ :
    moveBlock s i cs k = some t_) : Keeps z0 t_ := by
  unfold moveBlock at e_
  try dsimp only at e_
  repeat' (first | cases e_ | split at e_ | (rw [Option.map_eq_some_iff] at e_; obtain ⟨a_, ha_, e_⟩ := e_) | (rw [Option.bind_eq_some_iff] at e_; obtain ⟨a_, ha_, e_⟩ := e_))
  all_goals repeat' (first
    | intro _ | with_reducible assumption | with_reducible apply keeps_ite | simp only [↓keeps_fields, ↓kept_self]
    | with_reducible apply keeps_setDeep | with_reducible apply keeps_getD | split)

theorem keeps_moveItemBlocks {s0 : State} {named cs : List Nat} {o : Option State} {i : Item} (hK : KeepsO s0 o) :
    KeepsO s0 (moveItemBlocks named cs o i) := by
  unfold moveItemBlocks
  refine keepsO_bind hK fun s hs => ?_
  split
  · exact keepsO_some hs
  · refine keepsO_foldl (fun o k ho => keepsO_bind ho fun t ht => ?_) _ (keepsO_some hs)
    split
    · exact ⟨fun u e => keeps_moveBlock ht e⟩
    · exact keepsO_some ht

theorem keeps_moveDeep {s0 : State} {s : State} {p : Nat} {named : List Nat} (hK : Keeps s0 s) {t_ : State}
    (e_ : moveDeep s p named = some t_) : Keeps s0 t_ := by
  unfold moveDeep at e_
  exact (keepsO_foldl (fun o x ho => keeps_moveItemBlocks ho) _ (keepsO_some hK)).out e_

end Sys2Proof.Machine
end

