-- ==== Sys2Proof/Laws/KeepsScrub.lean ====
section
/-! SUPPORT. Sys2Proof/Laws/KeepsScrub.lean: each operation of Machine/Scrub.lean keeps what `Keeps` says. -/

namespace Sys2Proof.Machine

set_option simprocs false
set_option linter.all false

theorem keeps_onRas {z0 : State} (s : State) (f : Ras → Ras) (hK : Keeps z0 s) : Keeps z0 (onRas s f) := by
  unfold onRas
  try dsimp only
  repeat' (first
    | with_reducible assumption | simp only [↓keeps_fields, ↓kept_self])

theorem keeps_countCorr {z0 : State} (s : State) (k n : Nat) (hK : Keeps z0 s) : Keeps z0 (countCorr s k n) := by
  unfold countCorr
  try dsimp only
  repeat' (first
    | intro _ | with_reducible assumption | simp only [↓keeps_fields, ↓kept_self] | with_reducible apply keeps_onRas
    | with_reducible apply keeps_getD)

theorem keeps_countUncorr {z0 : State} (s : State) (k n : Nat) (hK : Keeps z0 s) : Keeps z0 (countUncorr s k n) := by
  unfold countUncorr
  try dsimp only
  repeat' (first
    | intro _ | with_reducible assumption | simp only [↓keeps_fields, ↓kept_self] | with_reducible apply keeps_onRas
    | with_reducible apply keeps_getD)

theorem keeps_refill {z0 : State} (s : State) (i : Item) (hK : Keeps z0 s) : Keeps z0 (refill s i) := by
  unfold refill
  try dsimp only
  repeat' (first
    | with_reducible assumption | with_reducible apply keeps_ite | simp only [↓keeps_fields, ↓kept_self]
    | with_reducible apply keeps_writeObj | split)

theorem keeps_vacate {z0 : State} (s : State) (f : Nat) (hK : Keeps z0 s) : Keeps z0 (vacate s f) := by
  unfold vacate
  try dsimp only
  repeat' (first
    | intro _ | with_reducible assumption | with_reducible apply keeps_ite | simp only [↓keeps_fields, ↓kept_self]
    | with_reducible apply keeps_demote | with_reducible apply keeps_refill
    | refine keeps_moveOut ?_ (by assumption) | with_reducible apply keeps_getD | split)

theorem keeps_retireFrame {z0 : State} (s : State) (f : Nat) (hK : Keeps z0 s) : Keeps z0 (retireFrame s f) := by
  unfold retireFrame
  try dsimp only
  repeat' (first
    | intro _ | with_reducible assumption | with_reducible apply keeps_ite | simp only [↓keeps_fields, ↓kept_self]
    | with_reducible apply keeps_raiseEvent | with_reducible apply keeps_logAppend
    | with_reducible apply keeps_vacate | with_reducible apply keeps_getD | split)

theorem keeps_frameCorr {z0 : State} (s : State) (a : Nat) (hK : Keeps z0 s) : Keeps z0 (frameCorr s a) := by
  unfold frameCorr
  try dsimp only
  repeat' (first
    | intro _ | with_reducible assumption | with_reducible apply keeps_ite | simp only [↓keeps_fields, ↓kept_self]
    | with_reducible apply keeps_countCorr | with_reducible apply keeps_retireFrame
    | with_reducible apply keeps_getD | split)

theorem keeps_frameUncorr {z0 : State} (s : State) (a : Nat) (hK : Keeps z0 s) : Keeps z0 (frameUncorr s a) := by
  unfold frameUncorr
  try dsimp only
  repeat' (first
    | with_reducible assumption | simp only [↓keeps_fields, ↓kept_self] | with_reducible apply keeps_countUncorr
    | with_reducible apply keeps_retireFrame)

theorem keeps_execHbmPatrolScrub {z0 : State} {corr uncorr : List Nat} {done : Nat} {s : State} (hK : Keeps z0 s) : KeepsE
    z0 (execHbmPatrolScrub corr uncorr done s) := by
  unfold execHbmPatrolScrub
  try dsimp only
  repeat' (first
    | intro _ | with_reducible assumption | with_reducible apply keepsE_next | with_reducible apply keeps_ite
    | with_reducible apply keepsE_ite | simp only [↓keeps_fields, ↓kept_self] | with_reducible apply keeps_frameCorr
    | with_reducible apply keeps_frameUncorr | with_reducible apply keeps_onRas | with_reducible apply keeps_foldl
    | split)

theorem keeps_deepBad {z0 : State} (s : State) (i : Item) (bad : List DeepRead) (hK : Keeps z0 s) : Keeps z0 (deepBad s i
    bad) := by
  unfold deepBad
  try dsimp only
  repeat' (first
    | intro _ | with_reducible assumption | with_reducible apply keeps_ite | simp only [↓keeps_fields, ↓kept_self]
    | with_reducible apply keeps_failPromo | with_reducible apply keeps_logAppend | with_reducible apply keeps_onMem
    | with_reducible apply keeps_setDeep | with_reducible apply keeps_foldl | with_reducible apply keeps_elim
    | split)

theorem keeps_execDeepPatrolScrub {z0 : State} {item : Item} {reads : List DeepRead} {done : Nat} {s : State} (hK : Keeps z0
    s) : KeepsE z0 (execDeepPatrolScrub item reads done s) := by
  unfold execDeepPatrolScrub
  try dsimp only
  repeat' (first
    | intro _ | with_reducible assumption | with_reducible apply keepsE_next | with_reducible apply keeps_ite
    | with_reducible apply keepsE_ite | simp only [↓keeps_fields, ↓kept_self] | with_reducible apply keeps_relocate
    | with_reducible apply keeps_countReads | with_reducible apply keeps_deepBad | with_reducible apply keeps_onRas
    | with_reducible apply keeps_foldl | with_reducible apply keeps_elim | split)

theorem keeps_execScrubLate {z0 : State} {deep : Bool} {s : State} (hK : Keeps z0 s) : KeepsE z0 (execScrubLate deep s) := by
  unfold execScrubLate
  try dsimp only
  repeat' (first
    | intro _ | with_reducible assumption | with_reducible apply keepsE_next | with_reducible apply keeps_ite
    | with_reducible apply keepsE_ite | simp only [↓keeps_fields, ↓kept_self]
    | with_reducible apply keeps_raiseEvent | with_reducible apply keeps_onRas | split)

theorem keeps_retireWay {z0 : State} (s : State) (w : Nat) (hK : Keeps z0 s) : Keeps z0 (retireWay s w) := by
  unfold retireWay
  try dsimp only
  repeat' (first
    | intro _ | with_reducible assumption | simp only [↓keeps_fields, ↓kept_self] | with_reducible apply keeps_onRas
    | with_reducible apply keeps_raiseEvent | with_reducible apply keeps_logAppend | with_reducible apply keeps_getD)

theorem keeps_unbounded {z0 : State} (s : State) (p : Nat) (hK : Keeps z0 s) : Keeps z0 (unbounded s p) := by
  unfold unbounded
  try dsimp only
  repeat' (first
    | intro _ | with_reducible assumption | with_reducible apply keeps_ite
    | with_reducible apply keeps_partitionReset | with_reducible apply keeps_teardown
    | with_reducible apply keeps_foldl | split)

theorem keeps_wayFault {z0 : State} (s : State) (w : Nat) (hK : Keeps z0 s) : Keeps z0 (wayFault s w) := by
  unfold wayFault
  try dsimp only
  repeat' (first
    | intro _ | with_reducible assumption | with_reducible apply keeps_ite | simp only [↓keeps_fields, ↓kept_self]
    | with_reducible apply keeps_onRas | with_reducible apply keeps_unbounded | with_reducible apply keeps_retireWay
    | with_reducible apply keeps_getD | split)

theorem keeps_dspRestart {z0 : State} (s : State) (hK : Keeps z0 s) : Keeps z0 (dspRestart s) := by
  unfold dspRestart
  try dsimp only
  repeat' (first
    | with_reducible assumption | with_reducible apply keeps_askHandover | with_reducible apply keeps_raiseEvent
    | with_reducible apply keeps_trialFault)

theorem keeps_scrubRows {z0 : State} (s : State) (c : Nat) (hK : Keeps z0 s) : Keeps z0 (scrubRows s c) := by
  unfold scrubRows
  try dsimp only
  repeat' (first
    | intro _ | with_reducible assumption | with_reducible apply keeps_onCore | with_reducible apply keeps_foldl)

theorem keeps_sramError {s0 : State} (s : State) (e : SramPlace × Bool) (hK : Keeps s0 s) : Keeps s0 (sramError s e) := by
  obtain ⟨x, b⟩ := e
  cases x with
  | rows c => cases b <;> exact keeps_scrubRows _ _ hK
  | ssr w =>
    cases b
    · exact keeps_countCorr _ _ _ hK
    · exact keeps_wayFault _ _ (keeps_countUncorr _ _ _ hK)
  | semaphore n =>
    cases b
    · exact keeps_countCorr _ _ _ hK
    · show Keeps s0 (match SMap.get? s.sems n.val with
        | some m => if m.part = 0 then teardown (countUncorr s 0 1) m.ownerQueue else partitionReset (countUncorr s 0 1) m.part 0
        | none => countUncorr s 0 1)
      cases SMap.get? s.sems n.val with
      | none => exact keeps_countUncorr _ _ _ hK
      | some m =>
        refine keeps_ite ?_ ?_
        · exact keeps_teardown _ _ (keeps_countUncorr _ _ _ hK)
        · exact keeps_partitionReset _ _ _ (keeps_countUncorr _ _ _ hK)
  | aonSram =>
    cases b
    · exact keeps_countCorr _ _ _ hK
    · exact keeps_dspRestart _ (keeps_countUncorr _ _ _ hK)
  | sessionTable =>
    cases b
    · exact keeps_countCorr _ _ _ hK
    · exact keeps_countUncorr _ _ _ hK
  | keeperSram =>
    cases b
    · exact keeps_countCorr _ _ _ hK
    · exact keeps_countUncorr _ _ _ hK

theorem keeps_execSramScrub {z0 : State} {found : List (SramPlace × Bool)} {s : State} (hK : Keeps z0 s) : KeepsE z0
    (execSramScrub found s) := by
  unfold execSramScrub
  try dsimp only
  repeat' (first
    | intro _ | with_reducible assumption | with_reducible apply keepsE_next | with_reducible apply keeps_ite
    | with_reducible apply keepsE_ite | with_reducible apply keeps_sramError | with_reducible apply keeps_foldl
    | split)

theorem keeps_execMramWearRemap {z0 : State} {block : Fin 2048} {s : State} (hK : Keeps z0 s) : KeepsE z0 (execMramWearRemap
    block s) := by
  unfold execMramWearRemap
  try dsimp only
  repeat' (first
    | intro _ | with_reducible assumption | with_reducible apply keepsE_next | with_reducible apply keeps_ite
    | with_reducible apply keepsE_ite | simp only [↓keeps_fields, ↓kept_self] | with_reducible apply keeps_onRas
    | split)

theorem keeps_execInterfaceCalibration {z0 : State} {ifc : Fin 10} {temp : Int} {s : State} (hK : Keeps z0 s) : KeepsE z0
    (execInterfaceCalibration ifc temp s) := by
  unfold execInterfaceCalibration
  try dsimp only
  repeat' (first
    | intro _ | with_reducible assumption | with_reducible apply keepsE_next | with_reducible apply keeps_ite
    | with_reducible apply keepsE_ite | simp only [↓keeps_fields, ↓kept_self] | with_reducible apply keeps_onRas
    | split)

theorem keeps_execMonitorRecalibration {z0 : State} {trims : List (Nat × List Byte)} {s : State} (hK : Keeps z0 s) : KeepsE
    z0 (execMonitorRecalibration trims s) := by
  unfold execMonitorRecalibration
  try dsimp only
  repeat' (first
    | intro _ | with_reducible assumption | with_reducible apply keepsE_next | with_reducible apply keeps_ite
    | with_reducible apply keepsE_ite | simp only [↓keeps_fields, ↓kept_self] | with_reducible apply keeps_onRas
    | with_reducible apply keeps_foldl | split)

end Sys2Proof.Machine
end

