-- ==== Sys2Proof/Laws/KeepsLogs.lean ====
section
/-! SUPPORT. Sys2Proof/Laws/KeepsLogs.lean: each operation of Machine/Logs.lean keeps what `Keeps` says. -/

namespace Sys2Proof.Machine

set_option simprocs false
set_option linter.all false

theorem keeps_returnTiles {z0 : State} (s : State) (h : Nat) (ts : List Tile) (hK : Keeps z0 s) : Keeps z0 (returnTiles s h
    ts) := by
  unfold returnTiles
  try dsimp only
  repeat' (first
    | intro _ | with_reducible assumption | simp only [↓keeps_fields, ↓kept_self]
    | with_reducible apply keeps_keepOuts | with_reducible apply keeps_streamTile | with_reducible apply keeps_foldl
    | split)

theorem keeps_execReadRecords {z0 : State} {rq : Request} {s : State} (hK : Keeps z0 s) : KeepsE z0 (execReadRecords rq s) := by
  unfold execReadRecords
  try dsimp only
  repeat' (first
    | intro _ | with_reducible assumption | with_reducible apply keepsE_next | with_reducible apply keeps_ite
    | with_reducible apply keepsE_ite | simp only [↓keeps_fields, ↓kept_self] | with_reducible apply keeps_kept
    | with_reducible apply keeps_onRequest | with_reducible apply keeps_complete
    | with_reducible apply keeps_returnTiles | with_reducible apply keeps_elim
    | with_reducible exact FusesGrow.refl _ | with_reducible exact Nat.le_refl _
    | with_reducible exact Nat.le_add_right _ _ | split | assumption | exact Nat.le_add_right _ _)

theorem keeps_execLogbookDropSummary {z0 : State} {s : State} (hK : Keeps z0 s) : KeepsE z0 (execLogbookDropSummary s) := by
  unfold execLogbookDropSummary
  try dsimp only
  repeat' (first
    | intro _ | with_reducible assumption | with_reducible apply keepsE_next | with_reducible apply keeps_ite
    | with_reducible apply keepsE_ite | simp only [↓keeps_fields, ↓kept_self] | with_reducible apply keeps_kept
    | with_reducible apply keeps_logAppend | with_reducible exact FusesGrow.refl _
    | with_reducible exact Nat.le_refl _ | with_reducible exact Nat.le_add_right _ _ | split | assumption)

theorem keeps_applyCal {z0 : State} (s : State) (slot : Nat) (data : List Byte) (hK : Keeps z0 s) : Keeps z0 (applyCal s
    slot data) := by
  unfold applyCal
  try dsimp only
  repeat' (first
    | with_reducible assumption | with_reducible apply keeps_ite | simp only [↓keeps_fields, ↓kept_self]
    | with_reducible apply keeps_onAon | with_reducible apply keeps_writeTrims | split)

theorem keeps_calWrite {z0 : State} (s : State) (h id slot : Nat) (args data : List Byte) (hK : Keeps z0 s) : Keeps z0
    (calWrite s h id slot args data) := by
  unfold calWrite
  try dsimp only
  repeat' (first
    | intro _ | with_reducible assumption | simp only [↓keeps_fields, ↓kept_self]
    | with_reducible apply keeps_onBoot | with_reducible apply keeps_complete | with_reducible apply keeps_applyCal
    | with_reducible apply keeps_logAppend | with_reducible apply keeps_extend | with_reducible apply keeps_elim
    | assumption)

theorem keeps_calRequest {z0 : State} (s : State) (rq : Request) (hK : Keeps z0 s) : Keeps z0 (calRequest s rq) := by
  unfold calRequest
  try dsimp only
  repeat' (first
    | intro _ | with_reducible assumption | with_reducible apply keeps_ite | with_reducible apply keeps_onRequest
    | with_reducible apply keeps_complete | with_reducible apply keeps_returnTiles
    | with_reducible apply keeps_calWrite | with_reducible apply keeps_getD | split | assumption)

theorem keeps_execCalibrationWrite {z0 : State} {rq : Request} {s : State} (hK : Keeps z0 s) : KeepsE z0
    (execCalibrationWrite rq s) := by
  unfold execCalibrationWrite
  try dsimp only
  repeat' (first
    | intro _ | with_reducible assumption | with_reducible apply keepsE_next | with_reducible apply keeps_calRequest)

theorem keeps_execCalibrationErase {z0 : State} {rq : Request} {s : State} (hK : Keeps z0 s) : KeepsE z0
    (execCalibrationErase rq s) := by
  unfold execCalibrationErase
  try dsimp only
  repeat' (first
    | intro _ | with_reducible assumption | with_reducible apply keepsE_next | with_reducible apply keeps_calRequest)

theorem keeps_execCalibrationRead {z0 : State} {rq : Request} {s : State} (hK : Keeps z0 s) : KeepsE z0 (execCalibrationRead
    rq s) := by
  unfold execCalibrationRead
  try dsimp only
  repeat' (first
    | intro _ | with_reducible assumption | with_reducible apply keepsE_next | with_reducible apply keeps_calRequest)

theorem keeps_clearSteps {z0 : State} (s : State) (mask : Nat) (hK : Keeps z0 s) : Keeps z0 (clearSteps s mask) := by
  unfold clearSteps
  try dsimp only
  repeat' (first
    | intro _ | with_reducible assumption | with_reducible apply keeps_ite | simp only [↓keeps_fields, ↓kept_self]
    | with_reducible apply keeps_logAppend | with_reducible apply keeps_onBoot | with_reducible apply keeps_foldl
    | split)

theorem keeps_clearRetired {z0 : State} (s : State) (cores ways : Nat) (hK : Keeps z0 s) : Keeps z0 (clearRetired s cores
    ways) := by
  unfold clearRetired
  try dsimp only
  repeat' (first
    | with_reducible assumption | simp only [↓keeps_fields, ↓kept_self] | with_reducible apply keeps_onBoot | split)

end Sys2Proof.Machine
end

