-- ==== Sys2Proof/Laws/KeepsTenants.lean ====
section
/-! SUPPORT. Sys2Proof/Laws/KeepsTenants.lean: each operation of Machine/Tenants.lean keeps what `Keeps` says. -/

namespace Sys2Proof.Machine

set_option simprocs false
set_option linter.all false

theorem keeps_setOwners {z0 : State} (s : State) (t : Tenant) (p : Nat) (hK : Keeps z0 s) : Keeps z0 (setOwners s t p) := by
  unfold setOwners
  try dsimp only
  repeat' (first
    | intro _ | with_reducible assumption | simp only [↓keeps_fields, ↓kept_self] | with_reducible apply keeps_foldl)

theorem keeps_dropOwners {z0 : State} (s : State) (p : Nat) (hK : Keeps z0 s) : Keeps z0 (dropOwners s p) := by
  unfold dropOwners
  try dsimp only
  repeat' (first
    | with_reducible assumption | simp only [↓keeps_fields, ↓kept_self])

theorem keeps_zeroParts {z0 : State} (s : State) (units ways : List Nat) (hK : Keeps z0 s) : Keeps z0 (zeroParts s units
    ways) := by
  unfold zeroParts
  try dsimp only
  repeat' (first
    | intro _ | with_reducible assumption | simp only [↓keeps_fields, ↓kept_self] | with_reducible apply keeps_kept
    | with_reducible apply keeps_foldl | with_reducible exact FusesGrow.refl _ | with_reducible exact Nat.le_refl _
    | with_reducible exact Nat.le_add_right _ _ | with_reducible apply Memory.wf_clear
    | with_reducible apply Memory.wf_filter | assumption)

theorem keeps_tellMembers {z0 : State} (s : State) (m : FabMsg) (hK : Keeps z0 s) : Keeps z0 (tellMembers s m) := by
  unfold tellMembers
  try dsimp only
  repeat' (first
    | intro _ | with_reducible assumption | with_reducible apply keeps_placeSend | with_reducible apply keeps_foldl)

theorem keeps_retireSend {z0 : State} (s : State) (dest : Nat) (m : FabMsg) (hK : Keeps z0 s) : Keeps z0 (retireSend s dest
    m) := by
  unfold retireSend
  try dsimp only
  repeat' (first
    | with_reducible assumption | with_reducible apply keeps_fabSend)

theorem keeps_keepRetired {z0 : State} (s : State) (ids : List (BitVec 64)) (hK : Keeps z0 s) : Keeps z0 (keepRetired s ids) := by
  unfold keepRetired
  try dsimp only
  repeat' (first
    | with_reducible assumption | with_reducible apply keeps_ite | simp only [↓keeps_fields, ↓kept_self]
    | with_reducible apply keeps_onStore | with_reducible apply keeps_floodLight | split)

theorem keeps_reportRetired {z0 : State} (s : State) (ids : List (BitVec 64)) (hK : Keeps z0 s) : Keeps z0 (reportRetired s
    ids) := by
  unfold reportRetired
  try dsimp only
  repeat' (first
    | with_reducible assumption | with_reducible apply keeps_ite | with_reducible apply keeps_keepRetired
    | with_reducible apply keeps_placeSend | split)

theorem keeps_clearNamed {z0 : State} {s : State} {v : Tenant} (hK : Keeps z0 s) {t_ : State} (e_ : clearNamed s v = some
    t_) : Keeps z0 t_ := by
  unfold clearNamed at e_
  try dsimp only at e_
  repeat' (first | cases e_ | split at e_ | (rw [Option.map_eq_some_iff] at e_; obtain ⟨a_, ha_, e_⟩ := e_) | (rw [Option.bind_eq_some_iff] at e_; obtain ⟨a_, ha_, e_⟩ := e_))
  all_goals repeat' (first
    | intro _ | with_reducible assumption | refine keeps_moveOut ?_ (by assumption)
    | refine keeps_moveDeep ?_ (by assumption))

theorem keeps_clearRows {z0 : State} (s : State) (cores : List Nat) (hK : Keeps z0 s) : Keeps z0 (clearRows s cores) := by
  unfold clearRows
  try dsimp only
  repeat' (first
    | intro _ | with_reducible assumption | with_reducible apply keeps_ite | simp only [↓keeps_fields, ↓kept_self]
    | with_reducible apply keeps_modQueue | with_reducible apply keeps_restoreRows
    | with_reducible apply keeps_clearCore | with_reducible apply keeps_foldl | split)

theorem keeps_finishCreation {z0 : State} (s : State) (c : Creation) (gens : List (Nat × BitVec 64)) (hK : Keeps z0 s) :
    Keeps z0 (finishCreation s c gens) := by
  unfold finishCreation
  try dsimp only
  repeat' (first
    | intro _ | with_reducible assumption | simp only [↓keeps_fields, ↓kept_self]
    | with_reducible apply keeps_makeKey | with_reducible apply keeps_onK | with_reducible apply keeps_onStore
    | with_reducible apply keeps_onMem | refine keeps_allocRun ?_ (by assumption)
    | with_reducible apply keeps_logAppend | with_reducible apply keeps_extend | with_reducible apply keeps_complete
    | with_reducible apply keeps_tellMembers | with_reducible apply keeps_foldl | split)

theorem keeps_ownKeys {z0 : State} (s : State) (c : Creation) (hK : Keeps z0 s) : Keeps z0 (ownKeys s c) := by
  unfold ownKeys
  try dsimp only
  repeat' (first
    | intro _ | with_reducible assumption | with_reducible apply keeps_ite | simp only [↓keeps_fields, ↓kept_self]
    | with_reducible apply keeps_kept | with_reducible apply keeps_complete | with_reducible apply keeps_dropOwners
    | with_reducible apply keeps_onK | with_reducible apply keeps_finishCreation
    | with_reducible exact FusesGrow.refl _ | with_reducible exact Nat.le_refl _
    | with_reducible exact Nat.le_add_right _ _ | split | assumption | exact Nat.le_add_right _ _)

theorem keeps_runCreation {z0 : State} (s : State) (c : Creation) (hK : Keeps z0 s) : Keeps z0 (runCreation s c) := by
  unfold runCreation
  try dsimp only
  repeat' (first
    | with_reducible assumption | with_reducible apply keeps_ite | simp only [↓keeps_fields, ↓kept_self]
    | refine keeps_clearNamed ?_ (by assumption) | with_reducible apply keeps_complete
    | with_reducible apply keeps_onK | with_reducible apply keeps_clearRows | with_reducible apply keeps_zeroParts
    | with_reducible apply keeps_setOwners | with_reducible apply keeps_ownKeys
    | with_reducible apply keeps_placeSend | split)

theorem keeps_tryCreations {z0 : State} (s : State) (hK : Keeps z0 s) : Keeps z0 (tryCreations s) := by
  unfold tryCreations
  try dsimp only
  repeat' (first
    | intro _ | with_reducible assumption | with_reducible apply keeps_ite | with_reducible apply keeps_runCreation
    | with_reducible apply keeps_foldl | split)

theorem keeps_execTenantCreate {z0 : State} {rq : Request} {s : State} (hK : Keeps z0 s) : KeepsE z0 (execTenantCreate rq s) := by
  unfold execTenantCreate
  try dsimp only
  repeat' (first
    | intro _ | with_reducible assumption | with_reducible apply keepsE_next | with_reducible apply keeps_ite
    | with_reducible apply keepsE_ite | simp only [↓keeps_fields, ↓kept_self] | with_reducible apply keeps_onRequest
    | with_reducible apply keeps_complete | refine keeps_clearNamed ?_ (by assumption)
    | with_reducible apply keeps_tryCreations | with_reducible apply keeps_onK | split)

theorem keeps_modQuench {z0 : State} (s : State) (t : Nat) (f : Quench → Quench) (hK : Keeps z0 s) : Keeps z0 (modQuench s t
    f) := by
  unfold modQuench
  try dsimp only
  repeat' (first
    | with_reducible assumption | simp only [↓keeps_fields, ↓kept_self] | with_reducible apply keeps_onK)

theorem keeps_stopMoves {z0 : State} (s : State) (t : Nat) (hK : Keeps z0 s) : Keeps z0 (stopMoves s t) := by
  unfold stopMoves
  try dsimp only
  repeat' (first
    | intro _ | with_reducible assumption | simp only [↓keeps_fields, ↓kept_self]
    | with_reducible apply keeps_failItem | with_reducible apply keeps_onMem | with_reducible apply keeps_foldl)

theorem keeps_endHandles {z0 : State} (s : State) (t : Nat) (hK : Keeps z0 s) : Keeps z0 (endHandles s t) := by
  unfold endHandles
  try dsimp only
  repeat' (first
    | intro _ | with_reducible assumption | with_reducible apply keeps_complete | with_reducible apply keeps_foldl)

theorem keeps_dropRotation {z0 : State} (s : State) (t : Nat) (hK : Keeps z0 s) : Keeps z0 (dropRotation s t) := by
  unfold dropRotation
  try dsimp only
  repeat' (first
    | intro _ | with_reducible assumption | simp only [↓keeps_fields, ↓kept_self]
    | with_reducible apply keeps_complete | with_reducible apply keeps_onK | with_reducible apply keeps_foldl
    | split)

theorem keeps_startQuench {z0 : State} (s : State) (t : Nat) (handle origin : Option Nat) (hK : Keeps z0 s) : Keeps z0
    (startQuench s t handle origin) := by
  unfold startQuench
  try dsimp only
  repeat' (first
    | intro _ | with_reducible assumption | with_reducible apply keeps_ite | simp only [↓keeps_fields, ↓kept_self]
    | with_reducible apply keeps_onK | with_reducible apply keeps_stopMoves
    | with_reducible apply keeps_dropRotation | with_reducible apply keeps_endHandles
    | with_reducible apply keeps_stopRuns | with_reducible apply keeps_logAppend | with_reducible apply keeps_onSec
    | with_reducible apply keeps_retireSend | with_reducible apply keeps_retire | with_reducible apply keeps_foldl
    | split)

theorem keeps_execTenantRemove {z0 : State} {rq : Request} {s : State} (hK : Keeps z0 s) : KeepsE z0 (execTenantRemove rq s) := by
  unfold execTenantRemove
  try dsimp only
  repeat' (first
    | intro _ | with_reducible assumption | with_reducible apply keepsE_next | with_reducible apply keeps_ite
    | with_reducible apply keepsE_ite | with_reducible apply keeps_onRequest | with_reducible apply keeps_complete
    | with_reducible apply keeps_startQuench | split)

theorem keeps_zeroTenant {z0 : State} (s : State) (t : Nat) (hK : Keeps z0 s) : Keeps z0 (zeroTenant s t) := by
  unfold zeroTenant
  try dsimp only
  repeat' (first
    | intro _ | with_reducible assumption | simp only [↓keeps_fields, ↓kept_self]
    | with_reducible apply keeps_zeroKey | with_reducible apply keeps_onStore | with_reducible apply keeps_onK
    | with_reducible apply keeps_foldl)

theorem keeps_execTenantDrainComplete {z0 : State} {tenant : Fin 9} {s : State} (hK : Keeps z0 s) : KeepsE z0
    (execTenantDrainComplete tenant s) := by
  unfold execTenantDrainComplete
  try dsimp only
  repeat' (first
    | intro _ | with_reducible assumption | with_reducible apply keepsE_next | with_reducible apply keeps_ite
    | with_reducible apply keepsE_ite | simp only [↓keeps_fields, ↓kept_self]
    | with_reducible apply keeps_camDisable | with_reducible apply keeps_logAppend
    | with_reducible apply keeps_zeroTenant | with_reducible apply keeps_reportRetired
    | with_reducible apply keeps_modQuench | with_reducible apply keeps_tryHandovers
    | with_reducible apply keeps_retireSend | with_reducible apply keeps_foldl | split)

theorem keeps_scrubTenant {z0 : State} (s : State) (t : Nat) (hK : Keeps z0 s) : Keeps z0 (scrubTenant s t) := by
  unfold scrubTenant
  try dsimp only
  repeat' (first
    | intro _ | with_reducible assumption | simp only [↓keeps_fields, ↓kept_self]
    | with_reducible apply keeps_dropQueue | with_reducible apply keeps_dropSession
    | with_reducible apply keeps_dropModel | with_reducible apply keeps_zeroParts | with_reducible apply keeps_onMem
    | with_reducible apply keeps_onK | with_reducible apply keeps_setRot | with_reducible apply keeps_onSched
    | with_reducible apply keeps_onCam | with_reducible apply keeps_dropOwners | with_reducible apply keeps_foldl
    | with_reducible apply keeps_getD)

theorem fuses_blowFor (o : Otp) (target : Nat) : FusesGrow o (blowFor o target) := by
  unfold blowFor
  split
  · split
    · exact fuses_serviceOut
    · exact fuses_field
  · exact fuses_serviceIn
  · exact fuses_retired
  · exact FusesGrow.refl _

theorem keeps_changeLife {s0 : State} (s : State) (h target : Nat) (hK : Keeps s0 s) : Keeps s0 (changeLife s h target) := by
  have h1 : Keeps s0 { s with otp := blowFor s.otp target } := by
    simp only [↓keeps_fields]
    exact keeps_kept hK id (fuses_blowFor _ _) (Nat.le_refl _) (Nat.le_refl _)
  unfold changeLife
  generalize ({ s with otp := blowFor s.otp target } : State) = s1 at h1
  dsimp only
  refine keeps_releaseMain _ ?_
  simp only [↓keeps_fields, ↓kept_self]
  exact keeps_mainReset _ (keeps_complete _ _ _ _ _ _ (keeps_onK _ _ (keeps_extend _ _ _ (keeps_logAppend _ _ _ _ (by
    split
    · exact keeps_onSec _ _ (keeps_onStore _ _ h1)
    · exact h1)))))

theorem keeps_tryLifeChange {z0 : State} (s : State) (hK : Keeps z0 s) : Keeps z0 (tryLifeChange s) := by
  unfold tryLifeChange
  try dsimp only
  repeat' (first
    | with_reducible assumption | with_reducible apply keeps_ite | simp only [↓keeps_fields, ↓kept_self]
    | with_reducible apply keeps_changeLife | split)

theorem keeps_endQuench {z0 : State} (s : State) (t : Nat) (hK : Keeps z0 s) : Keeps z0 (endQuench s t) := by
  unfold endQuench
  try dsimp only
  repeat' (first
    | with_reducible assumption | with_reducible apply keeps_ite | simp only [↓keeps_fields, ↓kept_self]
    | with_reducible apply keeps_logAppend | with_reducible apply keeps_extend | with_reducible apply keeps_onK
    | with_reducible apply keeps_tryLifeChange | with_reducible apply keeps_complete | split)

theorem keeps_ackQuench {z0 : State} (s : State) (t member : Nat) (one two : Bool) (hK : Keeps z0 s) : Keeps z0 (ackQuench s
    t member one two) := by
  unfold ackQuench
  try dsimp only
  repeat' (first
    | with_reducible assumption | with_reducible apply keeps_ite | simp only [↓keeps_fields, ↓kept_self]
    | with_reducible apply keeps_endQuench | with_reducible apply keeps_modQuench | split)

theorem keeps_scrubDone {z0 : State} (s : State) (t : Nat) (q : Quench) (hK : Keeps z0 s) : Keeps z0 (scrubDone s t q) := by
  unfold scrubDone
  try dsimp only
  repeat' (first
    | with_reducible assumption | simp only [↓keeps_fields, ↓kept_self] | with_reducible apply keeps_logAppend
    | with_reducible apply keeps_scrubTenant | with_reducible apply keeps_tellMembers
    | with_reducible apply keeps_modQuench | with_reducible apply keeps_endQuench
    | with_reducible apply keeps_retireSend | split)

theorem keeps_modRotation {z0 : State} (s : State) (t : Nat) (f : KeyRot → KeyRot) (hK : Keeps z0 s) : Keeps z0 (modRotation
    s t f) := by
  unfold modRotation
  try dsimp only
  repeat' (first
    | with_reducible assumption | simp only [↓keeps_fields, ↓kept_self] | with_reducible apply keeps_onK)

theorem keeps_useGen {z0 : State} (s : State) (t gen : Nat) (hK : Keeps z0 s) : Keeps z0 (useGen s t gen) := by
  unfold useGen
  try dsimp only
  repeat' (first
    | with_reducible assumption | simp only [↓keeps_fields, ↓kept_self] | with_reducible apply keeps_modRotation
    | with_reducible apply keeps_onMem)

theorem keeps_tryUse {z0 : State} (s : State) (t : Nat) (hK : Keeps z0 s) : Keeps z0 (tryUse s t) := by
  unfold tryUse
  try dsimp only
  repeat' (first
    | intro _ | with_reducible assumption | with_reducible apply keeps_ite | simp only [↓keeps_fields, ↓kept_self]
    | with_reducible apply keeps_placeSend | with_reducible apply keeps_useGen | with_reducible apply keeps_foldl
    | split)

theorem keeps_startKeyRotation {z0 : State} (s : State) (h t : Nat) (hK : Keeps z0 s) : Keeps z0 (startKeyRotation s h t) := by
  unfold startKeyRotation
  try dsimp only
  repeat' (first
    | intro _ | with_reducible assumption | simp only [↓keeps_fields, ↓kept_self] | with_reducible apply keeps_kept
    | with_reducible apply keeps_makeKey | with_reducible apply keeps_onK | with_reducible apply keeps_tryUse
    | with_reducible apply keeps_placeSend | with_reducible apply keeps_foldl | with_reducible apply keeps_getD
    | with_reducible exact FusesGrow.refl _ | with_reducible exact Nat.le_refl _
    | with_reducible exact Nat.le_add_right _ _ | assumption | exact Nat.le_add_right _ _)

theorem keeps_askRotation {z0 : State} (s : State) (h t : Nat) (hK : Keeps z0 s) : Keeps z0 (askRotation s h t) := by
  unfold askRotation
  try dsimp only
  repeat' (first
    | with_reducible assumption | with_reducible apply keeps_ite | simp only [↓keeps_fields, ↓kept_self]
    | with_reducible apply keeps_complete | with_reducible apply keeps_onK
    | with_reducible apply keeps_startKeyRotation | split)

theorem keeps_retireGen {z0 : State} (s : State) (t gen : Nat) (hK : Keeps z0 s) : Keeps z0 (retireGen s t gen) := by
  unfold retireGen
  try dsimp only
  repeat' (first
    | with_reducible assumption | with_reducible apply keeps_zeroKey)

theorem keeps_endRotation {z0 : State} (s : State) (t : Nat) (hK : Keeps z0 s) : Keeps z0 (endRotation s t) := by
  unfold endRotation
  try dsimp only
  repeat' (first
    | with_reducible assumption | with_reducible apply keeps_ite | simp only [↓keeps_fields, ↓kept_self]
    | with_reducible apply keeps_onK | with_reducible apply keeps_complete | with_reducible apply keeps_askRotation
    | split)

theorem keeps_rewritten {z0 : State} (s : State) (t member : Nat) (hK : Keeps z0 s) : Keeps z0 (rewritten s t member) := by
  unfold rewritten
  try dsimp only
  repeat' (first
    | intro _ | with_reducible assumption | with_reducible apply keeps_ite | simp only [↓keeps_fields, ↓kept_self]
    | with_reducible apply keeps_modRotation | with_reducible apply keeps_retireGen
    | with_reducible apply keeps_retireSend | with_reducible apply keeps_retire
    | with_reducible apply keeps_endRotation | with_reducible apply keeps_reportRetired
    | with_reducible apply keeps_foldl | split)

theorem keeps_rewriteBlocks {z0 : State} (s : State) (t gen : Nat) (hK : Keeps z0 s) : Keeps z0 (rewriteBlocks s t gen) := by
  unfold rewriteBlocks
  try dsimp only
  repeat' (first
    | with_reducible assumption | with_reducible apply keeps_ite | simp only [↓keeps_fields, ↓kept_self]
    | with_reducible apply keeps_onMem | split)

theorem keeps_execKeyRewriteComplete {z0 : State} {tenant : Fin 9} {s : State} (hK : Keeps z0 s) : KeepsE z0
    (execKeyRewriteComplete tenant s) := by
  unfold execKeyRewriteComplete
  try dsimp only
  repeat' (first
    | intro _ | with_reducible assumption | with_reducible apply keepsE_next | with_reducible apply keeps_ite
    | with_reducible apply keepsE_ite | simp only [↓keeps_fields, ↓kept_self]
    | with_reducible apply keeps_rewriteBlocks | with_reducible apply keeps_rewritten
    | with_reducible apply keeps_placeSend | with_reducible apply keeps_modRotation | split)

theorem keeps_takeRetire {z0 : State} (s : State) (src t : Nat) (gen : Option Nat) (hK : Keeps z0 s) : Keeps z0 (takeRetire
    s src t gen) := by
  unfold takeRetire
  try dsimp only
  repeat' (first
    | with_reducible assumption | with_reducible apply keeps_ite | simp only [↓keeps_fields, ↓kept_self]
    | with_reducible apply keeps_onK | with_reducible apply keeps_retireGen | with_reducible apply keeps_retireSend
    | with_reducible apply keeps_startQuench | split)

theorem keeps_takeRetireAck {z0 : State} (s : State) (src t : Nat) (gen : Option Nat) (phase : Nat) (hK : Keeps z0 s) :
    Keeps z0 (takeRetireAck s src t gen phase) := by
  unfold takeRetireAck
  try dsimp only
  repeat' (first
    | with_reducible assumption | simp only [↓keeps_fields, ↓kept_self] | with_reducible apply keeps_endRotation
    | with_reducible apply keeps_modRotation | with_reducible apply keeps_ackQuench | split)

theorem keeps_keyMsg {z0 : State} (s : State) (src : Nat) (m : FabMsg) (hK : Keeps z0 s) : Keeps z0 (keyMsg s src m) := by
  unfold keyMsg
  try dsimp only
  repeat' (first
    | intro _ | with_reducible assumption | with_reducible apply keeps_ite | simp only [↓keeps_fields, ↓kept_self]
    | with_reducible apply keeps_placeSend | with_reducible apply keeps_ownKeys
    | with_reducible apply keeps_finishCreation | with_reducible apply keeps_onFab | with_reducible apply keeps_onK
    | with_reducible apply keeps_makeKey | with_reducible apply keeps_tryUse
    | with_reducible apply keeps_modRotation | with_reducible apply keeps_useGen
    | with_reducible apply keeps_rewritten | with_reducible apply keeps_keepRetired
    | with_reducible apply keeps_retire | with_reducible apply keeps_takeRetire
    | with_reducible apply keeps_takeRetireAck | with_reducible apply keeps_getD | split | assumption)

theorem keeps_execAttest {z0 : State} {rq : Request} {s : State} (hK : Keeps z0 s) : KeepsE z0 (execAttest rq s) := by
  unfold execAttest
  try dsimp only
  repeat' (first
    | intro _ | with_reducible assumption | with_reducible apply keepsE_next | simp only [↓keeps_fields, ↓kept_self]
    | with_reducible apply keeps_kept | with_reducible apply keeps_onRequest | with_reducible apply keeps_onSec
    | with_reducible apply keeps_complete | with_reducible apply keeps_returnTiles
    | with_reducible exact FusesGrow.refl _ | with_reducible exact Nat.le_refl _
    | with_reducible exact Nat.le_add_right _ _ | split | assumption | exact Nat.le_add_right _ _)

end Sys2Proof.Machine
end

