-- ==== Sys2Proof/Laws/KeepsBoot.lean ====
section
/-! SUPPORT. Sys2Proof/Laws/KeepsBoot.lean: each operation of Machine/Boot.lean keeps what `Keeps` says. -/

namespace Sys2Proof.Machine

set_option simprocs false
set_option linter.all false

theorem keeps_modStep {z0 : State} (s : State) (k : Nat) (f : BootStep → BootStep) (hK : Keeps z0 s) : Keeps z0 (modStep s k
    f) := by
  unfold modStep
  try dsimp only
  repeat' (first
    | intro _ | with_reducible assumption | simp only [↓keeps_fields, ↓kept_self]
    | with_reducible apply keeps_onBoot | with_reducible apply keeps_getD)

theorem keeps_markStarted {z0 : State} (s : State) (k : Nat) (hK : Keeps z0 s) : Keeps z0 (markStarted s k) := by
  unfold markStarted
  try dsimp only
  repeat' (first
    | with_reducible assumption | simp only [↓keeps_fields, ↓kept_self] | with_reducible apply keeps_modStep)

theorem keeps_markEnded {z0 : State} (s : State) (k : Nat) (hK : Keeps z0 s) : Keeps z0 (markEnded s k) := by
  unfold markEnded
  try dsimp only
  repeat' (first
    | with_reducible assumption | simp only [↓keeps_fields, ↓kept_self] | with_reducible apply keeps_modStep)

theorem keeps_markFailed {z0 : State} (s : State) (k : Nat) (hK : Keeps z0 s) : Keeps z0 (markFailed s k) := by
  unfold markFailed
  try dsimp only
  repeat' (first
    | with_reducible assumption | simp only [↓keeps_fields, ↓kept_self] | with_reducible apply keeps_modStep)

theorem keeps_markNotRun {z0 : State} (s : State) (k : Nat) (hK : Keeps z0 s) : Keeps z0 (markNotRun s k) := by
  unfold markNotRun
  try dsimp only
  repeat' (first
    | with_reducible assumption | simp only [↓keeps_fields, ↓kept_self] | with_reducible apply keeps_modStep)

theorem keeps_countFail {z0 : State} (s : State) (k how : Nat) (hK : Keeps z0 s) : Keeps z0 (countFail s k how) := by
  unfold countFail
  try dsimp only
  repeat' (first
    | with_reducible assumption | with_reducible apply keeps_ite | simp only [↓keeps_fields, ↓kept_self]
    | with_reducible apply keeps_modStep | with_reducible apply keeps_raiseEvent
    | with_reducible apply keeps_logAppend | split)

theorem keeps_takeAlternate {z0 : State} (s : State) (k : Nat) (hK : Keeps z0 s) : Keeps z0 (takeAlternate s k) := by
  unfold takeAlternate
  try dsimp only
  repeat' (first
    | with_reducible assumption | with_reducible apply keeps_ite | simp only [↓keeps_fields, ↓kept_self]
    | with_reducible apply keeps_revertSlot | with_reducible apply keeps_modStep | split)

theorem keeps_haltAt {z0 : State} (s : State) (k : Nat) (hK : Keeps z0 s) : Keeps z0 (haltAt s k) := by
  unfold haltAt
  try dsimp only
  repeat' (first
    | with_reducible assumption | simp only [↓keeps_fields, ↓kept_self] | with_reducible apply keeps_logAppend
    | with_reducible apply keeps_mainReset | with_reducible apply keeps_onBoot)

theorem keeps_setupMailboxes {z0 : State} (s : State) (hK : Keeps z0 s) : Keeps z0 (setupMailboxes s) := by
  unfold setupMailboxes
  try dsimp only
  repeat' (first
    | with_reducible assumption | with_reducible apply keeps_ite | simp only [↓keeps_fields, ↓kept_self] | split)

theorem keeps_bringTenants {z0 : State} (s : State) (hK : Keeps z0 s) : Keeps z0 (bringTenants s) := by
  unfold bringTenants
  try dsimp only
  repeat' (first
    | intro _ | with_reducible assumption | simp only [↓keeps_fields, ↓kept_self] | with_reducible apply keeps_onMem
    | with_reducible apply keeps_onK | with_reducible apply keeps_setOwners | with_reducible apply keeps_foldl)

theorem keeps_placeTables {z0 : State} (s : State) (hK : Keeps z0 s) : Keeps z0 (placeTables s) := by
  unfold placeTables
  try dsimp only
  repeat' (first
    | intro _ | with_reducible assumption | with_reducible apply keeps_ite | simp only [↓keeps_fields, ↓kept_self]
    | refine keeps_allocRun ?_ (by assumption) | with_reducible apply keeps_onMem | with_reducible apply keeps_foldl
    | split)

theorem keeps_copyTrims {z0 : State} (s : State) (load : Bool) (hK : Keeps z0 s) : Keeps z0 (copyTrims s load) := by
  unfold copyTrims
  try dsimp only
  repeat' (first
    | intro _ | with_reducible assumption | with_reducible apply keeps_ite | simp only [↓keeps_fields, ↓kept_self]
    | with_reducible apply keeps_onRas | with_reducible apply keeps_foldl | split)

theorem keeps_copyMicTrims {z0 : State} (s : State) (load : Bool) (hK : Keeps z0 s) : Keeps z0 (copyMicTrims s load) := by
  unfold copyMicTrims
  try dsimp only
  repeat' (first
    | intro _ | with_reducible assumption | with_reducible apply keeps_ite | simp only [↓keeps_fields, ↓kept_self]
    | with_reducible apply keeps_onAon | with_reducible apply keeps_foldl | split)

theorem keeps_startRecording {z0 : State} (s : State) (hK : Keeps z0 s) : Keeps z0 (startRecording s) := by
  unfold startRecording
  try dsimp only
  repeat' (first
    | intro _ | with_reducible assumption | with_reducible apply keeps_ite | simp only [↓keeps_fields, ↓kept_self]
    | with_reducible apply keeps_onAon | with_reducible apply keeps_foldl | split)

theorem keeps_recordReset {z0 : State} (s : State) (hK : Keeps z0 s) : Keeps z0 (recordReset s) := by
  unfold recordReset
  try dsimp only
  repeat' (first
    | with_reducible assumption | with_reducible apply keeps_ite | simp only [↓keeps_fields, ↓kept_self]
    | with_reducible apply keeps_logAppend | with_reducible apply keeps_nextFree | with_reducible apply keeps_onRas
    | split)

theorem keeps_startCached {z0 : State} (s : State) (hK : Keeps z0 s) : Keeps z0 (startCached s) := by
  unfold startCached
  try dsimp only
  repeat' (first
    | intro _ | with_reducible assumption | simp only [↓keeps_fields, ↓kept_self] | with_reducible apply keeps_kept
    | with_reducible apply keeps_extend | with_reducible exact FusesGrow.refl _ | with_reducible exact Nat.le_refl _
    | with_reducible exact Nat.le_add_right _ _ | with_reducible apply Memory.wf_writeBytes | assumption)

theorem keeps_startKeeper {z0 : State} (s : State) (hK : Keeps z0 s) : Keeps z0 (startKeeper s) := by
  unfold startKeeper
  try dsimp only
  repeat' (first
    | with_reducible assumption | with_reducible apply keeps_ite | simp only [↓keeps_fields, ↓kept_self]
    | with_reducible apply keeps_trialStart | with_reducible apply keeps_startCached
    | with_reducible apply keeps_extend | with_reducible apply keeps_loadKeeper | split)

theorem keeps_setupOwners {z0 : State} (s : State) (hK : Keeps z0 s) : Keeps z0 (setupOwners s) := by
  unfold setupOwners
  try dsimp only
  repeat' (first
    | with_reducible assumption | with_reducible apply keeps_ite | simp only [↓keeps_fields, ↓kept_self]
    | with_reducible apply keeps_setupMailboxes | with_reducible apply keeps_bringTenants
    | with_reducible apply keeps_stageCopy | split)

theorem keeps_hbmUp {z0 : State} (s : State) (hK : Keeps z0 s) : Keeps z0 (hbmUp s) := by
  unfold hbmUp
  try dsimp only
  repeat' (first
    | with_reducible assumption | with_reducible apply keeps_ite | simp only [↓keeps_fields, ↓kept_self]
    | with_reducible apply keeps_placeTables | with_reducible apply keeps_onMem | split)

theorem keeps_rebuildStore {z0 : State} (s : State) (hK : Keeps z0 s) : Keeps z0 (rebuildStore s) := by
  unfold rebuildStore
  try dsimp only
  repeat' (first
    | with_reducible assumption | simp only [↓keeps_fields, ↓kept_self] | with_reducible apply keeps_onDisk)

theorem keeps_finishQuenches {z0 : State} (s : State) (hK : Keeps z0 s) : Keeps z0 (finishQuenches s) := by
  unfold finishQuenches
  try dsimp only
  repeat' (first
    | intro _ | with_reducible assumption | simp only [↓keeps_fields, ↓kept_self]
    | with_reducible apply keeps_logAppend | with_reducible apply keeps_scrubTenant
    | with_reducible apply keeps_zeroTenant | with_reducible apply keeps_onBoot | with_reducible apply keeps_foldl)

theorem keeps_coresUpTo {z0 : State} (s : State) (m : Mode) (hK : Keeps z0 s) : Keeps z0 (coresUpTo s m) := by
  unfold coresUpTo
  try dsimp only
  repeat' (first
    | intro _ | with_reducible assumption | with_reducible apply keeps_coreOff | with_reducible apply keeps_foldl)

theorem keeps_reachMode {z0 : State} (s : State) (m : Mode) (hK : Keeps z0 s) : Keeps z0 (reachMode s m) := by
  unfold reachMode
  try dsimp only
  repeat' (first
    | with_reducible assumption | with_reducible apply keeps_ite | simp only [↓keeps_fields, ↓kept_self]
    | with_reducible apply keeps_latch | with_reducible apply keeps_onAon | with_reducible apply keeps_rescheduleAll
    | with_reducible apply keeps_askForJobs | with_reducible apply keeps_checkSetMode
    | with_reducible apply keeps_camToBeacon | with_reducible apply keeps_camToLantern | split)

theorem keeps_doStep {z0 : State} (s : State) (k : Nat) (hK : Keeps z0 s) : Keeps z0 (doStep s k) := by
  unfold doStep
  try dsimp only
  repeat' (first
    | intro _ | with_reducible assumption | with_reducible apply keeps_ite | simp only [↓keeps_fields, ↓kept_self]
    | with_reducible apply keeps_onSec
    | with_reducible apply keeps_onRas | with_reducible apply keeps_trialStart
    | with_reducible apply keeps_secRestart | with_reducible apply keeps_extend
    | with_reducible apply keeps_startKeeper | with_reducible apply keeps_systemQueues | with_reducible apply keeps_recordReset
    | with_reducible apply keeps_setupOwners | with_reducible apply keeps_onMem | with_reducible apply keeps_hbmUp
    | with_reducible apply keeps_powerCore | with_reducible apply keeps_loadDsp
    | with_reducible apply keeps_copyTrims | with_reducible apply keeps_startRecording
    | with_reducible apply keeps_copyMicTrims | with_reducible apply keeps_modPort
    | with_reducible apply keeps_rsetBits | with_reducible apply keeps_rebuildStore
    | with_reducible apply keeps_pcieUp | with_reducible apply keeps_finishQuenches
    | with_reducible apply keeps_reachMode | with_reducible apply keeps_onFab
    | with_reducible apply keeps_modFabPort | with_reducible apply keeps_moorStart
    | with_reducible apply keeps_foldl | split)

theorem keeps_stepOutcome {z0 : State} (s : State) (k : Nat) (hK : Keeps z0 s) : Keeps z0 (stepOutcome s k) := by
  unfold stepOutcome
  try dsimp only
  repeat' (first
    | with_reducible assumption | with_reducible apply keeps_ite | simp only [↓keeps_fields, ↓kept_self]
    | with_reducible apply keeps_onMem | with_reducible apply keeps_raiseEvent | with_reducible apply keeps_haltAt
    | with_reducible apply keeps_copyTrims | with_reducible apply keeps_startRecording
    | with_reducible apply keeps_copyMicTrims | with_reducible apply keeps_modFabPort
    | with_reducible apply keeps_rsetBits | with_reducible apply keeps_coresUpTo
    | with_reducible apply keeps_reachMode | split)

theorem keeps_tryStep {z0 : State} (s : State) (k left : Nat) (last : Bool) (a0_ : Nat) (hK : Keeps z0 s) : Keeps z0
    (tryStep s k left last a0_) := by
  induction a0_ generalizing s k left last with
  | zero =>
    unfold tryStep
    exact hK
  | succ n ih =>
    unfold tryStep
    try dsimp only
    repeat' (first
      | with_reducible assumption
      | with_reducible apply ih | with_reducible apply keeps_ite | simp only [↓keeps_fields, ↓kept_self]
      | with_reducible apply keeps_stepOutcome | with_reducible apply keeps_markNotRun
      | with_reducible apply keeps_markStarted | with_reducible apply keeps_doStep
      | with_reducible apply keeps_markEnded | with_reducible apply keeps_countFail
      | with_reducible apply keeps_markFailed | with_reducible apply keeps_takeAlternate | split)

theorem keeps_runStep {z0 : State} (s : State) (k : Nat) (hK : Keeps z0 s) : Keeps z0 (runStep s k) := by
  unfold runStep
  try dsimp only
  repeat' (first
    | with_reducible assumption | with_reducible apply keeps_ite | with_reducible apply keeps_markNotRun
    | with_reducible apply keeps_tryStep | split)

theorem keeps_runSteps {z0 : State} (s : State) (ks : List Nat) (hK : Keeps z0 s) : Keeps z0 (runSteps s ks) := by
  unfold runSteps
  try dsimp only
  repeat' (first
    | intro _ | with_reducible assumption | with_reducible apply keeps_ite | simp only [↓keeps_fields, ↓kept_self]
    | with_reducible apply keeps_markStarted | with_reducible apply keeps_runStep | with_reducible apply keeps_foldl
    | split)

theorem keeps_applyClears {z0 : State} (s : State) (hK : Keeps z0 s) : Keeps z0 (applyClears s) := by
  unfold applyClears
  try dsimp only
  repeat' (first
    | intro _ | with_reducible assumption | simp only [↓keeps_fields, ↓kept_self]
    | with_reducible apply keeps_modStep | with_reducible apply keeps_onRas | with_reducible apply keeps_onBoot
    | with_reducible apply keeps_foldl)

theorem keeps_applyFound {z0 : State} (s : State) (ks : List Nat) (hK : Keeps z0 s) : Keeps z0 (applyFound s ks) := by
  unfold applyFound
  try dsimp only
  repeat' (first
    | intro _ | with_reducible assumption | with_reducible apply keeps_ite | with_reducible apply keeps_countFail
    | with_reducible apply keeps_markFailed | with_reducible apply keeps_takeAlternate
    | with_reducible apply keeps_foldl | split)

theorem keeps_beginStart {z0 : State} (s : State) (kind : Nat) (obs : StartObs) (hK : Keeps z0 s) : Keeps z0 (beginStart s
    kind obs) := by
  unfold beginStart
  try dsimp only
  repeat' (first
    | with_reducible assumption | simp only [↓keeps_fields, ↓kept_self] | with_reducible apply keeps_applyClears
    | with_reducible apply keeps_onBoot | with_reducible apply keeps_applyFound)

theorem keeps_endStart {z0 : State} (s : State) (hK : Keeps z0 s) : Keeps z0 (endStart s) := by
  unfold endStart
  try dsimp only
  repeat' (first
    | with_reducible assumption | with_reducible apply keeps_ite | simp only [↓keeps_fields, ↓kept_self] | split)

theorem keeps_execColdStart {z0 : State} {obs : StartObs} {s : State} (hK : Keeps z0 s) : KeepsE z0 (execColdStart obs s) := by
  unfold execColdStart
  try dsimp only
  repeat' (first
    | intro _ | with_reducible assumption | with_reducible apply keepsE_next | with_reducible apply keeps_ite
    | with_reducible apply keepsE_ite | simp only [↓keeps_fields, ↓kept_self]
    | with_reducible apply keeps_beginStart | with_reducible apply keeps_endStart
    | with_reducible apply keeps_runSteps | with_reducible apply keeps_runStep | split)

theorem keeps_execMemoryTrainingDone {z0 : State} {hbm : Bool} {s : State} (hK : Keeps z0 s) : KeepsE z0
    (execMemoryTrainingDone hbm s) := by
  unfold execMemoryTrainingDone
  try dsimp only
  repeat' (first
    | intro _ | with_reducible assumption | with_reducible apply keepsE_next | with_reducible apply keeps_ite
    | with_reducible apply keepsE_ite | simp only [↓keeps_fields, ↓kept_self] | with_reducible apply keeps_runStep
    | with_reducible apply keeps_endStart | with_reducible apply keeps_runSteps | split)

theorem keeps_execWarmStart {z0 : State} {obs : StartObs} {s : State} (hK : Keeps z0 s) : KeepsE z0 (execWarmStart obs s) := by
  unfold execWarmStart
  try dsimp only
  repeat' (first
    | intro _ | with_reducible assumption | with_reducible apply keepsE_next | with_reducible apply keeps_ite
    | with_reducible apply keepsE_ite | simp only [↓keeps_fields, ↓kept_self]
    | with_reducible apply keeps_beginStart | with_reducible apply keeps_runStep
    | with_reducible apply keeps_runSteps | with_reducible apply keeps_countFail | split)

theorem keeps_execBootWatchdog {z0 : State} {s : State} (hK : Keeps z0 s) : KeepsE z0 (execBootWatchdog s) := by
  unfold execBootWatchdog
  try dsimp only
  repeat' (first
    | intro _ | with_reducible assumption | with_reducible apply keepsE_next | with_reducible apply keeps_ite
    | with_reducible apply keepsE_ite | simp only [↓keeps_fields, ↓kept_self] | with_reducible apply keeps_mainReset
    | with_reducible apply keeps_trialFault | with_reducible apply keeps_releaseMain
    | with_reducible apply keeps_foldl | split)

theorem keeps_climbBeacon {z0 : State} (s : State) (hK : Keeps z0 s) : Keeps z0 (climbBeacon s) := by
  unfold climbBeacon
  try dsimp only
  repeat' (first
    | with_reducible assumption | with_reducible apply keeps_ite | with_reducible apply keeps_runSteps
    | with_reducible apply keeps_runStep | with_reducible apply keeps_markStarted | split)

theorem keeps_reloadModels {z0 : State} (s : State) (hK : Keeps z0 s) : Keeps z0 (reloadModels s) := by
  unfold reloadModels
  try dsimp only
  repeat' (first
    | intro _ | with_reducible assumption | simp only [↓keeps_fields, ↓kept_self]
    | with_reducible apply keeps_openStored | with_reducible apply keeps_foldl | split)

theorem keeps_climbLantern {z0 : State} (s : State) (hK : Keeps z0 s) : Keeps z0 (climbLantern s) := by
  unfold climbLantern
  try dsimp only
  repeat' (first
    | with_reducible assumption | with_reducible apply keeps_ite | simp only [↓keeps_fields, ↓kept_self]
    | with_reducible apply keeps_runSteps | with_reducible apply keeps_reloadModels | split)

theorem keeps_execModeTransitionComplete {z0 : State} {s : State} (hK : Keeps z0 s) : KeepsE z0 (execModeTransitionComplete
    s) := by
  unfold execModeTransitionComplete
  try dsimp only
  repeat' (first
    | intro _ | with_reducible assumption | with_reducible apply keepsE_next | with_reducible apply keeps_ite
    | with_reducible apply keepsE_ite | with_reducible apply keeps_endTransition
    | with_reducible apply keeps_climbBeacon | with_reducible apply keeps_climbLantern | split)

theorem keeps_execBackgroundTrainingDone {z0 : State} {s : State} (hK : Keeps z0 s) : KeepsE z0 (execBackgroundTrainingDone
    s) := by
  unfold execBackgroundTrainingDone
  try dsimp only
  repeat' (first
    | intro _ | with_reducible assumption | with_reducible apply keepsE_next | with_reducible apply keeps_ite
    | with_reducible apply keepsE_ite | with_reducible apply keeps_runStep | split)

end Sys2Proof.Machine
end

