-- ==== Sys2Proof/Laws/KeepsPeri.lean ====
section
/-! SUPPORT. Sys2Proof/Laws/KeepsPeri.lean: each operation of Machine/Peri.lean keeps what `Keeps` says. -/

namespace Sys2Proof.Machine

set_option simprocs false
set_option linter.all false

theorem keeps_onPeri {z0 : State} (s : State) (f : Peri → Peri) (hK : Keeps z0 s) : Keeps z0 (onPeri s f) := by
  unfold onPeri
  try dsimp only
  repeat' (first
    | with_reducible assumption | simp only [↓keeps_fields, ↓kept_self])

theorem keeps_periWrite {z0 : State} (s : State) (by_ : Req) (f : State → State) (h_f : ∀ (x0_ : State), Keeps z0 x0_ →
    Keeps z0 (f x0_)) (hK : Keeps z0 s) : Keeps z0 (periWrite s by_ f) := by
  unfold periWrite
  try dsimp only
  repeat' (first
    | intro _ | with_reducible assumption | with_reducible apply h_f | with_reducible apply keeps_ite
    | with_reducible apply keeps_busOk | with_reducible apply keeps_busError | split)

theorem keeps_periRead {z0 : State} (s : State) (by_ : Req) (f : State → State × Word) (h_f : ∀ (x0_ : State), Keeps z0 x0_
    → Keeps z0 (f x0_).1) (hK : Keeps z0 s) : Keeps z0 (periRead s by_ f) := by
  unfold periRead
  try dsimp only
  repeat' (first
    | intro _ | with_reducible assumption | with_reducible apply h_f | with_reducible apply keeps_ite
    | with_reducible apply keeps_busData | with_reducible apply keeps_busError | split)

theorem keeps_onOspi {z0 : State} (s : State) (f : Ospi → Ospi) (hK : Keeps z0 s) : Keeps z0 (onOspi s f) := by
  unfold onOspi
  try dsimp only
  repeat' (first
    | with_reducible assumption | simp only [↓keeps_fields, ↓kept_self] | with_reducible apply keeps_onPeri)

theorem keeps_flashAnswer {z0 : State} (s : State) (a : Nat) (hK : Keeps z0 s) : Keeps z0 (flashAnswer s a) := by
  unfold flashAnswer
  try dsimp only
  repeat' (first
    | with_reducible assumption | with_reducible apply keeps_busData)

theorem keeps_flashWaits {z0 : State} (s : State) (hK : Keeps z0 s) : Keeps z0 (flashWaits s) := by
  unfold flashWaits
  try dsimp only
  repeat' (first
    | intro _ | with_reducible assumption | simp only [↓keeps_fields, ↓kept_self]
    | with_reducible apply keeps_flashAnswer | with_reducible apply keeps_onOspi | with_reducible apply keeps_foldl)

theorem keeps_ospiGo {z0 : State} (s : State) (v : Word) (hK : Keeps z0 s) : Keeps z0 (ospiGo s v) := by
  unfold ospiGo
  try dsimp only
  repeat' (first
    | with_reducible assumption | with_reducible apply keeps_ite | simp only [↓keeps_fields, ↓kept_self]
    | with_reducible apply keeps_onOspi | split)

theorem keeps_execPeriOspiGo {z0 : State} {by_ : Req} {v : Word} {s : State} (hK : Keeps z0 s) : KeepsE z0 (execPeriOspiGo
    by_ v s) := by
  unfold execPeriOspiGo
  try dsimp only
  repeat' (first
    | intro _ | with_reducible assumption | with_reducible apply keepsE_next | with_reducible apply keeps_periWrite
    | with_reducible apply keeps_ospiGo)

theorem keeps_execOspiWindowRead {z0 : State} {by_ : Req} {off : BitVec 28} {s : State} (hK : Keeps z0 s) : KeepsE z0
    (execOspiWindowRead by_ off s) := by
  unfold execOspiWindowRead
  try dsimp only
  repeat' (first
    | intro _ | with_reducible assumption | with_reducible apply keepsE_next | with_reducible apply keeps_ite
    | with_reducible apply keepsE_ite | simp only [↓keeps_fields, ↓kept_self] | with_reducible apply keeps_busError
    | with_reducible apply keeps_onOspi | with_reducible apply keeps_flashAnswer | split)

theorem keeps_flashChange {z0 : State} (s : State) (ch : List Host.Cell) (hK : Keeps z0 s) : Keeps z0 (flashChange s ch) := by
  unfold flashChange
  try dsimp only
  repeat' (first
    | intro _ | with_reducible assumption | simp only [↓keeps_fields, ↓kept_self] | with_reducible apply keeps_kept
    | with_reducible exact FusesGrow.refl _ | with_reducible exact Nat.le_refl _
    | with_reducible exact Nat.le_add_right _ _ | with_reducible apply Memory.wf_filter
    | with_reducible apply Memory.wf_writeCells | assumption)

theorem keeps_execOspiCommandDone {z0 : State} {data : List Byte} {ch : List (Nat × Byte)} {s : State} (hK : Keeps z0 s) :
    KeepsE z0 (execOspiCommandDone data ch s) := by
  unfold execOspiCommandDone
  try dsimp only
  repeat' (first
    | intro _ | with_reducible assumption | with_reducible apply keepsE_next | with_reducible apply keeps_ite
    | with_reducible apply keepsE_ite | simp only [↓keeps_fields, ↓kept_self]
    | with_reducible apply keeps_flashWaits | with_reducible apply keeps_onOspi
    | with_reducible apply keeps_flashChange | split)

theorem keeps_execOspiCommandTimeout {z0 : State} {s : State} (hK : Keeps z0 s) : KeepsE z0 (execOspiCommandTimeout s) := by
  unfold execOspiCommandTimeout
  try dsimp only
  repeat' (first
    | intro _ | with_reducible assumption | with_reducible apply keepsE_next | with_reducible apply keeps_ite
    | with_reducible apply keepsE_ite | simp only [↓keeps_fields, ↓kept_self]
    | with_reducible apply keeps_flashWaits | with_reducible apply keeps_onOspi | split)

theorem keeps_modI2c {z0 : State} (s : State) (b : Nat) (f : I2c → I2c) (hK : Keeps z0 s) : Keeps z0 (modI2c s b f) := by
  unfold modI2c
  try dsimp only
  repeat' (first
    | with_reducible assumption | simp only [↓keeps_fields, ↓kept_self] | with_reducible apply keeps_onPeri)

theorem keeps_execI2cTransfer {z0 : State} {by_ : Req} {b : Fin 4} {v : Word} {s : State} (hK : Keeps z0 s) : KeepsE z0
    (execI2cTransfer by_ b v s) := by
  unfold execI2cTransfer
  try dsimp only
  repeat' (first
    | intro _ | with_reducible assumption | with_reducible apply keepsE_next | with_reducible apply keeps_periWrite
    | with_reducible apply keeps_modI2c)

theorem keeps_i2cEnd {z0 : State} (s : State) (b : Nat) (f : I2c → I2c) (hK : Keeps z0 s) : Keeps z0 (i2cEnd s b f) := by
  unfold i2cEnd
  try dsimp only
  repeat' (first
    | with_reducible assumption | simp only [↓keeps_fields, ↓kept_self] | with_reducible apply keeps_modI2c)

theorem keeps_execI2cTransferDone {z0 : State} {b : Fin 4} {sent : Nat} {data : List Byte} {nack arbLost : Bool} {s : State}
    (hK : Keeps z0 s) : KeepsE z0 (execI2cTransferDone b sent data nack arbLost s) := by
  unfold execI2cTransferDone
  try dsimp only
  repeat' (first
    | intro _ | with_reducible assumption | with_reducible apply keepsE_next | with_reducible apply keeps_ite
    | with_reducible apply keepsE_ite | simp only [↓keeps_fields, ↓kept_self] | with_reducible apply keeps_i2cEnd
    | split)

theorem keeps_execI2cStretchTimeout {z0 : State} {b : Fin 4} {sent : Nat} {data : List Byte} {s : State} (hK : Keeps z0 s) :
    KeepsE z0 (execI2cStretchTimeout b sent data s) := by
  unfold execI2cStretchTimeout
  try dsimp only
  repeat' (first
    | intro _ | with_reducible assumption | with_reducible apply keepsE_next | with_reducible apply keeps_ite
    | with_reducible apply keepsE_ite | simp only [↓keeps_fields, ↓kept_self] | with_reducible apply keeps_i2cEnd
    | split)

theorem keeps_execI2cFifoWrite {z0 : State} {by_ : Req} {b : Fin 4} {v : Byte} {s : State} (hK : Keeps z0 s) : KeepsE z0
    (execI2cFifoWrite by_ b v s) := by
  unfold execI2cFifoWrite
  try dsimp only
  repeat' (first
    | intro _ | with_reducible assumption | with_reducible apply keepsE_next | simp only [↓keeps_fields, ↓kept_self]
    | with_reducible apply keeps_periWrite | with_reducible apply keeps_modI2c)

theorem keeps_execI2cFifoRead {z0 : State} {by_ : Req} {b : Fin 4} {s : State} (hK : Keeps z0 s) : KeepsE z0
    (execI2cFifoRead by_ b s) := by
  unfold execI2cFifoRead
  try dsimp only
  repeat' (first
    | intro _ | with_reducible assumption | with_reducible apply keepsE_next | simp only [↓keeps_fields, ↓kept_self]
    | with_reducible apply keeps_periRead | with_reducible apply keeps_modI2c)

theorem keeps_modSpi {z0 : State} (s : State) (b : Nat) (f : Spi → Spi) (hK : Keeps z0 s) : Keeps z0 (modSpi s b f) := by
  unfold modSpi
  try dsimp only
  repeat' (first
    | with_reducible assumption | simp only [↓keeps_fields, ↓kept_self] | with_reducible apply keeps_onPeri)

theorem keeps_execSpiTransfer {z0 : State} {by_ : Req} {b : Fin 2} {v : Word} {s : State} (hK : Keeps z0 s) : KeepsE z0
    (execSpiTransfer by_ b v s) := by
  unfold execSpiTransfer
  try dsimp only
  repeat' (first
    | intro _ | with_reducible assumption | with_reducible apply keepsE_next | with_reducible apply keeps_periWrite
    | with_reducible apply keeps_modSpi)

theorem keeps_execSpiTransferDone {z0 : State} {b : Fin 2} {data : List Byte} {s : State} (hK : Keeps z0 s) : KeepsE z0
    (execSpiTransferDone b data s) := by
  unfold execSpiTransferDone
  try dsimp only
  repeat' (first
    | intro _ | with_reducible assumption | with_reducible apply keepsE_next | with_reducible apply keeps_ite
    | with_reducible apply keepsE_ite | simp only [↓keeps_fields, ↓kept_self] | with_reducible apply keeps_modSpi
    | split)

theorem keeps_execSpiFifoWrite {z0 : State} {by_ : Req} {b : Fin 2} {v : Byte} {s : State} (hK : Keeps z0 s) : KeepsE z0
    (execSpiFifoWrite by_ b v s) := by
  unfold execSpiFifoWrite
  try dsimp only
  repeat' (first
    | intro _ | with_reducible assumption | with_reducible apply keepsE_next | simp only [↓keeps_fields, ↓kept_self]
    | with_reducible apply keeps_periWrite | with_reducible apply keeps_modSpi)

theorem keeps_execSpiFifoRead {z0 : State} {by_ : Req} {b : Fin 2} {s : State} (hK : Keeps z0 s) : KeepsE z0
    (execSpiFifoRead by_ b s) := by
  unfold execSpiFifoRead
  try dsimp only
  repeat' (first
    | intro _ | with_reducible assumption | with_reducible apply keepsE_next | simp only [↓keeps_fields, ↓kept_self]
    | with_reducible apply keeps_kept | with_reducible apply keeps_periRead | with_reducible apply keeps_modSpi
    | with_reducible exact FusesGrow.refl _ | with_reducible exact Nat.le_refl _
    | with_reducible exact Nat.le_add_right _ _ | assumption | exact Nat.le_add_right _ _)

theorem keeps_execGpioInterrupt {z0 : State} {pin : Fin 16} {level : Bool} {s : State} (hK : Keeps z0 s) : KeepsE z0
    (execGpioInterrupt pin level s) := by
  unfold execGpioInterrupt
  try dsimp only
  repeat' (first
    | intro _ | with_reducible assumption | with_reducible apply keepsE_next | with_reducible apply keeps_ite
    | with_reducible apply keepsE_ite | simp only [↓keeps_fields, ↓kept_self] | with_reducible apply keeps_onPeri
    | split)

theorem keeps_execUartDataWrite {z0 : State} {by_ : Req} {v : Byte} {s : State} (hK : Keeps z0 s) : KeepsE z0
    (execUartDataWrite by_ v s) := by
  unfold execUartDataWrite
  try dsimp only
  repeat' (first
    | intro _ | with_reducible assumption | with_reducible apply keepsE_next | simp only [↓keeps_fields, ↓kept_self]
    | with_reducible apply keeps_periWrite | with_reducible apply keeps_onPeri)

theorem keeps_execUartDataRead {z0 : State} {by_ : Req} {s : State} (hK : Keeps z0 s) : KeepsE z0 (execUartDataRead by_ s) := by
  unfold execUartDataRead
  try dsimp only
  repeat' (first
    | intro _ | with_reducible assumption | with_reducible apply keepsE_next | simp only [↓keeps_fields, ↓kept_self]
    | with_reducible apply keeps_kept | with_reducible apply keeps_periRead | with_reducible apply keeps_onPeri
    | with_reducible exact FusesGrow.refl _ | with_reducible exact Nat.le_refl _
    | with_reducible exact Nat.le_add_right _ _ | assumption | exact Nat.le_add_right _ _)

theorem keeps_execUartRxByte {z0 : State} {v : Byte} {s : State} (hK : Keeps z0 s) : KeepsE z0 (execUartRxByte v s) := by
  unfold execUartRxByte
  try dsimp only
  repeat' (first
    | intro _ | with_reducible assumption | with_reducible apply keepsE_next | with_reducible apply keeps_ite
    | with_reducible apply keepsE_ite | simp only [↓keeps_fields, ↓kept_self] | with_reducible apply keeps_onPeri
    | split)

theorem keeps_execUartTxByteDone {z0 : State} {s : State} (hK : Keeps z0 s) : KeepsE z0 (execUartTxByteDone s) := by
  unfold execUartTxByteDone
  try dsimp only
  repeat' (first
    | intro _ | with_reducible assumption | with_reducible apply keepsE_next | with_reducible apply keeps_ite
    | with_reducible apply keepsE_ite | simp only [↓keeps_fields, ↓kept_self] | with_reducible apply keeps_onPeri
    | split)

theorem keeps_periPlain {z0 : State} {off : Nat} {v : Word} {s : State} (hK : Keeps z0 s) {t_ : State} (e_ : periPlain off v
    s = some t_) : Keeps z0 t_ := by
  unfold periPlain at e_
  try dsimp only at e_
  repeat' (first | cases e_ | split at e_ | (rw [Option.map_eq_some_iff] at e_; obtain ⟨a_, ha_, e_⟩ := e_) | (rw [Option.bind_eq_some_iff] at e_; obtain ⟨a_, ha_, e_⟩ := e_))
  all_goals repeat' (first
    | with_reducible assumption | with_reducible apply keeps_ite | simp only [↓keeps_fields, ↓kept_self]
    | with_reducible apply keeps_onOspi | with_reducible apply keeps_modI2c | with_reducible apply keeps_modSpi
    | with_reducible apply keeps_onPeri | split)

end Sys2Proof.Machine
end

