-- ==== Sys2Proof/Laws/KeepsSync.lean ====
section
/-! SUPPORT. Sys2Proof/Laws/KeepsSync.lean: each operation of Machine/Sync.lean keeps what `Keeps` says. -/

namespace Sys2Proof.Machine

set_option simprocs false
set_option linter.all false

theorem keeps_setSem {z0 : State} (s : State) (v : Nat) (m : Sem) (hK : Keeps z0 s) : Keeps z0 (setSem s v m) := by
  unfold setSem
  try dsimp only
  repeat' (first
    | with_reducible assumption | simp only [↓keeps_fields, ↓kept_self])

theorem keeps_swait {z0 : State} (s : State) (n : Nat) (w : BitVec 64) (peek : Bool) (hK : Keeps z0 s) : Keeps z0 (swait s n
    w peek) := by
  unfold swait
  try dsimp only
  repeat' (first
    | with_reducible assumption | with_reducible apply keeps_ite | simp only [↓keeps_fields, ↓kept_self]
    | with_reducible apply keeps_seqFault | with_reducible apply keeps_onCore | with_reducible apply keeps_setSem
    | with_reducible apply keeps_swait | split)

theorem keeps_execSwait {z0 : State} {core : Fin 32} {w : BitVec 64} {s : State} (hK : Keeps z0 s) : KeepsE z0 (execSwait
    core w s) := by
  unfold execSwait
  try dsimp only
  repeat' (first
    | intro _ | with_reducible assumption | with_reducible apply keepsE_next | with_reducible apply keeps_kuner
    | with_reducible apply keeps_swait)

theorem keeps_execSwaitPeek {z0 : State} {core : Fin 32} {w : BitVec 64} {s : State} (hK : Keeps z0 s) : KeepsE z0
    (execSwaitPeek core w s) := by
  unfold execSwaitPeek
  try dsimp only
  repeat' (first
    | intro _ | with_reducible assumption | with_reducible apply keepsE_next | with_reducible apply keeps_kuner
    | with_reducible apply keeps_swait)

theorem keeps_execSwaitSatisfy {z0 : State} {sem : Fin 1024} {s : State} (hK : Keeps z0 s) : KeepsE z0 (execSwaitSatisfy sem
    s) := by
  unfold execSwaitSatisfy
  try dsimp only
  repeat' (first
    | intro _ | with_reducible assumption | with_reducible apply keepsE_next | with_reducible apply keeps_ite
    | with_reducible apply keepsE_ite | simp only [↓keeps_fields, ↓kept_self] | with_reducible apply keeps_setSem
    | with_reducible apply keeps_onCore | with_reducible apply keeps_swait | split)

theorem keeps_endDonations {z0 : State} (s : State) (v queue : Nat) (hK : Keeps z0 s) : Keeps z0 (endDonations s v queue) := by
  unfold endDonations
  try dsimp only
  repeat' (first
    | with_reducible assumption | simp only [↓keeps_fields, ↓kept_self])

theorem keeps_semPost {z0 : State} (s : State) (n v a : Nat) (m : Sem) (hK : Keeps z0 s) : Keeps z0 (semPost s n v a m) := by
  unfold semPost
  try dsimp only
  repeat' (first
    | with_reducible assumption | with_reducible apply keeps_ite | simp only [↓keeps_fields, ↓kept_self]
    | with_reducible apply keeps_endDonations | with_reducible apply keeps_setSem
    | with_reducible apply keeps_raiseEvent | split)

theorem keeps_execSpost {z0 : State} {core : Fin 32} {w : BitVec 64} {s : State} (hK : Keeps z0 s) : KeepsE z0 (execSpost
    core w s) := by
  unfold execSpost
  try dsimp only
  repeat' (first
    | intro _ | with_reducible assumption | with_reducible apply keepsE_next | with_reducible apply keeps_ite
    | with_reducible apply keepsE_ite | simp only [↓keeps_fields, ↓kept_self] | with_reducible apply keeps_kuner
    | with_reducible apply keeps_seqFault | with_reducible apply keeps_onCore | with_reducible apply keeps_semPost
    | split)

theorem keeps_execFence {z0 : State} {core : Fin 32} {w : BitVec 64} {s : State} (hK : Keeps z0 s) : KeepsE z0 (execFence
    core w s) := by
  unfold execFence
  try dsimp only
  repeat' (first
    | intro _ | with_reducible assumption | with_reducible apply keepsE_next | with_reducible apply keeps_ite
    | with_reducible apply keepsE_ite | with_reducible apply keeps_kuner | with_reducible apply keeps_onCore | split)

theorem keeps_execEnd {z0 : State} {core : Fin 32} {w : BitVec 64} {s : State} (hK : Keeps z0 s) : KeepsE z0 (execEnd core w
    s) := by
  unfold execEnd
  try dsimp only
  repeat' (first
    | intro _ | with_reducible assumption | with_reducible apply keepsE_next | simp only [↓keeps_fields, ↓kept_self]
    | with_reducible apply keeps_kuner | with_reducible apply keeps_finish | with_reducible apply keeps_onCore)

theorem keeps_execHeldMessagePost {z0 : State} {by_ : Req} {s : State} (hK : Keeps z0 s) : KeepsE z0 (execHeldMessagePost
    by_ s) := by
  unfold execHeldMessagePost
  try dsimp only
  repeat' (first
    | intro _ | with_reducible assumption | with_reducible apply keepsE_next | simp only [↓keeps_fields, ↓kept_self]
    | with_reducible apply keeps_coreRest | with_reducible apply keeps_releaseHeld | split)

end Sys2Proof.Machine
end

