-- ==== Sys2Proof/Laws/KeepsDonate.lean ====
section
/-! SUPPORT. Sys2Proof/Laws/KeepsDonate.lean: each operation of Machine/Donate.lean keeps what `Keeps` says. -/

namespace Sys2Proof.Machine

set_option simprocs false
set_option linter.all false

theorem keeps_tryDonate {z0 : State} (s : State) (part q j v : Nat) (hK : Keeps z0 s) : Keeps z0 (tryDonate s part q j v) := by
  unfold tryDonate
  try dsimp only
  repeat' (first
    | with_reducible assumption | with_reducible apply keeps_ite | simp only [↓keeps_fields, ↓kept_self]
    | with_reducible apply keeps_reschedule | split)

theorem keeps_endDeadlock {z0 : State} (s : State) (part : Nat) (hK : Keeps z0 s) : Keeps z0 (endDeadlock s part) := by
  unfold endDeadlock
  try dsimp only
  repeat' (first
    | intro _ | with_reducible assumption | simp only [↓keeps_fields, ↓kept_self]
    | with_reducible apply keeps_failJob | with_reducible apply keeps_foldl | split)

theorem keeps_execSemWaitReport {z0 : State} {core : Fin 32} {s : State} (hK : Keeps z0 s) : KeepsE z0 (execSemWaitReport
    core s) := by
  unfold execSemWaitReport
  try dsimp only
  repeat' (first
    | intro _ | with_reducible assumption | with_reducible apply keepsE_next | with_reducible apply keeps_ite
    | with_reducible apply keepsE_ite | simp only [↓keeps_fields, ↓kept_self] | with_reducible apply keeps_swait
    | with_reducible apply keeps_hwPost | with_reducible apply keeps_onSched
    | with_reducible apply keeps_endDeadlock | with_reducible apply keeps_tryDonate | split)

theorem keeps_containCore {z0 : State} (s : State) (c : Nat) (hK : Keeps z0 s) : Keeps z0 (containCore s c) := by
  unfold containCore
  try dsimp only
  repeat' (first
    | with_reducible assumption | with_reducible apply keeps_ite | simp only [↓keeps_fields, ↓kept_self]
    | with_reducible apply keeps_ctrlWrite | with_reducible apply keeps_teardown
    | with_reducible apply keeps_partitionReset | split)

theorem keeps_detachRun {z0 : State} (s : State) (c : Nat) (hK : Keeps z0 s) : Keeps z0 (detachRun s c) := by
  unfold detachRun
  try dsimp only
  repeat' (first
    | with_reducible assumption | simp only [↓keeps_fields, ↓kept_self] | with_reducible apply keeps_reschedule
    | with_reducible apply keeps_interruptRun | split)

theorem keeps_execStopIdleTimeout {z0 : State} {core : Fin 32} {s : State} (hK : Keeps z0 s) : KeepsE z0
    (execStopIdleTimeout core s) := by
  unfold execStopIdleTimeout
  try dsimp only
  repeat' (first
    | intro _ | with_reducible assumption | with_reducible apply keepsE_next | with_reducible apply keeps_ite
    | with_reducible apply keepsE_ite | with_reducible apply keeps_containCore | with_reducible apply keeps_detachRun | split)

end Sys2Proof.Machine
end

