-- ==== Sys2Proof/Laws/KeepsSelfTest.lean ====
section
/-! SUPPORT. Sys2Proof/Laws/KeepsSelfTest.lean: each operation of Machine/SelfTest.lean keeps what `Keeps` says. -/

namespace Sys2Proof.Machine

set_option simprocs false
set_option linter.all false

theorem keeps_bistWipe {z0 : State} (s : State) (x : Slice) (hK : Keeps z0 s) : Keeps z0 (bistWipe s x) := by
  unfold bistWipe
  try dsimp only
  repeat' (first
    | intro _ | with_reducible assumption | simp only [↓keeps_fields, ↓kept_self] | with_reducible apply keeps_kept
    | with_reducible apply keeps_onCore | with_reducible exact FusesGrow.refl _ | with_reducible exact Nat.le_refl _
    | with_reducible exact Nat.le_add_right _ _ | with_reducible apply Memory.wf_clear
    | with_reducible apply Memory.wf_filter | split | assumption)

theorem keeps_checkPassed {z0 : State} (s : State) (c n : Nat) (hK : Keeps z0 s) : Keeps z0 (checkPassed s c n) := by
  unfold checkPassed
  try dsimp only
  repeat' (first
    | intro _ | with_reducible assumption | with_reducible apply keeps_ite | simp only [↓keeps_fields, ↓kept_self]
    | with_reducible apply keeps_reschedule | with_reducible apply keeps_ctrlWrite
    | with_reducible apply keeps_onRas | with_reducible apply keeps_getD | split)

theorem keeps_dropSensor {z0 : State} (s : State) (k : Nat) (hK : Keeps z0 s) : Keeps z0 (dropSensor s k) := by
  unfold dropSensor
  try dsimp only
  repeat' (first
    | with_reducible assumption | with_reducible apply keeps_ite | simp only [↓keeps_fields, ↓kept_self]
    | with_reducible apply keeps_raiseEvent | with_reducible apply keeps_onRas | split)

theorem keeps_alarmPath {z0 : State} (s : State) (f : Ras → Ras) (hK : Keeps z0 s) : Keeps z0 (alarmPath s f) := by
  unfold alarmPath
  try dsimp only
  repeat' (first
    | with_reducible assumption | simp only [↓keeps_fields, ↓kept_self] | with_reducible apply keeps_mainReset
    | with_reducible apply keeps_onRas | with_reducible apply keeps_releaseMain)

theorem keeps_sliceFail {z0 : State} (s : State) (x : Slice) (hK : Keeps z0 s) : Keeps z0 (sliceFail s x) := by
  unfold sliceFail
  try dsimp only
  repeat' (first
    | intro _ | with_reducible assumption | with_reducible apply keeps_ite | simp only [↓keeps_fields, ↓kept_self]
    | with_reducible apply keeps_retireWay | with_reducible apply keeps_alarmPath
    | with_reducible apply keeps_raiseEvent | with_reducible apply keeps_onRas
    | with_reducible apply keeps_linkRestart | with_reducible apply keeps_modFabPort
    | with_reducible apply keeps_modPort | with_reducible apply keeps_failTo | with_reducible apply keeps_onAon
    | with_reducible apply keeps_retireCore | with_reducible apply keeps_getD | split)

theorem keeps_slicePass {z0 : State} (s : State) (x : Slice) (hK : Keeps z0 s) : Keeps z0 (slicePass s x) := by
  unfold slicePass
  try dsimp only
  repeat' (first
    | with_reducible assumption | simp only [↓keeps_fields, ↓kept_self] | with_reducible apply keeps_onRas
    | with_reducible apply keeps_checkPassed | split)

theorem keeps_deferSlice {z0 : State} (s : State) (x : Slice) (vdd : Nat) (hK : Keeps z0 s) : Keeps z0 (deferSlice s x vdd) := by
  unfold deferSlice
  try dsimp only
  repeat' (first
    | with_reducible assumption | with_reducible apply keeps_ite | simp only [↓keeps_fields, ↓kept_self]
    | with_reducible apply keeps_onRas | split)

theorem keeps_runSlice {z0 : State} (s : State) (x : Slice) (vdd : Nat) (pass : Bool) (hK : Keeps z0 s) : Keeps z0 (runSlice
    s x vdd pass) := by
  unfold runSlice
  try dsimp only
  repeat' (first
    | intro _ | with_reducible assumption | with_reducible apply keeps_ite | simp only [↓keeps_fields, ↓kept_self]
    | with_reducible apply keeps_onRas | with_reducible apply keeps_bistWipe | with_reducible apply keeps_dropSensor
    | with_reducible apply keeps_slicePass | with_reducible apply keeps_sliceFail | with_reducible apply keeps_foldl
    | split)

theorem keeps_trySlice {z0 : State} (s : State) (x : Slice) (vdd : Nat) (pass : Bool) (hK : Keeps z0 s) : Keeps z0 (trySlice
    s x vdd pass) := by
  unfold trySlice
  try dsimp only
  repeat' (first
    | with_reducible assumption | with_reducible apply keeps_ite | with_reducible apply keeps_deferSlice
    | with_reducible apply keeps_runSlice | split)

theorem keeps_execSelftestSlice {z0 : State} {slice : Slice} {vdd : Nat} {pass : Bool} {s : State} (hK : Keeps z0 s) :
    KeepsE z0 (execSelftestSlice slice vdd pass s) := by
  unfold execSelftestSlice
  try dsimp only
  repeat' (first
    | intro _ | with_reducible assumption | with_reducible apply keepsE_next | with_reducible apply keeps_trySlice)

theorem keeps_execSelftestDeferRetry {z0 : State} {slice : Slice} {vdd : Nat} {pass : Bool} {s : State} (hK : Keeps z0 s) :
    KeepsE z0 (execSelftestDeferRetry slice vdd pass s) := by
  unfold execSelftestDeferRetry
  try dsimp only
  repeat' (first
    | intro _ | with_reducible assumption | with_reducible apply keepsE_next | with_reducible apply keeps_ite
    | with_reducible apply keepsE_ite | simp only [↓keeps_fields, ↓kept_self] | with_reducible apply keeps_trySlice
    | with_reducible apply keeps_raiseEvent | with_reducible apply keeps_onRas | split)

theorem keeps_keeperAgain {z0 : State} (s : State) (hK : Keeps z0 s) : Keeps z0 (keeperAgain s) := by
  unfold keeperAgain
  try dsimp only
  repeat' (first
    | intro _ | with_reducible assumption | with_reducible apply keeps_ite | simp only [↓keeps_fields, ↓kept_self]
    | with_reducible apply keeps_kept | with_reducible apply keeps_startFrom | with_reducible apply keeps_revertSlot
    | with_reducible apply keeps_extend | with_reducible exact FusesGrow.refl _ | with_reducible exact Nat.le_refl _
    | with_reducible exact Nat.le_add_right _ _ | with_reducible apply Memory.wf_writeBytes | split | assumption)

theorem keeps_execKeeperRestart {z0 : State} {ok : Bool} {s : State} (hK : Keeps z0 s) : KeepsE z0 (execKeeperRestart ok s) := by
  unfold execKeeperRestart
  try dsimp only
  repeat' (first
    | intro _ | with_reducible assumption | with_reducible apply keepsE_next | with_reducible apply keeps_ite
    | with_reducible apply keepsE_ite | simp only [↓keeps_fields, ↓kept_self]
    | with_reducible apply keeps_raiseEvent | with_reducible apply keeps_logAppend
    | with_reducible apply keeps_keeperAgain | with_reducible apply keeps_onRas
    | with_reducible apply keeps_trialFault | with_reducible apply keeps_alarmPath | split)

theorem keeps_execAlarmPath {z0 : State} {cause : AlarmCause} {s : State} (hK : Keeps z0 s) : KeepsE z0 (execAlarmPath cause
    s) := by
  unfold execAlarmPath
  try dsimp only
  repeat' (first
    | intro _ | with_reducible assumption | with_reducible apply keepsE_next | with_reducible apply keeps_ite
    | with_reducible apply keepsE_ite | simp only [↓keeps_fields, ↓kept_self] | with_reducible apply keeps_alarmPath
    | split)

theorem keeps_rasCtrl {z0 : State} (s : State) (v : Word) (hK : Keeps z0 s) : Keeps z0 (rasCtrl s v) := by
  unfold rasCtrl
  try dsimp only
  repeat' (first
    | with_reducible assumption | with_reducible apply keeps_ite | simp only [↓keeps_fields, ↓kept_self]
    | with_reducible apply keeps_rset | with_reducible apply keeps_alarmPath | split)

theorem keeps_execAlarmForce {z0 : State} {by_ : Req} {v : Word} {s : State} (hK : Keeps z0 s) : KeepsE z0 (execAlarmForce
    by_ v s) := by
  unfold execAlarmForce
  try dsimp only
  repeat' (first
    | intro _ | with_reducible assumption | with_reducible apply keepsE_next | with_reducible apply keeps_mayWrite
    | with_reducible apply keeps_rasCtrl)

theorem keeps_drain {z0 : State} (s : State) (m : Nat) (hK : Keeps z0 s) : Keeps z0 (drain s m) := by
  unfold drain
  try dsimp only
  repeat' (first
    | with_reducible assumption | with_reducible apply keeps_mbxTake)

theorem keeps_repost {z0 : State} (s : State) (m : Nat) (ws : List Word) (hK : Keeps z0 s) : Keeps z0 (repost s m ws) := by
  unfold repost
  try dsimp only
  repeat' (first
    | intro _ | with_reducible assumption | with_reducible apply keeps_mbxWrite | with_reducible apply keeps_foldl
    | with_reducible apply keeps_getD)

theorem keeps_replaceRun {z0 : State} (s : State) (c : Nat) (hK : Keeps z0 s) : Keeps z0 (replaceRun s c) := by
  unfold replaceRun
  try dsimp only
  repeat' (first
    | with_reducible assumption | with_reducible apply keeps_ite | simp only [↓keeps_fields, ↓kept_self]
    | with_reducible apply keeps_modJob | split | assumption)

theorem keeps_deadCore {z0 : State} (s : State) (c : Nat) (hK : Keeps z0 s) : Keeps z0 (deadCore s c) := by
  unfold deadCore
  try dsimp only
  repeat' (first
    | with_reducible assumption | with_reducible apply keeps_containCore | with_reducible apply keeps_drain
    | with_reducible apply keeps_reschedule | with_reducible apply keeps_replaceRun)

theorem keeps_deadReceiver {z0 : State} (s : State) (m : Nat) (hK : Keeps z0 s) : Keeps z0 (deadReceiver s m) := by
  unfold deadReceiver
  try dsimp only
  repeat' (first
    | with_reducible assumption | with_reducible apply keeps_ite | with_reducible apply keeps_deadCore
    | with_reducible apply keeps_repost | with_reducible apply keeps_dspRestart | with_reducible apply keeps_drain
    | with_reducible apply keeps_trialFault | with_reducible apply keeps_secRestart
    | with_reducible apply keeps_resendAll | with_reducible apply keeps_resendFrom | split)

theorem keeps_monitorMail {z0 : State} (s : State) (m : Nat) (hK : Keeps z0 s) : Keeps z0 (monitorMail s m) := by
  unfold monitorMail
  try dsimp only
  repeat' (first
    | with_reducible assumption | with_reducible apply keeps_ite | simp only [↓keeps_fields, ↓kept_self]
    | with_reducible apply keeps_onRas | with_reducible apply keeps_logAppend
    | with_reducible apply keeps_deadReceiver | split)

theorem keeps_execHealthMonitorSample {z0 : State} {s : State} (hK : Keeps z0 s) : KeepsE z0 (execHealthMonitorSample s) := by
  unfold execHealthMonitorSample
  try dsimp only
  repeat' (first
    | intro _ | with_reducible assumption | with_reducible apply keepsE_next | with_reducible apply keeps_ite
    | with_reducible apply keepsE_ite | with_reducible apply keeps_monitorMail | with_reducible apply keeps_foldl
    | split)

theorem keeps_execDspPing {z0 : State} {s : State} (hK : Keeps z0 s) : KeepsE z0 (execDspPing s) := by
  unfold execDspPing
  try dsimp only
  repeat' (first
    | intro _ | with_reducible assumption | with_reducible apply keepsE_next | with_reducible apply keeps_ite
    | with_reducible apply keepsE_ite | with_reducible apply keeps_repost | split)

theorem keeps_execSecRequest {z0 : State} {s : State} (hK : Keeps z0 s) : KeepsE z0 (execSecRequest s) := by
  unfold execSecRequest
  try dsimp only
  repeat' (first
    | intro _ | with_reducible assumption | with_reducible apply keepsE_next | with_reducible apply keeps_ite
    | with_reducible apply keepsE_ite | with_reducible apply keeps_mbxTake | split)

theorem keeps_execSecResult {z0 : State} {s : State} (hK : Keeps z0 s) : KeepsE z0 (execSecResult s) := by
  unfold execSecResult
  try dsimp only
  repeat' (first
    | intro _ | with_reducible assumption | with_reducible apply keepsE_next | with_reducible apply keeps_ite
    | with_reducible apply keepsE_ite | with_reducible apply keeps_mbxTake | split)

end Sys2Proof.Machine
end

