-- ==== Sys2Proof/Laws/KeepsBus.lean ====
section
/-! SUPPORT. Sys2Proof/Laws/KeepsBus.lean: each operation of Machine/Bus.lean keeps what `Keeps` says. -/

namespace Sys2Proof.Machine

set_option simprocs false
set_option linter.all false

theorem keeps_sysWrite {z0 : State} {s : State} {off : Nat} {v : Word} (hK : Keeps z0 s) {t_ : State} (e_ : sysWrite s off v
    = some t_) : Keeps z0 t_ := by
  unfold sysWrite at e_
  try dsimp only at e_
  repeat' (first | cases e_ | split at e_ | (rw [Option.map_eq_some_iff] at e_; obtain ⟨a_, ha_, e_⟩ := e_) | (rw [Option.bind_eq_some_iff] at e_; obtain ⟨a_, ha_, e_⟩ := e_))
  all_goals repeat' (first
    | with_reducible assumption | with_reducible apply keeps_ite | simp only [↓keeps_fields, ↓kept_self]
    | with_reducible apply keeps_rwrite | split)

theorem keeps_coreCtrl {z0 : State} (s : State) (n : Nat) (v : Word) (hK : Keeps z0 s) : Keeps z0 (coreCtrl s n v) := by
  unfold coreCtrl
  try dsimp only
  repeat' (first
    | with_reducible assumption | with_reducible apply keeps_ite | simp only [↓keeps_fields, ↓kept_self]
    | with_reducible apply keeps_ctrlWrite | with_reducible apply keeps_stopCore | split)

theorem keeps_coreWrite {z0 : State} {s : State} {n off : Nat} {v : Word} (hK : Keeps z0 s) {t_ : State} (e_ : coreWrite s n
    off v = some t_) : Keeps z0 t_ := by
  unfold coreWrite at e_
  try dsimp only at e_
  repeat' (first | cases e_ | split at e_ | (rw [Option.map_eq_some_iff] at e_; obtain ⟨a_, ha_, e_⟩ := e_) | (rw [Option.bind_eq_some_iff] at e_; obtain ⟨a_, ha_, e_⟩ := e_))
  all_goals repeat' (first
    | with_reducible assumption | with_reducible apply keeps_ite | simp only [↓keeps_fields, ↓kept_self]
    | with_reducible apply keeps_coreCtrl | with_reducible apply keeps_onCore | split)

theorem keeps_memRegWrite {z0 : State} {s : State} {off : Nat} {v : Word} (hK : Keeps z0 s) {t_ : State} (e_ : memRegWrite s
    off v = some t_) : Keeps z0 t_ := by
  unfold memRegWrite at e_
  try dsimp only at e_
  repeat' (first | cases e_ | split at e_ | (rw [Option.map_eq_some_iff] at e_; obtain ⟨a_, ha_, e_⟩ := e_) | (rw [Option.bind_eq_some_iff] at e_; obtain ⟨a_, ha_, e_⟩ := e_))
  all_goals repeat' (first
    | intro _ | with_reducible assumption | with_reducible apply keeps_ite | simp only [↓keeps_fields, ↓kept_self]
    | with_reducible apply keeps_otcInvalidate | with_reducible apply keeps_onMem | with_reducible apply keeps_getD
    | split)

theorem keeps_schedWrite {z0 : State} {s : State} {off : Nat} {v : Word} (hK : Keeps z0 s) {t_ : State} (e_ : schedWrite s
    off v = some t_) : Keeps z0 t_ := by
  unfold schedWrite at e_
  try dsimp only at e_
  repeat' (first | cases e_ | split at e_ | (rw [Option.map_eq_some_iff] at e_; obtain ⟨a_, ha_, e_⟩ := e_) | (rw [Option.bind_eq_some_iff] at e_; obtain ⟨a_, ha_, e_⟩ := e_))
  all_goals repeat' (first
    | with_reducible assumption | with_reducible apply keeps_ite | simp only [↓keeps_fields, ↓kept_self]
    | with_reducible apply keeps_setRot | with_reducible apply keeps_rotWrite | with_reducible apply keeps_rwrite
    | split)

theorem keeps_fabCtrl {z0 : State} (s : State) (v : Word) (hK : Keeps z0 s) : Keeps z0 (fabCtrl s v) := by
  unfold fabCtrl
  try dsimp only
  repeat' (first
    | with_reducible assumption | with_reducible apply keeps_ite | simp only [↓keeps_fields, ↓kept_self]
    | with_reducible apply keeps_onFab | with_reducible apply keeps_routeCommit
    | with_reducible apply keeps_moorStart | with_reducible apply keeps_fabRestart | split)

theorem keeps_fabWrite {z0 : State} {s : State} {off : Nat} {v : Word} (hK : Keeps z0 s) {t_ : State} (e_ : fabWrite s off v
    = some t_) : Keeps z0 t_ := by
  unfold fabWrite at e_
  try dsimp only at e_
  repeat' (first | cases e_ | split at e_ | (rw [Option.map_eq_some_iff] at e_; obtain ⟨a_, ha_, e_⟩ := e_) | (rw [Option.bind_eq_some_iff] at e_; obtain ⟨a_, ha_, e_⟩ := e_))
  all_goals repeat' (first
    | with_reducible assumption | with_reducible apply keeps_ite | simp only [↓keeps_fields, ↓kept_self]
    | with_reducible apply keeps_fabCtrl | with_reducible apply keeps_onFab | with_reducible apply keeps_rwrite
    | split)

theorem keeps_hostCtrlWrite {z0 : State} (s : State) (v : Word) (hK : Keeps z0 s) : Keeps z0 (hostCtrlWrite s v) := by
  unfold hostCtrlWrite
  try dsimp only
  repeat' (first
    | with_reducible assumption | with_reducible apply keeps_ite | with_reducible apply keeps_rwrite
    | with_reducible apply keeps_failTo | with_reducible apply keeps_portRestart | split)

theorem keeps_portCfgWrite {z0 : State} (s : State) (a : Nat) (v : Word) (hK : Keeps z0 s) : Keeps z0 (portCfgWrite s a v) := by
  unfold portCfgWrite
  try dsimp only
  repeat' (first
    | with_reducible assumption | with_reducible apply keeps_rwrite)

theorem keeps_hostWrite {z0 : State} {s : State} {off : Nat} {v : Word} (hK : Keeps z0 s) {t_ : State} (e_ : hostWrite s off
    v = some t_) : Keeps z0 t_ := by
  unfold hostWrite at e_
  try dsimp only at e_
  repeat' (first | cases e_ | split at e_ | (rw [Option.map_eq_some_iff] at e_; obtain ⟨a_, ha_, e_⟩ := e_) | (rw [Option.bind_eq_some_iff] at e_; obtain ⟨a_, ha_, e_⟩ := e_))
  all_goals repeat' (first
    | with_reducible assumption | with_reducible apply keeps_ite | with_reducible apply keeps_hostCtrlWrite
    | with_reducible apply keeps_rwrite | with_reducible apply keeps_portCfgWrite | split)

theorem keeps_aonCtrl {z0 : State} (s : State) (keeper : Bool) (v : Word) (hK : Keeps z0 s) : Keeps z0 (aonCtrl s keeper v) := by
  unfold aonCtrl
  try dsimp only
  repeat' (first
    | with_reducible assumption | with_reducible apply keeps_ite | with_reducible apply keeps_latch
    | with_reducible apply keeps_dspReset | with_reducible apply keeps_runStart | with_reducible apply keeps_runStop
    | split)

theorem keeps_gateWrite {z0 : State} (s : State) (v : Word) (hK : Keeps z0 s) : Keeps z0 (gateWrite s v) := by
  unfold gateWrite
  try dsimp only
  repeat' (first
    | with_reducible assumption | with_reducible apply keeps_ite | with_reducible apply keeps_closeGate
    | with_reducible apply keeps_serviceOpen | split)

theorem keeps_candWrite {z0 : State} (s : State) (v : Word) (hK : Keeps z0 s) : Keeps z0 (candWrite s v) := by
  unfold candWrite
  try dsimp only
  repeat' (first
    | with_reducible assumption | with_reducible apply keeps_ite | with_reducible apply keeps_closeCandidate
    | with_reducible apply keeps_candidateOpen | split)

theorem keeps_aonRegWrite {z0 : State} {s : State} {keeper : Bool} {off : Nat} {v : Word} (hK : Keeps z0 s) {t_ : State} (e_
    : aonRegWrite s keeper off v = some t_) : Keeps z0 t_ := by
  unfold aonRegWrite at e_
  try dsimp only at e_
  repeat' (first | cases e_ | split at e_ | (rw [Option.map_eq_some_iff] at e_; obtain ⟨a_, ha_, e_⟩ := e_) | (rw [Option.bind_eq_some_iff] at e_; obtain ⟨a_, ha_, e_⟩ := e_))
  all_goals repeat' (first
    | with_reducible assumption | with_reducible apply keeps_ite | simp only [↓keeps_fields, ↓kept_self]
    | with_reducible apply keeps_aonConfigWrite | with_reducible apply keeps_onAon
    | with_reducible apply keeps_aonCtrl | with_reducible apply keeps_checkSetMode
    | with_reducible apply keeps_modeReq | with_reducible apply keeps_gateWrite
    | with_reducible apply keeps_candWrite | split)

theorem keeps_ctxCtrl {z0 : State} (s : State) (x : Nat) (v : Word) (hK : Keeps z0 s) : Keeps z0 (ctxCtrl s x v) := by
  unfold ctxCtrl
  try dsimp only
  repeat' (first
    | with_reducible assumption | with_reducible apply keeps_ite | simp only [↓keeps_fields, ↓kept_self]
    | with_reducible apply keeps_modCtx | with_reducible apply keeps_camEnable
    | with_reducible apply keeps_camDisable | split)

theorem keeps_winWrite {z0 : State} (s : State) (x w : Nat) (v : Word) (hK : Keeps z0 s) : Keeps z0 (winWrite s x w v) := by
  unfold winWrite
  try dsimp only
  repeat' (first
    | with_reducible assumption | simp only [↓keeps_fields, ↓kept_self] | with_reducible apply keeps_modCtx)

theorem keeps_camWrite {z0 : State} {s : State} {off : Nat} {v : Word} (hK : Keeps z0 s) {t_ : State} (e_ : camWrite s off v
    = some t_) : Keeps z0 t_ := by
  unfold camWrite at e_
  try dsimp only at e_
  repeat' (first | cases e_ | split at e_ | (rw [Option.map_eq_some_iff] at e_; obtain ⟨a_, ha_, e_⟩ := e_) | (rw [Option.bind_eq_some_iff] at e_; obtain ⟨a_, ha_, e_⟩ := e_))
  all_goals repeat' (first
    | with_reducible assumption | with_reducible apply keeps_ite | simp only [↓keeps_fields, ↓kept_self]
    | with_reducible apply keeps_onCam | with_reducible apply keeps_setLowRate | with_reducible apply keeps_rwrite
    | with_reducible apply keeps_camPortEnable | with_reducible apply keeps_ctxCtrl
    | with_reducible apply keeps_bufRelease | with_reducible apply keeps_winWrite | split)

theorem keeps_secCtrl {z0 : State} (s : State) (v : Word) (hK : Keeps z0 s) : Keeps z0 (secCtrl s v) := by
  unfold secCtrl
  try dsimp only
  repeat' (first
    | with_reducible assumption | with_reducible apply keeps_ite | simp only [↓keeps_fields, ↓kept_self]
    | with_reducible apply keeps_zeroiseAll | with_reducible apply keeps_onSec
    | with_reducible apply keeps_ownerUnlock | split)

theorem keeps_secRegWrite {z0 : State} {s : State} {off : Nat} {v : Word} (hK : Keeps z0 s) {t_ : State} (e_ : secRegWrite s
    off v = some t_) : Keeps z0 t_ := by
  unfold secRegWrite at e_
  try dsimp only at e_
  repeat' (first | cases e_ | split at e_ | (rw [Option.map_eq_some_iff] at e_; obtain ⟨a_, ha_, e_⟩ := e_) | (rw [Option.bind_eq_some_iff] at e_; obtain ⟨a_, ha_, e_⟩ := e_))
  all_goals repeat' (first
    | with_reducible assumption | with_reducible apply keeps_ite | simp only [↓keeps_fields, ↓kept_self]
    | with_reducible apply keeps_secCtrl | split)

theorem keeps_onMbx {z0 : State} (s : State) (f : Mbx → Mbx) (hK : Keeps z0 s) : Keeps z0 (onMbx s f) := by
  unfold onMbx
  try dsimp only
  repeat' (first
    | with_reducible assumption | simp only [↓keeps_fields, ↓kept_self])

theorem keeps_mbxRegWrite {z0 : State} {s : State} {by_ : Req} {off : Nat} {v : Word} (hK : Keeps z0 s) {t_ : State} (e_ :
    mbxRegWrite s by_ off v = some t_) : Keeps z0 t_ := by
  unfold mbxRegWrite at e_
  try dsimp only at e_
  repeat' (first | cases e_ | split at e_ | (rw [Option.map_eq_some_iff] at e_; obtain ⟨a_, ha_, e_⟩ := e_) | (rw [Option.bind_eq_some_iff] at e_; obtain ⟨a_, ha_, e_⟩ := e_))
  all_goals repeat' (first
    | intro _ | with_reducible assumption | with_reducible apply keeps_ite | simp only [↓keeps_fields, ↓kept_self]
    | with_reducible apply keeps_onMbx | with_reducible apply keeps_getD | split)

theorem keeps_rasWrite {z0 : State} {s : State} {off : Nat} {v : Word} (hK : Keeps z0 s) {t_ : State} (e_ : rasWrite s off v
    = some t_) : Keeps z0 t_ := by
  unfold rasWrite at e_
  try dsimp only at e_
  repeat' (first | cases e_ | split at e_ | (rw [Option.map_eq_some_iff] at e_; obtain ⟨a_, ha_, e_⟩ := e_) | (rw [Option.bind_eq_some_iff] at e_; obtain ⟨a_, ha_, e_⟩ := e_))
  all_goals repeat' (first
    | with_reducible assumption | with_reducible apply keeps_ite | simp only [↓keeps_fields, ↓kept_self]
    | with_reducible apply keeps_rasCtrl | with_reducible apply keeps_onRas | with_reducible apply keeps_rwrite
    | split)

theorem keeps_pcieCtrl {z0 : State} (s : State) (v : Word) (hK : Keeps z0 s) : Keeps z0 (pcieCtrl s v) := by
  unfold pcieCtrl
  try dsimp only
  repeat' (first
    | with_reducible assumption | with_reducible apply keeps_ite | with_reducible apply keeps_pciePerst
    | with_reducible apply keeps_pcieEnable | with_reducible apply keeps_pcieRetrain | split)

theorem keeps_pcieWrite {z0 : State} {s : State} {off : Nat} {v : Word} (hK : Keeps z0 s) {t_ : State} (e_ : pcieWrite s off
    v = some t_) : Keeps z0 t_ := by
  unfold pcieWrite at e_
  try dsimp only at e_
  repeat' (first | cases e_ | split at e_ | (rw [Option.map_eq_some_iff] at e_; obtain ⟨a_, ha_, e_⟩ := e_) | (rw [Option.bind_eq_some_iff] at e_; obtain ⟨a_, ha_, e_⟩ := e_))
  all_goals repeat' (first
    | with_reducible assumption | with_reducible apply keeps_ite | simp only [↓keeps_fields, ↓kept_self]
    | with_reducible apply keeps_pcieCtrl | with_reducible apply keeps_onPcie | with_reducible apply keeps_cfgWrite
    | split)

theorem keeps_periRegWrite {z0 : State} {s : State} {off : Nat} {v : Word} (hK : Keeps z0 s) {t_ : State} (e_ : periRegWrite
    s off v = some t_) : Keeps z0 t_ := by
  unfold periRegWrite at e_
  try dsimp only at e_
  repeat' (first | cases e_ | split at e_ | (rw [Option.map_eq_some_iff] at e_; obtain ⟨a_, ha_, e_⟩ := e_) | (rw [Option.bind_eq_some_iff] at e_; obtain ⟨a_, ha_, e_⟩ := e_))
  all_goals repeat' (first
    | with_reducible assumption | with_reducible apply keeps_ite | simp only [↓keeps_fields, ↓kept_self]
    | refine keeps_periPlain ?_ (by assumption) | with_reducible apply keeps_modI2c
    | with_reducible apply keeps_modSpi | with_reducible apply keeps_ospiGo | with_reducible apply keeps_onPeri
    | split)

theorem keeps_blockWrite {z0 : State} {s : State} {by_ : Req} {r : Region} {a : Nat} {v : Word} (hK : Keeps z0 s) {t_ :
    State} (e_ : blockWrite s by_ r a v = some t_) : Keeps z0 t_ := by
  unfold blockWrite at e_
  try dsimp only at e_
  repeat' (first | cases e_ | split at e_ | (rw [Option.map_eq_some_iff] at e_; obtain ⟨a_, ha_, e_⟩ := e_) | (rw [Option.bind_eq_some_iff] at e_; obtain ⟨a_, ha_, e_⟩ := e_))
  all_goals repeat' (first
    | with_reducible assumption | with_reducible apply keeps_ite | simp only [↓keeps_fields, ↓kept_self]
    | refine keeps_sysWrite ?_ (by assumption) | refine keeps_coreWrite ?_ (by assumption)
    | refine keeps_memRegWrite ?_ (by assumption) | refine keeps_schedWrite ?_ (by assumption)
    | refine keeps_fabWrite ?_ (by assumption) | refine keeps_hostWrite ?_ (by assumption)
    | refine keeps_aonRegWrite ?_ (by assumption) | refine keeps_camWrite ?_ (by assumption)
    | refine keeps_secRegWrite ?_ (by assumption) | refine keeps_mbxRegWrite ?_ (by assumption)
    | refine keeps_rasWrite ?_ (by assumption) | refine keeps_pcieWrite ?_ (by assumption)
    | refine keeps_periRegWrite ?_ (by assumption) | split)

theorem keeps_registerWrite {z0 : State} (s : State) (by_ : Req) (a : Nat) (v : Word) (hK : Keeps z0 s) : Keeps z0
    (registerWrite s by_ a v) := by
  unfold registerWrite
  try dsimp only
  repeat' (first
    | with_reducible assumption | with_reducible apply keeps_ite | simp only [↓keeps_fields, ↓kept_self]
    | with_reducible apply keeps_busError | with_reducible apply keeps_mbxWrite
    | refine keeps_blockWrite ?_ (by assumption) | with_reducible apply keeps_busOk | split)

theorem keeps_execRegisterWrite {z0 : State} {by_ : Req} {addr : BitVec 48} {v : Word} {s : State} (hK : Keeps z0 s) :
    KeepsE z0 (execRegisterWrite by_ addr v s) := by
  unfold execRegisterWrite
  try dsimp only
  repeat' (first
    | intro _ | with_reducible assumption | with_reducible apply keepsE_next
    | with_reducible apply keeps_registerWrite)

end Sys2Proof.Machine
end

