-- ==== Sys2Proof/Laws/KeepsQueueReq.lean ====
section
/-! SUPPORT. Sys2Proof/Laws/KeepsQueueReq.lean: each operation of Machine/QueueReq.lean keeps what `Keeps` says. -/

namespace Sys2Proof.Machine

set_option simprocs false
set_option linter.all false

theorem keeps_withQueue {z0 : State} (s : State) (h p q : Nat) (go : Queue → State) (h_go : ∀ (x0_ : Queue), Keeps z0 (go
    x0_)) (hK : Keeps z0 s) : Keeps z0 (withQueue s h p q go) := by
  unfold withQueue
  try dsimp only
  repeat' (first
    | intro _ | with_reducible assumption | with_reducible apply h_go | with_reducible apply keeps_ite
    | simp only [↓keeps_fields, ↓kept_self] | with_reducible apply keeps_complete | split)

theorem keeps_withSession {z0 : State} (s : State) (h p n : Nat) (go : Session → State) (h_go : ∀ (x0_ : Session), Keeps z0
    (go x0_)) (hK : Keeps z0 s) : Keeps z0 (withSession s h p n go) := by
  unfold withSession
  try dsimp only
  repeat' (first
    | intro _ | with_reducible assumption | with_reducible apply h_go | with_reducible apply keeps_ite
    | simp only [↓keeps_fields, ↓kept_self] | with_reducible apply keeps_complete | split)

theorem keeps_reserveRoutes {s0 : State} {l : List Route} : ∀ {s : State}, Keeps s0 s → ∀ {t_ : State} {y_ : List Nat},
    reserveRoutes s l = some (t_, y_) → Keeps s0 t_ := by
  induction l with
  | nil =>
    intro s hK t_ y_ e
    unfold reserveRoutes at e
    cases e
    exact hK
  | cons r l ih =>
    intro s hK t_ y_ e
    unfold reserveRoutes at e
    dsimp only at e
    split at e
    · cases e
    · rename_i t fs e1
      rw [Option.map_eq_some_iff] at e
      obtain ⟨a, ha, e⟩ := e
      cases e
      refine ih ?_ ha
      split at e1
      · split at e1
        · cases e1
        · exact keeps_allocFixed hK e1
      · split at e1
        · cases e1
          exact keeps_nextFree _ hK
        · cases e1

theorem keeps_createQueue {z0 : State} {s : State} {v : Queue} {rs : List Route} (hK : Keeps z0 s) {t_ : State} {y_} (e_ :
    createQueue s v rs = some (t_, y_)) : Keeps z0 t_ := by
  unfold createQueue at e_
  try dsimp only at e_
  repeat' (first | cases e_ | split at e_ | (rw [Option.map_eq_some_iff] at e_; obtain ⟨a_, ha_, e_⟩ := e_) | (rw [Option.bind_eq_some_iff] at e_; obtain ⟨a_, ha_, e_⟩ := e_))
  all_goals repeat' (first
    | intro _ | with_reducible assumption | simp only [↓keeps_fields, ↓kept_self]
    | refine keeps_allocFixed ?_ (by assumption) | refine keeps_reserveRoutes ?_ (by assumption)
    | with_reducible apply keeps_onK | with_reducible apply keeps_syncQueue | with_reducible apply keeps_foldl
    | split)

theorem keeps_execQueueCreate {z0 : State} {rq : Request} {s : State} (hK : Keeps z0 s) : KeepsE z0 (execQueueCreate rq s) := by
  unfold execQueueCreate
  try dsimp only
  repeat' (first
    | intro _ | with_reducible assumption | with_reducible apply keepsE_next | with_reducible apply keeps_ite
    | with_reducible apply keepsE_ite | simp only [↓keeps_fields, ↓kept_self] | with_reducible apply keeps_onRequest
    | with_reducible apply keeps_complete | refine keeps_createQueue ?_ (by assumption)
    | with_reducible apply keeps_nextFree | split)

theorem keeps_execQueueDestroy {z0 : State} {rq : Request} {s : State} (hK : Keeps z0 s) : KeepsE z0 (execQueueDestroy rq s) := by
  unfold execQueueDestroy
  try dsimp only
  repeat' (first
    | intro _ | with_reducible assumption | with_reducible apply keepsE_next | with_reducible apply keeps_ite
    | with_reducible apply keepsE_ite | simp only [↓keeps_fields, ↓kept_self] | with_reducible apply keeps_onRequest
    | with_reducible apply keeps_complete | with_reducible apply keeps_withQueue
    | with_reducible apply keeps_sweepQueues | with_reducible apply keeps_modQueue
    | with_reducible apply keeps_syncQueue | split)

theorem keeps_execQueueSettings {z0 : State} {rq : Request} {s : State} (hK : Keeps z0 s) : KeepsE z0 (execQueueSettings rq
    s) := by
  unfold execQueueSettings
  try dsimp only
  repeat' (first
    | intro _ | with_reducible assumption | with_reducible apply keepsE_next | with_reducible apply keeps_ite
    | with_reducible apply keepsE_ite | simp only [↓keeps_fields, ↓kept_self] | with_reducible apply keeps_onRequest
    | with_reducible apply keeps_withQueue | with_reducible apply keeps_complete | with_reducible apply keeps_modQueue
    | with_reducible apply keeps_reschedule | with_reducible apply keeps_applySettings | split)

theorem keeps_execScheduleSet {z0 : State} {rq : Request} {s : State} (hK : Keeps z0 s) : KeepsE z0 (execScheduleSet rq s) := by
  unfold execScheduleSet
  try dsimp only
  repeat' (first
    | intro _ | with_reducible assumption | with_reducible apply keepsE_next | with_reducible apply keeps_ite
    | with_reducible apply keepsE_ite | simp only [↓keeps_fields, ↓kept_self] | with_reducible apply keeps_onRequest
    | with_reducible apply keeps_complete | with_reducible apply keeps_onSched | with_reducible apply keeps_setRot
    | with_reducible apply keeps_reschedule | with_reducible apply keeps_armTable | with_reducible apply keeps_foldl
    | split)

end Sys2Proof.Machine
end

