-- ==== Sys2Proof/Laws/KeepsJobReq.lean ====
section
/-! SUPPORT. Sys2Proof/Laws/KeepsJobReq.lean: each operation of Machine/JobReq.lean keeps what `Keeps` says. -/

namespace Sys2Proof.Machine

set_option simprocs false
set_option linter.all false

theorem keeps_putJob {z0 : State} (s : State) (x : Job) (hK : Keeps z0 s) : Keeps z0 (putJob s x) := by
  unfold putJob
  try dsimp only
  repeat' (first
    | with_reducible assumption | simp only [↓keeps_fields, ↓kept_self] | with_reducible apply keeps_onK
    | with_reducible apply keeps_modQueue | with_reducible apply keeps_modSession | split)

theorem keeps_repoint {z0 : State} (s : State) (q : Nat) (hK : Keeps z0 s) : Keeps z0 (repoint s q) := by
  unfold repoint
  try dsimp only
  repeat' (first
    | intro _ | with_reducible assumption | simp only [↓keeps_fields, ↓kept_self]
    | with_reducible apply keeps_modQueue | with_reducible apply keeps_getD)

theorem keeps_invokeOn {z0 : State} (s : State) (h p q : Nat) (v : Queue) (rq : Request) (ses : Option (Nat × Session)) (g :
    List GCmd) (hK : Keeps z0 s) : Keeps z0 (invokeOn s h p q v rq ses g) := by
  unfold invokeOn
  try dsimp only
  repeat' (first
    | intro _ | with_reducible assumption | with_reducible apply keeps_ite | simp only [↓keeps_fields, ↓kept_self]
    | with_reducible apply keeps_withTiles | with_reducible apply keeps_complete | with_reducible apply keeps_putJob
    | with_reducible apply keeps_raiseEvent | split)

theorem keeps_execInvoke {z0 : State} {rq : Request} {s : State} (hK : Keeps z0 s) : KeepsE z0 (execInvoke rq s) := by
  unfold execInvoke
  try dsimp only
  repeat' (first
    | intro _ | with_reducible assumption | with_reducible apply keepsE_next | with_reducible apply keeps_ite
    | with_reducible apply keepsE_ite | simp only [↓keeps_fields, ↓kept_self] | with_reducible apply keeps_onRequest
    | with_reducible apply keeps_repoint | with_reducible apply keeps_complete
    | with_reducible apply keeps_withQueue | with_reducible apply keeps_invokeOn
    | with_reducible apply keeps_withSession | split)

theorem keeps_reserveSeals {z0 : State} {s : State} {m : Model} {v : Session} {a0_ : List (Nat × Nat × Nat)} (hK : Keeps z0
    s) {t_ : State} {y_} (e_ : reserveSeals s m v a0_ = some (t_, y_)) : Keeps z0 t_ := by
  induction a0_ generalizing s m v t_ y_ with
  | nil =>
    unfold reserveSeals at e_
    cases e_
    first | exact hK | done
  | cons a r ih =>
    unfold reserveSeals at e_
    try dsimp only at e_
    repeat' (first | cases e_ | split at e_ | (rw [Option.map_eq_some_iff] at e_; obtain ⟨a_, ha_, e_⟩ := e_) | (rw [Option.bind_eq_some_iff] at e_; obtain ⟨a_, ha_, e_⟩ := e_))
    all_goals repeat' (first
      | with_reducible assumption | with_reducible apply keeps_ite | simp only [↓keeps_fields, ↓kept_self] | (apply ih (e_ := by assumption))
      | split)

theorem keeps_allocSems {z0 : State} {s : State} {p q : Nat} {a0_ : List Nat} (hK : Keeps z0 s) {t_ : State} {y_} (e_ :
    allocSems s p q a0_ = some (t_, y_)) : Keeps z0 t_ := by
  induction a0_ generalizing s p q t_ y_ with
  | nil =>
    unfold allocSems at e_
    cases e_
    first | exact hK | done
  | cons a r ih =>
    unfold allocSems at e_
    try dsimp only at e_
    repeat' (first | cases e_ | split at e_ | (rw [Option.map_eq_some_iff] at e_; obtain ⟨a_, ha_, e_⟩ := e_) | (rw [Option.bind_eq_some_iff] at e_; obtain ⟨a_, ha_, e_⟩ := e_))
    all_goals repeat' (first
      | with_reducible assumption | simp only [↓keeps_fields, ↓kept_self] | (apply ih (e_ := by assumption))
      | split)

theorem keeps_admitWith {z0 : State} (s : State) (j : Nat) (x : Job) (pages : List SealPage) (sems : List (Nat × Nat)) (hK :
    Keeps z0 s) : Keeps z0 (admitWith s j x pages sems) := by
  unfold admitWith
  try dsimp only
  repeat' (first
    | with_reducible assumption | with_reducible apply keeps_ite | simp only [↓keeps_fields, ↓kept_self]
    | with_reducible apply keeps_modJob | with_reducible apply keeps_claimAll
    | with_reducible apply keeps_reschedule | with_reducible apply keeps_askUp | split)

theorem keeps_tryAdmit {s0 : State} (s : State) (j : Nat) (x : Job) (hK : Keeps s0 s) : Keeps s0 (tryAdmit s j x) := by
  unfold tryAdmit
  split
  · exact hK
  · rename_i s1 sems e
    have h1 : Keeps s0 s1 := keeps_allocSems hK e
    generalize (x.session.bind fun n => (sessionAt s n).bind fun v => (modelAt s v.model).map fun m => (n, v, m)) = o
    cases o with
    | none => exact keeps_admitWith _ _ _ _ _ h1
    | some y =>
      obtain ⟨n, v, m⟩ := y
      dsimp only
      generalize (if x.noKv || (x.refill && v.kept.contains 0) then [] else sealPlan s n v m x) = plan
      split
      · rename_i s2 pages e2
        exact keeps_admitWith _ _ _ _ _ (keeps_reserveSeals h1 e2)
      · exact keeps_evict _ _ _ hK

theorem keeps_remodel {z0 : State} {s : State} {j : Nat} {x : Job} (hK : Keeps z0 s) {t_ : State} {y_} (e_ : remodel s j x =
    some (t_, y_)) : Keeps z0 t_ := by
  unfold remodel at e_
  try dsimp only at e_
  repeat' (first | cases e_ | split at e_ | (rw [Option.map_eq_some_iff] at e_; obtain ⟨a_, ha_, e_⟩ := e_) | (rw [Option.bind_eq_some_iff] at e_; obtain ⟨a_, ha_, e_⟩ := e_))
  all_goals repeat' (first
    | intro _ | with_reducible assumption | with_reducible apply keeps_ite | simp only [↓keeps_fields, ↓kept_self]
    | with_reducible apply keeps_modJob | split)

theorem keeps_execJobAdmission {z0 : State} {job : Nat} {s : State} (hK : Keeps z0 s) : KeepsE z0 (execJobAdmission job s) := by
  unfold execJobAdmission
  try dsimp only
  repeat' (first
    | intro _ | with_reducible assumption | with_reducible apply keepsE_next | with_reducible apply keeps_ite
    | with_reducible apply keepsE_ite | simp only [↓keeps_fields, ↓kept_self]
    | refine keeps_remodel ?_ (by assumption) | with_reducible apply keeps_repoint
    | with_reducible apply keeps_reschedule | with_reducible apply keeps_endJob
    | with_reducible apply keeps_tryAdmit | split)

theorem keeps_putRefill {z0 : State} (s : State) (n : Nat) (v : Session) (head : Nat) (x : Job) (pos : Nat) (hK : Keeps z0
    s) : Keeps z0 (putRefill s n v head x pos) := by
  unfold putRefill
  try dsimp only
  repeat' (first
    | with_reducible assumption | simp only [↓keeps_fields, ↓kept_self] | with_reducible apply keeps_onK
    | with_reducible apply keeps_modQueue | with_reducible apply keeps_modJob
    | with_reducible apply keeps_modSession | split)

theorem keeps_dropSealed {z0 : State} (s : State) (n : Nat) (x : Job) (hK : Keeps z0 s) : Keeps z0 (dropSealed s n x) := by
  unfold dropSealed
  repeat' (first | with_reducible assumption | with_reducible apply keeps_ite | with_reducible apply keeps_rollbackTo)

theorem keeps_beginAgain {z0 : State} {s : State} {n j : Nat} {x : Job} (hK : Keeps z0 s) {t_ : State} (e_ : beginAgain s n j
    x = some t_) : Keeps z0 t_ := by
  unfold beginAgain at e_
  try dsimp only at e_
  split at e_
  · cases e_
    exact hK
  · split at e_
    · cases e_
      exact keeps_dropSealed _ _ _ hK
    · obtain ⟨y, hy, rfl⟩ := Option.map_eq_some_iff.mp e_
      exact keeps_restoreSems _ _ (keeps_modJob _ _ _ (keeps_reserveSeals (keeps_dropSealed _ _ _ hK) hy))

theorem keeps_beginReingest {z0 : State} (s : State) (n : Nat) (v : Session) (j : Nat) (x : Job) (hK : Keeps z0 s) : Keeps z0
    (beginReingest s n v j x) := by
  unfold beginReingest
  try dsimp only
  repeat' (first
    | with_reducible assumption | with_reducible apply keeps_ite | with_reducible apply keeps_putRefill
    | with_reducible apply keeps_evict | refine keeps_reserveKv ?_ (by assumption)
    | refine keeps_beginAgain ?_ (by assumption) | split)

theorem keeps_execSessionReingest {z0 : State} {session : Fin 65536} {s : State} (hK : Keeps z0 s) : KeepsE z0
    (execSessionReingest session s) := by
  unfold execSessionReingest
  try dsimp only
  repeat' (first
    | intro _ | with_reducible assumption | with_reducible apply keepsE_next | with_reducible apply keeps_ite
    | with_reducible apply keepsE_ite | with_reducible apply keeps_beginReingest | with_reducible apply keeps_endJob
    | with_reducible apply keeps_elim | split)

theorem keeps_shiftTile {z0 : State} (s : State) (k a tag len index : Nat) (hK : Keeps z0 s) : Keeps z0 (shiftTile s k a tag
    len index) := by
  unfold shiftTile
  try dsimp only
  repeat' (first
    | with_reducible assumption | with_reducible apply keeps_writeTile)

theorem keeps_shiftRows {z0 : State} (s : State) (m tensor k : Nat) (hK : Keeps z0 s) : Keeps z0 (shiftRows s m tensor k) := by
  unfold shiftRows
  try dsimp only
  repeat' (first
    | with_reducible assumption | with_reducible apply keeps_ite | simp only [↓keeps_fields, ↓kept_self] | split)

theorem keeps_shiftCkpts {z0 : State} (s : State) (m tensor k : Nat) (hK : Keeps z0 s) : Keeps z0 (shiftCkpts s m tensor k) := by
  unfold shiftCkpts
  try dsimp only
  repeat' (first
    | with_reducible assumption | with_reducible apply keeps_ite | simp only [↓keeps_fields, ↓kept_self]
    | with_reducible apply keeps_onK | split)

theorem keeps_shiftRings {z0 : State} (s : State) (m tensor k : Nat) (hK : Keeps z0 s) : Keeps z0 (shiftRings s m tensor k) := by
  unfold shiftRings
  try dsimp only
  repeat' (first
    | with_reducible assumption | with_reducible apply keeps_ite | simp only [↓keeps_fields, ↓kept_self]
    | with_reducible apply keeps_onK | split)

theorem keeps_shiftStaged {z0 : State} (s : State) (a first fill k : Nat) (hK : Keeps z0 s) : Keeps z0 (shiftStaged s a
    first fill k) := by
  unfold shiftStaged
  try dsimp only
  repeat' (first
    | intro _ | with_reducible assumption | with_reducible apply keeps_shiftTile | with_reducible apply keeps_foldl)

theorem keeps_shiftSlots {z0 : State} (s : State) (tensor k n : Nat) (hK : Keeps z0 s) : Keeps z0 (shiftSlots s tensor k n) := by
  unfold shiftSlots
  try dsimp only
  repeat' (first
    | intro _ | with_reducible assumption | with_reducible apply keeps_ite | simp only [↓keeps_fields, ↓kept_self]
    | with_reducible apply keeps_shiftStaged | with_reducible apply keeps_writeHeaders
    | with_reducible apply keeps_foldl | split)

theorem keeps_shiftTensor {z0 : State} (s : State) (m tensor k : Nat) (hK : Keeps z0 s) : Keeps z0 (shiftTensor s m tensor
    k) := by
  unfold shiftTensor
  try dsimp only
  repeat' (first
    | intro _ | with_reducible assumption | with_reducible apply keeps_shiftRings
    | with_reducible apply keeps_shiftCkpts | with_reducible apply keeps_shiftRows
    | with_reducible apply keeps_shiftSlots | with_reducible apply keeps_shiftTile
    | with_reducible apply keeps_foldl)

theorem keeps_execScaleShift {z0 : State} {model : Nat} {tensor : Fin 65536} {s : State} (hK : Keeps z0 s) : KeepsE z0
    (execScaleShift model tensor s) := by
  unfold execScaleShift
  try dsimp only
  repeat' (first
    | intro _ | with_reducible assumption | with_reducible apply keepsE_next | with_reducible apply keeps_ite
    | with_reducible apply keepsE_ite | simp only [↓keeps_fields, ↓kept_self] | with_reducible apply keeps_nextFree
    | with_reducible apply keeps_shiftTensor | with_reducible apply keeps_onK | with_reducible apply keeps_modModel
    | with_reducible apply keeps_reschedule | with_reducible apply keeps_foldl | split)

theorem keeps_immediate {z0 : State} (s0 : State) (rq : Request) (ok : List Byte → Bool) (run : State → Nat → State) (h_run
    : ∀ (x0_ : State) (x1_ : Nat), Keeps z0 x0_ → Keeps z0 (run x0_ x1_)) (hK : Keeps z0 s0) : Keeps z0 (immediate s0 rq ok
    run) := by
  unfold immediate
  try dsimp only
  repeat' (first
    | intro _ | with_reducible assumption | with_reducible apply h_run | with_reducible apply keeps_ite
    | simp only [↓keeps_fields, ↓kept_self] | with_reducible apply keeps_onK | with_reducible apply keeps_replyTo
    | split)

theorem keeps_cancelJob {z0 : State} (s : State) (j : Nat) (x : Job) (hK : Keeps z0 s) : Keeps z0 (cancelJob s j x) := by
  unfold cancelJob
  try dsimp only
  repeat' (first
    | with_reducible assumption | simp only [↓keeps_fields, ↓kept_self] | with_reducible apply keeps_stopRuns
    | with_reducible apply keeps_modJob | with_reducible apply keeps_reschedule
    | with_reducible apply keeps_settleJob)

theorem keeps_cancelWaiting {z0 : State} {s : State} {h : Nat} (hK : Keeps z0 s) {t_ : State} (e_ : cancelWaiting s h = some
    t_) : Keeps z0 t_ := by
  unfold cancelWaiting at e_
  try dsimp only at e_
  repeat' (first | cases e_ | split at e_ | (rw [Option.map_eq_some_iff] at e_; obtain ⟨a_, ha_, e_⟩ := e_) | (rw [Option.bind_eq_some_iff] at e_; obtain ⟨a_, ha_, e_⟩ := e_))
  all_goals repeat' (first
    | with_reducible assumption | with_reducible apply keeps_ite | simp only [↓keeps_fields, ↓kept_self]
    | with_reducible apply keeps_failOpening | with_reducible apply keeps_complete
    | with_reducible apply keeps_onDisk | with_reducible apply keeps_onK | split)

theorem keeps_execCancel {z0 : State} {rq : Request} {s : State} (hK : Keeps z0 s) : KeepsE z0 (execCancel rq s) := by
  unfold execCancel
  try dsimp only
  repeat' (first
    | intro _ | with_reducible assumption | with_reducible apply keepsE_next | with_reducible apply keeps_ite
    | with_reducible apply keepsE_ite | simp only [↓keeps_fields, ↓kept_self] | with_reducible apply keeps_immediate
    | with_reducible apply keeps_replyTo | with_reducible apply keeps_cancelJob
    | refine keeps_cancelWaiting ?_ (by assumption) | split)

theorem keeps_execQueryHandle {z0 : State} {rq : Request} {s : State} (hK : Keeps z0 s) : KeepsE z0 (execQueryHandle rq s) := by
  unfold execQueryHandle
  try dsimp only
  repeat' (first
    | intro _ | with_reducible assumption | with_reducible apply keepsE_next | with_reducible apply keeps_ite
    | with_reducible apply keepsE_ite | simp only [↓keeps_fields, ↓kept_self] | with_reducible apply keeps_immediate
    | with_reducible apply keeps_replyTo | with_reducible apply keeps_elim | split)

theorem keeps_execReadOutput {z0 : State} {rq : Request} {s : State} (hK : Keeps z0 s) : KeepsE z0 (execReadOutput rq s) := by
  unfold execReadOutput
  try dsimp only
  repeat' (first
    | intro _ | with_reducible assumption | with_reducible apply keepsE_next | with_reducible apply keeps_ite
    | with_reducible apply keepsE_ite | simp only [↓keeps_fields, ↓kept_self] | with_reducible apply keeps_onRequest
    | with_reducible apply keeps_complete | with_reducible apply keeps_streamTile | with_reducible apply keeps_foldl
    | split)

end Sys2Proof.Machine
end

