-- ==== Sys2Proof/Laws/KeepsSessReq.lean ====
section
/-! SUPPORT. Sys2Proof/Laws/KeepsSessReq.lean: each operation of Machine/SessReq.lean keeps what `Keeps` says. -/

namespace Sys2Proof.Machine

set_option simprocs false
set_option linter.all false

theorem keeps_makeSession {z0 : State} {s : State} {v : Session} {m : Model} {n : Nat} (hK : Keeps z0 s) {t_ : State} (e_ :
    makeSession s v m n = some t_) : Keeps z0 t_ := by
  unfold makeSession at e_
  try dsimp only at e_
  repeat' (first | cases e_ | split at e_ | (rw [Option.map_eq_some_iff] at e_; obtain ⟨a_, ha_, e_⟩ := e_) | (rw [Option.bind_eq_some_iff] at e_; obtain ⟨a_, ha_, e_⟩ := e_))
  all_goals repeat' (first
    | with_reducible assumption | simp only [↓keeps_fields, ↓kept_self] | refine keeps_allocFixed ?_ (by assumption)
    | refine keeps_reserveKv ?_ (by assumption) | with_reducible apply keeps_onK | split)

theorem keeps_openStages {z0 : State} (s : State) (mkey h n fmt : Nat) (hK : Keeps z0 s) : Keeps z0 (openStages s mkey h n
    fmt) := by
  unfold openStages
  try dsimp only
  repeat' (first
    | intro _ | with_reducible assumption | with_reducible apply keeps_ite | simp only [↓keeps_fields, ↓kept_self]
    | with_reducible apply keeps_complete | with_reducible apply keeps_placeSend | with_reducible apply keeps_onFab
    | with_reducible apply keeps_foldl | with_reducible apply keeps_elim | split)

theorem keeps_execOpenSession {z0 : State} {rq : Request} {s : State} (hK : Keeps z0 s) : KeepsE z0 (execOpenSession rq s) := by
  unfold execOpenSession
  try dsimp only
  repeat' (first
    | intro _ | with_reducible assumption | with_reducible apply keepsE_next | with_reducible apply keeps_ite
    | with_reducible apply keepsE_ite | simp only [↓keeps_fields, ↓kept_self] | with_reducible apply keeps_onRequest
    | with_reducible apply keeps_complete | with_reducible apply keeps_place
    | refine keeps_makeSession ?_ (by assumption) | with_reducible apply keeps_openStages | split)

theorem keeps_execCloseSession {z0 : State} {rq : Request} {s : State} (hK : Keeps z0 s) : KeepsE z0 (execCloseSession rq s) := by
  unfold execCloseSession
  try dsimp only
  repeat' (first
    | intro _ | with_reducible assumption | with_reducible apply keepsE_next | simp only [↓keeps_fields, ↓kept_self]
    | with_reducible apply keeps_onRequest | with_reducible apply keeps_withSession
    | with_reducible apply keeps_sweepSessions | with_reducible apply keeps_modSession)

theorem keeps_execSessionSettings {z0 : State} {rq : Request} {s : State} (hK : Keeps z0 s) : KeepsE z0 (execSessionSettings
    rq s) := by
  unfold execSessionSettings
  try dsimp only
  repeat' (first
    | intro _ | with_reducible assumption | with_reducible apply keepsE_next | with_reducible apply keeps_ite
    | with_reducible apply keepsE_ite | simp only [↓keeps_fields, ↓kept_self] | with_reducible apply keeps_onRequest
    | with_reducible apply keeps_withSession | with_reducible apply keeps_complete
    | with_reducible apply keeps_applySealFormat | with_reducible apply keeps_modSession
    | with_reducible apply keeps_goCold | split)

theorem keeps_execSubmitInput {z0 : State} {rq : Request} {s : State} (hK : Keeps z0 s) : KeepsE z0 (execSubmitInput rq s) := by
  unfold execSubmitInput
  try dsimp only
  repeat' (first
    | intro _ | with_reducible assumption | with_reducible apply keepsE_next | with_reducible apply keeps_ite
    | with_reducible apply keepsE_ite | simp only [↓keeps_fields, ↓kept_self] | with_reducible apply keeps_onRequest
    | with_reducible apply keeps_withSession | with_reducible apply keeps_complete
    | with_reducible apply keeps_withTiles | with_reducible apply keeps_modSession | split)

end Sys2Proof.Machine
end

