-- ==== Sys2Proof/Laws/KeepsPlace.lean ====
section
/-! SUPPORT. Sys2Proof/Laws/KeepsPlace.lean: each operation of Machine/Place.lean keeps what `Keeps` says. -/

namespace Sys2Proof.Machine

set_option simprocs false
set_option linter.all false

theorem keeps_modStage {z0 : State} (s : State) (place i : Nat) (f : HeldStage → HeldStage) (hK : Keeps z0 s) : Keeps z0
    (modStage s place i f) := by
  unfold modStage
  try dsimp only
  repeat' (first
    | with_reducible assumption | simp only [↓keeps_fields, ↓kept_self] | with_reducible apply keeps_onFab
    | with_reducible apply keeps_place)

theorem keeps_modFront {z0 : State} (s : State) (place : Nat) (f : Front → Front) (hK : Keeps z0 s) : Keeps z0 (modFront s
    place f) := by
  unfold modFront
  try dsimp only
  repeat' (first
    | with_reducible assumption | simp only [↓keeps_fields, ↓kept_self] | with_reducible apply keeps_onFab
    | with_reducible apply keeps_place)

theorem keeps_loadStage {z0 : State} {s : State} {place i : Nat} {p : PlacePlan} {image : List Byte} (hK : Keeps z0 s) :
    KeepsX z0 (loadStage s place i p image) := by
  unfold loadStage
  try dsimp only
  repeat' (first
    | intro _ | with_reducible assumption | with_reducible apply keeps_ite | with_reducible apply keepsX_ite
    | simp only [↓keeps_fields, ↓kept_self] | with_reducible apply keeps_createObj
    | refine keeps_placeModel ?_ (by assumption) | with_reducible apply keeps_landObjs
    | with_reducible apply keeps_onK | refine keeps_createQueue ?_ (by assumption)
    | with_reducible apply keeps_extend | refine keeps_allocFixed ?_ (by assumption)
    | with_reducible apply keeps_onFab | with_reducible apply keeps_modQueue | with_reducible apply keeps_place
    | with_reducible apply keepsX_ok | with_reducible apply keepsX_pure | with_reducible apply keepsX_error
    | with_reducible exact keepsX_faultOf | with_reducible exact keepsX_faultAt
    | with_reducible apply keepsX_bind_state | with_reducible apply keepsX_bind | with_reducible apply keeps_foldl
    | split)

theorem keeps_dropStage {z0 : State} (s : State) (key : Nat) (hK : Keeps z0 s) : Keeps z0 (dropStage s key) := by
  unfold dropStage
  try dsimp only
  repeat' (first
    | intro _ | with_reducible assumption | simp only [↓keeps_fields, ↓kept_self] | with_reducible apply keeps_onFab
    | with_reducible apply keeps_onK | with_reducible apply keeps_dropModel | with_reducible apply keeps_dropQueue
    | with_reducible apply keeps_foldl | split)

theorem keeps_setRoute {z0 : State} (s : State) (place i : Nat) (p : PlacePlan) (hK : Keeps z0 s) : Keeps z0 (setRoute s
    place i p) := by
  unfold setRoute
  try dsimp only
  repeat' (first
    | with_reducible assumption | with_reducible apply keeps_ite | simp only [↓keeps_fields, ↓kept_self]
    | with_reducible apply keeps_place | with_reducible apply keeps_modStage | split)

theorem keeps_commitPlan {z0 : State} (s : State) (place : Nat) (p : PlacePlan) (hK : Keeps z0 s) : Keeps z0 (commitPlan s
    place p) := by
  unfold commitPlan
  try dsimp only
  repeat' (first
    | intro _ | with_reducible assumption | with_reducible apply keeps_setRoute | with_reducible apply keeps_place
    | with_reducible apply keeps_foldl)

theorem keeps_askStages {z0 : State} (s : State) (place : Nat) (p : PlacePlan) (hK : Keeps z0 s) : Keeps z0 (askStages s
    place p) := by
  unfold askStages
  try dsimp only
  repeat' (first
    | intro _ | with_reducible assumption | with_reducible apply keeps_placeSend | with_reducible apply keeps_place
    | with_reducible apply keeps_foldl)

theorem keeps_endPlace {z0 : State} (s : State) (place : Nat) (hK : Keeps z0 s) : Keeps z0 (endPlace s place) := by
  unfold endPlace
  try dsimp only
  repeat' (first
    | intro _ | with_reducible assumption | with_reducible apply keeps_ite | simp only [↓keeps_fields, ↓kept_self]
    | with_reducible apply keeps_place | with_reducible apply keeps_tellOthers
    | with_reducible apply keeps_dropStage | with_reducible apply keeps_onFab | with_reducible apply keeps_complete
    | with_reducible apply keeps_modFront | with_reducible apply keeps_commitPlan | with_reducible apply keeps_elim
    | split)

theorem keeps_sendMove {z0 : State} (s : State) (dest place stage part : Nat) (what : MoveWhat) (mirror : Bool) (b : List
    Byte) (hK : Keeps z0 s) : Keeps z0 (sendMove s dest place stage part what mirror b) := by
  unfold sendMove
  try dsimp only
  repeat' (first
    | intro _ | with_reducible assumption | simp only [↓keeps_fields, ↓kept_self] | with_reducible apply keeps_place
    | with_reducible apply keeps_fabSend | with_reducible apply keeps_onFab | with_reducible apply keeps_foldl
    | with_reducible apply keeps_getD)

theorem keeps_mirrorPage {z0 : State} (s : State) (key : Nat) (hK : Keeps z0 s) : Keeps z0 (mirrorPage s key) := by
  unfold mirrorPage
  try dsimp only
  repeat' (first
    | intro _ | with_reducible assumption | with_reducible apply keeps_ite | simp only [↓keeps_fields, ↓kept_self]
    | with_reducible apply keeps_sendMove | split)

theorem keeps_mirrorPages {z0 : State} (s : State) (n : Nat) (hK : Keeps z0 s) : Keeps z0 (mirrorPages s n) := by
  unfold mirrorPages
  try dsimp only
  repeat' (first
    | intro _ | with_reducible assumption | with_reducible apply keeps_mirrorPage | with_reducible apply keeps_foldl)

theorem keeps_openOnStage {z0 : State} {s : State} {place i fs format : Nat} (hK : Keeps z0 s) {t_ : State} (e_ :
    openOnStage s place i fs format = some t_) : Keeps z0 t_ := by
  unfold openOnStage at e_
  try dsimp only at e_
  repeat' (first | cases e_ | split at e_ | (rw [Option.map_eq_some_iff] at e_; obtain ⟨a_, ha_, e_⟩ := e_) | (rw [Option.bind_eq_some_iff] at e_; obtain ⟨a_, ha_, e_⟩ := e_))
  all_goals repeat' (first
    | intro _ | with_reducible assumption | with_reducible apply keeps_ite | simp only [↓keeps_fields, ↓kept_self]
    | with_reducible apply keeps_place | refine keeps_makeSession ?_ (by assumption)
    | with_reducible apply keeps_modStage | split)

theorem keeps_closeOnStages {z0 : State} (s : State) (place fs : Nat) (hK : Keeps z0 s) : Keeps z0 (closeOnStages s place
    fs) := by
  unfold closeOnStages
  try dsimp only
  repeat' (first
    | intro _ | with_reducible assumption | simp only [↓keeps_fields, ↓kept_self] | with_reducible apply keeps_place
    | with_reducible apply keeps_modStage | with_reducible apply keeps_dropSession
    | with_reducible apply keeps_foldl | split)

theorem keeps_sessionConfirmed {z0 : State} (s : State) (place i fs : Nat) (ok : Bool) (hK : Keeps z0 s) : Keeps z0
    (sessionConfirmed s place i fs ok) := by
  unfold sessionConfirmed
  try dsimp only
  repeat' (first
    | with_reducible assumption | with_reducible apply keeps_ite | simp only [↓keeps_fields, ↓kept_self]
    | with_reducible apply keeps_place | with_reducible apply keeps_complete
    | with_reducible apply keeps_dropSession | with_reducible apply keeps_modFront | split)

theorem keeps_relayJob {z0 : State} (s : State) (h : HeldStage) (x : RelayInfo) (hK : Keeps z0 s) : Keeps z0 (relayJob s h
    x) := by
  unfold relayJob
  try dsimp only
  repeat' (first
    | intro _ | with_reducible assumption | with_reducible apply keeps_ite | simp only [↓keeps_fields, ↓kept_self]
    | with_reducible apply keeps_modSession | refine keeps_reserveKv ?_ (by assumption)
    | with_reducible apply keeps_place | with_reducible apply keeps_putJob | with_reducible apply keeps_getD | split)

theorem keeps_tryRelays {z0 : State} (s : State) (hK : Keeps z0 s) : Keeps z0 (tryRelays s) := by
  unfold tryRelays
  try dsimp only
  repeat' (first
    | intro _ | with_reducible assumption | simp only [↓keeps_fields, ↓kept_self]
    | with_reducible apply keeps_relayJob | with_reducible apply keeps_onFab | with_reducible apply keeps_foldl
    | split)

theorem keeps_noteFrame {z0 : State} (s : State) (src job queue : Nat) (hK : Keeps z0 s) : Keeps z0 (noteFrame s src job
    queue) := by
  unfold noteFrame
  try dsimp only
  repeat' (first
    | with_reducible assumption | with_reducible apply keeps_ite | simp only [↓keeps_fields, ↓kept_self]
    | with_reducible apply keeps_tryRelays | with_reducible apply keeps_onFab | split)

theorem keeps_relayDone {z0 : State} (s : State) (i job : Nat) (ok : Bool) (detail : Nat) (hK : Keeps z0 s) : Keeps z0
    (relayDone s i job ok detail) := by
  unfold relayDone
  try dsimp only
  repeat' (first
    | with_reducible assumption | with_reducible apply keeps_ite | simp only [↓keeps_fields, ↓kept_self]
    | with_reducible apply keeps_modJob | with_reducible apply keeps_settleJob | with_reducible apply keeps_stopRuns
    | split)

theorem keeps_stopRelays {z0 : State} (s : State) (place job : Nat) (hK : Keeps z0 s) : Keeps z0 (stopRelays s place job) := by
  unfold stopRelays
  try dsimp only
  repeat' (first
    | intro _ | with_reducible assumption | simp only [↓keeps_fields, ↓kept_self] | with_reducible apply keeps_place
    | with_reducible apply keeps_purgeMsgs | with_reducible apply keeps_settleJob
    | with_reducible apply keeps_stopRuns | with_reducible apply keeps_modJob | with_reducible apply keeps_onFab
    | with_reducible apply keeps_foldl | split)

theorem keeps_tryMove {z0 : State} (s : State) (place : Nat) (hK : Keeps z0 s) : Keeps z0 (tryMove s place) := by
  unfold tryMove
  try dsimp only
  repeat' (first
    | with_reducible assumption | with_reducible apply keeps_ite | simp only [↓keeps_fields, ↓kept_self]
    | with_reducible apply keeps_place | with_reducible apply keeps_placeSend | with_reducible apply keeps_modFront
    | split)

theorem keeps_tryMoves {z0 : State} (s : State) (hK : Keeps z0 s) : Keeps z0 (tryMoves s) := by
  unfold tryMoves
  try dsimp only
  repeat' (first
    | intro _ | with_reducible assumption | with_reducible apply keeps_tryMove | with_reducible apply keeps_foldl)

theorem keeps_enterPage {z0 : State} (s : State) (n k ix format firstPos : Nat) (b : List Byte) (hK : Keeps z0 s) : Keeps z0
    (enterPage s n k ix format firstPos b) := by
  unfold enterPage
  try dsimp only
  repeat' (first
    | with_reducible assumption | with_reducible apply keeps_ite | simp only [↓keeps_fields, ↓kept_self]
    | with_reducible apply keeps_writeMem | with_reducible apply keeps_syncPage | split)

theorem keeps_enterMirrors {z0 : State} (s : State) (place i : Nat) (hK : Keeps z0 s) : Keeps z0 (enterMirrors s place i) := by
  unfold enterMirrors
  try dsimp only
  repeat' (first
    | intro _ | with_reducible assumption | simp only [↓keeps_fields, ↓kept_self] | with_reducible apply keeps_place
    | with_reducible apply keeps_enterPage | with_reducible apply keeps_freeFixed | with_reducible apply keeps_onMem
    | with_reducible apply keeps_foldl | split)

theorem keeps_openAll {z0 : State} {s : State} {place i : Nat} {a0_ : List (Nat × Nat × Nat)} (hK : Keeps z0 s) {t_ : State}
    (e_ : openAll s place i a0_ = some t_) : Keeps z0 t_ := by
  induction a0_ generalizing s place i t_  with
  | nil =>
    unfold openAll at e_
    cases e_
    first | exact hK | done
  | cons a r ih =>
    unfold openAll at e_
    try dsimp only at e_
    repeat' (first | cases e_ | split at e_ | (rw [Option.map_eq_some_iff] at e_; obtain ⟨a_, ha_, e_⟩ := e_) | (rw [Option.bind_eq_some_iff] at e_; obtain ⟨a_, ha_, e_⟩ := e_))
    all_goals repeat' (first
      | intro _ | with_reducible assumption | simp only [↓keeps_fields, ↓kept_self]
      | refine keeps_openOnStage ?_ (by assumption) | with_reducible apply keeps_place
      | with_reducible apply keeps_modSession | (apply ih (e_ := by assumption))
      | split)

theorem keeps_takeOver {z0 : State} (s : State) (place i : Nat) (p : PlacePlan) (sessions : List (Nat × Nat × Nat)) (image :
    List Byte) (hK : Keeps z0 s) : Keeps z0 (takeOver s place i p sessions image) := by
  unfold takeOver
  try dsimp only
  repeat' (first
    | intro _ | with_reducible assumption | simp only [↓keeps_fields, ↓kept_self]
    | with_reducible apply keeps_placeSend | with_reducible apply keeps_place | with_reducible apply keeps_loadStage
    | refine KeepsX.out (keeps_loadStage ?_) (by assumption) | refine keeps_openAll ?_ (by assumption)
    | with_reducible apply keeps_enterMirrors | with_reducible apply keeps_elim | split)

theorem keeps_reportLeft {z0 : State} (s : State) (addr : Nat) (hK : Keeps z0 s) : Keeps z0 (reportLeft s addr) := by
  unfold reportLeft
  try dsimp only
  repeat' (first
    | with_reducible assumption | with_reducible apply keeps_ite | with_reducible apply keeps_placeSend | split)

theorem keeps_endReplace {z0 : State} (s : State) (place : Nat) (hK : Keeps z0 s) : Keeps z0 (endReplace s place) := by
  unfold endReplace
  try dsimp only
  repeat' (first
    | with_reducible assumption | with_reducible apply keeps_ite | simp only [↓keeps_fields, ↓kept_self]
    | with_reducible apply keeps_place | with_reducible apply keeps_complete | with_reducible apply keeps_modFront
    | split)

theorem keeps_endMove {z0 : State} (s : State) (place pages : Nat) (have_ : List (Nat × Nat)) (hK : Keeps z0 s) : Keeps z0
    (endMove s place pages have_) := by
  unfold endMove
  try dsimp only
  repeat' (first
    | intro _ | with_reducible assumption | with_reducible apply keeps_ite | simp only [↓keeps_fields, ↓kept_self]
    | with_reducible apply keeps_place | with_reducible apply keeps_commitPlan | with_reducible apply keeps_modFront
    | with_reducible apply keeps_tellOthers | with_reducible apply keeps_modSession
    | with_reducible apply keeps_reportLeft | with_reducible apply keeps_placeSend
    | with_reducible apply keeps_dropStage | with_reducible apply keeps_endReplace
    | with_reducible apply keeps_tryMove | with_reducible apply keeps_foldl | with_reducible apply keeps_getD
    | split)

theorem keeps_adoptAnswer {z0 : State} (s : State) (place i : Nat) (ok : Bool) (queue : Nat) (have_ : List (Nat × Nat)) (hK
    : Keeps z0 s) : Keeps z0 (adoptAnswer s place i ok queue have_) := by
  unfold adoptAnswer
  try dsimp only
  repeat' (first
    | with_reducible assumption | with_reducible apply keeps_ite | simp only [↓keeps_fields, ↓kept_self]
    | with_reducible apply keeps_place | with_reducible apply keeps_endReplace | with_reducible apply keeps_tryMove
    | with_reducible apply keeps_modFront | with_reducible apply keeps_placeSend
    | with_reducible apply keeps_endMove | split)

theorem keeps_giveStage {s0 : State} (s : State) (place i to_ : Nat) (hK : Keeps s0 s) : Keeps s0 (giveStage s place i to_) := by
  unfold giveStage
  split
  · refine keeps_placeSend _ _ _ _ (keeps_foldl_fst (fun st e h => ?_) _ hK)
    dsimp only
    cases ((sessionAt st.1 e.2).bind fun v => (modelAt st.1 v.model).map fun m => (v, m)) with
    | none => exact h
    | some y =>
      dsimp only
      split
      · exact keeps_foldl (fun t g ht => keeps_sendMove _ _ _ _ _ _ _ _ ht) _ h
      · exact keeps_foldl (fun t g ht => keeps_sendMove _ _ _ _ _ _ _ _ ht) _
          (keeps_foldl (fun t g ht => keeps_sendMove _ _ _ _ _ _ _ _ ht) _ h)
  · exact keeps_placeSend _ _ _ _ (keeps_foldl (fun t g ht => keeps_sendMove _ _ _ _ _ _ _ _ ht) _ hK)

theorem keeps_storeMirror {z0 : State} (s : State) (src place i session k ix format firstPos part : Nat) (b : List Byte) (hK
    : Keeps z0 s) : Keeps z0 (storeMirror s src place i session k ix format firstPos part b) := by
  unfold storeMirror
  try dsimp only
  repeat' (first
    | with_reducible assumption | with_reducible apply keeps_ite | simp only [↓keeps_fields, ↓kept_self]
    | with_reducible apply keeps_place | with_reducible apply keeps_onMem | with_reducible apply keeps_freeFixed
    | with_reducible apply keeps_placeSend | refine keeps_allocFixed ?_ (by assumption)
    | with_reducible apply keeps_writeMem | split)

theorem keeps_enterSlot {z0 : State} (s : State) (n k : Nat) (b : List Byte) (hK : Keeps z0 s) : Keeps z0 (enterSlot s n k
    b) := by
  unfold enterSlot
  try dsimp only
  repeat' (first
    | intro _ | with_reducible assumption | with_reducible apply keeps_ite | simp only [↓keeps_fields, ↓kept_self]
    | with_reducible apply keeps_writeHeader | with_reducible apply keeps_writeMem | split)

theorem keeps_enterImage {z0 : State} (s : State) (place i : Nat) (b : List Byte) (hK : Keeps z0 s) : Keeps z0 (enterImage s
    place i b) := by
  unfold enterImage
  try dsimp only
  repeat' (first
    | intro _ | with_reducible assumption | simp only [↓keeps_fields, ↓kept_self] | with_reducible apply keeps_place
    | with_reducible apply keeps_onFab | with_reducible apply keeps_takeOver | with_reducible apply keeps_loadStage
    | refine KeepsX.out (keeps_loadStage ?_) (by assumption) | with_reducible apply keeps_placeSend
    | with_reducible apply keeps_elim | split)

theorem keeps_moveDone {z0 : State} (s : State) (x : PartMove) (part : Nat) (hK : Keeps z0 s) : Keeps z0 (moveDone s x part) := by
  unfold moveDone
  try dsimp only
  repeat' (first
    | intro _ | with_reducible assumption | with_reducible apply keeps_ite | simp only [↓keeps_fields, ↓kept_self]
    | with_reducible apply keeps_enterImage | with_reducible apply keeps_storeMirror
    | with_reducible apply keeps_enterPage | with_reducible apply keeps_enterSlot | split)

theorem keeps_moveTile {z0 : State} (s : State) (src part : Nat) (t : MoveTile) (hK : Keeps z0 s) : Keeps z0 (moveTile s src
    part t) := by
  unfold moveTile
  try dsimp only
  repeat' (first
    | intro _ | with_reducible assumption | with_reducible apply keeps_ite | simp only [↓keeps_fields, ↓kept_self]
    | with_reducible apply keeps_place | with_reducible apply keeps_moveDone | with_reducible apply keeps_onFab
    | with_reducible apply keeps_getD | split)

theorem keeps_restartJob {z0 : State} (s : State) (place j : Nat) (f : Front) (hK : Keeps z0 s) : Keeps z0 (restartJob s
    place j f) := by
  unfold restartJob
  try dsimp only
  repeat' (first
    | with_reducible assumption | with_reducible apply keeps_ite | simp only [↓keeps_fields, ↓kept_self]
    | with_reducible apply keeps_tellOthers | with_reducible apply keeps_stopRuns
    | with_reducible apply keeps_endJob | with_reducible apply keeps_place | with_reducible apply keeps_purgeMsgs
    | with_reducible apply keeps_rollback | with_reducible apply keeps_modJob | with_reducible exact fuses_rollback
    | split)

theorem keeps_recoverFront {z0 : State} (s : State) (addr : Nat) (e : Nat × Front) (hK : Keeps z0 s) : Keeps z0
    (recoverFront s addr e) := by
  unfold recoverFront
  try dsimp only
  repeat' (first
    | intro _ | with_reducible assumption | with_reducible apply keeps_ite | simp only [↓keeps_fields, ↓kept_self]
    | with_reducible apply keeps_endPlace | with_reducible apply keeps_modFront
    | with_reducible apply keeps_restartJob | with_reducible apply keeps_tryMove | with_reducible apply keeps_foldl
    | split)

theorem keeps_forget {z0 : State} (s : State) (addr : Nat) (hK : Keeps z0 s) : Keeps z0 (forget s addr) := by
  unfold forget
  try dsimp only
  repeat' (first
    | intro _ | with_reducible assumption | with_reducible apply keeps_ite | simp only [↓keeps_fields, ↓kept_self]
    | with_reducible apply keeps_onFab | with_reducible apply keeps_ackQuench
    | with_reducible apply keeps_endRotation | with_reducible apply keeps_rewritten
    | with_reducible apply keeps_tryUse | with_reducible apply keeps_modRotation
    | with_reducible apply keeps_ownKeys | with_reducible apply keeps_placeSend | with_reducible apply keeps_foldl
    | split)

theorem keeps_recover {z0 : State} (s : State) (addr : Nat) (hK : Keeps z0 s) : Keeps z0 (recover s addr) := by
  unfold recover
  try dsimp only
  repeat' (first
    | intro _ | with_reducible assumption | with_reducible apply keeps_forget
    | with_reducible apply keeps_recoverFront | with_reducible apply keeps_foldl)

theorem keeps_markLost {z0 : State} (s : State) (addr : Nat) (hK : Keeps z0 s) : Keeps z0 (markLost s addr) := by
  unfold markLost
  try dsimp only
  repeat' (first
    | intro _ | with_reducible assumption | with_reducible apply keeps_ite | simp only [↓keeps_fields, ↓kept_self]
    | with_reducible apply keeps_recover | with_reducible apply keeps_floodLight | with_reducible apply keeps_foldl
    | split)

theorem keeps_loseMember {z0 : State} (s : State) (addr : Nat) (hK : Keeps z0 s) : Keeps z0 (loseMember s addr) := by
  unfold loseMember
  try dsimp only
  repeat' (first
    | with_reducible assumption | with_reducible apply keeps_ite | simp only [↓keeps_fields, ↓kept_self]
    | with_reducible apply keeps_onFab | with_reducible apply keeps_floodFrom | with_reducible apply keeps_markLost
    | with_reducible apply keeps_raiseEvent | split)

theorem keeps_replaceFront {z0 : State} (s : State) (place h : Nat) (p : PlacePlan) (hK : Keeps z0 s) : Keeps z0
    (replaceFront s place h p) := by
  unfold replaceFront
  try dsimp only
  repeat' (first
    | with_reducible assumption | simp only [↓keeps_fields, ↓kept_self] | with_reducible apply keeps_place
    | with_reducible apply keeps_endReplace | with_reducible apply keeps_tryMove
    | with_reducible apply keeps_modFront | split)

theorem keeps_execFabricPlace {z0 : State} {rq : Request} {s : State} (hK : Keeps z0 s) : KeepsE z0 (execFabricPlace rq s) := by
  unfold execFabricPlace
  try dsimp only
  repeat' (first
    | intro _ | with_reducible assumption | with_reducible apply keepsE_next | with_reducible apply keeps_ite
    | with_reducible apply keepsE_ite | simp only [↓keeps_fields, ↓kept_self] | with_reducible apply keeps_onRequest
    | with_reducible apply keeps_complete | with_reducible apply keeps_replaceFront
    | with_reducible apply keeps_place | with_reducible apply keeps_loadStage
    | refine KeepsX.out (keeps_loadStage ?_) (by assumption) | with_reducible apply keeps_endPlace
    | with_reducible apply keeps_askStages | with_reducible apply keeps_onFab | with_reducible apply keeps_elim
    | split)

theorem keeps_execMemberLeave {z0 : State} {rq : Request} {s : State} (hK : Keeps z0 s) : KeepsE z0 (execMemberLeave rq s) := by
  unfold execMemberLeave
  try dsimp only
  repeat' (first
    | intro _ | with_reducible assumption | with_reducible apply keepsE_next | with_reducible apply keeps_ite
    | with_reducible apply keepsE_ite | simp only [↓keeps_fields, ↓kept_self] | with_reducible apply keeps_onRequest
    | with_reducible apply keeps_complete | with_reducible apply keeps_floodLight | with_reducible apply keeps_onFab
    | with_reducible apply keeps_placeSend | with_reducible apply keeps_foldl | split)

theorem keeps_takeLeave {z0 : State} (s : State) (addr repl : Nat) (buoyOk : Bool) (hK : Keeps z0 s) : Keeps z0 (takeLeave s
    addr repl buoyOk) := by
  unfold takeLeave
  try dsimp only
  repeat' (first
    | intro _ | with_reducible assumption | with_reducible apply keeps_ite | simp only [↓keeps_fields, ↓kept_self]
    | with_reducible apply keeps_onFab | with_reducible apply keeps_modFront | with_reducible apply keeps_placeSend
    | with_reducible apply keeps_tryMoves | with_reducible apply keeps_foldl | split)

theorem keeps_takeLeft {z0 : State} (s : State) (src addr places pages : Nat) (last bad : Bool) (hK : Keeps z0 s) : Keeps z0
    (takeLeft s src addr places pages last bad) := by
  unfold takeLeft
  try dsimp only
  repeat' (first
    | with_reducible assumption | with_reducible apply keeps_ite | simp only [↓keeps_fields, ↓kept_self]
    | with_reducible apply keeps_complete | with_reducible apply keeps_floodLight | with_reducible apply keeps_onFab
    | split)

theorem keeps_takeLoad {z0 : State} (s : State) (place i : Nat) (p : PlacePlan) (hK : Keeps z0 s) : Keeps z0 (takeLoad s
    place i p) := by
  unfold takeLoad
  try dsimp only
  repeat' (first
    | intro _ | with_reducible assumption | with_reducible apply keeps_ite | simp only [↓keeps_fields, ↓kept_self]
    | with_reducible apply keeps_placeSend | with_reducible apply keeps_place | with_reducible apply keeps_onFab
    | with_reducible apply keeps_loadStage | refine KeepsX.out (keeps_loadStage ?_) (by assumption)
    | with_reducible apply keeps_elim | split)

theorem keeps_sendImage {z0 : State} (s : State) (dest place i : Nat) (p : PlacePlan) (hK : Keeps z0 s) : Keeps z0
    (sendImage s dest place i p) := by
  unfold sendImage
  try dsimp only
  repeat' (first
    | with_reducible assumption | simp only [↓keeps_fields, ↓kept_self] | with_reducible apply keeps_sendMove
    | with_reducible apply keeps_place | split)

theorem keeps_takeLoaded {z0 : State} (s : State) (src place i status queue : Nat) (hK : Keeps z0 s) : Keeps z0 (takeLoaded
    s src place i status queue) := by
  unfold takeLoaded
  try dsimp only
  repeat' (first
    | with_reducible assumption | with_reducible apply keeps_ite | simp only [↓keeps_fields, ↓kept_self]
    | with_reducible apply keeps_place | with_reducible apply keeps_sendImage | with_reducible apply keeps_endPlace
    | with_reducible apply keeps_modFront | split)

theorem keeps_takeAdopt {z0 : State} (s : State) (place i : Nat) (p : PlacePlan) (l : List (Nat × Nat × Nat)) (hK : Keeps z0
    s) : Keeps z0 (takeAdopt s place i p l) := by
  unfold takeAdopt
  try dsimp only
  repeat' (first
    | with_reducible assumption | with_reducible apply keeps_ite | simp only [↓keeps_fields, ↓kept_self]
    | with_reducible apply keeps_placeSend | with_reducible apply keeps_place | with_reducible apply keeps_takeOver
    | with_reducible apply keeps_onFab | split)

theorem keeps_takeStored {z0 : State} (s : State) (place i fs k ix : Nat) (hK : Keeps z0 s) : Keeps z0 (takeStored s place i
    fs k ix) := by
  unfold takeStored
  try dsimp only
  repeat' (first
    | intro _ | with_reducible assumption | with_reducible apply keeps_ite | simp only [↓keeps_fields, ↓kept_self]
    | with_reducible apply keeps_place | with_reducible apply keeps_syncPage | with_reducible apply keeps_modPage
    | split)

theorem keeps_placeMsg {z0 : State} (s : State) (src : Nat) (m : FabMsg) (hK : Keeps z0 s) : Keeps z0 (placeMsg s src m) := by
  unfold placeMsg
  try dsimp only
  repeat' (first
    | intro _ | with_reducible assumption | with_reducible apply keeps_ite | simp only [↓keeps_fields, ↓kept_self]
    | with_reducible apply keeps_place | with_reducible apply keeps_takeLoad | with_reducible apply keeps_takeLoaded
    | with_reducible apply keeps_onFab | with_reducible apply keeps_dropStage
    | with_reducible apply keeps_commitPlan | refine keeps_openOnStage ?_ (by assumption)
    | with_reducible apply keeps_placeSend | with_reducible apply keeps_sessionConfirmed
    | with_reducible apply keeps_closeOnStages | with_reducible apply keeps_tryRelays
    | with_reducible apply keeps_tryMoves | with_reducible apply keeps_relayDone | with_reducible apply keeps_endJob
    | with_reducible apply keeps_stopRelays | with_reducible apply keeps_modSession
    | with_reducible apply keeps_takeStored | with_reducible apply keeps_takeLeave
    | with_reducible apply keeps_takeLeft | with_reducible apply keeps_takeAdopt
    | with_reducible apply keeps_adoptAnswer | with_reducible apply keeps_giveStage
    | with_reducible apply keeps_endMove | with_reducible apply keeps_keyMsg | with_reducible apply keeps_foldl
    | with_reducible apply keeps_getD | with_reducible apply keeps_elim | split)

end Sys2Proof.Machine
end

