-- ==== Sys2Proof/Laws/KeepsFabData.lean ====
section
/-! SUPPORT. Sys2Proof/Laws/KeepsFabData.lean: each operation of Machine/FabData.lean keeps what `Keeps` says. -/

namespace Sys2Proof.Machine

set_option simprocs false
set_option linter.all false

theorem keeps_askRerun {z0 : State} (s : State) (f : FabFrame) (hK : Keeps z0 s) : Keeps z0 (askRerun s f) := by
  unfold askRerun
  try dsimp only
  repeat' (first
    | with_reducible assumption | with_reducible apply keeps_ite | with_reducible apply keeps_fabSend | split)

theorem keeps_forward {z0 : State} (s : State) (f : FabFrame) (hK : Keeps z0 s) : Keeps z0 (forward s f) := by
  unfold forward
  try dsimp only
  repeat' (first
    | with_reducible assumption | with_reducible apply keeps_ite | with_reducible apply keeps_askRerun
    | with_reducible apply keeps_fabSend | split)

theorem keeps_returnCredits {z0 : State} (s : State) (f : FabFrame) (n : Nat) (hK : Keeps z0 s) : Keeps z0 (returnCredits s
    f n) := by
  unfold returnCredits
  try dsimp only
  repeat' (first
    | with_reducible assumption | with_reducible apply keeps_ite | with_reducible apply keeps_fabSend | split)

theorem keeps_dropPart {z0 : State} (s : State) (f : FabFrame) (hK : Keeps z0 s) : Keeps z0 (dropPart s f) := by
  unfold dropPart
  try dsimp only
  repeat' (first
    | with_reducible assumption | simp only [↓keeps_fields, ↓kept_self] | with_reducible apply keeps_returnCredits
    | with_reducible apply keeps_onFab | split)

theorem keeps_joinFrame {z0 : State} (s : State) (f : FabFrame) (hK : Keeps z0 s) : Keeps z0 (joinFrame s f) := by
  unfold joinFrame
  try dsimp only
  repeat' (first
    | intro _ | with_reducible assumption | with_reducible apply keeps_ite | simp only [↓keeps_fields, ↓kept_self]
    | with_reducible apply keeps_returnCredits | with_reducible apply keeps_fabCount
    | with_reducible apply keeps_onFab | with_reducible apply keeps_getD | split)

theorem keeps_takeData {z0 : State} (s : State) (f : FabFrame) (hK : Keeps z0 s) : Keeps z0 (takeData s f) := by
  unfold takeData
  try dsimp only
  repeat' (first
    | with_reducible assumption | with_reducible apply keeps_ite | simp only [↓keeps_fields, ↓kept_self]
    | with_reducible apply keeps_fabCount | with_reducible apply keeps_askRerun
    | with_reducible apply keeps_returnCredits | with_reducible apply keeps_dropPart
    | with_reducible apply keeps_noteFrame | with_reducible apply keeps_joinFrame | split)

theorem keeps_takeRerun {z0 : State} (s : State) (f : FabFrame) (hK : Keeps z0 s) : Keeps z0 (takeRerun s f) := by
  unfold takeRerun
  try dsimp only
  repeat' (first
    | with_reducible assumption | with_reducible apply keeps_ite | simp only [↓keeps_fields, ↓kept_self]
    | with_reducible apply keeps_fabSend | with_reducible apply keeps_waitAgain
    | with_reducible apply keeps_reschedule | with_reducible apply keeps_resetFor | split | assumption)

theorem keeps_takeMove {z0 : State} (s : State) (f : FabFrame) (hK : Keeps z0 s) : Keeps z0 (takeMove s f) := by
  unfold takeMove
  try dsimp only
  repeat' (first
    | with_reducible assumption | with_reducible apply keeps_ite | simp only [↓keeps_fields, ↓kept_self]
    | with_reducible apply keeps_fabCount | with_reducible apply keeps_askRerun
    | with_reducible apply keeps_moveTile | split)

theorem keeps_takeMsg {z0 : State} (s : State) (f : FabFrame) (hK : Keeps z0 s) : Keeps z0 (takeMsg s f) := by
  unfold takeMsg
  try dsimp only
  repeat' (first
    | with_reducible assumption | simp only [↓keeps_fields, ↓kept_self] | with_reducible apply keeps_onFab
    | with_reducible apply keeps_placeMsg | split)

theorem keeps_takeOwn {z0 : State} (s : State) (f : FabFrame) (hK : Keeps z0 s) : Keeps z0 (takeOwn s f) := by
  unfold takeOwn
  try dsimp only
  repeat' (first
    | with_reducible assumption | simp only [↓keeps_fields, ↓kept_self] | with_reducible apply keeps_takeData
    | with_reducible apply keeps_giveCredits | with_reducible apply keeps_takeRerun
    | with_reducible apply keeps_takeMove | with_reducible apply keeps_takeMsg | split)

theorem keeps_drainSelf {z0 : State} (s : State) (a0_ : Nat) (hK : Keeps z0 s) : Keeps z0 (drainSelf s a0_) := by
  induction a0_ generalizing s with
  | zero =>
    unfold drainSelf
    exact hK
  | succ n ih =>
    unfold drainSelf
    try dsimp only
    repeat' (first
      | with_reducible assumption
      | with_reducible apply ih | simp only [↓keeps_fields, ↓kept_self] | with_reducible apply keeps_takeOwn
      | with_reducible apply keeps_onFab | split)

theorem keeps_drainOwn {z0 : State} (s : State) (hK : Keeps z0 s) : Keeps z0 (drainOwn s) := by
  unfold drainOwn
  try dsimp only
  repeat' (first
    | with_reducible assumption | with_reducible apply keeps_drainSelf)

theorem keeps_routed {z0 : State} (s : State) (p type : Nat) (f : FabFrame) (control : Bool) (go : State → State) (on :
    State → State) (h_go : ∀ (x0_ : State), Keeps z0 x0_ → Keeps z0 (go x0_)) (h_on : ∀ (x0_ : State), Keeps z0 x0_ → Keeps
    z0 (on x0_)) (hK : Keeps z0 s) : Keeps z0 (routed s p type f control go on) := by
  unfold routed
  try dsimp only
  repeat' (first
    | intro _ | with_reducible assumption | with_reducible apply h_go | with_reducible apply h_on
    | with_reducible apply keeps_ite | simp only [↓keeps_fields, ↓kept_self] | with_reducible apply keeps_onLink
    | with_reducible apply keeps_drainOwn | with_reducible apply keeps_ctlPost | split)

theorem keeps_execData {z0 : State} {port : Fin 4} {f : FabFrame} {s : State} (hK : Keeps z0 s) : KeepsE z0 (execData port f
    s) := by
  unfold execData
  try dsimp only
  repeat' (first
    | intro _ | with_reducible assumption | with_reducible apply keepsE_next | simp only [↓keeps_fields, ↓kept_self]
    | with_reducible apply keeps_routed | with_reducible apply keeps_takeData | with_reducible apply keeps_forward)

theorem keeps_execRerun {z0 : State} {port : Fin 4} {f : FabFrame} {s : State} (hK : Keeps z0 s) : KeepsE z0 (execRerun port
    f s) := by
  unfold execRerun
  try dsimp only
  repeat' (first
    | intro _ | with_reducible assumption | with_reducible apply keepsE_next | simp only [↓keeps_fields, ↓kept_self]
    | with_reducible apply keeps_routed | with_reducible apply keeps_takeRerun | with_reducible apply keeps_fabSend)

theorem keeps_execPlace {z0 : State} {port : Fin 4} {f : FabFrame} {s : State} (hK : Keeps z0 s) : KeepsE z0 (execPlace port
    f s) := by
  unfold execPlace
  try dsimp only
  repeat' (first
    | intro _ | with_reducible assumption | with_reducible apply keepsE_next | simp only [↓keeps_fields, ↓kept_self]
    | with_reducible apply keeps_routed | with_reducible apply keeps_takeMsg | with_reducible apply keeps_fabSend)

theorem keeps_execMove {z0 : State} {port : Fin 4} {f : FabFrame} {s : State} (hK : Keeps z0 s) : KeepsE z0 (execMove port f
    s) := by
  unfold execMove
  try dsimp only
  repeat' (first
    | intro _ | with_reducible assumption | with_reducible apply keepsE_next | simp only [↓keeps_fields, ↓kept_self]
    | with_reducible apply keeps_routed | with_reducible apply keeps_takeMove | with_reducible apply keeps_forward)

theorem keeps_execKeyRetire {z0 : State} {port : Fin 4} {f : FabFrame} {tenant : Fin 9} {gen : Option Nat} {s : State} (hK :
    Keeps z0 s) : KeepsE z0 (execKeyRetire port f tenant gen s) := by
  unfold execKeyRetire
  try dsimp only
  repeat' (first
    | intro _ | with_reducible assumption | with_reducible apply keepsE_next | simp only [↓keeps_fields, ↓kept_self]
    | with_reducible apply keeps_retire | with_reducible apply keeps_routed | with_reducible apply keeps_takeMsg
    | with_reducible apply keeps_fabSend)

theorem keeps_execLight {z0 : State} {port : Fin 4} {f : FabFrame} {m : LightMsg} {s : State} (hK : Keeps z0 s) : KeepsE z0
    (execLight port f m s) := by
  unfold execLight
  try dsimp only
  repeat' (first
    | intro _ | with_reducible assumption | with_reducible apply keepsE_next | with_reducible apply keeps_ite
    | with_reducible apply keepsE_ite | simp only [↓keeps_fields, ↓kept_self] | with_reducible apply keeps_onControl
    | with_reducible apply keeps_onFlood | with_reducible apply keeps_drainOwn | with_reducible apply keeps_tryMoves
    | with_reducible apply keeps_recover | with_reducible apply keeps_installLight
    | with_reducible apply keeps_foldl | split)

theorem keeps_execMemberLost {z0 : State} {port : Fin 4} {f : FabFrame} {origin gen : Nat} {addr : BitVec 16} {s : State}
    (hK : Keeps z0 s) : KeepsE z0 (execMemberLost port f origin gen addr s) := by
  unfold execMemberLost
  try dsimp only
  repeat' (first
    | intro _ | with_reducible assumption | with_reducible apply keepsE_next | with_reducible apply keeps_ite
    | with_reducible apply keepsE_ite | simp only [↓keeps_fields, ↓kept_self] | with_reducible apply keeps_onControl
    | with_reducible apply keeps_onFlood | with_reducible apply keeps_drainOwn | with_reducible apply keeps_markLost
    | with_reducible apply keeps_raiseEvent | split)

theorem keeps_execPeerLost {z0 : State} {port : Fin 4} {s : State} (hK : Keeps z0 s) : KeepsE z0 (execPeerLost port s) := by
  unfold execPeerLost
  try dsimp only
  repeat' (first
    | intro _ | with_reducible assumption | with_reducible apply keepsE_next | with_reducible apply keeps_ite
    | with_reducible apply keepsE_ite | with_reducible apply keeps_drainOwn | with_reducible apply keeps_loseMember
    | split)

theorem keeps_execPlaceTimeout {z0 : State} {member : BitVec 16} {s : State} (hK : Keeps z0 s) : KeepsE z0 (execPlaceTimeout
    member s) := by
  unfold execPlaceTimeout
  try dsimp only
  repeat' (first
    | intro _ | with_reducible assumption | with_reducible apply keepsE_next | with_reducible apply keeps_ite
    | with_reducible apply keepsE_ite | simp only [↓keeps_fields, ↓kept_self] | with_reducible apply keeps_drainOwn
    | with_reducible apply keeps_loseMember | with_reducible apply keeps_onFab | split)

theorem keeps_execKeeperEndReport {z0 : State} {core : Fin 32} {outs : List Tile} {s : State} (hK : Keeps z0 s) : KeepsE z0
    (execKeeperEndReport core outs s) := by
  unfold execKeeperEndReport
  try dsimp only
  repeat' (first
    | intro _ | with_reducible assumption | with_reducible apply keepsE_next
    | with_reducible apply keeps_takeEndReport | with_reducible apply keeps_mirrorPages
    | with_reducible apply keeps_drainOwn | with_reducible apply keeps_tryMoves
    | with_reducible apply keeps_tryCreations | with_reducible apply keeps_elim)

end Sys2Proof.Machine
end

