-- ==== Sys2Proof/Laws/KeepsIdle.lean ====
section
/-! SUPPORT. Sys2Proof/Laws/KeepsIdle.lean: each operation of Machine/Idle.lean keeps what `Keeps` says. -/

namespace Sys2Proof.Machine

set_option simprocs false
set_option linter.all false

theorem keeps_tickOn {z0 : State} (s : State) (hK : Keeps z0 s) : Keeps z0 (tickOn s) := by
  unfold tickOn
  try dsimp only
  repeat' (first
    | with_reducible assumption | simp only [↓keeps_fields, ↓kept_self])

theorem keeps_idle {z0 : State} (s : State) (hK : Keeps z0 s) : Keeps z0 (idle s) := by
  unfold idle
  try dsimp only
  repeat' (first
    | with_reducible assumption | with_reducible apply keeps_ite | with_reducible apply keeps_tickOn
    | with_reducible apply keeps_drainOwn | split)

end Sys2Proof.Machine
end

