-- ==== Sys2Proof/Laws/KeepsPower.lean ====
section
/-! SUPPORT. Sys2Proof/Laws/KeepsPower.lean: each operation of Machine/Power.lean keeps what `Keeps` says. -/

namespace Sys2Proof.Machine

set_option simprocs false
set_option linter.all false

theorem keeps_dutyCores {z0 : State} (s : State) (d : Nat) (hK : Keeps z0 s) : Keeps z0 (dutyCores s d) := by
  unfold dutyCores
  try dsimp only
  repeat' (first
    | with_reducible assumption | with_reducible apply keeps_ite | simp only [↓keeps_fields, ↓kept_self] | split)

theorem keeps_noteThermal {z0 : State} (s : State) (hK : Keeps z0 s) : Keeps z0 (noteThermal s) := by
  unfold noteThermal
  try dsimp only
  repeat' (first
    | with_reducible assumption | with_reducible apply keeps_ite | simp only [↓keeps_fields, ↓kept_self]
    | with_reducible apply keeps_raiseEvent | with_reducible apply keeps_logAppend | split)

theorem keeps_execPowerCapStep {z0 : State} {p : Word} {temps : List Int} {s : State} (hK : Keeps z0 s) : KeepsE z0
    (execPowerCapStep p temps s) := by
  unfold execPowerCapStep
  try dsimp only
  repeat' (first
    | intro _ | with_reducible assumption | with_reducible apply keepsE_next | with_reducible apply keeps_ite
    | with_reducible apply keepsE_ite | simp only [↓keeps_fields, ↓kept_self] | with_reducible apply keeps_dutyCores
    | with_reducible apply keeps_noteThermal | with_reducible apply keeps_getD | split)

theorem keeps_execPowerCapUnmet {z0 : State} {s : State} (hK : Keeps z0 s) : KeepsE z0 (execPowerCapUnmet s) := by
  unfold execPowerCapUnmet
  try dsimp only
  repeat' (first
    | intro _ | with_reducible assumption | with_reducible apply keepsE_next | with_reducible apply keeps_ite
    | with_reducible apply keepsE_ite | simp only [↓keeps_fields, ↓kept_self]
    | with_reducible apply keeps_raiseEvent | split)

theorem keeps_execThrottleNChange {z0 : State} {low : Bool} {s : State} (hK : Keeps z0 s) : KeepsE z0 (execThrottleNChange
    low s) := by
  unfold execThrottleNChange
  try dsimp only
  repeat' (first
    | intro _ | with_reducible assumption | with_reducible apply keepsE_next | with_reducible apply keeps_ite
    | with_reducible apply keepsE_ite | simp only [↓keeps_fields, ↓kept_self]
    | with_reducible apply keeps_raiseEvent | split)

theorem keeps_execThermalTrip {z0 : State} {s : State} (hK : Keeps z0 s) : KeepsE z0 (execThermalTrip s) := by
  unfold execThermalTrip
  try dsimp only
  repeat' (first
    | intro _ | with_reducible assumption | with_reducible apply keepsE_next | with_reducible apply keeps_ite
    | with_reducible apply keepsE_ite | simp only [↓keeps_fields, ↓kept_self] | with_reducible apply keeps_mainReset
    | split)

theorem keeps_execThermalTripRelease {z0 : State} {s : State} (hK : Keeps z0 s) : KeepsE z0 (execThermalTripRelease s) := by
  unfold execThermalTripRelease
  try dsimp only
  repeat' (first
    | intro _ | with_reducible assumption | with_reducible apply keepsE_next | with_reducible apply keeps_ite
    | with_reducible apply keepsE_ite | simp only [↓keeps_fields, ↓kept_self]
    | with_reducible apply keeps_releaseMain | split)

theorem keeps_execThermalTripTimeout {z0 : State} {s : State} (hK : Keeps z0 s) : KeepsE z0 (execThermalTripTimeout s) := by
  unfold execThermalTripTimeout
  try dsimp only
  repeat' (first
    | intro _ | with_reducible assumption | with_reducible apply keepsE_next | with_reducible apply keeps_ite
    | with_reducible apply keepsE_ite | simp only [↓keeps_fields, ↓kept_self] | with_reducible apply keeps_powerLost
    | split)

theorem keeps_execSysTickRead {z0 : State} {by_ : Req} {s : State} (hK : Keeps z0 s) : KeepsE z0 (execSysTickRead by_ s) := by
  unfold execSysTickRead
  try dsimp only
  repeat' (first
    | intro _ | with_reducible assumption | with_reducible apply keepsE_next | with_reducible apply keeps_ite
    | with_reducible apply keepsE_ite | simp only [↓keeps_fields, ↓kept_self] | with_reducible apply keeps_busData
    | with_reducible apply keeps_busError | split)

end Sys2Proof.Machine
end

