-- ==== Sys2Proof/Laws/KeepsTct.lean ====
section
/-! SUPPORT. Sys2Proof/Laws/KeepsTct.lean: each operation of Machine/Tct.lean keeps what `Keeps` says. -/

namespace Sys2Proof.Machine

set_option simprocs false
set_option linter.all false

theorem keeps_releaseHandle {z0 : State} (s : State) (h : Nat) (hK : Keeps z0 s) : Keeps z0 (releaseHandle s h) := by
  unfold releaseHandle
  try dsimp only
  repeat' (first
    | with_reducible assumption | with_reducible apply keeps_ite | simp only [↓keeps_fields, ↓kept_self]
    | with_reducible apply keeps_modHandle | split)

theorem keeps_takeAck {z0 : State} (s : State) (n : Nat) (f : TctFrame) (hK : Keeps z0 s) : Keeps z0 (takeAck s n f) := by
  unfold takeAck
  try dsimp only
  repeat' (first
    | intro _ | with_reducible assumption | with_reducible apply keeps_ite | simp only [↓keeps_fields, ↓kept_self]
    | with_reducible apply keeps_modAssoc | with_reducible apply keeps_pump
    | with_reducible apply keeps_releaseHandle | with_reducible apply keeps_foldl | split)

theorem keeps_onFrame {z0 : State} (s : State) (rx : HostRx) (f : TctFrame) (go : State → State) (h_go : ∀ (x0_ : State),
    Keeps z0 x0_ → Keeps z0 (go x0_)) (hK : Keeps z0 s) : Keeps z0 (onFrame s rx f go) := by
  unfold onFrame
  try dsimp only
  repeat' (first
    | intro _ | with_reducible assumption | with_reducible apply h_go | with_reducible apply keeps_ite
    | simp only [↓keeps_fields, ↓kept_self] | with_reducible apply keeps_received
    | with_reducible apply keeps_takeAck | with_reducible apply keeps_modAssoc | split)

theorem keeps_reliable {z0 : State} (s : State) (f : TctFrame) (go : State → State) (h_go : ∀ (x0_ : State), Keeps z0 x0_ →
    Keeps z0 (go x0_)) (hK : Keeps z0 s) : Keeps z0 (reliable s f go) := by
  unfold reliable
  try dsimp only
  repeat' (first
    | intro _ | with_reducible assumption | with_reducible apply h_go | with_reducible apply keeps_ite
    | simp only [↓keeps_fields, ↓kept_self] | with_reducible apply keeps_emit | with_reducible apply keeps_rcount
    | with_reducible apply keeps_modAssoc | split)

theorem keeps_sendHeld {z0 : State} (s : State) (p : Nat) (hK : Keeps z0 s) : Keeps z0 (sendHeld s p) := by
  unfold sendHeld
  try dsimp only
  repeat' (first
    | intro _ | with_reducible assumption | simp only [↓keeps_fields, ↓kept_self]
    | with_reducible apply keeps_deliver | with_reducible apply keeps_onK | with_reducible apply keeps_foldl | split)

theorem keeps_execTctOpen {z0 : State} {rx : HostRx} {hostSeq resume : Nat} {s : State} (hK : Keeps z0 s) : KeepsE z0
    (execTctOpen rx hostSeq resume s) := by
  unfold execTctOpen
  try dsimp only
  repeat' (first
    | intro _ | with_reducible assumption | with_reducible apply keepsE_next | with_reducible apply keeps_ite
    | with_reducible apply keepsE_ite | simp only [↓keeps_fields, ↓kept_self] | with_reducible apply keeps_received
    | with_reducible apply keeps_modAssoc | with_reducible apply keeps_sendHeld | with_reducible apply keeps_resend
    | with_reducible apply keeps_emit | with_reducible apply keeps_hostSend | with_reducible apply keeps_onK
    | with_reducible apply keeps_nextFree | with_reducible apply keeps_sendMsg | with_reducible apply keeps_elim
    | split)

theorem keeps_execTctClose {z0 : State} {rx : HostRx} {f : TctFrame} {s : State} (hK : Keeps z0 s) : KeepsE z0 (execTctClose
    rx f s) := by
  unfold execTctClose
  try dsimp only
  repeat' (first
    | intro _ | with_reducible assumption | with_reducible apply keepsE_next | simp only [↓keeps_fields, ↓kept_self]
    | with_reducible apply keeps_onFrame | with_reducible apply keeps_onK | with_reducible apply keeps_reliable | exact keeps_id _ (by assumption) | (show Keeps _ (id _); simp only [id]; assumption))

theorem keeps_messageDone {z0 : State} (s : State) (n : Nat) (b : List Byte) (hK : Keeps z0 s) : Keeps z0 (messageDone s n
    b) := by
  unfold messageDone
  try dsimp only
  repeat' (first
    | with_reducible assumption | simp only [↓keeps_fields, ↓kept_self] | with_reducible apply keeps_replyTo
    | with_reducible apply keeps_onK | with_reducible apply keeps_hwPost | with_reducible apply keeps_nextFree
    | split)

theorem keeps_joinSegment {z0 : State} (s : State) (f : TctFrame) (hK : Keeps z0 s) : Keeps z0 (joinSegment s f) := by
  unfold joinSegment
  try dsimp only
  repeat' (first
    | with_reducible assumption | simp only [↓keeps_fields, ↓kept_self] | with_reducible apply keeps_modAssoc
    | with_reducible apply keeps_messageDone | split)

theorem keeps_execTctRequestFrame {z0 : State} {rx : HostRx} {f : TctFrame} {s : State} (hK : Keeps z0 s) : KeepsE z0
    (execTctRequestFrame rx f s) := by
  unfold execTctRequestFrame
  try dsimp only
  repeat' (first
    | intro _ | with_reducible assumption | with_reducible apply keepsE_next | with_reducible apply keeps_onFrame
    | with_reducible apply keeps_reliable | with_reducible apply keeps_joinSegment)

theorem keeps_execTctAck {z0 : State} {rx : HostRx} {f : TctFrame} {s : State} (hK : Keeps z0 s) : KeepsE z0 (execTctAck rx
    f s) := by
  unfold execTctAck
  try dsimp only
  repeat' (first
    | intro _ | with_reducible assumption | with_reducible apply keepsE_next | with_reducible apply keeps_onFrame)

theorem keeps_execTctKeepalive {z0 : State} {rx : HostRx} {f : TctFrame} {s : State} (hK : Keeps z0 s) : KeepsE z0
    (execTctKeepalive rx f s) := by
  unfold execTctKeepalive
  try dsimp only
  repeat' (first
    | intro _ | with_reducible assumption | with_reducible apply keepsE_next | with_reducible apply keeps_onFrame)

theorem keeps_execTctTime {z0 : State} {rx : HostRx} {f : TctFrame} {s : State} (hK : Keeps z0 s) : KeepsE z0 (execTctTime
    rx f s) := by
  unfold execTctTime
  try dsimp only
  repeat' (first
    | intro _ | with_reducible assumption | with_reducible apply keepsE_next | with_reducible apply keeps_ite
    | with_reducible apply keepsE_ite | simp only [↓keeps_fields, ↓kept_self] | with_reducible apply keeps_onFrame
    | with_reducible apply keeps_emit | with_reducible apply keeps_nextFree | with_reducible apply keeps_modAssoc
    | split)

theorem keeps_execTctRetransmitTimeout {z0 : State} {assoc : Nat} {s : State} (hK : Keeps z0 s) : KeepsE z0
    (execTctRetransmitTimeout assoc s) := by
  unfold execTctRetransmitTimeout
  try dsimp only
  repeat' (first
    | intro _ | with_reducible assumption | with_reducible apply keepsE_next | with_reducible apply keeps_ite
    | with_reducible apply keepsE_ite | simp only [↓keeps_fields, ↓kept_self] | with_reducible apply keeps_modAssoc
    | with_reducible apply keeps_resend | split)

theorem keeps_execKeepaliveTimer {z0 : State} {assoc : Nat} {s : State} (hK : Keeps z0 s) : KeepsE z0 (execKeepaliveTimer
    assoc s) := by
  unfold execKeepaliveTimer
  try dsimp only
  repeat' (first
    | intro _ | with_reducible assumption | with_reducible apply keepsE_next | with_reducible apply keeps_ite
    | with_reducible apply keepsE_ite | simp only [↓keeps_fields, ↓kept_self] | with_reducible apply keeps_emit
    | split)

theorem keeps_execAssociationLost {z0 : State} {assoc : Nat} {s : State} (hK : Keeps z0 s) : KeepsE z0 (execAssociationLost
    assoc s) := by
  unfold execAssociationLost
  try dsimp only
  repeat' (first
    | intro _ | with_reducible assumption | with_reducible apply keepsE_next | with_reducible apply keeps_ite
    | with_reducible apply keepsE_ite | simp only [↓keeps_fields, ↓kept_self] | with_reducible apply keeps_modAssoc
    | split)

theorem keeps_execAssociationExpiry {z0 : State} {assoc : Nat} {s : State} (hK : Keeps z0 s) : KeepsE z0
    (execAssociationExpiry assoc s) := by
  unfold execAssociationExpiry
  try dsimp only
  repeat' (first
    | intro _ | with_reducible assumption | with_reducible apply keepsE_next | with_reducible apply keeps_ite
    | with_reducible apply keepsE_ite | simp only [↓keeps_fields, ↓kept_self] | with_reducible apply keeps_onK
    | split)

theorem keeps_execTctOutboundMessage {z0 : State} {assoc type : Nat} {payload : List Byte} {s : State} (hK : Keeps z0 s) :
    KeepsE z0 (execTctOutboundMessage assoc type payload s) := by
  unfold execTctOutboundMessage
  try dsimp only
  repeat' (first
    | intro _ | with_reducible assumption | with_reducible apply keepsE_next | with_reducible apply keeps_ite
    | with_reducible apply keepsE_ite | with_reducible apply keeps_sendMsg | with_reducible apply keeps_mbxTake
    | split)

end Sys2Proof.Machine
end

