-- ==== Sys2Proof/Laws/KeepsTelemetry.lean ====
section
/-! SUPPORT. Sys2Proof/Laws/KeepsTelemetry.lean: each operation of Machine/Telemetry.lean keeps what `Keeps` says. -/

namespace Sys2Proof.Machine

set_option simprocs false
set_option linter.all false

theorem keeps_rasTold {z0 : State} (s : State) (hK : Keeps z0 s) : Keeps z0 (rasTold s) := by
  unfold rasTold
  try dsimp only
  repeat' (first
    | with_reducible assumption | simp only [↓keeps_fields, ↓kept_self])

theorem keeps_raiseSlow {z0 : State} (s : State) (p : Nat) (hK : Keeps z0 s) : Keeps z0 (raiseSlow s p) := by
  unfold raiseSlow
  try dsimp only
  repeat' (first
    | intro _ | with_reducible assumption | with_reducible apply keeps_raiseEvent | with_reducible apply keeps_foldl)

theorem keeps_telReset {z0 : State} (s : State) (p : Nat) (hK : Keeps z0 s) : Keeps z0 (telReset s p) := by
  unfold telReset
  try dsimp only
  repeat' (first
    | with_reducible assumption | with_reducible apply keeps_ite | simp only [↓keeps_fields, ↓kept_self] | split)

theorem keeps_tellEvents {z0 : State} (s : State) (p : Nat) (hK : Keeps z0 s) : Keeps z0 (tellEvents s p) := by
  unfold tellEvents
  try dsimp only
  repeat' (first
    | with_reducible assumption | with_reducible apply keeps_ite | simp only [↓keeps_fields, ↓kept_self] | split)

theorem keeps_execTelemetryInterval {z0 : State} {principal : Fin 9} {s : State} (hK : Keeps z0 s) : KeepsE z0
    (execTelemetryInterval principal s) := by
  unfold execTelemetryInterval
  try dsimp only
  repeat' (first
    | intro _ | with_reducible assumption | with_reducible apply keepsE_next | with_reducible apply keeps_ite
    | with_reducible apply keepsE_ite | simp only [↓keeps_fields, ↓kept_self] | with_reducible apply keeps_raiseSlow
    | with_reducible apply keeps_sendMsg | with_reducible apply keeps_rasTold | with_reducible apply keeps_onK
    | with_reducible apply keeps_telReset | with_reducible apply keeps_tellEvents | split)

theorem keeps_execTelemetrySet {z0 : State} {rq : Request} {s : State} (hK : Keeps z0 s) : KeepsE z0 (execTelemetrySet rq s) := by
  unfold execTelemetrySet
  try dsimp only
  repeat' (first
    | intro _ | with_reducible assumption | with_reducible apply keepsE_next | simp only [↓keeps_fields, ↓kept_self]
    | with_reducible apply keeps_onRequest | with_reducible apply keeps_complete | with_reducible apply keeps_onK)

end Sys2Proof.Machine
end

