-- ==== Sys2Proof/Laws/KeepsUpdate.lean ====
section
/-! SUPPORT. Sys2Proof/Laws/KeepsUpdate.lean: each operation of Machine/Update.lean keeps what `Keeps` says. -/

namespace Sys2Proof.Machine

set_option simprocs false
set_option linter.all false

theorem keeps_endCreation {z0 : State} (s : State) (c : Creation) (hK : Keeps z0 s) : Keeps z0 (endCreation s c) := by
  unfold endCreation
  try dsimp only
  repeat' (first
    | with_reducible assumption | simp only [↓keeps_fields, ↓kept_self] | with_reducible apply keeps_complete
    | with_reducible apply keeps_dropOwners | with_reducible apply keeps_onK)

theorem keeps_quenchAll {z0 : State} (s : State) (hK : Keeps z0 s) : Keeps z0 (quenchAll s) := by
  unfold quenchAll
  try dsimp only
  repeat' (first
    | intro _ | with_reducible assumption | with_reducible apply keeps_endCreation
    | with_reducible apply keeps_startQuench | with_reducible apply keeps_foldl)

theorem keeps_revokeRoot {z0 : State} (s : State) (h : Nat) (token : List Byte) (hK : Keeps z0 s) : Keeps z0 (revokeRoot s h
    token) := by
  unfold revokeRoot
  try dsimp only
  repeat' (first
    | intro _ | with_reducible assumption | with_reducible apply keeps_ite | simp only [↓keeps_fields, ↓kept_self]
    | with_reducible apply keeps_kept | with_reducible apply keeps_takeToken
    | exact keepsP_takeToken (by assumption) (by assumption) | with_reducible apply keeps_complete
    | with_reducible apply keeps_logAppend | with_reducible apply keeps_countAuthFail
    | with_reducible apply keeps_extend | with_reducible exact FusesGrow.refl _
    | with_reducible exact fuses_revoked0 | with_reducible exact fuses_revoked1 | with_reducible exact Nat.le_refl _
    | with_reducible exact Nat.le_add_right _ _ | split | assumption)

theorem keeps_audioGate {z0 : State} (s : State) (h : Nat) (token : List Byte) (hK : Keeps z0 s) : Keeps z0 (audioGate s h
    token) := by
  unfold audioGate
  try dsimp only
  repeat' (first
    | with_reducible assumption | with_reducible apply keeps_ite | with_reducible apply keeps_takeToken
    | exact keepsP_takeToken (by assumption) (by assumption) | with_reducible apply keeps_complete
    | with_reducible apply keeps_openGate | split)

theorem keeps_askLife {z0 : State} (s : State) (h target : Nat) (token : List Byte) (hK : Keeps z0 s) : Keeps z0 (askLife s
    h target token) := by
  unfold askLife
  try dsimp only
  repeat' (first
    | with_reducible assumption | with_reducible apply keeps_ite | simp only [↓keeps_fields, ↓kept_self]
    | with_reducible apply keeps_complete | with_reducible apply keeps_tryLifeChange
    | with_reducible apply keeps_onK | with_reducible apply keeps_takeToken
    | exact keepsP_takeToken (by assumption) (by assumption) | with_reducible apply keeps_quenchAll | split)

theorem keeps_lifeUpdate {z0 : State} (s : State) (h target : Nat) (token : List Byte) (hK : Keeps z0 s) : Keeps z0
    (lifeUpdate s h target token) := by
  unfold lifeUpdate
  try dsimp only
  repeat' (first
    | with_reducible assumption | with_reducible apply keeps_ite | with_reducible apply keeps_revokeRoot
    | with_reducible apply keeps_audioGate | with_reducible apply keeps_askLife | split)

theorem keeps_provisioned {z0 : State} (s : State) (h action r0 : Nat) (hK : Keeps z0 s) : Keeps z0 (provisioned s h action
    r0) := by
  unfold provisioned
  try dsimp only
  repeat' (first
    | with_reducible assumption | with_reducible apply keeps_complete | with_reducible apply keeps_logAppend
    | with_reducible apply keeps_extend)

theorem keeps_provision {z0 : State} (s : State) (h action : Nat) (data : List Byte) (hK : Keeps z0 s) : Keeps z0 (provision
    s h action data) := by
  unfold provision
  try dsimp only
  repeat' (first
    | intro _
    | with_reducible assumption
    | simp only [↓keeps_fields, ↓kept_self]
    | with_reducible apply keeps_kept
    | with_reducible apply Keeps.refl
    | with_reducible apply keeps_complete
    | with_reducible apply keeps_provisioned
    | with_reducible apply keeps_nextFree
    | with_reducible apply keeps_onStore
    | with_reducible apply keeps_returnTiles
    | with_reducible apply keepsE_next
    | with_reducible exact keepsE_refused
    | with_reducible apply keepsE_ite
    | with_reducible apply keepsX_ite
    | with_reducible apply keepsX_ok
    | with_reducible apply keepsX_pure
    | with_reducible apply keepsX_error
    | with_reducible exact keepsX_faultOf
    | with_reducible exact keepsX_faultAt
    | with_reducible apply keepsX_bind_state
    | with_reducible apply keepsX_bind
    | with_reducible apply keeps_foldl
    | with_reducible apply keeps_getD
    | with_reducible apply keeps_elim
    | with_reducible exact FusesGrow.refl _
    | with_reducible exact fuses_rollback
    | with_reducible exact fuses_revoked0
    | with_reducible exact fuses_revoked1
    | with_reducible exact Nat.le_refl _
    | with_reducible exact Nat.le_add_right _ _
    | with_reducible apply Memory.wf_writeBytes
    | with_reducible apply Memory.wf_clear
    | with_reducible apply Memory.wf_filter
    | with_reducible apply Memory.wf_writeCells
    | unfold moveBytes
    | split
    | exact fuses_root1 (by
        rename_i h1
        simp only [not_or, Bool.not_eq_true] at h1
        exact h1.1)
    | assumption
    | exact Nat.le_add_right _ _)


theorem keeps_ispUpdate {z0 : State} (s : State) (h ctx : Nat) (data : List Byte) (hK : Keeps z0 s) : Keeps z0 (ispUpdate s
    h ctx data) := by
  unfold ispUpdate
  try dsimp only
  repeat' (first
    | intro _ | with_reducible assumption | with_reducible apply keeps_ite | simp only [↓keeps_fields, ↓kept_self]
    | with_reducible apply keeps_complete | with_reducible apply keeps_modCtx | with_reducible apply keeps_foldl
    | split)

theorem keeps_modelSwitch {z0 : State} (s : State) (h old new : Nat) (hK : Keeps z0 s) : Keeps z0 (modelSwitch s h old new) := by
  unfold modelSwitch
  try dsimp only
  repeat' (first
    | with_reducible assumption | with_reducible apply keeps_ite | simp only [↓keeps_fields, ↓kept_self]
    | with_reducible apply keeps_complete | with_reducible apply keeps_onK | with_reducible apply keeps_sweep
    | split)

theorem keeps_runUpdate {z0 : State} (s : State) (h p : Nat) (a data : List Byte) (hK : Keeps z0 s) : Keeps z0 (runUpdate s
    h p a data) := by
  unfold runUpdate
  try dsimp only
  repeat' (first
    | with_reducible assumption | with_reducible apply keeps_ite | simp only [↓keeps_fields, ↓kept_self]
    | with_reducible apply keeps_installFw | with_reducible apply keeps_commitFw
    | with_reducible apply keeps_revertFw | with_reducible apply keeps_ispUpdate
    | with_reducible apply keeps_modelSwitch | with_reducible apply keeps_askRotation
    | with_reducible apply keeps_lifeUpdate | with_reducible apply keeps_provision
    | with_reducible apply keeps_complete | with_reducible apply keeps_clearSteps
    | with_reducible apply keeps_clearRetired | split)

theorem keeps_update {z0 : State} (s : State) (rq : Request) (hK : Keeps z0 s) : Keeps z0 (update s rq) := by
  unfold update
  try dsimp only
  repeat' (first
    | intro _ | with_reducible assumption | simp only [↓keeps_fields, ↓kept_self]
    | with_reducible apply keeps_onRequest | with_reducible apply keeps_withTiles
    | with_reducible apply keeps_drainOwn | with_reducible apply keeps_runUpdate)

theorem keeps_execUpdateInstall {z0 : State} {rq : Request} {s : State} (hK : Keeps z0 s) : KeepsE z0 (execUpdateInstall rq
    s) := by
  unfold execUpdateInstall
  try dsimp only
  repeat' (first
    | intro _ | with_reducible assumption | with_reducible apply keepsE_next | with_reducible apply keeps_update)

theorem keeps_execUpdateCommit {z0 : State} {rq : Request} {s : State} (hK : Keeps z0 s) : KeepsE z0 (execUpdateCommit rq s) := by
  unfold execUpdateCommit
  try dsimp only
  repeat' (first
    | intro _ | with_reducible assumption | with_reducible apply keepsE_next | with_reducible apply keeps_update)

theorem keeps_execUpdateRevert {z0 : State} {rq : Request} {s : State} (hK : Keeps z0 s) : KeepsE z0 (execUpdateRevert rq s) := by
  unfold execUpdateRevert
  try dsimp only
  repeat' (first
    | intro _ | with_reducible assumption | with_reducible apply keepsE_next | with_reducible apply keeps_update)

theorem keeps_execIspParameterUpdate {z0 : State} {rq : Request} {s : State} (hK : Keeps z0 s) : KeepsE z0
    (execIspParameterUpdate rq s) := by
  unfold execIspParameterUpdate
  try dsimp only
  repeat' (first
    | intro _ | with_reducible assumption | with_reducible apply keepsE_next | with_reducible apply keeps_update)

theorem keeps_execModelSwitch {z0 : State} {rq : Request} {s : State} (hK : Keeps z0 s) : KeepsE z0 (execModelSwitch rq s) := by
  unfold execModelSwitch
  try dsimp only
  repeat' (first
    | intro _ | with_reducible assumption | with_reducible apply keepsE_next | with_reducible apply keeps_update)

theorem keeps_execTenantKeyRotation {z0 : State} {rq : Request} {s : State} (hK : Keeps z0 s) : KeepsE z0
    (execTenantKeyRotation rq s) := by
  unfold execTenantKeyRotation
  try dsimp only
  repeat' (first
    | intro _ | with_reducible assumption | with_reducible apply keepsE_next | with_reducible apply keeps_update)

theorem keeps_execLifeCycleChange {z0 : State} {rq : Request} {s : State} (hK : Keeps z0 s) : KeepsE z0 (execLifeCycleChange
    rq s) := by
  unfold execLifeCycleChange
  try dsimp only
  repeat' (first
    | intro _ | with_reducible assumption | with_reducible apply keepsE_next | with_reducible apply keeps_update)

theorem keeps_execRevokeRoot {z0 : State} {rq : Request} {s : State} (hK : Keeps z0 s) : KeepsE z0 (execRevokeRoot rq s) := by
  unfold execRevokeRoot
  try dsimp only
  repeat' (first
    | intro _ | with_reducible assumption | with_reducible apply keepsE_next | with_reducible apply keeps_update)

theorem keeps_execProvisionRootDigest {z0 : State} {rq : Request} {s : State} (hK : Keeps z0 s) : KeepsE z0
    (execProvisionRootDigest rq s) := by
  unfold execProvisionRootDigest
  try dsimp only
  repeat' (first
    | intro _ | with_reducible assumption | with_reducible apply keepsE_next | with_reducible apply keeps_update)

theorem keeps_execProvisionDeviceKey {z0 : State} {rq : Request} {s : State} (hK : Keeps z0 s) : KeepsE z0
    (execProvisionDeviceKey rq s) := by
  unfold execProvisionDeviceKey
  try dsimp only
  repeat' (first
    | intro _ | with_reducible assumption | with_reducible apply keepsE_next | with_reducible apply keeps_update)

theorem keeps_execProvisionCertificate {z0 : State} {rq : Request} {s : State} (hK : Keeps z0 s) : KeepsE z0
    (execProvisionCertificate rq s) := by
  unfold execProvisionCertificate
  try dsimp only
  repeat' (first
    | intro _ | with_reducible assumption | with_reducible apply keepsE_next | with_reducible apply keeps_update)

theorem keeps_execProvisionSystemCak {z0 : State} {rq : Request} {s : State} (hK : Keeps z0 s) : KeepsE z0
    (execProvisionSystemCak rq s) := by
  unfold execProvisionSystemCak
  try dsimp only
  repeat' (first
    | intro _ | with_reducible assumption | with_reducible apply keepsE_next | with_reducible apply keeps_update)

theorem keeps_execBootStepClear {z0 : State} {rq : Request} {s : State} (hK : Keeps z0 s) : KeepsE z0 (execBootStepClear rq
    s) := by
  unfold execBootStepClear
  try dsimp only
  repeat' (first
    | intro _ | with_reducible assumption | with_reducible apply keepsE_next | with_reducible apply keeps_update)

theorem keeps_execRetirementMapClear {z0 : State} {rq : Request} {s : State} (hK : Keeps z0 s) : KeepsE z0
    (execRetirementMapClear rq s) := by
  unfold execRetirementMapClear
  try dsimp only
  repeat' (first
    | intro _ | with_reducible assumption | with_reducible apply keepsE_next | with_reducible apply keeps_update)

theorem keeps_execTenantScrubComplete {z0 : State} {tenant : Fin 9} {s : State} (hK : Keeps z0 s) : KeepsE z0
    (execTenantScrubComplete tenant s) := by
  unfold execTenantScrubComplete
  try dsimp only
  repeat' (first
    | intro _ | with_reducible assumption | with_reducible apply keepsE_next | with_reducible apply keeps_ite
    | with_reducible apply keepsE_ite | simp only [↓keeps_fields, ↓kept_self] | with_reducible apply keeps_drainOwn
    | with_reducible apply keeps_scrubDone | split)

theorem keeps_execKeyRetireAck {z0 : State} {port : Fin 4} {f : FabFrame} {tenant : Fin 9} {gen : Option Nat} {phase : Nat}
    {s : State} (hK : Keeps z0 s) : KeepsE z0 (execKeyRetireAck port f tenant gen phase s) := by
  unfold execKeyRetireAck
  try dsimp only
  repeat' (first
    | intro _ | with_reducible assumption | with_reducible apply keepsE_next | simp only [↓keeps_fields, ↓kept_self]
    | with_reducible apply keeps_routed | with_reducible apply keeps_takeMsg | with_reducible apply keeps_fabSend)

theorem keeps_execQuenchAckTimeout {z0 : State} {tenant : Fin 9} {member : BitVec 16} {s : State} (hK : Keeps z0 s) : KeepsE
    z0 (execQuenchAckTimeout tenant member s) := by
  unfold execQuenchAckTimeout
  try dsimp only
  repeat' (first
    | intro _ | with_reducible assumption | with_reducible apply keepsE_next | with_reducible apply keeps_ite
    | with_reducible apply keepsE_ite | with_reducible apply keeps_drainOwn | with_reducible apply keeps_ackQuench
    | with_reducible apply keeps_loseMember | split)

end Sys2Proof.Machine
end

