-- ==== Sys2Proof/Laws/PerInstr.lean ====
section
/-! SUPPORT. Sys2Proof/Laws/PerInstr.lean: one lemma per command about its row as it is written. -/

namespace Sys2Proof.Laws.WellFormed

/-- A Kuner row's code is that of some word which passes the decode checks (R104, R107), so the row can run; a row of
another kind is always well formed. -/
def Statement (i : Instr) : Prop :=
  match i.kuner with
  | some (k, _) => ∃ w, Machine.rowCode w = some k ∧ Machine.legal w = true
  | none => i.wellFormed = true

theorem registerWrite (by_ : Req) (addr : BitVec 48) (v : Word) : Statement (.registerWrite by_ addr v) := rfl
theorem mailboxWordWrite (by_ : Req) (m : Fin 128) (w : Fin 7) (v : Word) : Statement (.mailboxWordWrite by_ m w v) := rfl
theorem mailboxPost (by_ : Req) (m : Fin 128) (v : Word) : Statement (.mailboxPost by_ m v) := rfl
theorem mailboxTake (by_ : Req) (m : Fin 128) : Statement (.mailboxTake by_ m) := rfl
theorem heldMessagePost (by_ : Req) : Statement (.heldMessagePost by_) := rfl
theorem mbxMaskLock (by_ : Req) (ix : Fin 4) (v : Word) : Statement (.mbxMaskLock by_ ix v) := rfl
theorem commandDispatch (core : Fin 32) : Statement (.commandDispatch core) := rfl
theorem queueEntryStart (core : Fin 32) (q : QueueName) : Statement (.queueEntryStart core q) := rfl
theorem dmaTransferComplete (core : Fin 32) (engine : Fin 2) : Statement (.dmaTransferComplete core engine) := rfl
theorem watchdog (core : Fin 32) : Statement (.watchdog core) := rfl
theorem coreStop (by_ : Req) (core : Fin 32) : Statement (.coreStop by_ core) := rfl
theorem coreClearResident (by_ : Req) (core : Fin 32) : Statement (.coreClearResident by_ core) := rfl
theorem coreBistHold (by_ : Req) (core : Fin 32) (v : Bool) : Statement (.coreBistHold by_ core v) := rfl
theorem coreRetire (by_ : Req) (core : Fin 32) : Statement (.coreRetire by_ core) := rfl
theorem coreEnable (by_ : Req) (core : Fin 32) (v : Bool) : Statement (.coreEnable by_ core v) := rfl
theorem coreArrayDutyWrite (by_ : Req) (core : Fin 32) (v : Word) : Statement (.coreArrayDutyWrite by_ core v) := rfl
theorem stopIdleTimeout (core : Fin 32) : Statement (.stopIdleTimeout core) := rfl
theorem add (core : Fin 32) (w : BitVec 64) : Statement (.add core w) := ⟨0x0000000000000000, by decide, by decide⟩
theorem sub (core : Fin 32) (w : BitVec 64) : Statement (.sub core w) := ⟨0x0001000000000000, by decide, by decide⟩
theorem and (core : Fin 32) (w : BitVec 64) : Statement (.and core w) := ⟨0x0002000000000000, by decide, by decide⟩
theorem or (core : Fin 32) (w : BitVec 64) : Statement (.or core w) := ⟨0x0003000000000000, by decide, by decide⟩
theorem xor (core : Fin 32) (w : BitVec 64) : Statement (.xor core w) := ⟨0x0004000000000000, by decide, by decide⟩
theorem sll (core : Fin 32) (w : BitVec 64) : Statement (.sll core w) := ⟨0x0005000000000000, by decide, by decide⟩
theorem srl (core : Fin 32) (w : BitVec 64) : Statement (.srl core w) := ⟨0x0006000000000000, by decide, by decide⟩
theorem sra (core : Fin 32) (w : BitVec 64) : Statement (.sra core w) := ⟨0x0007000000000000, by decide, by decide⟩
theorem mul (core : Fin 32) (w : BitVec 64) : Statement (.mul core w) := ⟨0x0008000000000000, by decide, by decide⟩
theorem mulh (core : Fin 32) (w : BitVec 64) : Statement (.mulh core w) := ⟨0x0009000000000000, by decide, by decide⟩
theorem mulhu (core : Fin 32) (w : BitVec 64) : Statement (.mulhu core w) := ⟨0x000A000000000000, by decide, by decide⟩
theorem min (core : Fin 32) (w : BitVec 64) : Statement (.min core w) := ⟨0x000B000000000000, by decide, by decide⟩
theorem max (core : Fin 32) (w : BitVec 64) : Statement (.max core w) := ⟨0x000C000000000000, by decide, by decide⟩
theorem minu (core : Fin 32) (w : BitVec 64) : Statement (.minu core w) := ⟨0x000D000000000000, by decide, by decide⟩
theorem maxu (core : Fin 32) (w : BitVec 64) : Statement (.maxu core w) := ⟨0x000E000000000000, by decide, by decide⟩
theorem cmpEq (core : Fin 32) (w : BitVec 64) : Statement (.cmpEq core w) := ⟨0x0800000000000000, by decide, by decide⟩
theorem cmpNe (core : Fin 32) (w : BitVec 64) : Statement (.cmpNe core w) := ⟨0x0801000000000000, by decide, by decide⟩
theorem cmpLt (core : Fin 32) (w : BitVec 64) : Statement (.cmpLt core w) := ⟨0x0802000000000000, by decide, by decide⟩
theorem cmpGe (core : Fin 32) (w : BitVec 64) : Statement (.cmpGe core w) := ⟨0x0803000000000000, by decide, by decide⟩
theorem cmpLtu (core : Fin 32) (w : BitVec 64) : Statement (.cmpLtu core w) := ⟨0x0804000000000000, by decide, by decide⟩
theorem cmpGeu (core : Fin 32) (w : BitVec 64) : Statement (.cmpGeu core w) := ⟨0x0805000000000000, by decide, by decide⟩
theorem pand (core : Fin 32) (w : BitVec 64) : Statement (.pand core w) := ⟨0x1000000000000000, by decide, by decide⟩
theorem por (core : Fin 32) (w : BitVec 64) : Statement (.por core w) := ⟨0x1001000000000000, by decide, by decide⟩
theorem pxor (core : Fin 32) (w : BitVec 64) : Statement (.pxor core w) := ⟨0x1002000000000000, by decide, by decide⟩
theorem pandn (core : Fin 32) (w : BitVec 64) : Statement (.pandn core w) := ⟨0x1003000000000000, by decide, by decide⟩
theorem pnot (core : Fin 32) (w : BitVec 64) : Statement (.pnot core w) := ⟨0x1004000000000000, by decide, by decide⟩
theorem sld (core : Fin 32) (w : BitVec 64) : Statement (.sld core w) := ⟨0x1400000000000000, by decide, by decide⟩
theorem sst (core : Fin 32) (w : BitVec 64) : Statement (.sst core w) := ⟨0x1401000000000000, by decide, by decide⟩
theorem sget (core : Fin 32) (w : BitVec 64) : Statement (.sget core w) := ⟨0x1800000000000000, by decide, by decide⟩
theorem b (core : Fin 32) (w : BitVec 64) : Statement (.b core w) := ⟨0x2000000000000000, by decide, by decide⟩
theorem bl (core : Fin 32) (w : BitVec 64) : Statement (.bl core w) := ⟨0x2001000000000000, by decide, by decide⟩
theorem br (core : Fin 32) (w : BitVec 64) : Statement (.br core w) := ⟨0x2002000000000000, by decide, by decide⟩
theorem brl (core : Fin 32) (w : BitVec 64) : Statement (.brl core w) := ⟨0x2003000000000000, by decide, by decide⟩
theorem loop (core : Fin 32) (w : BitVec 64) : Statement (.loop core w) := ⟨0x2400000020000000, by decide, by decide⟩
theorem tld (core : Fin 32) (w : BitVec 64) : Statement (.tld core w) := ⟨0x4000000000000000, by decide, by decide⟩
theorem tst (core : Fin 32) (w : BitVec 64) : Statement (.tst core w) := ⟨0x4400000000000000, by decide, by decide⟩
theorem tpf (core : Fin 32) (w : BitVec 64) : Statement (.tpf core w) := ⟨0x4800000000000000, by decide, by decide⟩
theorem tchk (core : Fin 32) (w : BitVec 64) : Statement (.tchk core w) := ⟨0x4C00000000000000, by decide, by decide⟩
theorem tdescLoad (core : Fin 32) (w : BitVec 64) : Statement (.tdescLoad core w) := ⟨0x5000000000000000, by decide, by decide⟩
theorem tdescCopy (core : Fin 32) (w : BitVec 64) : Statement (.tdescCopy core w) := ⟨0x5008000000000000, by decide, by decide⟩
theorem tdescSet (core : Fin 32) (w : BitVec 64) : Statement (.tdescSet core w) := ⟨0x5010000000000000, by decide, by decide⟩
theorem tdescAdd (core : Fin 32) (w : BitVec 64) : Statement (.tdescAdd core w) := ⟨0x5018000000000000, by decide, by decide⟩
theorem tdescSeti (core : Fin 32) (w : BitVec 64) : Statement (.tdescSeti core w) := ⟨0x5020000000000000, by decide, by decide⟩
theorem mwl (core : Fin 32) (w : BitVec 64) : Statement (.mwl core w) := ⟨0x8000000000000000, by decide, by decide⟩
theorem mma (core : Fin 32) (w : BitVec 64) : Statement (.mma core w) := ⟨0x8400000000000000, by decide, by decide⟩
theorem mmas (core : Fin 32) (w : BitVec 64) : Statement (.mmas core w) := ⟨0x8800000000000000, by decide, by decide⟩
theorem maccZero (core : Fin 32) (w : BitVec 64) : Statement (.maccZero core w) := ⟨0x8C00000000000000, by decide, by decide⟩
theorem maccRes (core : Fin 32) (w : BitVec 64) : Statement (.maccRes core w) := ⟨0x8C08000000000000, by decide, by decide⟩
theorem maccUnres (core : Fin 32) (w : BitVec 64) : Statement (.maccUnres core w) := ⟨0x8C10000000000000, by decide, by decide⟩
theorem maccCkpt (core : Fin 32) (w : BitVec 64) : Statement (.maccCkpt core w) := ⟨0x8C18000000000000, by decide, by decide⟩
theorem maccRestore (core : Fin 32) (w : BitVec 64) : Statement (.maccRestore core w) := ⟨0x8C20000000000000, by decide, by decide⟩
theorem kapp (core : Fin 32) (w : BitVec 64) : Statement (.kapp core w) := ⟨0x9000000000000000, by decide, by decide⟩
theorem kseal (core : Fin 32) (w : BitVec 64) : Statement (.kseal core w) := ⟨0x9400000000000000, by decide, by decide⟩
theorem kmap (core : Fin 32) (w : BitVec 64) : Statement (.kmap core w) := ⟨0x9800000000000000, by decide, by decide⟩
theorem kmapPrefetch (core : Fin 32) (w : BitVec 64) : Statement (.kmapPrefetch core w) := ⟨0x9800000040000000, by decide, by decide⟩
theorem eopMov (core : Fin 32) (w : BitVec 64) : Statement (.eopMov core w) := ⟨0xC0000F8000000000, by decide, by decide⟩
theorem eopAdd (core : Fin 32) (w : BitVec 64) : Statement (.eopAdd core w) := ⟨0xC000008000008000, by decide, by decide⟩
theorem eopSub (core : Fin 32) (w : BitVec 64) : Statement (.eopSub core w) := ⟨0xC000008000010000, by decide, by decide⟩
theorem eopMul (core : Fin 32) (w : BitVec 64) : Statement (.eopMul core w) := ⟨0xC000008000018000, by decide, by decide⟩
theorem eopMin (core : Fin 32) (w : BitVec 64) : Statement (.eopMin core w) := ⟨0xC000008000020000, by decide, by decide⟩
theorem eopMax (core : Fin 32) (w : BitVec 64) : Statement (.eopMax core w) := ⟨0xC000008000028000, by decide, by decide⟩
theorem eopAbs (core : Fin 32) (w : BitVec 64) : Statement (.eopAbs core w) := ⟨0xC0000F8000030000, by decide, by decide⟩
theorem eopNeg (core : Fin 32) (w : BitVec 64) : Statement (.eopNeg core w) := ⟨0xC0000F8000038000, by decide, by decide⟩
theorem eopRelu (core : Fin 32) (w : BitVec 64) : Statement (.eopRelu core w) := ⟨0xC0000F8000040000, by decide, by decide⟩
theorem eopExp2 (core : Fin 32) (w : BitVec 64) : Statement (.eopExp2 core w) := ⟨0xC0000F8000080000, by decide, by decide⟩
theorem eopExp (core : Fin 32) (w : BitVec 64) : Statement (.eopExp core w) := ⟨0xC0000F8000088000, by decide, by decide⟩
theorem eopLog2 (core : Fin 32) (w : BitVec 64) : Statement (.eopLog2 core w) := ⟨0xC0000F8000090000, by decide, by decide⟩
theorem eopRcp (core : Fin 32) (w : BitVec 64) : Statement (.eopRcp core w) := ⟨0xC0000F8000098000, by decide, by decide⟩
theorem eopRsqrt (core : Fin 32) (w : BitVec 64) : Statement (.eopRsqrt core w) := ⟨0xC0000F80000A0000, by decide, by decide⟩
theorem eopSqrt (core : Fin 32) (w : BitVec 64) : Statement (.eopSqrt core w) := ⟨0xC0000F80000A8000, by decide, by decide⟩
theorem eopSigmoid (core : Fin 32) (w : BitVec 64) : Statement (.eopSigmoid core w) := ⟨0xC0000F80000B0000, by decide, by decide⟩
theorem eopTanh (core : Fin 32) (w : BitVec 64) : Statement (.eopTanh core w) := ⟨0xC0000F80000B8000, by decide, by decide⟩
theorem eopSilu (core : Fin 32) (w : BitVec 64) : Statement (.eopSilu core w) := ⟨0xC0000F80000C0000, by decide, by decide⟩
theorem eopGelu (core : Fin 32) (w : BitVec 64) : Statement (.eopGelu core w) := ⟨0xC0000F80000C8000, by decide, by decide⟩
theorem eopAnd (core : Fin 32) (w : BitVec 64) : Statement (.eopAnd core w) := ⟨0xC000008000104000, by decide, by decide⟩
theorem eopOr (core : Fin 32) (w : BitVec 64) : Statement (.eopOr core w) := ⟨0xC00000800010C000, by decide, by decide⟩
theorem eopXor (core : Fin 32) (w : BitVec 64) : Statement (.eopXor core w) := ⟨0xC000008000114000, by decide, by decide⟩
theorem eopShl (core : Fin 32) (w : BitVec 64) : Statement (.eopShl core w) := ⟨0xC00000800011C000, by decide, by decide⟩
theorem eopSra (core : Fin 32) (w : BitVec 64) : Statement (.eopSra core w) := ⟨0xC000008000124000, by decide, by decide⟩
theorem erq (core : Fin 32) (w : BitVec 64) : Statement (.erq core w) := ⟨0xC401000000000000, by decide, by decide⟩
theorem esmx (core : Fin 32) (w : BitVec 64) : Statement (.esmx core w) := ⟨0xC801000000000000, by decide, by decide⟩
theorem enormRms (core : Fin 32) (w : BitVec 64) : Statement (.enormRms core w) := ⟨0xCC00000000000000, by decide, by decide⟩
theorem enormLayer (core : Fin 32) (w : BitVec 64) : Statement (.enormLayer core w) := ⟨0xCC00000000004000, by decide, by decide⟩
theorem egateLstm (core : Fin 32) (w : BitVec 64) : Statement (.egateLstm core w) := ⟨0xD001000000000000, by decide, by decide⟩
theorem egateGru (core : Fin 32) (w : BitVec 64) : Statement (.egateGru core w) := ⟨0xD001000000080000, by decide, by decide⟩
theorem egateDssm (core : Fin 32) (w : BitVec 64) : Statement (.egateDssm core w) := ⟨0xD001000000100000, by decide, by decide⟩
theorem escanScan (core : Fin 32) (w : BitVec 64) : Statement (.escanScan core w) := ⟨0xD400000000000000, by decide, by decide⟩
theorem escanCombine (core : Fin 32) (w : BitVec 64) : Statement (.escanCombine core w) := ⟨0xD400000000100000, by decide, by decide⟩
theorem eredSum (core : Fin 32) (w : BitVec 64) : Statement (.eredSum core w) := ⟨0xD8000F8000000000, by decide, by decide⟩
theorem eredMax (core : Fin 32) (w : BitVec 64) : Statement (.eredMax core w) := ⟨0xD8000F8000040000, by decide, by decide⟩
theorem eredMin (core : Fin 32) (w : BitVec 64) : Statement (.eredMin core w) := ⟨0xD8000F8000080000, by decide, by decide⟩
theorem eredArgmax (core : Fin 32) (w : BitVec 64) : Statement (.eredArgmax core w) := ⟨0xD8000F80000C0000, by decide, by decide⟩
theorem eredSumsq (core : Fin 32) (w : BitVec 64) : Statement (.eredSumsq core w) := ⟨0xD8000F8000100000, by decide, by decide⟩
theorem wquantRange (core : Fin 32) (w : BitVec 64) : Statement (.wquantRange core w) := ⟨0xDC000F8000000000, by decide, by decide⟩
theorem wquantEncode (core : Fin 32) (w : BitVec 64) : Statement (.wquantEncode core w) := ⟨0xDC00000000100000, by decide, by decide⟩
theorem swait (core : Fin 32) (w : BitVec 64) : Statement (.swait core w) := ⟨0x6000000000000000, by decide, by decide⟩
theorem swaitPeek (core : Fin 32) (w : BitVec 64) : Statement (.swaitPeek core w) := ⟨0x6000000000000001, by decide, by decide⟩
theorem swaitSatisfy (sem : Fin 1024) : Statement (.swaitSatisfy sem) := rfl
theorem spost (core : Fin 32) (w : BitVec 64) : Statement (.spost core w) := ⟨0x6400000000000000, by decide, by decide⟩
theorem fence (core : Fin 32) (w : BitVec 64) : Statement (.fence core w) := ⟨0x6800000000000000, by decide, by decide⟩
theorem endCmd (core : Fin 32) (w : BitVec 64) : Statement (.endCmd core w) := ⟨0x7C00000000000000, by decide, by decide⟩
theorem csend (core : Fin 32) (w : BitVec 64) : Statement (.csend core w) := ⟨0x6C00000000000000, by decide, by decide⟩
theorem crecv (core : Fin 32) (w : BitVec 64) : Statement (.crecv core w) := ⟨0x7000000000000000, by decide, by decide⟩
theorem streamPairTransfer (a : Fin 32) (b : Fin 32) (ch : Fin 8) (crcBad : Bool) : Statement (.streamPairTransfer a b ch crcBad) := rfl
theorem lsend (core : Fin 32) (w : BitVec 64) : Statement (.lsend core w) := ⟨0x7400000000000000, by decide, by decide⟩
theorem lrecv (core : Fin 32) (w : BitVec 64) : Statement (.lrecv core w) := ⟨0x7800000000000000, by decide, by decide⟩
theorem keeperEndReport (core : Fin 32) (outs : List Tile) : Statement (.keeperEndReport core outs) := rfl
theorem scaleShift (model : Nat) (tensor : Fin 65536) : Statement (.scaleShift model tensor) := rfl
theorem sessionReingest (session : Fin 65536) : Statement (.sessionReingest session) := rfl
theorem jobAdmission (job : Nat) : Statement (.jobAdmission job) := rfl
theorem rotationStart (p : Fin 9) : Statement (.rotationStart p) := rfl
theorem schedTableArm (by_ : Req) (p : Fin 9) (v : Word) : Statement (.schedTableArm by_ p v) := rfl
theorem sectorOpen (p : Fin 9) (ix : Fin 512) : Statement (.sectorOpen p ix) := rfl
theorem sectorClose (p : Fin 9) (ix : Fin 512) : Statement (.sectorClose p ix) := rfl
theorem semWaitReport (core : Fin 32) : Statement (.semWaitReport core) := rfl
theorem telemetryInterval (principal : Fin 9) : Statement (.telemetryInterval principal) := rfl
theorem otuFill (core : Fin 32) (obj : Fin 65536) : Statement (.otuFill core obj) := rfl
theorem promotionDispatch (part : Fin 9) : Statement (.promotionDispatch part) := rfl
theorem promotionComplete (item : Item) (reads : List DeepRead) : Statement (.promotionComplete item reads) := rfl
theorem demotionComplete (item : Item) : Statement (.demotionComplete item) := rfl
theorem deepCopyWriteComplete (item : Item) : Statement (.deepCopyWriteComplete item) := rfl
theorem objectDelete (part : Fin 9) (obj : Fin 65536) : Statement (.objectDelete part obj) := rfl
theorem pageWalkerPromote (session : Fin 65536) : Statement (.pageWalkerPromote session) := rfl
theorem otcInvalidate (by_ : Req) : Statement (.otcInvalidate by_) := rfl
theorem promoPause (by_ : Req) (v : Bool) : Statement (.promoPause by_ v) := rfl
theorem pcieCfgRead (by_ : Req) : Statement (.pcieCfgRead by_) := rfl
theorem pcieCfgWrite (by_ : Req) (v : Word) : Statement (.pcieCfgWrite by_ v) := rfl
theorem pcieRetrain (by_ : Req) : Statement (.pcieRetrain by_) := rfl
theorem pciePerst (by_ : Req) (v : Bool) : Statement (.pciePerst by_ v) := rfl
theorem pcieEnable (by_ : Req) (v : Bool) : Statement (.pcieEnable by_ v) := rfl
theorem pcieMsixArrival (vector : Fin 32) : Statement (.pcieMsixArrival vector) := rfl
theorem pcieInboundRequest (addr : BitVec 64) (len : Fin 4097) (wr : Option (List Byte)) : Statement (.pcieInboundRequest addr len wr) := rfl
theorem nvmeCommandComplete (id : Nat) (ok : Bool) : Statement (.nvmeCommandComplete id ok) := rfl
theorem arpRequest (rx : HostRx) : Statement (.arpRequest rx) := rfl
theorem ndSolicitation (rx : HostRx) : Statement (.ndSolicitation rx) := rfl
theorem icmpEcho (rx : HostRx) (data : List Byte) : Statement (.icmpEcho rx data) := rfl
theorem hostLinkLoss (port : Fin 2) : Statement (.hostLinkLoss port) := rfl
theorem hostLinkReturn : Statement (.hostLinkReturn) := rfl
theorem hostFailover (by_ : Req) : Statement (.hostFailover by_) := rfl
theorem hostPortRestart (by_ : Req) (port : Fin 2) : Statement (.hostPortRestart by_ port) := rfl
theorem tc10SleepRequest (port : Fin 2) : Statement (.tc10SleepRequest port) := rfl
theorem tc10Wakeup (port : Fin 2) : Statement (.tc10Wakeup port) := rfl
theorem mkaFrame (port : Fin 2) (principal : Fin 9) (valid : Bool) (up : Bool) : Statement (.mkaFrame port principal valid up) := rfl
theorem tctOpen (rx : HostRx) (hostSeq : Nat) (resume : Nat) : Statement (.tctOpen rx hostSeq resume) := rfl
theorem tctClose (rx : HostRx) (f : TctFrame) : Statement (.tctClose rx f) := rfl
theorem tctRequestFrame (rx : HostRx) (f : TctFrame) : Statement (.tctRequestFrame rx f) := rfl
theorem tctAck (rx : HostRx) (f : TctFrame) : Statement (.tctAck rx f) := rfl
theorem tctTime (rx : HostRx) (f : TctFrame) : Statement (.tctTime rx f) := rfl
theorem tctKeepalive (rx : HostRx) (f : TctFrame) : Statement (.tctKeepalive rx f) := rfl
theorem tctRetransmitTimeout (assoc : Nat) : Statement (.tctRetransmitTimeout assoc) := rfl
theorem keepaliveTimer (assoc : Nat) : Statement (.keepaliveTimer assoc) := rfl
theorem associationLost (assoc : Nat) : Statement (.associationLost assoc) := rfl
theorem associationExpiry (assoc : Nat) : Statement (.associationExpiry assoc) := rfl
theorem tctOutboundMessage (assoc : Nat) (type : Nat) (payload : List Byte) : Statement (.tctOutboundMessage assoc type payload) := rfl
theorem loadModel (rq : Request) (head : List Byte) : Statement (.loadModel rq head) := rfl
theorem unloadModel (rq : Request) : Statement (.unloadModel rq) := rfl
theorem queueCreate (rq : Request) : Statement (.queueCreate rq) := rfl
theorem queueDestroy (rq : Request) : Statement (.queueDestroy rq) := rfl
theorem queueSettings (rq : Request) : Statement (.queueSettings rq) := rfl
theorem scheduleSet (rq : Request) : Statement (.scheduleSet rq) := rfl
theorem loadData (rq : Request) : Statement (.loadData rq) := rfl
theorem loadImageTimeout (handle : Nat) : Statement (.loadImageTimeout handle) := rfl
theorem storeImage (rq : Request) (head : List Byte) : Statement (.storeImage rq head) := rfl
theorem storeDelete (rq : Request) : Statement (.storeDelete rq) := rfl
theorem storeList (rq : Request) : Statement (.storeList rq) := rfl
theorem storeFormat (rq : Request) : Statement (.storeFormat rq) := rfl
theorem openSession (rq : Request) : Statement (.openSession rq) := rfl
theorem closeSession (rq : Request) : Statement (.closeSession rq) := rfl
theorem sessionSettings (rq : Request) : Statement (.sessionSettings rq) := rfl
theorem invoke (rq : Request) : Statement (.invoke rq) := rfl
theorem submitInput (rq : Request) : Statement (.submitInput rq) := rfl
theorem cancel (rq : Request) : Statement (.cancel rq) := rfl
theorem queryHandle (rq : Request) : Statement (.queryHandle rq) := rfl
theorem readOutput (rq : Request) : Statement (.readOutput rq) := rfl
theorem tenantCreate (rq : Request) : Statement (.tenantCreate rq) := rfl
theorem tenantRemove (rq : Request) : Statement (.tenantRemove rq) := rfl
theorem setMode (rq : Request) : Statement (.setMode rq) := rfl
theorem readRecords (rq : Request) : Statement (.readRecords rq) := rfl
theorem calibrationWrite (rq : Request) : Statement (.calibrationWrite rq) := rfl
theorem calibrationErase (rq : Request) : Statement (.calibrationErase rq) := rfl
theorem calibrationRead (rq : Request) : Statement (.calibrationRead rq) := rfl
theorem attest (rq : Request) : Statement (.attest rq) := rfl
theorem telemetrySet (rq : Request) : Statement (.telemetrySet rq) := rfl
theorem fabricPlace (rq : Request) : Statement (.fabricPlace rq) := rfl
theorem memberLeave (rq : Request) : Statement (.memberLeave rq) := rfl
theorem updateInstall (rq : Request) : Statement (.updateInstall rq) := rfl
theorem updateCommit (rq : Request) : Statement (.updateCommit rq) := rfl
theorem updateRevert (rq : Request) : Statement (.updateRevert rq) := rfl
theorem ispParameterUpdate (rq : Request) : Statement (.ispParameterUpdate rq) := rfl
theorem modelSwitch (rq : Request) : Statement (.modelSwitch rq) := rfl
theorem tenantKeyRotation (rq : Request) : Statement (.tenantKeyRotation rq) := rfl
theorem lifeCycleChange (rq : Request) : Statement (.lifeCycleChange rq) := rfl
theorem revokeRoot (rq : Request) : Statement (.revokeRoot rq) := rfl
theorem provisionRootDigest (rq : Request) : Statement (.provisionRootDigest rq) := rfl
theorem provisionDeviceKey (rq : Request) : Statement (.provisionDeviceKey rq) := rfl
theorem provisionCertificate (rq : Request) : Statement (.provisionCertificate rq) := rfl
theorem provisionSystemCak (rq : Request) : Statement (.provisionSystemCak rq) := rfl
theorem bootStepClear (rq : Request) : Statement (.bootStepClear rq) := rfl
theorem retirementMapClear (rq : Request) : Statement (.retirementMapClear rq) := rfl
theorem updateAutoCommit (cls : Fin 4) : Statement (.updateAutoCommit cls) := rfl
theorem updateTrialExpiry (cls : Fin 4) : Statement (.updateTrialExpiry cls) := rfl
theorem agconLinkTrained (port : Fin 4) (lanes : Fin 16) : Statement (.agconLinkTrained port lanes) := rfl
theorem auth (port : Fin 4) (root : Fin 2) (ok : Bool) (role : Fin 4) (peer : BitVec 16) : Statement (.auth port root ok role peer) := rfl
theorem key (port : Fin 4) (f : FabFrame) : Statement (.key port f) := rfl
theorem agconRekey (port : Fin 4) : Statement (.agconRekey port) := rfl
theorem data (port : Fin 4) (f : FabFrame) : Statement (.data port f) := rfl
theorem credit (port : Fin 4) (f : FabFrame) : Statement (.credit port f) := rfl
theorem idle (port : Fin 4) (f : FabFrame) : Statement (.idle port f) := rfl
theorem linkAck (port : Fin 4) (f : FabFrame) (n : Nat) : Statement (.linkAck port f n) := rfl
theorem linkNak (port : Fin 4) (f : FabFrame) (n : Nat) : Statement (.linkNak port f n) := rfl
theorem agconLinkDown (port : Fin 4) : Statement (.agconLinkDown port) := rfl
theorem peerLost (port : Fin 4) : Statement (.peerLost port) := rfl
theorem moor (port : Fin 4) (f : FabFrame) (seg : Fin 16) (stn : Fin 256) : Statement (.moor port f seg stn) := rfl
theorem moorEnd (port : Fin 4) (f : FabFrame) (entries : List LightEntry) (closed : Bool) : Statement (.moorEnd port f entries closed) := rfl
theorem probe (port : Fin 4) (f : FabFrame) (addr : BitVec 16) : Statement (.probe port f addr) := rfl
theorem segReport (port : Fin 4) (f : FabFrame) (origin : Nat) (gen : Nat) (entries : List LightEntry) : Statement (.segReport port f origin gen entries) := rfl
theorem lightBuild : Statement (.lightBuild) := rfl
theorem light (port : Fin 4) (f : FabFrame) (m : LightMsg) : Statement (.light port f m) := rfl
theorem memberLost (port : Fin 4) (f : FabFrame) (origin : Nat) (gen : Nat) (addr : BitVec 16) : Statement (.memberLost port f origin gen addr) := rfl
theorem placeTimeout (member : BitVec 16) : Statement (.placeTimeout member) := rfl
theorem rerun (port : Fin 4) (f : FabFrame) : Statement (.rerun port f) := rfl
theorem place (port : Fin 4) (f : FabFrame) : Statement (.place port f) := rfl
theorem move (port : Fin 4) (f : FabFrame) : Statement (.move port f) := rfl
theorem keyRetire (port : Fin 4) (f : FabFrame) (tenant : Fin 9) (gen : Option Nat) : Statement (.keyRetire port f tenant gen) := rfl
theorem keyRetireAck (port : Fin 4) (f : FabFrame) (tenant : Fin 9) (gen : Option Nat) (phase : Nat) : Statement (.keyRetireAck port f tenant gen phase) := rfl
theorem fabricControlSend (port : Fin 4) (f : FabFrame) : Statement (.fabricControlSend port f) := rfl
theorem moorStart (by_ : Req) : Statement (.moorStart by_) := rfl
theorem routeCommit (by_ : Req) : Statement (.routeCommit by_) := rfl
theorem agconPortRestart (by_ : Req) (mask : Fin 16) : Statement (.agconPortRestart by_ mask) := rfl
theorem aonReset : Statement (.aonReset) := rfl
theorem ringFrameRecord (samples : List Int) : Statement (.ringFrameRecord samples) := rfl
theorem aonRunStart (by_ : Req) : Statement (.aonRunStart by_) := rfl
theorem aonRunStop (by_ : Req) : Statement (.aonRunStop by_) := rfl
theorem aonLatch (by_ : Req) : Statement (.aonLatch by_) := rfl
theorem dspResetAssert (by_ : Req) : Statement (.dspResetAssert by_) := rfl
theorem dspResetRelease (by_ : Req) : Statement (.dspResetRelease by_) := rfl
theorem aonConfigWrite (by_ : Req) (reg : AonReg) (v : Word) : Statement (.aonConfigWrite by_ reg v) := rfl
theorem ringGatedRead (by_ : Req) (off : Fin 0x600000) (n : Fin 4) : Statement (.ringGatedRead by_ off n) := rfl
theorem aonPosLowRead (by_ : Req) (r : Fin 7) : Statement (.aonPosLowRead by_ r) := rfl
theorem gateServiceOpen (by_ : Req) : Statement (.gateServiceOpen by_) := rfl
theorem gateClose (by_ : Req) : Statement (.gateClose by_) := rfl
theorem gateExpiry : Statement (.gateExpiry) := rfl
theorem candidateOpen (by_ : Req) : Statement (.candidateOpen by_) := rfl
theorem candidateClose (by_ : Req) : Statement (.candidateClose by_) := rfl
theorem candidateExpiry : Statement (.candidateExpiry) := rfl
theorem wake (m : DspMsg) : Statement (.wake m) := rfl
theorem event (m : DspMsg) : Statement (.event m) := rfl
theorem closed (m : DspMsg) : Statement (.closed m) := rfl
theorem wakeVerdict (number : BitVec 16) (confirmed : Bool) : Statement (.wakeVerdict number confirmed) := rfl
theorem dspPing : Statement (.dspPing) := rfl
theorem modeRequest (by_ : Req) (mode : Mode) : Statement (.modeRequest by_ mode) := rfl
theorem modeTransitionComplete : Statement (.modeTransitionComplete) := rfl
theorem backgroundTrainingDone : Statement (.backgroundTrainingDone) := rfl
theorem idleHoldExpiry : Statement (.idleHoldExpiry) := rfl
theorem deferredDownTimeout : Statement (.deferredDownTimeout) := rfl
theorem csiFrameStart (port : Fin 4) (vc : Fin 4) (hdr : Fin 3) (number : BitVec 16) : Statement (.csiFrameStart port vc hdr number) := rfl
theorem csiFrameEnd (port : Fin 4) (vc : Fin 4) (hdr : Fin 3) : Statement (.csiFrameEnd port vc hdr) := rfl
theorem csiLinePacket (port : Fin 4) (vc : Fin 4) (hdr : Fin 3) (dt : Fin 64) (px : List Nat) (crcBad : Bool) (full : Bool) : Statement (.csiLinePacket port vc hdr dt px crcBad full) := rfl
theorem csiShortPacketIgnored (port : Fin 4) (hdr : Fin 2) : Statement (.csiShortPacketIgnored port hdr) := rfl
theorem camFrameTimeout (ctx : Fin 16) : Statement (.camFrameTimeout ctx) := rfl
theorem camFrameDone (ctx : Fin 16) : Statement (.camFrameDone ctx) := rfl
theorem camBufferRelease (by_ : Req) (ctx : Fin 16) (mask : BitVec 16) : Statement (.camBufferRelease by_ ctx mask) := rfl
theorem camContextEnable (by_ : Req) (ctx : Fin 16) (v : Bool) : Statement (.camContextEnable by_ ctx v) := rfl
theorem camParamHold (by_ : Req) (ctx : Fin 16) (v : Bool) : Statement (.camParamHold by_ ctx v) := rfl
theorem camLowRate (by_ : Req) (v : Bool) : Statement (.camLowRate by_ v) := rfl
theorem camPortEnable (by_ : Req) (port : Fin 4) (v : Bool) : Statement (.camPortEnable by_ port v) := rfl
theorem secZeroiseAll (by_ : Req) : Statement (.secZeroiseAll by_) := rfl
theorem secOwnerUnlock (by_ : Req) (v : Bool) : Statement (.secOwnerUnlock by_ v) := rfl
theorem secRequest : Statement (.secRequest) := rfl
theorem secResult : Statement (.secResult) := rfl
theorem secRestart (header : List Byte) : Statement (.secRestart header) := rfl
theorem trngHealthFail : Statement (.trngHealthFail) := rfl
theorem tenantDrainComplete (tenant : Fin 9) : Statement (.tenantDrainComplete tenant) := rfl
theorem tenantScrubComplete (tenant : Fin 9) : Statement (.tenantScrubComplete tenant) := rfl
theorem quenchAckTimeout (tenant : Fin 9) (member : BitVec 16) : Statement (.quenchAckTimeout tenant member) := rfl
theorem keeperRestart (ok : Bool) : Statement (.keeperRestart ok) := rfl
theorem alarmPath (cause : AlarmCause) : Statement (.alarmPath cause) := rfl
theorem alarmForce (by_ : Req) (v : Word) : Statement (.alarmForce by_ v) := rfl
theorem healthMonitorSample : Statement (.healthMonitorSample) := rfl
theorem hbmPatrolScrub (corr uncorr : List Nat) (done : Nat) : Statement (.hbmPatrolScrub corr uncorr done) := rfl
theorem deepPatrolScrub (item : Item) (reads : List DeepRead) (done : Nat) : Statement (.deepPatrolScrub item reads done) := rfl
theorem sramScrub (found : List (SramPlace × Bool)) : Statement (.sramScrub found) := rfl
theorem scrubLate (deep : Bool) : Statement (.scrubLate deep) := rfl
theorem mramWearRemap (block : Fin 2048) : Statement (.mramWearRemap block) := rfl
theorem interfaceCalibration (ifc : Fin 10) (temp : Int) : Statement (.interfaceCalibration ifc temp) := rfl
theorem monitorRecalibration (trims : List (Nat × List Byte)) : Statement (.monitorRecalibration trims) := rfl
theorem selftestSlice (slice : Slice) (vdd : Nat) (pass : Bool) : Statement (.selftestSlice slice vdd pass) := rfl
theorem selftestDeferRetry (slice : Slice) (vdd : Nat) (pass : Bool) : Statement (.selftestDeferRetry slice vdd pass) := rfl
theorem coldStart (obs : StartObs) : Statement (.coldStart obs) := rfl
theorem memoryTrainingDone (hbm : Bool) : Statement (.memoryTrainingDone hbm) := rfl
theorem bootWatchdog : Statement (.bootWatchdog) := rfl
theorem warmStart (obs : StartObs) : Statement (.warmStart obs) := rfl
theorem logbookDropSummary : Statement (.logbookDropSummary) := rfl
theorem mainPgRise : Statement (.mainPgRise) := rfl
theorem mainPgFall : Statement (.mainPgFall) := rfl
theorem mainPgTimeout : Statement (.mainPgTimeout) := rfl
theorem mainEnRetry : Statement (.mainEnRetry) := rfl
theorem porstNAssert : Statement (.porstNAssert) := rfl
theorem porstNRelease : Statement (.porstNRelease) := rfl
theorem throttleNChange (low : Bool) : Statement (.throttleNChange low) := rfl
theorem powerCapStep (p : Word) (temps : List Int) : Statement (.powerCapStep p temps) := rfl
theorem powerCapUnmet : Statement (.powerCapUnmet) := rfl
theorem thermalTrip : Statement (.thermalTrip) := rfl
theorem thermalTripRelease : Statement (.thermalTripRelease) := rfl
theorem thermalTripTimeout : Statement (.thermalTripTimeout) := rfl
theorem sysTickRead (by_ : Req) : Statement (.sysTickRead by_) := rfl
theorem periOspiGo (by_ : Req) (v : Word) : Statement (.periOspiGo by_ v) := rfl
theorem ospiWindowRead (by_ : Req) (off : BitVec 28) : Statement (.ospiWindowRead by_ off) := rfl
theorem ospiCommandDone (data : List Byte) (ch : List (Nat × Byte)) : Statement (.ospiCommandDone data ch) := rfl
theorem ospiCommandTimeout : Statement (.ospiCommandTimeout) := rfl
theorem i2cTransfer (by_ : Req) (b : Fin 4) (v : Word) : Statement (.i2cTransfer by_ b v) := rfl
theorem i2cTransferDone (b : Fin 4) (sent : Nat) (data : List Byte) (nack arbLost : Bool) : Statement (.i2cTransferDone b sent data nack arbLost) := rfl
theorem i2cStretchTimeout (b : Fin 4) (sent : Nat) (data : List Byte) : Statement (.i2cStretchTimeout b sent data) := rfl
theorem i2cFifoWrite (by_ : Req) (b : Fin 4) (v : Byte) : Statement (.i2cFifoWrite by_ b v) := rfl
theorem i2cFifoRead (by_ : Req) (b : Fin 4) : Statement (.i2cFifoRead by_ b) := rfl
theorem spiTransfer (by_ : Req) (b : Fin 2) (v : Word) : Statement (.spiTransfer by_ b v) := rfl
theorem spiTransferDone (b : Fin 2) (data : List Byte) : Statement (.spiTransferDone b data) := rfl
theorem spiFifoWrite (by_ : Req) (b : Fin 2) (v : Byte) : Statement (.spiFifoWrite by_ b v) := rfl
theorem spiFifoRead (by_ : Req) (b : Fin 2) : Statement (.spiFifoRead by_ b) := rfl
theorem gpioInterrupt (pin : Fin 16) (level : Bool) : Statement (.gpioInterrupt pin level) := rfl
theorem uartDataWrite (by_ : Req) (v : Byte) : Statement (.uartDataWrite by_ v) := rfl
theorem uartDataRead (by_ : Req) : Statement (.uartDataRead by_) := rfl
theorem uartRxByte (v : Byte) : Statement (.uartRxByte v) := rfl
theorem queuedInstructionComplete (core : Fin 32) (element : Bool) : Statement (.queuedInstructionComplete core element) := rfl
theorem hostLinkUp (port : Fin 2) (sqi : Fin 8) : Statement (.hostLinkUp port sqi) := rfl
theorem hostFrameDropped (port : Fin 2) (cause : Fin 5) : Statement (.hostFrameDropped port cause) := rfl
theorem agconFrameRejected (port : Fin 4) (cause : Fin 4) : Statement (.agconFrameRejected port cause) := rfl
theorem csiLaneStateChange (port : Fin 4) (st : Fin 4) (lanes : Fin 16) : Statement (.csiLaneStateChange port st lanes) := rfl
theorem pcieLinkChange (up : Bool) (speed : Fin 4) (width : Fin 3) : Statement (.pcieLinkChange up speed width) := rfl
theorem uartTxByteDone : Statement (.uartTxByteDone) := rfl
theorem keyRewriteComplete (tenant : Fin 9) : Statement (.keyRewriteComplete tenant) := rfl

end Sys2Proof.Laws.WellFormed
end

