-- ==== Sys2Proof/Laws/State.lean ====
section
/-! SUPPORT. Sys2Proof/Laws/State.lean: what each named update of the state leaves in each field. -/

namespace Sys2Proof.Machine

/-! `setCore` -/

@[simp] theorem setCore_pending (s : State) (n : Nat) (c : Core) : (setCore s n c).pending = s.pending := rfl
@[simp] theorem setCore_freeCtr (s : State) (n : Nat) (c : Core) : (setCore s n c).freeCtr = s.freeCtr := rfl
@[simp] theorem setCore_resp (s : State) (n : Nat) (c : Core) : (setCore s n c).resp = s.resp := rfl
@[simp] theorem setCore_irqs (s : State) (n : Nat) (c : Core) : (setCore s n c).irqs = s.irqs := rfl
@[simp] theorem setCore_board (s : State) (n : Nat) (c : Core) : (setCore s n c).board = s.board := rfl
@[simp] theorem setCore_own (s : State) (n : Nat) (c : Core) : (setCore s n c).own = s.own := rfl
@[simp] theorem setCore_otp (s : State) (n : Nat) (c : Core) : (setCore s n c).otp = s.otp := rfl
@[simp] theorem setCore_tick (s : State) (n : Nat) (c : Core) : (setCore s n c).tick = s.tick := rfl
@[simp] theorem setCore_mem (s : State) (n : Nat) (c : Core) : (setCore s n c).mem = s.mem := rfl
@[simp] theorem setCore_poison (s : State) (n : Nat) (c : Core) : (setCore s n c).poison = s.poison := rfl
@[simp] theorem setCore_mbx (s : State) (n : Nat) (c : Core) : (setCore s n c).mbx = s.mbx := rfl
@[simp] theorem setCore_cores (s : State) (n : Nat) (c : Core) : (setCore s n c).cores = SMap.put s.cores n c {} := rfl
@[simp] theorem setCore_sems (s : State) (n : Nat) (c : Core) : (setCore s n c).sems = s.sems := rfl
@[simp] theorem setCore_mm (s : State) (n : Nat) (c : Core) : (setCore s n c).mm = s.mm := rfl
@[simp] theorem setCore_pcie (s : State) (n : Nat) (c : Core) : (setCore s n c).pcie = s.pcie := rfl
@[simp] theorem setCore_ras (s : State) (n : Nat) (c : Core) : (setCore s n c).ras = s.ras := rfl
@[simp] theorem setCore_log (s : State) (n : Nat) (c : Core) : (setCore s n c).log = s.log := rfl
@[simp] theorem setCore_aon (s : State) (n : Nat) (c : Core) : (setCore s n c).aon = s.aon := rfl
@[simp] theorem setCore_boot (s : State) (n : Nat) (c : Core) : (setCore s n c).boot = s.boot := rfl
@[simp] theorem setCore_power (s : State) (n : Nat) (c : Core) : (setCore s n c).power = s.power := rfl
@[simp] theorem setCore_events (s : State) (n : Nat) (c : Core) : (setCore s n c).events = s.events := rfl
@[simp] theorem setCore_runs (s : State) (n : Nat) (c : Core) : (setCore s n c).runs = s.runs := rfl
@[simp] theorem setCore_donations (s : State) (n : Nat) (c : Core) : (setCore s n c).donations = s.donations := rfl
@[simp] theorem setCore_k (s : State) (n : Nat) (c : Core) : (setCore s n c).k = s.k := rfl
@[simp] theorem setCore_sched (s : State) (n : Nat) (c : Core) : (setCore s n c).sched = s.sched := rfl
@[simp] theorem setCore_port0 (s : State) (n : Nat) (c : Core) : (setCore s n c).port0 = s.port0 := rfl
@[simp] theorem setCore_port1 (s : State) (n : Nat) (c : Core) : (setCore s n c).port1 = s.port1 := rfl
@[simp] theorem setCore_activePort (s : State) (n : Nat) (c : Core) : (setCore s n c).activePort = s.activePort := rfl
@[simp] theorem setCore_hostOut (s : State) (n : Nat) (c : Core) : (setCore s n c).hostOut = s.hostOut := rfl
@[simp] theorem setCore_regs (s : State) (n : Nat) (c : Core) : (setCore s n c).regs = s.regs := rfl
@[simp] theorem setCore_shadow (s : State) (n : Nat) (c : Core) : (setCore s n c).shadow = s.shadow := rfl
@[simp] theorem setCore_routes (s : State) (n : Nat) (c : Core) : (setCore s n c).routes = s.routes := rfl
@[simp] theorem setCore_inMsgs (s : State) (n : Nat) (c : Core) : (setCore s n c).inMsgs = s.inMsgs := rfl
@[simp] theorem setCore_fab (s : State) (n : Nat) (c : Core) : (setCore s n c).fab = s.fab := rfl
@[simp] theorem setCore_cam (s : State) (n : Nat) (c : Core) : (setCore s n c).cam = s.cam := rfl
@[simp] theorem setCore_sec (s : State) (n : Nat) (c : Core) : (setCore s n c).sec = s.sec := rfl
@[simp] theorem setCore_secStore (s : State) (n : Nat) (c : Core) : (setCore s n c).secStore = s.secStore := rfl
@[simp] theorem setCore_peri (s : State) (n : Nat) (c : Core) : (setCore s n c).peri = s.peri := rfl

/-! `busError` -/

@[simp] theorem busError_pending (s : State) : (busError s).pending = s.pending := rfl
@[simp] theorem busError_freeCtr (s : State) : (busError s).freeCtr = s.freeCtr := rfl
@[simp] theorem busError_resp (s : State) : (busError s).resp = .busError := rfl
@[simp] theorem busError_irqs (s : State) : (busError s).irqs = s.irqs := rfl
@[simp] theorem busError_board (s : State) : (busError s).board = s.board := rfl
@[simp] theorem busError_own (s : State) : (busError s).own = s.own := rfl
@[simp] theorem busError_otp (s : State) : (busError s).otp = s.otp := rfl
@[simp] theorem busError_tick (s : State) : (busError s).tick = s.tick := rfl
@[simp] theorem busError_mem (s : State) : (busError s).mem = s.mem := rfl
@[simp] theorem busError_poison (s : State) : (busError s).poison = s.poison := rfl
@[simp] theorem busError_mbx (s : State) : (busError s).mbx = s.mbx := rfl
@[simp] theorem busError_cores (s : State) : (busError s).cores = s.cores := rfl
@[simp] theorem busError_sems (s : State) : (busError s).sems = s.sems := rfl
@[simp] theorem busError_mm (s : State) : (busError s).mm = s.mm := rfl
@[simp] theorem busError_pcie (s : State) : (busError s).pcie = s.pcie := rfl
@[simp] theorem busError_ras (s : State) : (busError s).ras = s.ras := rfl
@[simp] theorem busError_log (s : State) : (busError s).log = s.log := rfl
@[simp] theorem busError_aon (s : State) : (busError s).aon = s.aon := rfl
@[simp] theorem busError_boot (s : State) : (busError s).boot = s.boot := rfl
@[simp] theorem busError_power (s : State) : (busError s).power = s.power := rfl
@[simp] theorem busError_events (s : State) : (busError s).events = s.events := rfl
@[simp] theorem busError_runs (s : State) : (busError s).runs = s.runs := rfl
@[simp] theorem busError_donations (s : State) : (busError s).donations = s.donations := rfl
@[simp] theorem busError_k (s : State) : (busError s).k = s.k := rfl
@[simp] theorem busError_sched (s : State) : (busError s).sched = s.sched := rfl
@[simp] theorem busError_port0 (s : State) : (busError s).port0 = s.port0 := rfl
@[simp] theorem busError_port1 (s : State) : (busError s).port1 = s.port1 := rfl
@[simp] theorem busError_activePort (s : State) : (busError s).activePort = s.activePort := rfl
@[simp] theorem busError_hostOut (s : State) : (busError s).hostOut = s.hostOut := rfl
@[simp] theorem busError_regs (s : State) : (busError s).regs = s.regs := rfl
@[simp] theorem busError_shadow (s : State) : (busError s).shadow = s.shadow := rfl
@[simp] theorem busError_routes (s : State) : (busError s).routes = s.routes := rfl
@[simp] theorem busError_inMsgs (s : State) : (busError s).inMsgs = s.inMsgs := rfl
@[simp] theorem busError_fab (s : State) : (busError s).fab = s.fab := rfl
@[simp] theorem busError_cam (s : State) : (busError s).cam = s.cam := rfl
@[simp] theorem busError_sec (s : State) : (busError s).sec = s.sec := rfl
@[simp] theorem busError_secStore (s : State) : (busError s).secStore = s.secStore := rfl
@[simp] theorem busError_peri (s : State) : (busError s).peri = s.peri := rfl

/-! `busOk` -/

@[simp] theorem busOk_pending (s : State) : (busOk s).pending = s.pending := rfl
@[simp] theorem busOk_freeCtr (s : State) : (busOk s).freeCtr = s.freeCtr := rfl
@[simp] theorem busOk_resp (s : State) : (busOk s).resp = .ok := rfl
@[simp] theorem busOk_irqs (s : State) : (busOk s).irqs = s.irqs := rfl
@[simp] theorem busOk_board (s : State) : (busOk s).board = s.board := rfl
@[simp] theorem busOk_own (s : State) : (busOk s).own = s.own := rfl
@[simp] theorem busOk_otp (s : State) : (busOk s).otp = s.otp := rfl
@[simp] theorem busOk_tick (s : State) : (busOk s).tick = s.tick := rfl
@[simp] theorem busOk_mem (s : State) : (busOk s).mem = s.mem := rfl
@[simp] theorem busOk_poison (s : State) : (busOk s).poison = s.poison := rfl
@[simp] theorem busOk_mbx (s : State) : (busOk s).mbx = s.mbx := rfl
@[simp] theorem busOk_cores (s : State) : (busOk s).cores = s.cores := rfl
@[simp] theorem busOk_sems (s : State) : (busOk s).sems = s.sems := rfl
@[simp] theorem busOk_mm (s : State) : (busOk s).mm = s.mm := rfl
@[simp] theorem busOk_pcie (s : State) : (busOk s).pcie = s.pcie := rfl
@[simp] theorem busOk_ras (s : State) : (busOk s).ras = s.ras := rfl
@[simp] theorem busOk_log (s : State) : (busOk s).log = s.log := rfl
@[simp] theorem busOk_aon (s : State) : (busOk s).aon = s.aon := rfl
@[simp] theorem busOk_boot (s : State) : (busOk s).boot = s.boot := rfl
@[simp] theorem busOk_power (s : State) : (busOk s).power = s.power := rfl
@[simp] theorem busOk_events (s : State) : (busOk s).events = s.events := rfl
@[simp] theorem busOk_runs (s : State) : (busOk s).runs = s.runs := rfl
@[simp] theorem busOk_donations (s : State) : (busOk s).donations = s.donations := rfl
@[simp] theorem busOk_k (s : State) : (busOk s).k = s.k := rfl
@[simp] theorem busOk_sched (s : State) : (busOk s).sched = s.sched := rfl
@[simp] theorem busOk_port0 (s : State) : (busOk s).port0 = s.port0 := rfl
@[simp] theorem busOk_port1 (s : State) : (busOk s).port1 = s.port1 := rfl
@[simp] theorem busOk_activePort (s : State) : (busOk s).activePort = s.activePort := rfl
@[simp] theorem busOk_hostOut (s : State) : (busOk s).hostOut = s.hostOut := rfl
@[simp] theorem busOk_regs (s : State) : (busOk s).regs = s.regs := rfl
@[simp] theorem busOk_shadow (s : State) : (busOk s).shadow = s.shadow := rfl
@[simp] theorem busOk_routes (s : State) : (busOk s).routes = s.routes := rfl
@[simp] theorem busOk_inMsgs (s : State) : (busOk s).inMsgs = s.inMsgs := rfl
@[simp] theorem busOk_fab (s : State) : (busOk s).fab = s.fab := rfl
@[simp] theorem busOk_cam (s : State) : (busOk s).cam = s.cam := rfl
@[simp] theorem busOk_sec (s : State) : (busOk s).sec = s.sec := rfl
@[simp] theorem busOk_secStore (s : State) : (busOk s).secStore = s.secStore := rfl
@[simp] theorem busOk_peri (s : State) : (busOk s).peri = s.peri := rfl

/-! `busData` -/

@[simp] theorem busData_pending (s : State) (w : Word) : (busData s w).pending = s.pending := rfl
@[simp] theorem busData_freeCtr (s : State) (w : Word) : (busData s w).freeCtr = s.freeCtr := rfl
@[simp] theorem busData_resp (s : State) (w : Word) : (busData s w).resp = .data w := rfl
@[simp] theorem busData_irqs (s : State) (w : Word) : (busData s w).irqs = s.irqs := rfl
@[simp] theorem busData_board (s : State) (w : Word) : (busData s w).board = s.board := rfl
@[simp] theorem busData_own (s : State) (w : Word) : (busData s w).own = s.own := rfl
@[simp] theorem busData_otp (s : State) (w : Word) : (busData s w).otp = s.otp := rfl
@[simp] theorem busData_tick (s : State) (w : Word) : (busData s w).tick = s.tick := rfl
@[simp] theorem busData_mem (s : State) (w : Word) : (busData s w).mem = s.mem := rfl
@[simp] theorem busData_poison (s : State) (w : Word) : (busData s w).poison = s.poison := rfl
@[simp] theorem busData_mbx (s : State) (w : Word) : (busData s w).mbx = s.mbx := rfl
@[simp] theorem busData_cores (s : State) (w : Word) : (busData s w).cores = s.cores := rfl
@[simp] theorem busData_sems (s : State) (w : Word) : (busData s w).sems = s.sems := rfl
@[simp] theorem busData_mm (s : State) (w : Word) : (busData s w).mm = s.mm := rfl
@[simp] theorem busData_pcie (s : State) (w : Word) : (busData s w).pcie = s.pcie := rfl
@[simp] theorem busData_ras (s : State) (w : Word) : (busData s w).ras = s.ras := rfl
@[simp] theorem busData_log (s : State) (w : Word) : (busData s w).log = s.log := rfl
@[simp] theorem busData_aon (s : State) (w : Word) : (busData s w).aon = s.aon := rfl
@[simp] theorem busData_boot (s : State) (w : Word) : (busData s w).boot = s.boot := rfl
@[simp] theorem busData_power (s : State) (w : Word) : (busData s w).power = s.power := rfl
@[simp] theorem busData_events (s : State) (w : Word) : (busData s w).events = s.events := rfl
@[simp] theorem busData_runs (s : State) (w : Word) : (busData s w).runs = s.runs := rfl
@[simp] theorem busData_donations (s : State) (w : Word) : (busData s w).donations = s.donations := rfl
@[simp] theorem busData_k (s : State) (w : Word) : (busData s w).k = s.k := rfl
@[simp] theorem busData_sched (s : State) (w : Word) : (busData s w).sched = s.sched := rfl
@[simp] theorem busData_port0 (s : State) (w : Word) : (busData s w).port0 = s.port0 := rfl
@[simp] theorem busData_port1 (s : State) (w : Word) : (busData s w).port1 = s.port1 := rfl
@[simp] theorem busData_activePort (s : State) (w : Word) : (busData s w).activePort = s.activePort := rfl
@[simp] theorem busData_hostOut (s : State) (w : Word) : (busData s w).hostOut = s.hostOut := rfl
@[simp] theorem busData_regs (s : State) (w : Word) : (busData s w).regs = s.regs := rfl
@[simp] theorem busData_shadow (s : State) (w : Word) : (busData s w).shadow = s.shadow := rfl
@[simp] theorem busData_routes (s : State) (w : Word) : (busData s w).routes = s.routes := rfl
@[simp] theorem busData_inMsgs (s : State) (w : Word) : (busData s w).inMsgs = s.inMsgs := rfl
@[simp] theorem busData_fab (s : State) (w : Word) : (busData s w).fab = s.fab := rfl
@[simp] theorem busData_cam (s : State) (w : Word) : (busData s w).cam = s.cam := rfl
@[simp] theorem busData_sec (s : State) (w : Word) : (busData s w).sec = s.sec := rfl
@[simp] theorem busData_secStore (s : State) (w : Word) : (busData s w).secStore = s.secStore := rfl
@[simp] theorem busData_peri (s : State) (w : Word) : (busData s w).peri = s.peri := rfl

/-! `nextFree` -/

@[simp] theorem nextFree_pending (s : State) : (nextFree s).pending = s.pending := rfl
@[simp] theorem nextFree_freeCtr (s : State) : (nextFree s).freeCtr = s.freeCtr + 1 := rfl
@[simp] theorem nextFree_resp (s : State) : (nextFree s).resp = s.resp := rfl
@[simp] theorem nextFree_irqs (s : State) : (nextFree s).irqs = s.irqs := rfl
@[simp] theorem nextFree_board (s : State) : (nextFree s).board = s.board := rfl
@[simp] theorem nextFree_own (s : State) : (nextFree s).own = s.own := rfl
@[simp] theorem nextFree_otp (s : State) : (nextFree s).otp = s.otp := rfl
@[simp] theorem nextFree_tick (s : State) : (nextFree s).tick = s.tick := rfl
@[simp] theorem nextFree_mem (s : State) : (nextFree s).mem = s.mem := rfl
@[simp] theorem nextFree_poison (s : State) : (nextFree s).poison = s.poison := rfl
@[simp] theorem nextFree_mbx (s : State) : (nextFree s).mbx = s.mbx := rfl
@[simp] theorem nextFree_cores (s : State) : (nextFree s).cores = s.cores := rfl
@[simp] theorem nextFree_sems (s : State) : (nextFree s).sems = s.sems := rfl
@[simp] theorem nextFree_mm (s : State) : (nextFree s).mm = s.mm := rfl
@[simp] theorem nextFree_pcie (s : State) : (nextFree s).pcie = s.pcie := rfl
@[simp] theorem nextFree_ras (s : State) : (nextFree s).ras = s.ras := rfl
@[simp] theorem nextFree_log (s : State) : (nextFree s).log = s.log := rfl
@[simp] theorem nextFree_aon (s : State) : (nextFree s).aon = s.aon := rfl
@[simp] theorem nextFree_boot (s : State) : (nextFree s).boot = s.boot := rfl
@[simp] theorem nextFree_power (s : State) : (nextFree s).power = s.power := rfl
@[simp] theorem nextFree_events (s : State) : (nextFree s).events = s.events := rfl
@[simp] theorem nextFree_runs (s : State) : (nextFree s).runs = s.runs := rfl
@[simp] theorem nextFree_donations (s : State) : (nextFree s).donations = s.donations := rfl
@[simp] theorem nextFree_k (s : State) : (nextFree s).k = s.k := rfl
@[simp] theorem nextFree_sched (s : State) : (nextFree s).sched = s.sched := rfl
@[simp] theorem nextFree_port0 (s : State) : (nextFree s).port0 = s.port0 := rfl
@[simp] theorem nextFree_port1 (s : State) : (nextFree s).port1 = s.port1 := rfl
@[simp] theorem nextFree_activePort (s : State) : (nextFree s).activePort = s.activePort := rfl
@[simp] theorem nextFree_hostOut (s : State) : (nextFree s).hostOut = s.hostOut := rfl
@[simp] theorem nextFree_regs (s : State) : (nextFree s).regs = s.regs := rfl
@[simp] theorem nextFree_shadow (s : State) : (nextFree s).shadow = s.shadow := rfl
@[simp] theorem nextFree_routes (s : State) : (nextFree s).routes = s.routes := rfl
@[simp] theorem nextFree_inMsgs (s : State) : (nextFree s).inMsgs = s.inMsgs := rfl
@[simp] theorem nextFree_fab (s : State) : (nextFree s).fab = s.fab := rfl
@[simp] theorem nextFree_cam (s : State) : (nextFree s).cam = s.cam := rfl
@[simp] theorem nextFree_sec (s : State) : (nextFree s).sec = s.sec := rfl
@[simp] theorem nextFree_secStore (s : State) : (nextFree s).secStore = s.secStore := rfl
@[simp] theorem nextFree_peri (s : State) : (nextFree s).peri = s.peri := rfl

/-! `raiseEvent` -/

@[simp] theorem raiseEvent_pending (s : State) (code : Nat) (queue : Nat) (arg : Nat) : (raiseEvent s code queue arg).pending = s.pending := rfl
@[simp] theorem raiseEvent_freeCtr (s : State) (code : Nat) (queue : Nat) (arg : Nat) : (raiseEvent s code queue arg).freeCtr = s.freeCtr := rfl
@[simp] theorem raiseEvent_resp (s : State) (code : Nat) (queue : Nat) (arg : Nat) : (raiseEvent s code queue arg).resp = s.resp := rfl
@[simp] theorem raiseEvent_irqs (s : State) (code : Nat) (queue : Nat) (arg : Nat) : (raiseEvent s code queue arg).irqs = s.irqs := rfl
@[simp] theorem raiseEvent_board (s : State) (code : Nat) (queue : Nat) (arg : Nat) : (raiseEvent s code queue arg).board = s.board := rfl
@[simp] theorem raiseEvent_own (s : State) (code : Nat) (queue : Nat) (arg : Nat) : (raiseEvent s code queue arg).own = s.own := rfl
@[simp] theorem raiseEvent_otp (s : State) (code : Nat) (queue : Nat) (arg : Nat) : (raiseEvent s code queue arg).otp = s.otp := rfl
@[simp] theorem raiseEvent_tick (s : State) (code : Nat) (queue : Nat) (arg : Nat) : (raiseEvent s code queue arg).tick = s.tick := rfl
@[simp] theorem raiseEvent_mem (s : State) (code : Nat) (queue : Nat) (arg : Nat) : (raiseEvent s code queue arg).mem = s.mem := rfl
@[simp] theorem raiseEvent_poison (s : State) (code : Nat) (queue : Nat) (arg : Nat) : (raiseEvent s code queue arg).poison = s.poison := rfl
@[simp] theorem raiseEvent_mbx (s : State) (code : Nat) (queue : Nat) (arg : Nat) : (raiseEvent s code queue arg).mbx = s.mbx := rfl
@[simp] theorem raiseEvent_cores (s : State) (code : Nat) (queue : Nat) (arg : Nat) : (raiseEvent s code queue arg).cores = s.cores := rfl
@[simp] theorem raiseEvent_sems (s : State) (code : Nat) (queue : Nat) (arg : Nat) : (raiseEvent s code queue arg).sems = s.sems := rfl
@[simp] theorem raiseEvent_mm (s : State) (code : Nat) (queue : Nat) (arg : Nat) : (raiseEvent s code queue arg).mm = s.mm := rfl
@[simp] theorem raiseEvent_pcie (s : State) (code : Nat) (queue : Nat) (arg : Nat) : (raiseEvent s code queue arg).pcie = s.pcie := rfl
@[simp] theorem raiseEvent_ras (s : State) (code : Nat) (queue : Nat) (arg : Nat) : (raiseEvent s code queue arg).ras = s.ras := rfl
@[simp] theorem raiseEvent_log (s : State) (code : Nat) (queue : Nat) (arg : Nat) : (raiseEvent s code queue arg).log = s.log := rfl
@[simp] theorem raiseEvent_aon (s : State) (code : Nat) (queue : Nat) (arg : Nat) : (raiseEvent s code queue arg).aon = s.aon := rfl
@[simp] theorem raiseEvent_boot (s : State) (code : Nat) (queue : Nat) (arg : Nat) : (raiseEvent s code queue arg).boot = s.boot := rfl
@[simp] theorem raiseEvent_power (s : State) (code : Nat) (queue : Nat) (arg : Nat) : (raiseEvent s code queue arg).power = s.power := rfl
@[simp] theorem raiseEvent_events (s : State) (code : Nat) (queue : Nat) (arg : Nat) : (raiseEvent s code queue arg).events = { code := code, queue := queue, arg := arg, tick := s.tick } :: s.events := rfl
@[simp] theorem raiseEvent_runs (s : State) (code : Nat) (queue : Nat) (arg : Nat) : (raiseEvent s code queue arg).runs = s.runs := rfl
@[simp] theorem raiseEvent_donations (s : State) (code : Nat) (queue : Nat) (arg : Nat) : (raiseEvent s code queue arg).donations = s.donations := rfl
@[simp] theorem raiseEvent_k (s : State) (code : Nat) (queue : Nat) (arg : Nat) : (raiseEvent s code queue arg).k = s.k := rfl
@[simp] theorem raiseEvent_sched (s : State) (code : Nat) (queue : Nat) (arg : Nat) : (raiseEvent s code queue arg).sched = s.sched := rfl
@[simp] theorem raiseEvent_port0 (s : State) (code : Nat) (queue : Nat) (arg : Nat) : (raiseEvent s code queue arg).port0 = s.port0 := rfl
@[simp] theorem raiseEvent_port1 (s : State) (code : Nat) (queue : Nat) (arg : Nat) : (raiseEvent s code queue arg).port1 = s.port1 := rfl
@[simp] theorem raiseEvent_activePort (s : State) (code : Nat) (queue : Nat) (arg : Nat) : (raiseEvent s code queue arg).activePort = s.activePort := rfl
@[simp] theorem raiseEvent_hostOut (s : State) (code : Nat) (queue : Nat) (arg : Nat) : (raiseEvent s code queue arg).hostOut = s.hostOut := rfl
@[simp] theorem raiseEvent_regs (s : State) (code : Nat) (queue : Nat) (arg : Nat) : (raiseEvent s code queue arg).regs = s.regs := rfl
@[simp] theorem raiseEvent_shadow (s : State) (code : Nat) (queue : Nat) (arg : Nat) : (raiseEvent s code queue arg).shadow = s.shadow := rfl
@[simp] theorem raiseEvent_routes (s : State) (code : Nat) (queue : Nat) (arg : Nat) : (raiseEvent s code queue arg).routes = s.routes := rfl
@[simp] theorem raiseEvent_inMsgs (s : State) (code : Nat) (queue : Nat) (arg : Nat) : (raiseEvent s code queue arg).inMsgs = s.inMsgs := rfl
@[simp] theorem raiseEvent_fab (s : State) (code : Nat) (queue : Nat) (arg : Nat) : (raiseEvent s code queue arg).fab = s.fab := rfl
@[simp] theorem raiseEvent_cam (s : State) (code : Nat) (queue : Nat) (arg : Nat) : (raiseEvent s code queue arg).cam = s.cam := rfl
@[simp] theorem raiseEvent_sec (s : State) (code : Nat) (queue : Nat) (arg : Nat) : (raiseEvent s code queue arg).sec = s.sec := rfl
@[simp] theorem raiseEvent_secStore (s : State) (code : Nat) (queue : Nat) (arg : Nat) : (raiseEvent s code queue arg).secStore = s.secStore := rfl
@[simp] theorem raiseEvent_peri (s : State) (code : Nat) (queue : Nat) (arg : Nat) : (raiseEvent s code queue arg).peri = s.peri := rfl

/-! `rset` -/

@[simp] theorem rset_pending (s : State) (a : Nat) (v : Word) : (rset s a v).pending = s.pending := rfl
@[simp] theorem rset_freeCtr (s : State) (a : Nat) (v : Word) : (rset s a v).freeCtr = s.freeCtr := rfl
@[simp] theorem rset_resp (s : State) (a : Nat) (v : Word) : (rset s a v).resp = s.resp := rfl
@[simp] theorem rset_irqs (s : State) (a : Nat) (v : Word) : (rset s a v).irqs = s.irqs := rfl
@[simp] theorem rset_board (s : State) (a : Nat) (v : Word) : (rset s a v).board = s.board := rfl
@[simp] theorem rset_own (s : State) (a : Nat) (v : Word) : (rset s a v).own = s.own := rfl
@[simp] theorem rset_otp (s : State) (a : Nat) (v : Word) : (rset s a v).otp = s.otp := rfl
@[simp] theorem rset_tick (s : State) (a : Nat) (v : Word) : (rset s a v).tick = s.tick := rfl
@[simp] theorem rset_mem (s : State) (a : Nat) (v : Word) : (rset s a v).mem = s.mem := rfl
@[simp] theorem rset_poison (s : State) (a : Nat) (v : Word) : (rset s a v).poison = s.poison := rfl
@[simp] theorem rset_mbx (s : State) (a : Nat) (v : Word) : (rset s a v).mbx = s.mbx := rfl
@[simp] theorem rset_cores (s : State) (a : Nat) (v : Word) : (rset s a v).cores = s.cores := rfl
@[simp] theorem rset_sems (s : State) (a : Nat) (v : Word) : (rset s a v).sems = s.sems := rfl
@[simp] theorem rset_mm (s : State) (a : Nat) (v : Word) : (rset s a v).mm = s.mm := rfl
@[simp] theorem rset_pcie (s : State) (a : Nat) (v : Word) : (rset s a v).pcie = s.pcie := rfl
@[simp] theorem rset_ras (s : State) (a : Nat) (v : Word) : (rset s a v).ras = s.ras := rfl
@[simp] theorem rset_log (s : State) (a : Nat) (v : Word) : (rset s a v).log = s.log := rfl
@[simp] theorem rset_aon (s : State) (a : Nat) (v : Word) : (rset s a v).aon = s.aon := rfl
@[simp] theorem rset_boot (s : State) (a : Nat) (v : Word) : (rset s a v).boot = s.boot := rfl
@[simp] theorem rset_power (s : State) (a : Nat) (v : Word) : (rset s a v).power = s.power := rfl
@[simp] theorem rset_events (s : State) (a : Nat) (v : Word) : (rset s a v).events = s.events := rfl
@[simp] theorem rset_runs (s : State) (a : Nat) (v : Word) : (rset s a v).runs = s.runs := rfl
@[simp] theorem rset_donations (s : State) (a : Nat) (v : Word) : (rset s a v).donations = s.donations := rfl
@[simp] theorem rset_k (s : State) (a : Nat) (v : Word) : (rset s a v).k = s.k := rfl
@[simp] theorem rset_sched (s : State) (a : Nat) (v : Word) : (rset s a v).sched = s.sched := rfl
@[simp] theorem rset_port0 (s : State) (a : Nat) (v : Word) : (rset s a v).port0 = s.port0 := rfl
@[simp] theorem rset_port1 (s : State) (a : Nat) (v : Word) : (rset s a v).port1 = s.port1 := rfl
@[simp] theorem rset_activePort (s : State) (a : Nat) (v : Word) : (rset s a v).activePort = s.activePort := rfl
@[simp] theorem rset_hostOut (s : State) (a : Nat) (v : Word) : (rset s a v).hostOut = s.hostOut := rfl
@[simp] theorem rset_regs (s : State) (a : Nat) (v : Word) : (rset s a v).regs = SMap.put s.regs a v (regReset a) := rfl
@[simp] theorem rset_shadow (s : State) (a : Nat) (v : Word) : (rset s a v).shadow = s.shadow := rfl
@[simp] theorem rset_routes (s : State) (a : Nat) (v : Word) : (rset s a v).routes = s.routes := rfl
@[simp] theorem rset_inMsgs (s : State) (a : Nat) (v : Word) : (rset s a v).inMsgs = s.inMsgs := rfl
@[simp] theorem rset_fab (s : State) (a : Nat) (v : Word) : (rset s a v).fab = s.fab := rfl
@[simp] theorem rset_cam (s : State) (a : Nat) (v : Word) : (rset s a v).cam = s.cam := rfl
@[simp] theorem rset_sec (s : State) (a : Nat) (v : Word) : (rset s a v).sec = s.sec := rfl
@[simp] theorem rset_secStore (s : State) (a : Nat) (v : Word) : (rset s a v).secStore = s.secStore := rfl
@[simp] theorem rset_peri (s : State) (a : Nat) (v : Word) : (rset s a v).peri = s.peri := rfl

/-! `onFab` -/

@[simp] theorem onFab_pending (s : State) (f : Fab → Fab) : (onFab s f).pending = s.pending := rfl
@[simp] theorem onFab_freeCtr (s : State) (f : Fab → Fab) : (onFab s f).freeCtr = s.freeCtr := rfl
@[simp] theorem onFab_resp (s : State) (f : Fab → Fab) : (onFab s f).resp = s.resp := rfl
@[simp] theorem onFab_irqs (s : State) (f : Fab → Fab) : (onFab s f).irqs = s.irqs := rfl
@[simp] theorem onFab_board (s : State) (f : Fab → Fab) : (onFab s f).board = s.board := rfl
@[simp] theorem onFab_own (s : State) (f : Fab → Fab) : (onFab s f).own = s.own := rfl
@[simp] theorem onFab_otp (s : State) (f : Fab → Fab) : (onFab s f).otp = s.otp := rfl
@[simp] theorem onFab_tick (s : State) (f : Fab → Fab) : (onFab s f).tick = s.tick := rfl
@[simp] theorem onFab_mem (s : State) (f : Fab → Fab) : (onFab s f).mem = s.mem := rfl
@[simp] theorem onFab_poison (s : State) (f : Fab → Fab) : (onFab s f).poison = s.poison := rfl
@[simp] theorem onFab_mbx (s : State) (f : Fab → Fab) : (onFab s f).mbx = s.mbx := rfl
@[simp] theorem onFab_cores (s : State) (f : Fab → Fab) : (onFab s f).cores = s.cores := rfl
@[simp] theorem onFab_sems (s : State) (f : Fab → Fab) : (onFab s f).sems = s.sems := rfl
@[simp] theorem onFab_mm (s : State) (f : Fab → Fab) : (onFab s f).mm = s.mm := rfl
@[simp] theorem onFab_pcie (s : State) (f : Fab → Fab) : (onFab s f).pcie = s.pcie := rfl
@[simp] theorem onFab_ras (s : State) (f : Fab → Fab) : (onFab s f).ras = s.ras := rfl
@[simp] theorem onFab_log (s : State) (f : Fab → Fab) : (onFab s f).log = s.log := rfl
@[simp] theorem onFab_aon (s : State) (f : Fab → Fab) : (onFab s f).aon = s.aon := rfl
@[simp] theorem onFab_boot (s : State) (f : Fab → Fab) : (onFab s f).boot = s.boot := rfl
@[simp] theorem onFab_power (s : State) (f : Fab → Fab) : (onFab s f).power = s.power := rfl
@[simp] theorem onFab_events (s : State) (f : Fab → Fab) : (onFab s f).events = s.events := rfl
@[simp] theorem onFab_runs (s : State) (f : Fab → Fab) : (onFab s f).runs = s.runs := rfl
@[simp] theorem onFab_donations (s : State) (f : Fab → Fab) : (onFab s f).donations = s.donations := rfl
@[simp] theorem onFab_k (s : State) (f : Fab → Fab) : (onFab s f).k = s.k := rfl
@[simp] theorem onFab_sched (s : State) (f : Fab → Fab) : (onFab s f).sched = s.sched := rfl
@[simp] theorem onFab_port0 (s : State) (f : Fab → Fab) : (onFab s f).port0 = s.port0 := rfl
@[simp] theorem onFab_port1 (s : State) (f : Fab → Fab) : (onFab s f).port1 = s.port1 := rfl
@[simp] theorem onFab_activePort (s : State) (f : Fab → Fab) : (onFab s f).activePort = s.activePort := rfl
@[simp] theorem onFab_hostOut (s : State) (f : Fab → Fab) : (onFab s f).hostOut = s.hostOut := rfl
@[simp] theorem onFab_regs (s : State) (f : Fab → Fab) : (onFab s f).regs = s.regs := rfl
@[simp] theorem onFab_shadow (s : State) (f : Fab → Fab) : (onFab s f).shadow = s.shadow := rfl
@[simp] theorem onFab_routes (s : State) (f : Fab → Fab) : (onFab s f).routes = s.routes := rfl
@[simp] theorem onFab_inMsgs (s : State) (f : Fab → Fab) : (onFab s f).inMsgs = s.inMsgs := rfl
@[simp] theorem onFab_fab (s : State) (f : Fab → Fab) : (onFab s f).fab = f s.fab := rfl
@[simp] theorem onFab_cam (s : State) (f : Fab → Fab) : (onFab s f).cam = s.cam := rfl
@[simp] theorem onFab_sec (s : State) (f : Fab → Fab) : (onFab s f).sec = s.sec := rfl
@[simp] theorem onFab_secStore (s : State) (f : Fab → Fab) : (onFab s f).secStore = s.secStore := rfl
@[simp] theorem onFab_peri (s : State) (f : Fab → Fab) : (onFab s f).peri = s.peri := rfl

/-! `setSem` -/

@[simp] theorem setSem_pending (s : State) (v : Nat) (m : Sem) : (setSem s v m).pending = s.pending := rfl
@[simp] theorem setSem_freeCtr (s : State) (v : Nat) (m : Sem) : (setSem s v m).freeCtr = s.freeCtr := rfl
@[simp] theorem setSem_resp (s : State) (v : Nat) (m : Sem) : (setSem s v m).resp = s.resp := rfl
@[simp] theorem setSem_irqs (s : State) (v : Nat) (m : Sem) : (setSem s v m).irqs = s.irqs := rfl
@[simp] theorem setSem_board (s : State) (v : Nat) (m : Sem) : (setSem s v m).board = s.board := rfl
@[simp] theorem setSem_own (s : State) (v : Nat) (m : Sem) : (setSem s v m).own = s.own := rfl
@[simp] theorem setSem_otp (s : State) (v : Nat) (m : Sem) : (setSem s v m).otp = s.otp := rfl
@[simp] theorem setSem_tick (s : State) (v : Nat) (m : Sem) : (setSem s v m).tick = s.tick := rfl
@[simp] theorem setSem_mem (s : State) (v : Nat) (m : Sem) : (setSem s v m).mem = s.mem := rfl
@[simp] theorem setSem_poison (s : State) (v : Nat) (m : Sem) : (setSem s v m).poison = s.poison := rfl
@[simp] theorem setSem_mbx (s : State) (v : Nat) (m : Sem) : (setSem s v m).mbx = s.mbx := rfl
@[simp] theorem setSem_cores (s : State) (v : Nat) (m : Sem) : (setSem s v m).cores = s.cores := rfl
@[simp] theorem setSem_sems (s : State) (v : Nat) (m : Sem) : (setSem s v m).sems = SMap.set s.sems v m := rfl
@[simp] theorem setSem_mm (s : State) (v : Nat) (m : Sem) : (setSem s v m).mm = s.mm := rfl
@[simp] theorem setSem_pcie (s : State) (v : Nat) (m : Sem) : (setSem s v m).pcie = s.pcie := rfl
@[simp] theorem setSem_ras (s : State) (v : Nat) (m : Sem) : (setSem s v m).ras = s.ras := rfl
@[simp] theorem setSem_log (s : State) (v : Nat) (m : Sem) : (setSem s v m).log = s.log := rfl
@[simp] theorem setSem_aon (s : State) (v : Nat) (m : Sem) : (setSem s v m).aon = s.aon := rfl
@[simp] theorem setSem_boot (s : State) (v : Nat) (m : Sem) : (setSem s v m).boot = s.boot := rfl
@[simp] theorem setSem_power (s : State) (v : Nat) (m : Sem) : (setSem s v m).power = s.power := rfl
@[simp] theorem setSem_events (s : State) (v : Nat) (m : Sem) : (setSem s v m).events = s.events := rfl
@[simp] theorem setSem_runs (s : State) (v : Nat) (m : Sem) : (setSem s v m).runs = s.runs := rfl
@[simp] theorem setSem_donations (s : State) (v : Nat) (m : Sem) : (setSem s v m).donations = s.donations := rfl
@[simp] theorem setSem_k (s : State) (v : Nat) (m : Sem) : (setSem s v m).k = s.k := rfl
@[simp] theorem setSem_sched (s : State) (v : Nat) (m : Sem) : (setSem s v m).sched = s.sched := rfl
@[simp] theorem setSem_port0 (s : State) (v : Nat) (m : Sem) : (setSem s v m).port0 = s.port0 := rfl
@[simp] theorem setSem_port1 (s : State) (v : Nat) (m : Sem) : (setSem s v m).port1 = s.port1 := rfl
@[simp] theorem setSem_activePort (s : State) (v : Nat) (m : Sem) : (setSem s v m).activePort = s.activePort := rfl
@[simp] theorem setSem_hostOut (s : State) (v : Nat) (m : Sem) : (setSem s v m).hostOut = s.hostOut := rfl
@[simp] theorem setSem_regs (s : State) (v : Nat) (m : Sem) : (setSem s v m).regs = s.regs := rfl
@[simp] theorem setSem_shadow (s : State) (v : Nat) (m : Sem) : (setSem s v m).shadow = s.shadow := rfl
@[simp] theorem setSem_routes (s : State) (v : Nat) (m : Sem) : (setSem s v m).routes = s.routes := rfl
@[simp] theorem setSem_inMsgs (s : State) (v : Nat) (m : Sem) : (setSem s v m).inMsgs = s.inMsgs := rfl
@[simp] theorem setSem_fab (s : State) (v : Nat) (m : Sem) : (setSem s v m).fab = s.fab := rfl
@[simp] theorem setSem_cam (s : State) (v : Nat) (m : Sem) : (setSem s v m).cam = s.cam := rfl
@[simp] theorem setSem_sec (s : State) (v : Nat) (m : Sem) : (setSem s v m).sec = s.sec := rfl
@[simp] theorem setSem_secStore (s : State) (v : Nat) (m : Sem) : (setSem s v m).secStore = s.secStore := rfl
@[simp] theorem setSem_peri (s : State) (v : Nat) (m : Sem) : (setSem s v m).peri = s.peri := rfl

/-! `onK` -/

@[simp] theorem onK_pending (s : State) (f : Keeper → Keeper) : (onK s f).pending = s.pending := rfl
@[simp] theorem onK_freeCtr (s : State) (f : Keeper → Keeper) : (onK s f).freeCtr = s.freeCtr := rfl
@[simp] theorem onK_resp (s : State) (f : Keeper → Keeper) : (onK s f).resp = s.resp := rfl
@[simp] theorem onK_irqs (s : State) (f : Keeper → Keeper) : (onK s f).irqs = s.irqs := rfl
@[simp] theorem onK_board (s : State) (f : Keeper → Keeper) : (onK s f).board = s.board := rfl
@[simp] theorem onK_own (s : State) (f : Keeper → Keeper) : (onK s f).own = s.own := rfl
@[simp] theorem onK_otp (s : State) (f : Keeper → Keeper) : (onK s f).otp = s.otp := rfl
@[simp] theorem onK_tick (s : State) (f : Keeper → Keeper) : (onK s f).tick = s.tick := rfl
@[simp] theorem onK_mem (s : State) (f : Keeper → Keeper) : (onK s f).mem = s.mem := rfl
@[simp] theorem onK_poison (s : State) (f : Keeper → Keeper) : (onK s f).poison = s.poison := rfl
@[simp] theorem onK_mbx (s : State) (f : Keeper → Keeper) : (onK s f).mbx = s.mbx := rfl
@[simp] theorem onK_cores (s : State) (f : Keeper → Keeper) : (onK s f).cores = s.cores := rfl
@[simp] theorem onK_sems (s : State) (f : Keeper → Keeper) : (onK s f).sems = s.sems := rfl
@[simp] theorem onK_mm (s : State) (f : Keeper → Keeper) : (onK s f).mm = s.mm := rfl
@[simp] theorem onK_pcie (s : State) (f : Keeper → Keeper) : (onK s f).pcie = s.pcie := rfl
@[simp] theorem onK_ras (s : State) (f : Keeper → Keeper) : (onK s f).ras = s.ras := rfl
@[simp] theorem onK_log (s : State) (f : Keeper → Keeper) : (onK s f).log = s.log := rfl
@[simp] theorem onK_aon (s : State) (f : Keeper → Keeper) : (onK s f).aon = s.aon := rfl
@[simp] theorem onK_boot (s : State) (f : Keeper → Keeper) : (onK s f).boot = s.boot := rfl
@[simp] theorem onK_power (s : State) (f : Keeper → Keeper) : (onK s f).power = s.power := rfl
@[simp] theorem onK_events (s : State) (f : Keeper → Keeper) : (onK s f).events = s.events := rfl
@[simp] theorem onK_runs (s : State) (f : Keeper → Keeper) : (onK s f).runs = s.runs := rfl
@[simp] theorem onK_donations (s : State) (f : Keeper → Keeper) : (onK s f).donations = s.donations := rfl
@[simp] theorem onK_k (s : State) (f : Keeper → Keeper) : (onK s f).k = f s.k := rfl
@[simp] theorem onK_sched (s : State) (f : Keeper → Keeper) : (onK s f).sched = s.sched := rfl
@[simp] theorem onK_port0 (s : State) (f : Keeper → Keeper) : (onK s f).port0 = s.port0 := rfl
@[simp] theorem onK_port1 (s : State) (f : Keeper → Keeper) : (onK s f).port1 = s.port1 := rfl
@[simp] theorem onK_activePort (s : State) (f : Keeper → Keeper) : (onK s f).activePort = s.activePort := rfl
@[simp] theorem onK_hostOut (s : State) (f : Keeper → Keeper) : (onK s f).hostOut = s.hostOut := rfl
@[simp] theorem onK_regs (s : State) (f : Keeper → Keeper) : (onK s f).regs = s.regs := rfl
@[simp] theorem onK_shadow (s : State) (f : Keeper → Keeper) : (onK s f).shadow = s.shadow := rfl
@[simp] theorem onK_routes (s : State) (f : Keeper → Keeper) : (onK s f).routes = s.routes := rfl
@[simp] theorem onK_inMsgs (s : State) (f : Keeper → Keeper) : (onK s f).inMsgs = s.inMsgs := rfl
@[simp] theorem onK_fab (s : State) (f : Keeper → Keeper) : (onK s f).fab = s.fab := rfl
@[simp] theorem onK_cam (s : State) (f : Keeper → Keeper) : (onK s f).cam = s.cam := rfl
@[simp] theorem onK_sec (s : State) (f : Keeper → Keeper) : (onK s f).sec = s.sec := rfl
@[simp] theorem onK_secStore (s : State) (f : Keeper → Keeper) : (onK s f).secStore = s.secStore := rfl
@[simp] theorem onK_peri (s : State) (f : Keeper → Keeper) : (onK s f).peri = s.peri := rfl

/-! `onSched` -/

@[simp] theorem onSched_pending (s : State) (f : Sched → Sched) : (onSched s f).pending = s.pending := rfl
@[simp] theorem onSched_freeCtr (s : State) (f : Sched → Sched) : (onSched s f).freeCtr = s.freeCtr := rfl
@[simp] theorem onSched_resp (s : State) (f : Sched → Sched) : (onSched s f).resp = s.resp := rfl
@[simp] theorem onSched_irqs (s : State) (f : Sched → Sched) : (onSched s f).irqs = s.irqs := rfl
@[simp] theorem onSched_board (s : State) (f : Sched → Sched) : (onSched s f).board = s.board := rfl
@[simp] theorem onSched_own (s : State) (f : Sched → Sched) : (onSched s f).own = s.own := rfl
@[simp] theorem onSched_otp (s : State) (f : Sched → Sched) : (onSched s f).otp = s.otp := rfl
@[simp] theorem onSched_tick (s : State) (f : Sched → Sched) : (onSched s f).tick = s.tick := rfl
@[simp] theorem onSched_mem (s : State) (f : Sched → Sched) : (onSched s f).mem = s.mem := rfl
@[simp] theorem onSched_poison (s : State) (f : Sched → Sched) : (onSched s f).poison = s.poison := rfl
@[simp] theorem onSched_mbx (s : State) (f : Sched → Sched) : (onSched s f).mbx = s.mbx := rfl
@[simp] theorem onSched_cores (s : State) (f : Sched → Sched) : (onSched s f).cores = s.cores := rfl
@[simp] theorem onSched_sems (s : State) (f : Sched → Sched) : (onSched s f).sems = s.sems := rfl
@[simp] theorem onSched_mm (s : State) (f : Sched → Sched) : (onSched s f).mm = s.mm := rfl
@[simp] theorem onSched_pcie (s : State) (f : Sched → Sched) : (onSched s f).pcie = s.pcie := rfl
@[simp] theorem onSched_ras (s : State) (f : Sched → Sched) : (onSched s f).ras = s.ras := rfl
@[simp] theorem onSched_log (s : State) (f : Sched → Sched) : (onSched s f).log = s.log := rfl
@[simp] theorem onSched_aon (s : State) (f : Sched → Sched) : (onSched s f).aon = s.aon := rfl
@[simp] theorem onSched_boot (s : State) (f : Sched → Sched) : (onSched s f).boot = s.boot := rfl
@[simp] theorem onSched_power (s : State) (f : Sched → Sched) : (onSched s f).power = s.power := rfl
@[simp] theorem onSched_events (s : State) (f : Sched → Sched) : (onSched s f).events = s.events := rfl
@[simp] theorem onSched_runs (s : State) (f : Sched → Sched) : (onSched s f).runs = s.runs := rfl
@[simp] theorem onSched_donations (s : State) (f : Sched → Sched) : (onSched s f).donations = s.donations := rfl
@[simp] theorem onSched_k (s : State) (f : Sched → Sched) : (onSched s f).k = s.k := rfl
@[simp] theorem onSched_sched (s : State) (f : Sched → Sched) : (onSched s f).sched = f s.sched := rfl
@[simp] theorem onSched_port0 (s : State) (f : Sched → Sched) : (onSched s f).port0 = s.port0 := rfl
@[simp] theorem onSched_port1 (s : State) (f : Sched → Sched) : (onSched s f).port1 = s.port1 := rfl
@[simp] theorem onSched_activePort (s : State) (f : Sched → Sched) : (onSched s f).activePort = s.activePort := rfl
@[simp] theorem onSched_hostOut (s : State) (f : Sched → Sched) : (onSched s f).hostOut = s.hostOut := rfl
@[simp] theorem onSched_regs (s : State) (f : Sched → Sched) : (onSched s f).regs = s.regs := rfl
@[simp] theorem onSched_shadow (s : State) (f : Sched → Sched) : (onSched s f).shadow = s.shadow := rfl
@[simp] theorem onSched_routes (s : State) (f : Sched → Sched) : (onSched s f).routes = s.routes := rfl
@[simp] theorem onSched_inMsgs (s : State) (f : Sched → Sched) : (onSched s f).inMsgs = s.inMsgs := rfl
@[simp] theorem onSched_fab (s : State) (f : Sched → Sched) : (onSched s f).fab = s.fab := rfl
@[simp] theorem onSched_cam (s : State) (f : Sched → Sched) : (onSched s f).cam = s.cam := rfl
@[simp] theorem onSched_sec (s : State) (f : Sched → Sched) : (onSched s f).sec = s.sec := rfl
@[simp] theorem onSched_secStore (s : State) (f : Sched → Sched) : (onSched s f).secStore = s.secStore := rfl
@[simp] theorem onSched_peri (s : State) (f : Sched → Sched) : (onSched s f).peri = s.peri := rfl

/-! `onAon` -/

@[simp] theorem onAon_pending (s : State) (f : Aon → Aon) : (onAon s f).pending = s.pending := rfl
@[simp] theorem onAon_freeCtr (s : State) (f : Aon → Aon) : (onAon s f).freeCtr = s.freeCtr := rfl
@[simp] theorem onAon_resp (s : State) (f : Aon → Aon) : (onAon s f).resp = s.resp := rfl
@[simp] theorem onAon_irqs (s : State) (f : Aon → Aon) : (onAon s f).irqs = s.irqs := rfl
@[simp] theorem onAon_board (s : State) (f : Aon → Aon) : (onAon s f).board = s.board := rfl
@[simp] theorem onAon_own (s : State) (f : Aon → Aon) : (onAon s f).own = s.own := rfl
@[simp] theorem onAon_otp (s : State) (f : Aon → Aon) : (onAon s f).otp = s.otp := rfl
@[simp] theorem onAon_tick (s : State) (f : Aon → Aon) : (onAon s f).tick = s.tick := rfl
@[simp] theorem onAon_mem (s : State) (f : Aon → Aon) : (onAon s f).mem = s.mem := rfl
@[simp] theorem onAon_poison (s : State) (f : Aon → Aon) : (onAon s f).poison = s.poison := rfl
@[simp] theorem onAon_mbx (s : State) (f : Aon → Aon) : (onAon s f).mbx = s.mbx := rfl
@[simp] theorem onAon_cores (s : State) (f : Aon → Aon) : (onAon s f).cores = s.cores := rfl
@[simp] theorem onAon_sems (s : State) (f : Aon → Aon) : (onAon s f).sems = s.sems := rfl
@[simp] theorem onAon_mm (s : State) (f : Aon → Aon) : (onAon s f).mm = s.mm := rfl
@[simp] theorem onAon_pcie (s : State) (f : Aon → Aon) : (onAon s f).pcie = s.pcie := rfl
@[simp] theorem onAon_ras (s : State) (f : Aon → Aon) : (onAon s f).ras = s.ras := rfl
@[simp] theorem onAon_log (s : State) (f : Aon → Aon) : (onAon s f).log = s.log := rfl
@[simp] theorem onAon_aon (s : State) (f : Aon → Aon) : (onAon s f).aon = f s.aon := rfl
@[simp] theorem onAon_boot (s : State) (f : Aon → Aon) : (onAon s f).boot = s.boot := rfl
@[simp] theorem onAon_power (s : State) (f : Aon → Aon) : (onAon s f).power = s.power := rfl
@[simp] theorem onAon_events (s : State) (f : Aon → Aon) : (onAon s f).events = s.events := rfl
@[simp] theorem onAon_runs (s : State) (f : Aon → Aon) : (onAon s f).runs = s.runs := rfl
@[simp] theorem onAon_donations (s : State) (f : Aon → Aon) : (onAon s f).donations = s.donations := rfl
@[simp] theorem onAon_k (s : State) (f : Aon → Aon) : (onAon s f).k = s.k := rfl
@[simp] theorem onAon_sched (s : State) (f : Aon → Aon) : (onAon s f).sched = s.sched := rfl
@[simp] theorem onAon_port0 (s : State) (f : Aon → Aon) : (onAon s f).port0 = s.port0 := rfl
@[simp] theorem onAon_port1 (s : State) (f : Aon → Aon) : (onAon s f).port1 = s.port1 := rfl
@[simp] theorem onAon_activePort (s : State) (f : Aon → Aon) : (onAon s f).activePort = s.activePort := rfl
@[simp] theorem onAon_hostOut (s : State) (f : Aon → Aon) : (onAon s f).hostOut = s.hostOut := rfl
@[simp] theorem onAon_regs (s : State) (f : Aon → Aon) : (onAon s f).regs = s.regs := rfl
@[simp] theorem onAon_shadow (s : State) (f : Aon → Aon) : (onAon s f).shadow = s.shadow := rfl
@[simp] theorem onAon_routes (s : State) (f : Aon → Aon) : (onAon s f).routes = s.routes := rfl
@[simp] theorem onAon_inMsgs (s : State) (f : Aon → Aon) : (onAon s f).inMsgs = s.inMsgs := rfl
@[simp] theorem onAon_fab (s : State) (f : Aon → Aon) : (onAon s f).fab = s.fab := rfl
@[simp] theorem onAon_cam (s : State) (f : Aon → Aon) : (onAon s f).cam = s.cam := rfl
@[simp] theorem onAon_sec (s : State) (f : Aon → Aon) : (onAon s f).sec = s.sec := rfl
@[simp] theorem onAon_secStore (s : State) (f : Aon → Aon) : (onAon s f).secStore = s.secStore := rfl
@[simp] theorem onAon_peri (s : State) (f : Aon → Aon) : (onAon s f).peri = s.peri := rfl

/-! `onSec` -/

@[simp] theorem onSec_pending (s : State) (f : Sec → Sec) : (onSec s f).pending = s.pending := rfl
@[simp] theorem onSec_freeCtr (s : State) (f : Sec → Sec) : (onSec s f).freeCtr = s.freeCtr := rfl
@[simp] theorem onSec_resp (s : State) (f : Sec → Sec) : (onSec s f).resp = s.resp := rfl
@[simp] theorem onSec_irqs (s : State) (f : Sec → Sec) : (onSec s f).irqs = s.irqs := rfl
@[simp] theorem onSec_board (s : State) (f : Sec → Sec) : (onSec s f).board = s.board := rfl
@[simp] theorem onSec_own (s : State) (f : Sec → Sec) : (onSec s f).own = s.own := rfl
@[simp] theorem onSec_otp (s : State) (f : Sec → Sec) : (onSec s f).otp = s.otp := rfl
@[simp] theorem onSec_tick (s : State) (f : Sec → Sec) : (onSec s f).tick = s.tick := rfl
@[simp] theorem onSec_mem (s : State) (f : Sec → Sec) : (onSec s f).mem = s.mem := rfl
@[simp] theorem onSec_poison (s : State) (f : Sec → Sec) : (onSec s f).poison = s.poison := rfl
@[simp] theorem onSec_mbx (s : State) (f : Sec → Sec) : (onSec s f).mbx = s.mbx := rfl
@[simp] theorem onSec_cores (s : State) (f : Sec → Sec) : (onSec s f).cores = s.cores := rfl
@[simp] theorem onSec_sems (s : State) (f : Sec → Sec) : (onSec s f).sems = s.sems := rfl
@[simp] theorem onSec_mm (s : State) (f : Sec → Sec) : (onSec s f).mm = s.mm := rfl
@[simp] theorem onSec_pcie (s : State) (f : Sec → Sec) : (onSec s f).pcie = s.pcie := rfl
@[simp] theorem onSec_ras (s : State) (f : Sec → Sec) : (onSec s f).ras = s.ras := rfl
@[simp] theorem onSec_log (s : State) (f : Sec → Sec) : (onSec s f).log = s.log := rfl
@[simp] theorem onSec_aon (s : State) (f : Sec → Sec) : (onSec s f).aon = s.aon := rfl
@[simp] theorem onSec_boot (s : State) (f : Sec → Sec) : (onSec s f).boot = s.boot := rfl
@[simp] theorem onSec_power (s : State) (f : Sec → Sec) : (onSec s f).power = s.power := rfl
@[simp] theorem onSec_events (s : State) (f : Sec → Sec) : (onSec s f).events = s.events := rfl
@[simp] theorem onSec_runs (s : State) (f : Sec → Sec) : (onSec s f).runs = s.runs := rfl
@[simp] theorem onSec_donations (s : State) (f : Sec → Sec) : (onSec s f).donations = s.donations := rfl
@[simp] theorem onSec_k (s : State) (f : Sec → Sec) : (onSec s f).k = s.k := rfl
@[simp] theorem onSec_sched (s : State) (f : Sec → Sec) : (onSec s f).sched = s.sched := rfl
@[simp] theorem onSec_port0 (s : State) (f : Sec → Sec) : (onSec s f).port0 = s.port0 := rfl
@[simp] theorem onSec_port1 (s : State) (f : Sec → Sec) : (onSec s f).port1 = s.port1 := rfl
@[simp] theorem onSec_activePort (s : State) (f : Sec → Sec) : (onSec s f).activePort = s.activePort := rfl
@[simp] theorem onSec_hostOut (s : State) (f : Sec → Sec) : (onSec s f).hostOut = s.hostOut := rfl
@[simp] theorem onSec_regs (s : State) (f : Sec → Sec) : (onSec s f).regs = s.regs := rfl
@[simp] theorem onSec_shadow (s : State) (f : Sec → Sec) : (onSec s f).shadow = s.shadow := rfl
@[simp] theorem onSec_routes (s : State) (f : Sec → Sec) : (onSec s f).routes = s.routes := rfl
@[simp] theorem onSec_inMsgs (s : State) (f : Sec → Sec) : (onSec s f).inMsgs = s.inMsgs := rfl
@[simp] theorem onSec_fab (s : State) (f : Sec → Sec) : (onSec s f).fab = s.fab := rfl
@[simp] theorem onSec_cam (s : State) (f : Sec → Sec) : (onSec s f).cam = s.cam := rfl
@[simp] theorem onSec_sec (s : State) (f : Sec → Sec) : (onSec s f).sec = f s.sec := rfl
@[simp] theorem onSec_secStore (s : State) (f : Sec → Sec) : (onSec s f).secStore = s.secStore := rfl
@[simp] theorem onSec_peri (s : State) (f : Sec → Sec) : (onSec s f).peri = s.peri := rfl

/-! `onStore` -/

@[simp] theorem onStore_pending (s : State) (f : SecStore → SecStore) : (onStore s f).pending = s.pending := rfl
@[simp] theorem onStore_freeCtr (s : State) (f : SecStore → SecStore) : (onStore s f).freeCtr = s.freeCtr := rfl
@[simp] theorem onStore_resp (s : State) (f : SecStore → SecStore) : (onStore s f).resp = s.resp := rfl
@[simp] theorem onStore_irqs (s : State) (f : SecStore → SecStore) : (onStore s f).irqs = s.irqs := rfl
@[simp] theorem onStore_board (s : State) (f : SecStore → SecStore) : (onStore s f).board = s.board := rfl
@[simp] theorem onStore_own (s : State) (f : SecStore → SecStore) : (onStore s f).own = s.own := rfl
@[simp] theorem onStore_otp (s : State) (f : SecStore → SecStore) : (onStore s f).otp = s.otp := rfl
@[simp] theorem onStore_tick (s : State) (f : SecStore → SecStore) : (onStore s f).tick = s.tick := rfl
@[simp] theorem onStore_mem (s : State) (f : SecStore → SecStore) : (onStore s f).mem = s.mem := rfl
@[simp] theorem onStore_poison (s : State) (f : SecStore → SecStore) : (onStore s f).poison = s.poison := rfl
@[simp] theorem onStore_mbx (s : State) (f : SecStore → SecStore) : (onStore s f).mbx = s.mbx := rfl
@[simp] theorem onStore_cores (s : State) (f : SecStore → SecStore) : (onStore s f).cores = s.cores := rfl
@[simp] theorem onStore_sems (s : State) (f : SecStore → SecStore) : (onStore s f).sems = s.sems := rfl
@[simp] theorem onStore_mm (s : State) (f : SecStore → SecStore) : (onStore s f).mm = s.mm := rfl
@[simp] theorem onStore_pcie (s : State) (f : SecStore → SecStore) : (onStore s f).pcie = s.pcie := rfl
@[simp] theorem onStore_ras (s : State) (f : SecStore → SecStore) : (onStore s f).ras = s.ras := rfl
@[simp] theorem onStore_log (s : State) (f : SecStore → SecStore) : (onStore s f).log = s.log := rfl
@[simp] theorem onStore_aon (s : State) (f : SecStore → SecStore) : (onStore s f).aon = s.aon := rfl
@[simp] theorem onStore_boot (s : State) (f : SecStore → SecStore) : (onStore s f).boot = s.boot := rfl
@[simp] theorem onStore_power (s : State) (f : SecStore → SecStore) : (onStore s f).power = s.power := rfl
@[simp] theorem onStore_events (s : State) (f : SecStore → SecStore) : (onStore s f).events = s.events := rfl
@[simp] theorem onStore_runs (s : State) (f : SecStore → SecStore) : (onStore s f).runs = s.runs := rfl
@[simp] theorem onStore_donations (s : State) (f : SecStore → SecStore) : (onStore s f).donations = s.donations := rfl
@[simp] theorem onStore_k (s : State) (f : SecStore → SecStore) : (onStore s f).k = s.k := rfl
@[simp] theorem onStore_sched (s : State) (f : SecStore → SecStore) : (onStore s f).sched = s.sched := rfl
@[simp] theorem onStore_port0 (s : State) (f : SecStore → SecStore) : (onStore s f).port0 = s.port0 := rfl
@[simp] theorem onStore_port1 (s : State) (f : SecStore → SecStore) : (onStore s f).port1 = s.port1 := rfl
@[simp] theorem onStore_activePort (s : State) (f : SecStore → SecStore) : (onStore s f).activePort = s.activePort := rfl
@[simp] theorem onStore_hostOut (s : State) (f : SecStore → SecStore) : (onStore s f).hostOut = s.hostOut := rfl
@[simp] theorem onStore_regs (s : State) (f : SecStore → SecStore) : (onStore s f).regs = s.regs := rfl
@[simp] theorem onStore_shadow (s : State) (f : SecStore → SecStore) : (onStore s f).shadow = s.shadow := rfl
@[simp] theorem onStore_routes (s : State) (f : SecStore → SecStore) : (onStore s f).routes = s.routes := rfl
@[simp] theorem onStore_inMsgs (s : State) (f : SecStore → SecStore) : (onStore s f).inMsgs = s.inMsgs := rfl
@[simp] theorem onStore_fab (s : State) (f : SecStore → SecStore) : (onStore s f).fab = s.fab := rfl
@[simp] theorem onStore_cam (s : State) (f : SecStore → SecStore) : (onStore s f).cam = s.cam := rfl
@[simp] theorem onStore_sec (s : State) (f : SecStore → SecStore) : (onStore s f).sec = s.sec := rfl
@[simp] theorem onStore_secStore (s : State) (f : SecStore → SecStore) : (onStore s f).secStore = f s.secStore := rfl
@[simp] theorem onStore_peri (s : State) (f : SecStore → SecStore) : (onStore s f).peri = s.peri := rfl

/-! `onPcie` -/

@[simp] theorem onPcie_pending (s : State) (f : Pcie → Pcie) : (onPcie s f).pending = s.pending := rfl
@[simp] theorem onPcie_freeCtr (s : State) (f : Pcie → Pcie) : (onPcie s f).freeCtr = s.freeCtr := rfl
@[simp] theorem onPcie_resp (s : State) (f : Pcie → Pcie) : (onPcie s f).resp = s.resp := rfl
@[simp] theorem onPcie_irqs (s : State) (f : Pcie → Pcie) : (onPcie s f).irqs = s.irqs := rfl
@[simp] theorem onPcie_board (s : State) (f : Pcie → Pcie) : (onPcie s f).board = s.board := rfl
@[simp] theorem onPcie_own (s : State) (f : Pcie → Pcie) : (onPcie s f).own = s.own := rfl
@[simp] theorem onPcie_otp (s : State) (f : Pcie → Pcie) : (onPcie s f).otp = s.otp := rfl
@[simp] theorem onPcie_tick (s : State) (f : Pcie → Pcie) : (onPcie s f).tick = s.tick := rfl
@[simp] theorem onPcie_mem (s : State) (f : Pcie → Pcie) : (onPcie s f).mem = s.mem := rfl
@[simp] theorem onPcie_poison (s : State) (f : Pcie → Pcie) : (onPcie s f).poison = s.poison := rfl
@[simp] theorem onPcie_mbx (s : State) (f : Pcie → Pcie) : (onPcie s f).mbx = s.mbx := rfl
@[simp] theorem onPcie_cores (s : State) (f : Pcie → Pcie) : (onPcie s f).cores = s.cores := rfl
@[simp] theorem onPcie_sems (s : State) (f : Pcie → Pcie) : (onPcie s f).sems = s.sems := rfl
@[simp] theorem onPcie_mm (s : State) (f : Pcie → Pcie) : (onPcie s f).mm = s.mm := rfl
@[simp] theorem onPcie_pcie (s : State) (f : Pcie → Pcie) : (onPcie s f).pcie = f s.pcie := rfl
@[simp] theorem onPcie_ras (s : State) (f : Pcie → Pcie) : (onPcie s f).ras = s.ras := rfl
@[simp] theorem onPcie_log (s : State) (f : Pcie → Pcie) : (onPcie s f).log = s.log := rfl
@[simp] theorem onPcie_aon (s : State) (f : Pcie → Pcie) : (onPcie s f).aon = s.aon := rfl
@[simp] theorem onPcie_boot (s : State) (f : Pcie → Pcie) : (onPcie s f).boot = s.boot := rfl
@[simp] theorem onPcie_power (s : State) (f : Pcie → Pcie) : (onPcie s f).power = s.power := rfl
@[simp] theorem onPcie_events (s : State) (f : Pcie → Pcie) : (onPcie s f).events = s.events := rfl
@[simp] theorem onPcie_runs (s : State) (f : Pcie → Pcie) : (onPcie s f).runs = s.runs := rfl
@[simp] theorem onPcie_donations (s : State) (f : Pcie → Pcie) : (onPcie s f).donations = s.donations := rfl
@[simp] theorem onPcie_k (s : State) (f : Pcie → Pcie) : (onPcie s f).k = s.k := rfl
@[simp] theorem onPcie_sched (s : State) (f : Pcie → Pcie) : (onPcie s f).sched = s.sched := rfl
@[simp] theorem onPcie_port0 (s : State) (f : Pcie → Pcie) : (onPcie s f).port0 = s.port0 := rfl
@[simp] theorem onPcie_port1 (s : State) (f : Pcie → Pcie) : (onPcie s f).port1 = s.port1 := rfl
@[simp] theorem onPcie_activePort (s : State) (f : Pcie → Pcie) : (onPcie s f).activePort = s.activePort := rfl
@[simp] theorem onPcie_hostOut (s : State) (f : Pcie → Pcie) : (onPcie s f).hostOut = s.hostOut := rfl
@[simp] theorem onPcie_regs (s : State) (f : Pcie → Pcie) : (onPcie s f).regs = s.regs := rfl
@[simp] theorem onPcie_shadow (s : State) (f : Pcie → Pcie) : (onPcie s f).shadow = s.shadow := rfl
@[simp] theorem onPcie_routes (s : State) (f : Pcie → Pcie) : (onPcie s f).routes = s.routes := rfl
@[simp] theorem onPcie_inMsgs (s : State) (f : Pcie → Pcie) : (onPcie s f).inMsgs = s.inMsgs := rfl
@[simp] theorem onPcie_fab (s : State) (f : Pcie → Pcie) : (onPcie s f).fab = s.fab := rfl
@[simp] theorem onPcie_cam (s : State) (f : Pcie → Pcie) : (onPcie s f).cam = s.cam := rfl
@[simp] theorem onPcie_sec (s : State) (f : Pcie → Pcie) : (onPcie s f).sec = s.sec := rfl
@[simp] theorem onPcie_secStore (s : State) (f : Pcie → Pcie) : (onPcie s f).secStore = s.secStore := rfl
@[simp] theorem onPcie_peri (s : State) (f : Pcie → Pcie) : (onPcie s f).peri = s.peri := rfl

/-! `onMem` -/

@[simp] theorem onMem_pending (s : State) (f : Mem → Mem) : (onMem s f).pending = s.pending := rfl
@[simp] theorem onMem_freeCtr (s : State) (f : Mem → Mem) : (onMem s f).freeCtr = s.freeCtr := rfl
@[simp] theorem onMem_resp (s : State) (f : Mem → Mem) : (onMem s f).resp = s.resp := rfl
@[simp] theorem onMem_irqs (s : State) (f : Mem → Mem) : (onMem s f).irqs = s.irqs := rfl
@[simp] theorem onMem_board (s : State) (f : Mem → Mem) : (onMem s f).board = s.board := rfl
@[simp] theorem onMem_own (s : State) (f : Mem → Mem) : (onMem s f).own = s.own := rfl
@[simp] theorem onMem_otp (s : State) (f : Mem → Mem) : (onMem s f).otp = s.otp := rfl
@[simp] theorem onMem_tick (s : State) (f : Mem → Mem) : (onMem s f).tick = s.tick := rfl
@[simp] theorem onMem_mem (s : State) (f : Mem → Mem) : (onMem s f).mem = s.mem := rfl
@[simp] theorem onMem_poison (s : State) (f : Mem → Mem) : (onMem s f).poison = s.poison := rfl
@[simp] theorem onMem_mbx (s : State) (f : Mem → Mem) : (onMem s f).mbx = s.mbx := rfl
@[simp] theorem onMem_cores (s : State) (f : Mem → Mem) : (onMem s f).cores = s.cores := rfl
@[simp] theorem onMem_sems (s : State) (f : Mem → Mem) : (onMem s f).sems = s.sems := rfl
@[simp] theorem onMem_mm (s : State) (f : Mem → Mem) : (onMem s f).mm = f s.mm := rfl
@[simp] theorem onMem_pcie (s : State) (f : Mem → Mem) : (onMem s f).pcie = s.pcie := rfl
@[simp] theorem onMem_ras (s : State) (f : Mem → Mem) : (onMem s f).ras = s.ras := rfl
@[simp] theorem onMem_log (s : State) (f : Mem → Mem) : (onMem s f).log = s.log := rfl
@[simp] theorem onMem_aon (s : State) (f : Mem → Mem) : (onMem s f).aon = s.aon := rfl
@[simp] theorem onMem_boot (s : State) (f : Mem → Mem) : (onMem s f).boot = s.boot := rfl
@[simp] theorem onMem_power (s : State) (f : Mem → Mem) : (onMem s f).power = s.power := rfl
@[simp] theorem onMem_events (s : State) (f : Mem → Mem) : (onMem s f).events = s.events := rfl
@[simp] theorem onMem_runs (s : State) (f : Mem → Mem) : (onMem s f).runs = s.runs := rfl
@[simp] theorem onMem_donations (s : State) (f : Mem → Mem) : (onMem s f).donations = s.donations := rfl
@[simp] theorem onMem_k (s : State) (f : Mem → Mem) : (onMem s f).k = s.k := rfl
@[simp] theorem onMem_sched (s : State) (f : Mem → Mem) : (onMem s f).sched = s.sched := rfl
@[simp] theorem onMem_port0 (s : State) (f : Mem → Mem) : (onMem s f).port0 = s.port0 := rfl
@[simp] theorem onMem_port1 (s : State) (f : Mem → Mem) : (onMem s f).port1 = s.port1 := rfl
@[simp] theorem onMem_activePort (s : State) (f : Mem → Mem) : (onMem s f).activePort = s.activePort := rfl
@[simp] theorem onMem_hostOut (s : State) (f : Mem → Mem) : (onMem s f).hostOut = s.hostOut := rfl
@[simp] theorem onMem_regs (s : State) (f : Mem → Mem) : (onMem s f).regs = s.regs := rfl
@[simp] theorem onMem_shadow (s : State) (f : Mem → Mem) : (onMem s f).shadow = s.shadow := rfl
@[simp] theorem onMem_routes (s : State) (f : Mem → Mem) : (onMem s f).routes = s.routes := rfl
@[simp] theorem onMem_inMsgs (s : State) (f : Mem → Mem) : (onMem s f).inMsgs = s.inMsgs := rfl
@[simp] theorem onMem_fab (s : State) (f : Mem → Mem) : (onMem s f).fab = s.fab := rfl
@[simp] theorem onMem_cam (s : State) (f : Mem → Mem) : (onMem s f).cam = s.cam := rfl
@[simp] theorem onMem_sec (s : State) (f : Mem → Mem) : (onMem s f).sec = s.sec := rfl
@[simp] theorem onMem_secStore (s : State) (f : Mem → Mem) : (onMem s f).secStore = s.secStore := rfl
@[simp] theorem onMem_peri (s : State) (f : Mem → Mem) : (onMem s f).peri = s.peri := rfl

/-! `onCam` -/

@[simp] theorem onCam_pending (s : State) (f : Cam → Cam) : (onCam s f).pending = s.pending := rfl
@[simp] theorem onCam_freeCtr (s : State) (f : Cam → Cam) : (onCam s f).freeCtr = s.freeCtr := rfl
@[simp] theorem onCam_resp (s : State) (f : Cam → Cam) : (onCam s f).resp = s.resp := rfl
@[simp] theorem onCam_irqs (s : State) (f : Cam → Cam) : (onCam s f).irqs = s.irqs := rfl
@[simp] theorem onCam_board (s : State) (f : Cam → Cam) : (onCam s f).board = s.board := rfl
@[simp] theorem onCam_own (s : State) (f : Cam → Cam) : (onCam s f).own = s.own := rfl
@[simp] theorem onCam_otp (s : State) (f : Cam → Cam) : (onCam s f).otp = s.otp := rfl
@[simp] theorem onCam_tick (s : State) (f : Cam → Cam) : (onCam s f).tick = s.tick := rfl
@[simp] theorem onCam_mem (s : State) (f : Cam → Cam) : (onCam s f).mem = s.mem := rfl
@[simp] theorem onCam_poison (s : State) (f : Cam → Cam) : (onCam s f).poison = s.poison := rfl
@[simp] theorem onCam_mbx (s : State) (f : Cam → Cam) : (onCam s f).mbx = s.mbx := rfl
@[simp] theorem onCam_cores (s : State) (f : Cam → Cam) : (onCam s f).cores = s.cores := rfl
@[simp] theorem onCam_sems (s : State) (f : Cam → Cam) : (onCam s f).sems = s.sems := rfl
@[simp] theorem onCam_mm (s : State) (f : Cam → Cam) : (onCam s f).mm = s.mm := rfl
@[simp] theorem onCam_pcie (s : State) (f : Cam → Cam) : (onCam s f).pcie = s.pcie := rfl
@[simp] theorem onCam_ras (s : State) (f : Cam → Cam) : (onCam s f).ras = s.ras := rfl
@[simp] theorem onCam_log (s : State) (f : Cam → Cam) : (onCam s f).log = s.log := rfl
@[simp] theorem onCam_aon (s : State) (f : Cam → Cam) : (onCam s f).aon = s.aon := rfl
@[simp] theorem onCam_boot (s : State) (f : Cam → Cam) : (onCam s f).boot = s.boot := rfl
@[simp] theorem onCam_power (s : State) (f : Cam → Cam) : (onCam s f).power = s.power := rfl
@[simp] theorem onCam_events (s : State) (f : Cam → Cam) : (onCam s f).events = s.events := rfl
@[simp] theorem onCam_runs (s : State) (f : Cam → Cam) : (onCam s f).runs = s.runs := rfl
@[simp] theorem onCam_donations (s : State) (f : Cam → Cam) : (onCam s f).donations = s.donations := rfl
@[simp] theorem onCam_k (s : State) (f : Cam → Cam) : (onCam s f).k = s.k := rfl
@[simp] theorem onCam_sched (s : State) (f : Cam → Cam) : (onCam s f).sched = s.sched := rfl
@[simp] theorem onCam_port0 (s : State) (f : Cam → Cam) : (onCam s f).port0 = s.port0 := rfl
@[simp] theorem onCam_port1 (s : State) (f : Cam → Cam) : (onCam s f).port1 = s.port1 := rfl
@[simp] theorem onCam_activePort (s : State) (f : Cam → Cam) : (onCam s f).activePort = s.activePort := rfl
@[simp] theorem onCam_hostOut (s : State) (f : Cam → Cam) : (onCam s f).hostOut = s.hostOut := rfl
@[simp] theorem onCam_regs (s : State) (f : Cam → Cam) : (onCam s f).regs = s.regs := rfl
@[simp] theorem onCam_shadow (s : State) (f : Cam → Cam) : (onCam s f).shadow = s.shadow := rfl
@[simp] theorem onCam_routes (s : State) (f : Cam → Cam) : (onCam s f).routes = s.routes := rfl
@[simp] theorem onCam_inMsgs (s : State) (f : Cam → Cam) : (onCam s f).inMsgs = s.inMsgs := rfl
@[simp] theorem onCam_fab (s : State) (f : Cam → Cam) : (onCam s f).fab = s.fab := rfl
@[simp] theorem onCam_cam (s : State) (f : Cam → Cam) : (onCam s f).cam = f s.cam := rfl
@[simp] theorem onCam_sec (s : State) (f : Cam → Cam) : (onCam s f).sec = s.sec := rfl
@[simp] theorem onCam_secStore (s : State) (f : Cam → Cam) : (onCam s f).secStore = s.secStore := rfl
@[simp] theorem onCam_peri (s : State) (f : Cam → Cam) : (onCam s f).peri = s.peri := rfl

/-! `onBoot` -/

@[simp] theorem onBoot_pending (s : State) (f : Boot → Boot) : (onBoot s f).pending = s.pending := rfl
@[simp] theorem onBoot_freeCtr (s : State) (f : Boot → Boot) : (onBoot s f).freeCtr = s.freeCtr := rfl
@[simp] theorem onBoot_resp (s : State) (f : Boot → Boot) : (onBoot s f).resp = s.resp := rfl
@[simp] theorem onBoot_irqs (s : State) (f : Boot → Boot) : (onBoot s f).irqs = s.irqs := rfl
@[simp] theorem onBoot_board (s : State) (f : Boot → Boot) : (onBoot s f).board = s.board := rfl
@[simp] theorem onBoot_own (s : State) (f : Boot → Boot) : (onBoot s f).own = s.own := rfl
@[simp] theorem onBoot_otp (s : State) (f : Boot → Boot) : (onBoot s f).otp = s.otp := rfl
@[simp] theorem onBoot_tick (s : State) (f : Boot → Boot) : (onBoot s f).tick = s.tick := rfl
@[simp] theorem onBoot_mem (s : State) (f : Boot → Boot) : (onBoot s f).mem = s.mem := rfl
@[simp] theorem onBoot_poison (s : State) (f : Boot → Boot) : (onBoot s f).poison = s.poison := rfl
@[simp] theorem onBoot_mbx (s : State) (f : Boot → Boot) : (onBoot s f).mbx = s.mbx := rfl
@[simp] theorem onBoot_cores (s : State) (f : Boot → Boot) : (onBoot s f).cores = s.cores := rfl
@[simp] theorem onBoot_sems (s : State) (f : Boot → Boot) : (onBoot s f).sems = s.sems := rfl
@[simp] theorem onBoot_mm (s : State) (f : Boot → Boot) : (onBoot s f).mm = s.mm := rfl
@[simp] theorem onBoot_pcie (s : State) (f : Boot → Boot) : (onBoot s f).pcie = s.pcie := rfl
@[simp] theorem onBoot_ras (s : State) (f : Boot → Boot) : (onBoot s f).ras = s.ras := rfl
@[simp] theorem onBoot_log (s : State) (f : Boot → Boot) : (onBoot s f).log = s.log := rfl
@[simp] theorem onBoot_aon (s : State) (f : Boot → Boot) : (onBoot s f).aon = s.aon := rfl
@[simp] theorem onBoot_boot (s : State) (f : Boot → Boot) : (onBoot s f).boot = f s.boot := rfl
@[simp] theorem onBoot_power (s : State) (f : Boot → Boot) : (onBoot s f).power = s.power := rfl
@[simp] theorem onBoot_events (s : State) (f : Boot → Boot) : (onBoot s f).events = s.events := rfl
@[simp] theorem onBoot_runs (s : State) (f : Boot → Boot) : (onBoot s f).runs = s.runs := rfl
@[simp] theorem onBoot_donations (s : State) (f : Boot → Boot) : (onBoot s f).donations = s.donations := rfl
@[simp] theorem onBoot_k (s : State) (f : Boot → Boot) : (onBoot s f).k = s.k := rfl
@[simp] theorem onBoot_sched (s : State) (f : Boot → Boot) : (onBoot s f).sched = s.sched := rfl
@[simp] theorem onBoot_port0 (s : State) (f : Boot → Boot) : (onBoot s f).port0 = s.port0 := rfl
@[simp] theorem onBoot_port1 (s : State) (f : Boot → Boot) : (onBoot s f).port1 = s.port1 := rfl
@[simp] theorem onBoot_activePort (s : State) (f : Boot → Boot) : (onBoot s f).activePort = s.activePort := rfl
@[simp] theorem onBoot_hostOut (s : State) (f : Boot → Boot) : (onBoot s f).hostOut = s.hostOut := rfl
@[simp] theorem onBoot_regs (s : State) (f : Boot → Boot) : (onBoot s f).regs = s.regs := rfl
@[simp] theorem onBoot_shadow (s : State) (f : Boot → Boot) : (onBoot s f).shadow = s.shadow := rfl
@[simp] theorem onBoot_routes (s : State) (f : Boot → Boot) : (onBoot s f).routes = s.routes := rfl
@[simp] theorem onBoot_inMsgs (s : State) (f : Boot → Boot) : (onBoot s f).inMsgs = s.inMsgs := rfl
@[simp] theorem onBoot_fab (s : State) (f : Boot → Boot) : (onBoot s f).fab = s.fab := rfl
@[simp] theorem onBoot_cam (s : State) (f : Boot → Boot) : (onBoot s f).cam = s.cam := rfl
@[simp] theorem onBoot_sec (s : State) (f : Boot → Boot) : (onBoot s f).sec = s.sec := rfl
@[simp] theorem onBoot_secStore (s : State) (f : Boot → Boot) : (onBoot s f).secStore = s.secStore := rfl
@[simp] theorem onBoot_peri (s : State) (f : Boot → Boot) : (onBoot s f).peri = s.peri := rfl

/-! `onPeri` -/

@[simp] theorem onPeri_pending (s : State) (f : Peri → Peri) : (onPeri s f).pending = s.pending := rfl
@[simp] theorem onPeri_freeCtr (s : State) (f : Peri → Peri) : (onPeri s f).freeCtr = s.freeCtr := rfl
@[simp] theorem onPeri_resp (s : State) (f : Peri → Peri) : (onPeri s f).resp = s.resp := rfl
@[simp] theorem onPeri_irqs (s : State) (f : Peri → Peri) : (onPeri s f).irqs = s.irqs := rfl
@[simp] theorem onPeri_board (s : State) (f : Peri → Peri) : (onPeri s f).board = s.board := rfl
@[simp] theorem onPeri_own (s : State) (f : Peri → Peri) : (onPeri s f).own = s.own := rfl
@[simp] theorem onPeri_otp (s : State) (f : Peri → Peri) : (onPeri s f).otp = s.otp := rfl
@[simp] theorem onPeri_tick (s : State) (f : Peri → Peri) : (onPeri s f).tick = s.tick := rfl
@[simp] theorem onPeri_mem (s : State) (f : Peri → Peri) : (onPeri s f).mem = s.mem := rfl
@[simp] theorem onPeri_poison (s : State) (f : Peri → Peri) : (onPeri s f).poison = s.poison := rfl
@[simp] theorem onPeri_mbx (s : State) (f : Peri → Peri) : (onPeri s f).mbx = s.mbx := rfl
@[simp] theorem onPeri_cores (s : State) (f : Peri → Peri) : (onPeri s f).cores = s.cores := rfl
@[simp] theorem onPeri_sems (s : State) (f : Peri → Peri) : (onPeri s f).sems = s.sems := rfl
@[simp] theorem onPeri_mm (s : State) (f : Peri → Peri) : (onPeri s f).mm = s.mm := rfl
@[simp] theorem onPeri_pcie (s : State) (f : Peri → Peri) : (onPeri s f).pcie = s.pcie := rfl
@[simp] theorem onPeri_ras (s : State) (f : Peri → Peri) : (onPeri s f).ras = s.ras := rfl
@[simp] theorem onPeri_log (s : State) (f : Peri → Peri) : (onPeri s f).log = s.log := rfl
@[simp] theorem onPeri_aon (s : State) (f : Peri → Peri) : (onPeri s f).aon = s.aon := rfl
@[simp] theorem onPeri_boot (s : State) (f : Peri → Peri) : (onPeri s f).boot = s.boot := rfl
@[simp] theorem onPeri_power (s : State) (f : Peri → Peri) : (onPeri s f).power = s.power := rfl
@[simp] theorem onPeri_events (s : State) (f : Peri → Peri) : (onPeri s f).events = s.events := rfl
@[simp] theorem onPeri_runs (s : State) (f : Peri → Peri) : (onPeri s f).runs = s.runs := rfl
@[simp] theorem onPeri_donations (s : State) (f : Peri → Peri) : (onPeri s f).donations = s.donations := rfl
@[simp] theorem onPeri_k (s : State) (f : Peri → Peri) : (onPeri s f).k = s.k := rfl
@[simp] theorem onPeri_sched (s : State) (f : Peri → Peri) : (onPeri s f).sched = s.sched := rfl
@[simp] theorem onPeri_port0 (s : State) (f : Peri → Peri) : (onPeri s f).port0 = s.port0 := rfl
@[simp] theorem onPeri_port1 (s : State) (f : Peri → Peri) : (onPeri s f).port1 = s.port1 := rfl
@[simp] theorem onPeri_activePort (s : State) (f : Peri → Peri) : (onPeri s f).activePort = s.activePort := rfl
@[simp] theorem onPeri_hostOut (s : State) (f : Peri → Peri) : (onPeri s f).hostOut = s.hostOut := rfl
@[simp] theorem onPeri_regs (s : State) (f : Peri → Peri) : (onPeri s f).regs = s.regs := rfl
@[simp] theorem onPeri_shadow (s : State) (f : Peri → Peri) : (onPeri s f).shadow = s.shadow := rfl
@[simp] theorem onPeri_routes (s : State) (f : Peri → Peri) : (onPeri s f).routes = s.routes := rfl
@[simp] theorem onPeri_inMsgs (s : State) (f : Peri → Peri) : (onPeri s f).inMsgs = s.inMsgs := rfl
@[simp] theorem onPeri_fab (s : State) (f : Peri → Peri) : (onPeri s f).fab = s.fab := rfl
@[simp] theorem onPeri_cam (s : State) (f : Peri → Peri) : (onPeri s f).cam = s.cam := rfl
@[simp] theorem onPeri_sec (s : State) (f : Peri → Peri) : (onPeri s f).sec = s.sec := rfl
@[simp] theorem onPeri_secStore (s : State) (f : Peri → Peri) : (onPeri s f).secStore = s.secStore := rfl
@[simp] theorem onPeri_peri (s : State) (f : Peri → Peri) : (onPeri s f).peri = f s.peri := rfl

/-! `onRas` -/

@[simp] theorem onRas_pending (s : State) (f : Ras → Ras) : (onRas s f).pending = s.pending := rfl
@[simp] theorem onRas_freeCtr (s : State) (f : Ras → Ras) : (onRas s f).freeCtr = s.freeCtr := rfl
@[simp] theorem onRas_resp (s : State) (f : Ras → Ras) : (onRas s f).resp = s.resp := rfl
@[simp] theorem onRas_irqs (s : State) (f : Ras → Ras) : (onRas s f).irqs = s.irqs := rfl
@[simp] theorem onRas_board (s : State) (f : Ras → Ras) : (onRas s f).board = s.board := rfl
@[simp] theorem onRas_own (s : State) (f : Ras → Ras) : (onRas s f).own = s.own := rfl
@[simp] theorem onRas_otp (s : State) (f : Ras → Ras) : (onRas s f).otp = s.otp := rfl
@[simp] theorem onRas_tick (s : State) (f : Ras → Ras) : (onRas s f).tick = s.tick := rfl
@[simp] theorem onRas_mem (s : State) (f : Ras → Ras) : (onRas s f).mem = s.mem := rfl
@[simp] theorem onRas_poison (s : State) (f : Ras → Ras) : (onRas s f).poison = s.poison := rfl
@[simp] theorem onRas_mbx (s : State) (f : Ras → Ras) : (onRas s f).mbx = s.mbx := rfl
@[simp] theorem onRas_cores (s : State) (f : Ras → Ras) : (onRas s f).cores = s.cores := rfl
@[simp] theorem onRas_sems (s : State) (f : Ras → Ras) : (onRas s f).sems = s.sems := rfl
@[simp] theorem onRas_mm (s : State) (f : Ras → Ras) : (onRas s f).mm = s.mm := rfl
@[simp] theorem onRas_pcie (s : State) (f : Ras → Ras) : (onRas s f).pcie = s.pcie := rfl
@[simp] theorem onRas_ras (s : State) (f : Ras → Ras) : (onRas s f).ras = f s.ras := rfl
@[simp] theorem onRas_log (s : State) (f : Ras → Ras) : (onRas s f).log = s.log := rfl
@[simp] theorem onRas_aon (s : State) (f : Ras → Ras) : (onRas s f).aon = s.aon := rfl
@[simp] theorem onRas_boot (s : State) (f : Ras → Ras) : (onRas s f).boot = s.boot := rfl
@[simp] theorem onRas_power (s : State) (f : Ras → Ras) : (onRas s f).power = s.power := rfl
@[simp] theorem onRas_events (s : State) (f : Ras → Ras) : (onRas s f).events = s.events := rfl
@[simp] theorem onRas_runs (s : State) (f : Ras → Ras) : (onRas s f).runs = s.runs := rfl
@[simp] theorem onRas_donations (s : State) (f : Ras → Ras) : (onRas s f).donations = s.donations := rfl
@[simp] theorem onRas_k (s : State) (f : Ras → Ras) : (onRas s f).k = s.k := rfl
@[simp] theorem onRas_sched (s : State) (f : Ras → Ras) : (onRas s f).sched = s.sched := rfl
@[simp] theorem onRas_port0 (s : State) (f : Ras → Ras) : (onRas s f).port0 = s.port0 := rfl
@[simp] theorem onRas_port1 (s : State) (f : Ras → Ras) : (onRas s f).port1 = s.port1 := rfl
@[simp] theorem onRas_activePort (s : State) (f : Ras → Ras) : (onRas s f).activePort = s.activePort := rfl
@[simp] theorem onRas_hostOut (s : State) (f : Ras → Ras) : (onRas s f).hostOut = s.hostOut := rfl
@[simp] theorem onRas_regs (s : State) (f : Ras → Ras) : (onRas s f).regs = s.regs := rfl
@[simp] theorem onRas_shadow (s : State) (f : Ras → Ras) : (onRas s f).shadow = s.shadow := rfl
@[simp] theorem onRas_routes (s : State) (f : Ras → Ras) : (onRas s f).routes = s.routes := rfl
@[simp] theorem onRas_inMsgs (s : State) (f : Ras → Ras) : (onRas s f).inMsgs = s.inMsgs := rfl
@[simp] theorem onRas_fab (s : State) (f : Ras → Ras) : (onRas s f).fab = s.fab := rfl
@[simp] theorem onRas_cam (s : State) (f : Ras → Ras) : (onRas s f).cam = s.cam := rfl
@[simp] theorem onRas_sec (s : State) (f : Ras → Ras) : (onRas s f).sec = s.sec := rfl
@[simp] theorem onRas_secStore (s : State) (f : Ras → Ras) : (onRas s f).secStore = s.secStore := rfl
@[simp] theorem onRas_peri (s : State) (f : Ras → Ras) : (onRas s f).peri = s.peri := rfl

/-! `onMbx` -/

@[simp] theorem onMbx_pending (s : State) (f : Mbx → Mbx) : (onMbx s f).pending = s.pending := rfl
@[simp] theorem onMbx_freeCtr (s : State) (f : Mbx → Mbx) : (onMbx s f).freeCtr = s.freeCtr := rfl
@[simp] theorem onMbx_resp (s : State) (f : Mbx → Mbx) : (onMbx s f).resp = s.resp := rfl
@[simp] theorem onMbx_irqs (s : State) (f : Mbx → Mbx) : (onMbx s f).irqs = s.irqs := rfl
@[simp] theorem onMbx_board (s : State) (f : Mbx → Mbx) : (onMbx s f).board = s.board := rfl
@[simp] theorem onMbx_own (s : State) (f : Mbx → Mbx) : (onMbx s f).own = s.own := rfl
@[simp] theorem onMbx_otp (s : State) (f : Mbx → Mbx) : (onMbx s f).otp = s.otp := rfl
@[simp] theorem onMbx_tick (s : State) (f : Mbx → Mbx) : (onMbx s f).tick = s.tick := rfl
@[simp] theorem onMbx_mem (s : State) (f : Mbx → Mbx) : (onMbx s f).mem = s.mem := rfl
@[simp] theorem onMbx_poison (s : State) (f : Mbx → Mbx) : (onMbx s f).poison = s.poison := rfl
@[simp] theorem onMbx_mbx (s : State) (f : Mbx → Mbx) : (onMbx s f).mbx = f s.mbx := rfl
@[simp] theorem onMbx_cores (s : State) (f : Mbx → Mbx) : (onMbx s f).cores = s.cores := rfl
@[simp] theorem onMbx_sems (s : State) (f : Mbx → Mbx) : (onMbx s f).sems = s.sems := rfl
@[simp] theorem onMbx_mm (s : State) (f : Mbx → Mbx) : (onMbx s f).mm = s.mm := rfl
@[simp] theorem onMbx_pcie (s : State) (f : Mbx → Mbx) : (onMbx s f).pcie = s.pcie := rfl
@[simp] theorem onMbx_ras (s : State) (f : Mbx → Mbx) : (onMbx s f).ras = s.ras := rfl
@[simp] theorem onMbx_log (s : State) (f : Mbx → Mbx) : (onMbx s f).log = s.log := rfl
@[simp] theorem onMbx_aon (s : State) (f : Mbx → Mbx) : (onMbx s f).aon = s.aon := rfl
@[simp] theorem onMbx_boot (s : State) (f : Mbx → Mbx) : (onMbx s f).boot = s.boot := rfl
@[simp] theorem onMbx_power (s : State) (f : Mbx → Mbx) : (onMbx s f).power = s.power := rfl
@[simp] theorem onMbx_events (s : State) (f : Mbx → Mbx) : (onMbx s f).events = s.events := rfl
@[simp] theorem onMbx_runs (s : State) (f : Mbx → Mbx) : (onMbx s f).runs = s.runs := rfl
@[simp] theorem onMbx_donations (s : State) (f : Mbx → Mbx) : (onMbx s f).donations = s.donations := rfl
@[simp] theorem onMbx_k (s : State) (f : Mbx → Mbx) : (onMbx s f).k = s.k := rfl
@[simp] theorem onMbx_sched (s : State) (f : Mbx → Mbx) : (onMbx s f).sched = s.sched := rfl
@[simp] theorem onMbx_port0 (s : State) (f : Mbx → Mbx) : (onMbx s f).port0 = s.port0 := rfl
@[simp] theorem onMbx_port1 (s : State) (f : Mbx → Mbx) : (onMbx s f).port1 = s.port1 := rfl
@[simp] theorem onMbx_activePort (s : State) (f : Mbx → Mbx) : (onMbx s f).activePort = s.activePort := rfl
@[simp] theorem onMbx_hostOut (s : State) (f : Mbx → Mbx) : (onMbx s f).hostOut = s.hostOut := rfl
@[simp] theorem onMbx_regs (s : State) (f : Mbx → Mbx) : (onMbx s f).regs = s.regs := rfl
@[simp] theorem onMbx_shadow (s : State) (f : Mbx → Mbx) : (onMbx s f).shadow = s.shadow := rfl
@[simp] theorem onMbx_routes (s : State) (f : Mbx → Mbx) : (onMbx s f).routes = s.routes := rfl
@[simp] theorem onMbx_inMsgs (s : State) (f : Mbx → Mbx) : (onMbx s f).inMsgs = s.inMsgs := rfl
@[simp] theorem onMbx_fab (s : State) (f : Mbx → Mbx) : (onMbx s f).fab = s.fab := rfl
@[simp] theorem onMbx_cam (s : State) (f : Mbx → Mbx) : (onMbx s f).cam = s.cam := rfl
@[simp] theorem onMbx_sec (s : State) (f : Mbx → Mbx) : (onMbx s f).sec = s.sec := rfl
@[simp] theorem onMbx_secStore (s : State) (f : Mbx → Mbx) : (onMbx s f).secStore = s.secStore := rfl
@[simp] theorem onMbx_peri (s : State) (f : Mbx → Mbx) : (onMbx s f).peri = s.peri := rfl

end Sys2Proof.Machine
end

