-- ==== Sys2Proof/Tests/Slice0.lean ====
section
/-! SUPPORT. Sys2Proof/Tests/Slice0.lean: a witness for the hypotheses of each statement, and small tests of single steps
against values that the spec gives. -/

open Sys2Proof Sys2Proof.Machine

namespace Sys2Proof.Tests

set_option Elab.async false

/-! ### States and words -/

/-- Reset with core 0 as c. -/
def one (c : Core) : State := { State.reset with cores := [(0, c)] }

/-- Reset with cores 0 and 1 as given. -/
def two (a b : Core) : State := { State.reset with cores := [(0, a), (1, b)] }

/-- A core that runs a program of eight words from its start. -/
def runner : Core := { st := .running, enable := true, progLen := 64 }

/-- The word of major opcode m (bits 63 to 58, R104) with the rest of its bits. -/
def kw (m rest : Nat) : BitVec 64 := BitVec.ofNat 64 (m * 2 ^ 58 + rest)

/-- A scalar word: minor opcode, rd, ra and the low 36 bits (R114). -/
def sw (m minor rd ra low : Nat) : BitVec 64 := kw m (minor * 2 ^ 48 + rd * 2 ^ 42 + ra * 2 ^ 36 + low)

/-- A descriptor: word 0 with format and base, word 2 with row length n (R110). -/
def desc (format base n : Nat) : BitVec 256 := BitVec.ofNat 256 (format * 2 ^ 50 + base + (n - 1) * 2 ^ 128)

def reachesB (code : Nat) (core : Fin 32) (w : BitVec 64) (s : State) : Bool :=
  issuing (coreOf s core.val) && !(fetched s core.val).2 && decide ((coreOf s core.val).pc < (coreOf s core.val).progLen)
    && (rowCode w == some code) && legal w && !guardWaits (coreOf s core.val) w

def runsB (code : Nat) (core : Fin 32) (w : BitVec 64) (s : State) : Bool :=
  reachesB code core w s && guardOk (coreOf s core.val) w && !operandWaits (coreOf s core.val) w

theorem reaches_of {code : Nat} {core : Fin 32} {w : BitVec 64} {s : State} (h : reachesB code core w s = true) :
    Reaches code core w s := by
  simp only [reachesB, Bool.and_eq_true, Bool.not_eq_true', decide_eq_true_eq, beq_iff_eq] at h
  exact ⟨h.1.1.1.1.1, h.1.1.1.1.2, h.1.1.1.2, h.1.1.2, h.1.2, h.2⟩

theorem runs_of {code : Nat} {core : Fin 32} {w : BitVec 64} {s : State} (h : runsB code core w s = true) :
    Runs code core w s := by
  simp only [runsB, Bool.and_eq_true, Bool.not_eq_true'] at h
  exact ⟨reaches_of h.1.1, h.1.2, h.2⟩

/-- Does a command answer a next state of which f holds? -/
def nextIs (i : Instr) (s : State) (f : State → Bool) : Bool := match exec i s with
  | .next t => f t
  | _ => false

/-! ### Steps and queue -/

theorem witness_EmptyQueueStepIsOneTick : State.reset.pending = [] ∧ State.reset.fab.selfQ = [] := by decide

theorem test_idle_tick_counts_a_running_core : (match step (one { runner with cycTotal := 0xFFFFFFFE }) with
    | .next t => t.tick == 1 && (coreOf t 0).cycTotal == 0xFFFFFFFF | _ => false) = true := by decide +kernel

/-! ### Kuner words -/

/-- ADD S1, S2, S3 (R114, R115): major 0, minor 0. -/
def addW : BitVec 64 := sw 0 0 1 2 (3 * 2 ^ 30)
/-- The same under the guard P1, which is false. -/
def addG : BitVec 64 := addW ||| BitVec.ofNat 64 (2 ^ 54)

/-- An entry in flight that writes P1: TCHK with pd 1 (bits 53:51 of R136's form). -/
def tchkE : QEntry := { op := .tchk, w := kw 0x13 (1 * 2 ^ 50), pc := 0 }

theorem witness_KunerWordIsTakenOrPassedOver :
    (rowCode (sw 0 1 1 2 0) = some 1) ∧ rowCode addW = some 0 ∧ rowCode (sw 0 15 1 2 0) = none ∧
    issuing (coreOf State.reset 0) = false ∧
    (issuing (coreOf (one { runner with icache := [0], ecc := [(eccLine 0, true)] }) 0) = true ∧
      (fetched (one { runner with icache := [0], ecc := [(eccLine 0, true)] }) 0).2 = true) ∧
    (let p : State := { one runner with poison := [(31, ())] };
      fillPoisoned p 0 = true ∧ (fetched p 0).2 = true ∧ fillPoisoned (one { runner with icache := [0] }) 0 = false ∧
      fillPoisoned { p with cores := (one { runner with icache := [0] }).cores } 0 = false) ∧
    ((fetched (one runner) 0).2 = false ∧ issuing runner = true ∧ decodes addW = true ∧ decodes (sw 0 15 1 2 0) = false ∧
      runner.pc < runner.progLen ∧ ({ runner with pc := 64 } : Core).progLen ≤ 64) ∧
    (guardWaits { runner with d0In := [tchkE] } addG = true ∧ guardWaits runner addG = false ∧ guardOk runner addG = false ∧
      guardWaits { runner with d0In := [tchkE] } addW = false ∧ guardOk { runner with d0In := [tchkE] } addW = true) := by
  decide +kernel

/-- PAND P2, P1, P1 waits on a TCHK that writes P1. -/
theorem witness_KunerOperandWaits : runsB 256 0 (kw 4 (2 * 2 ^ 45 + 1 * 2 ^ 42 + 1 * 2 ^ 39)) (one runner) = true ∧
    operandWaits { runner with d0In := [tchkE] } (kw 4 (2 * 2 ^ 45 + 1 * 2 ^ 42 + 1 * 2 ^ 39)) = true := by decide +kernel

theorem witness_AluWritesItsResult : ∀ r ∈ aluRows, runsB r.2.1 0 (sw 0 r.2.1 1 2 (3 * 2 ^ 30)) (one runner) = true ∧
    runsB r.2.1 31 (sw 1 r.2.1 0 39 0xFFFFFFFF) { State.reset with cores := [(31, { runner with pc := 56 })] } = true := by
  decide +kernel

theorem witness_CompareAndPredicateRowsWriteOnePredicate :
    (∀ r ∈ cmpRows, runsB r.2.1 0 (sw 2 (r.2.1 - 128) 7 2 (3 * 2 ^ 30)) (one runner) = true ∧
      runsB r.2.1 0 (sw 3 (r.2.1 - 128) 0 2 0x80000000) (one runner) = true) ∧
    (∀ r ∈ predRows, runsB r.2.1 0 (kw 4 ((r.2.1 - 256) * 2 ^ 48 + 7 * 2 ^ 45)) (one runner) = true) := by decide +kernel

/-- A core with T1 a scratchpad descriptor of 64 bytes at the end of the scratchpad and S2 = k. -/
def lastRow (k : Word) : Core := { runner with t := [(1, desc 1 0x3FFFC0 64)], s := SMap.put [] 2 k 0 }
/-- SLD or SST S1, T1, S2, imm (R118). -/
def slm (minor imm : Nat) : BitVec 64 := sw 5 minor 1 2 (1 * 2 ^ 32 + imm)

/-- The last word of T1, the word before, one byte on, and beyond the end. -/
theorem witness_ScalarLoadAndStoreMoveOneWord :
    (∀ k ∈ ([0, 1] : List Nat), ∀ imm ∈ ([0, 60, 2, 64, 0xFFFFFFFC] : List Nat),
      runsB (320 + k) 0 (slm k imm) (one (lastRow 0)) = true) ∧
    (let d := descOf (desc 1 0x3FFFC0 64)
     spadDescOk d = true ∧ d.base + 60 + 4 ≤ extentEnd d ∧ d.base + 60 + 4 = spadSize ∧ d.base + 62 + 4 > extentEnd d ∧
       (d.base + 2) % 4 ≠ 0 ∧ d.base + 64 + 4 > extentEnd d ∧ d.base + 0 + 4 ≤ extentEnd d) ∧
    seqWaits (lastRow 0) { wrT := [1] } = false ∧ seqWaits (lastRow 0) { rdT := [1] } = false ∧
    seqWaits { lastRow 0 with mq := [{ op := .mwl, w := kw 0x20 (1 * 2 ^ 47), pc := 0 }] } { wrT := [1] } = true ∧
    seqWaits { lastRow 0 with d0 := [{ op := .tld, w := kw 0x10 (1 * 2 ^ 49), pc := 0 }] } { rdT := [1] } = true ∧
    (spadTouch { lastRow 0 with valid := [(0xFFFF, ())] } [(0x3FFFFC, 4)]).2 = false ∧
    (spadTouch { lastRow 0 with valid := [(0xFFFF, ())], ecc := [(eccSpad 0x3FFFFC, true)] } [(0x3FFFFC, 4)]).2 = true := by
  decide +kernel

theorem witness_SgetReadsWhatItsSelectorNames : ∀ imm ∈ span 0 9, runsB 384 0 (sw 6 0 1 0 imm) (one runner) = true := by
  decide +kernel

/-- The first and the last word of the program are inside, -8 and the length are not. -/
theorem witness_BranchesJumpLinkOrFault :
    (∀ k ∈ ([0, 1] : List Nat), ∀ off ∈ ([0, 7, 8, 0xFFFFFF] : List Nat), runsB (512 + k) 0 (sw 8 k 1 0 off) (one runner) = true) ∧
    (∀ k ∈ ([2, 3] : List Nat), ∀ v ∈ ([0, 56, 64, 4] : List Nat),
      runsB (512 + k) 0 (sw 8 k 1 2 0) (one (lastRow (word v))) = true) := by decide +kernel

/-- LOOP L0 of a body of one word, count imm: count in ra, length in 44:29, immediate in 28:8, counter in 53:51. -/
def loopW (ra len imm : Nat) : BitVec 64 := kw 9 (ra * 2 ^ 45 + len * 2 ^ 29 + imm * 2 ^ 8)

theorem witness_LoopEntersIteratesAndEnds :
    (∀ len ∈ ([1, 7] : List Nat), ∀ imm ∈ ([0, 1, 2 ^ 21 - 1] : List Nat), runsB 576 0 (loopW 0 len imm) (one runner) = true) ∧
    runsB 576 0 (loopW 2 1 1) (one { runner with s := [(2, 0xFFFFFFFF)] }) = true ∧
    (let l : LoopAct := ⟨1, 0, 16, 0⟩
     runsB 576 0 (loopW 0 1 1) (one { runner with loops := [l] }) = true ∧ (l.start ≤ 8 ∧ 16 ≤ l.stop) ∧
       runsB 576 0 (loopW 0 2 1) (one { runner with loops := [l] }) = true ∧ ¬ (l.start ≤ 8 ∧ 24 ≤ l.stop)) ∧
    (let g := loopW 0 1 1 ||| BitVec.ofNat 64 (2 ^ 54)
     reachesB 576 0 g (one runner) = true ∧ guardOk runner g = false ∧
       reachesB 576 0 (g ||| loopW 0 2 1) (one { runner with loops := [⟨1, 0, 16, 0⟩] }) = true) := by decide +kernel

/-- TDESC of mode m with td 0, ts 1, field f, source S2, imm. -/
def tdW (m f imm : Nat) : BitVec 64 := kw 0x14 (m * 2 ^ 51 + 1 * 2 ^ 43 + f * 2 ^ 39 + 2 * 2 ^ 33 + imm)
def tdCore (k : Word) : Core := { runner with t := [(1, desc 1 0x3FFFC0 64)], s := SMap.put [] 2 k 0 }

theorem witness_TdescRowsWriteOneDescriptor :
    (∀ f ∈ span 0 15, ∀ m ∈ ([2, 3, 4] : List Nat), runsB (1280 + m) 0 (tdW m f 0) (one (tdCore 0xFFFFFFFF)) = true) ∧
    runsB 1281 0 (tdW 1 0 0) (one (tdCore 0)) = true ∧
    (∀ imm ∈ ([0, 32, 33, 64] : List Nat), runsB 1280 0 (tdW 0 0 imm) (one (tdCore 0)) = true) ∧
    tdWaits (tdCore 0) (tdW 1 0 0) = false ∧
    tdWaits { tdCore 0 with mq := [{ op := .mwl, w := kw 0x20 0, pc := 0 }] } (tdW 1 0 0) = true ∧
    seqWaits (tdCore 0) { rdT := [1] } = false ∧
    (let d := descOf (desc 1 0x3FFFC0 64)
     spadDescOk d = true ∧ d.base + 32 + 32 ≤ spadSize ∧ (d.base + 32) % 32 = 0 ∧ ¬ (d.base + 33 + 32 ≤ spadSize) ∧
       (d.base + 1) % 32 ≠ 0) ∧
    (spadTouch { tdCore 0 with valid := [(0xFFFF, ())] } [(0x3FFFE0, 32)]).2 = false ∧
    (spadTouch { tdCore 0 with valid := [(0xFFFF, ())], ecc := [(eccSpad 0x3FFFF8, true)] } [(0x3FFFE0, 32)]).2 = true := by decide +kernel

/-- A running core 0 and semaphore 1023 of its partition with a count. -/
def semState (n : Nat) (w : List SemWait) : State := { one runner with sems := [(1023, { count := n, waiters := w })] }
/-- SWAIT or SPOST on semaphore v with amount n. -/
def semW (m v n low : Nat) : BitVec 64 := kw m (v * 2 ^ 38 + n * 2 ^ 16 + low)

theorem witness_SemaphoresCountWaitAndServeInOrder :
    (∀ k ∈ ([0, 1] : List Nat), ∀ n ∈ ([0, 1, 2] : List Nat), runsB (1536 + k) 0 (semW 0x18 1023 n k) (semState 1 []) = true ∧
      runsB (1536 + k) 0 (semW 0x18 1023 n k) (semState 1 [⟨1, 1, false⟩]) = true) ∧
    semOf (semState 1 []) 0 1023 = some { count := 1 } ∧ semOf (semState 1 []) 0 0 = none ∧
    semOf { semState 1 [] with own := { core := [(0, 1)] } } 0 1023 = none ∧
    runsB 1600 0 (semW 0x19 1023 1 0) (semState 0xFFFFFFFF []) = true ∧ drained runner = true ∧
    runsB 1600 0 (semW 0x19 1023 1 0) (one { runner with mq := [{ op := .macc, w := 0, pc := 0 }] }) = true ∧
    drained { runner with mq := [{ op := .macc, w := 0, pc := 0 }] } = false ∧
    SMap.get? (semState 1 [⟨1, 2, false⟩]).sems 1023 = some { count := 1, waiters := [⟨1, 2, false⟩] } ∧
    SMap.get? (semState 2 [⟨1, 2, true⟩]).sems 1023 = some { count := 2, waiters := [⟨1, 2, true⟩] } := by decide +kernel

/-- A core with an entry in or after each of its queues. -/
def busyCore : Core := { runner with
  mIn := [{ op := .macc, w := 0, pc := 0 }]
  eq := [{ op := .eop, w := 0, pc := 0 }]
  d0 := [tchkE]
  d1In := [tchkE] }

theorem witness_FenceAndEndWaitForTheQueues :
    (∀ q ∈ span 0 16, runsB 1664 0 (kw 0x1A (q * 2 ^ 50)) (one runner) = true ∧
      runsB 1664 0 (kw 0x1A (q * 2 ^ 50 + 2 ^ 49)) (one busyCore) = true) ∧
    runsB 1984 0 (kw 0x1F 0) (one runner) = true ∧ runsB 1984 0 (kw 0x1F 0) (one { runner with d0 := [tchkE] }) = true ∧
    queued runner ++ inFlight runner = [] ∧ holdsReport (one runner) 0 = false ∧ mbxFull (one runner).mbx 64 = false ∧
    (let s := { one runner with mbx := { full := 1#128 <<< 64 } }
     runsB 1984 0 (kw 0x1F 0) s = true ∧ mbxFull s.mbx 64 = true ∧ holdsReport s 0 = false) := by decide +kernel

/-- A word for each queued row, in the order of `queuedRows`. -/
def queuedWords : List (BitVec 64) :=
  ([0x10, 0x11, 0x12, 0x13, 0x1B, 0x1C, 0x1D, 0x1E, 0x20, 0x21, 0x22] : List Nat).map (fun m => kw m 0) ++
  (span 0 5).map (fun k => kw 0x23 (k * 2 ^ 51)) ++ [kw 0x24 0, kw 0x25 0, kw 0x26 0, kw 0x26 (2 ^ 30)] ++
  (span 0 9).map (fun o => kw 0x30 (o * 2 ^ 15 + if o = 0 ∨ 6 ≤ o then 0x1F * 2 ^ 39 else 0)) ++
  (span 16 10).map (fun o => kw 0x30 (o * 2 ^ 15 + 0x1F * 2 ^ 39)) ++ (span 32 5).map (fun o => kw 0x30 (o * 2 ^ 15 + 2 ^ 14)) ++
  [kw 0x31 (0x10 * 2 ^ 44), kw 0x32 (0x10 * 2 ^ 44), kw 0x33 0, kw 0x33 (2 ^ 14)] ++
  (span 0 3).map (fun k => kw 0x34 (0x10 * 2 ^ 44 + k * 2 ^ 19)) ++ [kw 0x35 0, kw 0x35 (2 ^ 20)] ++
  (span 0 5).map (fun k => kw 0x36 (0x1F * 2 ^ 39 + k * 2 ^ 18)) ++ [kw 0x37 (0x1F * 2 ^ 39), kw 0x37 (2 ^ 20)]

theorem witness_QueuedRowsEnterTheirQueue : queuedWords.length = queuedRows.length ∧
    (∀ x ∈ queuedWords.zip queuedRows, runsB x.2.2.1 0 x.1 (one runner) = true) := by decide +kernel

/-- A full queue of 16, a head that an older entry holds back, and an empty queue. -/
theorem witness_QueuedRowsEnterTheirQueue_full :
    (let z : QEntry := { op := .macc, w := kw 0x23 (2 ^ 13), pc := 0 }
     let full : Core := { runner with mq := List.replicate 16 z }
     let stuck : Core := { runner with mIn := [z], eIn := [{ op := .kseal, w := 0, pc := 0 }], mq := List.replicate 15 { z with seq := 1 }, seq := 16 }
     runsB 2240 0 (kw 0x23 (2 ^ 13)) (one full) = true ∧ 16 ≤ full.mq.length ∧
       runsB 2240 0 (kw 0x23 (2 ^ 13)) (one stuck) = true ∧ stuck.mq.length < 16 ∧ mayStart stuck { z with seq := 1 } = false ∧
       mayStart { runner with seq := 1 } z = true) := by decide +kernel

/-- A number made of fields: values and the bits they start at. -/
def pack (l : List (Nat × Nat)) : Nat := l.foldl (fun n x => n + x.1 * 2 ^ x.2) 0
/-- A scratchpad descriptor of 64 rows of 256 bytes (R110). -/
def rows256 (format base : Nat) : BitVec 256 :=
  BitVec.ofNat 256 (pack [(base, 0), (format, 50), (255, 128), (63, 140), (256, 192)])
/-- A scratchpad descriptor of 64 rows of 512 bytes. -/
def rows512 (format base : Nat) : BitVec 256 :=
  BitVec.ofNat 256 (pack [(base, 0), (format, 50), (511, 128), (63, 140), (512, 192)])
/-- A memory descriptor of n tiles of 256 bytes in physical space (R110). -/
def tiles256 (format base tag n : Nat) : BitVec 256 :=
  BitVec.ofNat 256 (pack [(base, 0), (1, 48), (format, 50), (tag, 64), (255, 112), (255, 128), (n - 1, 140), (256, 192)])
/-- A core whose descriptors, count S1 and weight bank let an entry of every kind start. -/
def rich : Core := { runner with
  t := [(0, rows256 1 0), (1, rows256 1 0x4000), (2, tiles256 1 0x14000 0x10000 256), (3, tiles256 11 0x14000 0x10000 64),
    (4, rows512 3 0x8000), (5, rows512 9 0x10000),
    (6, BitVec.ofNat 256 (pack [(0x14000, 0), (1, 48), (1, 50), (0x10000, 64), (15, 112), (15, 128)]))]
  s := [(1, 1)]
  bank0 := some { fmt := 0, codes := [], metad := [] }
  lastFill := some 0 }
def richState : State := { one rich with routes := [(0, { dest := 0x101, destQueue := 16, credits := 4, total := 4 })] }
/-- Does the entry of a word start without a fault? -/
def startsOk (op : QOp) (w : BitVec 64) : Bool := match startOp richState 0 (entryOf op rich w) with
  | .ok (_, none) => mayStart rich (entryOf op rich w)
  | _ => false

/-- Words of which an empty queue's entry starts: transfers, streams, MWL, MACC and KAPP. -/
theorem witness_QueuedRowsEnterTheirQueue_starts :
    (∀ x ∈ ([(.tld, 0x10, 2 * 2 ^ 45), (.tst, 0x11, 2 * 2 ^ 45), (.tpf, 0x12, 2 * 2 ^ 49), (.tchk, 0x13, 2 * 2 ^ 45), (.csend, 0x1B, 0),
      (.crecv, 0x1C, 0), (.lsend, 0x1D, 0), (.lrecv, 0x1E, 0), (.mwl, 0x20, 2 ^ 43),
      (.macc, 0x23, 2 ^ 13), (.macc, 0x23, 2 ^ 51 + 2 ^ 13), (.macc, 0x23, 2 * 2 ^ 51 + 2 ^ 13),
      (.macc, 0x23, 3 * 2 ^ 51 + 3 * 2 ^ 46 + 2 ^ 13), (.kapp, 0x24, 2 ^ 49 + 2 * 2 ^ 45 + 2 ^ 33)] : List (QOp × Nat × Nat)),
      startsOk x.1 (kw x.2.1 x.2.2) = true) := by decide +kernel

theorem witness_QueuedRowsEnterTheirQueue_elements :
    (∀ x ∈ ([(.eop, 0x30, 0x10 * 2 ^ 49 + 0x1F * 2 ^ 39), (.eop, 0x30, 0x10 * 2 ^ 39 + 2 ^ 15), (.erq, 0x31, 2 ^ 49 + 5 * 2 ^ 39),
      (.esmx, 0x32, 2 ^ 49 + 4 * 2 ^ 39), (.enorm, 0x33, 0x10 * 2 ^ 49), (.enorm, 0x33, 0x10 * 2 ^ 49 + 2 ^ 14),
      (.escan, 0x35, 0x10 * 2 ^ 49 + 4 * 2 ^ 12), (.escan, 0x35, 0x10 * 2 ^ 49 + 2 ^ 20 + 4 * 2 ^ 12),
      (.ered, 0x36, 0x10 * 2 ^ 49 + 0x1F * 2 ^ 39)] : List (QOp × Nat × Nat)),
      startsOk x.1 (kw x.2.1 (x.2.2 + 0x10 * 2 ^ 44 + 2 ^ 21)) = true) := by decide +kernel

/-- A bank of zeros: sums stay inside, with and without an adder error. -/
theorem witness_ResidueCheckNeverTripsWithoutAnError :
    (let b : Bank := { fmt := 0, codes := [], metad := [] }
     let edge : Core := { runner with acc := [(1023, { accRow runner 1023 with acc := accMax :: List.replicate 127 0 })] }
     edge.adder = none ∧ (∀ j ∈ span 0 128, accMin ≤ (accRow edge 1023).acc.getD j 0 + columnSum b [] j ∧
       (accRow edge 1023).acc.getD j 0 + columnSum b [] j ≤ accMax) ∧
     (∀ d ∈ ([3, 1, -2] : List Int), ∀ j ∈ span 0 128, accMin ≤ (accRow runner 0).acc.getD j 0 + columnSum b [] j +
       (if j = 127 then d else 0) ∧ (accRow runner 0).acc.getD j 0 + columnSum b [] j + (if j = 127 then d else 0) ≤ accMax)) := by
  decide +kernel

/-! ### Core control and mailboxes -/

def k0 : Req := .keeper 0

/-- An idle, enabled core 0 whose dispatch mailbox holds a message: block address a, budget b; memory holds the block. -/
def dispatchState (a b progLen entry : Nat) : State := { one { st := .idle, enable := true } with
  mem := Memory.writeBytes [] 64 (leBytes 8 0x1000 ++ leBytes 4 progLen ++ leBytes 4 entry ++ leBytes 2 2 ++ leBytes 1 1)
  mbx := { full := 1#128 <<< 32, recv := [(32, 0x20)], words := [(257, word a), (260, 7), (261, word b)] } }

theorem witness_DispatchStartsTheCommandOfItsMessage :
    (let good (s : State) := bits (mbxWord s.mbx 32 2).toNat 31 16 == 0 && bits (mbxWord s.mbx 32 3).toNat 31 10 == 0
       && bits (mbxWord s.mbx 32 5).toNat 31 13 == 0 && (mbxWord s.mbx 32 1).toNat % 64 == 0
       && decide (1 ≤ bits (mbxWord s.mbx 32 5).toNat 12 0) && decide (bits (mbxWord s.mbx 32 5).toNat 12 0 ≤ 5000)
     let le (s : State) (off k : Nat) := Memory.le s.mem ((mbxWord s.mbx 32 1).toNat + off) k
     let block (s : State) := le s 0x13 13 == 0 && le s 0x5C 4 == 0 && le s 0x10 2 % 2 == 0 && le s 0 8 % 64 == 0
       && decide (le s 0 8 < 2 ^ 48) && le s 8 4 % 8 == 0 && le s 0xC 4 % 8 == 0 && decide (le s 0xC 4 < le s 8 4)
     let s := dispatchState 64 5000 16 8
     mayDispatch State.reset 0 = false ∧ mayDispatch s 0 = true ∧ good s = true ∧ good (dispatchState 64 5001 16 8) = false ∧
       good (dispatchState 65 1 16 8) = false ∧ good (dispatchState 64 0 16 8) = false ∧ dmaReach s 0 64 352 false = true ∧
       good { s with own := { hbm := [(0, 1)] } } = true ∧ dmaReach { s with own := { hbm := [(0, 1)] } } 0 64 352 false = false ∧
       poisoned s 64 352 = false ∧ poisoned { s with poison := [(51, ())] } 64 352 = true ∧ block s = true ∧
       block (dispatchState 64 1 16 16) = false ∧ good (dispatchState 64 1 16 16) = true) := by decide +kernel

theorem witness_CoreControlWritesActAtTheCommandBoundary :
    isKeeper .sec = false ∧ isKeeper k0 = true ∧ (coreOf (one runner) 0).st = .running ∧
    (coreOf State.reset 0).st ≠ .running ∧ (coreOf State.reset 0).st ≠ .stopping ∧ (coreOf State.reset 0).clearPending = false ∧
    (coreOf (one busyCore) 0).st = .running ∧ (coreOf (one busyCore) 0).d0In ++ (coreOf (one busyCore) 0).d1In ≠ [] := by
  decide +kernel

/-- A waiting core: semaphore 5 has been waited for. -/
def waiter : Core := { runner with swait := some 5 }

theorem witness_WatchdogEndsACommandPastFourBudgets :
    (let c : Core := { runner with cmdBudget := 1, cmdStart := 10 }
     (c.st = .running ∧ 4 * 250 * c.cmdBudget.toNat < 1011 - c.cmdStart) ∧ ¬ (4 * 250 * c.cmdBudget.toNat < 1010 - c.cmdStart) ∧
       holdsReport { one c with tick := 1011 } 0 = false ∧ live c = []) ∧
    (let c : Core := { runner with mq := [tchkE, { tchkE with seq := 1 }] }
     ∀ x ∈ live c, x ≠ tchkE → tchkE.seq < x.seq) ∧
    (coreOf (one waiter) 0).swait = some 5 ∧ rbits (one waiter) (schedRegBase + 4) 15 8 ≠ 0 ∧
    (one waiter).sched.reportedWaits.contains (0, 5) = false ∧ SMap.get? (one waiter).runs 0 = none ∧
    rbits { one waiter with regs := [(schedRegBase + 4, 1)] } (schedRegBase + 4) 15 8 = 0 ∧
    (let s : State := { one { waiter with enable := true } with sems := [(5, { ownerQueue := 16 })] }
     let s1 := hwPost s (semUnitOf 0) 6 (waitReport s 0 5)
     let s2 := { s1 with sched := { s1.sched with reportedWaits := [(0, 5)] } }
     deadlocked s2 0 = true ∧
     deadlocked { s2 with cores := [(0, waiter), (1, { runner with enable := true })] } 0 = false) ∧
    (let s : State := { one waiter with sems := [(5, { ownerQueue := 16 })], runs := [(0, { job := 0, cmd := 0, queue := 16, launched := 0 })] }
     let s1 := hwPost s (semUnitOf 0) 6 (waitReport s 0 5)
     deadlocked { s1 with sched := { s1.sched with reportedWaits := [(0, 5)] } } 0 = false) ∧
    (let s : State := { one { runner with st := .stopping } with
       runs := [(0, { job := 0, cmd := 0, queue := 16, launched := 0, stopped := true })] }
     (coreOf s 0).st = .stopping ∧ (SMap.get? s.runs 0).any Run.stopped = true) := by decide +kernel

/-- Entries of each kind in flight: what completes. -/
theorem witness_EntriesStartAndCompleteInOrder :
    (let e : QEntry := { op := .tld, w := kw 0x10 (2 * 2 ^ 45), pc := 0 }
     let q : Core := { rich with d0 := [e], mq := [entryOf .macc rich (kw 0x23 (2 ^ 13))] }
     queueIn runner .matrix = [] ∧ queueIn q .dma0 = [e] ∧ mayStart q e = true ∧ mayStart { q with d0In := List.replicate 8 e } e = false ∧
       (match startOp (setCore (one q) 0 (setQueue q .dma0 [])) 0 e with | .ok (_, none) => true | _ => false) = true ∧
       (match startOp (one runner) 0 e with | .error _ => true | _ => false) = true ∧
       flightIn runner .element = [] ∧ flightIn { q with mIn := [e] } .matrix = [e] ∧
       (let k : QEntry := { op := .macc, w := kw 0x23 (3 * 2 ^ 51), pc := 0 }
        k.op = .macc ∧ fld k.w 53 51 = 3) ∧ e.discard = false ∧
       (completeTld (one { rich with d0In := [e] }) 0 e).isSome = true ∧
       (match completeTld (one { rich with d0In := [e] }) 0 e with | some (.error _) => true | _ => false) = true ∧
       completeTld (one runner) 0 e = none ∧ completeLrecv (one rich) 0 { e with op := .lrecv } = none ∧
       (match startOp (one rich) 0 { e with op := .tst, w := kw 0x10 (6 * 2 ^ 45) } with
         | .ok (t, none) => (match completeTld t 0 { e with w := kw 0x10 (6 * 2 ^ 45) }, completeTchk t 0 { e with op := .tchk, w := kw 0x10 (6 * 2 ^ 45) } with
           | some (.ok _), some (.ok _) => true
           | _, _ => false)
         | _ => false) = true ∧
       (let m : InMsg := ⟨0x101, 16, 0, 0, 0, 0, 0, 1, List.replicate 256 0, none⟩
        match completeLrecv { richState with inMsgs := [m] } 0 { e with op := .lrecv, w := kw 0x1E 0 } with
         | some (.ok _) => true
         | _ => false) = true) := by decide +kernel

/-- CSEND of core 0 to core 1 and CRECV of core 1 from core 0, in flight, on channel 0: four rows of 256 bytes. -/
def sendE : QEntry := { op := .csend, w := kw 0x1B (3 * 2 ^ 10), pc := 0, v0 := 1 }
def recvE : QEntry := { op := .crecv, w := kw 0x1C (3 * 2 ^ 10), pc := 0, v0 := 0 }
def pair_ (x y : QEntry) : State := two { rich with d0In := [x] } { rich with d0In := [y] }

theorem witness_StreamPairMovesTheSendersRows :
    (let s := pair_ sendE recvE
     oldestStream (coreOf State.reset 0) .csend 1 0 = none ∧ oldestStream (coreOf s 0) .csend 1 0 = some sendE ∧
       oldestStream (coreOf s 1) .crecv 0 0 = some recvE ∧ sendE ∈ inFlight (coreOf s 0) ∧ recvE ∈ inFlight (coreOf s 1) ∧
       strLen (coreOf s 0) sendE = strLen (coreOf s 1) recvE ∧
       (strRead s 0 sendE).2.1 = false) ∧
    strLen rich sendE ≠ strLen rich { recvE with w := kw 0x1C 0 } ∧
    (strRead (two { rich with d0In := [sendE], ecc := [(eccSpad 0, true)], valid := [(0, ())] } rich) 0 sendE).2.1 = true ∧
    recvE ∉ inFlight { rich with d0 := [recvE] } ∧ oldestStream { rich with d0 := [recvE] } .crecv 0 0 = some recvE := by
  decide +kernel

/-- Mailbox 127 allows Keeper hart 0 and the DSP and goes to a receiver. -/
def mail (r : Word) (full : Bool) : State := { State.reset with
  mbx := { senderMask := [(127, BitVec.ofNat 64 (2 ^ 32 + 2 ^ 37))], recv := [(127, r)], full := if full then 1#128 <<< 127 else 0 } }

theorem witness_MailboxWritesPostOrRecordTheRefusal :
    mbxAllows (mail 0 false).mbx 127 .sec = false ∧ maskBit .sec ≠ none ∧ maskBit .isp = none ∧ mbxAllows (mail 0 false).mbx 127 k0 = true ∧
    mbxReceiver (mail 0xFF false).mbx 127 = 0xFF ∧ mbxReceiver (mail 0x08 false).mbx 127 = 0x08 ∧
    mbxReceiver (mail 0x10 false).mbx 127 = 0x10 ∧ mbxReceiver (mail 0x20 false).mbx 127 = 0x20 ∧
    mbxReceiver (mail 0xF000 false).mbx 127 = 0 ∧ mbxFull (mail 0 true).mbx 127 = true ∧ mbxFull (mail 0 false).mbx 127 = false ∧
    bitOf (mail 0 true).mbx.fault.toNat 31 = false ∧ bitOf ({ (mail 0 true).mbx with fault := 0x80000000 } : Mbx).fault.toNat 31 = true := by
  decide +kernel

theorem witness_TakingFreesTheMailboxAndHeldMessagesFollow :
    ¬ (isKeeper .dsp = true ∨ receiverCode .dsp = some (mbxReceiver (mail 0x08 true).mbx 127)) ∧
    receiverCode .sec = some (mbxReceiver (mail 0x08 true).mbx 127) ∧ isKeeper k0 = true ∧
    mbxFull (mail 0x08 true).mbx 127 = true ∧ mbxFull (mail 0x08 false).mbx 127 = false ∧
    (let h : HeldMsg := ⟨0x10, 127, [1, 2, 3, 4, 5, 6, 7, 8]⟩
     ∀ r ∈ ([0x08, 0xFF] : List Nat), (({ (mail (word r) false).mbx with held := [h] } : Mbx).held.find? fun x => x.sender == senderId .dsp) = some h ∧
       mbxFull (mail (word r) false).mbx h.mailbox = false ∧ mbxFull (mail (word r) true).mbx h.mailbox = true) ∧
    ((mail 0 false).mbx.held.find? fun x => x.sender == senderId .dsp) = none := by decide +kernel

theorem witness_RegisterWritesReachTheirRegister :
    regionOf State.reset.board 0x00FFFF000000 = none ∧ (0x00FF00000002 : Nat) % 4 ≠ 0 ∧
    (let r := regionOf State.reset.board 0x00FF00000004
     r = some .sysRegs ∧ reaches .sec true .sysRegs = false ∧ reaches k0 true .sysRegs = true ∧
       (blockWrite State.reset k0 .sysRegs 0x00FF00000010 1).isSome = true ∧
       (blockWrite State.reset k0 .sysRegs 0x00FF00FFFFFC 1).isNone = true) ∧
    reaches (.coreSeq 31) true .mbxRegs = true ∧ reaches .isp true .mbxRegs = false ∧
    mbxLocked { (mail 0 false).mbx with lock := 1#128 <<< 127 } 127 = true := by decide +kernel

/-! ### Host requests -/

/-- A request of association 1 with arguments and tiles. -/
def rq (a : List Byte) (ts : List Tile := []) : Request := { assoc := 1, args := a, tiles := ts }

/-- A Keeper with association 1 of the system principal and association 2 of tenant 1. -/
def kp : Keeper := {
  assocs := [(1, { principal := 0, port := 0 }), (2, { principal := 1, port := 0 })]
  principals := [(0, { perms := 0x3F, limit := 1024 }), (1, { perms := 0x02, limit := 1 })] }

/-- Reset with a Keeper. -/
def withK (k : Keeper) : State := { State.reset with k := k }

/-- Is a request accepted, and does f hold of the state, handle and principal that it is taken with? -/
def onT (code : Nat) (r : Request) (s : State) (f : State → Nat → Nat → Bool) : Bool := match offer s r code with
  | .taken t h p => (permOf code).all (fun k => permitted t p k) && argsFit code r.args && f t h p
  | .refused _ => false

/-- What `onT` shows: the hypotheses of a statement about the request are met together. -/
theorem accepted_of {code : Nat} {r : Request} {s : State} {f : State → Nat → Nat → Bool} (h : onT code r s f = true) :
    ∃ t n p, Accepted code r s t n p ∧ f t n p = true := by
  unfold onT at h
  split at h
  · next t n p e =>
    simp only [Bool.and_eq_true] at h
    exact ⟨t, n, p, ⟨e, h.1.1, h.1.2⟩, h.2⟩
  · exact absurd h (by decide)

/-- One handle slot in every state that R347 knows. -/
def handle1 (st : HandleSt) : Handle :=
  { gen := 1, st := st, principal := 0, part := 0, assoc := 1, code := 1, tickAccept := 0 }

theorem witness_RequestsAreOfferedAndCheckedBeforeTheyAct :
    SMap.get? State.reset.k.assocs 1 = none ∧ principalOf (withK kp) 0 = some { perms := 0x3F, limit := 1024 } ∧
    principalOf (withK kp) 9 = none ∧ freeSlot (withK kp) = some 0 ∧ handlesAll (withK kp) < 4096 ∧
    (let s := withK { kp with handles := [(0, { handle1 .opened with principal := 1 })] }
     1 ≤ handlesOf s 1 ∧ principalOf s 1 = some { perms := 0x02, limit := 1 } ∧ handlesOf (withK kp) 1 < 1) ∧
    permOf 0x01 = some 0 ∧ permitted (withK kp) 1 0 = false ∧ permitted (withK kp) 1 1 = true ∧ permOf 0x07 = none ∧
    (∀ c ∈ (requestRows []).map Prod.snd, argsFit c [] = false) ∧ argsFit 0x21 [1] = true := by decide +kernel

theorem witness_CompletionSendsOneRecordOrHoldsIt :
    handleOf (withK kp) 1 = none ∧
    (let s (st : HandleSt) := withK { kp with handles := [(0, handle1 st)] }
     handleOf (s .opened) 1 = some (handle1 .opened) ∧ (handle1 .opened).record = none ∧ handleOf (s .done) 1 = some (handle1 .done) ∧
       recordRoute (s .opened) (handle1 .opened) = some 1 ∧
       recordRoute (withK { kp with assocs := [] }) (handle1 .opened) = none ∧ assocLive (s .opened) 1 = true) := by decide +kernel

/-- A model of partition 0 and its key. -/
def mdl : Model := { part := 0, kind := 4, graphs := [(1, [{ id := 0, program := 0, budget := 1 }])] }
def km : Keeper := { kp with models := [(3, mdl)] }

/-- QUEUE_CREATE of model 3, with nothing else set; and with 8 streams. -/
def qCreate (streams : Nat) : Request := rq (leBytes 2 3 ++ List.replicate 6 0 ++ leBytes 2 streams ++ List.replicate 10 0)

/-- A schedule of one sector of 10 µs units: start 0, queue 16, given length, core 0. -/
def sched1 (period len : Nat) : Request :=
  rq (leBytes 4 period ++ [1] ++ List.replicate 11 0 ++ leBytes 4 (2 ^ 31 + 16) ++ leBytes 4 len ++ leBytes 4 1 ++ leBytes 4 0)

def kq : Keeper := { km with queues := [(16, { part := 0, model := 3 }), (17, { part := 1 }), (18, { part := 0, destroy := some 9 })] }

theorem witness_QueueRequestsCreateDestroyAndSetQueues :
    onT 0x03 (qCreate 0) (withK kp) (fun t _ p => (liveModel t (modelKey p 3)).isNone) = true ∧
    onT 0x03 (qCreate 0) (withK km) (fun t _ p => (liveModel t (modelKey p 3)).isSome &&
      streamOk (queueFrom p 3 (qCreate 0).args) 4 && (createQueue t (queueFrom p 3 (qCreate 0).args) []).isSome) = true ∧
    onT 0x03 (qCreate 8) (withK km) (fun _ _ p => !streamOk (queueFrom p 3 (qCreate 8).args) 4) = true ∧
    onT 0x03 (qCreate 0) { withK km with own := { hbm := (span 0 32).map fun u => (u, 1) } } (fun t _ p =>
      (createQueue t (queueFrom p 3 (qCreate 0).args) (routesOf (qCreate 0).args)).isNone) = true ∧
    (∀ q ∈ ([15, 16, 17, 18, 1023] : List Nat), onT 0x04 (rq (leBytes 2 q)) (withK kq) (fun _ _ _ => true) = true) ∧
    queueAt (withK kq) 16 = some { part := 0, model := 3 } ∧ queueAt (withK kq) 1023 = none ∧
    (queueAt (withK kq) 18).any (fun v => v.destroy.isSome) = true ∧
    onT 0x05 (rq (leBytes 2 16 ++ [15, 1, 7, 16] ++ leBytes 2 0x100)) (withK kq) (fun t _ p => (rotOf t p).period == 0) = true ∧
    onT 0x05 (rq (leBytes 2 16 ++ [4, 0, 0, 1] ++ leBytes 2 0)) { withK kq with sched := { rots := [(0, { period := 100 })] } }
      (fun t _ p => (rotOf t p).period != 0) = true ∧
    onT 0x05 (rq (leBytes 2 15 ++ [1, 1, 0, 0] ++ leBytes 2 0)) (withK { kq with queues := [(15, { part := 0, cls := 2 })] })
      (fun t _ p => (queueAt t 15).any fun v => v.part == p && v.destroy.isNone) = true := by decide +kernel

theorem witness_QueueRequestsSchedule :
    onT 0x06 (rq (List.replicate 5 0)) (withK kq) (fun t _ p => freeRange t p 0 == some 0 && tableOk t p 0 0 0 [] && jobsFit t p 0 []) = true ∧
    onT 0x06 (sched1 100 101) (withK kq) (fun t _ p => freeRange t p 1 == some 0 &&
      !tableOk t p 100 1 0 [(0, sectorOfBytes (part (sched1 100 101).args 16 16))]) = true ∧
    onT 0x06 (sched1 100 50) { withK kq with sched := { rots := [(1, { count := 256, first := 0 }), (2, { count := 256, first := 256 })] } }
      (fun t _ p => freeRange t p 1 == none) = true ∧
    (let s := withK { kq with
       queues := [(16, { part := 0, model := 3, cls := 1 })]
       jobs := [(0, { handle := 1, part := 0, queue := 16, model := 3, cmds := [{ g := { id := 0, program := 0, budget := 5000 } }] })] }
     jobsFit s 0 100 [(0, { valid := true, queue := 16, length := 50, coreSet := 1 })] = false) := by decide +kernel

/-- A tile of one byte with its tag. -/
def tile1 (fmt origin ix : Nat) : Tile := ⟨tagBytes [7] fmt origin 0 ix, [7]⟩

/-- LOAD_MODEL of n tiles from the host, or of an image of the store. -/
def loadRq (image n : Nat) (ts : List Tile) : Request := rq (leBytes 4 image ++ List.replicate 20 0 ++ leBytes 4 n) ts

/-- A drive that holds image 5 in entry 0. -/
def diskState (k : Keeper) : State := { withK k with pcie := { store :=
  { enumerated := true, formatted := true, dir := [(0, ⟨5, false, true, 0, 65, 1, 10, 0, 0, 0, false, none⟩)], bytes := [(0, [1])] } } }

/-- An opening with handle 9 whose tiles come from the host, last at tick 0. -/
def open9 : Opening := { handle := 9, store := false, part := 0, args := [], head := [], n := 2 }
def k9 : Keeper := { kp with openings := [open9], handles := [(0, { handle1 .opened with gen := 9 })] }

theorem witness_ImagesAreLoadedStoredAndUnloaded :
    onT 0x01 (loadRq 0xFFFFFFFF 1 [tile1 0x0B 2 0]) (withK kp) (fun _ _ _ => true) = true ∧
    onT 0x01 (loadRq 5 0 []) (withK kp) (fun t _ _ => !storeHere t) = true ∧
    onT 0x01 (loadRq 6 0 []) (diskState kp) (fun t _ _ => storeHere t && (imageEntry t 6).isNone && (imageEntry t 5).isSome) = true ∧
    onT 0x08 (rq (leBytes 4 4095 ++ leBytes 4 16777216)) (withK kp) (fun t _ _ => !storeHere t) = true ∧
    onT 0x08 (rq (leBytes 4 1 ++ leBytes 4 1)) (diskState kp) (fun t _ _ => storeHere t) = true ∧
    onT 0x07 (rq (leBytes 4 8 ++ leBytes 4 0)) (withK k9) (fun t _ p => (openFor t 8 p).isNone) = true ∧
    (∀ x ∈ ([(0, [tile1 0x0B 2 0]), (1, [tile1 0x0B 2 1, tile1 0x0B 2 2]), (1, [tile1 0x0B 2 1]), (1, [tile1 1 2 1])] : List (Nat × List Tile)),
      onT 0x07 (rq (leBytes 4 9 ++ leBytes 4 x.1) x.2) (withK k9) (fun t _ p => openFor t 9 p == some open9) = true) ∧
    badTiles [tile1 0x0B 2 1] 2 1 isImageTile = [] ∧ badTiles [tile1 1 2 1] 2 1 isImageTile = [0] ∧
    onT 0x02 (rq (leBytes 2 3)) (withK km) (fun t _ p => (modelAt t (modelKey p 3)).any fun x => x.unload.isNone) = true ∧
    onT 0x02 (rq (leBytes 2 4)) (withK km) (fun t _ p => (modelAt t (modelKey p 4)).isNone) = true ∧
    onT 0x02 (rq (leBytes 2 3)) (withK { kp with models := [(3, { mdl with unload := some 1 })] }) (fun t _ p =>
      (modelAt t (modelKey p 3)).any fun x => x.unload.isSome) = true ∧
    openingOf (withK k9) 9 = some open9 ∧ open9.lastTile + 60 * ticksPerSecond ≤ 15000000000 ∧
    ¬ open9.lastTile + 60 * ticksPerSecond ≤ 14999999999 ∧ openingOf (withK kp) 9 = none := by decide +kernel

/-- An NVMe command of entry 0 and handle 9 that has failed f times. -/
def nvmeState (w : Bool) (f : Nat) : State := { diskState { kp with openings := [{ open9 with image := 5 }] } with
  pcie := { (diskState kp).pcie with store := { (diskState kp).pcie.store with cmds := [⟨4, 9, 0, w, f⟩] } } }

theorem witness_NvmeCommands :
    (∀ x ∈ ([(true, 0), (true, 1), (false, 2), (false, 3)] : List (Bool × Nat)),
      ((nvmeState x.1 x.2).pcie.store.cmds.find? fun c => c.id == 4) = some ⟨4, 9, 0, x.1, x.2⟩ ∧
        (openingOf (nvmeState x.1 x.2) 9).isSome = true) ∧
    ((nvmeState true 0).pcie.store.cmds.find? fun c => c.id == 5) = none ∧ openingOf (diskState kp) 9 = none ∧
    (0 + 1 < 2 ∧ ¬ (1 + 1 < 2) ∧ 2 + 1 < 4 ∧ ¬ (3 + 1 < 4)) := by decide +kernel

theorem witness_StoreRequestsDeleteListAndFormat :
    onT 0x09 (rq (leBytes 4 5)) (withK kp) (fun t _ _ => !storeHere t) = true ∧
    onT 0x09 (rq (leBytes 4 6)) (diskState kp) (fun t _ _ => storeHere t && (imageEntry t 6).isNone) = true ∧
    onT 0x09 (rq (leBytes 4 5)) (diskState kp) (fun t _ _ => storeHere t && (imageEntry t 5).any (fun x => x.1 == 0)
      && t.pcie.store.cmds.all (fun c => c.entry != 0 || c.write) && (SMap.get? t.pcie.store.dir 0).isSome) = true ∧
    onT 0x0A (rq (leBytes 4 0 ++ leBytes 4 4095)) (withK kp) (fun t _ _ => !storeHere t) = true ∧
    onT 0x0A (rq (leBytes 4 0 ++ leBytes 4 1)) (diskState kp) (fun t _ _ => storeHere t) = true ∧
    onT 0x0B (rq (leBytes 4 0x464D5453)) (withK kp) (fun t _ _ => !driveHere t) = true ∧
    onT 0x0B (rq (leBytes 4 0x464D5453)) (diskState kp) (fun t _ _ => driveHere t && !storeBusy t) = true ∧
    onT 0x0B (rq (leBytes 4 0x464D5453)) (nvmeState false 0) (fun t _ _ => driveHere t && storeBusy t) = true := by decide +kernel

/-- A stream model, its queue, and session 0 on it. -/
def kstream : Keeper := { kp with
  models := [(3, { part := 0, kind := 2 })]
  queues := [(16, { part := 0, model := 3, sCap := 1, ringCap := 2 })]
  sessions := [(0, { part := 0, model := 3, queue := 16 }), (1, { part := 1, model := 3 }), (2, { part := 0, model := 3, closing := some 7 })] }
def ktext : Keeper := { kp with models := [(3, { part := 0, kind := 4 })] }
def openRq (m q fmt : Nat) : Request := rq (leBytes 2 m ++ leBytes 2 q ++ leBytes 1 fmt)

theorem witness_SessionRequestsOpenFeedAndClose :
    onT 0x10 (openRq 3 0xFFFF 0xFF) (withK kp) (fun t _ p => (liveModel t (modelKey p 3)).isNone) = true ∧
    onT 0x10 (openRq 3 0xFFFF 0xFF) (withK ktext) (fun t _ p => (liveModel t (modelKey p 3)).any fun m => !isStream m &&
      queueArgOk t 3 0xFFFF m && newPlace t 3 0xFFFF m == some 0 && SMap.firstFree t.k.sessions 0 65536 == some 0 &&
      (makeSession t { part := p, model := 3, queue := 0xFFFF, sealFmt := m.sealFmt, place := 0, lastRef := t.tick } m 0).isSome &&
      (frontOfModel t 3).isNone) = true ∧
    onT 0x10 (openRq 3 16 0) (withK ktext) (fun t _ p => (liveModel t (modelKey p 3)).any fun m => !queueArgOk t 3 16 m) = true ∧
    onT 0x10 (openRq 3 16 0) (withK kstream) (fun t _ p => (liveModel t (modelKey p 3)).any fun m => isStream m &&
      (queueAt t 16).any (fun v => v.part == p) && queueArgOk t 3 16 m && (newPlace t 3 16 m).isNone) = true ∧
    (∀ n ∈ ([0, 1, 2, 3] : List Nat), onT 0x11 (rq (leBytes 4 n)) (withK kstream) (fun _ _ _ => true) = true ∧
      onT 0x12 (rq (leBytes 4 n ++ [0xFF, 1])) (withK kstream) (fun _ _ _ => true) = true ∧
      onT 0x12 (rq (leBytes 4 n ++ [1, 0])) (withK kstream) (fun _ _ _ => true) = true ∧
      onT 0x14 (rq (leBytes 4 n ++ leBytes 4 1 ++ leBytes 4 0) [tile1 1 1 0]) (withK kstream) (fun _ _ _ => true) = true) ∧
    (sessionAt (withK kstream) 0).any (fun v => v.part == 0 && v.closing.isNone) = true ∧
    (sessionAt (withK kstream) 1).any (fun v => v.part != 0) = true ∧
    (sessionAt (withK kstream) 2).any (fun v => v.closing.isSome) = true ∧ sessionAt (withK kstream) 3 = none ∧
    (modelAt (withK kstream) 3).any (fun m => bitOf m.flags 0 || m.sealFmt == 1) = false ∧
    ((modelAt (withK { kstream with models := [(3, { part := 0, kind := 2, flags := 1 })] }) 3).any fun m => bitOf m.flags 0) = true := by
  decide +kernel

/-- SUBMIT_INPUT of frames of one tile into a ring of two that holds r frames; a context that is full. -/
theorem witness_SubmitInput :
    (let s (r : Nat) := withK { kstream with sessions := [(0, { part := 0, model := 3, queue := 16, ring := List.replicate r ⟨tile1 1 1 0, false⟩ })] }
     liveModel (s 0) 3 = some { part := 0, kind := 2 } ∧ (queueAt (s 0) 16).isSome = true ∧ liveModel (withK kp) 3 = none ∧
       badTiles [tile1 1 1 0] 1 0 (fun f => f == 1) = [] ∧
       (∀ r ∈ ([1, 2] : List Nat), (sessionAt (s r) 0).any (fun v => !contextFull (s r) 0 v 1 && decide (v.ring.length + 1 ≤ 2) == (r == 1)) = true)) ∧
    (let s := withK { kstream with models := [(3, { part := 0, kind := 1 })] }
     (sessionAt s 0).any (fun v => contextFull s 0 v 1) = true) := by decide +kernel

/-! ### Jobs -/

/-- INVOKE of kind k on a queue, with a session (0xFFFFFFFF: none) and n input tiles announced. -/
def invokeRq (q k ses n : Nat) (ts : List Tile) : Request :=
  rq (leBytes 2 q ++ leBytes 2 k ++ leBytes 4 ses ++ [0, 0] ++ leBytes 2 n ++ List.replicate 64 0) ts

/-- Session 0 of model 3 of the system, session 1 of another partition, session 2 of model 4. -/
def kj : Keeper := { kq with sessions := [(0, { part := 0, model := 3 }), (1, { part := 1, model := 3 }), (2, { part := 0, model := 4 })] }

/-- A queue whose ring holds n jobs. -/
def kRing (n : Nat) : Keeper := { km with
  queues := [(16, { part := 0, model := 3, jobs := span 0 n, wptr := n % 256 })]
  jobs := (span 0 n).map fun j => (j, { handle := 1, part := 0, queue := 16, model := 3, ring := some j }) }

theorem witness_JobsAreInvokedCancelledAndRead :
    (∀ q ∈ ([15, 16, 17, 18, 19] : List Nat), onT 0x13 (invokeRq q 1 0xFFFFFFFF 0 []) (withK kj) (fun t _ _ =>
      (liveModel (repoint t q) 3).isSome) = true) ∧
    queueAt (repoint (withK kj) 16) 19 = none ∧ (queueAt (repoint (withK kj) 17) 17).any (fun v => v.part != 0) = true ∧
    onT 0x13 (invokeRq 16 1 0xFFFFFFFF 0 []) (withK { kj with models := [] }) (fun t _ _ => (liveModel (repoint t 16) 3).isNone) = true ∧
    graphFor (withK kj) 0 mdl 2 = none ∧ graphFor (withK kj) 0 mdl 1 = some [{ id := 0, program := 0, budget := 1 }] ∧
    onT 0x13 (invokeRq 16 1 0 1 [tile1 1 1 0]) (withK kj) (fun t _ p => (queueAt (repoint t 16) 16).any fun v =>
      (sessionAt (repoint t 16) 0).any (fun x => x.part == p && x.closing.isNone && sameModel (repoint t 16) x.model v.model
        && !contextFull (repoint t 16) 0 x 1) && badTiles [tile1 1 1 0] 1 0 knownFormat == [] && decide (ringJobs t v < 256)
        && budgetsFit (repoint t 16) p 16 v (rotOf t p).table (rotOf t p).period [1]
        && !aboveCeiling t (neededMode t { handle := 1, part := 0, queue := 16, model := 3, cmds := [{ g := { id := 0, program := 0, budget := 1 } }] })) = true ∧
    badTiles [tile1 1 2 0] 1 0 knownFormat = [0] ∧
    onT 0x13 (invokeRq 16 1 0xFFFFFFFF 0 []) (withK kj) (fun t _ _ =>
      aboveCeiling { t with power := { t.power with ceiling := some .beacon } } .lantern) = true ∧
    onT 0x17 (rq (leBytes 4 1 ++ leBytes 4 0 ++ leBytes 4 5)) (withK { kj with handles := [(0, { handle1 .done with outs := [tile1 1 4 0] })] })
      (fun t _ p => (handleOf t 1).any fun x => x.principal == p && x.outs.length == 1) = true ∧
    onT 0x17 (rq (leBytes 4 7 ++ leBytes 4 0 ++ leBytes 4 5)) (withK kj) (fun t _ _ => (handleOf t 7).isNone) = true := by decide +kernel

theorem witness_RingOf256 : ringJobs (withK (kRing 256)) { part := 0, jobs := span 0 256 } = 256 ∧
    ringJobs (withK (kRing 255)) { part := 0, jobs := span 0 255, wptr := 255 } < 256 := by decide +kernel

theorem witness_InvokeBudgets : (let s := withK { kj with sessions := [] }
      budgetsFit s 0 16 { part := 0, cls := 1 } [(0, { valid := true, queue := 16, length := 1, coreSet := 1 })] 100 [11] = false ∧
      budgetsFit s 0 16 { part := 0, cls := 1 } [(0, { valid := true, queue := 16, length := 1, coreSet := 1 })] 100 [10] = true) := by
  decide +kernel

theorem witness_CancelAndQuery :
    SMap.get? State.reset.k.assocs 1 = none ∧ (SMap.get? (withK kj).k.assocs 1).isSome = true ∧ argsOk [1] [(0, 4)] = false ∧
    argsOk (leBytes 4 1) [(0, 4)] = true ∧
    (∀ st ∈ ([.opened, .done, .released] : List HandleSt), handleOf (withK { kj with handles := [(0, handle1 st)] }) 1 = some (handle1 st)) ∧
    handleOf (withK kj) 1 = none ∧
    (let s := withK { kj with handles := [(0, handle1 .opened)], jobs := [(5, { handle := 1, part := 0, queue := 16, model := 3 })] }
     (handle1 .opened).record = none ∧ (s.k.jobs.find? fun j => j.2.handle == 1) = some (5, { handle := 1, part := 0, queue := 16, model := 3 })) ∧
    ({ handle1 .done with record := some { handle := 1, status := 0, request := 1, tickDone := 0, tickAccept := 0 } } : Handle).record.isSome = true := by
  decide +kernel

/-- Job 0 of session 0. -/
def job0 : Job := { handle := 1, part := 0, queue := 16, model := 3, kind := 1, session := some 0 }
def kAdmit (x : Job) (v : Session) : Keeper := { kq with jobs := [(0, x)], sessions := [(0, v)], jobNext := 1 }
def ses0 : Session := { part := 0, model := 3, jobs := [0] }

theorem witness_JobsAreAdmittedReingestedAndRescaled :
    jobAt (withK kj) 0 = none ∧
    (let s := withK (kAdmit job0 ses0)
     jobAt s 0 = some job0 ∧ job0.admitted = false ∧ job0.cancelled = false ∧ (remodel (repoint s 16) 0 job0).map Prod.snd = some job0 ∧
       sessionAt s 0 = some ses0 ∧ ses0.jobs.head? = some 0 ∧ ses0.reingest = none ∧ ses0.model = job0.model ∧
       contextFull s 0 ses0 (mayAdd ses0 job0) = false) ∧
    (let s := withK { kAdmit job0 ses0 with models := [(3, mdl), (4, { part := 0 })], queues := [(16, { part := 0, model := 3, nextModel := some 4 })] }
     (remodel (repoint s 16) 0 job0).isNone = true) ∧
    (let s := withK { kAdmit { job0 with limit := 9 } ses0 with models := [(3, { part := 0, kind := 1, logLimit := 8, layout := 1 })] }
     contextFull s 0 ses0 (mayAdd ses0 { job0 with limit := 9 }) = true) := by decide +kernel

theorem get?_span (v : Sem) : ∀ (n lo x : Nat), lo ≤ x → x < lo + n → SMap.get? ((span lo n).map fun k => (k, v)) x = some v := by
  intro n
  induction n with
  | zero => intro lo x h g; omega
  | succ n ih =>
    intro lo x h g
    simp only [span, List.map_cons, SMap.get?]
    split
    · rfl
    · next e => rw [if_neg (by omega)]; exact ih (lo + 1) x (by omega) (by omega)

theorem firstFree_none (m : SMap Sem) : ∀ (n lo : Nat), (∀ x, lo ≤ x → x < lo + n → (SMap.get? m x).isSome = true) →
    SMap.firstFree m lo n = none := by
  intro n
  induction n with
  | zero => intro lo _; rfl
  | succ n ih =>
    intro lo h
    have h0 := h lo (by omega) (by omega)
    simp only [SMap.firstFree]
    split
    · next e => rw [e] at h0; exact absurd h0 (by decide)
    · exact ih (lo + 1) fun x a b => h x (by omega) (by omega)

theorem noSems (s : State) (h : SMap.firstFree s.sems 0 semCount = none) : allocSems s 0 16 [0] = none := by
  simp only [allocSems, h]

def allSems : SMap Sem := (span 0 1024).map fun k => (k, ({} : Sem))

def allSemsState : State := { State.reset with sems := allSems }

theorem allSems_full : SMap.firstFree allSems 0 semCount = none := by
  apply firstFree_none
  intro x a b
  rw [show SMap.get? allSems x = some {} from get?_span {} 1024 0 x a b]
  rfl

/-- All 1,024 semaphores are allocated. -/
theorem witness_SemaphoresAllTaken : ∃ s : State, allocSems s 0 16 [0] = none :=
  ⟨allSemsState, noSems allSemsState allSems_full⟩

theorem witness_SessionReingest :
    (let v := { ses0 with reingest := some 0, tokens := [1] }
     let s := withK (kAdmit job0 v)
     sessionAt s 0 = some v ∧ v.cold = false ∧ jobAt s 0 = some job0 ∧ job0.refill = false ∧ job0.started = false ∧
       (reserveKv (withK (kAdmit job0 { v with cold := true })) 0).isSome = true ∧
       (reserveKv (withK { kAdmit job0 { v with cold := true } with models := [] }) 0).isNone = true) := by decide +kernel

theorem witness_ScaleShift :
    (let s := withK { kj with rescales := [⟨3, 65535, 1⟩] }
     (s.k.rescales.find? fun r => r.model == 3 && r.tensor == 65535) = some ⟨3, 65535, 1⟩ ∧ s.k.jobs = [] ∧
       ((withK kj).k.rescales.find? fun r => r.model == 3 && r.tensor == 65535) = none) ∧
    (let s := withK { kAdmit { job0 with started := true } ses0 with rescales := [⟨3, 0, 1⟩] }
     (s.k.jobs.any fun x => x.2.model == 3 && x.2.started) = true) := by decide +kernel

/-! ### Tenants, records, updates, placements -/

/-- TENANT_CREATE of tenant t with cores, units and permissions. -/
def tenantRq (t cores units : Nat) : Request :=
  rq (leBytes 1 t ++ [3] ++ leBytes 2 100 ++ leBytes 4 cores ++ leBytes 4 0 ++ leBytes 4 units ++ leBytes 4 0 ++ List.replicate 524 0)
/-- A device in FIELD. -/
def field (s : State) : State := { s with otp := { s.otp with lcField := 0xFF } }
def ten1 : Tenant := { perms := 3, limit := 10, cores := 12, ways := 0, chans := 0, units := 1, sensors := 0 }

theorem witness_TenantCreate :
    onT 0x20 (tenantRq 1 12 1) (withK kp) (fun u _ _ => lifeCycle u != 2) = true ∧
    (∀ c ∈ ([13, 12] : List Nat), onT 0x20 (tenantRq 1 c 1) (field (withK { kp with principals := [] })) (fun u _ _ => lifeCycle u == 2
      && u.k.lifeChange.isNone && tenantArgsOk u (tenantRq 1 c 1).args == (c == 12)) = true) ∧
    (let u := field (withK kp)
     u.secStore.deviceKey = none ∧ namedFree u 1 ten1 = true ∧ (clearNamed u ten1).isSome = true ∧ u.sec.trngFail = false ∧
       namedFree { u with own := { core := [(3, 2)] } } 1 ten1 = false) := by decide +kernel

/-- With a device key whose CAK blob decrypts, which the cryptography decides (a free value), all of a good creation's premises
hold together. -/
theorem witness_TenantCreateGood (hk : Config.oaepOk [1] (List.replicate 512 0) = true) :
    onT 0x20 (tenantRq 1 12 1) (field { withK { kp with principals := [] } with secStore := { deviceKey := some [1] } }) (fun u _ _ =>
      lifeCycle u == 2 && u.k.lifeChange.isNone && tenantArgsOk u (tenantRq 1 12 1).args && u.secStore.deviceKey == some [1]
        && part (tenantRq 1 12 1).args 32 512 == List.replicate 512 0
        && namedFree u 1 (tenantFrom (tenantRq 1 12 1).args) && (clearNamed u (tenantFrom (tenantRq 1 12 1).args)).isSome) = true ∧
    Config.oaepOk [1] (List.replicate 512 0) = true := ⟨by decide +kernel, hk⟩

/-- Tenant 1 with cores 0 to 3, its quench, and member 0x102 awaited. -/
def quenchState (q : Quench) (c : Core) : State := { one c with
  own := { core := [(0, 1)] }
  secStore := { tenants := [(1, ten1)] }
  k := { kp with quenches := [(1, q)], rotations := [(1, { gen := 1, active := true, rewrites := [0], origin := 0 })] } }

theorem witness_TenantsAreCreatedQuenchedAndRotated :
    (∀ t ∈ ([1, 8] : List Nat), onT 0x21 (rq [BitVec.ofNat 8 t]) { withK kp with secStore := { tenants := [(1, ten1)] } } (fun u _ _ =>
      (SMap.get? u.secStore.tenants t).isSome == (t == 1) && (SMap.get? u.k.quenches t).isNone) = true) ∧
    SMap.get? State.reset.k.quenches 1 = none ∧ SMap.get? State.reset.k.rotations 1 = none ∧
    (let s := quenchState {} {}
     SMap.get? s.k.quenches 1 = some {} ∧ tenantDrained s 1 = true ∧ tenantDrained (quenchState {} runner) 1 = false ∧
       (SMap.get? (quenchState { zeroised := true } {}).k.quenches 1).any (fun q => q.zeroised && !q.scrubbed) = true ∧
       258 ∉ ({} : Quench).acks1 ∧ 258 ∈ ({ acks1 := [258] } : Quench).acks1 ∧
       SMap.get? s.k.rotations 1 = some { gen := 1, active := true, rewrites := [0], origin := 0 } ∧ s.fab.addr = 0) ∧
    ({ gen := 1, active := true, rewrites := [0], origin := 0x101 } : KeyRot).origin ≠ 0 ∧ ({ gen := 1 } : KeyRot).active = false := by
  decide +kernel

theorem witness_RecordsCalibrationAttestationAndTelemetryAnswer :
    onT 0x23 (rq (leBytes 4 0xFFFFFFFF ++ leBytes 4 1)) (withK kp) (fun _ _ _ => true) = true ∧
    onT 0x23 (rq (leBytes 4 0xFFFFFFFF ++ leBytes 4 2)) (withK kp) (fun _ _ _ => true) = true ∧
    onT 0x23 (rq (leBytes 4 0 ++ leBytes 4 65536)) (withK kp) (fun _ _ _ => true) = true ∧
    (∀ f ∈ ([0, 1, 2] : List Nat), onT 0x24 (rq (leBytes 2 0x300 ++ leBytes 1 f ++ [4, 1, 2, 3, 4])) (withK kp) (fun _ _ _ => true) = true) ∧
    onT 0x26 (rq (List.replicate 32 1 ++ leBytes 4 255)) (withK kp) (fun t _ _ => t.secStore.deviceKey.isNone) = true ∧
    onT 0x26 (rq (List.replicate 32 1 ++ leBytes 4 0)) { withK kp with secStore := { deviceKey := some [1], cert := some [2] } }
      (fun t _ _ => t.secStore.deviceKey == some [1] && t.secStore.cert == some [2]) = true ∧
    (∀ ms ∈ ([10, 10000] : List Nat), onT 0x27 (rq (leBytes 4 ms ++ leBytes 4 0x3E)) (withK kp) (fun _ _ _ => true) = true) ∧
    (State.reset.log.dropped = 0 ∧ ({ dropped := 1 } : Logbook).dropped ≠ 0 ∧ (250000000 : Nat) / ticksPerSecond ≠ ({} : Logbook).second ∧
      (249999999 : Nat) / ticksPerSecond = ({} : Logbook).second) := by decide +kernel

/-- UPDATE of a class and action with an argument at byte 4 and one at byte 8. -/
def updRq (cls act a4 a8 : Nat) : Request := rq (leBytes 1 cls ++ leBytes 1 act ++ [0, 0] ++ leBytes 4 a4 ++ leBytes 4 a8) [tile1 0x0B 1 0]

theorem witness_UpdatesActByTheirClass :
    (∀ x ∈ ([(0, 0, 0, 0), (3, 0, 0, 0), (0, 1, 0, 0), (3, 2, 0, 0), (0x10, 0, 15, 0), (0x20, 0, 3, 4), (0x30, 0, 8, 0), (0x40, 0, 2, 0),
      (0x41, 3, 0, 0), (0x50, 0, 1, 0), (0x51, 0, 1, 1)] : List (Nat × Nat × Nat × Nat)),
      onT 0x25 (updRq x.1 x.2.1 x.2.2.1 x.2.2.2) (withK kp) (fun t _ _ => !inTrial t 0 && lifeCycle t == 1 && t.k.lifeChange.isNone) = true ∧
      onT 0x25 (updRq x.1 x.2.1 x.2.2.1 x.2.2.2) { withK kp with boot := { fw := [(x.1, { state := 1 })] }, otp := { lcField := 0xFF, serviceIn := 1 } }
        (fun t _ _ => inTrial t x.1 && lifeCycle t == 3) = true) ∧
    badTiles [tile1 0x0B 1 0] 1 0 (fun f => f == 0x0B) = [] ∧ badTiles [tile1 1 1 0] 1 0 (fun f => f == 0x0B) = [0] ∧
    SMap.get? State.reset.secStore.tenants 8 = none ∧ lifeCycle (field State.reset) ≠ 1 ∧ freeChange State.reset 2 = false ∧
    (∃ c, c < 4 ∧ (fwOf { State.reset with boot := { fw := [(3, { state := 1 })] } } c).state ≠ 0) := by
  refine ⟨by decide +kernel, by decide +kernel, by decide +kernel, by decide +kernel, by decide +kernel, by decide +kernel, 3, by decide, by decide +kernel⟩

/-- A fabric head at 0x001 (segment 0, station 1) with member 2, and an image in the store. -/
def headState : State := { diskState kp with
  regs := [(hostCtrl, 0x21)]
  fab := { addr := 1, light := [(0, { address := 1, state := 1 }), (1, { address := 2, state := 1 })] } }
/-- FABRIC_PLACE of image 5 on this device alone. -/
def placeRq (image : Nat) : Request := rq (leBytes 4 image ++ List.replicate 20 0 ++ [0, 1] ++ List.replicate 6 0 ++ leBytes 2 1 ++ List.replicate 6 0)

theorem witness_PlacementsAndLeavesStart :
    onT 0x28 (placeRq 5) (withK kp) (fun t _ _ => (planImage t (planFrom t (placeRq 5).args [])).isNone) = true ∧
    onT 0x28 (placeRq 5) headState (fun t _ _ => planImage t (planFrom t (placeRq 5).args []) == some [1] &&
      addressesAre t (planFrom t (placeRq 5).args [1]) && partOk t (planFrom t (placeRq 5).args [1]) && t.fab.fronts.isEmpty) = true ∧
    onT 0x28 (placeRq 5) { headState with fab := { addr := 2 } } (fun t _ _ => !addressesAre t (planFrom t (placeRq 5).args [1])) = true ∧
    (match loadStage headState 65536 0 (planFrom headState (placeRq 5).args [1]) [1] with | .error e => e == 0x16 | _ => false) = true ∧
    (∀ x ∈ ([(2, 0), (2, 1), (3, 0), (2, 2)] : List (Nat × Nat)), onT 0x29 (rq (leBytes 2 x.1 ++ leBytes 2 x.2 ++ [1])) headState (fun t _ _ =>
      fabricHead t && memberAt t 2 && memberAt t 1 && !memberAt t 3) = true) ∧
    onT 0x29 (rq (leBytes 2 2 ++ leBytes 2 0 ++ [0])) (withK kp) (fun t _ _ => !fabricHead t) = true := by decide +kernel

/-- The plan suits the image whatever credit the image asks for: 0 credits stand for what it asks for. -/
theorem witness_PlanFits : planFits (planFrom headState (placeRq 5).args [1]) [1] = true := by
  have h : (planFrom headState (placeRq 5).args [1]).credits = Config.creditNeed [1] := rfl
  have g : readImage (storedParts [1]).1 (storedParts [1]).2.1 = none := by decide +kernel
  unfold planFits
  rw [h]
  simp only [g, Option.all_none, Nat.le_refl, decide_true, Bool.and_self]

/-! ### Sectors, tiers, PCIe, host ports, TCT -/

/-- Partition 8's rotation of 10 units with a sector 511 of queue 16, start 0 and length 10, at device tick t. -/
def rotState (t : Nat) (x : Sector) (opened : List Nat) (o : List OpenSector) : State := { withK kq with
  tick := t
  sched := { rots := [(8, { period := 10, table := [(511, x)], opened := opened, lastStart := 2500 })], open_ := o } }
def sec10 : Sector := { valid := true, queue := 16, length := 10 }
def open511 : OpenSector := { part := 8, ix := 511, openedAt := 2500 }

theorem witness_SectorsOpenAndCloseByTheTable :
    (rotOf State.reset 8).period = 0 ∧
    (let s := rotState 27499 sec10 [] []
     (rotOf s 8).period ≠ 0 ∧ s.tick < (rotOf s 8).lastStart + (rotOf s 8).period * schedUnit) ∧
    (let s := rotState 27500 sec10 [] []
     (rotOf s 8).period ≠ 0 ∧ (rotOf s 8).lastStart + (rotOf s 8).period * schedUnit ≤ s.tick ∧
       2500 + sec10.length * schedUnit ≤ s.tick) ∧
    ((511 : Fin 512).val ∈ (rotOf (rotState 2500 sec10 [511] []) 8).opened) ∧
    (let s := rotState 2500 sec10 [] []
     (SMap.getD (rotOf s 8).table 511 {}) = sec10 ∧ sec10.valid = true ∧ 511 ∉ (rotOf s 8).opened ∧
       2500 + sec10.start * schedUnit ≤ s.tick ∧ s.tick < 2500 + sec10.length * schedUnit ∧ sectorsOff s 8 16 = false ∧
       openSectors s 8 = []) ∧
    (let s := { rotState 2500 sec10 [] [] with k := { kq with queues := [(16, { part := 8, demoted := true, demotedAt := 2499 })] } }
     sectorsOff s 8 16 = true ∧ queueAt s 16 ≠ none) ∧
    ((openSectors (rotState 27499 sec10 [511] [open511]) 8).find? (fun o => o.ix == 511) = some open511 ∧
      closeTick (rotState 27499 sec10 [511] [open511]) open511 = 27500) ∧
    isKeeper k0 = true ∧ isKeeper .sec = false ∧
    SMap.get? State.reset.k.principals 8 = none ∧
    (SMap.get? (withK { kp with principals := [(8, { perms := 1, limit := 1, nextTelemetry := 1 })] }).k.principals 8).map
      Principal.nextTelemetry = some 1 := by decide +kernel

/-- Object 65535 of partition 8, with its place in the promotion lists. -/
def objState (o : Obj) (q qi : List Promo) (miss : List (Nat × Nat)) (dw : List Item) : State := { State.reset with
  own := { core := [(0, 8)], hbm := [(0, 8)] }
  mm := { objs := [(65536 * 8 + 65535, o)], promoQ := q, promoIn := qi, otuQ := miss, deepWrites := dw, hbmTrained := true } }
def item8 : Item := .obj 8 65535
def deep1 : DeepCopy := ⟨[⟨0, 0, 0, 0⟩], []⟩
def promo8 : Promo := ⟨item8, 7, 7⟩
def objD : Obj := { size := 65536, st := .deep, deep := some deep1 }

theorem witness_ObjectsAndPagesMoveBetweenTiers :
    (let s := objState objD [promo8] [] [] []
     s.mm.promoPause = false ∧ promoOrder s 8 = [promo8] ∧ promoNeed s item8 ≤ framesFree s 8 ∧ (promoFrames s item8).isSome = true ∧
       promoOrder s 7 = [] ∧ (s.mm.promoIn.filter fun x => itemPart s x.item == 8).length < 8) ∧
    (let s := { objState objD [promo8] [] [] [] with own := { hbm := [] } }
     promoOrder s 8 = [promo8] ∧ framesFree s 8 < promoNeed s item8) ∧
    (8 ≤ ((objState objD [] (List.replicate 8 promo8) [] []).mm.promoIn.filter fun x => itemPart (objState objD [] [] [] []) x.item == 8).length) ∧
    (let s := objState { objD with st := .promoting } [] [promo8] [] []
     (s.mm.promoIn.find? fun x => x.item == item8) = some promo8 ∧ itemDeep s item8 = some deep1 ∧
       (([] : List DeepRead).filter fun b => b.first.val != 0 && b.second.val != 0 && decide (b.block < deep1.blocks.length)) = [] ∧
       ([⟨0, 1, 2, false⟩].filter fun b : DeepRead => b.first.val != 0 && b.second.val != 0 && decide (b.block < deep1.blocks.length)) ≠ [] ∧
       SMap.get? s.mm.objs (65536 * 8 + 65535) = some { objD with st := .promoting }) ∧
    (let s := objState { objD with st := .demoting } [] [] [] []
     (s.mm.promoIn.find? fun x => x.item == item8) = none ∧
       SMap.get? s.mm.objs (65536 * 8 + 65535) = some { objD with st := .demoting } ∧ objD.pinMask = 0 ∧ objD.deep.isSome = true) ∧
    (item8 ∉ (objState objD [] [] [] []).mm.deepWrites) ∧
    (let s := objState { objD with st := .resident, size := 0 } [] [] [] [item8]
     item8 ∈ s.mm.deepWrites ∧ itemPoisoned s item8 = false ∧ itemSt s item8 = some .resident) ∧
    (let s := { objState { objD with st := .demoting, frames := [0] } [] [] [] [item8] with poison := [(0, ())] }
     item8 ∈ s.mm.deepWrites ∧ itemPoisoned s item8 = true ∧ itemSt s item8 = some .demoting) ∧
    (let s := objState { objD with st := .resident } [] [] [(0, 65536 * 8 + 65535)] []
     corePart s 0 = 8 ∧ ((s.mm.otuQ.take 32).find? fun q => q.2 == 65536 * 8 + 65535) = some (0, 65536 * 8 + 65535)) ∧
    ((objState objD [] [] [(0, 65536 * 8 + 65535)] []).mm.otuQ.take 32 = [(0, 65536 * 8 + 65535)]) ∧
    SMap.get? State.reset.mm.objs 0 = none ∧
    (let s := objState { objD with dying := true } [] [] [] []
     SMap.get? s.mm.objs (65536 * 8 + 65535) = some { objD with dying := true } ∧ objD.claims = 0 ∧ objD.pinMask = 0 ∧ objD.dying = false) ∧
    sessionAt State.reset 65535 = none := by decide +kernel

theorem witness_PcieRootPortReadsWritesAndCounts :
    cfgTarget 0 = true ∧ cfgTarget 0x100FFC = true ∧ cfgTarget 0x200000 = false ∧ cfgTarget 0x8000 = false ∧ cfgTarget 0x1000 = false ∧
    (let s : State := { State.reset with pcie := { inBase := 64, inLimit := 63, en := true, perst := false, linkUp := true } }
     s.pcie.linkUp = true ∧ s.pcie.inBase ≤ 64 ∧ 120 + [0, 0, 0, 0, 0, 0, 0, 0].length ≤ s.pcie.inBase + s.pcie.inLimit + 1 ∧
       64 + 64 ≤ s.pcie.inBase + s.pcie.inLimit + 1 ∧ 63 < s.pcie.inBase ∧ s.pcie.inBase + s.pcie.inLimit + 1 < 121 + 8 ∧
       s.pcie.en = true ∧ s.pcie.perst = false ∧ Memory.wf s.mem = true) ∧
    State.reset.pcie.linkUp = false ∧ State.reset.pcie.en = false ∧ State.reset.pcie.perst = true := by decide +kernel

/-- Ports 0 and 1 in states a and b, up since tick 0; registers by address. -/
def ports (a b : Nat) (r : SMap Word) : State := { withK kp with
  port0 := { state := a, saks := [0] }, port1 := { state := b, saks := [0] }, regs := r, tick := 10 * ticksPerSecond }
def rx0 : HostRx := { port := 0, secured := true }

theorem witness_HostPortsAnswerFailAndComeBack :
    (let s := ports 2 2 []
     rxPrincipal (rcount s (hostRegBase + 0x100) 1) rx0 = some 0 ∧
       rxPrincipal (rcount s (hostRegBase + 0x100) 1) { rx0 with secured := false } = none ∧ carries s 0 = true ∧ carries s 1 = false ∧
       portUp s 1 = true ∧ rbit s hostCtrl 4 = false ∧ s.activePort = 0 ∧
       portBad (modPort s 0 fun x => { x with state := 0, saks := [], sqi := 0 }) 1 = false ∧
       rbits s (portCfg 0) 1 0 ≠ 0 ∧ s.k.phyHost = none ∧ portWithRole s 1 = some 0 ∧
       (portOf s 0).upSince + 10 * ticksPerSecond ≤ s.tick) ∧
    (let s := { ports 2 2 [] with activePort := 1 }
     portWithRole s 1 = some 0 ∧ rbit s hostCtrl 4 = false ∧ s.activePort ≠ 0 ∧ portUp s 0 = true ∧
       (portOf s 0).upSince + 10 * ticksPerSecond ≤ s.tick ∧
       (portOf { s with tick := s.tick - 1 } 0).upSince + 10 * ticksPerSecond > ({ s with tick := s.tick - 1 } : State).tick) ∧
    (portUp (ports 2 0 []) 1 = false ∧ (ports 2 0 []).activePort ≠ 1) ∧
    (let s := ports 2 2 [(hostCtrl, 0x10)]
     rbit s hostCtrl 4 = true ∧ carries s 1 = true) ∧
    (let s := ports 2 2 [(portCfg 0, 0), (portCfg 1, 2)]
     rbits s (portCfg 0) 1 0 = 0 ∧ portWithRole s 1 = none) ∧
    portBad { ports 2 2 [] with ras := { portFaults := [(1, ())] } } 1 = true ∧
    (let s := ports 2 2 [(portCfg 0, 0x41)]
     rbit s (portCfg 0) 6 = true ∧ handlesBusy s = false ∧ handlesBusy { s with k := { kp with handles := [(0, handle1 .done)] } } = true ∧
       rbit (ports 2 2 [(portCfg 0, 1)]) (portCfg 0) 6 = false) ∧
    hasCak (ports 2 2 []) 0 = false ∧ hasCak (ports 2 2 []) 1 = true ∧ hasCak (ports 2 2 []) 8 = false ∧
    portUp (ports 1 2 []) 0 = false := by decide +kernel

/-- A TCT frame of association 1. -/
def fr1 : TctFrame := { type := 0x10, assoc := 1 }
/-- Both ports up, and association 1 as a. -/
def tctState (a : Assoc) : State := { ports 2 2 [(hostCtrl, 0x1)] with k := { kp with assocs := [(1, a)] } }
def as0 : Assoc := { principal := 0, port := 0 }
/-- Ticks of the state above. -/
def now10 : Nat := 10 * ticksPerSecond
/-- n associations of principals in turn. -/
def nAssocs (n per : Nat) : SMap Assoc := (span 1 n).map fun k => (k, { principal := k / per, port := 0 })

theorem witness_TctAssociationsOpenCarryAndEnd :
    (let s := rcount (tctState as0) (hostRegBase + 0x100) 1
     rxPrincipal s rx0 = some 0 ∧ rbit s hostCtrl 0 = true ∧ carries s 0 = true ∧ principalOf s 0 = some { perms := 0x3F, limit := 1024 } ∧
       resumable s 0 0 = false ∧ s.k.assocs.length < 36 ∧ (s.k.assocs.filter fun a => a.2.principal == 0).length < 4 ∧
       SMap.firstFree s.k.assocs 1 37 = some 2 ∧ SMap.get? s.k.assocs fr1.assoc = some as0 ∧ as0.lostAt = none ∧
       SMap.get? s.k.assocs 2 = none) ∧
    (let s := rcount (tctState { as0 with lostAt := some now10 }) (hostRegBase + 0x100) 1
     SMap.get? s.k.assocs 1 = some { as0 with lostAt := some now10 } ∧ s.tick < now10 + 60 * ticksPerSecond ∧ resumable s 1 0 = true) ∧
    36 ≤ ({ tctState as0 with k := { kp with assocs := nAssocs 36 4 } } : State).k.assocs.length ∧
    4 ≤ (({ tctState as0 with k := { kp with assocs := nAssocs 4 5 } } : State).k.assocs.filter fun a => a.2.principal == 0).length ∧
    rxPrincipal (rcount (ports 2 2 []) (hostRegBase + 0x100) 1) { rx0 with secured := false } = none ∧
    rbit (ports 2 2 [(hostCtrl, 0)]) hostCtrl 0 = false ∧
    SMap.get? (takeAck (modAssoc (rcount (tctState as0) (hostRegBase + 0x100) 1) 1 fun a => { a with port := 0, lastRx := 0 }) 1 fr1).k.assocs 1 ≠ none ∧
    (let s := tctState { as0 with lastTime := some now10 }
     s.tick < now10 + 250000) ∧
    msgRefusal [] = some 2 ∧ msgRefusal (leBytes 1 0x07 ++ List.replicate 7 0) = none ∧ msgRefusal (List.replicate 8 0) = some 3 ∧
    (let a := { as0 with unacked := [fr1] }
     a.unacked ≠ [] ∧ a.lostAt = none ∧ a.lastTx + 250 * 250000 ≤ (tctState a).tick ∧ a.lastRx + 2 * ticksPerSecond ≤ (tctState a).tick) ∧
    (let a := { as0 with lastTx := now10, lastRx := now10 }
     (tctState a).tick < a.lastTx + 250 * 250000 ∧ (tctState a).tick < a.lastRx + 2 * ticksPerSecond) ∧
    (let a := { as0 with lostAt := some 0 }
     a.lostAt.isSome = true ∧ ¬ (0 + 60 * ticksPerSecond ≤ (tctState a).tick) ∧ 0 + 60 * ticksPerSecond ≤ 60 * ticksPerSecond) ∧
    (let m : Mbx := { full := 1#128 <<< 12, recv := [(12, 0x40)] }
     mbxFull m 12 = true ∧ mbxReceiver m 12 = 0x40 ∧ mbxFull {} 12 = false) := by decide +kernel

/-! ### The always-on domain -/

/-- 16 channels of 2 bytes at 16 kHz, ring of 4 MiB. -/
def aonRec : Aon := { ringCfg := 0xFFFF0010, pdm0 := 1, pdm1 := 3 }
def withA (a : Aon) : State := { State.reset with aon := a }

theorem witness_RecordingWritesTheRingInOrder :
    runOk aonRec = true ∧ runOk { aonRec with pdm1 := 0 } = false ∧ runOk { aonRec with ringCfg := 0x10 } = false ∧
    runOk { aonRec with ringSize := 0x03E80000 } = true ∧ runOk { aonRec with ringSize := 0x03E70000 } = false ∧
    runOk { aonRec with ringSize := 0x04000200 } = true ∧ runOk { aonRec with ringSize := 0x04000201 } = false ∧
    isKeeper k0 = true ∧ isKeeper .sec = false ∧ Req.sec ≠ .dsp ∧ aonRec.run = false ∧ ({ aonRec with run := true } : Aon).run = true ∧
    aonRec.trimDue = [] ∧ aonRec.candOpen = false ∧ ({ aonRec with candOpen := true } : Aon).candOpen = true ∧
    Memory.wf (withA aonRec).mem = true ∧
    ringBase aonRec = 0 ∧ ringLen aonRec = 0x400000 ∧ ringFrames aonRec = 131072 ∧
    (let a := { aonRec with run := true, pos := 131135, runPos := 131072 }
     a.pos < a.runPos + 64 ∧ 0 < ringFrames a ∧ a.pos % ringFrames a = 63) ∧
    (let a := { aonRec with run := true, pos := 64 }
     ¬ a.pos < a.runPos + 64) := by decide +kernel

/-- The ring open from frame 10 on, written up to frame 12. -/
def aonGate : Aon := { aonRec with run := true, pos := 12, runPos := 2, gateOpen := true, gateStart := 10, gateEnd := 12 }
def dmsg : DspMsg := { number := 1, mark := 40000 }

theorem witness_TheReadGateShowsOnlyWhatItOpened :
    (let a := aonGate
     ringReadable a 320 = true ∧ ringReadable a 383 = true ∧ ringReadable a 319 = false ∧ ringReadable a 384 = false ∧
       (ringBase a ≤ 320 ∧ 320 + 3 + 1 ≤ ringBase a + ringLen a) ∧ ¬ (0x3FFFFD + 3 + 1 ≤ ringBase a + ringLen a)) ∧
    isKeeper k0 = true ∧ aonGate.gateEnd ≤ aonGate.pos ∧ ({ aonGate with pos := 11 } : Aon).pos < aonGate.gateEnd ∧
    aonRec.gateOpen = false ∧
    lifeCycle { State.reset with otp := { lcField := 0xFF, serviceIn := 1 } } = 3 ∧ lifeCycle State.reset = 1 ∧
    (let a := { aonRec with candOpen := true, candStart := 5, pos := 5 + (131072 - 16000) }
     0 < frameBytes a ∧ a.candStart + (ringFrames a - outRate a) ≤ a.pos ∧ a.deferred = none ∧ (withA a).k.handovers = [] ∧
       ({ a with pos := a.pos - 1 } : Aon).pos < a.candStart + (ringFrames a - outRate a)) ∧
    State.reset.aon.dspReset = true ∧
    (let s := withA { aonRec with dspReset := false }
     s.aon.dspReset = false ∧ (dspPost s 1 dmsg).2 = true ∧ (dspPost s 2 dmsg).2 = true ∧
       (dspPost { s with mbx := { full := 1#128 <<< 16 } } 1 dmsg).2 = false) ∧
    mbxFull State.reset.mbx 17 = false ∧ mbxFull { full := 1#128 <<< 17 } 17 = true := by decide +kernel

/-- A started device in mode m. -/
def inMode (m : Mode) (f : Aon → Aon) : State := { withK kp with
  aon := f { mode := m, target := m, goal := m }, power := { mainReset := false, started := true, mainEn := true, mainPg := true } }
/-- A step from BEACON up or down. -/
def moving (up : Bool) (t g : Mode) (a : Aon) : Aon := { a with busy := true, up := up, target := t, goal := g }

theorem witness_ModesClimbAndFallAsRequested :
    isKeeper k0 = true ∧
    (let s := inMode .beacon (moving true .lantern .lighthouse)
     s.aon.busy = true ∧ modeNo .lantern < modeNo s.aon.goal ∧ modeNo s.aon.goal ≤ modeNo .lighthouse ∧ s.aon.up = true ∧
       stepReady s s.aon.target = false ∧ s.k.handovers = [] ∧ s.boot.kind ≠ 1 ∧
       stepReady { s with mm := { hbmTrained := true, noDeep := true } } .lantern = true ∧
       stepReady { s with mm := { hbmTrained := true } } .lantern = false) ∧
    (let s := inMode .beacon (moving false .buoy .buoy)
     s.aon.up = false ∧ downReady s .beacon = true ∧ downReady { s with runs := [(0, { job := 0, cmd := 0, queue := 16, launched := 0 })] } .beacon = false) ∧
    (let s := inMode .lantern id
     s.aon.busy = false ∧ modeNo s.aon.mode ≤ modeNo .lantern ∧ modeNo .beacon < modeNo s.aon.mode ∧ s.aon.candOpen = false ∧
       s.aon.mode ≠ .beacon ∧ (inMode .lantern fun a => { a with candOpen := true }).aon.candOpen = true ∧
       s.aon.mode ≠ .buoy ∧ s.aon.deferred = none ∧ s.power.started = true ∧ holdOf s.k s.aon.mode ≠ 0xFFFFFFFF ∧
       s.k.lowering = none ∧ modeNeeded s = false) ∧
    (modeNo State.reset.aon.mode < modeNo .beacon ∧ State.reset.power.mainEn = false ∧ State.reset.power.started = false) ∧
    modeNeeded { inMode .beacon id with k := { kj with jobs := [(0, { job0 with admitted := true })] } } = true ∧
    (let s := { inMode .beacon id with boot := { kind := 1 } }
     s.power.started = true ∧ s.boot.kind = 1) ∧
    (let s := inMode .lantern fun a => { a with deferred := some .beacon, deferredAt := 7 }
     s.aon.deferred = some .beacon ∧ s.tick < s.aon.deferredAt + 1500 * 250000 ∧
       s.aon.deferredAt + 1500 * 250000 ≤ ({ s with tick := 375000007 } : State).tick) ∧
    onT 0x22 (rq ([0xFF] ++ List.replicate 15 0)) (inMode .lantern id) (fun _ _ _ => true) = true ∧
    onT 0x22 (rq ([1] ++ List.replicate 15 0)) (inMode .lantern id) (fun t _ _ => decide (1 < modeNo t.aon.mode) && !t.aon.busy) = true ∧
    onT 0x22 (rq ([3] ++ List.replicate 15 0)) (inMode .lantern id) (fun t _ _ => decide (modeNo t.aon.mode ≤ 3)) = true ∧
    (let s := { State.reset with power := { tc10 := 2 } }
     s.aon.mode = .buoy ∧ bitOf s.power.tc10 1 = true ∧ bitOf s.power.tc10 0 = false ∧ s.power.mainReset = true) ∧
    (let s := { inMode .beacon id with port1 := { state := 3 } }
     s.aon.mode ≠ .buoy ∧ s.power.mainReset = false ∧ (portOf s 1).state = 3 ∧ (portOf s 0).state ≠ 3) := by decide +kernel

theorem witness_PowerRailsResetsAndTripsTakeEffect :
    (let p : Power := { mainEn := true, mainPg := true, mainReset := false }
     p.mainEn = true ∧ p.mainPg = true ∧ p.porstLow = false ∧ p.tripped = false ∧ p.throttleLow = false ∧ p.mainReset = false ∧
       State.reset.boot.halted = none ∧ State.reset.power.mainEn = false ∧ State.reset.power.mainPg = false) ∧
    (let p : Power := { mainEn := true, pgTries := 1 }
     p.mainPg = false ∧ 1 ≤ p.pgTries ∧ ({ mainEn := true } : Power).pgTries = 0) ∧
    ({ porstLow := true, mainEn := true } : Power).porstLow = true ∧ ({ porstLow := true } : Power).mainEn = false ∧
    ({ tripped := true } : Power).tripped = true ∧ ({ throttleLow := true } : Power).throttleLow = true ∧
    isKeeper k0 = true ∧ isKeeper .dsp = false ∧ Memory.wf State.reset.mem = true ∧
    (let s := { State.reset with power := { mainReset := false, duty := 0, powerMw := 60001 } }
     s.power.duty = 0 ∧ effectiveCap s * 1000 < s.power.powerMw ∧ s.power.mainReset = false ∧
       ({ s.power with powerMw := 60000 } : Power).powerMw ≤ effectiveCap s * 1000) ∧
    (970 * 60 < 58201 ∧ 970 * 60 ≥ 56999 ∧ 56999 < 950 * 60 ∧ 950 * 60 ≤ 57000 ∧ 58200 ≤ 970 * 60) ∧
    (coreOf (one { st := .idle }) 0).st ≠ .off := by decide +kernel

/-! ### Integrity, self-test and start-up -/

/-- A started device in LIGHTHOUSE with trained memories. -/
def live : State := { State.reset with
  tick := 10 * dayTicks
  aon := { mode := .lighthouse, target := .lighthouse, goal := .lighthouse }
  power := { mainEn := true, mainPg := true, mainReset := false, started := true }
  mm := { hbmTrained := true, lpTrained := true }
  ras := { pllLocked := true } }

/-- A full mailbox m with receiver r. -/
def waitsIn (m : Nat) (r : Word) : Mbx := { full := 1#128 <<< m, recv := [(m, r)] }

theorem witness_SecAlarmsAndTheHealthMonitorAct :
    Req.keeper 0 ≠ .sec ∧ State.reset.sec.trngEn = true ∧ ({ trngEn := false } : Sec).trngEn = false ∧
    (mbxFull State.reset.mbx 11 = false ∧ mbxFull State.reset.mbx 10 = false) ∧
    (mbxFull (waitsIn 11 8) 11 = true ∧ mbxReceiver (waitsIn 11 8) 11 = 0x08 ∧ mbxReceiver (waitsIn 11 0) 11 ≠ 0x08) ∧
    mbxFull (waitsIn 10 0) 10 = true ∧ State.reset.power.mainReset = true ∧ State.reset.power.started = false ∧
    (live.power.mainReset = false ∧ live.power.started = true ∧ live.mbx.full = 0 ∧ SMap.wf live.ras.mailSince = true) ∧
    (let b : Mbx := { senderMask := [(17, BitVec.ofNat 64 (2 ^ 64 - 1))], recv := [(17, 0x10)] }
     mbxFull b 17 = false ∧ mbxAllows b 17 (.keeper 3) = true ∧ mbxReceiver b 17 = 0x10) ∧
    (let s := { live with mbx := waitsIn 17 0x10 }
     mbxFull s.mbx 17 = true ∧ SMap.get? s.ras.mailSince 17 = none ∧
       (mailLimit s 17).all (fun n => decide (s.tick ≤ s.tick - n + n)) = true ∧
       (mailLimit s 17).any (fun n => decide (s.tick - n - 1 + n < s.tick)) = true) ∧
    SMap.get? ({ live with mbx := waitsIn 17 0x10, ras := { mailSince := [(17, 5)] } } : State).ras.mailSince 17 = some 5 ∧
    live.ras.keeperRestarts = [] ∧ ([live.tick - hourTicks + 1].filter fun t => decide (live.tick < t + hourTicks)) ≠ [] ∧
    ([live.tick - hourTicks].filter fun t => decide (live.tick < t + hourTicks)) = [] ∧
    2 ≤ ([live.tick, live.tick].filter fun t => decide (live.tick < t + hourTicks)).length ∧ AlarmCause.pll ≠ .keeper ∧
    isKeeper k0 = true ∧ bitOf (4 : Word).toNat 2 = true ∧ bitOf (3 : Word).toNat 2 = false ∧
    lifeCycle { live with otp := { lcField := 0xFF, serviceIn := 1 } } = 3 ∧ lifeCycle live ≠ 3 ∧
    isKeeper .sec = false ∧ Memory.wf live.mem = true := by decide +kernel

/-- A deep object of partition 8 in granule 7 of channel 0, and nothing else there. -/
def liveDeep : State := { live with mm := { live.mm with
  objs := [(65536 * 8 + 65535, { objD with deep := some ⟨[⟨0, 0, 1, 7⟩], []⟩ })], keyGen := [(8, 3)] } }

theorem mem_span : ∀ (n lo b : Nat), lo ≤ b → b < lo + n → b ∈ span lo n := by
  intro n
  induction n with
  | zero => intro lo b h g; omega
  | succ n ih =>
    intro lo b h g
    simp only [span, List.mem_cons]
    by_cases e : b = lo
    · exact .inl e
    · exact .inr (ih (lo + 1) b (by omega) (by omega))

theorem witness_ScrubsCountRetireAndRelocate :
    (scrubEn live = true ∧ live.aon.mode ≠ .buoy ∧ live.aon.mode ≠ .beacon ∧ live.mm.hbmTrained = true ∧ live.mm.lpTrained = true) ∧
    State.reset.aon.mode = .buoy ∧ State.reset.mm.hbmTrained = false ∧ State.reset.mm.lpTrained = false ∧
    scrubEn (rset live (rasRegBase + 4) 2) = false ∧
    within live.tick [] = [] ∧ within live.tick [live.tick - dayTicks] = [] ∧ within live.tick [live.tick - dayTicks + 1] ≠ [] ∧
    (SMap.get? ([(5, ())] : SMap Unit) 5).isSome = true ∧ retiredIn live 0 < 4096 ∧ (SMap.get? live.mm.retired 5).isSome = false ∧
    freeFrameIn live [31] = some (31 * framesPerUnit) ∧ (allocRun live 0 2).isSome = true ∧
    (itemDeep liveDeep item8 = some ⟨[⟨0, 0, 1, 7⟩], []⟩ ∧
      itemDeep (relocate liveDeep item8 0) item8 ≠ itemDeep liveDeep item8) ∧
    State.reset.power.mainReset = true ∧ live.power.mainReset = false ∧
    SMap.get? ([(1023, {})] : SMap Sem) 1023 = some {} ∧ live.ras.hbmLate = false ∧ live.ras.deepLate = false ∧
    ({ hbmLate := true, deepLate := true } : Ras).hbmLate = true ∧
    (0x470 ≤ (0x470 : Fin 2048).val ∧ (0x46F : Fin 2048).val < 0x470 ∧ 0x470 ∉ live.ras.remap.map Prod.snd ∧
      0x471 ∉ ([(0, 0x470)] : SMap Nat).map Prod.snd) ∧
    (∀ b, 0x470 ≤ b → b < 0x800 → b ∈ ((span 0x470 0x390).map fun b => (b - 0x470, b)).map Prod.snd) ∧
    [0#8, 0, 0, 0].length = 4 := by
  refine ⟨?_, ?_, ?_, ?_, ?_, ?_, ?_, ?_, ?_, ?_, ?_, ?_, ?_, ?_, ?_, ?_, ?_, ?_, ?_, ?_, ?_, ?_, ?_⟩
  all_goals first
    | (intro b h g
       simp only [List.map_map, List.mem_map, Function.comp]
       exact ⟨b, mem_span _ _ b h (by omega), rfl⟩)
    | decide +kernel

theorem witness_FullFrameMap :
    4096 ≤ retiredIn { live with mm := { live.mm with retired := (span 0 4096).map fun f => (f, ()) } } 0 := by decide +kernel

theorem witness_SelfTestSlicesRunOrAreDeferred :
    (live.power.mainReset = false ∧ slicesEn live = true ∧ live.ras.pllLocked = true ∧ bitOf live.ras.vmonOff 0 = false) ∧
    slicesEn (rset live (rasRegBase + 4) 1) = false ∧ ¬ (720 ≤ 719) ∧ ¬ (801 ≤ 800) ∧ State.reset.ras.pllLocked = false ∧
    bitOf ({ vmonOff := 1 } : Ras).vmonOff 0 = true ∧
    (let s := { live with cores := [(31, { st := .held })] }
     targetFree s (.logic 31) = true ∧ sliceCore (.logic 31) = some 31 ∧ targetFree s (.logic 30) = false) ∧
    (let s := { live with cores := [(0, { st := .idle, enable := true })] }
     targetFree s (.accQuarter 0 3) = true ∧ SMap.wf (coreOf s 0).acc = true ∧ SMap.get? (coreOf s 0).rowOwner 1023 = none) ∧
    (targetFree live (.ssrWay 15) = true ∧ targetFree { live with aon := { mode := .lantern } } (.ssrWay 4) = false ∧
      targetFree { live with aon := { mode := .lantern } } (.ssrWay 3) = true) ∧
    (SMap.get? ([(5, [])] : SMap (List Nat)) 5 = some [] ∧ 1023 / 256 = (3 : Fin 4).val ∧ 767 / 256 ≠ (3 : Fin 4).val) ∧
    (SMap.get? live.ras.checkHold 5).isNone = true ∧ (16 ∈ fullCheck ∧ 16 ∉ ([64] : List Nat)) ∧
    (SMap.get? ([(5, ())] : SMap Unit) 5).isSome = true ∧
    (bitOf 0x80 7 = true ∧ bitOf live.ras.vmonOff 7 = false) ∧
    (let s := { live with power := { live.power with temps := [(0, 400), (1, 400), (15, 441)] } }
     strayed s = [15] ∧ median [400, 400, 441] + 40 < 441) ∧
    (SMap.get? live.ras.deferred (sliceKey .temperature)).isNone = true ∧
    (let s := { live with ras := { pllLocked := false, deferred := [(sliceKey .temperature, live.tick - dayTicks)] } }
     SMap.get? s.ras.deferred (sliceKey .temperature) = some (live.tick - dayTicks) ∧ live.tick - dayTicks + dayTicks ≤ s.tick ∧
       SMap.get? s.ras.lateTold (sliceKey .temperature) = none ∧ ¬ live.tick - dayTicks + 1 + dayTicks ≤ s.tick) := by decide +kernel

/-- Main reset has just been released; the next start is cold or warm. -/
def released (cold : Bool) : State := { State.reset with power := { mainEn := true, mainPg := true, mainReset := false, cold := cold } }

theorem witness_StartsRunTheirStepsAndTrialsEnd :
    (let s := released true
     s.power.mainReset = false ∧ s.power.started = false ∧ s.power.startAt = none ∧ s.boot.halted = none ∧ s.power.cold = true ∧
       (released false).power.cold = false ∧ lifeCycle s ≠ 0 ∧ lifeCycle s ≠ 4 ∧ s.boot.steps = [] ∧ s.boot.clear = [] ∧
       slotDead s 0 (fwOf s 0).active = false ∧ slotDead s 1 (fwOf s 1).active = false) ∧
    lifeCycle { released true with otp := { lcProvision := 0 } } = 0 ∧ lifeCycle { released true with otp := { lcRetired := 0xFF } } = 4 ∧
    State.reset.power.mainReset = true ∧
    (let s := { released true with
       boot := { steps := [(8, { state := 1 })] }
       power := { (released true).power with started := true, startAt := some 8 } }
     s.boot.kind = 0 ∧ (stepEntry s 8).state = 1 ∧ s.power.startAt = some 8 ∧ stepOff s 8 = false ∧ stepOff s 9 = false ∧
       s.power.obs.fails = [] ∧ s.power.obs.stop = none ∧ (stepEntry s 9).state ≠ 1 ∧ s.power.startAt.isSome = true) ∧
    (let s := { released false with boot := { kind := 1, steps := [(9, { state := 1 })] } }
     s.boot.kind = 1 ∧ s.power.mainReset = false ∧ (stepEntry s 9).state = 1) ∧
    (live.power.started = true ∧ live.power.startAt = none ∧ 30 * ticksPerSecond ≤ live.tick) ∧
    (inTrial live 3 = false ∧ (fwOf live 0).autoCommit = false) ∧
    (let s := { live with boot := { fw := [(0, { state := 1, autoCommit := true, age := 86400 * ticksPerSecond - live.tick })
                                         , (3, { state := 1, autoCommit := true })] } }
     inTrial s 0 = true ∧ (fwOf s 0).autoCommit = true ∧ (fwOf s 0).startedAt + 60 * ticksPerSecond ≤ s.tick ∧ inTrial s 3 = true ∧
       portsBack s = true ∧ 86400 * ticksPerSecond ≤ trialAge s 0) ∧
    ¬ ((fwOf { live with boot := { fw := [(0, { startedAt := live.tick })] } } 0).startedAt + 60 * ticksPerSecond ≤ live.tick) ∧
    portsBack { live with k := { phyHost := some 0 } } = false ∧
    (handoverReady { live with aon := { live.aon with candOpen := true } } 2 = false ∧ live.k.handovers = []) := by decide +kernel

/-! ### Cameras -/

/-- A parameter block of 16 by 16 RAW8 on port 3, channel 3, with two buffers and a timeout of 1 ms. -/
def camWin : SMap Word := [(0, 0x00100010), (1, 0x002A0303), (3, 0x00100010), (4, 0x00100010), (5, 0x10000), (6, 0x10000),
  (7, 0x00400000), (21, 0x0200), (22, 1000), (26, 0x10000), (27, 0x8000), (28, 0xC000), (30, 0x100000)]
def cam15 : CamCtx := { en := true, win := camWin, shadow := camWin, st := 1 }
/-- Port 3 on, context 15 as c. -/
def camState (c : CamCtx) : State := { State.reset with
  cam := { en := true, ports := [(3, { en := true, state := 2 })], ctxs := [(15, c)] } }
def frame0 : CamFrame := { buf := 0, csi := 1, tickFs := 0 }
/-- A frame with n lines. -/
def frameN (n : Nat) : CamFrame := { frame0 with lines := List.replicate n (List.replicate 16 0), flags := List.replicate n false }

theorem witness_CameraPacketsBuildFrames :
    (let s := camState cam15
     (camPort s 3).en = true ∧ (camPort s 3).sync = true ∧ (camPort s 3).faulty = false ∧ s.cam.en = true ∧
       (camPort s 0).en = false ∧ ctxsOn s 3 3 = [15] ∧ ctxsOn s 3 2 = [] ∧
       ((ctxsOn s 3 3).filter fun y => camType (ctxOf s y).win == (0x2A : Fin 64).val) = [15] ∧
       ((ctxsOn s 3 3).filter fun y => camType (ctxOf s y).win == (0x2B : Fin 64).val) = [] ∧
       (ctxOf s 15).frame = none ∧ (ctxOf s 15).st ≠ 3 ∧ (ctxOf s 15).shadow = (ctxOf s 15).win ∧
       pfield (ctxOf s 15).win 4 1 = 3 ∧ pfield (ctxOf s 15).win 5 1 = 3 ∧ (ctxOf s 15).skip = 0 ∧ nextBuf (ctxOf s 15) = some 0) ∧
    (ctxOf (camState { cam15 with st := 3 }) 15).st = 3 ∧
    (let c := { cam15 with frame := some (frameN 15) }
     c.frame = some (frameN 15) ∧ (frameN 15).lines.length < inHeight c.win ∧ inHeight c.win ≤ (frameN 16).lines.length ∧
       outH c.win = 16) ∧
    nextBuf { cam15 with free := 0 } = none ∧ nextBuf { cam15 with used := true, buf := 0, free := 1 } = some 0 ∧
    nextBuf { cam15 with used := true, buf := 0 } = some 1 ∧ ({ cam15 with skip := 1 } : CamCtx).skip ≠ 0 ∧
    Memory.wf (camState cam15).mem = true ∧ rawBits (camType camWin) ≠ 0 ∧ ([] : List Nat).length ≤ 15 ∧ 15 < inWidth camWin * comps camWin := by
  decide +kernel

theorem witness_CameraContextsPortsAndBuffersFollowTheirRegisters :
    isKeeper k0 = true ∧ isKeeper .isp = false ∧
    (let s := camState { cam15 with frame := some frame0 }
     (ctxOf s 15).frame = some frame0 ∧ ¬ (frame0.tickFs + pfield camWin 0x58 4 * ticksPerUs ≤ s.tick) ∧
       frame0.tickFs + pfield camWin 0x58 4 * ticksPerUs ≤ 250000) ∧
    (ctxOf (camState cam15) 15).ended = [] ∧ ({ cam15 with ended := [1] } : CamCtx).ended = 1 :: [] ∧
    (let s := camState { cam15 with en := false }
     (ctxOf s 15).en = false ∧ s.cam.lowRate = false ∧ camBoundary s 15 = s ∧ rangesOk camWin = true ∧ addressesOk s 0 camWin = true ∧
       SMap.getD s.own.cam (pfield camWin 4 1) 0 = 0 ∧ (camPort s 3).en = true ∧ (camPort s 0).en = false) ∧
    rangesOk (SMap.put camWin 22 999 0) = false ∧ addressesOk (camState cam15) 0 (SMap.put camWin 30 1 0) = false ∧
    SMap.getD ({ cam := [(3, 1)] } : Owners).cam 3 0 ≠ 0 ∧
    (let s := { State.reset with cam := { ctxs := (span 0 5).map fun x => (x, { cam15 with en := true }) } }
     4 < (ctxsEnabled s).length ∧ 4 ≤ (ctxsEnabled (camBoundary s 15)).length ∧ s.cam.lowRate = false) ∧
    (let c := { cam15 with hold := true }
     c.hold = true ∧ cam15.shadow = cam15.win) ∧
    (let c := { cam15 with win := [] }
     c.hold = false ∧ c.shadow ≠ c.win ∧ rangesOk c.shadow = true ∧ addressesOk (camState c) c.part c.shadow = true ∧
       rangesOk ({ cam15 with shadow := [] } : CamCtx).shadow = false) := by decide +kernel

/-! ### Agcon -/

/-- Port 2 as x in a fabric at address a, roles 1, 2, 3, 0 of ports 0 to 3. -/
def fabState (a : Nat) (x : FabPort) : State := { withK kp with
  fab := { en := true, addr := a, ports := [(2, x)] }
  regs := [(fabPortCfg 0, 1), (fabPortCfg 1, 2), (fabPortCfg 2, 3), (fabPortCfg 3, 0)] }
def upPort : FabPort := { state := 3, epoch := 1, rxEpoch := 1 }
/-- A frame with the counter expected, for station a. -/
def fabF (a : Nat) : FabFrame := { type := 0x01, dest := a, src := 0x102, epoch := 1 }
/-- What an AUTH statement reads. -/
def linked : FabPort := { state := 2 }

theorem witness_AgconLinksTrainAuthenticateAndRekey :
    (let s := fabState 0x101 upPort
     s.fab.en = true ∧ (fabPort s 2).state = 3 ∧ counterOk (fabPort s 2) (fabF 0x101) = true ∧
       counterOk (fabPort s 2) { fabF 0x101 with counter := 1 } = false ∧ (fabF 0x101).dest = (accepted s 2 0x02 (fabF 0x101)).fab.addr ∧
       (fabF 0x103).dest ≠ (accepted s 2 0x02 (fabF 0x103)).fab.addr ∧ (fabPort s 2).rekey = none ∧ (fabPort s 2).waiting = [] ∧
       (fabPort (takeLinkAck (accepted s 2 0x04 (fabF 0x101)) 2 0) 2).resends < 8 ∧ SMap.wf s.fab.ports = true ∧
       ¬ (fabPort s 0).state = 3 ∧ (fabPort s 2).state ≠ 2) ∧
    Arrives (fabState 0x101 upPort) 2 (fabF 0x101) ∧
    8 ≤ (fabPort (takeLinkAck (accepted (fabState 0x101 { upPort with resends := 8, unacked := [fabF 0] }) 2 0x04 (fabF 0x101)) 2 0) 2).resends ∧
    (let f := { fabF 0x101 with creditReturn := 1, creditQueue := 16 }
     let s := { fabState 0x101 upPort with routes := [(256, { dest := 0x102, destQueue := 17, credits := 0, total := 4 })] }
     f.dest = s.fab.addr ∧ f.creditReturn ≠ 0 ∧ f.type = 0x01 ∧
       s.routes.find? (fun r => r.1 / 16 == f.creditQueue && r.2.dest == f.src) = some (256, ⟨0x102, 17, 0, 4⟩)) ∧
    ({ upPort with rekey := some 7 } : FabPort).rekey = some 7 ∧
    (let s := fabState 0x101 {}
     ¬ (s.fab.en = false ∨ fabRole s 2 = 0 ∨ (fabPort s 2).faulty = true ∨ 1 < (fabPort s 2).state) ∧ fabRole s 3 = 0 ∧
       (fabPort s 2).state = 0) ∧
    (let s := fabState 0x101 linked
     (fabPort s 2).state = 2 ∧ rootLive s 0 = true ∧ rootLive s 1 = false ∧ fabRole s 2 = 3 ∧ rolesOk 3 3 = true ∧ rolesOk 3 1 = false ∧
       segOf 0x102 = segOf s.fab.addr ∧ segOf 0x201 ≠ segOf s.fab.addr) ∧
    (let x := { upPort with txNext := 2 ^ 40 }
     x.state = 3 ∧ 2 ^ 40 ≤ x.txNext ∧ x.rekey = none ∧ (fabState 0x101 x).sec.trngFail = false ∧ ¬ 2 ^ 40 ≤ upPort.txNext ∧
       ¬ upPort.epochAt + 3600 * ticksPerSecond ≤ (fabState 0x101 upPort).tick) ∧
    isKeeper k0 = true ∧ isKeeper .tct = false ∧
    (mbxFull (waitsIn 114 0x43) 114 = true ∧ mbxReceiver (waitsIn 114 0x43) 114 = 0x41 + 2 ∧ mbxFull State.reset.mbx 114 = false) ∧
    ((fabPort (fabState 1 upPort) 2).downAt.all (fun t => decide (0 < t + 50 * ticksPerMs)) = true ∧
      (some 0).any (fun t => decide (t + 50 * ticksPerMs ≤ 50 * ticksPerMs)) = true) ∧
    (SMap.get? (fabState 1 upPort).fab.asked 5 = none ∧ (lightOf (fabState 1 upPort) 5).all (fun e => e.state != 1 && e.state != 2) = true) := by
  refine ⟨?_, ⟨?_, ?_, ?_⟩, ?_⟩ <;> decide +kernel

theorem witness_MooringGivesAddressesAndTheLightListIsInstalled :
    Arrives (fabState 0x101 upPort) 2 (fabF 0x101) ∧
    (let u := ctlPost (accepted (fabState 0x101 upPort) 2 0x25 (fabF 0x101)) 2
     u.fab.addr ≠ 0 ∧ fabRole u 2 = 3 ∧ segOf 0x102 = segOf u.fab.addr ∧ segOf 0x201 ≠ segOf u.fab.addr ∧
       u.fab.seen.contains (0x25, 0x101, 1) = false) ∧
    (ctlPost (accepted (fabState 0 upPort) 2 0x21 (fabF 0)) 2).fab.addr = 0 ∧
    ([(0x25, 0x101, 1), (0x24, 0x101, 1), (0x23, 0x101, 1)] : List (Nat × Nat × Nat)).contains (0x23, 0x101, 1) = true ∧
    (let s := { fabState 0x101 upPort with fab := { (fabState 0x101 upPort).fab with light := [(17, { address := 0x102 })] } }
     (lightOf s 0x102).any (fun e => e.state == 1 || e.state == 2) = true ∧ (lightOf s 0x103).any (fun e => e.state == 1) = false ∧
       segClosed s.fab.light (segOf s.fab.addr) = false ∧ segOf 0x102 = segOf s.fab.addr ∧
       segClosed [(17, { address := 0x102, closed := true })] 1 = true ∧ stnOf 0x102 ≤ stationsOf s.fab.light 1 ∧ stnOf 0x101 ≤ stationsOf s.fab.light 1) ∧
    (let s := fabState 0 upPort
     fabRole s 0 = 1 ∧ fabRole s 1 ≠ 1 ∧ rbit s hostCtrl 5 = false ∧ 17 ≤ (17 : Fin 256).val ∧ (16 : Fin 256).val < 17 ∧ s.fab.addr = 0 ∧
       fabPortOf s 2 = some 1 ∧ fabPortOf { s with regs := (span 0 4).map fun p => (fabPortCfg p, 1) } 2 = none) ∧
    ((fabState 0x101 upPort).fab.addr ≠ 0 ∧ (fabState 0x101 upPort).fab.addr ≠ fabAddrOf 1 2) ∧
    rbit (rset (fabState 0 upPort) hostCtrl 0x20) hostCtrl 5 = true ∧
    (let s := { fabState 0x101 upPort with fab := { (fabState 0x101 upPort).fab with ports := [(1, { upPort with peer := 0x101 })] } }
     fabPortOf s 2 = some 1 ∧ (fabPort s 1).state = 3 ∧ (fabPort s 1).peer = fabAddrOf (segOf s.fab.addr) 1 ∧ stnOf s.fab.addr = 1 ∧
       stnOf 0x102 ≠ 1 ∧ ({ state := 5 } : FabPort).state = 5) ∧
    isKeeper k0 = true ∧ isKeeper .tct = false ∧
    (let s := { State.reset with fab := { addr := fabAddrOf 0 1, reports := [(0, [{ address := 1 }])] }, regs := [(hostCtrl, 0x20)] }
     fabricHead s = true ∧ s.fab.reports ≠ [] ∧ fabricHead State.reset = false) ∧
    SMap.wf State.reset.sec.slots = true := by
  refine ⟨⟨?_, ?_, ?_⟩, ?_⟩ <;> decide +kernel

/-- A frame with an empty tile: CRC-32C of nothing is 0. -/
def goodF (f : FabFrame) : FabFrame := { f with payload := List.replicate 16 0 }

theorem witness_RoutedFramesActAtTheirDestinationAndGoOnElsewhere :
    Arrives (fabState 0x101 upPort) 2 (fabF 0x101) ∧
    ((fabF 0x101).dest = (accepted (fabState 0x101 upPort) 2 0x01 (fabF 0x101)).fab.addr ∧
      (fabF 0x103).dest ≠ (accepted (fabState 0x101 upPort) 2 0x01 (fabF 0x103)).fab.addr) ∧
    frameGood (goodF (fabF 0)) = true ∧ frameGood (fabF 0) = false ∧ (fabF 0).part = 0 ∧
    keyHeld (fabState 0x101 upPort) 0 0 = true ∧ keyHeld (fabState 0x101 upPort) 1 0 = false ∧
    (let f := { goodF (fabF 0x101) with destQueue := 16, frames := 1 }
     let s := { fabState 0x101 upPort with k := kq }
     wasSeen s f = false ∧ queueAt s f.destQueue = some { part := 0, model := 3 } ∧ queueAt s 1023 = none ∧
       ({ part := 0, model := 3 } : Queue).part = f.part ∧ (partOf s f).elim 0 PartMsg.got = 0 ∧ f.frameIx = 0 ∧ f.frames ≤ 0 + 1 ∧ partOf s f = none ∧
       wasSeen { s with fab := { s.fab with seenMsgs := [{ src := 0x102, job := 0, command := 0, sendIx := 0, queue := 16 }] } } f = true) ∧
    0 + 1 < ({ fabF 0 with frames := 2 } : FabFrame).frames ∧ 0 < ({ fabF 0 with frameIx := 1 } : FabFrame).frameIx ∧
    ({ fabF 0 with msg := some (.drop 1) } : FabFrame).msg = some (.drop 1) := by
  refine ⟨⟨?_, ?_, ?_⟩, ?_⟩ <;> decide +kernel

/-! ### Peripherals -/

theorem witness_TheFlashControllerRunsCommandsAndAnswersReads :
    isKeeper k0 = true ∧ isKeeper .dsp = false ∧ State.reset.peri.ospi.busy = false ∧
    bits (256 : Word).toNat 8 0 ≤ 256 ∧ 256 < bits (257 : Word).toNat 8 0 ∧ (0xFFFFFFC : BitVec 28).toNat % 4 = 0 ∧
    (1 : BitVec 28).toNat % 4 ≠ 0 ∧ ¬ (isKeeper .dsp = true ∨ Req.dsp = .sec) ∧
    (let o : Ospi := { busy := true, cmd := 0x8000, len := 2, waits := [⟨k0, flashWindow⟩, ⟨.sec, flashWindow + 4⟩] }
     o.busy = true ∧ bits o.cmd.toNat 15 14 = 2 ∧ SMap.wf o.buf = true ∧ o.waits = [⟨k0, flashWindow⟩] ++ [⟨.sec, flashWindow + 4⟩] ∧
       bits ({} : Ospi).cmd.toNat 15 14 ≠ 2) ∧
    Memory.wf State.reset.mem = true ∧ 0xFFFFFFF < 0x10000000 := by decide +kernel

theorem witness_SerialBusesPinsAndTheConsoleMoveTheirBytes :
    isKeeper k0 = true ∧ isKeeper .sec = false ∧ (i2cOf State.reset 3).busy = false ∧ (spiOf State.reset 1).busy = false ∧
    bitOf (0x80000000 : Word).toNat 31 = true ∧ bitOf (0x7FFFFFFF : Word).toNat 31 = false ∧
    (let s := { State.reset with peri := { i2c := [(3, { busy := true })], spi := [(1, { busy := true, rx := [1] })], uartRx := [1], uartTx := [2] } }
     (i2cOf s 3).busy = true ∧ (spiOf s 1).busy = true ∧ (spiOf s 1).rx = 1 :: [] ∧ s.peri.uartRx = 1 :: [] ∧ s.peri.uartTx = 2 :: [] ∧
       s.peri.uartRx.length < 64) ∧
    64 ≤ (List.replicate 64 (0 : Byte)).length ∧
    (let p : Peri := { gpioEn := 0x8000, gpioType := 0xC0000000 }
     bitOf p.gpioEn 15 = true ∧ bits p.gpioType 31 30 = 3 ∧ bitOf p.gpioEn 14 = false) ∧
    bits ({ gpioType := 0x40000000 } : Peri).gpioType 31 30 = 1 ∧ bitOf ({ gpioIn := 0x8000 } : Peri).gpioIn 15 = true ∧
    bitOf State.reset.peri.uartCfg.toNat 16 = true ∧ bitOf ({ uartCfg := 0x88 } : Peri).uartCfg.toNat 16 = false := by decide +kernel

/-! ### All commands -/

theorem witness_EveryStepKeepsTheCanonicalForm : Inv State.reset ∧ ∃ t, step State.reset = .next t :=
  ⟨by show Memory.wf [] = true; rfl, _, rfl⟩

theorem test_reset_inv : Inv State.reset := by show Memory.wf [] = true; rfl

theorem witness_EveryWellFormedCommandAnswers : (Instr.add 0 addW).wellFormed = true ∧ (Instr.sub 0 addW).wellFormed = false ∧
    Instr.aonReset.kuner = none := by decide +kernel

/-- The word of ADD given to SUB is refused by name. -/
theorem test_word_of_another_row_is_refused : exec (.sub 0 addW) State.reset = .refused .illFormed := by
  have h : (match exec (.sub 0 addW) State.reset with | .refused r => r == .illFormed | _ => false) = true := by decide +kernel
  split at h
  · next e => rw [e]; simpa using h
  · exact absurd h (by decide)

theorem witness_TheLifeCycleNeverGoesBack : nextIs .mainPgRise State.reset (fun t => lifeCycle t == 1) = true ∧
    lifeCycle { State.reset with otp := { lcRetired := 0xFF } } = 4 ∧ rootRevoked { State.reset with otp := { revoked0 := 0xFF } } 0 = true ∧
    rootDigest State.reset 0 = some 0 ∧ ({ deviceSecret := false } : Otp).deviceSecret = false := by decide +kernel

theorem witness_MemoryReadsBackWhatWasWritten : Memory.wf ([] : Memory) = true ∧ Memory.wf ([⟨5, 1⟩] : Memory) = true ∧
    Memory.wf ([⟨5, 0⟩] : Memory) = false := by decide +kernel

/-- No row of the table gives bits: no word spells a command. -/
theorem test_no_word_spells_a_command (n w : Nat) : decodeTableWord n w = none := rfl

/-! ### Values of single steps -/

/-- ADD S1, S2, S3 wraps, at both ends (R115). -/
theorem test_add_wraps : nextIs (.add 0 addW) (one { runner with s := [(2, 0xFFFFFFFF), (3, 2)] })
    (fun t => SMap.getD (coreOf t 0).s 1 0 == 1 && (coreOf t 0).pc == 8) = true := by decide +kernel

/-- CMP_LT is signed, CMP_LTU is not (R116). -/
theorem test_compare_signs : nextIs (.cmpLt 0 (sw 2 2 1 2 (3 * 2 ^ 30))) (one { runner with s := [(2, 0x80000000), (3, 1)] })
      (fun t => (SMap.get? (coreOf t 0).p 1).isSome) = true ∧
    nextIs (.cmpLtu 0 (sw 2 4 1 2 (3 * 2 ^ 30))) (one { runner with s := [(2, 0x80000000), (3, 1)] })
      (fun t => (SMap.get? (coreOf t 0).p 1).isNone) = true := by decide +kernel

/-- MULHU takes the high word of the unsigned product (R115). -/
theorem test_mulhu : nextIs (.mulhu 0 (sw 0 10 1 2 (2 * 2 ^ 30))) (one { runner with s := [(2, 0xFFFFFFFF)] })
    (fun t => SMap.getD (coreOf t 0).s 1 0 == 0xFFFFFFFE) = true := by decide +kernel

end Sys2Proof.Tests
end

/-! Every command keeps what `Keeps` says, and with it every step (O55). -/

namespace Sys2Proof.Machine

/-- Every command keeps what `Keeps` says, each by the lemma about its meaning. -/
theorem keeps_exec (i : Instr) (s : State) : KeepsE s (exec i s) :=
  match i with
  | .registerWrite .. => keeps_execRegisterWrite (.refl s)
  | .mailboxWordWrite .. => keeps_execMailboxWordWrite (.refl s)
  | .mailboxPost .. => keeps_execMailboxPost (.refl s)
  | .mailboxTake .. => keeps_execMailboxTake (.refl s)
  | .heldMessagePost .. => keeps_execHeldMessagePost (.refl s)
  | .mbxMaskLock .. => keeps_execMbxMaskLock (.refl s)
  | .commandDispatch .. => keeps_execCommandDispatch (.refl s)
  | .queueEntryStart .. => keeps_execQueueEntryStart (.refl s)
  | .dmaTransferComplete .. => keeps_execDmaTransferComplete (.refl s)
  | .watchdog .. => keeps_execWatchdog (.refl s)
  | .coreStop .. => keeps_execCoreStop (.refl s)
  | .coreClearResident .. => keeps_execCoreClearResident (.refl s)
  | .coreBistHold .. => keeps_execCoreBistHold (.refl s)
  | .coreRetire .. => keeps_execCoreRetire (.refl s)
  | .coreEnable .. => keeps_execCoreEnable (.refl s)
  | .coreArrayDutyWrite .. => keeps_execCoreArrayDutyWrite (.refl s)
  | .stopIdleTimeout .. => keeps_execStopIdleTimeout (.refl s)
  | .add .. => keeps_execAdd (.refl s)
  | .sub .. => keeps_execSub (.refl s)
  | .and .. => keeps_execAnd (.refl s)
  | .or .. => keeps_execOr (.refl s)
  | .xor .. => keeps_execXor (.refl s)
  | .sll .. => keeps_execSll (.refl s)
  | .srl .. => keeps_execSrl (.refl s)
  | .sra .. => keeps_execSra (.refl s)
  | .mul .. => keeps_execMul (.refl s)
  | .mulh .. => keeps_execMulh (.refl s)
  | .mulhu .. => keeps_execMulhu (.refl s)
  | .min .. => keeps_execMin (.refl s)
  | .max .. => keeps_execMax (.refl s)
  | .minu .. => keeps_execMinu (.refl s)
  | .maxu .. => keeps_execMaxu (.refl s)
  | .cmpEq .. => keeps_execCmpEq (.refl s)
  | .cmpNe .. => keeps_execCmpNe (.refl s)
  | .cmpLt .. => keeps_execCmpLt (.refl s)
  | .cmpGe .. => keeps_execCmpGe (.refl s)
  | .cmpLtu .. => keeps_execCmpLtu (.refl s)
  | .cmpGeu .. => keeps_execCmpGeu (.refl s)
  | .pand .. => keeps_execPand (.refl s)
  | .por .. => keeps_execPor (.refl s)
  | .pxor .. => keeps_execPxor (.refl s)
  | .pandn .. => keeps_execPandn (.refl s)
  | .pnot .. => keeps_execPnot (.refl s)
  | .sld .. => keeps_execSld (.refl s)
  | .sst .. => keeps_execSst (.refl s)
  | .sget .. => keeps_execSget (.refl s)
  | .b .. => keeps_execB (.refl s)
  | .bl .. => keeps_execBl (.refl s)
  | .br .. => keeps_execBr (.refl s)
  | .brl .. => keeps_execBrl (.refl s)
  | .loop .. => keeps_execLoop (.refl s)
  | .tld .. => keeps_execTld (.refl s)
  | .tst .. => keeps_execTst (.refl s)
  | .tpf .. => keeps_execTpf (.refl s)
  | .tchk .. => keeps_execTchk (.refl s)
  | .tdescLoad .. => keeps_execTdescLoad (.refl s)
  | .tdescCopy .. => keeps_execTdescCopy (.refl s)
  | .tdescSet .. => keeps_execTdescSet (.refl s)
  | .tdescAdd .. => keeps_execTdescAdd (.refl s)
  | .tdescSeti .. => keeps_execTdescSeti (.refl s)
  | .mwl .. => keeps_execMwl (.refl s)
  | .mma .. => keeps_execMma (.refl s)
  | .mmas .. => keeps_execMmas (.refl s)
  | .maccZero .. => keeps_execMaccZero (.refl s)
  | .maccRes .. => keeps_execMaccRes (.refl s)
  | .maccUnres .. => keeps_execMaccUnres (.refl s)
  | .maccCkpt .. => keeps_execMaccCkpt (.refl s)
  | .maccRestore .. => keeps_execMaccRestore (.refl s)
  | .kapp .. => keeps_execKapp (.refl s)
  | .kseal .. => keeps_execKseal (.refl s)
  | .kmap .. => keeps_execKmap (.refl s)
  | .kmapPrefetch .. => keeps_execKmapPrefetch (.refl s)
  | .eopMov .. => keeps_execEopMov (.refl s)
  | .eopAdd .. => keeps_execEopAdd (.refl s)
  | .eopSub .. => keeps_execEopSub (.refl s)
  | .eopMul .. => keeps_execEopMul (.refl s)
  | .eopMin .. => keeps_execEopMin (.refl s)
  | .eopMax .. => keeps_execEopMax (.refl s)
  | .eopAbs .. => keeps_execEopAbs (.refl s)
  | .eopNeg .. => keeps_execEopNeg (.refl s)
  | .eopRelu .. => keeps_execEopRelu (.refl s)
  | .eopExp2 .. => keeps_execEopExp2 (.refl s)
  | .eopExp .. => keeps_execEopExp (.refl s)
  | .eopLog2 .. => keeps_execEopLog2 (.refl s)
  | .eopRcp .. => keeps_execEopRcp (.refl s)
  | .eopRsqrt .. => keeps_execEopRsqrt (.refl s)
  | .eopSqrt .. => keeps_execEopSqrt (.refl s)
  | .eopSigmoid .. => keeps_execEopSigmoid (.refl s)
  | .eopTanh .. => keeps_execEopTanh (.refl s)
  | .eopSilu .. => keeps_execEopSilu (.refl s)
  | .eopGelu .. => keeps_execEopGelu (.refl s)
  | .eopAnd .. => keeps_execEopAnd (.refl s)
  | .eopOr .. => keeps_execEopOr (.refl s)
  | .eopXor .. => keeps_execEopXor (.refl s)
  | .eopShl .. => keeps_execEopShl (.refl s)
  | .eopSra .. => keeps_execEopSra (.refl s)
  | .erq .. => keeps_execErq (.refl s)
  | .esmx .. => keeps_execEsmx (.refl s)
  | .enormRms .. => keeps_execEnormRms (.refl s)
  | .enormLayer .. => keeps_execEnormLayer (.refl s)
  | .egateLstm .. => keeps_execEgateLstm (.refl s)
  | .egateGru .. => keeps_execEgateGru (.refl s)
  | .egateDssm .. => keeps_execEgateDssm (.refl s)
  | .escanScan .. => keeps_execEscanScan (.refl s)
  | .escanCombine .. => keeps_execEscanCombine (.refl s)
  | .eredSum .. => keeps_execEredSum (.refl s)
  | .eredMax .. => keeps_execEredMax (.refl s)
  | .eredMin .. => keeps_execEredMin (.refl s)
  | .eredArgmax .. => keeps_execEredArgmax (.refl s)
  | .eredSumsq .. => keeps_execEredSumsq (.refl s)
  | .wquantRange .. => keeps_execWquantRange (.refl s)
  | .wquantEncode .. => keeps_execWquantEncode (.refl s)
  | .swait .. => keeps_execSwait (.refl s)
  | .swaitPeek .. => keeps_execSwaitPeek (.refl s)
  | .swaitSatisfy .. => keeps_execSwaitSatisfy (.refl s)
  | .spost .. => keeps_execSpost (.refl s)
  | .fence .. => keeps_execFence (.refl s)
  | .endCmd .. => keeps_execEnd (.refl s)
  | .csend .. => keeps_execCsend (.refl s)
  | .crecv .. => keeps_execCrecv (.refl s)
  | .streamPairTransfer .. => keeps_execStreamPairTransfer (.refl s)
  | .lsend .. => keeps_execLsend (.refl s)
  | .lrecv .. => keeps_execLrecv (.refl s)
  | .keeperEndReport .. => keeps_execKeeperEndReport (.refl s)
  | .scaleShift .. => keeps_execScaleShift (.refl s)
  | .sessionReingest .. => keeps_execSessionReingest (.refl s)
  | .jobAdmission .. => keeps_execJobAdmission (.refl s)
  | .rotationStart .. => keeps_execRotationStart (.refl s)
  | .schedTableArm .. => keeps_execSchedTableArm (.refl s)
  | .sectorOpen .. => keeps_execSectorOpen (.refl s)
  | .sectorClose .. => keeps_execSectorClose (.refl s)
  | .semWaitReport .. => keeps_execSemWaitReport (.refl s)
  | .telemetryInterval .. => keeps_execTelemetryInterval (.refl s)
  | .otuFill .. => keeps_execOtuFill (.refl s)
  | .promotionDispatch .. => keeps_execPromotionDispatch (.refl s)
  | .promotionComplete .. => keeps_execPromotionComplete (.refl s)
  | .demotionComplete .. => keeps_execDemotionComplete (.refl s)
  | .deepCopyWriteComplete .. => keeps_execDeepCopyWriteComplete (.refl s)
  | .objectDelete .. => keeps_execObjectDelete (.refl s)
  | .pageWalkerPromote .. => keeps_execPageWalkerPromote (.refl s)
  | .otcInvalidate .. => keeps_execOtcInvalidate (.refl s)
  | .promoPause .. => keeps_execPromoPause (.refl s)
  | .pcieCfgRead .. => keeps_execPcieCfgRead (.refl s)
  | .pcieCfgWrite .. => keeps_execPcieCfgWrite (.refl s)
  | .pcieRetrain .. => keeps_execPcieRetrain (.refl s)
  | .pciePerst .. => keeps_execPciePerst (.refl s)
  | .pcieEnable .. => keeps_execPcieEnable (.refl s)
  | .pcieMsixArrival .. => keeps_execPcieMsixArrival (.refl s)
  | .pcieInboundRequest .. => keeps_execPcieInboundRequest (.refl s)
  | .nvmeCommandComplete .. => keeps_execNvmeCommandComplete (.refl s)
  | .arpRequest .. => keeps_execArpRequest (.refl s)
  | .ndSolicitation .. => keeps_execNdSolicitation (.refl s)
  | .icmpEcho .. => keeps_execIcmpEcho (.refl s)
  | .hostLinkLoss .. => keeps_execHostLinkLoss (.refl s)
  | .hostLinkReturn => keeps_execHostLinkReturn (.refl s)
  | .hostFailover .. => keeps_execHostFailover (.refl s)
  | .hostPortRestart .. => keeps_execHostPortRestart (.refl s)
  | .tc10SleepRequest .. => keeps_execTc10SleepRequest (.refl s)
  | .tc10Wakeup .. => keeps_execTc10Wakeup (.refl s)
  | .mkaFrame .. => keeps_execMkaFrame (.refl s)
  | .tctOpen .. => keeps_execTctOpen (.refl s)
  | .tctClose .. => keeps_execTctClose (.refl s)
  | .tctRequestFrame .. => keeps_execTctRequestFrame (.refl s)
  | .tctAck .. => keeps_execTctAck (.refl s)
  | .tctTime .. => keeps_execTctTime (.refl s)
  | .tctKeepalive .. => keeps_execTctKeepalive (.refl s)
  | .tctRetransmitTimeout .. => keeps_execTctRetransmitTimeout (.refl s)
  | .keepaliveTimer .. => keeps_execKeepaliveTimer (.refl s)
  | .associationLost .. => keeps_execAssociationLost (.refl s)
  | .associationExpiry .. => keeps_execAssociationExpiry (.refl s)
  | .tctOutboundMessage .. => keeps_execTctOutboundMessage (.refl s)
  | .loadModel .. => keeps_execLoadModel (.refl s)
  | .unloadModel .. => keeps_execUnloadModel (.refl s)
  | .queueCreate .. => keeps_execQueueCreate (.refl s)
  | .queueDestroy .. => keeps_execQueueDestroy (.refl s)
  | .queueSettings .. => keeps_execQueueSettings (.refl s)
  | .scheduleSet .. => keeps_execScheduleSet (.refl s)
  | .loadData .. => keeps_execLoadData (.refl s)
  | .loadImageTimeout .. => keeps_execLoadImageTimeout (.refl s)
  | .storeImage .. => keeps_execStoreImage (.refl s)
  | .storeDelete .. => keeps_execStoreDelete (.refl s)
  | .storeList .. => keeps_execStoreList (.refl s)
  | .storeFormat .. => keeps_execStoreFormat (.refl s)
  | .openSession .. => keeps_execOpenSession (.refl s)
  | .closeSession .. => keeps_execCloseSession (.refl s)
  | .sessionSettings .. => keeps_execSessionSettings (.refl s)
  | .invoke .. => keeps_execInvoke (.refl s)
  | .submitInput .. => keeps_execSubmitInput (.refl s)
  | .cancel .. => keeps_execCancel (.refl s)
  | .queryHandle .. => keeps_execQueryHandle (.refl s)
  | .readOutput .. => keeps_execReadOutput (.refl s)
  | .tenantCreate .. => keeps_execTenantCreate (.refl s)
  | .tenantRemove .. => keeps_execTenantRemove (.refl s)
  | .setMode .. => keeps_execSetMode (.refl s)
  | .readRecords .. => keeps_execReadRecords (.refl s)
  | .calibrationWrite .. => keeps_execCalibrationWrite (.refl s)
  | .calibrationErase .. => keeps_execCalibrationErase (.refl s)
  | .calibrationRead .. => keeps_execCalibrationRead (.refl s)
  | .attest .. => keeps_execAttest (.refl s)
  | .telemetrySet .. => keeps_execTelemetrySet (.refl s)
  | .fabricPlace .. => keeps_execFabricPlace (.refl s)
  | .memberLeave .. => keeps_execMemberLeave (.refl s)
  | .updateInstall .. => keeps_execUpdateInstall (.refl s)
  | .updateCommit .. => keeps_execUpdateCommit (.refl s)
  | .updateRevert .. => keeps_execUpdateRevert (.refl s)
  | .ispParameterUpdate .. => keeps_execIspParameterUpdate (.refl s)
  | .modelSwitch .. => keeps_execModelSwitch (.refl s)
  | .tenantKeyRotation .. => keeps_execTenantKeyRotation (.refl s)
  | .lifeCycleChange .. => keeps_execLifeCycleChange (.refl s)
  | .revokeRoot .. => keeps_execRevokeRoot (.refl s)
  | .provisionRootDigest .. => keeps_execProvisionRootDigest (.refl s)
  | .provisionDeviceKey .. => keeps_execProvisionDeviceKey (.refl s)
  | .provisionCertificate .. => keeps_execProvisionCertificate (.refl s)
  | .provisionSystemCak .. => keeps_execProvisionSystemCak (.refl s)
  | .bootStepClear .. => keeps_execBootStepClear (.refl s)
  | .retirementMapClear .. => keeps_execRetirementMapClear (.refl s)
  | .updateAutoCommit .. => keeps_execUpdateAutoCommit (.refl s)
  | .updateTrialExpiry .. => keeps_execUpdateTrialExpiry (.refl s)
  | .agconLinkTrained .. => keeps_execAgconLinkTrained (.refl s)
  | .auth .. => keeps_execAuth (.refl s)
  | .key .. => keeps_execKey (.refl s)
  | .agconRekey .. => keeps_execAgconRekey (.refl s)
  | .data .. => keeps_execData (.refl s)
  | .credit .. => keeps_execCredit (.refl s)
  | .idle .. => keeps_execIdle (.refl s)
  | .linkAck .. => keeps_execLinkAck (.refl s)
  | .linkNak .. => keeps_execLinkNak (.refl s)
  | .agconLinkDown .. => keeps_execAgconLinkDown (.refl s)
  | .peerLost .. => keeps_execPeerLost (.refl s)
  | .moor .. => keeps_execMoor (.refl s)
  | .moorEnd .. => keeps_execMoorEnd (.refl s)
  | .probe .. => keeps_execProbe (.refl s)
  | .segReport .. => keeps_execSegReport (.refl s)
  | .lightBuild => keeps_execLightBuild (.refl s)
  | .light .. => keeps_execLight (.refl s)
  | .memberLost .. => keeps_execMemberLost (.refl s)
  | .placeTimeout .. => keeps_execPlaceTimeout (.refl s)
  | .rerun .. => keeps_execRerun (.refl s)
  | .place .. => keeps_execPlace (.refl s)
  | .move .. => keeps_execMove (.refl s)
  | .keyRetire .. => keeps_execKeyRetire (.refl s)
  | .keyRetireAck .. => keeps_execKeyRetireAck (.refl s)
  | .fabricControlSend .. => keeps_execFabricControlSend (.refl s)
  | .moorStart .. => keeps_execMoorStart (.refl s)
  | .routeCommit .. => keeps_execRouteCommit (.refl s)
  | .agconPortRestart .. => keeps_execAgconPortRestart (.refl s)
  | .aonReset => keeps_execAonReset (.refl s)
  | .ringFrameRecord .. => keeps_execRingFrameRecord (.refl s)
  | .aonRunStart .. => keeps_execAonRunStart (.refl s)
  | .aonRunStop .. => keeps_execAonRunStop (.refl s)
  | .aonLatch .. => keeps_execAonLatch (.refl s)
  | .dspResetAssert .. => keeps_execDspResetAssert (.refl s)
  | .dspResetRelease .. => keeps_execDspResetRelease (.refl s)
  | .aonConfigWrite .. => keeps_execAonConfigWrite (.refl s)
  | .ringGatedRead .. => keeps_execRingGatedRead (.refl s)
  | .aonPosLowRead .. => keeps_execAonPosLowRead (.refl s)
  | .gateServiceOpen .. => keeps_execGateServiceOpen (.refl s)
  | .gateClose .. => keeps_execGateClose (.refl s)
  | .gateExpiry => keeps_execGateExpiry (.refl s)
  | .candidateOpen .. => keeps_execCandidateOpen (.refl s)
  | .candidateClose .. => keeps_execCandidateClose (.refl s)
  | .candidateExpiry => keeps_execCandidateExpiry (.refl s)
  | .wake .. => keeps_execWake (.refl s)
  | .event .. => keeps_execEvent (.refl s)
  | .closed .. => keeps_execClosed (.refl s)
  | .wakeVerdict .. => keeps_execWakeVerdict (.refl s)
  | .dspPing => keeps_execDspPing (.refl s)
  | .modeRequest .. => keeps_execModeRequest (.refl s)
  | .modeTransitionComplete => keeps_execModeTransitionComplete (.refl s)
  | .backgroundTrainingDone => keeps_execBackgroundTrainingDone (.refl s)
  | .idleHoldExpiry => keeps_execIdleHoldExpiry (.refl s)
  | .deferredDownTimeout => keeps_execDeferredDownTimeout (.refl s)
  | .csiFrameStart .. => keeps_execCsiFrameStart (.refl s)
  | .csiFrameEnd .. => keeps_execCsiFrameEnd (.refl s)
  | .csiLinePacket .. => keeps_execCsiLinePacket (.refl s)
  | .csiShortPacketIgnored .. => keeps_execCsiShortPacketIgnored (.refl s)
  | .camFrameTimeout .. => keeps_execCamFrameTimeout (.refl s)
  | .camFrameDone .. => keeps_execCamFrameDone (.refl s)
  | .camBufferRelease .. => keeps_execCamBufferRelease (.refl s)
  | .camContextEnable .. => keeps_execCamContextEnable (.refl s)
  | .camParamHold .. => keeps_execCamParamHold (.refl s)
  | .camLowRate .. => keeps_execCamLowRate (.refl s)
  | .camPortEnable .. => keeps_execCamPortEnable (.refl s)
  | .secZeroiseAll .. => keeps_execSecZeroiseAll (.refl s)
  | .secOwnerUnlock .. => keeps_execSecOwnerUnlock (.refl s)
  | .secRequest => keeps_execSecRequest (.refl s)
  | .secResult => keeps_execSecResult (.refl s)
  | .secRestart .. => keeps_execSecRestart (.refl s)
  | .trngHealthFail => keeps_execTrngHealthFail (.refl s)
  | .tenantDrainComplete .. => keeps_execTenantDrainComplete (.refl s)
  | .tenantScrubComplete .. => keeps_execTenantScrubComplete (.refl s)
  | .quenchAckTimeout .. => keeps_execQuenchAckTimeout (.refl s)
  | .keeperRestart .. => keeps_execKeeperRestart (.refl s)
  | .alarmPath .. => keeps_execAlarmPath (.refl s)
  | .alarmForce .. => keeps_execAlarmForce (.refl s)
  | .healthMonitorSample => keeps_execHealthMonitorSample (.refl s)
  | .hbmPatrolScrub .. => keeps_execHbmPatrolScrub (.refl s)
  | .deepPatrolScrub .. => keeps_execDeepPatrolScrub (.refl s)
  | .sramScrub .. => keeps_execSramScrub (.refl s)
  | .scrubLate .. => keeps_execScrubLate (.refl s)
  | .mramWearRemap .. => keeps_execMramWearRemap (.refl s)
  | .interfaceCalibration .. => keeps_execInterfaceCalibration (.refl s)
  | .monitorRecalibration .. => keeps_execMonitorRecalibration (.refl s)
  | .selftestSlice .. => keeps_execSelftestSlice (.refl s)
  | .selftestDeferRetry .. => keeps_execSelftestDeferRetry (.refl s)
  | .coldStart .. => keeps_execColdStart (.refl s)
  | .memoryTrainingDone .. => keeps_execMemoryTrainingDone (.refl s)
  | .bootWatchdog => keeps_execBootWatchdog (.refl s)
  | .warmStart .. => keeps_execWarmStart (.refl s)
  | .logbookDropSummary => keeps_execLogbookDropSummary (.refl s)
  | .mainPgRise => keeps_execMainPgRise (.refl s)
  | .mainPgFall => keeps_execMainPgFall (.refl s)
  | .mainPgTimeout => keeps_execMainPgTimeout (.refl s)
  | .mainEnRetry => keeps_execMainEnRetry (.refl s)
  | .porstNAssert => keeps_execPorstNAssert (.refl s)
  | .porstNRelease => keeps_execPorstNRelease (.refl s)
  | .throttleNChange .. => keeps_execThrottleNChange (.refl s)
  | .powerCapStep .. => keeps_execPowerCapStep (.refl s)
  | .powerCapUnmet => keeps_execPowerCapUnmet (.refl s)
  | .thermalTrip => keeps_execThermalTrip (.refl s)
  | .thermalTripRelease => keeps_execThermalTripRelease (.refl s)
  | .thermalTripTimeout => keeps_execThermalTripTimeout (.refl s)
  | .sysTickRead .. => keeps_execSysTickRead (.refl s)
  | .periOspiGo .. => keeps_execPeriOspiGo (.refl s)
  | .ospiWindowRead .. => keeps_execOspiWindowRead (.refl s)
  | .ospiCommandDone .. => keeps_execOspiCommandDone (.refl s)
  | .ospiCommandTimeout => keeps_execOspiCommandTimeout (.refl s)
  | .i2cTransfer .. => keeps_execI2cTransfer (.refl s)
  | .i2cTransferDone .. => keeps_execI2cTransferDone (.refl s)
  | .i2cStretchTimeout .. => keeps_execI2cStretchTimeout (.refl s)
  | .i2cFifoWrite .. => keeps_execI2cFifoWrite (.refl s)
  | .i2cFifoRead .. => keeps_execI2cFifoRead (.refl s)
  | .spiTransfer .. => keeps_execSpiTransfer (.refl s)
  | .spiTransferDone .. => keeps_execSpiTransferDone (.refl s)
  | .spiFifoWrite .. => keeps_execSpiFifoWrite (.refl s)
  | .spiFifoRead .. => keeps_execSpiFifoRead (.refl s)
  | .gpioInterrupt .. => keeps_execGpioInterrupt (.refl s)
  | .uartDataWrite .. => keeps_execUartDataWrite (.refl s)
  | .uartDataRead .. => keeps_execUartDataRead (.refl s)
  | .uartRxByte .. => keeps_execUartRxByte (.refl s)
  | .queuedInstructionComplete .. => keeps_execQueuedInstructionComplete (.refl s)
  | .hostLinkUp .. => keeps_execHostLinkUp (.refl s)
  | .hostFrameDropped port _ => keeps_execHostFrameDropped (_port := port) (.refl s)
  | .agconFrameRejected .. => keeps_execAgconFrameRejected (.refl s)
  | .csiLaneStateChange .. => keeps_execCsiLaneStateChange (.refl s)
  | .pcieLinkChange .. => keeps_execPcieLinkChange (.refl s)
  | .uartTxByteDone => keeps_execUartTxByteDone (.refl s)
  | .keyRewriteComplete .. => keeps_execKeyRewriteComplete (.refl s)

/-- With no command waiting, a step lets one device tick pass. -/
theorem step_of_pending_nil {s : State} (h : s.pending = []) : step s = .next (idle s) := by
  unfold step
  rw [h]

/-- With commands waiting, a step runs the front one on the rest of the queue. -/
theorem step_of_pending_cons {s : State} {i : Instr} {r : List Instr} (h : s.pending = i :: r) :
    step s = exec i { s with pending := r } := by
  unfold step
  rw [h]

/-- A step takes the front command off the queue and otherwise keeps what `Keeps` says. -/
theorem step_keeps {s t : State} (h : step s = .next t) : Keeps { s with pending := s.pending.tail } t := by
  cases hp : s.pending with
  | nil =>
    rw [step_of_pending_nil hp] at h
    cases h
    have hs : { s with pending := ([] : List Instr).tail } = s := by rw [List.tail_nil, ← hp]
    rw [hs]
    exact keeps_idle s (.refl s)
  | cons i r =>
    rw [step_of_pending_cons hp] at h
    exact (keeps_exec i { s with pending := r }).all t h

/-- Settles O55: a command keeps what `Keeps` says by the lemma about its meaning, and so does a device tick. -/
theorem everyStepKeepsTheCanonicalForm : Obligations.EveryStepKeepsTheCanonicalForm := by
  unfold Obligations.EveryStepKeepsTheCanonicalForm
  intro s t h
  have hk := step_keeps h
  exact ⟨hk.memory, hk.queue, hk.fuses, hk.logbook, hk.free⟩

end Sys2Proof.Machine

/-! The fields of CORE_CTRL (R97, R98): who writes them, and when a write is in force. -/

namespace Sys2Proof.Machine

theorem keeperWrite_of_keeper {by_ : Req} (h : isKeeper by_ = true) (s : State) (f : State → State) :
    keeperWrite by_ s f = busOk (f s) := by
  simp [keeperWrite, h]

theorem keeperWrite_of_other {by_ : Req} (h : isKeeper by_ = false) (s : State) (f : State → State) :
    keeperWrite by_ s f = busError s := by
  simp [keeperWrite, h]

theorem atRest_iff (c : Core) : atRest c = true ↔ c.st ≠ .running ∧ c.st ≠ .stopping := by
  simp [atRest]

/-- R97: on a core that runs or drains, a write of CORE_CTRL sets the shadow alone. -/
theorem ctrlWrite_of_busy {s : State} {n : Nat} {f : Core → Core}
    (h : (f (coreOf s n)).st = .running ∨ (f (coreOf s n)).st = .stopping) :
    ctrlWrite s n f = setCore s n (f (coreOf s n)) := by
  have hr : atRest (f (coreOf s n)) = false := by
    rw [Bool.eq_false_iff, Ne, atRest_iff]
    exact fun hc => h.elim hc.1 hc.2
  simp [ctrlWrite, hr]

/-- R97: on a core at rest, a write of CORE_CTRL is at the command boundary already. -/
theorem ctrlWrite_of_rest {s : State} {n : Nat} {f : Core → Core}
    (h1 : (f (coreOf s n)).st ≠ .running) (h2 : (f (coreOf s n)).st ≠ .stopping) :
    ctrlWrite s n f = setCore s n (atBoundary (f (coreOf s n))) := by
  have hr : atRest (f (coreOf s n)) = true := (atRest_iff _).2 ⟨h1, h2⟩
  simp [ctrlWrite, hr]

/-- The core with its CORE_CTRL shadows in force (R10). -/
def inForce (c : Core) : Core := { c with enable := c.shEnable, retire := c.shRetire, bistHold := c.shBistHold }

/-- R10, R97: without a pending clear_resident the boundary only brings the shadows into force. -/
theorem atBoundary_of_no_clear {c : Core} (h : c.clearPending = false) :
    atBoundary c = { inForce c with st := restState (inForce c) } := by
  simp [atBoundary, inForce, h]

/-- R86: with a clear_resident pending, the boundary clears and releases the resident rows too. -/
theorem atBoundary_of_clear {c : Core} (h : c.clearPending = true) :
    atBoundary c = { clearResident (inForce c) with st := restState (clearResident (inForce c)) } := by
  simp [atBoundary, inForce, h]

/-- R98: a stop of a core that neither runs nor drains changes nothing. -/
theorem stopCore_of_rest {s : State} {n : Nat} (h1 : (coreOf s n).st ≠ .running) (h2 : (coreOf s n).st ≠ .stopping) :
    stopCore s n = s := by
  simp [stopCore, h1, h2]

theorem stopCore_of_running {s : State} {n : Nat} (h : (coreOf s n).st = .running) :
    stopCore s n = endCommand s n .stop := by
  simp [stopCore, h]

/-- A core that is not in its reset state reads back, whether or not the cores are listed in order. -/
theorem coreOf_setCore_of_ne {s : State} {n : Nat} {c : Core} (h : c ≠ {}) : coreOf (setCore s n c) n = c := by
  unfold coreOf setCore SMap.put
  rw [if_neg h]
  exact SMap.getD_set_same s.cores n c {}

/-- R135: a command that has transfers under way is not over. -/
theorem finish_of_transfers {s : State} {n : Nat} (h : (coreOf s n).d0In ++ (coreOf s n).d1In ≠ []) : finish s n = s := by
  have hd : drained (coreOf s n) = false := by
    simp only [drained, inFlight, Bool.and_eq_false_iff, List.isEmpty_eq_false_iff]
    simp only [ne_eq, List.append_eq_nil_iff, not_and] at h ⊢
    exact Or.inl fun h0 => h h0.2
  simp [finish, hd]

/-- R98, R131: core c once its command is ended with transfers in the mesh: these are marked as discarded, the rest is gone. -/
def endedCore (c : Core) (e : Ending) : Core :=
  { c with
    st := .stopping, ending := some e, mq := [], eq := [], d0 := [], d1 := [], mIn := [], eIn := [],
    d0In := c.d0In.map fun x => { x with discard := true }, d1In := c.d1In.map fun x => { x with discard := true },
    loops := [], swait := none }

/-- R98, R131: the end of a command with transfers in the mesh waits for them. -/
theorem endCommand_of_transfers {s : State} {n : Nat} (e : Ending) (h : (coreOf s n).d0In ++ (coreOf s n).d1In ≠ []) :
    endCommand s n e = { setCore s n (endedCore (coreOf s n) e) with
      sems := s.sems.map fun m => (m.1, { m.2 with waiters := m.2.waiters.filter fun x => x.core != n }) } := by
  have hne : endedCore (coreOf s n) e ≠ {} := fun h0 => by
    have : CoreSt.stopping = .off := congrArg Core.st h0
    cases this
  refine finish_of_transfers ?_
  show (coreOf (setCore s n (endedCore (coreOf s n) e)) n).d0In ++ (coreOf (setCore s n (endedCore (coreOf s n) e)) n).d1In ≠ []
  rw [coreOf_setCore_of_ne hne]
  simpa [endedCore] using h

/-- Keeper's write of CORE_CTRL to a core that runs or drains. -/
theorem keeperWrite_ctrlWrite_of_busy {by_ : Req} {s : State} {n : Nat} {f : Core → Core} (hk : isKeeper by_ = true)
    (h : (f (coreOf s n)).st = .running ∨ (f (coreOf s n)).st = .stopping) :
    keeperWrite by_ s (fun s => ctrlWrite s n f) = busOk (setCore s n (f (coreOf s n))) := by
  rw [keeperWrite_of_keeper hk, ctrlWrite_of_busy h]

/-- Keeper's write of CORE_CTRL to a core at rest. -/
theorem keeperWrite_ctrlWrite_of_rest {by_ : Req} {s : State} {n : Nat} {f : Core → Core} {c : Core} (hk : isKeeper by_ = true)
    (h1 : (f (coreOf s n)).st ≠ .running) (h2 : (f (coreOf s n)).st ≠ .stopping) (hc : atBoundary (f (coreOf s n)) = c) :
    keeperWrite by_ s (fun s => ctrlWrite s n f) = busOk (setCore s n c) := by
  rw [keeperWrite_of_keeper hk, ctrlWrite_of_rest h1 h2, hc]

/-- Settles O16: the six rows are Keeper's writes; a write of the fields reaches the shadow and, on a core at rest, the boundary
at once; a stop ends the command of a running core. -/
theorem coreControlWritesActAtTheCommandBoundary : Obligations.CoreControlWritesActAtTheCommandBoundary := by
  unfold Obligations.CoreControlWritesActAtTheCommandBoundary
  intro by_ core v d s n c set rest boundary
  refine ⟨?other, ?keeper⟩
  case other =>
    intro h i hi
    simp only [List.mem_cons, List.not_mem_nil, or_false] at hi
    rcases hi with rfl | rfl | rfl | rfl | rfl | rfl <;> exact congrArg _ (keeperWrite_of_other h s _)
  case keeper =>
    intro h
    refine ⟨congrArg _ (keeperWrite_of_keeper h s _), ?busy, ?rest, ?stopRest, ?stopRunning⟩
    case busy =>
      intro hb
      exact ⟨congrArg _ (keeperWrite_ctrlWrite_of_busy h hb), congrArg _ (keeperWrite_ctrlWrite_of_busy h hb),
        congrArg _ (keeperWrite_ctrlWrite_of_busy h hb), congrArg _ (keeperWrite_ctrlWrite_of_busy h hb)⟩
    case rest =>
      intro h1 h2 hp
      refine ⟨congrArg _ (keeperWrite_ctrlWrite_of_rest h h1 h2 (atBoundary_of_no_clear hp)),
        congrArg _ (keeperWrite_ctrlWrite_of_rest h h1 h2 (atBoundary_of_no_clear hp)),
        congrArg _ (keeperWrite_ctrlWrite_of_rest h h1 h2 (atBoundary_of_no_clear hp)),
        congrArg _ (keeperWrite_ctrlWrite_of_rest h h1 h2 ((atBoundary_of_clear rfl).trans ?_))⟩
      simp only [clearResident, inForce, hp]
      rfl
    case stopRest =>
      intro h1 h2
      exact congrArg _ ((keeperWrite_of_keeper h s (stopCore · n)).trans (congrArg busOk (stopCore_of_rest h1 h2)))
    case stopRunning =>
      intro hr ht drop
      exact congrArg _ ((keeperWrite_of_keeper h s (stopCore · n)).trans
        (congrArg busOk ((stopCore_of_running hr).trans (endCommand_of_transfers .stop ht))))

end Sys2Proof.Machine

/-! A write to a register (R8, R9, R19, R20): the block of an address, the register of an offset, and the answer. -/

namespace Sys2Proof.Machine

/-! ### The register of an offset -/

theorem regIx_at (base : Nat) {stride n k : Nat} (hs : 0 < stride) (hk : k < n) :
    regIx (base + stride * k) base stride n = some k := by
  have h1 : stride * k < stride * n := Nat.mul_lt_mul_of_pos_left hk hs
  have h2 : base + stride * k - base = stride * k := by omega
  simp [regIx, h1, Nat.mul_div_cancel_left k hs]

theorem regIx_before {off base : Nat} (stride n : Nat) (h : off < base) : regIx off base stride n = none :=
  if_neg fun hc => Nat.not_le_of_lt h hc.1

theorem regIx_after {off base stride n : Nat} (h : base + stride * n ≤ off) : regIx off base stride n = none :=
  if_neg fun hc => Nat.not_le_of_lt hc.2.1 h

/-! ### The block of an address (R19) -/

theorem regionOf_registers (b : Board) {a : Nat} (h1 : 0x00FF00000000 ≤ a) (h2 : a < 0x00FF0D000000)
    (hc : ¬ (0x00FF01000000 ≤ a ∧ a < 0x00FF01200000)) : regionOf b a = regBlock ((a - 0x00FF00000000) / 0x1000000) := by
  unfold regionOf hbmSize hbmUnit deepBase psramBase ssrBase
  rw [if_neg (by omega), if_neg (by omega), if_neg (by omega), if_neg (by omega), if_neg (by omega), if_neg (by omega),
    if_neg (by omega), if_neg (by omega), if_neg (by omega), if_neg (by omega), if_neg (by omega), if_neg hc, if_pos ⟨h1, h2⟩]

theorem regionOf_coreRegs (b : Board) {n off : Nat} (hn : n < 32) (ho : off < 0x10000) :
    regionOf b (coreRegBase + 0x10000 * n + off) = some (.coreRegs n) := by
  unfold regionOf hbmSize hbmUnit deepBase psramBase ssrBase coreRegBase
  rw [if_neg (by omega), if_neg (by omega), if_neg (by omega), if_neg (by omega), if_neg (by omega), if_neg (by omega),
    if_neg (by omega), if_neg (by omega), if_neg (by omega), if_neg (by omega), if_neg (by omega), if_pos (by omega)]
  congr 2
  omega

/-- The base of the k-th register block. -/
def blockBase (k : Nat) : Nat := 0x00FF00000000 + 0x1000000 * k

/-- The addresses of the k-th register block lie in its range; block 1 is that of the cores. -/
theorem regionOf_block (b : Board) {k off : Nat} (hk : k < 13) (h1 : k ≠ 1) (ho : off < 0x1000000) :
    regionOf b (blockBase k + off) = regBlock k := by
  unfold blockBase
  rw [regionOf_registers b (by omega) (by omega) (by omega)]
  congr 1
  omega

/-! ### The answer -/

theorem registerWrite_of_hole {s : State} {a : Nat} (by_ : Req) (v : Word) (h : regionOf s.board a = none) :
    registerWrite s by_ a v = busError s := by
  simp only [registerWrite, h]

theorem registerWrite_of_misaligned {s : State} {a : Nat} (by_ : Req) (v : Word) (h : a % 4 ≠ 0) :
    registerWrite s by_ a v = busError s := by
  unfold registerWrite
  split
  · rfl
  · rw [if_pos (Or.inl h)]

theorem registerWrite_of_not_reached {s : State} {a : Nat} {by_ : Req} {r : Region} (v : Word)
    (hr : regionOf s.board a = some r) (h : reaches by_ true r = false) : registerWrite s by_ a v = busError s := by
  simp only [registerWrite, hr, h, Bool.not_false, or_true, if_true]

/-- R23: an aligned write below the mailbox words' end is the mailbox write of that word. -/
theorem registerWrite_of_mailbox {s : State} {a : Nat} {by_ : Req} (v : Word) (hr : regionOf s.board a = some .mbxRegs)
    (ha : a % 4 = 0) (h : reaches by_ true .mbxRegs = true) (hw : a % 0x1000000 < 0x1000) :
    registerWrite s by_ a v = mbxWrite s by_ (a % 0x1000000 / 32) (a % 32 / 4) v := by
  simp only [registerWrite, hr, ha, h, hw, ne_eq, not_true_eq_false, Bool.not_true, Bool.false_eq_true, or_self, if_false, and_self,
    if_true]

/-- An aligned write by a requester that reaches the block, at no mailbox word, does what the block makes of it. -/
theorem registerWrite_of_reached {s : State} {a : Nat} {by_ : Req} {r : Region} (v : Word) (hr : regionOf s.board a = some r)
    (ha : a % 4 = 0) (h : reaches by_ true r = true) (hm : ¬ (r = .mbxRegs ∧ a % 0x1000000 < 0x1000)) :
    registerWrite s by_ a v = ((blockWrite s by_ r a v).map busOk).getD (busError s) := by
  simp only [registerWrite, hr, ha, h, hm, ne_eq, not_true_eq_false, Bool.not_true, Bool.false_eq_true, or_self, if_false]
  cases blockWrite s by_ r a v <;> rfl

theorem registerWrite_of_register {s t : State} {a : Nat} {by_ : Req} {r : Region} {v : Word} (hr : regionOf s.board a = some r)
    (ha : a % 4 = 0) (h : reaches by_ true r = true) (hm : ¬ (r = .mbxRegs ∧ a % 0x1000000 < 0x1000))
    (hb : blockWrite s by_ r a v = some t) : registerWrite s by_ a v = busOk t := by
  rw [registerWrite_of_reached v hr ha h hm, hb]
  rfl

theorem registerWrite_of_no_register {s : State} {a : Nat} {by_ : Req} {r : Region} {v : Word} (hr : regionOf s.board a = some r)
    (hm : ¬ (r = .mbxRegs ∧ a % 0x1000000 < 0x1000)) (hb : blockWrite s by_ r a v = none) :
    registerWrite s by_ a v = busError s := by
  by_cases ha : a % 4 = 0
  · cases h : reaches by_ true r with
    | false => exact registerWrite_of_not_reached v hr h
    | true =>
      rw [registerWrite_of_reached v hr ha h hm, hb]
      rfl
  · exact registerWrite_of_misaligned by_ v ha

/-- REGISTER_WRITE at an address of the map, which has 48 bits. -/
theorem execRegisterWrite_ofNat (by_ : Req) {a : Nat} (v : Word) (s : State) (ha : a < 2 ^ 48) :
    execRegisterWrite by_ (BitVec.ofNat 48 a) v s = .next (registerWrite s by_ a v) := by
  rw [execRegisterWrite, BitVec.toNat_ofNat, Nat.mod_eq_of_lt ha]

theorem blockBase_add_mod (k : Nat) {off : Nat} (ho : off < 0x1000000) : (blockBase k + off) % 0x1000000 = off := by
  unfold blockBase
  omega

/-- REGISTER_WRITE of the register at an offset of the k-th block, past the mailbox words. -/
theorem execRegisterWrite_block {s t : State} {by_ : Req} {v : Word} {k off : Nat} {r : Region} (hk : k < 13) (h1 : k ≠ 1)
    (hr : regBlock k = some r) (ho : off < 0x1000000) (ha : off % 4 = 0) (h : reaches by_ true r = true)
    (hm : r = .mbxRegs → 0x1000 ≤ off) (hb : blockWrite s by_ r (blockBase k + off) v = some t) :
    execRegisterWrite by_ (BitVec.ofNat 48 (blockBase k + off)) v s = .next (busOk t) := by
  have hp : ¬ (r = .mbxRegs ∧ (blockBase k + off) % 0x1000000 < 0x1000) := by
    rw [blockBase_add_mod k ho]
    exact fun hc => Nat.not_lt_of_le (hm hc.1) hc.2
  rw [execRegisterWrite_ofNat by_ v s (by unfold blockBase; omega),
    registerWrite_of_register ((regionOf_block s.board hk h1 ho).trans hr) (by unfold blockBase; omega) h hp hb]

theorem execRegisterWrite_sys {s t : State} (h : Fin 4) {v : Word} {off : Nat} (ho : off < 0x1000000) (ha : off % 4 = 0)
    (hb : sysWrite s off v = some t) :
    execRegisterWrite (.keeper h) (BitVec.ofNat 48 (sysRegBase + off)) v s = .next (busOk t) :=
  execRegisterWrite_block (k := 0) (r := .sysRegs) (by decide) (by decide) rfl ho ha rfl (fun e => by cases e)
    ((congrArg (sysWrite s · v) (blockBase_add_mod 0 ho)).trans hb)

theorem execRegisterWrite_mem {s t : State} (h : Fin 4) {v : Word} {off : Nat} (ho : off < 0x1000000) (ha : off % 4 = 0)
    (hb : memRegWrite s off v = some t) :
    execRegisterWrite (.keeper h) (BitVec.ofNat 48 (memRegBase + off)) v s = .next (busOk t) :=
  execRegisterWrite_block (k := 2) (r := .memRegs) (by decide) (by decide) rfl ho ha rfl (fun e => by cases e)
    ((congrArg (memRegWrite s · v) (blockBase_add_mod 2 ho)).trans hb)

theorem execRegisterWrite_sec {s t : State} {v : Word} {off : Nat} (ho : off < 0x1000000) (ha : off % 4 = 0)
    (hb : secRegWrite s off v = some t) :
    execRegisterWrite .sec (BitVec.ofNat 48 (secRegBase + off)) v s = .next (busOk t) :=
  execRegisterWrite_block (k := 8) (r := .secRegs) (by decide) (by decide) rfl ho ha rfl (fun e => by cases e)
    ((congrArg (secRegWrite s · v) (blockBase_add_mod 8 ho)).trans hb)

/-- R466: SEC alone writes its block. -/
theorem execRegisterWrite_sec_of_keeper {s : State} (h : Fin 4) (v : Word) {off : Nat} (ho : off < 0x1000000) :
    execRegisterWrite (.keeper h) (BitVec.ofNat 48 (secRegBase + off)) v s = .next (busError s) :=
  (execRegisterWrite_ofNat (.keeper h) v s (by unfold secRegBase; omega)).trans
    (congrArg _ (registerWrite_of_not_reached v (regionOf_block s.board (k := 8) (by decide) (by decide) ho) rfl))

theorem execRegisterWrite_mbx {s t : State} (h : Fin 4) {v : Word} {off : Nat} (hw : 0x1000 ≤ off) (ho : off < 0x1000000)
    (ha : off % 4 = 0) (hb : mbxRegWrite s (.keeper h) off v = some t) :
    execRegisterWrite (.keeper h) (BitVec.ofNat 48 (mbxRegBase + off)) v s = .next (busOk t) :=
  execRegisterWrite_block (k := 9) (r := .mbxRegs) (by decide) (by decide) rfl ho ha rfl (fun _ => hw)
    ((congrArg (mbxRegWrite s (.keeper h) · v) (blockBase_add_mod 9 ho)).trans hb)

theorem execRegisterWrite_ras {s t : State} (h : Fin 4) {v : Word} {off : Nat} (ho : off < 0x1000000) (ha : off % 4 = 0)
    (hb : rasWrite s off v = some t) :
    execRegisterWrite (.keeper h) (BitVec.ofNat 48 (rasRegBase + off)) v s = .next (busOk t) :=
  execRegisterWrite_block (k := 10) (r := .rasRegs) (by decide) (by decide) rfl ho ha rfl (fun e => by cases e)
    ((congrArg (rasWrite s · v) (blockBase_add_mod 10 ho)).trans hb)

theorem execRegisterWrite_core {s t : State} (h : Fin 4) {v : Word} {n off : Nat} (hn : n < 32) (ho : off < 0x10000)
    (ha : off % 4 = 0) (hb : coreWrite s n off v = some t) :
    execRegisterWrite (.keeper h) (BitVec.ofNat 48 (coreRegBase + 0x10000 * n + off)) v s = .next (busOk t) := by
  have hmod : (coreRegBase + 0x10000 * n + off) % 0x10000 = off := by unfold coreRegBase; omega
  rw [execRegisterWrite_ofNat _ v s (by unfold coreRegBase; omega),
    registerWrite_of_register (regionOf_coreRegs s.board hn ho) (by unfold coreRegBase; omega) rfl (fun e => by cases e.1)
      ((congrArg (coreWrite s n · v) hmod).trans hb)]

/-- REGISTER_WRITE of word w of mailbox m. -/
theorem execRegisterWrite_mailbox {by_ : Req} {m w : Nat} (v : Word) (s : State) (hm : m < 128) (hw : w < 8)
    (h : reaches by_ true .mbxRegs = true) :
    execRegisterWrite by_ (BitVec.ofNat 48 (mbxRegBase + 32 * m + 4 * w)) v s = .next (mbxWrite s by_ m w v) := by
  have hr := regionOf_block s.board (k := 9) (off := 32 * m + 4 * w) (by decide) (by decide) (by omega)
  unfold blockBase at hr
  unfold mbxRegBase
  rw [Nat.add_assoc, execRegisterWrite_ofNat by_ v s (by omega), registerWrite_of_mailbox v hr (by omega) h (by omega)]
  congr 2 <;> omega

/-! ### Owner registers (R98, R289, R466) -/

theorem memRegWrite_hbmOwner (s : State) (v : Word) {u : Nat} (hu : u < 32) :
    memRegWrite s (0x100 + 4 * u) v = some { s with own := { s.own with hbm := ownerPut s.own s.own.hbm u v } } := by
  unfold memRegWrite
  rw [if_neg (by omega), regIx_at 0x100 (by decide) hu]

theorem memRegWrite_deepOwner (s : State) (v : Word) {c : Nat} (hc : c < 8) :
    memRegWrite s (0x180 + 4 * c) v = some { s with own := { s.own with lp := ownerPut s.own s.own.lp c v } } := by
  unfold memRegWrite
  rw [if_neg (by omega), regIx_after (by omega), regIx_at 0x180 (by decide) hc]

theorem secRegWrite_coreOwner (s : State) (v : Word) {n : Nat} (hn : n < 32) :
    secRegWrite s (0x200 + 4 * n) v = some { s with own := { s.own with core := ownerPut s.own s.own.core n v } } := by
  unfold secRegWrite
  rw [if_neg (by omega), regIx_at 0x200 (by decide) hn]

theorem secRegWrite_ssrOwner (s : State) (v : Word) {w : Nat} (hw : w < 16) :
    secRegWrite s (0x280 + 4 * w) v = some { s with own := { s.own with ssr := ownerPut s.own s.own.ssr w v } } := by
  unfold secRegWrite
  rw [if_neg (by omega), regIx_after (by omega), regIx_at 0x280 (by decide) hw]

theorem secRegWrite_camOwner (s : State) (v : Word) {p : Nat} (hp : p < 4) :
    secRegWrite s (0x2C0 + 4 * p) v = some { s with own := { s.own with cam := ownerPut s.own s.own.cam p v } } := by
  unfold secRegWrite
  rw [if_neg (by omega), regIx_after (by omega), regIx_after (by omega), regIx_at 0x2C0 (by decide) hp]

/-! ### Locked mailboxes (R465) -/

theorem mbxRegWrite_mask_of_locked {s : State} {by_ : Req} (v : Word) {m : Nat} (hm : m < 128) (hk : isKeeper by_ = true)
    (hl : mbxLocked s.mbx m = true) : mbxRegWrite s by_ (0x10000 + 8 * m) v = some s := by
  have h2 : 2 * m / 2 = m := by omega
  unfold mbxRegWrite
  rw [show 8 * m = 4 * (2 * m) by omega, regIx_at 0x10000 (by decide) (by omega)]
  simp [hk, h2, hl]

theorem mbxRegWrite_recv_of_locked {s : State} {by_ : Req} (v : Word) {m : Nat} (hm : m < 128) (hk : isKeeper by_ = true)
    (hl : mbxLocked s.mbx m = true) : mbxRegWrite s by_ (0x10800 + 4 * m) v = some s := by
  unfold mbxRegWrite
  rw [regIx_after (by omega), regIx_at 0x10800 (by decide) hm]
  simp [hk, hl]

/-- Settles O22: the answer follows the address's block and the requester; a register past it is found by its offset. -/
theorem registerWritesReachTheirRegister : Obligations.RegisterWritesReachTheirRegister := by
  unfold Obligations.RegisterWritesReachTheirRegister
  intro by_ h a v s k write ok error owner
  refine ⟨?bus, ?block, ?mailbox, ?hbm, ?deep, ?core, ?ssr, ?cam, ?locked, ?fault, ?alarm, ?sys⟩
  case bus =>
    rintro (hr | ha)
    · exact congrArg _ (registerWrite_of_hole by_ v hr)
    · exact congrArg _ (registerWrite_of_misaligned by_ v ha)
  case block =>
    intro r hr
    exact ⟨fun h => congrArg _ (registerWrite_of_not_reached v hr h),
      fun t ha h hm hb => congrArg _ (registerWrite_of_register hr ha h hm hb),
      fun hb hm => congrArg _ (registerWrite_of_no_register hr hm hb)⟩
  case mailbox =>
    intro m w hr
    exact ⟨execRegisterWrite_mailbox v s m.isLt (by omega) hr, execRegisterWrite_mailbox v s m.isLt (w := 7) (by decide) hr⟩
  case hbm =>
    intro u hu
    rw [Nat.add_assoc]
    exact execRegisterWrite_mem h (by omega) (by omega) (memRegWrite_hbmOwner s v hu)
  case deep =>
    intro c hc
    rw [Nat.add_assoc]
    exact execRegisterWrite_mem h (by omega) (by omega) (memRegWrite_deepOwner s v hc)
  case core =>
    intro n hn
    rw [Nat.add_assoc]
    exact ⟨execRegisterWrite_sec (by omega) (by omega) (secRegWrite_coreOwner s v hn),
      execRegisterWrite_sec_of_keeper h v (off := 0x200 + 4 * n) (by omega)⟩
  case ssr =>
    intro w hw
    rw [Nat.add_assoc]
    exact execRegisterWrite_sec (by omega) (by omega) (secRegWrite_ssrOwner s v hw)
  case cam =>
    intro p hp
    rw [Nat.add_assoc]
    exact execRegisterWrite_sec (by omega) (by omega) (secRegWrite_camOwner s v hp)
  case locked =>
    intro m hm hl
    rw [Nat.add_assoc, Nat.add_assoc]
    exact ⟨execRegisterWrite_mbx h (by omega) (by omega) (by omega) (mbxRegWrite_mask_of_locked v hm rfl hl),
      execRegisterWrite_mbx h (by omega) (by omega) (by omega) (mbxRegWrite_recv_of_locked v hm rfl hl)⟩
  case fault =>
    intro n hn
    exact execRegisterWrite_core h (off := 0x40) hn (by decide) (by decide) rfl
  case alarm => exact execRegisterWrite_ras h (off := 8) (by decide) (by decide) rfl
  case sys =>
    intro r hr
    simp only [List.mem_cons, List.not_mem_nil, or_false] at hr
    rcases hr with rfl | rfl | rfl
    · exact execRegisterWrite_sys h (off := 0x10) (by decide) (by decide) rfl
    · exact execRegisterWrite_sys h (off := 0x14) (by decide) (by decide) rfl
    · exact execRegisterWrite_sys h (off := 0x0) (by decide) (by decide) rfl

end Sys2Proof.Machine

/-! Mooring, floods, the light list and paths of the fabric (R362, R371 to R375, R386, R459): what a control frame does on
arrival, and what sending leaves alone. -/

namespace Sys2Proof.Machine

/-- A fold of steps that keep g of the state keeps it. -/
theorem foldl_keeps {α β : Type} (g : State → β) {f : State → α → State} (hf : ∀ s x, g (f s x) = g s) :
    ∀ (l : List α) (s : State), g (l.foldl f s) = g s
  | [], _ => rfl
  | x :: r, s => (foldl_keeps g hf r (f s x)).trans (hf s x)

/-! ### Arrival of a control frame (R365) -/

theorem onControl_of_down {s : State} {p : Nat} (f : FabFrame) (go : State → State)
    (h : ¬ (s.fab.en = true ∧ (fabPort s p).state = 3)) : onControl s p f go = s := by
  have hd : (!s.fab.en || (fabPort s p).state != 3) = true := by
    simp only [Bool.or_eq_true, Bool.not_eq_true', bne_iff_ne, ne_eq]
    cases he : s.fab.en
    · exact Or.inl rfl
    · exact Or.inr fun hs => h ⟨he, hs⟩
  simp [onControl, onLink, hd]

theorem onControl_of_wrong_counter {s : State} {p : Nat} {f : FabFrame} (go : State → State) (he : s.fab.en = true)
    (hs : (fabPort s p).state = 3) (hc : counterOk (fabPort s p) f = false) :
    onControl s p f go = linkNak (fabCount (fabCount s 0x204 1) 0x20C 1) p := by
  simp [onControl, onLink, he, hs, hc]

/-- The state in which a control frame that arrived acts. -/
def arrived (s : State) (p : Nat) (f : FabFrame) : State := ctlPost (accepted s p f.type f) p

/-- R365: the frame is accepted, posted to Keeper, and acts. -/
theorem onControl_of_arrives {s : State} {p : Nat} {f : FabFrame} (go : State → State) (h : Arrives s p f) :
    onControl s p f go = go (arrived s p f) := by
  simp [onControl, onLink, arrived, accepted, h.enabled, h.up, h.counter]

/-! ### Floods (R372) -/

theorem onFlood_of_seen {s : State} {p : Nat} {f : FabFrame} {origin gen : Nat} (go : State → State)
    (h : s.fab.seen.contains (f.type, origin, gen) = true) : onFlood s p f origin gen go = s := if_pos h

theorem onFlood_of_new {s : State} {p : Nat} {f : FabFrame} {origin gen : Nat} (go : State → State)
    (h : s.fab.seen.contains (f.type, origin, gen) = false) : onFlood s p f origin gen go =
      go (floodFrom (onFab s fun x => { x with seen := (f.type, origin, gen) :: x.seen }) (some p) f) :=
  if_neg (ne_true_of_eq_false h)

/-! ### What sending keeps -/

/-- What a device knows of its fabric: its address, its light list with its generation, and the reports that wait. -/
def knows (s : State) : Nat × SMap LightEntry × Bool × Nat × SMap (List LightEntry) :=
  (s.fab.addr, s.fab.light, s.fab.lightValid, s.fab.lightGen, s.fab.reports)

theorem knows_linkSend (s : State) (p : Nat) (f : FabFrame) : knows (linkSend s p f) = knows s := by
  unfold linkSend
  split
  · rfl
  · split <;> rfl

theorem knows_floodFrom (s : State) (q : Option Nat) (f : FabFrame) : knows (floodFrom s q f) = knows s :=
  foldl_keeps knows (fun s p => knows_linkSend s p f) _ s

theorem knows_flood (s : State) (type : Nat) : knows (flood s type) = knows s := knows_floodFrom _ _ _

theorem knows_sendProbe (s : State) (p : Nat) : knows (sendProbe s p) = knows s := by
  unfold sendProbe
  split
  · exact knows_linkSend s p _
  · rfl

theorem knows_probeAll (s : State) : knows (probeAll s) = knows s := foldl_keeps knows knows_sendProbe _ s

/-- States that know the same have the same address. -/
theorem addr_of_knows {s t : State} (h : knows s = knows t) : s.fab.addr = t.fab.addr := congrArg Prod.fst h

/-! ### Mooring keeps the address that was taken (R372) -/

theorem keepReport_addr (s : State) (seg : Nat) (es : List LightEntry) : (keepReport s seg es).fab.addr = s.fab.addr := by
  unfold keepReport
  split <;> rfl

theorem headMoored_addr (s : State) (es : List LightEntry) (closed : Bool) : (headMoored s es closed).fab.addr = s.fab.addr :=
  (addr_of_knows (knows_flood _ _)).trans (keepReport_addr _ _ _)

theorem endMoor_addr (s : State) (es : List LightEntry) (closed : Bool) : (endMoor s es closed).fab.addr = s.fab.addr := by
  unfold endMoor
  dsimp only
  split
  · exact headMoored_addr _ _ _
  · split
    · exact addr_of_knows (knows_linkSend _ _ _)
    · rfl

theorem sendMoor_addr (s : State) : (sendMoor s).fab.addr = s.fab.addr := by
  unfold sendMoor
  split
  · exact addr_of_knows (knows_linkSend _ _ _)
  · rfl

theorem extendToken_addr (s : State) : (extendToken s).fab.addr = s.fab.addr := by
  unfold extendToken
  split
  · exact endMoor_addr s _ _
  · dsimp only
    split
    · split
      · exact endMoor_addr s _ _
      · exact sendMoor_addr s
    · split
      · exact endMoor_addr s _ _
      · rfl

theorem takeAddress_addr (s : State) (a : Nat) : (takeAddress s a).fab.addr = a := addr_of_knows (knows_probeAll _)

/-! ### The token (R372 steps 3 and 4) -/

theorem extendToken_of_tail {s : State} (h : fabPortOf s 2 = none) : extendToken s = endMoor s [] false := by
  simp only [extendToken, h]

theorem extendToken_of_closed {s : State} {q : Nat} (hq : fabPortOf s 2 = some q) (hs : (fabPort s q).state = 3)
    (hp : (fabPort s q).peer = fabAddrOf (segOf s.fab.addr) 1) (h1 : stnOf s.fab.addr ≠ 1) :
    extendToken s = endMoor s [] true := by
  simp only [extendToken, hq, hs, hp, h1, if_true, ne_eq, not_false_eq_true, and_self]

theorem extendToken_of_up {s : State} {q : Nat} (hq : fabPortOf s 2 = some q) (hs : (fabPort s q).state = 3)
    (hp : (fabPort s q).peer ≠ fabAddrOf (segOf s.fab.addr) 1 ∨ stnOf s.fab.addr = 1) : extendToken s = sendMoor s := by
  have hn : ¬ ((fabPort s q).peer = fabAddrOf (segOf s.fab.addr) 1 ∧ stnOf s.fab.addr ≠ 1) :=
    fun hc => hp.elim (fun h => h hc.1) hc.2
  simp only [extendToken, hq, hs, hn, if_true, if_false]

theorem extendToken_of_refused {s : State} {q : Nat} (hq : fabPortOf s 2 = some q) (hs : (fabPort s q).state = 5) :
    extendToken s = endMoor s [] false := by
  simp [extendToken, hq, hs]

theorem sendMoor_of_downstream {s : State} {q : Nat} (hq : fabPortOf s 2 = some q) : sendMoor s =
    linkSend (onFab s fun x => { x with token := false }) q
      { type := 0x20, src := s.fab.addr, payload := [BitVec.ofNat 8 (segOf s.fab.addr), BitVec.ofNat 8 (stnOf s.fab.addr + 1)] } := by
  simp only [sendMoor, hq]

/-! ### A MOOR token (R372, R373, R381) -/

section
variable {s : State} {p seg stn : Nat} {f : FabFrame}

theorem takeMoor_of_other_port (h : fabRole s p ≠ 1) : takeMoor s p f seg stn = raiseEvent s 0x0206 0xFFFF f.src := if_pos h

theorem takeMoor_of_head (h : fabRole s p = 1) (hh : rbit s hostCtrl 5 = true) :
    takeMoor s p f seg stn = raiseEvent s 0x0203 0xFFFF f.src := by
  simp only [takeMoor, h, hh, ne_eq, not_true_eq_false, if_false, if_true]

theorem takeMoor_of_overflow (h : fabRole s p = 1) (hh : rbit s hostCtrl 5 = false) (hn : 17 ≤ stn) :
    takeMoor s p f seg stn = raiseEvent (modFabPort s p fun x => { x with state := 5 }) 0x0202 0xFFFF (fabAddrOf seg stn) := by
  simp only [takeMoor, h, hh, hn, ne_eq, not_true_eq_false, Bool.false_eq_true, if_false, if_true]

theorem takeMoor_of_mismatch (h : fabRole s p = 1) (hh : rbit s hostCtrl 5 = false) (hn : stn < 17) (h0 : s.fab.addr ≠ 0)
    (ha : s.fab.addr ≠ fabAddrOf seg stn) : takeMoor s p f seg stn = raiseEvent s 0x0204 0xFFFF (fabAddrOf seg stn) := by
  simp only [takeMoor, h, hh, Nat.not_le_of_lt hn, h0, ha, ne_eq, not_true_eq_false, not_false_eq_true, Bool.false_eq_true, and_self,
    if_false, if_true]

theorem takeMoor_of_taken (h : fabRole s p = 1) (hh : rbit s hostCtrl 5 = false) (hn : stn < 17)
    (ha : s.fab.addr = 0 ∨ s.fab.addr = fabAddrOf seg stn) :
    takeMoor s p f seg stn = extendToken (takeAddress s (fabAddrOf seg stn)) := by
  have hm : ¬ (s.fab.addr ≠ 0 ∧ s.fab.addr ≠ fabAddrOf seg stn) := fun hc => ha.elim hc.1 hc.2
  simp only [takeMoor, h, hh, Nat.not_le_of_lt hn, hm, ne_eq, not_true_eq_false, Bool.false_eq_true, if_false]

end

/-! ### Rows that Keeper alone starts (R19, R386) -/

/-- R19: Keeper alone reaches the FAB block. -/
theorem reaches_fabRegs (by_ : Req) : reaches by_ true .fabRegs = isKeeper by_ := by
  cases by_ <;> rfl

theorem mayWrite_fabRegs_of_keeper {by_ : Req} (s : State) (f : State → State) (h : isKeeper by_ = true) :
    mayWrite s by_ .fabRegs f = busOk (f s) :=
  if_pos ((reaches_fabRegs by_).trans h)

theorem mayWrite_fabRegs_of_other {by_ : Req} (s : State) (f : State → State) (h : isKeeper by_ = false) :
    mayWrite s by_ .fabRegs f = busError s :=
  if_neg (ne_true_of_eq_false ((reaches_fabRegs by_).trans h))

theorem moorStart_of_head {s : State} (h : rbit s hostCtrl 5 = true) :
    (moorStart s).fab.addr = fabAddrOf s.fab.segment 1 := by
  unfold moorStart
  rw [if_pos h]
  exact (extendToken_addr _).trans (takeAddress_addr s _)

theorem moorStart_of_other {s : State} (h : rbit s hostCtrl 5 = false) : moorStart s = s :=
  if_neg (ne_true_of_eq_false h)

/-! ### Installing a light list (R372 step 8, R459) -/

/-- One slot of R459: it is zeroed if its key, or that of its store entry, is on the list. -/
def zeroIfRetired (ids : List (BitVec 64)) (s : State) (k : Nat) : State :=
  if ((SMap.get? s.sec.slots k).any fun x => ids.contains x.keyId)
      || ((SMap.get? s.secStore.keys k).any fun x => ids.contains x.keyId) then zeroKey s k else s

theorem zeroRetired_eq (s : State) (ids : List (BitVec 64)) : zeroRetired s ids = (span 0 16).foldl (zeroIfRetired ids) s := rfl

theorem zeroIfRetired_fab (ids : List (BitVec 64)) (s : State) (k : Nat) : (zeroIfRetired ids s k).fab = s.fab := by
  unfold zeroIfRetired
  split <;> rfl

/-- The slots are as before, or the slot's entry is dropped. -/
theorem zeroIfRetired_slots (ids : List (BitVec 64)) (s : State) (k : Nat) : (zeroIfRetired ids s k).sec.slots = s.sec.slots ∨
    (zeroIfRetired ids s k).sec.slots = SMap.erase s.sec.slots k := by
  unfold zeroIfRetired
  split
  · exact Or.inr rfl
  · exact Or.inl rfl

theorem wf_zeroIfRetired {ids : List (BitVec 64)} {s : State} (k : Nat) (h : SMap.wf s.sec.slots = true) :
    SMap.wf (zeroIfRetired ids s k).sec.slots = true := by
  rcases zeroIfRetired_slots ids s k with e | e <;> rw [e]
  · exact h
  · exact SMap.wf_erase h

/-- Zeroing a slot makes no key. -/
theorem slot_of_zeroIfRetired {ids : List (BitVec 64)} {s : State} {j k : Nat} {x : KeySlot} (h : SMap.wf s.sec.slots = true)
    (hx : SMap.get? (zeroIfRetired ids s j).sec.slots k = some x) : SMap.get? s.sec.slots k = some x := by
  rcases zeroIfRetired_slots ids s j with e | e <;> rw [e] at hx
  · exact hx
  · by_cases hk : k = j
    · rw [hk, SMap.get?_erase_same j h] at hx
      cases hx
    · rcases SMap.get?_erase_other s.sec.slots hk with he | he
      · exact he ▸ hx
      · rw [h] at he
        cases he

/-- The slot itself holds no key of the list afterwards. -/
theorem keyId_of_zeroIfRetired {ids : List (BitVec 64)} {s : State} {k : Nat} {x : KeySlot} (h : SMap.wf s.sec.slots = true)
    (hx : SMap.get? (zeroIfRetired ids s k).sec.slots k = some x) : x.keyId ∉ ids := by
  intro hid
  have hs := slot_of_zeroIfRetired h hx
  have hz : zeroIfRetired ids s k = zeroKey s k := if_pos (by simp [hs, hid])
  rw [hz] at hx
  have : SMap.get? (zeroKey s k).sec.slots k = none := SMap.get?_erase_same k h
  rw [this] at hx
  cases hx

theorem slot_of_foldl_zeroIfRetired {ids : List (BitVec 64)} {k : Nat} {x : KeySlot} (l : List Nat) {s : State}
    (h : SMap.wf s.sec.slots = true) (hx : SMap.get? (l.foldl (zeroIfRetired ids) s).sec.slots k = some x) :
    SMap.get? s.sec.slots k = some x := by
  induction l generalizing s with
  | nil => exact hx
  | cons j r ih => exact slot_of_zeroIfRetired h (ih (wf_zeroIfRetired j h) hx)

theorem keyId_of_foldl_zeroIfRetired {ids : List (BitVec 64)} {k : Nat} {x : KeySlot} (l : List Nat) {s : State}
    (h : SMap.wf s.sec.slots = true) (hk : k ∈ l)
    (hx : SMap.get? (l.foldl (zeroIfRetired ids) s).sec.slots k = some x) : x.keyId ∉ ids := by
  induction l generalizing s with
  | nil => cases hk
  | cons j r ih =>
    have hw := wf_zeroIfRetired (ids := ids) j h
    rcases List.mem_cons.1 hk with rfl | hr
    · exact keyId_of_zeroIfRetired h (slot_of_foldl_zeroIfRetired r hw hx)
    · exact ih hw hr hx

/-- R459: after it no slot below 16 holds a key of the list. -/
theorem keyId_of_zeroRetired {s : State} {ids : List (BitVec 64)} {k : Nat} {x : KeySlot} (h : SMap.wf s.sec.slots = true)
    (hk : k < 16) (hx : SMap.get? (zeroRetired s ids).sec.slots k = some x) : x.keyId ∉ ids := by
  have hr : span 0 16 = List.range 16 := rfl
  rw [zeroRetired_eq, hr] at hx
  exact keyId_of_foldl_zeroIfRetired _ h (List.mem_range.2 hk) hx

theorem zeroRetired_fab (s : State) (ids : List (BitVec 64)) : (zeroRetired s ids).fab = s.fab :=
  foldl_keeps State.fab (zeroIfRetired_fab ids) _ s

/-- Does g of a state not depend on the register file and its shadows? -/
def RegsApart {β : Type} (g : State → β) : Prop :=
  ∀ (s : State) (r sh : SMap Word), g { s with regs := r, shadow := sh } = g s

theorem rboundary_keeps {β : Type} (g : State → β) (hg : RegsApart g) (s : State)
    (a : Nat) : g (rboundary s a) = g s :=
  hg s (rset s a (rshadow s a)).regs (SMap.erase s.shadow a)

theorem routeCommit_keeps {β : Type} (g : State → β) (hg : RegsApart g) (s : State) :
    g (routeCommit s) = g s := by
  unfold routeCommit
  exact foldl_keeps g (fun s k => rboundary_keeps g hg s (fabRouteReg k)) _ s

/-- What an installation leaves outside the registers and their shadows. -/
theorem installLight_keeps {β : Type} (g : State → β) (hg : RegsApart g) (s : State)
    (m : LightMsg) : g (installLight s m) =
      g (onFab (onStore (zeroRetired s m.retired) fun x => { x with retired := m.retired }) fun x =>
        { x with light := m.entries, lightValid := true, lightGen := m.gen, closed := segClosed m.entries (segOf s.fab.addr),
                 departed := (SMap.get? m.entries (lightIx s.fab.addr)).any fun e => e.state == 3 }) := by
  unfold installLight
  dsimp only
  rw [routeCommit_keeps g hg, foldl_keeps g fun s k => hg s s.regs _]

theorem installLight_fab (s : State) (m : LightMsg) : (installLight s m).fab = { s.fab with
    light := m.entries, lightValid := true, lightGen := m.gen, closed := segClosed m.entries (segOf s.fab.addr),
    departed := (SMap.get? m.entries (lightIx s.fab.addr)).any fun e => e.state == 3 } := by
  rw [installLight_keeps State.fab (fun _ _ _ => rfl), onFab_fab, onStore_fab, zeroRetired_fab]

theorem installLight_retired (s : State) (m : LightMsg) : (installLight s m).secStore.retired = m.retired := by
  rw [installLight_keeps State.secStore fun _ _ _ => rfl, onFab_secStore, onStore_secStore]

theorem installLight_sec (s : State) (m : LightMsg) : (installLight s m).sec = (zeroRetired s m.retired).sec := by
  rw [installLight_keeps State.sec fun _ _ _ => rfl, onFab_sec, onStore_sec]

/-! ### The fabric head's list (R372, R374) -/

theorem isSome_get?_set {m : SMap LightEntry} {k : Nat} (j : Nat) (v : LightEntry) (h : (SMap.get? m k).isSome = true) :
    (SMap.get? (SMap.set m j v) k).isSome = true := by
  by_cases e : k = j
  · rw [e, SMap.get?_set_same]
    rfl
  · rw [SMap.get?_set_other m v e]
    exact h

/-- A light list with entries added, each at its index. -/
def addEntries (m : SMap LightEntry) (es : List LightEntry) : SMap LightEntry :=
  es.foldl (fun m e => SMap.set m (lightIx e.address) e) m

theorem listed_of_listed {k : Nat} (es : List LightEntry) {m : SMap LightEntry} (h : (SMap.get? m k).isSome = true) :
    (SMap.get? (addEntries m es) k).isSome = true := by
  induction es generalizing m with
  | nil => exact h
  | cons e r ih => exact ih (isSome_get?_set _ e h)

/-- Every reported entry stands in the list. -/
theorem listed_of_reported {e : LightEntry} {es : List LightEntry} (m : SMap LightEntry) (h : e ∈ es) :
    (SMap.get? (addEntries m es) (lightIx e.address)).isSome = true := by
  induction es generalizing m with
  | nil => cases h
  | cons d r ih =>
    rcases List.mem_cons.1 h with rfl | hr
    · exact listed_of_listed r (by rw [SMap.get?_set_same]; rfl)
    · exact ih _ hr

/-- The list that a fabric head floods is in force with it, under the next generation. -/
theorem knows_floodLight (s : State) (l : SMap LightEntry) :
    knows (floodLight s l) = (s.fab.addr, l, true, s.fab.lightGen + 1, s.fab.reports) := by
  unfold floodLight
  rw [knows_flood]
  unfold knows
  rw [installLight_fab]

/-- LIGHT_BUILD away from the fabric head, or with no report, changes nothing. -/
theorem execLightBuild_of_idle {s : State} (h : fabricHead s = false ∨ s.fab.reports = []) : execLightBuild s = .next s := by
  have hc : (!fabricHead s || s.fab.reports.isEmpty) = true := by
    rcases h with h | h <;> simp [h]
  exact congrArg _ (if_pos hc)

/-- The entries that the reports bring. -/
def reported (s : State) : List LightEntry := s.fab.reports.flatMap Prod.snd

/-- The state once the members new in the reports have raised MEMBER_JOINED and the reports are taken. -/
def reportsTaken (s : State) : State :=
  onFab (((reported s).filter fun e => !((lightOf s e.address).any fun o => o.state != 0)).foldl
    (fun s e => raiseEvent s 0x0200 0xFFFF e.address) s) fun x => { x with reports := [] }

theorem reportsTaken_fab (s : State) : (reportsTaken s).fab = { s.fab with reports := [] } := by
  unfold reportsTaken
  rw [onFab_fab, foldl_keeps State.fab fun s e => raiseEvent_fab s _ _ _]

/-- LIGHT_BUILD at the fabric head floods the list with the reported entries. -/
theorem execLightBuild_of_head {s : State} (h : fabricHead s = true) (hr : s.fab.reports ≠ []) :
    execLightBuild s = .next (floodLight (reportsTaken s) (addEntries s.fab.light (reported s))) := by
  have hc : ¬ (!fabricHead s || s.fab.reports.isEmpty) = true := by simp [h, hr]
  unfold execLightBuild
  rw [if_neg hc]
  rfl

/-! ### Paths (R375) -/

theorem towards_of_open {s : State} (stn : Nat) (h : segClosed s.fab.light (segOf s.fab.addr) = false) :
    towards s stn = if stnOf s.fab.addr < stn then 2 else 1 := by
  have hd : (0 : Int) < (stn : Int) - stnOf s.fab.addr ↔ stnOf s.fab.addr < stn := by omega
  simp only [towards, h, Bool.not_false, if_true, hd]

/-- The steps downstream to a station of a closed segment of n. -/
theorem steps_downstream {n a b : Nat} (ha : a ≤ n) : (((b : Int) - a) % (n : Int)).toNat = (b + n - a) % n := by
  have hc : ((b + n - a : Nat) : Int) = (b : Int) - a + n := by omega
  have hm : (((b + n - a) % n : Nat) : Int) = ((b : Int) - a) % n := by
    rw [Int.natCast_emod, hc, Int.add_emod_right]
  rw [← hm, Int.toNat_natCast]

theorem towards_of_closed {s : State} {stn : Nat} (h : segClosed s.fab.light (segOf s.fab.addr) = true)
    (hs : stnOf s.fab.addr ≤ stationsOf s.fab.light (segOf s.fab.addr)) : towards s stn =
      let n := stationsOf s.fab.light (segOf s.fab.addr)
      let down := (stn + n - stnOf s.fab.addr) % n
      if down ≤ n - down then 2 else 1 := by
  simp only [towards, h, Bool.not_true, Bool.false_eq_true, if_false, steps_downstream hs]

theorem nextPort_of_own_segment {s : State} {dest : Nat} (h : segOf dest = segOf s.fab.addr) :
    nextPort s dest = fabPortOf s (towards s (stnOf dest)) := if_pos h

/-! ### The rows on arrival -/

section
variable {port : Fin 4} {f : FabFrame} {s : State}

theorem execMoor_of_arrives (h : Arrives s port.val f) (seg : Fin 16) (stn : Fin 256) :
    execMoor port f seg stn s = .next (takeMoor (arrived s port.val f) port.val f seg.val stn.val) :=
  congrArg _ (onControl_of_arrives _ h)

theorem execMoorEnd_of_unmoored (h : Arrives s port.val f) (entries : List LightEntry) (closed : Bool)
    (h0 : (arrived s port.val f).fab.addr = 0) : execMoorEnd port f entries closed s = .next (arrived s port.val f) := by
  rw [execMoorEnd, onControl_of_arrives _ h, if_pos h0]

theorem execMoorEnd_of_moored (h : Arrives s port.val f) (entries : List LightEntry) (closed : Bool)
    (h0 : (arrived s port.val f).fab.addr ≠ 0) :
    execMoorEnd port f entries closed s = .next (endMoor (arrived s port.val f) entries closed) := by
  rw [execMoorEnd, onControl_of_arrives _ h, if_neg h0]

theorem execProbe_of_other_role (h : Arrives s port.val f) (addr : BitVec 16) (hr : fabRole (arrived s port.val f) port.val ≠ 3) :
    execProbe port f addr s = .next (arrived s port.val f) := by
  rw [execProbe, onControl_of_arrives _ h, if_pos hr]

theorem execProbe_of_own_segment (h : Arrives s port.val f) {addr : BitVec 16} (hr : fabRole (arrived s port.val f) port.val = 3)
    (h0 : (arrived s port.val f).fab.addr ≠ 0) (hs : segOf addr.toNat = segOf (arrived s port.val f).fab.addr) :
    execProbe port f addr s = .next (cablingFault (arrived s port.val f) port.val) := by
  rw [execProbe, onControl_of_arrives _ h, if_neg (Classical.not_not.2 hr), if_pos ⟨h0, hs⟩]

theorem execProbe_of_other_segment (h : Arrives s port.val f) {addr : BitVec 16} (hr : fabRole (arrived s port.val f) port.val = 3)
    (hs : (arrived s port.val f).fab.addr = 0 ∨ segOf addr.toNat ≠ segOf (arrived s port.val f).fab.addr) :
    execProbe port f addr s = .next (modFabPort (arrived s port.val f) port.val fun x => { x with peer := addr.toNat }) := by
  rw [execProbe, onControl_of_arrives _ h, if_neg (Classical.not_not.2 hr), if_neg fun hc => hs.elim hc.1 fun hn => hn hc.2]

end

/-- R372: the state after a flooded frame of a type went on for the first time. -/
def passedOn (u : State) (p : Nat) (f : FabFrame) (type origin gen : Nat) : State :=
  floodFrom (onFab u fun x => { x with seen := (type, origin, gen) :: x.seen }) (some p) { f with type := type }

section
variable {port : Fin 4} {f : FabFrame} {s : State} {origin gen : Nat}

theorem onControl_flood_of_seen {type : Nat} (h : Arrives s port.val f) (go : State → State)
    (hs : (arrived s port.val f).fab.seen.contains (type, origin, gen) = true) :
    onControl s port.val f (fun s => onFlood s port.val { f with type := type } origin gen go) = arrived s port.val f :=
  (onControl_of_arrives _ h).trans (onFlood_of_seen _ hs)

theorem onControl_flood_of_new {type : Nat} (h : Arrives s port.val f) (go : State → State)
    (hs : (arrived s port.val f).fab.seen.contains (type, origin, gen) = false) :
    onControl s port.val f (fun s => onFlood s port.val { f with type := type } origin gen go) =
      go (passedOn (arrived s port.val f) port.val f type origin gen) :=
  (onControl_of_arrives _ h).trans (onFlood_of_new _ hs)

/-- MEMBER_LOST for a station that is no member only goes on. -/
theorem execMemberLost_of_stranger (h : Arrives s port.val f) {addr : BitVec 16}
    (hs : (arrived s port.val f).fab.seen.contains (0x25, origin, gen) = false)
    (hl : ((lightOf (passedOn (arrived s port.val f) port.val f 0x25 origin gen) addr.toNat).any fun e =>
      e.state == 1 || e.state == 2) = false) :
    execMemberLost port f origin gen addr s = .next (passedOn (arrived s port.val f) port.val f 0x25 origin gen) :=
  congrArg _ ((onControl_flood_of_new h _ hs).trans (if_neg (ne_true_of_eq_false hl)))

/-- MEMBER_LOST for a member raises its event and marks the member. -/
theorem execMemberLost_of_member (h : Arrives s port.val f) {addr : BitVec 16}
    (hs : (arrived s port.val f).fab.seen.contains (0x25, origin, gen) = false)
    (hl : ((lightOf (passedOn (arrived s port.val f) port.val f 0x25 origin gen) addr.toNat).any fun e =>
      e.state == 1 || e.state == 2) = true) :
    execMemberLost port f origin gen addr s = .next (drainOwn (markLost
      (raiseEvent (passedOn (arrived s port.val f) port.val f 0x25 origin gen) 0x0201 0xFFFF addr.toNat) addr.toNat)) :=
  congrArg _ ((onControl_flood_of_new h _ hs).trans (if_pos hl))

end

/-- MOOR_START at a segment head takes station 1, whatever its token then does. -/
theorem answers_moorStart_of_head {by_ : Req} {s : State} (h : isKeeper by_ = true) (hh : rbit s hostCtrl 5 = true) :
    Answers (.moorStart by_) s fun t => t.fab.addr = fabAddrOf s.fab.segment 1 ∧ t.resp = .ok := by
  refine ⟨busOk (moorStart s), congrArg _ (mayWrite_fabRegs_of_keeper s moorStart h), ?_, busOk_resp _⟩
  rw [busOk_fab, moorStart_of_head hh]

/-- LIGHT_BUILD at the fabric head leaves the next generation's list, with every reported entry in it, and no report. -/
theorem answers_lightBuild_of_head {s : State} (h : fabricHead s = true) (hr : s.fab.reports ≠ []) :
    Answers .lightBuild s fun t => t.fab.lightGen = s.fab.lightGen + 1 ∧ t.fab.lightValid = true ∧ t.fab.reports = [] ∧
      ∀ e ∈ reported s, (SMap.get? t.fab.light (lightIx e.address)).isSome = true := by
  refine ⟨_, execLightBuild_of_head h hr, ?_⟩
  have hk := knows_floodLight (reportsTaken s) (addEntries s.fab.light (reported s))
  rw [reportsTaken_fab] at hk
  simp only [knows, Prod.mk.injEq] at hk
  obtain ⟨-, hlight, hvalid, hgen, hreports⟩ := hk
  refine ⟨hgen, hvalid, hreports, fun e he => ?_⟩
  rw [hlight]
  exact listed_of_reported s.fab.light he

/-- R459: an installed list leaves no retired key in a slot below 16. -/
theorem slots_of_installLight {s : State} {m : LightMsg} (h : SMap.wf s.sec.slots = true) (k : Nat) {id : BitVec 64}
    (hid : id ∈ m.retired) :
    ((SMap.get? (installLight s m).sec.slots k).all fun x => x.keyId != id || decide (16 ≤ k)) = true := by
  rw [installLight_sec]
  cases hx : SMap.get? (zeroRetired s m.retired).sec.slots k with
  | none => rfl
  | some x =>
    by_cases hk : k < 16
    · have hne : x.keyId ≠ id := fun he => keyId_of_zeroRetired h hk hx (he ▸ hid)
      simp [hne]
    · simp [Nat.le_of_not_lt hk]

/-- Settles O51: a control frame that arrives acts by its row's function; sending, probing and floods leave the address, the list
and the reports alone, so what was taken or installed stays. -/
theorem mooringGivesAddressesAndTheLightListIsInstalled : Obligations.MooringGivesAddressesAndTheLightListIsInstalled := by
  unfold Obligations.MooringGivesAddressesAndTheLightListIsInstalled
  intro port f seg stn entries closed addr origin gen dest m by_ s p up u a head rows
  refine ⟨?down, ?wrong, ?arrives, takeMoor_of_other_port, ?moor, extendToken_of_tail, ?token, ?other, ?keeper,
    execLightBuild_of_idle, answers_lightBuild_of_head, ?install, ?openPath, ?closedPath⟩
  case down =>
    intro h i hi
    simp only [rows, List.mem_cons, List.not_mem_nil, or_false] at hi
    rcases hi with rfl | rfl | rfl | rfl | rfl | rfl <;> exact congrArg _ (onControl_of_down f _ h)
  case wrong =>
    intro h hc i hi
    simp only [rows, List.mem_cons, List.not_mem_nil, or_false] at hi
    rcases hi with rfl | rfl | rfl | rfl | rfl | rfl <;> exact congrArg _ (onControl_of_wrong_counter _ h.1 h.2 hc)
  case arrives =>
    intro h
    refine ⟨execMoor_of_arrives h seg stn, execMoorEnd_of_unmoored h entries closed, execMoorEnd_of_moored h entries closed,
      execProbe_of_other_role h addr, fun hr => ⟨execProbe_of_own_segment h hr, execProbe_of_other_segment h hr⟩, ?floods⟩
    case floods =>
      intro seen on lost
      refine ⟨fun hs => congrArg _ (onControl_flood_of_seen h _ hs), fun hs => congrArg _ (onControl_flood_of_new h _ hs),
        fun hs => congrArg _ (onControl_flood_of_seen h _ hs), execMemberLost_of_stranger h, execMemberLost_of_member h, ?_, ?_⟩
      · rintro rfl rfl hs
        exact congrArg _ (onControl_flood_of_seen h _ hs)
      · rintro rfl rfl hs
        exact congrArg _ (onControl_flood_of_new h _ hs)
  case moor =>
    intro h
    refine ⟨takeMoor_of_head h, takeMoor_of_overflow h, takeMoor_of_mismatch h, fun hh hn ha => ?_⟩
    have ht := takeMoor_of_taken (f := f) h hh hn ha
    exact ⟨ht, by rw [ht, extendToken_addr, takeAddress_addr]⟩
  case token =>
    intro q hq
    exact ⟨extendToken_of_closed hq, fun hs hp => (extendToken_of_up hq hs hp).trans (sendMoor_of_downstream hq),
      extendToken_of_refused hq⟩
  case other =>
    intro h i hi
    simp only [List.mem_cons, List.not_mem_nil, or_false] at hi
    rcases hi with rfl | rfl <;> exact congrArg _ (mayWrite_fabRegs_of_other s _ h)
  case keeper =>
    intro h
    refine ⟨fun hh => ?_, answers_moorStart_of_head h, ?_⟩
    · rw [exec_moorStart, execMoorStart, mayWrite_fabRegs_of_keeper s moorStart h, moorStart_of_other hh, busOk]
    · rw [exec_routeCommit, execRouteCommit, mayWrite_fabRegs_of_keeper s routeCommit h, busOk, routeCommit]
  case install =>
    have hf := installLight_fab s m
    exact ⟨by rw [hf], by rw [hf], by rw [hf], installLight_retired s m, fun hw k id hid => slots_of_installLight hw k hid⟩
  case openPath =>
    intro hd ho
    rw [nextPort_of_own_segment hd, towards_of_open _ ho]
  case closedPath =>
    intro hd hc n hdn hn
    rw [nextPort_of_own_segment hd, towards_of_closed hc hn]

end Sys2Proof.Machine

/-! The residue check of a streamed row (R43, R46, R52, R79, R82, R83): the residue channel of a column agrees with the
column's sum modulo 3, so only an error in an adder makes the check fail. What O14 says of the sums and of the check holds;
its frame does not, as the write of the row also drops the row's ECC mark (R78). -/

namespace Sys2Proof.Machine

/-! ### Residues modulo 3 -/

theorem res3_cast (v : Int) : ((res3 v : Nat) : Int) = v % 3 := Int.toNat_of_nonneg (Int.emod_nonneg v (by decide))

/-- A shift multiplies a residue by 1 or by 2, as 2 is -1 modulo 3. -/
theorem two_pow_emod_three (s : Nat) : (2 : Int) ^ s % 3 = ((if s % 2 = 0 then 1 else 2 : Nat) : Int) := by
  induction s with
  | zero => rfl
  | succ s ih =>
    rw [Int.pow_succ]
    split at ih
    · next h => rw [if_neg (by omega)]; omega
    · next h => rw [if_pos (by omega)]; omega

theorem residueTerm_emod (w a : Int) (s : Nat) : (residueTerm w a s : Int) % 3 = blkShift (w * a) s % 3 := by
  calc (residueTerm w a s : Int) % 3
      = w % 3 * (a % 3) * (2 ^ s % 3) % 3 := by
        rw [residueTerm, Int.natCast_mul, Int.natCast_mul, res3_cast, res3_cast, two_pow_emod_three]
    _ = w * a % 3 * (2 ^ s % 3) % 3 := by rw [Int.mul_emod, ← Int.mul_emod w a, Int.emod_emod]
    _ = blkShift (w * a) s % 3 := (Int.mul_emod (w * a) (2 ^ s) 3).symm

/-- An A16 element is its high byte at shift 8 and its low byte, and carries no block shift (R82). -/
theorem residueTerm_bytes_emod (w a : Int) :
    ((residueTerm (w / 256) a 8 + residueTerm (w % 256) a 0 : Nat) : Int) % 3 = blkShift (w * a) 0 % 3 := by
  have hw : w * a = 256 * (w / 256 * a) + w % 256 * a := by
    rw [← Int.mul_assoc, ← Int.add_mul, Int.mul_ediv_add_emod]
  have hi := residueTerm_emod (w / 256) a 8
  have lo := residueTerm_emod (w % 256) a 0
  simp only [blkShift] at hi lo ⊢
  omega

theorem bankElem_shift_of_a16 {b : Bank} (h : b.fmt = 6) (j k : Nat) : (bankElem b j k).2 = 0 := by
  simp [bankElem, h]

/-- The residue channel of a column follows the column's sum. -/
theorem columnResidue_emod (b : Bank) (xs : List Int) (j : Nat) : (columnResidue b xs j : Int) % 3 = columnSum b xs j % 3 := by
  refine (List.foldl_rel (r := fun (x : Nat × Nat) (y : Int × Nat) => (x.1 : Int) % 3 = y.1 % 3 ∧ x.2 = y.2) ⟨rfl, rfl⟩ ?_).1
  rintro a - ⟨r, k⟩ ⟨t, k'⟩ ⟨hr, rfl⟩
  refine ⟨?_, rfl⟩
  by_cases h : b.fmt = 6
  · have hterm := residueTerm_bytes_emod (bankElem b j k).1 a
    simp only [if_pos h, bankElem_shift_of_a16 h] at hr ⊢
    omega
  · have hterm := residueTerm_emod (bankElem b j k).1 a (bankElem b j k).2
    simp only [if_neg h] at hr ⊢
    omega

theorem residueOk_iff (old new : Int) (r : Nat) : residueOk old new r = true ↔ new % 3 = (old + r) % 3 := by
  have ho := res3_cast old
  have hn := res3_cast new
  rw [residueOk, beq_iff_eq]
  omega

/-- The check of a column passes exactly if the error in its adder is a multiple of 3. -/
theorem residueOk_columnResidue (b : Bank) (xs : List Int) (j : Nat) (old err : Int) :
    residueOk old (old + (columnSum b xs j + err)) (columnResidue b xs j) = decide (err % 3 = 0) := by
  have hcol := columnResidue_emod b xs j
  rw [Bool.eq_iff_iff, residueOk_iff, decide_eq_true_iff]
  omega

/-! ### Accumulator rows -/

theorem accAdd_of_inside {acc term : Int} (lo : accMin ≤ acc + term) (hi : acc + term ≤ accMax) :
    accAdd acc term = (acc + term, false) := by
  simp [accAdd, clampI, Int.not_lt.mpr lo, Int.not_lt.mpr hi]

@[simp] theorem accRow_setAccRow_same (c : Core) (r : Nat) (v : AccRow) : accRow (setAccRow c r v) r = v :=
  SMap.getD_set_same c.acc r v _

theorem accRow_setAccRow_other (c : Core) {r x : Nat} (v : AccRow) (h : x ≠ r) : accRow (setAccRow c r v) x = accRow c x :=
  SMap.getD_set_other c.acc v _ h

/-- Clearing the adder's error leaves a written row as it is where there was none. -/
theorem setAccRow_adder {c : Core} (h : c.adder = none) (r : Nat) (v : AccRow) :
    { setAccRow c r v with adder := none } = setAccRow c r v :=
  congrArg (fun a => { setAccRow c r v with adder := a }) h.symm

theorem span_eq_range' (n : Nat) : ∀ lo, span lo n = List.range' lo n := by
  induction n with
  | zero => exact fun _ => rfl
  | succ n ih => exact fun lo => congrArg (lo :: ·) (ih (lo + 1))

theorem getD_map_span (f : Nat → Int) {n j : Nat} (h : j < n) : ((span 0 n).map f).getD j 0 = f j := by
  simp [span_eq_range', List.getD_eq_getElem?_getD, h]

/-! ### One streamed row -/

/-- What an error of the core's adders adds to the sum of column j (R83). -/
def adderError (c : Core) (j : Nat) : Int :=
  match c.adder with
  | some (k, d) => if k = j then d else 0
  | none => 0

theorem adderError_of_sound {c : Core} (h : c.adder = none) (j : Nat) : adderError c j = 0 := by
  simp [adderError, h]

theorem adderError_of_error {c : Core} {k : Nat} {d : Int} (h : c.adder = some (k, d)) (j : Nat) :
    adderError c j = if j = k then d else 0 := by
  simp [adderError, h, eq_comm]

/-- Column j of a streamed row: the sum that the accumulator takes, whether it passed the range, and whether its check
passes. -/
def addColumn (c : Core) (b : Bank) (xs : List Int) (r j : Nat) : Int × Bool × Bool :=
  let old := (accRow c r).acc.getD j 0
  let new := accAdd old (columnSum b xs j + adderError c j)
  (new.1, new.2, new.2 || residueOk old new.1 (columnResidue b xs j))

theorem addRow_eq (c : Core) (b : Bank) (xs : List Int) (r : Nat) :
    let cols := (span 0 128).map (addColumn c b xs r)
    addRow c b xs r = ({ setAccRow c r { accRow c r with acc := cols.map fun x => x.1 } with adder := none },
      cols.any fun x => x.2.1, cols.findIdx? fun x => !x.2.2) := rfl

theorem addRow_ecc (c : Core) (b : Bank) (xs : List Int) (r : Nat) :
    (addRow c b xs r).1.ecc = (eccClear c (· == eccAcc r)).ecc := rfl

theorem addColumn_of_inside {c : Core} {b : Bank} {xs : List Int} {r j : Nat} {sum : Int}
    (hsum : (accRow c r).acc.getD j 0 + (columnSum b xs j + adderError c j) = sum) (lo : accMin ≤ sum) (hi : sum ≤ accMax) :
    addColumn c b xs r j = (sum, false, decide (adderError c j % 3 = 0)) := by
  subst hsum
  simp only [addColumn, accAdd_of_inside lo hi, residueOk_columnResidue, Bool.false_or]

/-- Where every sum stays inside, the row takes its sums with the adder's error, and the check names the first column whose
error is not a multiple of 3. -/
theorem addRow_of_inside {c : Core} {b : Bank} {xs : List Int} {r : Nat} {sum : Nat → Int}
    (hsum : ∀ j, (accRow c r).acc.getD j 0 + (columnSum b xs j + adderError c j) = sum j)
    (h : ∀ j < 128, accMin ≤ sum j ∧ sum j ≤ accMax) :
    addRow c b xs r = ({ setAccRow c r { accRow c r with acc := (span 0 128).map sum } with adder := none }, false,
      (span 0 128).findIdx? fun j => !decide (adderError c j % 3 = 0)) := by
  have hcols : (span 0 128).map (addColumn c b xs r) =
      (span 0 128).map fun j => (sum j, false, decide (adderError c j % 3 = 0)) := by
    refine List.map_congr_left fun j hj => ?_
    have hj : j < 128 := by simpa [span_eq_range', List.mem_range'_1] using hj
    exact addColumn_of_inside (hsum j) (h j hj).1 (h j hj).2
  simp [addRow_eq, hcols, Function.comp_def, List.findIdx?_map]

/-- Exactly one column of a row fails a check that only column k can fail. -/
theorem findIdx?_span_of_column {k : Nat} (hk : k < 128) (bad : Bool) :
    ((span 0 128).findIdx? fun j => decide (j = k) && bad) = if bad then some k else none := by
  cases bad with
  | false => simp
  | true =>
    have hfirst (j : Nat) (hj : j < k) : ¬ j = k := Nat.ne_of_lt hj
    simpa [span_eq_range', List.findIdx?_eq_some_iff_getElem, hk] using hfirst

/-- O14's first part as the model has it: with no error in an adder and every sum inside the range, the row takes its sums,
no check fails, and besides the row only its ECC mark changes. -/
theorem addRow_of_sound_adder {c : Core} {b : Bank} {xs : List Int} {r : Nat} (hs : c.adder = none)
    (h : ∀ j < 128, accMin ≤ (accRow c r).acc.getD j 0 + columnSum b xs j ∧
      (accRow c r).acc.getD j 0 + columnSum b xs j ≤ accMax) :
    ∃ c1, addRow c b xs r = (c1, false, none) ∧
      (∀ j < 128, (accRow c1 r).acc.getD j 0 = (accRow c r).acc.getD j 0 + columnSum b xs j) ∧
      (accRow c1 r).ext = (accRow c r).ext ∧ (∀ x, x ≠ r → accRow c1 x = accRow c x) ∧
      c1 = { eccClear c (· == eccAcc r) with acc := c1.acc } := by
  have herr := adderError_of_sound hs
  have hrow : addRow c b xs r = (setAccRow c r { accRow c r with
      acc := (span 0 128).map fun j => (accRow c r).acc.getD j 0 + columnSum b xs j }, false, none) := by
    rw [addRow_of_inside (fun j => by rw [herr, Int.add_zero]) h, setAccRow_adder hs]
    simp [herr]
  refine ⟨_, hrow, fun j hj => ?_, ?_, fun x hx => accRow_setAccRow_other c _ hx, rfl⟩
  · rw [accRow_setAccRow_same, getD_map_span _ hj]
  · rw [accRow_setAccRow_same]

/-- O14's second part: with an error of d in the adder of column k and every sum inside the range, the check fails exactly
if d is not a multiple of 3, and then at column k. -/
theorem addRow_of_adder_error {c : Core} {b : Bank} {xs : List Int} {r k : Nat} {d : Int} (hk : k < 128)
    (hs : c.adder = some (k, d))
    (h : ∀ j < 128, accMin ≤ (accRow c r).acc.getD j 0 + columnSum b xs j + (if j = k then d else 0) ∧
      (accRow c r).acc.getD j 0 + columnSum b xs j + (if j = k then d else 0) ≤ accMax) :
    (addRow c b xs r).2 = (false, if d % 3 = 0 then none else some k) := by
  have herr := adderError_of_error hs
  have hbad : (fun j => !decide (adderError c j % 3 = 0)) = fun j => decide (j = k) && !decide (d % 3 = 0) := by
    funext j
    rw [herr]
    split <;> simp [*]
  rw [addRow_of_inside (fun j => by rw [herr, Int.add_assoc]) h, hbad, findIdx?_span_of_column hk]
  simp

/-- A core with a single-bit ECC error marked at accumulator row 0. -/
def markedRow : Core := { ecc := [(eccAcc 0, false)] }

/-- Refutes O14: the first part says that the streamed row changes nothing but the accumulators, and the write of row 0 of
`markedRow` stores the row whole and so drops its ECC mark (R78). Only this clause of the frame fails: the sums and the
check are as O14 says by `addRow_of_sound_adder` and `addRow_of_adder_error`. -/
theorem not_residueCheckNeverTripsWithoutAnError : ¬ Obligations.ResidueCheckNeverTripsWithoutAnError := by
  unfold Obligations.ResidueCheckNeverTripsWithoutAnError
  intro h
  have hin : ∀ j < 128, accMin ≤ (accRow markedRow 0).acc.getD j 0 + columnSum ⟨0, [], []⟩ [] j ∧
      (accRow markedRow 0).acc.getD j 0 + columnSum ⟨0, [], []⟩ [] j ≤ accMax := by decide
  obtain ⟨c1, hrow, -, -, -, hframe⟩ := (h markedRow ⟨0, [], []⟩ [] 0).1 rfl hin
  have hkept : c1.ecc = [(eccAcc 0, false)] := congrArg Core.ecc hframe
  have hdropped : c1.ecc = [] := (congrArg (fun x => x.1.ecc) hrow).symm.trans (addRow_ecc markedRow ⟨0, [], []⟩ [] 0)
  exact absurd (hkept.symm.trans hdropped) (List.cons_ne_nil _ _)

end Sys2Proof.Machine

/-! How the sequencer takes a word (R66, R78, R88, R103 to R107, R128): which word a row answers, what a fetch leaves of a core, and
what becomes of a word by its guard and operands. -/

namespace Sys2Proof.Machine

/-! ### The row of a word -/

/-- Log 159: a word that spells another row is no command. -/
theorem kunerRow_of_other {code k : Nat} {w : BitVec 64} (core : Fin 32) (s : State) (run skip : State → State)
    (h : rowCode w = some k) (hk : k ≠ code) : kunerRow code core w s run skip = .refused .illFormed := by
  simp [kunerRow, h, hk]

theorem kunerRow_of_taken {code : Nat} {w : BitVec 64} (core : Fin 32) (s : State) (run skip : State → State)
    (h : rowCode w = none ∨ rowCode w = some code) :
    kunerRow code core w s run skip = .next (issue s core.val w run skip) := by
  rcases h with h | h <;> simp [kunerRow, h]

/-! ### The fetch -/

theorem fetchLine_eq (c : Core) : ∃ e, fetchLine c = { c with
    icache := ((c.progBase + c.pc) / 256 :: c.icache.erase ((c.progBase + c.pc) / 256)).take 64, ecc := e } := by
  unfold fetchLine
  dsimp only
  split
  · exact ⟨_, rfl⟩
  · exact ⟨_, rfl⟩

/-- R66, R78: reading the line at the pc changes the instruction cache and the error marks and count alone. -/
theorem eccRead_fetchLine_eq (c : Core) (lo hi : Nat) : ∃ e k, (eccRead (fetchLine c) lo hi).1 = { c with
    icache := ((c.progBase + c.pc) / 256 :: c.icache.erase ((c.progBase + c.pc) / 256)).take 64, ecc := e, eccCorr := k } := by
  obtain ⟨e, he⟩ := fetchLine_eq c
  rw [he]
  exact ⟨_, _, rfl⟩

/-- R553: a line whose HBM data is poisoned is not filled. -/
theorem fetched_of_poison {s : State} {n : Nat} (h : fillPoisoned s n = true) : fetched s n = (s, true) := by
  simp [fetched, h]

theorem fetched_of_no_poison {s : State} {n : Nat} (h : fillPoisoned s n = false) :
    ∃ e k, (fetched s n).1 = setCore s n { coreOf s n with
      icache := (((coreOf s n).progBase + (coreOf s n).pc) / 256 ::
        (coreOf s n).icache.erase (((coreOf s n).progBase + (coreOf s n).pc) / 256)).take 64, ecc := e, eccCorr := k } := by
  obtain ⟨e, k, hc⟩ := eccRead_fetchLine_eq (coreOf s n)
    (eccLine (((fetchLine (coreOf s n)).progBase + (fetchLine (coreOf s n)).pc) / 256))
    (eccLine (((fetchLine (coreOf s n)).progBase + (fetchLine (coreOf s n)).pc) / 256))
  refine ⟨e, k, ?_⟩
  simp only [fetched, h, Bool.false_eq_true, if_false, hc]

/-! ### The guard and the operands -/

theorem issue_of_not_issuing {s : State} {n : Nat} (w : BitVec 64) (run skip : State → State)
    (h : issuing (coreOf s n) = false) : issue s n w run skip = s := by
  simp [issue, h]

/-- The sequencer of a core that issues, by what the fetch leaves and by the core before it, of which the fetch changes nothing
that a guard, an operand or the pc rests on. -/
theorem issue_of_issuing {s : State} {n : Nat} (w : BitVec 64) (run skip : State → State) (h : issuing (coreOf s n) = true) :
    issue s n w run skip =
      if (fetched s n).2 = true then faultCmd (fetched s n).1 n { bit := .eccUncorr } (coreOf s n).pc
      else if (coreOf s n).progLen ≤ (coreOf s n).pc ∨ decodes w = false then
        faultCmd (fetched s n).1 n { bit := .illegalInstr } (coreOf s n).pc
      else if guardWaits (coreOf s n) w = true then (fetched s n).1
      else if guardOk (coreOf s n) w = false then skip (fetched s n).1
      else if operandWaits (coreOf s n) w = true then (fetched s n).1
      else run (fetched s n).1 := by
  cases hp : fillPoisoned s n with
  | true => simp [issue, h, hp, fetched_of_poison hp]
  | false =>
    obtain ⟨e, k, hc⟩ := eccRead_fetchLine_eq (coreOf s n)
      (eccLine (((fetchLine (coreOf s n)).progBase + (fetchLine (coreOf s n)).pc) / 256))
      (eccLine (((fetchLine (coreOf s n)).progBase + (fetchLine (coreOf s n)).pc) / 256))
    simp only [issue, fetched, h, hp, hc, Bool.not_true, Bool.false_eq_true, if_false, Bool.or_eq_true, decide_eq_true_eq,
      Bool.not_eq_true']
    rfl

theorem issue_of_uncorrectable {s : State} {n : Nat} (w : BitVec 64) (run skip : State → State)
    (h : issuing (coreOf s n) = true) (hu : (fetched s n).2 = true) :
    issue s n w run skip = faultCmd (fetched s n).1 n { bit := .eccUncorr } (coreOf s n).pc := by
  rw [issue_of_issuing w run skip h, if_pos hu]

/-- R107: a word past the program, or one that may not be decoded. -/
theorem issue_of_illegal {s : State} {n : Nat} {w : BitVec 64} (run skip : State → State) (h : issuing (coreOf s n) = true)
    (hu : (fetched s n).2 = false) (hi : (coreOf s n).progLen ≤ (coreOf s n).pc ∨ decodes w = false) :
    issue s n w run skip = faultCmd (fetched s n).1 n { bit := .illegalInstr } (coreOf s n).pc := by
  rw [issue_of_issuing w run skip h, if_neg (by simp [hu]), if_pos hi]

/-- A word that the sequencer decodes: only its guard and its operands decide (R105, R128). -/
theorem issue_of_legal {s : State} {n : Nat} {w : BitVec 64} (run skip : State → State) (h : issuing (coreOf s n) = true)
    (hu : (fetched s n).2 = false) (hl : (coreOf s n).pc < (coreOf s n).progLen) (hd : decodes w = true) :
    issue s n w run skip =
      if guardWaits (coreOf s n) w = true then (fetched s n).1
      else if guardOk (coreOf s n) w = false then skip (fetched s n).1
      else if operandWaits (coreOf s n) w = true then (fetched s n).1
      else run (fetched s n).1 := by
  rw [issue_of_issuing w run skip h, if_neg (by simp [hu]), if_neg (by simp [hd, hl])]

theorem Reaches.decodes {code : Nat} {core : Fin 32} {w : BitVec 64} {s : State} (h : Reaches code core w s) :
    Machine.decodes w = true := by
  simp [Machine.decodes, h.row, h.legal]

/-- A word that a core takes to its meaning runs on what the fetch leaves. -/
theorem kuner_of_runs {code : Nat} {core : Fin 32} {w : BitVec 64} {s : State} (h : Runs code core w s) (run : State → State) :
    kuner code core w s run = .next (run (fetched s core.val).1) := by
  rw [kuner, kunerRow_of_taken core s _ _ (.inr h.row), issue_of_legal _ _ h.issues h.clean h.inside h.toReaches.decodes]
  simp [h.guardKnown, h.guard, h.ready]

/-- Settles O3: the row takes the word unless it spells another row, and `issue` says what becomes of it. -/
theorem kunerWordIsTakenOrPassedOver : Obligations.KunerWordIsTakenOrPassedOver := by
  unfold Obligations.KunerWordIsTakenOrPassedOver
  intro core w s n c f
  obtain ⟨run, hadd⟩ : ∃ run, exec (.add core w) s = kunerRow 0 core w s run fun s => onCore s core.val advance := ⟨_, rfl⟩
  rw [hadd]
  refine ⟨fun k hk h0 => kunerRow_of_other core s _ _ hk h0, fun hrow => ?taken,
    fun hp => congrArg Prod.fst (fetched_of_poison hp), fetched_of_no_poison⟩
  rw [kunerRow_of_taken core s _ _ hrow]
  refine ⟨fun hi => congrArg _ (issue_of_not_issuing w _ _ hi), fun hi => ⟨fun hu => congrArg _ (issue_of_uncorrectable w _ _ hi hu),
    fun hu => ⟨fun hill => congrArg _ (issue_of_illegal _ _ hi hu hill), fun hl hd => ?legal⟩⟩⟩
  rw [issue_of_legal _ _ hi hu hl hd]
  refine ⟨fun hw => congrArg _ (if_pos hw), fun hw hg => congrArg _ ?skipped, fun hw hg ho => congrArg _ ?waits⟩
  case skipped => exact (if_neg (ne_true_of_eq_false hw)).trans (if_pos hg)
  case waits =>
    exact (if_neg (ne_true_of_eq_false hw)).trans ((if_neg (ne_false_of_eq_true hg)).trans (if_pos ho))

end Sys2Proof.Machine

/-! Every command answers (R71, R99, R128): a row of a Kuner word answers unless the word spells another row, a row of any other
kind always does. -/

namespace Sys2Proof.Machine

/-- A command answers a next state if it is well formed, and is refused as ill formed if not. -/
def AnswersIf (ok : Bool) (r : Host.Outcome State Fault Refusal) : Prop :=
  if ok then ∃ t, r = .next t else r = .refused .illFormed

theorem answersIf_kunerRow (code : Nat) (core : Fin 32) (w : BitVec 64) (s : State) (run skip : State → State) :
    AnswersIf (match rowCode w with | some j => j == code | none => true) (kunerRow code core w s run skip) := by
  cases h : rowCode w with
  | none => exact ⟨_, kunerRow_of_taken core s run skip (.inl h)⟩
  | some j =>
    by_cases hj : j = code
    · subst hj
      simp only [beq_self_eq_true]
      exact ⟨_, kunerRow_of_taken core s run skip (.inr h)⟩
    · simp only [beq_eq_false_iff_ne.2 hj]
      exact kunerRow_of_other core s run skip h hj

theorem execHostLinkUp_answers (port : Fin 2) (sqi : Fin 8) (s : State) : ∃ t, execHostLinkUp port sqi s = .next t := by
  unfold execHostLinkUp
  dsimp only
  split
  · exact ⟨_, rfl⟩
  · exact ⟨_, rfl⟩

/-- Every row answers by its kind: the rows of a Kuner word through `kunerRow` with their code, all others at once. -/
theorem answersIf_exec (i : Instr) (s : State) : AnswersIf i.wellFormed (exec i s) := by
  cases i
  case add | sub | and | or | xor | sll | srl | sra | mul | mulh | mulhu | min | max | minu | maxu | cmpEq | cmpNe | cmpLt |
      cmpGe | cmpLtu | cmpGeu | pand | por | pxor | pandn | pnot | sld | sst | sget | b | bl | br | brl | loop | tld | tst |
      tpf | tchk | tdescLoad | tdescCopy | tdescSet | tdescAdd | tdescSeti | mwl | mma | mmas | maccZero | maccRes |
      maccUnres | maccCkpt | maccRestore | kapp | kseal | kmap | kmapPrefetch | eopMov | eopAdd | eopSub | eopMul | eopMin |
      eopMax | eopAbs | eopNeg | eopRelu | eopExp2 | eopExp | eopLog2 | eopRcp | eopRsqrt | eopSqrt | eopSigmoid | eopTanh |
      eopSilu | eopGelu | eopAnd | eopOr | eopXor | eopShl | eopSra | erq | esmx | enormRms | enormLayer | egateLstm |
      egateGru | egateDssm | escanScan | escanCombine | eredSum | eredMax | eredMin | eredArgmax | eredSumsq | wquantRange |
      wquantEncode | swait | swaitPeek | spost | fence | endCmd | csend | crecv | lsend | lrecv =>
    exact answersIf_kunerRow ..
  case hostLinkUp port sqi => exact execHostLinkUp_answers port sqi s
  all_goals exact ⟨_, rfl⟩

theorem wellFormed_of_not_kuner {i : Instr} (h : i.kuner = none) : i.wellFormed = true := by
  simp [Instr.wellFormed, h]

/-- Settles O58: by `answersIf_exec` a command answers or is refused as its form says, and what it answers keeps the queue. -/
theorem everyWellFormedCommandAnswers : Obligations.EveryWellFormedCommandAnswers := by
  unfold Obligations.EveryWellFormedCommandAnswers
  intro i s
  have hexec := answersIf_exec i s
  cases hi : i.wellFormed with
  | true =>
    obtain ⟨t, ht⟩ : ∃ t, exec i s = .next t := by rwa [hi] at hexec
    have hqueue : t.pending = s.pending := ((keeps_exec i s).all t ht).queue
    simp [ht, hqueue]
  | false =>
    have hrefused : exec i s = .refused .illFormed := by rwa [hi] at hexec
    have hkuner : i.kuner ≠ none := fun h => by rw [wellFormed_of_not_kuner h] at hi; cases hi
    simp [hrefused, hkuner]

end Sys2Proof.Machine

/-! The TDESC rows (R90, R129). -/

namespace Sys2Proof.Machine

/-- The two's-complement reading of a number's low 32 bits is the `toInt` of the word. -/
theorem signed_32_eq_toInt (x : Nat) : signed 32 x = (BitVec.ofNat 32 x).toInt := by
  simp only [signed, BitVec.toInt_eq_toNat_cond, BitVec.toNat_ofNat]
  split <;> split <;> omega

/-! ### The rows without memory -/

/-- R90: a TDESC whose T[td] a queued instruction still names stays, any other writes T[td]. -/
theorem tdesc_of_runs {mode : Nat} {core : Fin 32} {w : BitVec 64} {s : State} (h : Runs (1280 + mode) core w s)
    (g : Core → BitVec 256) :
    (tdWaits (coreOf (fetched s core.val).1 core.val) w = true → tdesc mode g core w s = .next (fetched s core.val).1) ∧
    (tdWaits (coreOf (fetched s core.val).1 core.val) w = false → tdesc mode g core w s =
      .next (onCore (fetched s core.val).1 core.val fun c =>
        advance (setT c (fld w 50 47) (g (coreOf (fetched s core.val).1 core.val))))) := by
  rw [tdesc, kuner_of_runs h]
  exact ⟨fun hw => congrArg _ (if_pos hw), fun hw => congrArg _ (if_neg (ne_true_of_eq_false hw))⟩

/-! ### TDESC LOAD -/

/-- R129: the offset that TDESC LOAD reads at, added exactly. -/
def tdescOffset (c : Core) (w : BitVec 64) : Int :=
  ((descOf (getT c (fld w 46 43))).base : Int) + (srcVal c (fld w 38 33)).toInt + (BitVec.ofNat 32 (fld w 31 0)).toInt

/-- R112, R129: T[ts] is usable and the 32 bytes lie inside the scratchpad. -/
def TdescInside (c : Core) (w : BitVec 64) : Prop :=
  spadDescOk (descOf (getT c (fld w 46 43))) = true ∧ 0 ≤ tdescOffset c w ∧ tdescOffset c w + 32 ≤ spadSize

theorem tdescAddr_eq (c : Core) (w : BitVec 64) : tdescAddr c w =
    if spadDescOk (descOf (getT c (fld w 46 43))) = false then faultOf .tileFault
    else if tdescOffset c w < 0 ∨ (spadSize : Int) < tdescOffset c w + 32 then faultOf .tileFault
    else if tdescOffset c w % 32 ≠ 0 then faultOf .misaligned
    else .ok (tdescOffset c w).toNat := by
  simp only [tdescAddr, signed_32_eq_toInt, BitVec.ofNat_toNat, BitVec.setWidth_eq, Bool.not_eq_true']
  rfl

theorem tdescAddr_of_outside {c : Core} {w : BitVec 64} (h : ¬ TdescInside c w) : tdescAddr c w = faultOf .tileFault := by
  rw [tdescAddr_eq]
  by_cases hd : spadDescOk (descOf (getT c (fld w 46 43))) = false
  · exact if_pos hd
  · have ha : ¬ (0 ≤ tdescOffset c w ∧ tdescOffset c w + 32 ≤ spadSize) :=
      fun hc => h ⟨Bool.of_not_eq_false hd, hc⟩
    rw [if_neg hd, if_pos (by omega)]

theorem tdescAddr_of_inside {c : Core} {w : BitVec 64} (h : TdescInside c w) :
    tdescAddr c w = if tdescOffset c w % 32 ≠ 0 then faultOf .misaligned else .ok (tdescOffset c w).toNat := by
  obtain ⟨hd, h0, h1⟩ := h
  rw [tdescAddr_eq, if_neg (ne_false_of_eq_true hd), if_neg (by omega)]

/-- R90, R129: what TDESC LOAD makes of the state once its word is taken. -/
def runTdescLoad (w : BitVec 64) (n : Nat) (s : State) : State :=
  let c := coreOf s n
  if tdWaits c w || seqWaits c { rdT := [fld w 46 43] } then s
  else match tdescAddr c w with
  | .error f => faultCmd s n f c.pc
  | .ok a =>
    let v := Memory.le (spadView s.freeCtr c) a 32
    let s1 := nextFree (setCore s n (spadTouch c [(a, 32)]).1)
    if (spadTouch c [(a, 32)]).2 then seqFault s1 n .eccUncorr
    else onCore s1 n fun c => advance (setT c (fld w 50 47) (BitVec.ofNat 256 v))

theorem execTdescLoad_of_runs {core : Fin 32} {w : BitVec 64} {s : State} (h : Runs 1280 core w s) :
    execTdescLoad core w s = .next (runTdescLoad w core.val (fetched s core.val).1) := kuner_of_runs h _

section
variable {w : BitVec 64} {n : Nat} {s : State}

theorem runTdescLoad_of_held (h : (tdWaits (coreOf s n) w || seqWaits (coreOf s n) { rdT := [fld w 46 43] }) = true) :
    runTdescLoad w n s = s := if_pos h

variable (h : (tdWaits (coreOf s n) w || seqWaits (coreOf s n) { rdT := [fld w 46 43] }) = false)
include h

/-- R129: TDESC LOAD outside the scratchpad, or through a descriptor that it may not use. -/
theorem runTdescLoad_of_outside (ho : ¬ TdescInside (coreOf s n) w) :
    runTdescLoad w n s = faultCmd s n { bit := .tileFault } (coreOf s n).pc := by
  simp only [runTdescLoad, h, tdescAddr_of_outside ho]
  rfl

variable (hi : TdescInside (coreOf s n) w)
include hi

theorem runTdescLoad_of_misaligned (ha : tdescOffset (coreOf s n) w % 32 ≠ 0) :
    runTdescLoad w n s = faultCmd s n { bit := .misaligned } (coreOf s n).pc := by
  simp only [runTdescLoad, h, tdescAddr_of_inside hi, if_pos ha]
  rfl

theorem runTdescLoad_of_aligned (ha : tdescOffset (coreOf s n) w % 32 = 0) :
    runTdescLoad w n s =
      let q := spadTouch (coreOf s n) [((tdescOffset (coreOf s n) w).toNat, 32)]
      let u := { setCore s n q.1 with freeCtr := s.freeCtr + 1 }
      if q.2 = true then faultCmd u n { bit := .eccUncorr } (coreOf u n).pc
      else onCore u n fun k => advance (setT k (fld w 50 47) (BitVec.ofNat 256
        (Memory.le (spadView s.freeCtr (coreOf s n)) (tdescOffset (coreOf s n) w).toNat 32))) := by
  simp only [runTdescLoad, h, tdescAddr_of_inside hi, if_neg (Decidable.not_not.2 ha)]
  rfl

end

/-- Settles O10: the four rows without memory write what `tdesc` is given; LOAD by its offset. -/
theorem tdescRowsWriteOneDescriptor : Obligations.TdescRowsWriteOneDescriptor := by
  unfold Obligations.TdescRowsWriteOneDescriptor
  intro core w s n f c td v old r
  refine ⟨?noMemory, fun h => ?load, by decide⟩
  case noMemory =>
    intro x hx
    simp only [List.mem_cons, List.not_mem_nil, or_false] at hx
    rcases hx with rfl | rfl | rfl | rfl <;> exact fun h => tdesc_of_runs h _
  case load =>
    intro d a held
    rw [exec_tdescLoad, execTdescLoad_of_runs h]
    refine ⟨fun hh => congrArg _ (runTdescLoad_of_held hh), fun hh => ⟨fun hi => ⟨fun ha => ?aligned, fun ha => ?misaligned⟩,
      fun ho => congrArg _ (runTdescLoad_of_outside hh ho)⟩⟩
    case misaligned => exact congrArg _ (runTdescLoad_of_misaligned hh hi ha)
    case aligned =>
      intro q u
      rw [runTdescLoad_of_aligned hh hi ha]
      exact ⟨fun hq => congrArg _ (if_neg (ne_true_of_eq_false hq)), fun hq => congrArg _ (if_pos hq)⟩

end Sys2Proof.Machine

/-! WATCHDOG, SEM_WAIT_REPORT and STOP_IDLE_TIMEOUT (R26, R99, R312, R315, R554). -/

namespace Sys2Proof.Machine

/-! ### The oldest entry of a core -/

/-- The older of an entry found so far and the next one; the first found stays where both are as old. -/
def older (b : Option QEntry) (e : QEntry) : Option QEntry :=
  match b with
  | some x => if e.seq < x.seq then some e else b
  | none => some e

theorem older_some (x e : QEntry) : ∃ y, older (some x) e = some y ∧ (y = x ∨ y = e) ∧ y.seq ≤ x.seq ∧ y.seq ≤ e.seq := by
  by_cases h : e.seq < x.seq
  · exact ⟨e, if_pos h, .inr rfl, Nat.le_of_lt h, Nat.le_refl _⟩
  · exact ⟨x, if_neg h, .inl rfl, Nat.le_refl _, Nat.le_of_not_lt h⟩

theorem foldl_older_some (l : List QEntry) (x : QEntry) :
    ∃ y, l.foldl older (some x) = some y ∧ y ∈ x :: l ∧ ∀ z ∈ x :: l, y.seq ≤ z.seq := by
  induction l generalizing x with
  | nil => exact ⟨x, rfl, List.mem_singleton_self x, by simp⟩
  | cons e l ih =>
    obtain ⟨x1, h1, hmem1, hx, he⟩ := older_some x e
    obtain ⟨y, hy, hmem, hmin⟩ := ih x1
    have hle : y.seq ≤ x1.seq := hmin x1 List.mem_cons_self
    refine ⟨y, by rw [List.foldl_cons, h1, hy], ?_, ?_⟩
    · rcases List.mem_cons.1 hmem with rfl | hmem
      · rcases hmem1 with rfl | rfl <;> simp
      · simp [hmem]
    · intro z hz
      simp only [List.mem_cons] at hz
      rcases hz with rfl | rfl | hz
      · exact Nat.le_trans hle hx
      · exact Nat.le_trans hle he
      · exact hmin z (List.mem_cons_of_mem _ hz)

theorem foldl_older_of_ne_nil {l : List QEntry} (h : l ≠ []) :
    ∃ y ∈ l, l.foldl older none = some y ∧ ∀ z ∈ l, y.seq ≤ z.seq := by
  cases l with
  | nil => exact absurd rfl h
  | cons x l =>
    obtain ⟨y, hy, hmem, hmin⟩ := foldl_older_some l x
    exact ⟨y, hmem, hy, hmin⟩

theorem mem_live_iff (c : Core) (e : QEntry) : e ∈ inFlight c ++ queued c ↔ e ∈ live c := by
  simp only [live, List.mem_append, or_comm]

/-- R99: with nothing issued that has not completed, the pc is that of the next instruction. -/
theorem oldestPc_of_live_nil {c : Core} (h : live c = []) : oldestPc c = c.pc := by
  obtain ⟨hq, hf⟩ := List.append_eq_nil_iff.1 h
  simp [oldestPc, hq, hf]

theorem oldestPc_of_foldl {c : Core} {e : QEntry} (h : (inFlight c ++ queued c).foldl older none = some e) :
    oldestPc c = e.pc := by
  have hpc : oldestPc c = match (inFlight c ++ queued c).foldl older none with
      | some e => e.pc
      | none => c.pc := rfl
  rw [hpc, h]

/-- R99: of the entries that have not completed, the one issued before all others counts. -/
theorem oldestPc_of_oldest {c : Core} {e : QEntry} (he : e ∈ live c) (h : ∀ x ∈ live c, x ≠ e → e.seq < x.seq) :
    oldestPc c = e.pc := by
  have hmem : e ∈ inFlight c ++ queued c := (mem_live_iff c e).2 he
  obtain ⟨y, hy, hfold, hmin⟩ := foldl_older_of_ne_nil (List.ne_nil_of_mem hmem)
  have hye : y = e := Decidable.byContradiction fun hne =>
    Nat.not_lt_of_le (hmin e hmem) (h y ((mem_live_iff c y).1 hy) hne)
  rw [oldestPc_of_foldl hfold, hye]

/-! ### WATCHDOG -/

theorem overBudget_iff (s : State) (n : Nat) : overBudget s n = true ↔
    ((coreOf s n).st = .running ∨ (coreOf s n).st = .stopping) ∧
      4 * 250 * (coreOf s n).cmdBudget.toNat < s.tick - (coreOf s n).cmdStart := by
  simp only [overBudget, Bool.and_eq_true, Bool.or_eq_true, beq_iff_eq, decide_eq_true_eq]
  refine and_congr_right fun _ => ?_
  omega

theorem execWatchdog_of_past {core : Fin 32} {s : State} (h : overBudget s core.val = true)
    (hr : holdsReport s core.val = false) :
    execWatchdog core s = .next (faultCmd s core.val { bit := .watchdog, addr := some 0 } (oldestPc (coreOf s core.val))) := by
  simp [execWatchdog, h, hr]

theorem execWatchdog_of_not_past {core : Fin 32} {s : State} (h : ¬ (overBudget s core.val = true ∧ holdsReport s core.val = false)) :
    execWatchdog core s = .next s := by
  refine congrArg _ (if_neg ?_)
  simpa using h

/-! ### A hardware sender's message -/

/-- From s to t only mailboxes and interrupt lines have changed. -/
def OnlyMailboxes (s t : State) : Prop := ∃ b q, t = { s with mbx := b, irqs := q }

theorem OnlyMailboxes.refl (s : State) : OnlyMailboxes s s := ⟨_, _, rfl⟩

theorem OnlyMailboxes.trans {s t u : State} (h1 : OnlyMailboxes s t) (h2 : OnlyMailboxes t u) : OnlyMailboxes s u := by
  obtain ⟨b, q, rfl⟩ := h1
  obtain ⟨b', q', rfl⟩ := h2
  exact ⟨b', q', rfl⟩

theorem onlyMailboxes_senderFault (s : State) (cause sender m w : Nat) : OnlyMailboxes s (senderFault s cause sender m w) := by
  unfold senderFault
  dsimp only
  split
  · exact ⟨_, _, rfl⟩
  · exact ⟨_, _, rfl⟩

theorem onlyMailboxes_mbxStore (s : State) (m w : Nat) (v : Word) : OnlyMailboxes s (mbxStore s m w v) := ⟨_, _, rfl⟩

theorem onlyMailboxes_mbxWords (m : Nat) (ws : List Word) (s : State) (k : Nat) : OnlyMailboxes s (mbxWords s m k ws) := by
  induction ws generalizing s k with
  | nil => exact .refl s
  | cons v ws ih => exact (onlyMailboxes_mbxStore s m k v).trans (ih (mbxStore s m k v) (k + 1))

theorem onlyMailboxes_mbxPostNow (s : State) (by_ : Req) (m : Nat) (v : Word) : OnlyMailboxes s (mbxPostNow s by_ m v) :=
  (onlyMailboxes_mbxStore s m 7 v).trans ((onlyMailboxes_mbxStore _ m 0 _).trans ⟨_, _, rfl⟩)

theorem onlyMailboxes_hwWrite (s : State) (by_ : Req) (m : Nat) (ws : List Word) : OnlyMailboxes s (hwWrite s by_ m ws) := by
  unfold hwWrite
  dsimp only
  split
  · exact onlyMailboxes_senderFault s _ _ _ _
  · split
    · exact (onlyMailboxes_mbxWords m _ s 0).trans (onlyMailboxes_senderFault _ _ _ _ _)
    · exact (onlyMailboxes_mbxWords m _ s 0).trans (onlyMailboxes_mbxPostNow _ _ _ _)

/-- R25: a message that is posted, held or dropped touches nothing but mailboxes and interrupt lines. -/
theorem onlyMailboxes_hwPost (s : State) (by_ : Req) (m : Nat) (ws : List Word) : OnlyMailboxes s (hwPost s by_ m ws) := by
  unfold hwPost
  dsimp only
  split
  · exact onlyMailboxes_hwWrite s _ _ _
  · split
    · exact onlyMailboxes_senderFault s _ _ _ _
    · exact ⟨_, _, rfl⟩

theorem hwPost_own (s : State) (by_ : Req) (m : Nat) (ws : List Word) : (hwPost s by_ m ws).own = s.own := by
  obtain ⟨b, q, h⟩ := onlyMailboxes_hwPost s by_ m ws
  rw [h]

theorem hwPost_runs (s : State) (by_ : Req) (m : Nat) (ws : List Word) : (hwPost s by_ m ws).runs = s.runs := by
  obtain ⟨b, q, h⟩ := onlyMailboxes_hwPost s by_ m ws
  rw [h]

/-! ### SEM_WAIT_REPORT and STOP_IDLE_TIMEOUT -/

section
variable {core : Fin 32} {s : State} {v : Nat}

theorem execSemWaitReport_of_no_wait (h : (coreOf s core.val).swait = none) : execSemWaitReport core s = .next s := by
  simp [execSemWaitReport, h]

/-- R554: a wait is reported once, and none with donate_wait at 0. -/
theorem execSemWaitReport_of_reported (h : (coreOf s core.val).swait = some v)
    (hr : s.sched.reportedWaits.contains (core.val, v) = true ∨ rbits s (schedRegBase + 4) 15 8 = 0) :
    execSemWaitReport core s = .next s := by
  simp only [execSemWaitReport, h, if_pos hr.symm]

/-- The state once the wait of core n on semaphore v has been reported (R26, R554). -/
def waitReported (s : State) (n v : Nat) : State :=
  onSched (hwPost s (semUnitOf n) (6 + n / 8) (waitReport s n v)) fun h => { h with reportedWaits := (n, v) :: h.reportedWaits }

theorem waitReported_corePart (s : State) (n v k : Nat) : corePart (waitReported s n v) k = corePart s k :=
  congrArg (fun o : Owners => SMap.getD o.core k 0) (hwPost_own ..)

theorem waitReported_runs (s : State) (n v : Nat) : (waitReported s n v).runs = s.runs := hwPost_runs ..

/-- R312, R313: after the first report of a wait Keeper ends a deadlock, or donates for the run of the waiting core. -/
theorem execSemWaitReport_of_new (h : (coreOf s core.val).swait = some v)
    (hr : s.sched.reportedWaits.contains (core.val, v) = false) (hd : rbits s (schedRegBase + 4) 15 8 ≠ 0) :
    execSemWaitReport core s = .next (
      if deadlocked (waitReported s core.val v) (corePart s core.val) = true then
        endDeadlock (waitReported s core.val v) (corePart s core.val)
      else (SMap.get? s.runs core.val).elim (waitReported s core.val v) fun r =>
        tryDonate (waitReported s core.val v) (corePart s core.val) r.queue r.job v) := by
  have hnew : ¬ (rbits s (schedRegBase + 4) 15 8 = 0 ∨ s.sched.reportedWaits.contains (core.val, v) = true) := by
    rw [hr]
    simpa using hd
  have hnext : execSemWaitReport core s = .next (
      if deadlocked (waitReported s core.val v) (corePart (waitReported s core.val v) core.val) = true then
        endDeadlock (waitReported s core.val v) (corePart (waitReported s core.val v) core.val)
      else match SMap.get? (waitReported s core.val v).runs core.val with
        | some r => tryDonate (waitReported s core.val v) (corePart (waitReported s core.val v) core.val) r.queue r.job v
        | none => waitReported s core.val v) := by
    simp only [execSemWaitReport, h, if_neg hnew]
    rfl
  rw [hnext, waitReported_runs, waitReported_corePart]
  cases SMap.get? s.runs core.val <;> rfl

theorem execSemWaitReport_of_deadlock (h : (coreOf s core.val).swait = some v)
    (hr : s.sched.reportedWaits.contains (core.val, v) = false) (hd : rbits s (schedRegBase + 4) 15 8 ≠ 0)
    (hdead : deadlocked (waitReported s core.val v) (corePart s core.val) = true) :
    execSemWaitReport core s = .next (endDeadlock (waitReported s core.val v) (corePart s core.val)) := by
  rw [execSemWaitReport_of_new h hr hd, if_pos hdead]

theorem execSemWaitReport_of_no_deadlock (h : (coreOf s core.val).swait = some v)
    (hr : s.sched.reportedWaits.contains (core.val, v) = false) (hd : rbits s (schedRegBase + 4) 15 8 ≠ 0)
    (hdead : deadlocked (waitReported s core.val v) (corePart s core.val) = false) :
    execSemWaitReport core s = .next ((SMap.get? s.runs core.val).elim (waitReported s core.val v) fun r =>
      tryDonate (waitReported s core.val v) (corePart s core.val) r.queue r.job v) := by
  rw [execSemWaitReport_of_new h hr hd, if_neg (ne_true_of_eq_false hdead)]

theorem execStopIdleTimeout_of_stopped (h : (coreOf s core.val).st = .stopping)
    (hr : (SMap.get? s.runs core.val).any Run.stopped = true) :
    execStopIdleTimeout core s = .next (detachRun (containCore s core.val) core.val) := by
  simp [execStopIdleTimeout, h, hr]

theorem execStopIdleTimeout_of_other
    (h : ¬ ((coreOf s core.val).st = .stopping ∧ (SMap.get? s.runs core.val).any Run.stopped = true)) :
    execStopIdleTimeout core s = .next s := by
  refine congrArg _ (if_neg ?_)
  simpa using h

end

/-- Settles O17: the watchdog's condition is `overBudget`, a new report touches only mailboxes and interrupt lines before Keeper
decides. -/
theorem watchdogEndsACommandPastFourBudgets : Obligations.WatchdogEndsACommandPastFourBudgets := by
  unfold Obligations.WatchdogEndsACommandPastFourBudgets
  intro core s n c past
  have hpast : overBudget s n = true ↔ past := overBudget_iff s n
  refine ⟨fun h => execWatchdog_of_past (hpast.2 h.1) h.2, fun h => execWatchdog_of_not_past (by rwa [hpast]),
    oldestPc_of_live_nil, fun e he h => oldestPc_of_oldest he h, execSemWaitReport_of_no_wait,
    fun v hv => ⟨execSemWaitReport_of_reported hv, fun hr hd => ?new⟩,
    execStopIdleTimeout_of_stopped, execStopIdleTimeout_of_other⟩
  case new =>
    refine ⟨execSemWaitReport_of_deadlock hv hr hd, fun hdead => ?_⟩
    have hnext := execSemWaitReport_of_no_deadlock hv hr hd hdead
    refine ⟨fun hrun => ?_, fun r hrun => ?_⟩
    · rw [hrun] at hnext
      exact hnext
    · rw [hrun] at hnext
      exact hnext

end Sys2Proof.Machine

/-! Placing a queued instruction (R88, R89, R136): its queue, the entry it makes, and the start of a queue's head. -/

namespace Sys2Proof.Machine

/-! ### Two writes of one core -/

/-- A key that is set twice holds the later value. -/
theorem SMap.set_set {α : Type} (m : SMap α) (k : Nat) (v w : α) : SMap.set (SMap.set m k v) k w = SMap.set m k w := by
  induction m with
  | nil => simp [SMap.set]
  | cons e r ih =>
    obtain ⟨j, x⟩ := e
    by_cases h1 : k < j
    · simp [SMap.set, h1]
    · by_cases h2 : k = j
      · subst h2
        simp [SMap.set]
      · simp [SMap.set, h1, h2, ih]

theorem Core.ne_default_of_running {c : Core} (h : c.st = .running) : c ≠ {} := by
  rintro rfl
  cases h

theorem coreOf_setCore_st_of_running {s : State} {n : Nat} {c : Core} (h : c.st = .running) :
    (coreOf (setCore s n c) n).st = .running := by
  rwa [coreOf_setCore_of_ne (Core.ne_default_of_running h)]

theorem setCore_of_ne {c : Core} (h : c ≠ {}) (s : State) (n : Nat) :
    setCore s n c = { s with cores := SMap.set s.cores n c } := by
  rw [setCore, SMap.put, if_neg h]

theorem setCore_setCore {c1 c2 : Core} (h1 : c1 ≠ {}) (h2 : c2 ≠ {}) (s : State) (n : Nat) :
    setCore (setCore s n c1) n c2 = setCore s n c2 := by
  simp only [setCore_of_ne h1, setCore_of_ne h2, SMap.set_set]

theorem coreOf_setCore_other {c : Core} (hc : c ≠ {}) (s : State) {n k : Nat} (h : k ≠ n) :
    coreOf (setCore s n c) k = coreOf s k := by
  rw [setCore_of_ne hc]
  exact SMap.getD_set_other s.cores c {} h

/-! ### Queues of a core -/

@[simp] theorem queueIn_setQueue (c : Core) (q : QueueName) (l : List QEntry) : queueIn (setQueue c q l) q = l := by
  cases q <;> rfl

@[simp] theorem setQueue_st (c : Core) (q : QueueName) (l : List QEntry) : (setQueue c q l).st = c.st := by
  cases q <;> rfl

@[simp] theorem queueIn_advance (c : Core) (q : QueueName) : queueIn (advance c) q = queueIn c q := by
  cases q <;> rfl

/-- R80, R171: what issue notes of an entry are its bank and its send index. -/
theorem noteIssue_eq (op : QOp) (c : Core) :
    ∃ a b k, (noteIssue op c).1 = { c with lastFill := a, lastUse := b, sendIx := k } := by
  cases op <;> exact ⟨_, _, _, rfl⟩

/-! ### The entry of a word -/

/-- The entry that a word joins its queue with: numbered in the order of issue. -/
def entryAt (op : QOp) (c : Core) (w : BitVec 64) : QEntry := { entryOf op c w with seq := c.seq }

/-- The core once the entry of a word has joined its queue and issue has moved on. -/
def placedCore (op : QOp) (c : Core) (w : BitVec 64) : Core :=
  let q := queueOf (entryAt op c w)
  advance { setQueue (noteIssue op c).1 q (queueIn c q ++ [entryAt op c w]) with seq := c.seq + 1 }

theorem placedCore_st (op : QOp) (c : Core) (w : BitVec 64) : (placedCore op c w).st = c.st := by
  obtain ⟨a, b, k, h⟩ := noteIssue_eq op c
  simp only [placedCore, advance, stepTo, setQueue_st, h]

theorem queueIn_placedCore (op : QOp) (c : Core) (w : BitVec 64) :
    queueIn (placedCore op c w) (queueOf (entryAt op c w)) = queueIn c (queueOf (entryAt op c w)) ++ [entryAt op c w] := by
  rw [placedCore, queueIn_advance]
  exact queueIn_setQueue _ _ _

/-- The model's issue of an entry is `placedCore`. -/
theorem advance_enqueue_noteIssue (op : QOp) (c : Core) (w : BitVec 64) :
    advance (enqueue (noteIssue op c).1 (entryOf op c w)) = placedCore op c w := by
  obtain ⟨a, b, k, h⟩ := noteIssue_eq op c
  simp only [enqueue, placedCore, entryAt, h]
  rfl

/-- R88: with 16 entries in its queue a word stays. -/
theorem place_of_full {s : State} {n : Nat} {op : QOp} {w : BitVec 64}
    (h : 16 ≤ (queueIn (coreOf s n) (queueOf (entryAt op (coreOf s n) w))).length) : place s n op w = s := if_pos h

theorem place_of_room {s : State} {n : Nat} {op : QOp} {w : BitVec 64}
    (h : (queueIn (coreOf s n) (queueOf (entryAt op (coreOf s n) w))).length < 16) :
    place s n op w = tryStart (setCore s n (placedCore op (coreOf s n) w)) n (queueOf (entryAt op (coreOf s n) w)) := by
  rw [← advance_enqueue_noteIssue]
  exact if_neg (Nat.not_le_of_lt h)

/-! ### The start of a head -/

theorem tryStart_of_held {s : State} {n : Nat} {q : QueueName} {c : Core} (hc : coreOf s n = c) {e : QEntry}
    (hq : (queueIn c q).head? = some e) (h : mayStart c e = false) : tryStart s n q = s := by
  obtain ⟨r, hr⟩ := List.head?_eq_some_iff.1 hq
  simp [tryStart, hc, hr, h]

/-- R89: the head of a queue of a running core that nothing holds back leaves it. -/
theorem tryStart_of_free {s : State} {n : Nat} {q : QueueName} {c : Core} (hc : coreOf s n = c) (hst : c.st = .running)
    {e : QEntry} {r : List QEntry} (hq : queueIn c q = e :: r) (h : mayStart c e = true) :
    tryStart s n q = startHead s n q e := by
  simp [tryStart, hc, hst, hq, h]

/-- R88: a head whose operation does not fault goes in flight with the bytes that its operation changed (R91). -/
theorem startHead_of_ok {s v : State} {n : Nat} {q : QueueName} {e : QEntry}
    (h : startOp (setCore s n (setQueue (coreOf s n) q (queueIn (coreOf s n) q).tail)) n e = .ok (v, none)) :
    startHead s n q e =
      let sent := if e.op = .lsend then lsendMore v n e else (v, e)
      onCore sent.1 n fun k => setFlight k q (flightIn k q ++
        [{ sent.2 with old := changedBytes (coreOf s n).spad (coreOf v n).spad }]) := by
  simp only [startHead, h]

/-! ### The queued rows -/

/-- The sixty rows are `queuedRow` with their code and operation. -/
theorem exec_of_queuedRows {r : KunerRow × Nat × QOp} (hr : r ∈ queuedRows) (core : Fin 32) (w : BitVec 64) (s : State) :
    exec (r.1 core w) s = queuedRow r.2.1 r.2.2 core w s := by
  have hall : queuedRows.map (fun r => exec (r.1 core w) s) = queuedRows.map fun r => queuedRow r.2.1 r.2.2 core w s := rfl
  exact List.map_inj_left.1 hall r hr

theorem running_of_issuing {c : Core} (h : issuing c = true) : c.st = .running := by
  simp only [issuing, Bool.and_eq_true, beq_iff_eq] at h
  exact h.1

/-- The fetch leaves the core running. -/
theorem coreOf_fetched_st {s : State} {n : Nat} (h : (coreOf s n).st = .running) :
    (coreOf (fetched s n).1 n).st = .running := by
  cases hp : fillPoisoned s n with
  | true => rw [fetched_of_poison hp]; exact h
  | false =>
    obtain ⟨e, k, hf⟩ := fetched_of_no_poison hp
    rw [hf]
    exact coreOf_setCore_st_of_running h

/-- Settles O13: a taken word is placed; the head of its queue then starts if nothing holds it back. -/
theorem queuedRowsEnterTheirQueue : Obligations.QueuedRowsEnterTheirQueue := by
  unfold Obligations.QueuedRowsEnterTheirQueue
  intro r hr core w s hruns n f c e q c1
  have hexec : exec (r.1 core w) s = .next (place f n r.2.2 w) := (exec_of_queuedRows hr core w s).trans (kuner_of_runs hruns _)
  have hst : c.st = .running := coreOf_fetched_st (running_of_issuing hruns.issues)
  have hst1 : c1.st = .running := (placedCore_st r.2.2 c w).trans hst
  have hne1 : c1 ≠ {} := Core.ne_default_of_running hst1
  have hc1 : coreOf (setCore f n c1) n = c1 := coreOf_setCore_of_ne hne1
  have hqueue : queueIn c1 q = queueIn c q ++ [e] := queueIn_placedCore r.2.2 c w
  rw [hexec]
  refine ⟨fun hfull => congrArg _ (place_of_full hfull), fun hroom => ?_⟩
  have hplace : place f n r.2.2 w = tryStart (setCore f n c1) n q := place_of_room hroom
  rw [hplace]
  refine ⟨?held, ?starts⟩
  case held =>
    rintro ⟨h, hh, hmay⟩
    exact congrArg _ (tryStart_of_held hc1 (by rw [hqueue]; exact hh) hmay)
  case starts =>
    intro hempty hmay v hv sent
    have hone : queueIn c1 q = e :: [] := by rw [hqueue, hempty]; rfl
    have hne2 : setQueue c1 q [] ≠ {} := Core.ne_default_of_running ((setQueue_st c1 q []).trans hst1)
    have hstart : startOp (setCore (setCore f n c1) n (setQueue (coreOf (setCore f n c1) n) q
        (queueIn (coreOf (setCore f n c1) n) q).tail)) n e = .ok (v, none) := by
      rw [hc1, hone, List.tail_cons, setCore_setCore hne1 hne2]
      exact hv
    rw [tryStart_of_free hc1 hst1 hone hmay, startHead_of_ok hstart, hc1]
    rfl

end Sys2Proof.Machine

/-! COMMAND_DISPATCH (R66, R131 to R134): the dispatch message, the launch block, and the core that they make. -/

namespace Sys2Proof.Machine

/-! ### The message (R133) -/

/-- R133: the launch block's address in words 1 and 2 of a dispatch message. -/
def blockAddr (w : Nat → Word) : Nat := (w 1).toNat + bits (w 2).toNat 15 0 * 2 ^ 32

/-- R133: the reserved bits of a dispatch message are 0, the block lies on a line and the budget is in range. -/
def MessageOk (w : Nat → Word) : Prop :=
  bits (w 2).toNat 31 16 = 0 ∧ bits (w 3).toNat 31 10 = 0 ∧ bits (w 5).toNat 31 13 = 0 ∧ blockAddr w % 64 = 0 ∧
    1 ≤ bits (w 5).toNat 12 0 ∧ bits (w 5).toNat 12 0 ≤ 5000

/-- The core that a dispatch message makes before its launch block is read (R66). -/
def dispatchedCore (c : Core) (tick : Nat) (w : Nat → Word) : Core :=
  freshCore c tick (w 4) (word (bits (w 3).toNat 9 0)) (word (bits (w 5).toNat 12 0))

/-- What the sequencer refuses in a dispatch message. -/
theorem messageBad_iff (w : Nat → Word) : (bits (w 2).toNat 31 16 != 0 || bits (w 3).toNat 31 10 != 0
    || bits (w 5).toNat 31 13 != 0 || blockAddr w % 64 != 0 || bits (w 5).toNat 12 0 == 0
    || decide (5000 < bits (w 5).toNat 12 0)) = true ↔ ¬ MessageOk w := by
  simp only [MessageOk, Bool.or_eq_true, bne_iff_ne, beq_iff_eq, decide_eq_true_eq]
  omega

theorem dispatch_of_bad_message {w : Nat → Word} (h : ¬ MessageOk w) (s : State) (n : Nat) :
    dispatch s n (w 1) (w 2) (w 3) (w 4) (w 5) = faultCmd (setCore s n (dispatchedCore (coreOf s n) s.tick w)) n
      { bit := .illegalInstr, addr := some (blockAddr w) } 0 := if_pos ((messageBad_iff w).2 h)

theorem dispatch_of_message {w : Nat → Word} (h : MessageOk w) (s : State) (n : Nat) :
    dispatch s n (w 1) (w 2) (w 3) (w 4) (w 5) =
      launch (setCore s n (dispatchedCore (coreOf s n) s.tick w)) n (blockAddr w) :=
  if_neg fun hb => (messageBad_iff w).1 hb h

theorem mayDispatch_iff (s : State) (n : Nat) : mayDispatch s n = true ↔ (coreOf s n).st = .idle ∧
    (coreOf s n).enable = true ∧ mbxFull s.mbx (32 + n) = true ∧ mbxReceiver s.mbx (32 + n) = 0x20 + n := by
  simp only [mayDispatch, Bool.and_eq_true, beq_iff_eq, and_assoc]

/-- R24: a core that may dispatch is the receiver of its dispatch mailbox, which its read of word 7 empties. -/
theorem mbxTake_of_mayDispatch {s : State} {core : Fin 32} (h : mayDispatch s core.val = true) :
    mbxTake s (.coreSeq core) (32 + core.val) =
      busData (mbxClear s (32 + core.val)) (mbxWord s.mbx (32 + core.val) 7) := by
  obtain ⟨-, -, hfull, hrecv⟩ := (mayDispatch_iff s core.val).1 h
  simp [mbxTake, receiverCode, hrecv, hfull]

theorem mbxFull_mbxClear_same (s : State) (m : Nat) : mbxFull (mbxClear s m).mbx m = false := by
  simp [mbxFull, mbxClear]

theorem mbxFull_mbxClear_other (s : State) {m x : Nat} (h : x ≠ m) : mbxFull (mbxClear s m).mbx x = mbxFull s.mbx x := by
  have hbit : x < m ∨ ¬ x - m = 0 := by omega
  by_cases hx : x < 128
  · simpa [mbxFull, mbxClear, hx] using fun _ => hbit
  · simp [mbxFull, BitVec.getLsbD_of_ge, Nat.le_of_not_lt hx]

/-! ### The launch block (R132, R134) -/

/-- R132: the fields of the launch block at a are in range. -/
def BlockOk (m : Memory) (a : Nat) : Prop :=
  Memory.le m (a + 0x13) 13 = 0 ∧ Memory.le m (a + 0x5C) 4 = 0 ∧ Memory.le m (a + 0x10) 2 % 2 = 0 ∧
    Memory.le m (a + 0) 8 % 64 = 0 ∧ Memory.le m (a + 0) 8 < 2 ^ 48 ∧ Memory.le m (a + 8) 4 % 8 = 0 ∧
    Memory.le m (a + 0xC) 4 % 8 = 0 ∧ Memory.le m (a + 0xC) 4 < Memory.le m (a + 8) 4

/-- The core that the launch block at a starts (R134). -/
def launchedCore (m : Memory) (a : Nat) (c : Core) : Core :=
  { loadT m a (Memory.le m (a + 0x12) 1) (loadS m a (Memory.le m (a + 0x10) 2) c) with
    progBase := Memory.le m (a + 0) 8, progLen := Memory.le m (a + 8) 4, pc := Memory.le m (a + 0xC) 4 }

theorem launch_of_unreached {s : State} {n a : Nat} (h : dmaReach s n a 352 false = false) :
    launch s n a = faultCmd s n { bit := .illegalInstr, addr := some a } 0 := by
  simp [launch, h]

theorem launch_of_poisoned {s : State} {n a : Nat} (h : dmaReach s n a 352 false = true) (hp : poisoned s a 352 = true) :
    launch s n a = faultCmd s n { bit := .eccUncorr, addr := some a } 0 := by
  simp [launch, h, hp]

/-- What the sequencer refuses in a launch block. -/
theorem blockBad_iff (m : Memory) (a : Nat) : (!launchReservedOk m a || Memory.le m a 8 % 64 != 0
    || decide (2 ^ 48 ≤ Memory.le m a 8) || Memory.le m (a + 8) 4 % 8 != 0 || Memory.le m (a + 0xC) 4 % 8 != 0
    || decide (Memory.le m (a + 8) 4 ≤ Memory.le m (a + 0xC) 4)) = true ↔ ¬ BlockOk m a := by
  simp only [BlockOk, launchReservedOk, Nat.add_zero, Bool.or_eq_true, Bool.not_eq_true', Bool.and_eq_false_iff,
    beq_eq_false_iff_ne, bne_iff_ne, decide_eq_true_eq]
  omega

theorem launch_of_bad_block {s : State} {n a : Nat} (h : dmaReach s n a 352 false = true) (hp : poisoned s a 352 = false)
    (hb : ¬ BlockOk s.mem a) : launch s n a = faultCmd s n { bit := .illegalInstr } (Memory.le s.mem (a + 0xC) 4) := by
  simp only [launch, h, hp, Bool.not_true, Bool.false_eq_true, if_false]
  exact if_pos ((blockBad_iff s.mem a).2 hb)

theorem launch_of_block {s : State} {n a : Nat} (h : dmaReach s n a 352 false = true) (hp : poisoned s a 352 = false)
    (hb : BlockOk s.mem a) : launch s n a = onCore s n (launchedCore s.mem a) := by
  simp only [launch, h, hp, Bool.not_true, Bool.false_eq_true, if_false]
  exact if_neg fun hc => (blockBad_iff s.mem a).1 hc hb

/-! ### The registers that the block loads -/

/-- Put f k under key k, if p picks it; d is what an unlisted key reads as. -/
def putIf {α : Type} [DecidableEq α] (p : Nat → Bool) (f : Nat → α) (d : α) (m : SMap α) (k : Nat) : SMap α :=
  if p k then SMap.put m k (f k) d else m

section
variable {α : Type} [DecidableEq α] {p : Nat → Bool} {f : Nat → α} {d : α}

theorem wf_putIf {m : SMap α} (k : Nat) (h : SMap.wf m = true) : SMap.wf (putIf p f d m k) = true := by
  unfold putIf
  split
  · exact SMap.wf_put h
  · exact h

theorem getD_putIf {m : SMap α} (k x : Nat) (h : SMap.wf m = true) :
    SMap.getD (putIf p f d m x) k d = if k = x ∧ p k = true then f k else SMap.getD m k d := by
  unfold putIf
  by_cases hp : p x = true
  · rw [if_pos hp]
    by_cases hk : k = x
    · subst hk
      simp [hp, SMap.getD_put_same h]
    · simp [hk, SMap.getD_put_other h]
  · rw [if_neg hp, if_neg]
    rintro ⟨rfl, hk⟩
    exact hp hk

theorem getD_foldl_putIf (k : Nat) (l : List Nat) {m : SMap α} (h : SMap.wf m = true) :
    SMap.getD (l.foldl (putIf p f d) m) k d = if k ∈ l ∧ p k = true then f k else SMap.getD m k d := by
  induction l generalizing m with
  | nil => simp
  | cons x l ih =>
    rw [List.foldl_cons, ih (wf_putIf x h), getD_putIf k x h]
    by_cases hp : p k = true
    · by_cases hk : k = x
      · subst hk
        simp [hp]
      · simp [hk]
    · simp [hp]

end

theorem mem_span_iff (lo n k : Nat) : k ∈ span lo n ↔ lo ≤ k ∧ k < lo + n := by
  simp [span_eq_range']

/-- S1 to S15 of the launch block at a. -/
def blockS (m : Memory) (a k : Nat) : Word := word (Memory.le m (a + (0x20 + 4 * (k - 1))) 4)

/-- T0 to T7 of the launch block at a. -/
def blockT (m : Memory) (a k : Nat) : BitVec 256 := BitVec.ofNat 256 (Memory.le m (a + (0x60 + 32 * k)) 32)

theorem loadS_eq (m : Memory) (a mask : Nat) (c : Core) : loadS m a mask c =
    { c with s := (span 1 15).foldl (putIf (fun k => bitOf mask k && k != 0) (blockS m a) 0) c.s } := by
  refine List.foldl_hom (init := c.s) (fun r => { c with s := r }) fun r k => ?_
  by_cases hb : bitOf mask k = true
  · by_cases hk : k = 0
    · simp [setS, putIf, hk]
    · simp [setS, putIf, hb, hk, blockS, Nat.add_assoc]
  · simp [putIf, hb]

theorem loadT_eq (m : Memory) (a mask : Nat) (c : Core) : loadT m a mask c =
    { c with t := (span 0 8).foldl (putIf (bitOf mask) (blockT m a) 0) c.t } := by
  refine List.foldl_hom (init := c.t) (fun r => { c with t := r }) fun r k => ?_
  by_cases hb : bitOf mask k = true
  · simp [setT, putIf, hb, blockT, Nat.add_assoc]
  · simp [putIf, hb]

/-- R134: the core that a command starts on, from a core whose registers are clear. -/
theorem launchedCore_eq (m : Memory) (a : Nat) (c : Core) : launchedCore m a c = { c with
    s := (span 1 15).foldl (putIf (fun k => bitOf (Memory.le m (a + 0x10) 2) k && k != 0) (blockS m a) 0) c.s,
    t := (span 0 8).foldl (putIf (bitOf (Memory.le m (a + 0x12) 1)) (blockT m a) 0) c.t,
    progBase := Memory.le m (a + 0) 8, progLen := Memory.le m (a + 8) 4, pc := Memory.le m (a + 0xC) 4 } := by
  rw [launchedCore, loadS_eq, loadT_eq]

theorem getS_launchedCore (m : Memory) (a : Nat) {c : Core} (h : c.s = []) {k : Nat} (hk : k ≠ 0) :
    getS (launchedCore m a c) k =
      if k < 16 ∧ bitOf (Memory.le m (a + 0x10) 2) k = true then blockS m a k else 0 := by
  have h1 : 1 ≤ k := Nat.one_le_iff_ne_zero.2 hk
  rw [launchedCore_eq, getS, if_neg hk, h, getD_foldl_putIf k _ rfl]
  simp [mem_span_iff, h1, hk, SMap.getD, SMap.get?]

theorem getT_launchedCore (m : Memory) (a : Nat) {c : Core} (h : c.t = []) (k : Nat) :
    getT (launchedCore m a c) k =
      if k < 8 ∧ bitOf (Memory.le m (a + 0x12) 1) k = true then blockT m a k else 0 := by
  rw [launchedCore_eq, getT, h, getD_foldl_putIf k _ rfl]
  simp [mem_span_iff, SMap.getD, SMap.get?]

/-! ### The core at its start -/

/-- The message in the dispatch mailbox of core n. -/
def dispatchMessage (s : State) (n : Nat) (k : Nat) : Word := mbxWord s.mbx (32 + n) k

/-- The core on which a good message and a good block start their command. -/
def startedCore (s : State) (n : Nat) : Core :=
  launchedCore s.mem (blockAddr (dispatchMessage s n)) (dispatchedCore (coreOf s n) s.tick (dispatchMessage s n))

/-- The core of a command at its start: what `dispatchedCore` leaves, with the registers and the program of the block. -/
theorem startedCore_eq (s : State) (n : Nat) : ∃ rs rt, startedCore s n =
    { dispatchedCore (coreOf s n) s.tick (dispatchMessage s n) with
      s := rs, t := rt, progBase := Memory.le s.mem (blockAddr (dispatchMessage s n) + 0) 8,
      progLen := Memory.le s.mem (blockAddr (dispatchMessage s n) + 8) 4,
      pc := Memory.le s.mem (blockAddr (dispatchMessage s n) + 0xC) 4 } := ⟨_, _, launchedCore_eq _ _ _⟩

theorem getS_startedCore_low (s : State) (n : Nat) {k : Nat} (h1 : 1 ≤ k) (h2 : k ≤ 15) : getS (startedCore s n) k =
    if bitOf (Memory.le s.mem (blockAddr (dispatchMessage s n) + 0x10) 2) k = true
    then blockS s.mem (blockAddr (dispatchMessage s n)) k else 0 := by
  rw [startedCore, getS_launchedCore _ _ rfl (Nat.ne_of_gt h1)]
  simp [Nat.lt_succ_of_le h2]

theorem getS_startedCore_high (s : State) (n : Nat) {k : Nat} (h : 16 ≤ k) : getS (startedCore s n) k = 0 := by
  rw [startedCore, getS_launchedCore _ _ rfl (by omega), if_neg (by omega)]

theorem getT_startedCore (s : State) (n k : Nat) : getT (startedCore s n) k =
    if k < 8 ∧ bitOf (Memory.le s.mem (blockAddr (dispatchMessage s n) + 0x12) 1) k = true
    then blockT s.mem (blockAddr (dispatchMessage s n)) k else 0 := getT_launchedCore _ _ rfl k

theorem startedCore_ne (s : State) (n : Nat) : startedCore s n ≠ {} := by
  obtain ⟨rs, rt, hfields⟩ := startedCore_eq s n
  exact Core.ne_default_of_running (congrArg Core.st hfields)

/-! ### The dispatch -/

/-- The state once core n has taken its message and holds nothing of an earlier command (R24, R66). -/
def dispatched (s : State) (core : Fin 32) : State :=
  let s1 := mbxTake s (.coreSeq core) (32 + core.val)
  setCore s1 core.val (dispatchedCore (coreOf s1 core.val) s.tick (dispatchMessage s core.val))

section
variable {s : State} {core : Fin 32}

theorem execCommandDispatch_of_not_ready (h : mayDispatch s core.val = false) : execCommandDispatch core s = .next s := by
  simp [execCommandDispatch, h]

/-- R24: taking the message changes its mailbox, the sender's interrupt and the bus answer. -/
theorem dispatched_eq (h : mayDispatch s core.val = true) : dispatched s core =
    setCore (busData (mbxClear s (32 + core.val)) (mbxWord s.mbx (32 + core.val) 7)) core.val
      (dispatchedCore (coreOf s core.val) s.tick (dispatchMessage s core.val)) := by
  simp only [dispatched, mbxTake_of_mayDispatch h]
  rfl

theorem dmaReach_dispatched (h : mayDispatch s core.val = true) (n a len : Nat) (wr : Bool) :
    dmaReach (dispatched s core) n a len wr = dmaReach s n a len wr := by
  rw [dispatched_eq h]
  rfl

theorem poisoned_dispatched (h : mayDispatch s core.val = true) (a n : Nat) :
    poisoned (dispatched s core) a n = poisoned s a n := by
  rw [dispatched_eq h]
  rfl

theorem dispatched_mem (h : mayDispatch s core.val = true) : (dispatched s core).mem = s.mem := by
  rw [dispatched_eq h]
  rfl

theorem execCommandDispatch_eq (h : mayDispatch s core.val = true) :
    execCommandDispatch core s = .next (dispatch (mbxTake s (.coreSeq core) (32 + core.val)) core.val
      (dispatchMessage s core.val 1) (dispatchMessage s core.val 2) (dispatchMessage s core.val 3)
      (dispatchMessage s core.val 4) (dispatchMessage s core.val 5)) := congrArg _ (if_pos h)

theorem tick_mbxTake_of_mayDispatch (h : mayDispatch s core.val = true) : (mbxTake s (.coreSeq core) (32 + core.val)).tick = s.tick := by
  rw [mbxTake_of_mayDispatch h]
  rfl

/-- R133: a message that is not as R133 has it ends the command at the block's address. -/
theorem execCommandDispatch_of_bad_message (h : mayDispatch s core.val = true) (hm : ¬ MessageOk (dispatchMessage s core.val)) :
    execCommandDispatch core s = .next (faultCmd (dispatched s core) core.val
      { bit := .illegalInstr, addr := some (blockAddr (dispatchMessage s core.val)) } 0) := by
  rw [execCommandDispatch_eq h, dispatch_of_bad_message hm, tick_mbxTake_of_mayDispatch h]
  rfl

variable (h : mayDispatch s core.val = true) (hm : MessageOk (dispatchMessage s core.val))
include h hm

theorem execCommandDispatch_of_message : execCommandDispatch core s =
    .next (launch (dispatched s core) core.val (blockAddr (dispatchMessage s core.val))) := by
  rw [execCommandDispatch_eq h, dispatch_of_message hm, tick_mbxTake_of_mayDispatch h]
  rfl

theorem execCommandDispatch_of_unreached
    (hr : dmaReach s core.val (blockAddr (dispatchMessage s core.val)) 352 false = false) :
    execCommandDispatch core s = .next (faultCmd (dispatched s core) core.val
      { bit := .illegalInstr, addr := some (blockAddr (dispatchMessage s core.val)) } 0) := by
  rw [execCommandDispatch_of_message h hm, launch_of_unreached (by rwa [dmaReach_dispatched h])]

variable (hr : dmaReach s core.val (blockAddr (dispatchMessage s core.val)) 352 false = true)
include hr

theorem execCommandDispatch_of_poisoned (hp : poisoned s (blockAddr (dispatchMessage s core.val)) 352 = true) :
    execCommandDispatch core s = .next (faultCmd (dispatched s core) core.val
      { bit := .eccUncorr, addr := some (blockAddr (dispatchMessage s core.val)) } 0) := by
  rw [execCommandDispatch_of_message h hm, launch_of_poisoned (by rwa [dmaReach_dispatched h]) (by rwa [poisoned_dispatched h])]

variable (hp : poisoned s (blockAddr (dispatchMessage s core.val)) 352 = false)
include hp

theorem execCommandDispatch_of_bad_block (hb : ¬ BlockOk s.mem (blockAddr (dispatchMessage s core.val))) :
    execCommandDispatch core s = .next (faultCmd (dispatched s core) core.val { bit := .illegalInstr }
      (Memory.le s.mem (blockAddr (dispatchMessage s core.val) + 0xC) 4)) := by
  rw [execCommandDispatch_of_message h hm, launch_of_bad_block (by rwa [dmaReach_dispatched h])
    (by rwa [poisoned_dispatched h]) (by rwa [dispatched_mem h]), dispatched_mem h]

/-- R134: a good message and a good launch block start the command. -/
theorem execCommandDispatch_of_block (hb : BlockOk s.mem (blockAddr (dispatchMessage s core.val))) :
    execCommandDispatch core s = .next (setCore
      (busData (mbxClear s (32 + core.val)) (mbxWord s.mbx (32 + core.val) 7)) core.val (startedCore s core.val)) := by
  have hfresh : dispatchedCore (coreOf s core.val) s.tick (dispatchMessage s core.val) ≠ {} := Core.ne_default_of_running rfl
  rw [execCommandDispatch_of_message h hm, launch_of_block (by rwa [dmaReach_dispatched h])
    (by rwa [poisoned_dispatched h]) (by rwa [dispatched_mem h]), dispatched_mem h, dispatched_eq h, onCore,
    coreOf_setCore_of_ne hfresh]
  exact congrArg _ (setCore_setCore hfresh (startedCore_ne s core.val) _ _)

end

theorem answers_of_next {i : Instr} {s t : State} {P : State → Prop} (h : exec i s = .next t) (hp : P t) : Answers i s P :=
  ⟨t, h, hp⟩

/-- Settles O15: the message decides by `MessageOk`, the block by reach, poison and `BlockOk`; a good one leaves `startedCore`. -/
theorem dispatchStartsTheCommandOfItsMessage : Obligations.DispatchStartsTheCommandOfItsMessage := by
  unfold Obligations.DispatchStartsTheCommandOfItsMessage
  intro core s n w a le good s1 s2 block
  refine ⟨execCommandDispatch_of_not_ready, fun h => ⟨execCommandDispatch_of_bad_message h, execCommandDispatch_of_unreached h,
    execCommandDispatch_of_poisoned h, execCommandDispatch_of_bad_block h, fun hg hr hp hb =>
    answers_of_next (execCommandDispatch_of_block h hg hr hp hb) ?started⟩⟩
  have hne : startedCore s n ≠ {} := startedCore_ne s n
  intro c
  have hc : c = startedCore s n := coreOf_setCore_of_ne hne
  refine ⟨rfl, mbxFull_mbxClear_same s _, fun m hm => mbxFull_mbxClear_other s hm, fun k hk => coreOf_setCore_other hne _ hk, ?_⟩
  have hlow (k : Nat) (h1 : 1 ≤ k) (h2 : k ≤ 15) := getS_startedCore_low s n h1 h2
  have hhigh (k : Nat) (h16 : 16 ≤ k) := getS_startedCore_high s n h16
  have hdesc (k : Nat) := getT_startedCore s n k
  obtain ⟨rs, rt, hfields⟩ := startedCore_eq s n
  rw [hc]
  rw [hfields] at hlow hhigh hdesc ⊢
  exact ⟨rfl, rfl, rfl, rfl, rfl, rfl, rfl, rfl, rfl, rfl, rfl, rfl, rfl, rfl, rfl, rfl, rfl, rfl, rfl, hlow, hhigh, hdesc⟩

end Sys2Proof.Machine

/-! The sequencer's own rows (R105, R106, R114 to R123): what each reads of the core after the fetch, and what it leaves. -/

namespace Sys2Proof.Machine

/-! ### What the fetch leaves -/

theorem fetched_eq_cores (s : State) (n : Nat) : ∃ cs, (fetched s n).1 = { s with cores := cs } := by
  cases hp : fillPoisoned s n with
  | true => exact ⟨_, congrArg Prod.fst (fetched_of_poison hp)⟩
  | false =>
    obtain ⟨e, k, hf⟩ := fetched_of_no_poison hp
    exact ⟨_, hf⟩

@[simp] theorem fetched_tick (s : State) (n : Nat) : (fetched s n).1.tick = s.tick := by
  obtain ⟨cs, h⟩ := fetched_eq_cores s n
  rw [h]

@[simp] theorem fetched_mbx (s : State) (n : Nat) : (fetched s n).1.mbx = s.mbx := by
  obtain ⟨cs, h⟩ := fetched_eq_cores s n
  rw [h]

@[simp] theorem corePart_fetched (s : State) (n k : Nat) : corePart (fetched s n).1 k = corePart s k := by
  obtain ⟨cs, h⟩ := fetched_eq_cores s n
  rw [h]
  rfl

section
variable {s : State} {n : Nat} (h : issuing (coreOf s n) = true)
include h

theorem coreOf_fetched : ∃ ic e k, coreOf (fetched s n).1 n = { coreOf s n with icache := ic, ecc := e, eccCorr := k } := by
  cases hp : fillPoisoned s n with
  | true => exact ⟨_, _, _, congrArg (coreOf ·.1 n) (fetched_of_poison hp)⟩
  | false =>
    obtain ⟨e, k, hf⟩ := fetched_of_no_poison hp
    exact ⟨_, e, k, (congrArg (coreOf · n) hf).trans
      (coreOf_setCore_of_ne (Core.ne_default_of_running (running_of_issuing h)))⟩

theorem srcVal_fetched (f : Nat) : srcVal (coreOf (fetched s n).1 n) f = srcVal (coreOf s n) f := by
  obtain ⟨ic, e, k, hc⟩ := coreOf_fetched h
  rw [hc]
  rfl

theorem pc_fetched : (coreOf (fetched s n).1 n).pc = (coreOf s n).pc := by
  obtain ⟨ic, e, k, hc⟩ := coreOf_fetched h
  rw [hc]

theorem progLen_fetched : (coreOf (fetched s n).1 n).progLen = (coreOf s n).progLen := by
  obtain ⟨ic, e, k, hc⟩ := coreOf_fetched h
  rw [hc]

theorem loops_fetched : (coreOf (fetched s n).1 n).loops = (coreOf s n).loops := by
  obtain ⟨ic, e, k, hc⟩ := coreOf_fetched h
  rw [hc]

end

/-! ### Taking a word to its row -/

theorem onCore_congr {s : State} {n : Nat} {f g : Core → Core} (h : f (coreOf s n) = g (coreOf s n)) :
    onCore s n f = onCore s n g := congrArg (setCore s n) h

theorem kunerRow_of_runs {code : Nat} {core : Fin 32} {w : BitVec 64} {s : State} (h : Runs code core w s)
    (run skip : State → State) : kunerRow code core w s run skip = .next (run (fetched s core.val).1) := by
  rw [kunerRow_of_taken core s _ _ (.inr h.row), issue_of_legal _ _ h.issues h.clean h.inside h.toReaches.decodes]
  simp [h.guardKnown, h.guard, h.ready]

/-- R105: a word whose guard fails. -/
theorem kunerRow_of_guard_fails {code : Nat} {core : Fin 32} {w : BitVec 64} {s : State} (h : Reaches code core w s)
    (hg : guardOk (coreOf s core.val) w = false) (run skip : State → State) :
    kunerRow code core w s run skip = .next (skip (fetched s core.val).1) := by
  rw [kunerRow_of_taken core s _ _ (.inr h.row), issue_of_legal _ _ h.issues h.clean h.inside h.decodes]
  simp [h.guardKnown, hg]

theorem fld_lt (w : BitVec 64) (hi lo : Nat) : fld w hi lo < 2 ^ (hi + 1 - lo) := Nat.mod_lt _ (Nat.two_pow_pos _)

theorem ite_eq_cases_iff {α : Type} {p : Prop} [Decidable p] {a b x : α} :
    (if p then a else b) = x ↔ p ∧ a = x ∨ ¬ p ∧ b = x := by
  by_cases h : p
  · simp only [h, if_true, true_and, not_true_eq_false, false_and, or_false]
  · simp only [h, if_false, true_and, not_false_eq_true, false_and, false_or]

/-- R104: ALU rows are their minor opcode in majors 0 and 1, CMP rows in 2 and 3; every other row code holds the major above its
low six bits. -/
theorem rowCode_eq_some {w : BitVec 64} {k : Nat} (h : rowCode w = some k) :
    ((major w = 0 ∨ major w = 1) ∧ k = minor w ∧ k ≤ 14) ∨
      ((major w = 2 ∨ major w = 3) ∧ k = 128 + minor w ∧ k ≤ 133) ∨
      (4 ≤ major w ∧ major w = k / 64) := by
  have h0 := fld_lt w 0 0
  have h14 := fld_lt w 14 14
  have h20 := fld_lt w 20 20
  have h30 := fld_lt w 30 30
  have h15 := fld_lt w 20 15
  simp only [rowCode, ite_eq_cases_iff, Option.some.injEq, reduceCtorEq, and_false, or_false] at h
  omega

theorem rowCode_alu {w : BitVec 64} {k : Nat} (h : rowCode w = some k) (hk : k < 64) :
    minor w = k ∧ (major w = 0 ∨ major w = 1) := by
  have := rowCode_eq_some h
  omega

theorem rowCode_cmp {w : BitVec 64} {k : Nat} (h : rowCode w = some k) (h1 : 128 ≤ k) (h2 : k < 192) :
    128 + minor w = k ∧ (major w = 2 ∨ major w = 3) := by
  have := rowCode_eq_some h
  omega

end Sys2Proof.Machine

/-! ALU, CMP and predicate logic (R114 to R117). -/

namespace Sys2Proof.Machine

/-! ### The arithmetic of the ALU (R115) -/

theorem sh_eq (b : Word) : sh b = (b &&& 31).toNat := by
  rw [BitVec.toNat_and]
  exact (Nat.and_two_pow_sub_one_eq_mod b.toNat 5).symm

/-- MULH: the upper half of the signed product. -/
theorem mulh_eq (a b : Word) :
    BitVec.ofInt 32 (a.toInt * b.toInt / 2 ^ 32) = (a.signExtend 64 * b.signExtend 64).extractLsb' 32 32 := by
  simp only [BitVec.signExtend, ← BitVec.ofInt_mul]
  generalize a.toInt * b.toInt = p
  apply BitVec.eq_of_toNat_eq
  simp only [BitVec.toNat_ofInt, BitVec.extractLsb'_toNat, Nat.shiftRight_eq_div_pow]
  omega

/-- MULHU: the upper half of the unsigned product. -/
theorem mulhu_eq (a b : Word) :
    word (a.toNat * b.toNat / 2 ^ 32) = (a.zeroExtend 64 * b.zeroExtend 64).extractLsb' 32 32 := by
  have hprod : a.toNat * b.toNat < 2 ^ 32 * 2 ^ 32 := Nat.mul_lt_mul'' a.isLt b.isLt
  apply BitVec.eq_of_toNat_eq
  simp only [word, BitVec.toNat_ofNat, BitVec.extractLsb'_toNat, BitVec.toNat_mul, BitVec.zeroExtend,
    BitVec.toNat_setWidth_of_le (show 32 ≤ 64 by decide), Nat.shiftRight_eq_div_pow]
  omega

/-- Where equal measures mean equal words, `<` and `≤` choose the same. -/
theorem ite_lt_eq_ite_le {f : Word → Int} (hf : ∀ {a b}, f a = f b → a = b) (a b : Word) :
    (if f a < f b then b else a) = if f a ≤ f b then b else a := by
  rcases Int.lt_trichotomy (f a) (f b) with h | h | h
  · rw [if_pos h, if_pos (Int.le_of_lt h)]
  · rw [hf h, ite_self, ite_self]
  · rw [if_neg (Int.not_lt.2 (Int.le_of_lt h)), if_neg (Int.not_le.2 h)]

theorem min_eq (a b : Word) : (if b.slt a then b else a) = if a.toInt ≤ b.toInt then a else b := by
  simp only [BitVec.slt, decide_eq_true_eq, ← Int.not_le, ite_not]

theorem max_eq (a b : Word) : (if a.slt b then b else a) = if a.toInt ≤ b.toInt then b else a := by
  simp only [BitVec.slt, decide_eq_true_eq, ite_lt_eq_ite_le BitVec.eq_of_toInt_eq]

theorem minu_eq (a b : Word) : (if b.ult a then b else a) = if a.toNat ≤ b.toNat then a else b := by
  simp only [BitVec.ult, decide_eq_true_eq, ← Nat.not_le, ite_not]

theorem maxu_eq (a b : Word) : (if a.ult b then b else a) = if a.toNat ≤ b.toNat then b else a := by
  have hinj {a b : Word} (h : (a.toNat : Int) = b.toNat) : a = b := BitVec.eq_of_toNat_eq (Int.ofNat_inj.1 h)
  simp only [BitVec.ult, decide_eq_true_eq, ← Int.ofNat_lt, ← Int.ofNat_le]
  exact ite_lt_eq_ite_le hinj a b

/-! ### The rows -/

theorem exec_of_aluRows {r : KunerRow × Nat × (Word → Word → Word)} (hr : r ∈ aluRows) (core : Fin 32) (w : BitVec 64)
    (s : State) : exec (r.1 core w) s = alu r.2.1 r.2.2 core w s := by
  have hall : aluRows.map (fun r => exec (r.1 core w) s) = aluRows.map fun r => alu r.2.1 r.2.2 core w s := by
    simp only [aluRows, List.map_cons, List.map_nil, exec_add, exec_sub, exec_and, exec_or, exec_xor, exec_sll, exec_srl,
      exec_sra, exec_mul, exec_mulh, exec_mulhu, exec_min, exec_max, exec_minu, exec_maxu, execAdd, execSub, execAnd, execOr,
      execXor, execSll, execSrl, execSra, execMul, execMulh, execMulhu, execMin, execMax, execMinu, execMaxu, sh_eq, mulh_eq,
      mulhu_eq, min_eq, max_eq, minu_eq, maxu_eq, BitVec.sshiftRight', BitVec.shiftLeft_eq', BitVec.ushiftRight_eq',
      BitVec.ofNat_mul, BitVec.ofNat_toNat, BitVec.setWidth_eq]
  exact List.map_inj_left.1 hall r hr

theorem exec_of_cmpRows {r : KunerRow × Nat × (Word → Word → Bool)} (hr : r ∈ cmpRows) (core : Fin 32) (w : BitVec 64)
    (s : State) : exec (r.1 core w) s = cmp (r.2.1 - 128) r.2.2 core w s := by
  have hall : cmpRows.map (fun r => exec (r.1 core w) s) = cmpRows.map fun r => cmp (r.2.1 - 128) r.2.2 core w s := by
    simp only [cmpRows, List.map_cons, List.map_nil, ← Int.not_lt, ← Nat.not_lt, ne_eq, decide_not]
    rfl
  exact List.map_inj_left.1 hall r hr

theorem exec_of_predRows {r : KunerRow × Nat × (Bool → Bool → Bool)} (hr : r ∈ predRows) (core : Fin 32) (w : BitVec 64)
    (s : State) : exec (r.1 core w) s = plogic (r.2.1 - 256) r.2.2 core w s := by
  have hall : predRows.map (fun r => exec (r.1 core w) s) = predRows.map fun r => plogic (r.2.1 - 256) r.2.2 core w s := rfl
  exact List.map_inj_left.1 hall r hr

/-- R114: an odd major is the immediate form. -/
theorem valueB_fetched {s : State} {n m : Nat} {w : BitVec 64} (h : issuing (coreOf s n) = true) (hm : m % 2 = 0)
    (hw : major w = m ∨ major w = m + 1) : valueB (coreOf (fetched s n).1 n) w =
      if major w = m + 1 then BitVec.ofNat 32 (fld w 31 0) else srcVal (coreOf s n) (fld w 35 30) := by
  have hodd : major w % 2 = 1 ↔ major w = m + 1 := by omega
  simp only [valueB, hodd, srcVal_fetched h]
  rfl

/-- Settles O4: an ALU row writes what `alu` computes, and its result is the model's by the arithmetic above. -/
theorem aluWritesItsResult : Obligations.AluWritesItsResult := by
  unfold Obligations.AluWritesItsResult
  intro r hr core w s h c a b rd
  have hcode : r.2.1 < 64 := (by decide : ∀ r ∈ aluRows, r.2.1 < 64) r hr
  obtain ⟨hminor, hmajor⟩ := rowCode_alu h.row hcode
  have ha : valueA (coreOf (fetched s core.val).1 core.val) w = a := srcVal_fetched h.issues _
  have hb : valueB (coreOf (fetched s core.val).1 core.val) w = b := valueB_fetched h.issues rfl hmajor
  refine ⟨?_, hminor, hmajor⟩
  rw [exec_of_aluRows hr, alu, kuner_of_runs h]
  exact congrArg _ (onCore_congr (by rw [ha, hb]))

/-- Settles O5: `cmp` and `plogic` write one predicate, and the comparisons are the model's. -/
theorem compareAndPredicateRowsWriteOnePredicate : Obligations.CompareAndPredicateRowsWriteOnePredicate := by
  unfold Obligations.CompareAndPredicateRowsWriteOnePredicate
  refine ⟨?compare, ?logic⟩
  case compare =>
    intro r hr core w s h c a b pd
    obtain ⟨hlo, hhi⟩ : 128 ≤ r.2.1 ∧ r.2.1 < 192 := (by decide : ∀ r ∈ cmpRows, 128 ≤ r.2.1 ∧ r.2.1 < 192) r hr
    obtain ⟨hminor, hmajor⟩ := rowCode_cmp h.row hlo hhi
    have ha : valueA (coreOf (fetched s core.val).1 core.val) w = a := srcVal_fetched h.issues _
    have hb : valueB (coreOf (fetched s core.val).1 core.val) w = b := valueB_fetched h.issues rfl hmajor
    refine ⟨?_, hminor, hmajor⟩
    rw [exec_of_cmpRows hr, cmp, Nat.add_sub_of_le hlo, kuner_of_runs h]
    exact congrArg _ (onCore_congr (by rw [ha, hb]))
  case logic =>
    intro r hr core w s h pd
    have hlo : 256 ≤ r.2.1 := (by decide : ∀ r ∈ predRows, 256 ≤ r.2.1) r hr
    rw [exec_of_predRows hr, plogic, Nat.add_sub_of_le hlo, kuner_of_runs h]
    rfl

end Sys2Proof.Machine

/-! SLD and SST (R118). -/

namespace Sys2Proof.Machine

/-! ### The address -/

/-- R118: the offset that SLD and SST name, added exactly. -/
def slmOffset (c : Core) (w : BitVec 64) : Int :=
  ((descOf (getT c (fld w 35 32))).base : Int) + (srcVal c (fld w 41 36)).toInt + (BitVec.ofNat 32 (fld w 31 0)).toInt

/-- R112, R118: T[tn] is usable and the word lies inside its extent and the scratchpad. -/
def SlmInside (c : Core) (w : BitVec 64) : Prop :=
  let d := descOf (getT c (fld w 35 32))
  spadDescOk d = true ∧ d.base ≤ slmOffset c w ∧ slmOffset c w + 4 ≤ extentEnd d ∧ slmOffset c w + 4 ≤ spadSize

theorem slmAddr_eq (c : Core) (w : BitVec 64) : slmAddr c w =
    let d := descOf (getT c (fld w 35 32))
    if spadDescOk d = false then faultOf .tileFault
    else if slmOffset c w < d.base ∨ (extentEnd d : Int) < slmOffset c w + 4 ∨ (spadSize : Int) < slmOffset c w + 4 then
      faultOf .tileFault
    else if slmOffset c w % 4 ≠ 0 then faultOf .misaligned
    else .ok (slmOffset c w).toNat := by
  simp only [slmAddr, signed_32_eq_toInt, BitVec.ofNat_toNat, BitVec.setWidth_eq, Bool.not_eq_true']
  rfl

theorem slmAddr_of_outside {c : Core} {w : BitVec 64} (h : ¬ SlmInside c w) : slmAddr c w = faultOf .tileFault := by
  rw [slmAddr_eq]
  dsimp only
  by_cases hd : spadDescOk (descOf (getT c (fld w 35 32))) = false
  · exact if_pos hd
  · rw [if_neg hd, if_pos]
    exact Decidable.byContradiction fun hin => h ⟨Bool.of_not_eq_false hd, by omega, by omega, by omega⟩

theorem slmAddr_of_inside {c : Core} {w : BitVec 64} (h : SlmInside c w) :
    slmAddr c w = if slmOffset c w % 4 ≠ 0 then faultOf .misaligned else .ok (slmOffset c w).toNat := by
  obtain ⟨hd, hlo, hextent, hspad⟩ := h
  rw [slmAddr_eq]
  dsimp only
  rw [if_neg (ne_false_of_eq_true hd), if_neg (by omega)]

/-! ### The word that SST stores -/

@[simp] theorem length_leBytes (n v : Nat) : (leBytes n v).length = n := by
  induction n generalizing v with
  | zero => rfl
  | succ n ih => exact congrArg Nat.succ (ih _)

/-- R67: an aligned word lies in one line. -/
theorem linesOf_of_aligned {a : Nat} (h : a % 4 = 0) : linesOf a 4 = [a / 64] := by
  have hone : (a + 4 - 1) / 64 + 1 - a / 64 = 1 := by omega
  rw [linesOf, if_neg (by decide), hone]
  rfl

theorem spadWrite_of_aligned (c : Core) {a : Nat} (h : a % 4 = 0) (v : Nat) : spadWrite c a (leBytes 4 v) =
    { eccClear c (wholeWord c a 4) with
      spad := Memory.writeBytes c.spad a (leBytes 4 v), valid := SMap.set c.valid (a / 64) () } := by
  simp only [spadWrite, length_leBytes, linesOf_of_aligned h, List.foldl_cons, List.foldl_nil]

/-! ### The rows -/

/-- R89, R118: what the two rows have in common: a conflict stalls, the address may fault, else the row moves its word. -/
def withSlmAddr (r : Regions) (w : BitVec 64) (n : Nat) (s : State) (move : Nat → State) : State :=
  if seqWaits (coreOf s n) r then s
  else match slmAddr (coreOf s n) w with
  | .error f => faultCmd s n f (coreOf s n).pc
  | .ok a => move a

section
variable {r : Regions} {w : BitVec 64} {n : Nat} {s : State} (move : Nat → State)

theorem withSlmAddr_of_conflict (h : seqWaits (coreOf s n) r = true) : withSlmAddr r w n s move = s := if_pos h

variable (h : seqWaits (coreOf s n) r = false)
include h

theorem withSlmAddr_of_outside (ho : ¬ SlmInside (coreOf s n) w) :
    withSlmAddr r w n s move = faultCmd s n { bit := .tileFault } (coreOf s n).pc := by
  simp only [withSlmAddr, h, slmAddr_of_outside ho]
  rfl

variable (hi : SlmInside (coreOf s n) w)
include hi

theorem withSlmAddr_of_misaligned (ha : slmOffset (coreOf s n) w % 4 ≠ 0) :
    withSlmAddr r w n s move = faultCmd s n { bit := .misaligned } (coreOf s n).pc := by
  simp only [withSlmAddr, h, slmAddr_of_inside hi, if_pos ha]
  rfl

theorem withSlmAddr_of_aligned (ha : slmOffset (coreOf s n) w % 4 = 0) :
    withSlmAddr r w n s move = move (slmOffset (coreOf s n) w).toNat := by
  simp only [withSlmAddr, h, slmAddr_of_inside hi, if_neg (Decidable.not_not.2 ha)]
  rfl

end

/-- R118: SST writes the bytes of rd. -/
def storeWord (w : BitVec 64) (n : Nat) (s : State) (a : Nat) : State :=
  onCore s n fun c => advance (spadWrite c a (leBytes 4 (srcVal c (fld w 47 42)).toNat))

/-- R78, R91, R118: SLD reads the scratchpad's view, or meets a double error. -/
def loadWord (w : BitVec 64) (n : Nat) (s : State) (a : Nat) : State :=
  let r := spadTouch (coreOf s n) [(a, 4)]
  let u := { setCore s n r.1 with freeCtr := s.freeCtr + 1 }
  if r.2 then faultCmd u n { bit := .eccUncorr } (coreOf u n).pc
  else onCore u n fun c =>
    advance (setS c (fld w 47 42) (BitVec.ofNat 32 (Memory.le (spadView s.freeCtr (coreOf s n)) a 4)))

theorem execSst_of_runs {core : Fin 32} {w : BitVec 64} {s : State} (h : Runs 321 core w s) : execSst core w s =
    .next (withSlmAddr { wrT := [fld w 35 32] } w core.val (fetched s core.val).1
      (storeWord w core.val (fetched s core.val).1)) := kuner_of_runs h _

theorem execSld_of_runs {core : Fin 32} {w : BitVec 64} {s : State} (h : Runs 320 core w s) : execSld core w s =
    .next (withSlmAddr { rdT := [fld w 35 32] } w core.val (fetched s core.val).1
      (loadWord w core.val (fetched s core.val).1)) := kuner_of_runs h _

/-- Settles O6: both rows share `withSlmAddr`; SST then stores the word, SLD loads it. -/
theorem scalarLoadAndStoreMoveOneWord : Obligations.ScalarLoadAndStoreMoveOneWord := by
  unfold Obligations.ScalarLoadAndStoreMoveOneWord
  intro core w s n f c d a inside rd
  refine ⟨fun h => ?store, fun h => ?load⟩
  case store =>
    rw [exec_sst, execSst_of_runs h]
    refine ⟨fun hw => congrArg _ (withSlmAddr_of_conflict _ hw), fun hw => ⟨fun hi ha => congrArg _ ?_,
      fun hi ha => congrArg _ (withSlmAddr_of_misaligned _ hw hi ha), fun ho => congrArg _ (withSlmAddr_of_outside _ hw ho)⟩⟩
    have hnat : a.toNat % 4 = 0 := by omega
    refine (withSlmAddr_of_aligned _ hw hi ha).trans (onCore_congr ?_)
    exact congrArg advance (spadWrite_of_aligned _ hnat _)
  case load =>
    rw [exec_sld, execSld_of_runs h]
    refine ⟨fun hw => congrArg _ (withSlmAddr_of_conflict _ hw), fun hw => ⟨fun hi ha => ?_,
      fun hi ha => congrArg _ (withSlmAddr_of_misaligned _ hw hi ha), fun ho => congrArg _ (withSlmAddr_of_outside _ hw ho)⟩⟩
    intro r u
    rw [withSlmAddr_of_aligned _ hw hi ha]
    exact ⟨fun hr => congrArg _ (if_neg (ne_true_of_eq_false hr)), fun hr => congrArg _ (if_pos hr)⟩

end Sys2Proof.Machine

/-! SGET, the branches and LOOP (R119 to R123). -/

namespace Sys2Proof.Machine

/-! ### SGET (R119) -/

theorem sgetVal_fetched {s : State} {n : Nat} (h : issuing (coreOf s n) = true) (k : Nat) :
    sgetVal (fetched s n).1 n k = sgetVal s n k := by
  obtain ⟨ic, e, j, hc⟩ := coreOf_fetched h
  simp only [sgetVal, hc, fetched_tick, corePart_fetched]

/-- R107: a legal SGET names one of the nine selectors. -/
theorem selector_le_of_legal {w : BitVec 64} (hm : major w = 6) (h : legal w = true) : fld w 31 0 ≤ 8 := by
  obtain ⟨-, hsel⟩ : ((dstOk (fld w 47 42) = true ∧ fld w 41 36 = 0) ∧ fld w 35 32 = 0) ∧ fld w 31 0 ≤ 8 := by
    simpa [legal, hm] using h
  exact hsel

/-- Settles O7: the value is `sgetVal` of the selector, which the fetch does not change. -/
theorem sgetReadsWhatItsSelectorNames : Obligations.SgetReadsWhatItsSelectorNames := by
  unfold Obligations.SgetReadsWhatItsSelectorNames
  intro core w s h c imm
  have hmajor : major w = 6 := by have := rowCode_eq_some h.row; omega
  have hsel (k : Nat) (hk : imm = k) : sgetVal s core.val imm = sgetVal s core.val k := congrArg _ hk
  refine ⟨sgetVal s core.val imm, ?_, hsel 0, hsel 1, hsel 2, hsel 3, hsel 4, hsel 5, hsel 6, hsel 7, hsel 8,
    selector_le_of_legal hmajor h.legal⟩
  rw [exec_sget, execSget, kuner_of_runs h]
  refine congrArg _ (onCore_congr (congrArg advance ?_))
  rw [sgetVal_fetched h.issues, fetched_tick]
  by_cases h4 : imm = 4
  · rw [if_pos h4, if_pos h4]
  · rw [if_neg h4, if_neg h4]

/-! ### Branches (R120, R123) -/

theorem signed_eq_toInt {n : Nat} (hn : 0 < n) (x : Nat) : signed n x = (BitVec.ofNat n x).toInt := by
  have hpow : 2 ^ n = 2 ^ (n - 1) * 2 := (Nat.two_pow_pred_mul_two hn).symm
  have hcast : ((2 ^ n : Nat) : Int) = 2 ^ n := by push_cast; rfl
  simp only [signed, BitVec.toInt_eq_toNat_cond, BitVec.toNat_ofNat, hcast]
  generalize x % 2 ^ n = v
  split <;> split <;> omega

/-- R120: BL and BRL write the address after the branch to rd. -/
def linked (link : Option Nat) (c : Core) : Core :=
  match link with
  | some rd => setS c rd (word (c.pc + 8))
  | none => c

@[simp] theorem setS_loops (c : Core) (k : Nat) (v : Word) : (setS c k v).loops = c.loops := by
  unfold setS
  split <;> rfl

@[simp] theorem linked_loops (link : Option Nat) (c : Core) : (linked link c).loops = c.loops := by
  cases link with
  | none => rfl
  | some rd => exact setS_loops c rd _

theorem jump_linked (link : Option Nat) (c : Core) (t : Nat) : jump (linked link c) t =
    { linked link c with pc := t, loops := c.loops.filter fun l => decide (l.start ≤ t ∧ t < l.stop) } := by
  simp only [jump, linked_loops, Bool.decide_and]

section
variable {s : State} {n : Nat} {t : Int} (link : Option Nat)

theorem branchTo_of_inside (h : t % 8 = 0 ∧ 0 ≤ t ∧ t < (coreOf s n).progLen) :
    branchTo s n t link = onCore s n fun c => jump (linked link c) t.toNat := if_neg (by omega)

theorem branchTo_of_outside (h : ¬ (t % 8 = 0 ∧ 0 ≤ t ∧ t < (coreOf s n).progLen)) :
    branchTo s n t link = faultCmd s n { bit := .illegalInstr } (coreOf s n).pc := if_pos (by omega)

end

theorem relTarget_fetched {s : State} {n : Nat} (h : issuing (coreOf s n) = true) (w : BitVec 64) :
    relTarget (coreOf (fetched s n).1 n) w = (coreOf s n).pc + 8 * (BitVec.ofNat 24 (fld w 23 0)).toInt := by
  rw [relTarget, pc_fetched h, signed_eq_toInt (by decide)]

theorem valueA_fetched {s : State} {n : Nat} (h : issuing (coreOf s n) = true) (w : BitVec 64) :
    valueA (coreOf (fetched s n).1 n) w = srcVal (coreOf s n) (fld w 41 36) := srcVal_fetched h _

/-- Settles O8: the four rows are `branchTo` with the target that the core before the fetch gives. -/
theorem branchesJumpLinkOrFault : Obligations.BranchesJumpLinkOrFault := by
  unfold Obligations.BranchesJumpLinkOrFault
  intro core w s c rel reg x hx h
  have hexec : exec (x.1 core w) s = .next (branchTo (fetched s core.val).1 core.val x.2.2.1
      (if x.2.2.2 then some (fld w 47 42) else none)) := by
    have hrel : relTarget (coreOf (fetched s core.val).1 core.val) w = rel := relTarget_fetched h.issues w
    have hreg : ((valueA (coreOf (fetched s core.val).1 core.val) w).toNat : Int) = reg :=
      congrArg (fun v : Word => (v.toNat : Int)) (valueA_fetched h.issues w)
    simp only [List.mem_cons, List.not_mem_nil, or_false] at hx
    rcases hx with rfl | rfl | rfl | rfl
    · rw [← hrel]; exact kuner_of_runs h _
    · rw [← hrel]; exact kuner_of_runs h _
    · rw [← hreg]; exact kuner_of_runs h _
    · rw [← hreg]; exact kuner_of_runs h _
  rw [hexec, ← progLen_fetched h.issues, ← pc_fetched h.issues]
  refine ⟨fun ht => congrArg _ ((branchTo_of_inside _ ht).trans (onCore_congr ?_)),
    fun ht => congrArg _ (branchTo_of_outside _ ht)⟩
  rw [jump_linked]
  cases x.2.2.2 <;> rfl

/-! ### LOOP (R121, R122) -/

theorem loopCount_eq (c : Core) (w : BitVec 64) :
    loopCount c w = (srcVal c (fld w 50 45) + BitVec.ofNat 32 (fld w 28 8)).toNat := by
  rw [BitVec.toNat_add, BitVec.toNat_ofNat, Nat.add_mod_mod]
  rfl

theorem bodyEnd_fetched {s : State} {n : Nat} (h : issuing (coreOf s n) = true) (w : BitVec 64) :
    bodyEnd (coreOf (fetched s n).1 n) w = (coreOf s n).pc + 8 + 8 * fld w 44 29 := by
  rw [bodyEnd, pc_fetched h]

/-- R122: the body lies inside every active body. -/
theorem nests_fetched {s : State} {n : Nat} (h : issuing (coreOf s n) = true) (w : BitVec 64) :
    nests (coreOf (fetched s n).1 n) w = true ↔ ∀ x ∈ (coreOf s n).loops,
      x.start ≤ (coreOf s n).pc + 8 ∧ (coreOf s n).pc + 8 + 8 * fld w 44 29 ≤ x.stop := by
  simp only [nests, bodyEnd_fetched h, loops_fetched h, pc_fetched h, List.all_eq_true, Bool.and_eq_true, decide_eq_true_eq]

/-- R122: LOOP checks how its body nests, whether or not its guard passes. -/
def nested (w : BitVec 64) (n : Nat) (s : State) (f : Core → Core) : State :=
  if nests (coreOf s n) w then onCore s n f else seqFault s n .illegalInstr

section
variable {core : Fin 32} {w : BitVec 64} {n : Nat} {s : State}

theorem execLoop_of_runs (h : Runs 576 core w s) : execLoop core w s =
    .next (nested w core.val (fetched s core.val).1 fun c => enterLoop c w) := kunerRow_of_runs h _ _

theorem execLoop_of_guard_fails (h : Reaches 576 core w s) (hg : guardOk (coreOf s core.val) w = false) : execLoop core w s =
    .next (nested w core.val (fetched s core.val).1 fun c => stepTo c (bodyEnd c w)) := kunerRow_of_guard_fails h hg _ _

theorem nested_of_inside (h : nests (coreOf s n) w = true) (f : Core → Core) : nested w n s f = onCore s n f := if_pos h

theorem nested_of_outside (h : ¬ nests (coreOf s n) w = true) (f : Core → Core) :
    nested w n s f = faultCmd s n { bit := .illegalInstr } (coreOf s n).pc := if_neg h

end

theorem enterLoop_of_zero {c : Core} {w : BitVec 64} (h : loopCount c w = 0) : enterLoop c w = stepTo c (bodyEnd c w) :=
  if_pos h

theorem enterLoop_of_pos {c : Core} {w : BitVec 64} (h : 0 < loopCount c w) : enterLoop c w =
    { c with l := SMap.erase c.l (fld w 53 51), pc := c.pc + 8,
             loops := { ln := fld w 53 51, start := c.pc + 8, stop := bodyEnd c w, left := loopCount c w - 1 }
               :: c.loops.filter fun x => x.ln != fld w 53 51 } := if_neg (Nat.ne_of_gt h)

/-! ### The end of a body (R122) -/

theorem advance_of_no_loop {c : Core} (h : c.loops = []) : advance c = { c with pc := c.pc + 8 } := by
  simp only [advance, stepTo, h, flow]

section
variable {c : Core} {x : LoopAct} {r : List LoopAct} (h : c.loops = x :: r)
include h

theorem advance_inside_body (hs : x.stop ≠ c.pc + 8) : advance c = { c with pc := c.pc + 8 } := by
  simp only [advance, stepTo, h, flow, if_neg hs]

theorem advance_iterates (hs : x.stop = c.pc + 8) (hl : 0 < x.left) : advance c =
    { c with pc := x.start, l := SMap.put c.l x.ln (SMap.getD c.l x.ln 0 + 1) 0,
             loops := { x with left := x.left - 1 } :: r } := by
  simp only [advance, stepTo, h, flow, if_pos hs, if_pos hl]

theorem advance_leaves_body (hs : x.stop = c.pc + 8) (hl : x.left = 0) : advance c = advance { c with loops := r } := by
  simp only [advance, stepTo, h, flow, if_pos hs, hl, Nat.lt_irrefl, if_false]

end

/-- Settles O9: both ways through LOOP are `nested`; the end of a body is `flow`. -/
theorem loopEntersIteratesAndEnds : Obligations.LoopEntersIteratesAndEnds := by
  unfold Obligations.LoopEntersIteratesAndEnds
  refine ⟨?runs, ?guardFails, fun _ => advance_of_no_loop, fun c x r h =>
    ⟨advance_inside_body h, advance_iterates h, advance_leaves_body h⟩⟩
  case runs =>
    intro core w s h c stop count
    have hcount : loopCount (coreOf (fetched s core.val).1 core.val) w = count := by
      rw [loopCount_eq, srcVal_fetched h.issues]
    have hstop : bodyEnd (coreOf (fetched s core.val).1 core.val) w = stop := bodyEnd_fetched h.issues w
    rw [exec_loop, execLoop_of_runs h, ← nests_fetched h.issues]
    refine ⟨fun hn => ?inside, fun hn => ?outside⟩
    case outside => rw [nested_of_outside hn, pc_fetched h.issues]
    case inside =>
      rw [nested_of_inside hn]
      refine ⟨fun h0 => congrArg _ (onCore_congr ?_), fun h0 => congrArg _ (onCore_congr ?_)⟩
      · rw [enterLoop_of_zero (hcount.trans h0), hstop]
      · rw [enterLoop_of_pos (hcount ▸ h0), hstop, hcount, pc_fetched h.issues]
  case guardFails =>
    intro core w s h hg c stop
    rw [exec_loop, execLoop_of_guard_fails h hg, ← nests_fetched h.issues]
    refine ⟨fun hn => ?inside, fun hn => ?outside⟩
    case outside => rw [nested_of_outside hn, pc_fetched h.issues]
    case inside =>
      rw [nested_of_inside hn]
      exact congrArg _ (onCore_congr (congrArg _ (bodyEnd_fetched h.issues w)))

end Sys2Proof.Machine

/-! FENCE and END (R135, R143, R166, R167). -/

namespace Sys2Proof.Machine

/-! ### FENCE (R166) -/

theorem pendingIn_matrix (c : Core) : pendingIn c .matrix = c.mq ++ c.mIn := congrArg (c.mq ++ ·) (List.filter_eq_self.2 fun _ _ => rfl)

/-- R143: a checkpoint that waits for its acknowledgements belongs to no queue but the matrix unit's. -/
theorem pendingIn_of_ne {q : QueueName} (hq : q ≠ .matrix) (c : Core) :
    pendingIn c q = queueIn c q ++ (flightIn c q).filter fun e => !(e.op == .macc) := by
  simp only [pendingIn, beq_eq_false_iff_ne.2 hq, Bool.false_or]

theorem unacked_ne_nil (c : Core) : unacked c ≠ [] ↔ (c.d0In ++ c.d1In).any (fun e => e.op == .macc) = true := by
  simp only [unacked, ne_eq, List.filter_eq_nil_iff, List.any_eq_true, Classical.not_forall, Classical.not_not, exists_prop]

theorem ack_eq_bitOf (w : BitVec 64) : (fld w 49 49 == 1) = bitOf w.toNat 49 := by
  simp only [fld, bits, bitOf, Nat.testBit_eq_decide_div_mod_eq, Nat.shiftRight_eq_div_pow]
  rfl

theorem fenceWaits_iff (c : Core) (q : Nat) (ack : Bool) : fenceWaits c q ack = true ↔
    (bitOf q 3 = true ∧ (c.mq ++ c.mIn ≠ [] ∨ ack = true ∧ (c.d0In ++ c.d1In).any (fun e => e.op == .macc) = true)) ∨
      (bitOf q 2 = true ∧ c.eq ++ c.eIn.filter (fun e => !(e.op == .macc)) ≠ []) ∨
      (bitOf q 1 = true ∧ c.d0 ++ c.d0In.filter (fun e => !(e.op == .macc)) ≠ []) ∨
      (bitOf q 0 = true ∧ c.d1 ++ c.d1In.filter (fun e => !(e.op == .macc)) ≠ []) := by
  have he : pendingIn c .element = c.eq ++ c.eIn.filter fun e => !(e.op == .macc) := pendingIn_of_ne (by decide) c
  have h0 : pendingIn c .dma0 = c.d0 ++ c.d0In.filter fun e => !(e.op == .macc) := pendingIn_of_ne (by decide) c
  have h1 : pendingIn c .dma1 = c.d1 ++ c.d1In.filter fun e => !(e.op == .macc) := pendingIn_of_ne (by decide) c
  simp only [fenceWaits, Bool.or_eq_true, Bool.and_eq_true, Bool.not_eq_true', List.isEmpty_eq_false_iff,
    unacked_ne_nil, pendingIn_matrix, he, h0, h1]
  grind

theorem execFence_of_runs {core : Fin 32} {w : BitVec 64} {s : State} (h : Runs 1664 core w s) : execFence core w s =
    .next (if fenceWaits (coreOf (fetched s core.val).1 core.val) (fld w 53 50) (bitOf w.toNat 49) then (fetched s core.val).1
      else onCore (fetched s core.val).1 core.val advance) := by
  rw [← ack_eq_bitOf]
  exact kuner_of_runs h _

/-! ### END (R135, R167) -/

/-- R167: issue has stopped with a clean ending. -/
def issueEnded (c : Core) : Core := { c with st := .stopping, ending := some .clean, loops := [] }

theorem issueEnded_ne (c : Core) : issueEnded c ≠ {} := by
  intro h
  cases congrArg Core.st h

theorem drained_iff (c : Core) : drained c = true ↔ queued c ++ inFlight c = [] := by
  simp only [drained, Bool.and_eq_true, List.isEmpty_iff, List.append_eq_nil_iff, and_comm]

theorem execEnd_of_runs {core : Fin 32} {w : BitVec 64} {s : State} (h : Runs 1984 core w s) : execEnd core w s =
    .next (finish (onCore (fetched s core.val).1 core.val issueEnded) core.val) := kuner_of_runs h _

section
variable {s : State} {n : Nat}

theorem finish_of_busy (h : queued (coreOf s n) ++ inFlight (coreOf s n) ≠ []) :
    finish (onCore s n issueEnded) n = onCore s n issueEnded := by
  have hd : drained (issueEnded (coreOf s n)) = false := Bool.eq_false_iff.2 fun hd => h ((drained_iff _).1 hd)
  simp only [finish, onCore, coreOf_setCore_of_ne (issueEnded_ne _), hd, Bool.and_false, Bool.false_and, Bool.false_eq_true,
    if_false]

variable (h : queued (coreOf s n) ++ inFlight (coreOf s n) = []) (hr : holdsReport s n = false)
include h hr

/-- R135: with the queues drained the end report goes. -/
theorem finish_of_drained : finish (onCore s n issueEnded) n = sendReport (onCore s n issueEnded) n := by
  have hd : drained (issueEnded (coreOf s n)) = true := (drained_iff _).2 h
  have hm : holdsReport (setCore s n (issueEnded (coreOf s n))) n = false := hr
  simp only [finish, onCore, coreOf_setCore_of_ne (issueEnded_ne _), hd, hm]
  rfl

end

theorem coreReq_val (core : Fin 32) : coreReq core.val = .coreSeq core := by
  simp only [coreReq, Nat.mod_eq_of_lt core.isLt]

/-- R25: the core holds its report while the mailbox is FULL. -/
theorem sendReport_of_full {s : State} {n : Nat} (h : mbxFull s.mbx (64 + n) = true) : sendReport s n =
    { s with mbx := { s.mbx with held := s.mbx.held ++ [⟨0x20 + n, 64 + n, endReport s n⟩] } } := if_pos h

theorem sendReport_of_free {s : State} {core : Fin 32} (h : mbxFull s.mbx (64 + core.val) = false) :
    sendReport s core.val =
      coreRest (hwWrite s (.coreSeq core) (64 + core.val) (endReport s core.val)) core.val := by
  rw [sendReport, if_neg (ne_true_of_eq_false h), coreReq_val]

/-- Settles O12: FENCE stays while `fenceWaits`; END ends issue, and `finish` reports once the queues have drained. -/
theorem fenceAndEndWaitForTheQueues : Obligations.FenceAndEndWaitForTheQueues := by
  unfold Obligations.FenceAndEndWaitForTheQueues
  intro core w s n f c q macc holds
  refine ⟨fun h => ?fence, fun h => ?ends⟩
  case fence =>
    have hwaits : fenceWaits c q (bitOf w.toNat 49) = true ↔ holds := fenceWaits_iff c q _
    rw [exec_fence, execFence_of_runs h]
    exact ⟨fun hh => congrArg _ (if_pos (hwaits.2 hh)), fun hh => congrArg _ (if_neg fun hw => hh (hwaits.1 hw))⟩
  case ends =>
    intro u
    have hmbx : u.mbx = s.mbx := fetched_mbx s n
    rw [exec_endCmd, execEnd_of_runs h]
    refine ⟨fun hq => congrArg _ (finish_of_busy hq), fun hq hr => ?_⟩
    have hheld : holdsReport f n = false := by rw [holdsReport, fetched_mbx]; exact hr
    rw [finish_of_drained hq hheld, ← hmbx]
    exact ⟨fun hfull => congrArg _ (sendReport_of_full hfull), fun hfree => congrArg _ (sendReport_of_free hfree)⟩

end Sys2Proof.Machine

/-! SWAIT, SPOST and SWAIT_SATISFY (R162 to R164, R312). -/

namespace Sys2Proof.Machine

/-! ### The semaphore and the amount (R162) -/

theorem semNo_eq (c : Core) (w : BitVec 64) :
    semNo c w = (srcVal c (fld w 53 48) + BitVec.ofNat 32 (fld w 47 38)).toNat % 1024 := by
  rw [semNo, BitVec.toNat_add, BitVec.toNat_ofNat, Nat.add_mod_mod, Nat.mod_mod_of_dvd _ (by decide)]

theorem semAmount_eq (c : Core) (w : BitVec 64) :
    semAmount c w = (srcVal c (fld w 37 32) + BitVec.ofNat 32 (fld w 31 16)).toNat := by
  rw [semAmount, BitVec.toNat_add, BitVec.toNat_ofNat, Nat.add_mod_mod]

/-! ### SWAIT (R163) -/

section
variable {s : State} {n : Nat} {w : BitVec 64} (peek : Bool)

theorem swait_of_none (h : semOf s n (semNo (coreOf s n) w) = none) :
    swait s n w peek = faultCmd s n { bit := .tileFault } (coreOf s n).pc := by
  simp only [swait, h, seqFault]

variable {m : Sem} (h : semOf s n (semNo (coreOf s n) w) = some m)
include h

theorem swait_of_zero (ha : semAmount (coreOf s n) w = 0) : swait s n w peek = onCore s n advance := by
  simp only [swait, h, if_pos ha]

variable (h0 : 0 < semAmount (coreOf s n) w)
include h0

theorem swait_of_enough (hc : semAmount (coreOf s n) w ≤ m.count) (hw : m.waiters = []) : swait s n w peek =
    onCore (setSem s (semNo (coreOf s n) w) { m with count := if peek then m.count else m.count - semAmount (coreOf s n) w })
      n advance := by
  simp only [swait, h, if_neg (Nat.ne_of_gt h0), if_pos (And.intro hc hw)]

/-- A wait that cannot be served at once joins the waiters last; its reports start afresh (R26). -/
theorem swait_of_short (hs : m.count < semAmount (coreOf s n) w ∨ m.waiters ≠ []) : ∃ sched, swait s n w peek =
    { s with sems := SMap.set s.sems (semNo (coreOf s n) w)
               { m with waiters := m.waiters ++ [⟨n, semAmount (coreOf s n) w, peek⟩] },
             cores := SMap.put s.cores n { coreOf s n with swait := some (semNo (coreOf s n) w) } {}, sched := sched } := by
  have hn : ¬ (semAmount (coreOf s n) w ≤ m.count ∧ m.waiters = []) := fun hc => hs.elim (Nat.not_lt_of_le hc.1) (· hc.2)
  simp only [swait, h, if_neg (Nat.ne_of_gt h0), if_neg hn]
  exact ⟨_, rfl⟩

end

/-! ### SPOST (R164, R312) -/

/-- R164: what SPOST makes of the state once its word is taken. -/
def runSpost (w : BitVec 64) (n : Nat) (s : State) : State :=
  if !drained (coreOf s n) then s
  else match semOf s n (semNo (coreOf s n) w) with
  | none => seqFault s n .tileFault
  | some m => onCore (semPost s n (semNo (coreOf s n) w) (semAmount (coreOf s n) w) m) n advance

theorem execSpost_of_runs {core : Fin 32} {w : BitVec 64} {s : State} (h : Runs 1600 core w s) :
    execSpost core w s = .next (runSpost w core.val (fetched s core.val).1) := kuner_of_runs h _

theorem semPost_eq (s : State) (n v a : Nat) (m : Sem) : semPost s n v a m =
    { s with sems := SMap.set s.sems v { m with count := min (m.count + a) 0xFFFFFFFF },
             donations := s.donations.filter fun d => !(d.sem == v && d.owner == (coreOf s n).cmdQueue.toNat),
             events := if m.count + a ≤ 0xFFFFFFFF then s.events
                       else { code := 0x0008, queue := (coreOf s n).cmdQueue.toNat, arg := v, tick := s.tick } :: s.events } := by
  by_cases h : m.count + a ≤ 0xFFFFFFFF
  · simp only [semPost, if_neg (Nat.not_lt_of_le h), if_pos h]
    rfl
  · simp only [semPost, if_pos (Nat.lt_of_not_le h), if_neg h]
    rfl

section
variable {s : State} {n : Nat} {w : BitVec 64}

theorem runSpost_of_busy (h : drained (coreOf s n) = false) : runSpost w n s = s := by
  simp [runSpost, h]

variable (h : drained (coreOf s n) = true)
include h

theorem runSpost_of_none (hm : semOf s n (semNo (coreOf s n) w) = none) :
    runSpost w n s = faultCmd s n { bit := .tileFault } (coreOf s n).pc := by
  simp [runSpost, h, hm, seqFault]

theorem runSpost_of_some {m : Sem} (hm : semOf s n (semNo (coreOf s n) w) = some m) : runSpost w n s =
    onCore (semPost s n (semNo (coreOf s n) w) (semAmount (coreOf s n) w) m) n advance := by
  simp [runSpost, h, hm]

end

/-! ### SWAIT_SATISFY (R163) -/

section
variable {v : Fin 1024} {s : State}

theorem execSwaitSatisfy_of_no_waiter (h : ∀ m, SMap.get? s.sems v.val = some m → m.waiters = []) :
    execSwaitSatisfy v s = .next s := by
  cases hm : SMap.get? s.sems v.val with
  | none => simp only [execSwaitSatisfy, hm]
  | some m => simp only [execSwaitSatisfy, hm, h m hm]

variable {m : Sem} {x : SemWait} {r : List SemWait} (hm : SMap.get? s.sems v.val = some m) (hw : m.waiters = x :: r)
include hm hw

theorem execSwaitSatisfy_of_short (h : m.count < x.amount) : execSwaitSatisfy v s = .next s := by
  simp only [execSwaitSatisfy, hm, hw, if_pos h]

theorem execSwaitSatisfy_of_enough (h : x.amount ≤ m.count) : execSwaitSatisfy v s = .next (onCore
    (setSem s v.val { m with count := if x.peek then m.count else m.count - x.amount, waiters := r })
    x.core fun c => advance { c with swait := none }) := by
  simp only [execSwaitSatisfy, hm, hw, if_neg (Nat.not_lt_of_le h)]

end

/-- Settles O11: SWAIT and SPOST act by the semaphore and the amount of their word; SWAIT_SATISFY looks at the oldest waiter
alone. -/
theorem semaphoresCountWaitAndServeInOrder : Obligations.SemaphoresCountWaitAndServeInOrder := by
  unfold Obligations.SemaphoresCountWaitAndServeInOrder
  refine ⟨?issued, fun v s => ⟨fun m x r hm hw => ⟨execSwaitSatisfy_of_short hm hw, execSwaitSatisfy_of_enough hm hw⟩,
    execSwaitSatisfy_of_no_waiter⟩⟩
  intro core w s n f c v a
  rw [show v = semNo c w from (semNo_eq c w).symm, show a = semAmount c w from (semAmount_eq c w).symm]
  refine ⟨fun x hx hruns => ?wait, fun hruns => ?post⟩
  case wait =>
    have hexec : exec (x.1 core w) s = .next (swait f n w x.2.2) := by
      simp only [List.mem_cons, List.not_mem_nil, or_false] at hx
      rcases hx with rfl | rfl <;> exact kuner_of_runs hruns _
    rw [hexec]
    refine ⟨fun hm => congrArg _ (swait_of_none _ hm), fun m hm => ⟨fun ha => congrArg _ (swait_of_zero _ hm ha),
      fun h0 hc hw => congrArg _ (swait_of_enough _ hm h0 hc hw), fun h0 hs => ?_⟩⟩
    obtain ⟨sched, ht⟩ := swait_of_short x.2.2 hm h0 hs
    exact ⟨_, rfl, by rw [ht]⟩
  case post =>
    rw [exec_spost, execSpost_of_runs hruns]
    refine ⟨fun hd => congrArg _ (runSpost_of_busy hd), fun hd hm => congrArg _ (runSpost_of_none hd hm), fun hd m hm =>
      ⟨_, congrArg _ (runSpost_of_some hd hm), ?_⟩⟩
    rw [semPost_eq, fetched_tick]
    rfl

end Sys2Proof.Machine

/-! STREAM_PAIR_TRANSFER (R67, R78, R169). -/

namespace Sys2Proof.Machine

/-- R169: the transfer between a sending entry x of core n and a receiving entry y of core k, both in flight. -/
def pairTransfer (s : State) (n k : Nat) (x y : QEntry) (crcBad : Bool) : State :=
  if strLen (coreOf s n) x ≠ strLen (coreOf s k) y then
    faultEntry (faultEntry s n x { bit := .tileFormat }) k y { bit := .tileFormat }
  else if (strRead s n x).2.1 then faultEntry s n x { bit := .eccUncorr }
  else
    let s1 := markDone (nextFree (setCore s n (strRead s n x).1)) n x
    if crcBad then faultEntry s1 k y { bit := .checkMismatch }
    else markDone (onCore s1 k fun c => writePieces c (strRead s n x).2.2 (strPieces c y)) k y

section
variable {a b : Fin 32} {ch : Fin 8} (crcBad : Bool) {s : State}

theorem execStreamPairTransfer_of_none (h : oldestStream (coreOf s a.val) .csend b.val ch.val = none ∨
    oldestStream (coreOf s b.val) .crecv a.val ch.val = none) : execStreamPairTransfer a b ch crcBad s = .next s := by
  rcases h with h | h
  · simp only [execStreamPairTransfer, h]
  · cases hx : oldestStream (coreOf s a.val) .csend b.val ch.val <;> simp only [execStreamPairTransfer, hx, h]

variable {x y : QEntry} (hx : oldestStream (coreOf s a.val) .csend b.val ch.val = some x)
  (hy : oldestStream (coreOf s b.val) .crecv a.val ch.val = some y)
include hx hy

theorem execStreamPairTransfer_of_queued (h : x ∉ inFlight (coreOf s a.val) ∨ y ∉ inFlight (coreOf s b.val)) :
    execStreamPairTransfer a b ch crcBad s = .next s := by
  have hc : ¬ ((inFlight (coreOf s a.val)).contains x && (inFlight (coreOf s b.val)).contains y) = true := by
    simpa only [Bool.and_eq_true, List.contains_iff_mem, Classical.not_and_iff_not_or_not] using h
  simp only [execStreamPairTransfer, hx, hy, if_neg hc]

theorem execStreamPairTransfer_of_in_flight (hfx : x ∈ inFlight (coreOf s a.val)) (hfy : y ∈ inFlight (coreOf s b.val)) :
    execStreamPairTransfer a b ch crcBad s = .next (pairTransfer s a.val b.val x y crcBad) := by
  simp only [execStreamPairTransfer, hx, hy, List.contains_iff_mem.2 hfx, List.contains_iff_mem.2 hfy, Bool.and_self, if_true]
  rfl

end

section
variable {s : State} {n k : Nat} {x y : QEntry}

theorem pairTransfer_of_lengths_differ (crcBad : Bool) (h : strLen (coreOf s n) x ≠ strLen (coreOf s k) y) :
    pairTransfer s n k x y crcBad = faultEntry (faultEntry s n x { bit := .tileFormat }) k y { bit := .tileFormat } := if_pos h

variable (h : strLen (coreOf s n) x = strLen (coreOf s k) y)
include h

theorem pairTransfer_of_uncorrectable (crcBad : Bool) (hu : (strRead s n x).2.1 = true) :
    pairTransfer s n k x y crcBad = faultEntry s n x { bit := .eccUncorr } :=
  (if_neg (not_not_intro h)).trans (if_pos hu)

/-- What is left once the sender's rows were read without a double error. -/
theorem pairTransfer_of_read (crcBad : Bool) (hu : (strRead s n x).2.1 = false) : pairTransfer s n k x y crcBad =
    let s1 := markDone (nextFree (setCore s n (strRead s n x).1)) n x
    if crcBad then faultEntry s1 k y { bit := .checkMismatch }
    else markDone (onCore s1 k fun c => writePieces c (strRead s n x).2.2 (strPieces c y)) k y :=
  (if_neg (not_not_intro h)).trans (if_neg (ne_true_of_eq_false hu))

end

/-- Settles O19: with both entries in flight the row is `pairTransfer`, whose branches are the cases of R169. -/
theorem streamPairMovesTheSendersRows : Obligations.StreamPairMovesTheSendersRows := by
  unfold Obligations.StreamPairMovesTheSendersRows
  intro a b ch crcBad s ca cb
  refine ⟨execStreamPairTransfer_of_none crcBad, fun x y hx hy =>
    ⟨execStreamPairTransfer_of_queued crcBad hx hy, fun hfx hfy => ?inFlight⟩⟩
  case inFlight =>
    rw [exec_streamPairTransfer, execStreamPairTransfer_of_in_flight crcBad hx hy hfx hfy]
    refine ⟨fun hl => congrArg _ (pairTransfer_of_lengths_differ crcBad hl), fun hl =>
      ⟨fun hu => congrArg _ (pairTransfer_of_uncorrectable hl crcBad hu), fun hu => ?_⟩⟩
    intro s1
    rw [pairTransfer_of_read hl crcBad hu]
    exact ⟨fun hc => congrArg _ (if_pos hc), fun hc => congrArg _ (if_neg (ne_true_of_eq_false hc))⟩

end Sys2Proof.Machine

/-! DATA, RERUN, PLACE, MOVE and KEY_RETIRE frames (R171, R368, R370, R375, R377, R378, R461). -/

namespace Sys2Proof.Machine

/-! ### Arrival of a frame (R365) -/

theorem onLink_of_down {s : State} {p : Nat} (f : FabFrame) (go : State → State)
    (h : ¬ (s.fab.en = true ∧ (fabPort s p).state = 3)) : onLink s p f go = s := by
  have hd : (!s.fab.en || (fabPort s p).state != 3) = true := by
    simpa only [Bool.or_eq_true, Bool.not_eq_true', bne_iff_ne, ne_eq, Classical.not_and_iff_not_or_not, Bool.not_eq_true] using h
  exact if_pos hd

theorem onLink_of_wrong_counter {s : State} {p : Nat} {f : FabFrame} (go : State → State) (he : s.fab.en = true)
    (hs : (fabPort s p).state = 3) (hc : counterOk (fabPort s p) f = false) :
    onLink s p f go = linkNak (fabCount (fabCount s 0x204 1) 0x20C 1) p := by
  simp [onLink, he, hs, hc]

theorem onLink_of_arrives {s : State} {p : Nat} {f : FabFrame} (type : Nat) (go : State → State) (h : Arrives s p f) :
    onLink s p { f with type := type } go = go (accepted s p type f) := by
  have hc : counterOk (fabPort s p) { f with type := type } = true := h.counter
  simp [onLink, accepted, h.enabled, h.up, hc]

/-! ### Routing (R375) -/

section
variable {s : State} {p type : Nat} {f : FabFrame} {control : Bool} {go on : State → State}

theorem routed_of_down (h : ¬ (s.fab.en = true ∧ (fabPort s p).state = 3)) : routed s p type f control go on = s :=
  onLink_of_down _ _ h

theorem routed_of_wrong_counter (h : s.fab.en = true ∧ (fabPort s p).state = 3) (hc : counterOk (fabPort s p) f = false) :
    routed s p type f control go on = linkNak (fabCount (fabCount s 0x204 1) 0x20C 1) p :=
  onLink_of_wrong_counter _ h.1 h.2 hc

/-- At its destination a frame acts, a control frame after it was posted to Keeper. -/
theorem routed_of_here (h : Arrives s p f) (hd : f.dest = (accepted s p type f).fab.addr) : routed s p type f control go on =
    drainOwn (go (if control then ctlPost (accepted s p type f) p else accepted s p type f)) :=
  (onLink_of_arrives type _ h).trans (if_pos hd)

theorem routed_of_elsewhere (h : Arrives s p f) (hd : f.dest ≠ (accepted s p type f).fab.addr) :
    routed s p type f control go on = on (accepted s p type f) :=
  (onLink_of_arrives type _ h).trans (if_neg hd)

end

theorem forward_eq (s : State) (f : FabFrame) :
    forward s f = if f.part = 0 ∧ frameGood f = false then askRerun s f else fabSend s f := by
  simp only [forward, Bool.not_eq_true']

/-- The routed rows, each with its link type, whether it is a control frame, and what it does at its destination. -/
def routedRows (port : Fin 4) (f : FabFrame) (tenant : Fin 9) (gen : Option Nat) (phase : Nat) :
    List (Instr × Nat × Bool × (State → State)) :=
  [(.data port f, 0x01, false, fun t => takeData t { f with type := 0x01 }),
   (.move port f, 0x31, false, fun t => takeMove t { f with type := 0x31 }),
   (.rerun port f, 0x26, true, fun t => takeRerun t { f with type := 0x26 }),
   (.place port f, 0x30, true, fun t => takeMsg t { f with type := 0x30 }),
   (.keyRetire port f tenant gen, 0x32, true,
     fun t => takeMsg t { f with type := 0x32, msg := some (.retire tenant.val gen) }),
   (.keyRetireAck port f tenant gen phase, 0x32, true,
     fun t => takeMsg t { f with type := 0x32, msg := some (.retireAck tenant.val gen phase) })]

/-- Elsewhere than at its destination a tile of DATA or MOVE is forwarded with its check (R370), RERUN and PLACE go on. -/
theorem exec_of_routedRows {port : Fin 4} {f : FabFrame} {tenant : Fin 9} {gen : Option Nat} {phase : Nat}
    {r : Instr × Nat × Bool × (State → State)} (hr : r ∈ routedRows port f tenant gen phase) :
    ∃ on : State → State, (∀ s, exec r.1 s = .next (routed s port.val r.2.1 f r.2.2.1 r.2.2.2 on)) ∧
      (r.2.1 = 0x01 ∨ r.2.1 = 0x31 → on = fun t => forward t { f with type := r.2.1 }) ∧
      (r.2.1 = 0x26 ∨ r.2.1 = 0x30 → on = fun t => fabSend t { f with type := r.2.1 }) := by
  simp only [routedRows, List.mem_cons, List.not_mem_nil, or_false] at hr
  rcases hr with rfl | rfl | rfl | rfl | rfl | rfl
  case inl | inr.inl => exact ⟨_, fun _ => rfl, fun _ => rfl, by simp⟩
  case inr.inr.inl | inr.inr.inr.inl => exact ⟨_, fun _ => rfl, by simp, fun _ => rfl⟩
  all_goals exact ⟨_, fun _ => rfl, by simp, by simp⟩

/-! ### The check of a tile (R68, R370) -/

theorem frameGood_iff (f : FabFrame) : frameGood f = true ↔ 16 ≤ f.payload.length ∧
    leNat (f.payload.take 4) = (crc32c (f.payload.drop 16)).toNat ∧
    leNat ((f.payload.drop 4).take 2) = f.payload.length - 16 := by
  simp only [frameGood, Bool.and_eq_true, decide_eq_true_eq, beq_iff_eq, List.length_drop, and_assoc]

/-! ### A frame at its destination -/

section
variable {s : State} {f : FabFrame}

theorem takeData_of_stale (h : keyHeld s f.part f.gen = false) : takeData s f = fabCount s 0x214 1 := by
  simp only [takeData, h, Bool.not_false, if_true]

theorem takeMove_of_stale (h : keyHeld s f.part f.gen = false) : takeMove s f = fabCount s 0x214 1 := by
  simp only [takeMove, h, Bool.not_false, if_true]

variable (h : keyHeld s f.part f.gen = true)
include h

theorem takeData_of_bad (hg : frameGood f = false) :
    takeData s f = askRerun (returnCredits (dropPart s f) f 1) f := by
  simp [takeData, h, hg]

theorem takeMove_of_bad (hg : frameGood f = false) : takeMove s f = askRerun s f := by
  simp [takeMove, h, hg]

variable (hg : frameGood f = true)
include hg

theorem takeMove_of_tile {t : MoveTile} (ht : f.move = some t) : takeMove s f = moveTile s f.src f.part t := by
  simp [takeMove, h, hg, ht]

/-- R171: a second copy of a delivered message. -/
theorem takeData_of_seen (hs : wasSeen s f = true) : takeData s f = returnCredits (fabCount s 0x21C 1) f 1 := by
  simp [takeData, h, hg, hs]

variable (hs : wasSeen s f = false)
include hs

theorem takeData_of_no_queue (hq : queueAt s f.destQueue = none) : takeData s f = s := by
  simp [takeData, h, hg, hs, hq]

theorem takeData_of_queue {q : Queue} (hq : queueAt s f.destQueue = some q) : takeData s f =
    if q.part = f.part then noteFrame (joinFrame s f) f.src f.job f.destQueue else s := by
  simp [takeData, h, hg, hs, hq]

end

/-! ### Joining a message (R171) -/

/-- A message of which no frame has come in. -/
def emptyPart (f : FabFrame) : PartMsg :=
  { msg := { src := f.src, srcQueue := f.srcQueue, queue := f.destQueue, tag := f.tag, job := f.job, command := f.command,
             sendIx := f.sendIx, frames := f.frames, data := [] }, got := 0 }

/-- What has come in of a frame's message, or its beginning. -/
def partSoFar (s : State) (f : FabFrame) : PartMsg := (partOf s f).getD (emptyPart f)

theorem partSoFar_got (s : State) (f : FabFrame) : (partSoFar s f).got = (partOf s f).elim 0 PartMsg.got := by
  unfold partSoFar
  cases partOf s f <;> rfl

theorem partSoFar_data (s : State) (f : FabFrame) :
    (partSoFar s f).msg.data = (partOf s f).elim [] fun m => m.msg.data := by
  unfold partSoFar
  cases partOf s f <;> rfl

/-- The message with the frame's data after what came in before. -/
def partWith (s : State) (f : FabFrame) : PartMsg :=
  { got := (partSoFar s f).got + 1,
    msg := { (partSoFar s f).msg with data := (partSoFar s f).msg.data ++ f.payload.drop 16 } }

/-- The name under which a delivered message is remembered. -/
def seenAs (f : FabFrame) : SeenMsg :=
  { src := f.src, job := f.job, command := f.command, sendIx := f.sendIx, queue := f.destQueue }

theorem wasSeen_of_mem {s : State} {f : FabFrame} (h : seenAs f ∈ s.fab.seenMsgs) : wasSeen s f = true :=
  List.any_eq_true.2 ⟨_, h, by simp [sameMsg, seenAs]⟩

section
variable {s : State} {f : FabFrame}

theorem joinFrame_of_again (h : f.frameIx < (partSoFar s f).got) :
    joinFrame s f = returnCredits (fabCount s 0x21C 1) f 1 := if_pos h

theorem joinFrame_of_ahead (h : (partSoFar s f).got < f.frameIx) : joinFrame s f = s :=
  (if_neg (Nat.not_lt_of_gt h)).trans (if_pos h)

variable (h : f.frameIx = (partSoFar s f).got)
include h

theorem joinFrame_of_next : joinFrame s f =
    if (partWith s f).got < f.frames then
      onFab s fun b => { b with partMsgs := s.fab.partMsgs.erase (partSoFar s f) ++ [partWith s f] }
    else { onFab s fun b => { b with partMsgs := s.fab.partMsgs.erase (partSoFar s f), seenMsgs := b.seenMsgs ++ [seenAs f] } with
      inMsgs := s.inMsgs ++ [(partWith s f).msg] } :=
  (if_neg (Nat.not_lt_of_le (Nat.le_of_eq h.symm))).trans (if_neg (Nat.not_lt_of_le (Nat.le_of_eq h)))

theorem joinFrame_of_more (hm : (partSoFar s f).got + 1 < f.frames) : joinFrame s f =
    onFab s fun b => { b with partMsgs := s.fab.partMsgs.erase (partSoFar s f) ++ [partWith s f] } :=
  (joinFrame_of_next h).trans (if_pos hm)

/-- The last frame queues the message for LRECV and marks it delivered. -/
theorem joinFrame_of_last (hl : f.frames ≤ (partSoFar s f).got + 1) : joinFrame s f =
    { onFab s fun b => { b with partMsgs := s.fab.partMsgs.erase (partSoFar s f), seenMsgs := b.seenMsgs ++ [seenAs f] } with
      inMsgs := s.inMsgs ++ [(partWith s f).msg] } :=
  (joinFrame_of_next h).trans (if_neg (Nat.not_lt_of_le hl))

end

/-! ### A message of a member's Keeper (R377, R378, R380, R461) -/

theorem takeMsg_of_some (s : State) {f : FabFrame} {m : FabMsg} (h : f.msg = some m) : takeMsg s f =
    placeMsg { s with fab := { s.fab with asked := SMap.erase s.fab.asked f.src } } f.src m := by
  simp only [takeMsg, h]
  rfl

/-- Settles O52: every row is `routed`; what it does at its destination is said by `takeData`, `takeMove` and `takeMsg`. -/
theorem routedFramesActAtTheirDestinationAndGoOnElsewhere : Obligations.RoutedFramesActAtTheirDestinationAndGoOnElsewhere := by
  unfold Obligations.RoutedFramesActAtTheirDestinationAndGoOnElsewhere
  intro port f tenant gen phase s p up typed retire rows ask
  refine ⟨?down, ?wrong, ?arrives, ?retires, frameGood_iff f, rfl, fun h => ⟨takeData_of_stale h, takeMove_of_stale h⟩,
    fun h hg => ⟨takeData_of_bad h hg, takeMove_of_bad h hg⟩, ?good, ?join, fun m => takeMsg_of_some s⟩
  case down =>
    intro h r hr
    obtain ⟨on, hexec, -, -⟩ := exec_of_routedRows hr
    exact (hexec s).trans (congrArg _ (routed_of_down h))
  case wrong =>
    intro h hc r hr
    obtain ⟨on, hexec, -, -⟩ := exec_of_routedRows hr
    exact (hexec s).trans (congrArg _ (routed_of_wrong_counter h hc))
  case arrives =>
    intro h r hr u
    obtain ⟨on, hexec, htile, hcontrol⟩ := exec_of_routedRows hr
    rw [hexec s]
    refine ⟨fun hd => congrArg _ (routed_of_here h hd), fun hd => ?elsewhere⟩
    rw [routed_of_elsewhere h hd]
    refine ⟨fun ht => congrArg _ ?_, fun ht => by rw [hcontrol ht]⟩
    rw [htile ht]
    exact forward_eq u (typed r.2.1)
  case retires =>
    intro h hd
    exact ⟨congrArg _ (routed_of_elsewhere h hd), congrArg _ (routed_of_elsewhere h hd)⟩
  case good =>
    intro h hg
    refine ⟨takeData_of_seen h hg, takeData_of_no_queue h hg, fun q hs hq => ?_, fun t => takeMove_of_tile h hg⟩
    rw [takeData_of_queue h hg hs hq]
    exact ⟨fun hp => if_neg hp, fun hp => if_pos hp⟩
  case join =>
    intro got data t
    have hgot : (partSoFar s f).got = got := partSoFar_got s f
    have hdata : (partWith s f).msg.data = data := congrArg (· ++ f.payload.drop 16) (partSoFar_data s f)
    rw [← hgot]
    refine ⟨joinFrame_of_again, joinFrame_of_ahead, fun hix hm => ?more, fun hix hl => ?last⟩
    case more =>
      have ht : t = _ := joinFrame_of_more hix hm
      rw [ht]
      exact ⟨rfl, rfl, partWith s f, List.mem_append_right _ (List.mem_singleton_self _), rfl, hdata⟩
    case last =>
      have ht : t = _ := joinFrame_of_last hix hl
      have hseen : t.fab.seenMsgs = s.fab.seenMsgs ++ [seenAs f] := by rw [ht]; rfl
      refine ⟨⟨(partWith s f).msg, by rw [ht], hdata, fun hn => ?_⟩, hseen, wasSeen_of_mem ?_⟩
      · simp [partWith, partSoFar, hn, emptyPart]
      · rw [hseen]
        exact List.mem_append_right _ (List.mem_singleton_self _)

end Sys2Proof.Machine

/-! The memory manager's rows (R253 to R263, R287, R288): promotion, demotion, deep writes, translation fills, deletion, the page
walker and MEM_CTRL. -/

namespace Sys2Proof.Machine

/-! ### Sorting and changing a listed entry -/

section
variable {α : Type} {le : α → α → Bool}

theorem mem_insertBy {a x : α} : ∀ {l : List α}, x ∈ insertBy le a l ↔ x = a ∨ x ∈ l
  | [] => List.mem_cons
  | b :: r => by
    rw [insertBy]
    split
    · exact List.mem_cons
    · rw [List.mem_cons, mem_insertBy, List.mem_cons, or_left_comm]

theorem mem_sortBy {x : α} : ∀ {l : List α}, x ∈ sortBy le l ↔ x ∈ l
  | [] => Iff.rfl
  | _ :: r => (mem_insertBy (l := sortBy le r)).trans ((or_congr_right mem_sortBy).trans List.mem_cons.symm)

end

section
variable {α : Type} {key : α → Nat}

theorem pairwise_insertBy (a : α) : ∀ {l : List α}, l.Pairwise (fun x y => key x ≤ key y) →
    (insertBy (fun x y => decide (key x ≤ key y)) a l).Pairwise fun x y => key x ≤ key y
  | [], _ => List.pairwise_singleton _ a
  | b :: r, h => by
    obtain ⟨hb, hr⟩ := List.pairwise_cons.1 h
    rw [insertBy]
    split
    next hab =>
      have hab : key a ≤ key b := of_decide_eq_true hab
      exact List.pairwise_cons.2 ⟨List.forall_mem_cons.2 ⟨hab, fun y hy => Nat.le_trans hab (hb y hy)⟩, h⟩
    next hab =>
      have hba : key b ≤ key a := Nat.le_of_not_le fun hle => hab (decide_eq_true hle)
      refine List.pairwise_cons.2 ⟨fun y hy => ?_, pairwise_insertBy a hr⟩
      rcases mem_insertBy.1 hy with rfl | hy
      · exact hba
      · exact hb y hy

theorem pairwise_sortBy : ∀ l : List α,
    (sortBy (fun x y => decide (key x ≤ key y)) l).Pairwise fun x y => key x ≤ key y
  | [] => List.Pairwise.nil
  | a :: r => pairwise_insertBy a (pairwise_sortBy r)

/-- The first of a list sorted by a key has the least key. -/
theorem key_le_of_sortBy_eq_cons {l r : List α} {x : α}
    (h : sortBy (fun a b => decide (key a ≤ key b)) l = x :: r) : ∀ y ∈ r, key x ≤ key y :=
  (List.pairwise_cons.1 (h ▸ pairwise_sortBy l)).1

end

theorem SMap.get?_modify_same {α : Type} {m : SMap α} {k : Nat} {v : α} (f : α → α) (h : SMap.get? m k = some v) :
    SMap.get? (SMap.modify m k f) k = some (f v) := by
  unfold SMap.modify
  rw [h]
  exact SMap.get?_set_same m k (f v)

/-! ### Promotion (R258, R261 to R263) -/

section
variable {p : Fin 9} {s t : State} {x : Promo} {r : List Promo}

theorem promoOrder_head_le (h : promoOrder s p = x :: r) : ∀ y ∈ r, x.deadline ≤ y.deadline :=
  key_le_of_sortBy_eq_cons h

theorem execPromotionDispatch_of_blocked (h : s.mm.promoPause = true ∨ promoLimit ≤ promoCount s p ∨ promoOrder s p = []) :
    execPromotionDispatch p s = .next s := by
  unfold execPromotionDispatch
  rcases h with h | h | h
  · rw [h, Bool.true_or, if_pos rfl]
  · rw [decide_eq_true h, Bool.or_true, if_pos rfl]
  · rw [h, ite_self]

theorem execPromotionDispatch_of_queued (hp : s.mm.promoPause = false) (hc : promoCount s p < promoLimit)
    (ho : promoOrder s p = x :: r) : execPromotionDispatch p s = .next (dispatchPromo s p x) := by
  unfold execPromotionDispatch
  rw [hp, decide_eq_false (Nat.not_le_of_lt hc), ho]
  rfl

theorem dispatchPromo_of_short {n : Nat} (h : framesFree s n < promoNeed s x.item) :
    dispatchPromo s n x = evict s n (promoNeed s x.item) :=
  if_pos h

theorem dispatchPromo_of_room {n : Nat} (h : promoNeed s x.item ≤ framesFree s n) (hf : promoFrames s x.item = some t) :
    dispatchPromo s n x =
      onMem (setItemSt t x.item .promoting) fun m => { m with promoQ := m.promoQ.erase x, promoIn := m.promoIn ++ [x] } := by
  unfold dispatchPromo
  rw [if_neg (Nat.not_lt_of_le h), hf]

end

section
variable {item : Item} {s : State} {x : Promo} {d : DeepCopy}

/-- The reads of blocks of a deep copy that failed twice (R263). -/
def badReads (d : DeepCopy) (reads : List DeepRead) : List DeepRead :=
  reads.filter fun b => b.first.val != 0 && b.second.val != 0 && decide (b.block < d.blocks.length)

theorem execPromotionComplete_of_idle (reads : List DeepRead)
    (h : (s.mm.promoIn.find? fun x => x.item == item) = none ∨ itemDeep s item = none) :
    execPromotionComplete item reads s = .next s := by
  unfold execPromotionComplete
  rcases h with h | h
  · rw [h]
  · rw [h]
    cases s.mm.promoIn.find? fun x => x.item == item <;> rfl

theorem execPromotionComplete_of_in_flight (reads : List DeepRead)
    (hx : (s.mm.promoIn.find? fun x => x.item == item) = some x) (hd : itemDeep s item = some d) :
    execPromotionComplete item reads s = .next (if badReads d reads = [] then
        (reads.filter DeepRead.corrected).foldl (fun s b => relocate s item b.block) (landPromo (countReads s reads) x d)
      else failPromo (countReads s reads) x d (badReads d reads)) := by
  unfold execPromotionComplete
  rw [hx, hd]
  rfl

@[simp] theorem writeMem_mm (s : State) (a : Nat) (bs : List Byte) : (writeMem s a bs).mm = s.mm := rfl

theorem writeObj_mm (s : State) (frames : List Nat) (o : Nat) (b : List Byte) : (writeObj s frames o b).mm = s.mm := by
  unfold writeObj
  exact foldl_keeps State.mm (fun s _ => writeMem_mm s _ _) _ s

/-- The objects after a change of one object in a state that holds the objects of s. -/
theorem get?_modObj_same {u : State} {k : Nat} {o : Obj} (f : Obj → Obj) (hu : u.mm = s.mm)
    (h : SMap.get? s.mm.objs k = some o) : SMap.get? (modObj u k f).mm.objs k = some (f o) :=
  SMap.get?_modify_same f (hu ▸ h)

theorem get?_landPromo_same {q k : Nat} {o : Obj} (d : DeepCopy) (hi : x.item = .obj q k)
    (ho : SMap.get? s.mm.objs (objKey q k) = some o) : SMap.get? (landPromo s x d).mm.objs (objKey q k) =
      some { o with st := .resident, lastRef := s.tick, deadline := none, failed := false } := by
  simp only [landPromo, poolEv, onMem, hi, ho]
  exact get?_modObj_same _ (writeObj_mm ..) ho

end

/-! ### Demotion and deep writes (R258, R259) -/

section
variable {q k : Nat} {s : State} {o : Obj}

theorem itemSt_obj (h : SMap.get? s.mm.objs (objKey q k) = some o) : itemSt s (.obj q k) = some o.st :=
  congrArg (Option.map Obj.st) h

theorem itemDeep_obj (h : SMap.get? s.mm.objs (objKey q k) = some o) : itemDeep s (.obj q k) = o.deep :=
  congrArg (Option.bind · Obj.deep) h

/-- The demotion of an object completes exactly if it is DEMOTING, without pins and with a deep copy. -/
theorem execDemotionComplete_obj (h : SMap.get? s.mm.objs (objKey q k) = some o) :
    execDemotionComplete (.obj q k) s = .next (if o.st = .demoting ∧ o.pinMask = 0 ∧ o.deep.isSome = true then
        poolEv (onMem (modObj s (objKey q k) fun o => { o with st := .deep, frames := [] }) fun m =>
          { m with evictCount := satAdd m.evictCount 1 }) q fun e => { e with evictions := e.evictions + 1 }
      else s) := by
  simp only [execDemotionComplete, itemSt_obj h, itemDeep_obj h, itemPart, h, Option.elim_some, Option.some.injEq]

theorem answers_demotionComplete_of_drained (h : SMap.get? s.mm.objs (objKey q k) = some o) (hs : o.st = .demoting)
    (hp : o.pinMask = 0) (hd : o.deep.isSome = true) : Answers (.demotionComplete (.obj q k)) s fun t =>
      SMap.get? t.mm.objs (objKey q k) = some { o with st := .deep, frames := [] } ∧
      t.mm.evictCount = satAdd s.mm.evictCount 1 ∧ t = { s with mm := t.mm } :=
  answers_of_next ((execDemotionComplete_obj h).trans (congrArg _ (if_pos ⟨hs, hp, hd⟩)))
    ⟨get?_modObj_same _ rfl h, rfl, rfl⟩

theorem execDemotionComplete_of_held (h : SMap.get? s.mm.objs (objKey q k) = some o)
    (hh : o.st ≠ .demoting ∨ o.pinMask ≠ 0 ∨ o.deep = none) : execDemotionComplete (.obj q k) s = .next s := by
  rw [execDemotionComplete_obj h, if_neg]
  rintro ⟨hs, hp, hd⟩
  rcases hh with hn | hn | hn
  · exact hn hs
  · exact hn hp
  · rw [hn] at hd
    cases hd

end

section
variable {item : Item} {s t : State}

/-- The pending deep writes without that of an item. -/
def deepWriteEnded (s : State) (i : Item) : State := onMem s fun m => { m with deepWrites := m.deepWrites.erase i }

theorem execDeepCopyWriteComplete_of_none (h : item ∉ s.mm.deepWrites) : execDeepCopyWriteComplete item s = .next s := by
  simp [execDeepCopyWriteComplete, h]

theorem execDeepCopyWriteComplete_of_written (h : item ∈ s.mm.deepWrites) (hp : itemPoisoned s item = false)
    (hw : writeDeep (deepWriteEnded s item) item = some t) : execDeepCopyWriteComplete item s = .next t := by
  rw [deepWriteEnded] at hw
  simp [execDeepCopyWriteComplete, h, hp, hw]

theorem execDeepCopyWriteComplete_of_unwritten (h : item ∈ s.mm.deepWrites)
    (hw : itemPoisoned s item = true ∨ writeDeep (deepWriteEnded s item) item = none) : execDeepCopyWriteComplete item s =
      .next (if itemSt s item = some .demoting then setItemSt (deepWriteEnded s item) item .resident
        else deepWriteEnded s item) := by
  rw [deepWriteEnded] at hw ⊢
  rcases hw with hw | hw <;> simp [execDeepCopyWriteComplete, h, hw]

end

/-! ### The OTU and deletion (R256, R260) -/

section
variable {core : Fin 32} {n : Fin 65536} {s : State}

theorem execOtuFill_of_not_served
    (h : ∀ q, ((s.mm.otuQ.take 32).find? fun q => q.2 == objKey (corePart s core.val) n.val) = some q → q.1 ≠ core.val) :
    execOtuFill core n s = .next s := by
  unfold execOtuFill
  cases hq : (s.mm.otuQ.take 32).find? fun q => q.2 == objKey (corePart s core.val) n.val with
  | none => simp only [hq]
  | some q => simp only [hq, if_neg (h q hq)]

theorem execOtuFill_of_served {key : Nat} (hk : key = objKey (corePart s core.val) n.val)
    (h : ((s.mm.otuQ.take 32).find? fun q => q.2 == key) = some (core.val, key)) :
    execOtuFill core n s = .next (otuFill s core.val key) := by
  subst hk
  simp only [execOtuFill, h, if_true]

/-- The object is pinned and noted by core n, and heads its cache; its miss is served (R256). -/
def otuPinned (s : State) (n key : Nat) : State :=
  setCore (modObj (onMem s fun m => { m with otuQ := m.otuQ.erase (n, key) }) key fun o =>
    { o with pinMask := if bitOf o.pinMask n then o.pinMask else o.pinMask + 2 ^ n, lastRef := s.tick })
    n (otcTouch (coreOf s n) key)

theorem otuFill_of_listed {c key : Nat} {o : Obj} (h : SMap.get? s.mm.objs key = some o) : otuFill s c key =
    if o.st = .resident then otuPinned s c key else promote (otuPinned s c key) (.obj (key / 65536) (key % 65536)) s.tick := by
  have h1 : SMap.get? (onMem s fun m => { m with otuQ := m.otuQ.erase (c, key) }).mm.objs key = some o := h
  unfold otuFill
  simp only [h1]
  rfl

end

section
variable {p : Fin 9} {n : Fin 65536} {s : State} {o : Obj}

theorem execObjectDelete_of_unlisted (h : SMap.get? s.mm.objs (objKey p.val n.val) = none) :
    execObjectDelete p n s = .next s := by
  unfold execObjectDelete
  rw [h]

theorem execObjectDelete_of_listed (h : SMap.get? s.mm.objs (objKey p.val n.val) = some o) : execObjectDelete p n s = .next
    (if o.dying = true ∧ o.claims = 0 ∧ (o.pinMask = 0 ∨ o.st = .promoting) then deleteObj s p.val n.val else s) := by
  unfold execObjectDelete
  simp only [h, Bool.and_eq_true, Bool.or_eq_true, beq_iff_eq, and_assoc]

theorem execObjectDelete_of_held (h : SMap.get? s.mm.objs (objKey p.val n.val) = some o)
    (hh : o.dying = false ∨ o.claims ≠ 0 ∨ (o.pinMask ≠ 0 ∧ o.st ≠ .promoting)) : execObjectDelete p n s = .next s := by
  rw [execObjectDelete_of_listed h, if_neg]
  rintro ⟨hd, hc, hf⟩
  rcases hh with hn | hn | ⟨hp, hs⟩
  · exact absurd hd (ne_true_of_eq_false hn)
  · exact hn hc
  · exact hf.elim hp hs

end

/-! ### The page walker and MEM_CTRL (R203, R288) -/

theorem execPageWalkerPromote_of_no_session {session : Fin 65536} {s : State} (h : sessionAt s session.val = none) :
    execPageWalkerPromote session s = .next s := by
  simp only [execPageWalkerPromote, h]

/-- The page walker asks for one deep page of its session, or for none. -/
theorem execPageWalkerPromote_cases (session : Fin 65536) (s : State) : execPageWalkerPromote session s = .next s ∨
    ∃ g ∈ pagesOf s session.val, g.2.st = .deep ∧ execPageWalkerPromote session s = .next (nextFree
      (promote (modPage s g.1 fun g => { g with walked := true }) (.page g.1) (s.tick + Config.freeNat s.freeCtr))) := by
  unfold execPageWalkerPromote
  dsimp only
  split
  case h_1 v g r hv ho =>
    split
    case isFalse => exact Or.inl rfl
    case isTrue =>
      have hg := mem_sortBy.1 (ho ▸ List.mem_cons_self)
      obtain ⟨ha, hd⟩ := List.mem_filter.1 hg
      exact Or.inr ⟨g, (List.mem_filter.1 ha).1, eq_of_beq (Bool.and_eq_true_iff.1 hd).1, rfl⟩
  case h_2 => exact Or.inl rfl

/-- R19: Keeper alone writes the MEM block. -/
theorem reaches_memRegs (by_ : Req) : reaches by_ true .memRegs = isKeeper by_ := by
  cases by_ <;> rfl

theorem mayWrite_memRegs_of_keeper {by_ : Req} (s : State) (f : State → State) (h : isKeeper by_ = true) :
    mayWrite s by_ .memRegs f = busOk (f s) :=
  if_pos ((reaches_memRegs by_).trans h)

theorem mayWrite_memRegs_of_other {by_ : Req} (s : State) (f : State → State) (h : isKeeper by_ = false) :
    mayWrite s by_ .memRegs f = busError s :=
  if_neg (ne_true_of_eq_false ((reaches_memRegs by_).trans h))

theorem otcInvalidate_cores (s : State) : otcInvalidate s = { s with cores := s.cores.map fun e =>
    (e.1, if e.2.st = .running ∨ e.2.st = .stopping then { e.2 with otcInval := true } else { e.2 with otc := [] }) } := by
  simp only [otcInvalidate, Bool.or_eq_true, beq_iff_eq]

/-- Settles O36: each row by what it does where it acts and where it does not. -/
theorem objectsAndPagesMoveBetweenTiers : Obligations.ObjectsAndPagesMoveBetweenTiers := by
  unfold Obligations.ObjectsAndPagesMoveBetweenTiers
  intro p n session item reads core by_ v s key ckey running
  refine ⟨execPromotionDispatch_of_blocked, ?dispatch, execPromotionComplete_of_idle reads, ?complete,
    fun x d q k o hi ho => get?_landPromo_same d hi ho, ?demote, execDeepCopyWriteComplete_of_none, ?write,
    execOtuFill_of_not_served, ?fill, execObjectDelete_of_unlisted, ?delete, execPageWalkerPromote_of_no_session, ?walk,
    ?other, ?keeper⟩
  case dispatch =>
    intro x r hp hc ho
    have he := execPromotionDispatch_of_queued hp hc ho
    exact ⟨promoOrder_head_le ho, fun hs => he.trans (congrArg _ (dispatchPromo_of_short hs)),
      fun t hn hf => he.trans (congrArg _ (dispatchPromo_of_room hn hf))⟩
  case complete =>
    intro x d hx hd bad
    have he := execPromotionComplete_of_in_flight reads hx hd
    exact ⟨fun hb => he.trans (congrArg _ (if_pos hb)), fun hb => he.trans (congrArg _ (if_neg hb))⟩
  case demote =>
    rintro q k o rfl ho
    exact ⟨answers_demotionComplete_of_drained ho, execDemotionComplete_of_held ho⟩
  case write =>
    exact fun h => ⟨fun t => execDeepCopyWriteComplete_of_written h, execDeepCopyWriteComplete_of_unwritten h⟩
  case fill =>
    intro o hq ho
    have he : execOtuFill core n s = _ := (execOtuFill_of_served rfl hq).trans (congrArg _ (otuFill_of_listed ho))
    exact ⟨fun hs => he.trans (congrArg _ (if_pos hs)), fun hs => he.trans (congrArg _ (if_neg hs))⟩
  case delete =>
    intro o ho
    exact ⟨execObjectDelete_of_held ho,
      fun hd hc hf => (execObjectDelete_of_listed ho).trans (congrArg _ (if_pos ⟨hd, hc, hf⟩))⟩
  case walk =>
    rcases execPageWalkerPromote_cases session s with he | ⟨g, hg, hd, he⟩
    · exact answers_of_next he (Or.inl rfl)
    · exact answers_of_next he (Or.inr ⟨g, hg, hd, rfl⟩)
  case other =>
    exact fun h => ⟨congrArg _ (mayWrite_memRegs_of_other s _ h), congrArg _ (mayWrite_memRegs_of_other s _ h)⟩
  case keeper =>
    intro h
    refine ⟨congrArg _ ((mayWrite_memRegs_of_keeper s _ h).trans ?_), congrArg _ (mayWrite_memRegs_of_keeper s _ h)⟩
    rw [otcInvalidate_cores]
    rfl

end Sys2Proof.Machine

/-! The session requests (R181, R192, R199, R218, R274, R341, R377): OPEN_SESSION, CLOSE_SESSION, SESSION_SETTINGS and
SUBMIT_INPUT, once accepted. -/

namespace Sys2Proof.Machine

/-! ### An accepted request, and the session that it names -/

theorem onRequest_of_accepted {code : Nat} {rq : Request} {s t : State} {h p : Nat} (ha : Accepted code rq s t h p)
    (run : State → Nat → Nat → State) : onRequest s rq code (permOf code) (argsFit code) run = run t h p := by
  unfold onRequest
  simp only [ha.offered, ha.allowed, ha.args, Bool.not_true, Bool.false_eq_true, if_false]

section
variable {s : State} {p n : Nat} {v : Session}

theorem withSession_of_none (h : Nat) (go : Session → State) (hv : sessionAt s n = none) :
    withSession s h p n go = complete s h 0x001C := by
  simp only [withSession, hv]

theorem withSession_of_other (h : Nat) (go : Session → State) (hv : sessionAt s n = some v) (hp : v.part ≠ p) :
    withSession s h p n go = complete s h 0x0015 := by
  simp only [withSession, hv, if_pos hp]

theorem withSession_of_closing (h : Nat) (go : Session → State) (hv : sessionAt s n = some v) (hp : v.part = p)
    (hc : v.closing.isSome = true) : withSession s h p n go = complete s h 0x001C := by
  simp only [withSession, hv, if_neg (not_not_intro hp), if_pos hc]

theorem withSession_of_mine (h : Nat) (go : Session → State) (hv : sessionAt s n = some v ∧ v.part = p ∧ v.closing = none) :
    withSession s h p n go = go v := by
  obtain ⟨hv, hp, hc⟩ := hv
  simp only [withSession, hv, if_neg (not_not_intro hp), hc, Option.isSome_none, Bool.false_eq_true, if_false]

end

theorem withTiles_of_good {s : State} {ts : List Tile} {origin first : Nat} {fmt : Nat → Bool} (h : Nat) (go : State → State)
    (hg : badTiles ts origin first fmt = []) : withTiles s h ts origin first fmt go = go s := by
  simp only [withTiles, hg]

/-! ### OPEN_SESSION (R181, R341, R377) -/

/-- The session that OPEN_SESSION asks for, at its place (R181, R199). -/
def askedSession (s : State) (p mkey q fmt : Nat) (m : Model) (place : Nat) : Session :=
  { part := p, model := mkey, queue := q, sealFmt := if fmt = 0xFF then m.sealFmt else fmt, place := place, lastRef := s.tick }

/-- OPEN_SESSION of a model that its queue and its format suit: a place, a number and memory are taken, or there are none. -/
def openSuited (s : State) (h p mkey q fmt : Nat) (m : Model) : State :=
  match newPlace s mkey q m, SMap.firstFree s.k.sessions 0 sessionCount with
  | some place, some n => match makeSession s (askedSession s p mkey q fmt m place) m n with
    | some t => openStages t mkey h n (askedSession s p mkey q fmt m place).sealFmt
    | none => complete s h 0x0017
  | _, _ => complete s h 0x0017

section
variable {rq : Request} {s t : State} {h p : Nat} {m : Model}

theorem execOpenSession_of_no_model (ha : Accepted 0x10 rq s t h p) (hm : liveModel t (modelKey p (arg rq.args 0 2)) = none) :
    execOpenSession rq s = .next (complete t h 0x001C) := by
  refine congrArg Host.Outcome.next ((onRequest_of_accepted ha _).trans ?_)
  simp only [hm]

/-- What the checks of the queue and of the format leave, once the stream queue, if one is needed, is the principal's own. -/
theorem execOpenSession_of_model (ha : Accepted 0x10 rq s t h p) (hm : liveModel t (modelKey p (arg rq.args 0 2)) = some m)
    (hq : isStream m = true → ∃ v, queueAt t (arg rq.args 2 2) = some v ∧ v.part = p) : execOpenSession rq s =
      .next (if !queueArgOk t (modelKey p (arg rq.args 0 2)) (arg rq.args 2 2) m
          || (arg rq.args 4 1 == 1 && !bitOf m.flags 0 && m.sealFmt == 0) then complete t h 0x001D
        else openSuited t h p (modelKey p (arg rq.args 0 2)) (arg rq.args 2 2) (arg rq.args 4 1) m) := by
  have hnone : (isStream m && (queueAt t (arg rq.args 2 2)).isNone) = false := by
    cases hs : isStream m with
    | false => rfl
    | true =>
      obtain ⟨v, hv, -⟩ := hq hs
      rw [hv]
      rfl
  have hother : (isStream m && (queueAt t (arg rq.args 2 2)).any fun v => v.part != p) = false := by
    cases hs : isStream m with
    | false => rfl
    | true =>
      obtain ⟨v, hv, hp⟩ := hq hs
      simp [hv, hp]
  refine congrArg Host.Outcome.next ((onRequest_of_accepted ha _).trans ?_)
  simp only [hm, hnone, hother, Bool.false_eq_true, if_false]
  rfl

theorem execOpenSession_of_unfit (ha : Accepted 0x10 rq s t h p) (hm : liveModel t (modelKey p (arg rq.args 0 2)) = some m)
    (hq : isStream m = true → ∃ v, queueAt t (arg rq.args 2 2) = some v ∧ v.part = p)
    (hok : queueArgOk t (modelKey p (arg rq.args 0 2)) (arg rq.args 2 2) m = false) :
    execOpenSession rq s = .next (complete t h 0x001D) := by
  rw [execOpenSession_of_model ha hm hq, hok]
  rfl

theorem execOpenSession_of_suited (ha : Accepted 0x10 rq s t h p) (hm : liveModel t (modelKey p (arg rq.args 0 2)) = some m)
    (hq : isStream m = true → ∃ v, queueAt t (arg rq.args 2 2) = some v ∧ v.part = p)
    (hok : queueArgOk t (modelKey p (arg rq.args 0 2)) (arg rq.args 2 2) m = true)
    (hf : arg rq.args 4 1 = 1 → bitOf m.flags 0 = true ∨ m.sealFmt ≠ 0) : execOpenSession rq s =
      .next (openSuited t h p (modelKey p (arg rq.args 0 2)) (arg rq.args 2 2) (arg rq.args 4 1) m) := by
  rw [execOpenSession_of_model ha hm hq, hok, if_neg]
  simp only [Bool.not_true, Bool.false_or, Bool.and_eq_true, beq_iff_eq, Bool.not_eq_true']
  rintro ⟨⟨h1, h2⟩, h3⟩
  exact (hf h1).elim (ne_true_of_eq_false h2) fun hn => hn h3

end

section
variable {s t : State} {h p mkey q fmt n place : Nat} {m : Model}

theorem openSuited_of_no_place (hn : newPlace s mkey q m = none ∨ SMap.firstFree s.k.sessions 0 sessionCount = none) :
    openSuited s h p mkey q fmt m = complete s h 0x0017 := by
  unfold openSuited
  rcases hn with hn | hn
  · rw [hn]
  · rw [hn]
    cases newPlace s mkey q m <;> rfl

section
variable (hk : newPlace s mkey q m = some place) (hi : SMap.firstFree s.k.sessions 0 sessionCount = some n)
include hk hi

theorem openSuited_of_no_memory (hu : makeSession s (askedSession s p mkey q fmt m place) m n = none) :
    openSuited s h p mkey q fmt m = complete s h 0x0017 := by
  simp only [openSuited, hk, hi, hu]

theorem openSuited_of_made (hu : makeSession s (askedSession s p mkey q fmt m place) m n = some t) :
    openSuited s h p mkey q fmt m = openStages t mkey h n (askedSession s p mkey q fmt m place).sealFmt := by
  simp only [openSuited, hk, hi, hu]

end

theorem openStages_of_no_front (hf : frontOfModel s mkey = none) : openStages s mkey h n fmt = complete s h 0 n := by
  simp only [openStages, hf]

end

/-! ### CLOSE_SESSION and SESSION_SETTINGS (R199, R275) -/

/-- What CLOSE_SESSION does with a session: it is marked with the handle. -/
def closeBy (s : State) (h n : Nat) : State := sweepSessions (modSession s n fun v => { v with closing := some h })

/-- Does the session's model permit the seal format KV4 (R199)? -/
def permitsKv4 (s : State) (v : Session) : Bool := (modelAt s v.model).any fun m => bitOf m.flags 0 || m.sealFmt == 1

/-- The seal format asked for waits for the next empty slot; 0xFF keeps the present one. -/
def sealAsked (s : State) (n fmt : Nat) : State :=
  if fmt = 0xFF then s else applySealFormat (modSession s n fun v => { v with sealNext := some fmt }) n

/-- What SESSION_SETTINGS does with a session (R199, R275). -/
def settled (s : State) (h n : Nat) (a : List Byte) (v : Session) : State :=
  if arg a 4 1 = 1 ∧ !permitsKv4 s v then complete s h 0x001D
  else complete (if bitOf (arg a 5 1) 0 && !sessionBusy (sealAsked s n (arg a 4 1)) v then goCold (sealAsked s n (arg a 4 1)) n
    else sealAsked s n (arg a 4 1)) h 0

theorem settled_of_not_permitted {s : State} {n : Nat} {a : List Byte} {v : Session} (h : Nat) (h1 : arg a 4 1 = 1)
    (hp : permitsKv4 s v = false) : settled s h n a v = complete s h 0x001D :=
  if_pos ⟨h1, by rw [hp]; rfl⟩

theorem settled_of_permitted {s : State} {a : List Byte} {v : Session} (h n : Nat)
    (hp : arg a 4 1 ≠ 1 ∨ permitsKv4 s v = true) : settled s h n a v =
      complete (if bitOf (arg a 5 1) 0 && !sessionBusy (sealAsked s n (arg a 4 1)) v then goCold (sealAsked s n (arg a 4 1)) n
        else sealAsked s n (arg a 4 1)) h 0 := by
  refine if_neg ?_
  rintro ⟨h1, hn⟩
  rcases hp with hp | hp
  · exact hp h1
  · rw [hp] at hn
    cases hn

section
variable {rq : Request} {s t : State} {h p : Nat}

theorem execCloseSession_of_accepted (ha : Accepted 0x11 rq s t h p) : execCloseSession rq s =
    .next (withSession t h p (arg rq.args 0 4) fun _ => closeBy t h (arg rq.args 0 4)) :=
  congrArg Host.Outcome.next (onRequest_of_accepted ha _)

theorem execSessionSettings_of_accepted (ha : Accepted 0x12 rq s t h p) : execSessionSettings rq s =
    .next (withSession t h p (arg rq.args 0 4) (settled t h (arg rq.args 0 4) rq.args)) :=
  congrArg Host.Outcome.next (onRequest_of_accepted ha _)

end

/-! ### SUBMIT_INPUT (R218) -/

/-- The frames that the tiles of a request make, with their reset marks. -/
def inputFrames (a : List Byte) (ts : List Tile) : List RingFrame := ts.mapIdx fun i t => ⟨t, resetMark a i⟩

theorem filterMap_span_eq_mapIdx {α β : Type} (ts : List α) : ∀ f : Nat → α → β,
    (span 0 ts.length).filterMap (fun i => (ts[i]?).map (f i)) = ts.mapIdx f := by
  induction ts with
  | nil => exact fun _ => rfl
  | cons t r ih =>
    intro f
    have hs : span 1 r.length = (span 0 r.length).map (· + 1) := by
      rw [span_eq_range', span_eq_range', List.range'_succ_left]
    rw [List.mapIdx_cons, ← ih fun i => f (i + 1), List.length_cons, span, hs]
    exact congrArg (f 0 t :: ·) List.filterMap_map

theorem map_tile_inputFrames (a : List Byte) (ts : List Tile) : (inputFrames a ts).map RingFrame.tile = ts :=
  List.ext_getElem (by simp [inputFrames]) fun i _ _ => by simp [inputFrames]

theorem reset_inputFrames (a : List Byte) (ts : List Tile) (i : Nat) (hi : i < (inputFrames a ts).length) :
    (inputFrames a ts)[i].reset = resetMark a i := by
  simp [inputFrames]

/-- Tiles that passed their check, for a stream with room in its context or not, and in its ring or not (R192, R218). -/
def feed (s : State) (h n : Nat) (rq : Request) (v : Session) (q : Option Queue) : State :=
  if contextFull s n v rq.tiles.length then complete s h 0x0018
  else if q.any fun q => decide (q.ringCap < v.ring.length + rq.tiles.length) then complete s h 0x001A
  else complete (modSession s n fun v => { v with ring := v.ring ++ inputFrames rq.args rq.tiles, lastRef := s.tick }) h 0
    rq.tiles.length (v.ring.length + rq.tiles.length)

/-- What SUBMIT_INPUT does with a session. -/
def submit (s : State) (h n : Nat) (rq : Request) (v : Session) : State :=
  if (liveModel s v.model).isNone ∨ (queueAt s v.queue).isNone then complete s h 0x001C
  else if arg rq.args 4 4 ≠ rq.tiles.length then complete s h 0x001D
  else withTiles s h rq.tiles 1 0 (fun f => f == 1) fun u => feed u h n rq v (queueAt s v.queue)

section
variable {rq : Request} {s t : State} {h p n : Nat} {v : Session}

theorem execSubmitInput_of_accepted (ha : Accepted 0x14 rq s t h p) : execSubmitInput rq s =
    .next (withSession t h p (arg rq.args 0 4) (submit t h (arg rq.args 0 4) rq)) := by
  refine congrArg Host.Outcome.next ((onRequest_of_accepted ha _).trans ?_)
  have hf : (span 0 rq.tiles.length).filterMap (fun i => (rq.tiles[i]?).map fun t => (⟨t, resetMark rq.args i⟩ : RingFrame)) =
      inputFrames rq.args rq.tiles := filterMap_span_eq_mapIdx _ _
  have hl : (inputFrames rq.args rq.tiles).length = rq.tiles.length := List.length_mapIdx
  simp only [hf, hl]
  rfl

theorem submit_of_missing (hm : liveModel t v.model = none ∨ queueAt t v.queue = none) :
    submit t h n rq v = complete t h 0x001C :=
  if_pos (hm.imp (congrArg Option.isNone) (congrArg Option.isNone))

variable {m : Model} {y : Queue}

theorem submit_of_present (hm : liveModel t v.model = some m) (hy : queueAt t v.queue = some y) : submit t h n rq v =
    if arg rq.args 4 4 ≠ rq.tiles.length then complete t h 0x001D
    else withTiles t h rq.tiles 1 0 (fun f => f == 1) fun u => feed u h n rq v (some y) := by
  simp only [submit, hm, hy, Option.isNone_some, Bool.false_eq_true, or_self, if_false]

theorem feed_of_full (q : Option Queue) (hc : contextFull t n v rq.tiles.length = true) :
    feed t h n rq v q = complete t h 0x0018 :=
  if_pos hc

theorem feed_of_fits (hc : contextFull t n v rq.tiles.length = false) : feed t h n rq v (some y) =
    if y.ringCap < v.ring.length + rq.tiles.length then complete t h 0x001A
    else complete (modSession t n fun v => { v with ring := v.ring ++ inputFrames rq.args rq.tiles, lastRef := t.tick }) h 0
      rq.tiles.length (v.ring.length + rq.tiles.length) := by
  simp only [feed, hc, Bool.false_eq_true, if_false, Option.any_some, decide_eq_true_eq]

end

/-- Settles O28: the request reaches its meaning by `onRequest_of_accepted`, and one that names a session by `withSession`. -/
theorem sessionRequestsOpenFeedAndClose : Obligations.SessionRequestsOpenFeedAndClose := by
  unfold Obligations.SessionRequestsOpenFeedAndClose
  intro rq s t h p a n mine
  refine ⟨fun ha => ⟨execOpenSession_of_no_model ha, ?opens⟩, ?close, ?settings, ?submit, ?foreign⟩
  case opens =>
    intro m hm hq
    refine ⟨execOpenSession_of_unfit ha hm hq, fun hok hf => ?_⟩
    have he := execOpenSession_of_suited ha hm hq hok hf
    refine ⟨fun k i hk hi => ⟨fun hu => ?_, fun u hu => ?_⟩, fun hn => he.trans (congrArg _ (openSuited_of_no_place hn))⟩
    · exact he.trans (congrArg _ (openSuited_of_no_memory hk hi hu))
    · have ho : execOpenSession rq s = _ := he.trans (congrArg _ (openSuited_of_made hk hi hu))
      exact ⟨ho, fun hfr => ho.trans (congrArg _ (openStages_of_no_front hfr))⟩
  case close =>
    exact fun ha v hv => (execCloseSession_of_accepted ha).trans (congrArg _ (withSession_of_mine h _ hv))
  case settings =>
    intro ha v hv
    have he : execSessionSettings rq s = .next (settled t h n rq.args v) :=
      (execSessionSettings_of_accepted ha).trans (congrArg _ (withSession_of_mine h _ hv))
    exact ⟨fun h1 hp => he.trans (congrArg _ (settled_of_not_permitted h h1 hp)),
      fun hp => he.trans (congrArg _ (settled_of_permitted h n hp))⟩
  case submit =>
    intro ha v hv
    have he : execSubmitInput rq s = .next (submit t h n rq v) :=
      (execSubmitInput_of_accepted ha).trans (congrArg _ (withSession_of_mine h _ hv))
    refine ⟨fun hm => he.trans (congrArg _ (submit_of_missing hm)), ?_⟩
    intro m y hm hy k
    have hs : execSubmitInput rq s = _ := he.trans (congrArg _ (submit_of_present hm hy))
    refine ⟨fun hk => hs.trans (congrArg _ (if_pos hk)), fun hk hg => ?_⟩
    have hf : execSubmitInput rq s = .next (feed t h n rq v (some y)) :=
      hs.trans (congrArg _ ((if_neg (not_not_intro hk)).trans (withTiles_of_good h _ hg)))
    refine ⟨fun hc => hf.trans (congrArg _ (feed_of_full _ hc)), fun hc hr => ?_, fun hc hr => ?_⟩
    · exact hf.trans (congrArg _ ((feed_of_fits hc).trans (if_pos hr)))
    · exact ⟨inputFrames rq.args rq.tiles, map_tile_inputFrames _ _, fun i hi => reset_inputFrames _ _ i hi,
        hf.trans (congrArg _ ((feed_of_fits hc).trans (if_neg (Nat.not_lt_of_le hr))))⟩
  case foreign =>
    intro c hc ha
    have hw : ∃ go, c.2 = .next (withSession t h p n go) := by
      simp only [List.mem_cons, List.not_mem_nil, or_false] at hc
      rcases hc with rfl | rfl | rfl
      · exact ⟨_, execCloseSession_of_accepted ha⟩
      · exact ⟨_, execSessionSettings_of_accepted ha⟩
      · exact ⟨_, execSubmitInput_of_accepted ha⟩
    obtain ⟨go, hgo⟩ := hw
    rw [hgo]
    exact ⟨fun hv => congrArg _ (withSession_of_none h go hv), fun v hv hp => congrArg _ (withSession_of_other h go hv hp),
      fun v hv hp hcl => congrArg _ (withSession_of_closing h go hv hp hcl)⟩

end Sys2Proof.Machine

/-! The queue requests (R217, R295, R296, R303, R304, R308, R314, R326, R342, R349): QUEUE_CREATE, QUEUE_DESTROY, QUEUE_SETTINGS
and SCHEDULE_SET, once accepted. -/

namespace Sys2Proof.Machine

/-! ### The queue that a request names (R349) -/

section
variable {s : State} {p q : Nat} {v : Queue}

theorem withQueue_of_none (h : Nat) (go : Queue → State) (hv : queueAt s q = none) :
    withQueue s h p q go = complete s h 0x001C := by
  simp only [withQueue, hv]

theorem withQueue_of_other (h : Nat) (go : Queue → State) (hv : queueAt s q = some v) (hp : v.part ≠ p) :
    withQueue s h p q go = complete s h 0x0015 := by
  simp only [withQueue, hv, if_pos hp]

theorem withQueue_of_destroyed (h : Nat) (go : Queue → State) (hv : queueAt s q = some v) (hp : v.part = p)
    (hd : v.destroy.isSome = true) : withQueue s h p q go = complete s h 0x001C := by
  simp only [withQueue, hv, if_neg (not_not_intro hp), if_pos hd]

theorem withQueue_of_mine (h : Nat) (go : Queue → State) (hv : queueAt s q = some v) (hp : v.part = p)
    (hd : v.destroy = none) : withQueue s h p q go = go v := by
  simp only [withQueue, hv, if_neg (not_not_intro hp), hd, Option.isSome_none, Bool.false_eq_true, if_false]

end

/-! ### QUEUE_CREATE (R217, R295, R314, R342) -/

/-- The number taken is in range and free, and every number of the range below it is taken. -/
theorem SMap.firstFree_eq_some {α : Type} {m : SMap α} {k : Nat} : ∀ {n lo : Nat}, SMap.firstFree m lo n = some k →
    lo ≤ k ∧ k < lo + n ∧ SMap.get? m k = none ∧ ∀ j, lo ≤ j → j < k → (SMap.get? m j).isSome = true
  | 0, _, h => nomatch h
  | n + 1, lo, h => by
    unfold SMap.firstFree at h
    split at h
    next hlo =>
      obtain rfl := Option.some.inj h
      exact ⟨Nat.le_refl _, by omega, hlo, by omega⟩
    next x hlo =>
      obtain ⟨hle, hlt, hfree, hbelow⟩ := SMap.firstFree_eq_some h
      refine ⟨by omega, by omega, hfree, fun j hj hjk => ?_⟩
      rcases Nat.eq_or_lt_of_le hj with rfl | hj
      · rw [hlo]
        rfl
      · exact hbelow j hj hjk

@[simp] theorem syncQueue_k (s : State) (q : Nat) : (syncQueue s q).k = s.k := by
  unfold syncQueue
  split <;> exact (rset_k _ _ _).trans (rset_k _ _ _)

/-- A queue that could be created has the lowest free number of a host queue and stands in the table with its frames. -/
theorem createQueue_eq_some {s u : State} {v : Queue} {rs : List Route} {n : Nat} (hu : createQueue s v rs = some (u, n)) :
    SMap.firstFree s.k.queues firstHostQueue (queueCount - firstHostQueue) = some n ∧
    ∃ fs, SMap.get? u.k.queues n = some { v with frames := fs } := by
  unfold createQueue at hu
  split at hu
  next q s1 ring hq _ =>
    split at hu
    next => cases hu
    next s2 fs _ =>
      cases hu
      refine ⟨hq, ring ++ fs, ?_⟩
      rw [syncQueue_k]
      exact SMap.get?_set_same _ _ _
  next => cases hu

/-- What QUEUE_CREATE does once accepted. -/
def createBy (s : State) (h p : Nat) (a : List Byte) : State :=
  match liveModel s (modelKey p (arg a 0 2)) with
  | none => complete s h 0x001C
  | some x =>
    if !streamOk (queueFrom p (modelKey p (arg a 0 2)) a) x.kind then complete s h 0x001D
    else match createQueue s (queueFrom p (modelKey p (arg a 0 2)) a) (routesOf a) with
    | none => complete (nextFree s) h 0x0017
    | some (t, q) => complete t h 0 q

section
variable {s u : State} {h p n : Nat} {a : List Byte} {x : Model}

theorem createBy_of_no_model (hm : liveModel s (modelKey p (arg a 0 2)) = none) : createBy s h p a = complete s h 0x001C := by
  simp only [createBy, hm]

section
variable (hm : liveModel s (modelKey p (arg a 0 2)) = some x)
include hm

theorem createBy_of_bad_stream (hs : streamOk (queueFrom p (modelKey p (arg a 0 2)) a) x.kind = false) :
    createBy s h p a = complete s h 0x001D := by
  simp only [createBy, hm, hs, Bool.not_false, if_true]

variable (hs : streamOk (queueFrom p (modelKey p (arg a 0 2)) a) x.kind = true)
include hs

theorem createBy_of_no_room (hu : createQueue s (queueFrom p (modelKey p (arg a 0 2)) a) (routesOf a) = none) :
    createBy s h p a = complete (nextFree s) h 0x0017 := by
  simp only [createBy, hm, hs, Bool.not_true, Bool.false_eq_true, if_false, hu]

theorem createBy_of_created (hu : createQueue s (queueFrom p (modelKey p (arg a 0 2)) a) (routesOf a) = some (u, n)) :
    createBy s h p a = complete u h 0 n := by
  simp only [createBy, hm, hs, Bool.not_true, Bool.false_eq_true, if_false, hu]

end

end

/-! ### QUEUE_DESTROY (R296, R342) -/

/-- What QUEUE_DESTROY does with a queue: it is marked with the handle, and is gone at once where no job is left. -/
def destroyBy (s : State) (h q : Nat) : State :=
  let u := sweepQueues (modQueue s q fun v => { v with destroy := some h })
  if (queueAt u q).isSome then u else syncQueue u q

/-! ### QUEUE_SETTINGS (R295, R303) -/

/-- The settings that the arguments of QUEUE_SETTINGS bring. -/
def askedSettings (h : Nat) (a : List Byte) : QSet :=
  { handle := h, mask := arg a 2 1, cls := arg a 3 1, prio := arg a 4 1, depth := arg a 5 1, thresh := arg a 6 2 }

/-- The queue's pending settings with those asked for behind them. -/
def settingsPend (s : State) (h q : Nat) (a : List Byte) : State :=
  modQueue s q fun v => { v with pend := v.pend ++ [askedSettings h a] }

/-- What QUEUE_SETTINGS does with a queue; the class of a system queue stays (R294). -/
def setBy (s : State) (h p q : Nat) (a : List Byte) : State :=
  if q < firstHostQueue ∧ bitOf (arg a 2 1) 0 = true then complete s h 0x001D
  else if (rotOf s p).period = 0 then reschedule (applySettings (settingsPend s h q a) q) p
  else settingsPend s h q a

/-! ### SCHEDULE_SET (R303, R304, R308) -/

/-- The sectors that the arguments of SCHEDULE_SET bring, in the entries from f on. -/
def askedSectors (f : Nat) (a : List Byte) : SMap Sector :=
  (span 0 (arg a 4 1)).map fun i => (f + i, sectorOfBytes (part a (16 + 16 * i) 16))

/-- A good table's sectors go to the shadow, and the table is armed with the request waiting for its answer. -/
def armAsked (s : State) (h p f : Nat) (a : List Byte) : State :=
  reschedule (armTable (setRot
    (onSched s fun x => { x with shSectors := (askedSectors f a).foldl (fun m e => SMap.put m e.1 e.2 {}) x.shSectors })
    p { rotOf s p with shPeriod := arg a 0 4, shCount := arg a 4 1, shFirst := f,
                       waiting := (rotOf s p).waiting ++ [(h, f)] }) p) p

/-- What SCHEDULE_SET does once accepted. -/
def scheduleBy (s : State) (h p : Nat) (a : List Byte) : State :=
  match freeRange s p (arg a 4 1) with
  | none => complete s h 0x001B
  | some f =>
    if !tableOk s p (arg a 0 4) (arg a 4 1) f (askedSectors f a) || !jobsFit s p (arg a 0 4) (askedSectors f a) then
      complete s h 0x001B
    else armAsked s h p f a

/-- A range of sector entries that a table may take lies within the 512. -/
theorem freeRange_le {s : State} {p n f : Nat} (hf : freeRange s p n = some f) : f + n ≤ 512 := by
  have hp := List.find?_some hf
  rw [Bool.and_eq_true, decide_eq_true_eq] at hp
  exact hp.1

section
variable {s : State} {h p f : Nat} {a : List Byte}

theorem scheduleBy_of_no_range (hf : freeRange s p (arg a 4 1) = none) : scheduleBy s h p a = complete s h 0x001B := by
  simp only [scheduleBy, hf]

section
variable (hf : freeRange s p (arg a 4 1) = some f)
include hf

theorem scheduleBy_of_bad_table (hb : tableOk s p (arg a 0 4) (arg a 4 1) f (askedSectors f a) = false ∨
    jobsFit s p (arg a 0 4) (askedSectors f a) = false) : scheduleBy s h p a = complete s h 0x001B := by
  simp only [scheduleBy, hf]
  exact if_pos (by rcases hb with hb | hb <;> simp [hb])

theorem scheduleBy_of_good_table (ht : tableOk s p (arg a 0 4) (arg a 4 1) f (askedSectors f a) = true)
    (hj : jobsFit s p (arg a 0 4) (askedSectors f a) = true) : scheduleBy s h p a = armAsked s h p f a := by
  simp only [scheduleBy, hf, ht, hj, Bool.not_true, Bool.or_self, Bool.false_eq_true, if_false]

end

end

/-! ### The accepted requests -/

section
variable {rq : Request} {s t : State} {h p : Nat}

theorem execQueueCreate_of_accepted (ha : Accepted 0x03 rq s t h p) :
    execQueueCreate rq s = .next (createBy t h p rq.args) :=
  congrArg Host.Outcome.next (onRequest_of_accepted ha _)

theorem execQueueDestroy_of_accepted (ha : Accepted 0x04 rq s t h p) : execQueueDestroy rq s =
    .next (if arg rq.args 0 2 < firstHostQueue then complete t h (if p = 0 then 0x001D else 0x0015)
      else withQueue t h p (arg rq.args 0 2) fun _ => destroyBy t h (arg rq.args 0 2)) :=
  congrArg Host.Outcome.next (onRequest_of_accepted ha _)

theorem execQueueDestroy_of_host_queue (ha : Accepted 0x04 rq s t h p) (hq : 16 ≤ arg rq.args 0 2) : execQueueDestroy rq s =
    .next (withQueue t h p (arg rq.args 0 2) fun _ => destroyBy t h (arg rq.args 0 2)) :=
  (execQueueDestroy_of_accepted ha).trans (congrArg _ (if_neg (Nat.not_lt_of_le hq)))

theorem execQueueSettings_of_accepted (ha : Accepted 0x05 rq s t h p) : execQueueSettings rq s =
    .next (withQueue t h p (arg rq.args 0 2) fun _ => setBy t h p (arg rq.args 0 2) rq.args) :=
  congrArg Host.Outcome.next (onRequest_of_accepted ha _)

theorem execScheduleSet_of_accepted (ha : Accepted 0x06 rq s t h p) :
    execScheduleSet rq s = .next (scheduleBy t h p rq.args) :=
  congrArg Host.Outcome.next (onRequest_of_accepted ha _)

end

/-- Settles O25: each request reaches its meaning by `onRequest_of_accepted`; the number that QUEUE_CREATE takes is the lowest
free one by `createQueue_eq_some` and `SMap.firstFree_eq_some`, and a queue that is named is found by `withQueue`. -/
theorem queueRequestsCreateDestroyAndSetQueues : Obligations.QueueRequestsCreateDestroyAndSetQueues := by
  unfold Obligations.QueueRequestsCreateDestroyAndSetQueues
  intro rq s t h p a q
  refine ⟨?create, ?destroy, ?settings, ?schedule⟩
  case create =>
    intro ha m v
    have he : execQueueCreate rq s = .next (createBy t h p a) := execQueueCreate_of_accepted ha
    refine ⟨fun hm => he.trans (congrArg _ (createBy_of_no_model hm)), fun x hm => ⟨fun hs => ?_, fun hs hu => ?_,
      fun u n hs hu => ⟨he.trans (congrArg _ (createBy_of_created hm hs hu)), ?_⟩⟩⟩
    · exact he.trans (congrArg _ (createBy_of_bad_stream hm hs))
    · exact he.trans (congrArg _ (createBy_of_no_room hm hs hu))
    · obtain ⟨hn, hv⟩ := createQueue_eq_some hu
      obtain ⟨hle, hlt, hfree, hbelow⟩ := SMap.firstFree_eq_some hn
      exact ⟨hle, hlt, hfree, hbelow, hv⟩
  case destroy =>
    intro ha
    have hw (hq : 16 ≤ q) : execQueueDestroy rq s = .next (withQueue t h p q fun _ => destroyBy t h q) :=
      execQueueDestroy_of_host_queue ha hq
    refine ⟨fun hq => (execQueueDestroy_of_accepted ha).trans (congrArg _ (if_pos hq)),
      fun hq hv => (hw hq).trans (congrArg _ (withQueue_of_none h _ hv)), fun v hq hv => ⟨fun hp => ?_, fun hp hd => ?_,
      fun hp hd => ?_⟩⟩
    · exact (hw hq).trans (congrArg _ (withQueue_of_other h _ hv hp))
    · exact (hw hq).trans (congrArg _ (withQueue_of_destroyed h _ hv hp hd))
    · exact (hw hq).trans (congrArg _ (withQueue_of_mine h _ hv hp hd))
  case settings =>
    intro ha v hv hp hd x u own
    have he : execQueueSettings rq s = .next (setBy t h p q a) :=
      (execQueueSettings_of_accepted ha).trans (congrArg _ (withQueue_of_mine h _ hv hp hd))
    exact ⟨fun ho => he.trans (congrArg _ (if_pos ho)),
      fun ho hr => he.trans (congrArg _ ((if_neg ho).trans (if_neg hr))),
      fun ho hr => he.trans (congrArg _ ((if_neg ho).trans (if_pos hr)))⟩
  case schedule =>
    intro ha period n
    have he : execScheduleSet rq s = .next (scheduleBy t h p a) := execScheduleSet_of_accepted ha
    refine ⟨fun hf => he.trans (congrArg _ (scheduleBy_of_no_range hf)), fun f hf => ⟨freeRange_le hf, fun hb => ?_,
      fun ht hj => ?_⟩⟩
    · exact he.trans (congrArg _ (scheduleBy_of_bad_table hf hb))
    · exact he.trans (congrArg _ (scheduleBy_of_good_table hf ht hj))

end Sys2Proof.Machine

/-! The PCIe root port (R281, R282, R292, R293): configuration accesses, link control and the endpoint's requests. -/

namespace Sys2Proof.Machine

/-! ### The registers of the port (R19, R292) -/

/-- R19: Keeper alone reaches the PCIE block. -/
theorem reaches_pcieRegs (by_ : Req) (wr : Bool) : reaches by_ wr .pcieRegs = isKeeper by_ := by
  cases by_ <;> rfl

section
variable {by_ : Req} {s : State}

theorem mayWrite_pcieRegs_of_keeper (f : State → State) (h : isKeeper by_ = true) :
    mayWrite s by_ .pcieRegs f = busOk (f s) :=
  if_pos ((reaches_pcieRegs by_ true).trans h)

theorem mayWrite_pcieRegs_of_other (f : State → State) (h : isKeeper by_ = false) :
    mayWrite s by_ .pcieRegs f = busError s :=
  if_neg (ne_true_of_eq_false ((reaches_pcieRegs by_ true).trans h))

theorem execPcieCfgRead_of_other (h : isKeeper by_ = false) : execPcieCfgRead by_ s = .next (busError s) :=
  congrArg _ (if_neg (ne_true_of_eq_false ((reaches_pcieRegs by_ false).trans h)))

theorem execPcieCfgRead_of_keeper (h : isKeeper by_ = true) : execPcieCfgRead by_ s = .next
    (if cfgTarget s.pcie.cfgAddr then busData (nextFree s) (Config.freeWord s.freeCtr) else busData s 0xFFFFFFFF) :=
  congrArg _ (if_pos ((reaches_pcieRegs by_ false).trans h))

end

/-! ### The endpoint's requests (R293) -/

section
variable (addr : BitVec 64) (len : Fin 4097) (s : State)

theorem execPcieInboundRequest_write (data : List Byte) : execPcieInboundRequest addr len (some data) s = .next
    (if s.pcie.inBase ≤ addr.toNat ∧ addr.toNat + data.length ≤ s.pcie.inBase + s.pcie.inLimit + 1 then
      writeMem s addr.toNat data
    else onPcie s fun p => { p with inReject := satAdd p.inReject 1 }) := rfl

theorem execPcieInboundRequest_read : execPcieInboundRequest addr len none s = .next
    (if s.pcie.inBase ≤ addr.toNat ∧ addr.toNat + len.val ≤ s.pcie.inBase + s.pcie.inLimit + 1 then s
    else onPcie s fun p => { p with inReject := satAdd p.inReject 1 }) := rfl

end

/-! ### The link -/

theorem execPcieLinkChange_of_off {s : State} (up : Bool) (speed : Fin 4) (width : Fin 3)
    (h : s.pcie.en = false ∨ s.pcie.perst = true) : execPcieLinkChange up speed width s = .next s :=
  congrArg _ (if_pos (by simpa using h))

theorem execPcieLinkChange_of_on {s : State} (up : Bool) (speed : Fin 4) (width : Fin 3) (he : s.pcie.en = true)
    (hp : s.pcie.perst = false) : execPcieLinkChange up speed width s = .next (if up then
      nextFree (onPcie s fun p => { p with linkUp := true, speed := speed.val + 1, width := 2 ^ width.val,
                                           ltssm := Config.freeNat s.freeCtr % 64 })
    else linkDown s) :=
  congrArg _ (if_neg (by simp [he, hp]))

/-- Settles O37: `reaches_pcieRegs` decides who may use the registers; the other rows go by the staging area, and by whether the
port is enabled and out of reset. -/
theorem pcieRootPortReadsWritesAndCounts : Obligations.PcieRootPortReadsWritesAndCounts := by
  unfold Obligations.PcieRootPortReadsWritesAndCounts
  intro by_ v b k addr len data speed width s x free ok set fresh down
  refine ⟨?other, ?keeper, rfl, fun hl hu => ?inWrite, fun hl hu => ?inRead, fun ho => ?outside,
    execPcieLinkChange_of_off b speed width, fun he hp => ?link, fun i hw hi => ?frame, fun j hj hw => ?stored⟩
  case other =>
    intro h
    have hm (f : State → State) : mayWrite s by_ .pcieRegs f = busError s := mayWrite_pcieRegs_of_other f h
    simp only [List.forall_mem_cons, List.not_mem_nil, false_imp_iff, implies_true, and_true]
    exact ⟨execPcieCfgRead_of_other h, congrArg _ (hm _), congrArg _ (hm _), congrArg _ (hm _), congrArg _ (hm _)⟩
  case keeper =>
    intro h
    have hm (f : State → State) : mayWrite s by_ .pcieRegs f = busOk (f s) := mayWrite_pcieRegs_of_keeper f h
    refine ⟨fun hc => ⟨?_, ?_⟩, fun hc => ⟨?_, ?_⟩, fun hl => ?_, fun hl => ?_, congrArg _ (hm _), congrArg _ (hm _),
      congrArg _ (hm _), congrArg _ (hm _)⟩
    · exact (execPcieCfgRead_of_keeper h).trans (congrArg _ (if_pos hc))
    · exact congrArg _ ((hm _).trans (congrArg busOk (if_pos hc)))
    · exact (execPcieCfgRead_of_keeper h).trans (congrArg _ (if_neg (ne_true_of_eq_false hc)))
    · exact congrArg _ ((hm _).trans (congrArg busOk (if_neg (ne_true_of_eq_false hc))))
    · exact congrArg _ ((hm _).trans (congrArg busOk (if_pos hl)))
    · exact congrArg _ ((hm _).trans (congrArg busOk (if_neg (ne_true_of_eq_false hl))))
  case inWrite => exact (execPcieInboundRequest_write addr len s data).trans (congrArg _ (if_pos ⟨hl, hu⟩))
  case inRead => exact (execPcieInboundRequest_read addr len s).trans (congrArg _ (if_pos ⟨hl, hu⟩))
  case outside =>
    refine (execPcieInboundRequest_write addr len s data).trans (congrArg _ (if_neg ?_))
    rintro ⟨hl, hu⟩
    exact ho.elim (Nat.not_lt_of_le hl) (Nat.not_lt_of_le hu)
  case link => exact ⟨execPcieLinkChange_of_on true speed width he hp, execPcieLinkChange_of_on false speed width he hp⟩
  case frame =>
    refine Memory.read_writeBytes_other hw addr.toNat data ?_
    have hin : ¬ (addr.toNat ≤ i ∧ i < addr.toNat + data.length) := fun ⟨hl, hu⟩ =>
      hi (i - addr.toNat) (by omega) (by omega)
    omega
  case stored => exact (Memory.read_writeBytes_same hw addr.toNat data j hj).trans (List.getElem_eq_getD 0).symm

end Sys2Proof.Machine

/-! The store's requests (R283, R342, R344): STORE_DELETE, STORE_LIST and STORE_FORMAT, once accepted. -/

namespace Sys2Proof.Machine

/-! ### The directory (R283) -/

@[simp] theorem length_dirBytes (e : DirEntry) : (dirBytes e).length = 64 := by
  simp [dirBytes]

theorem length_flatMap_dirBytes : ∀ l : List DirEntry, (l.flatMap dirBytes).length = 64 * l.length
  | [] => rfl
  | e :: r => by
    rw [List.flatMap_cons, List.length_append, length_dirBytes, length_flatMap_dirBytes r, List.length_cons]
    omega

/-- The valid images of the directory. -/
def storedImages (s : State) : List DirEntry := (s.pcie.store.dir.map Prod.snd).filter fun e => !e.tokenLog && e.valid

/-- The valid images from a number on, their numbers rising. -/
def imagesFrom (s : State) (n : Nat) : List DirEntry :=
  sortBy (fun a b => decide (a.number ≤ b.number)) ((storedImages s).filter fun e => decide (n ≤ e.number))

theorem valid_of_mem_storedImages {s : State} {e : DirEntry} (h : e ∈ storedImages s) : e.valid = true :=
  (Bool.and_eq_true_iff.1 (List.mem_filter.1 h).2).2

theorem of_mem_imagesFrom {s : State} {n : Nat} {e : DirEntry} (h : e ∈ imagesFrom s n) : n ≤ e.number ∧ e.valid = true := by
  obtain ⟨hs, hn⟩ := List.mem_filter.1 (mem_sortBy.1 h)
  exact ⟨of_decide_eq_true hn, valid_of_mem_storedImages hs⟩

theorem pairwise_imagesFrom (s : State) (n : Nat) : (imagesFrom s n).Pairwise fun a b => a.number ≤ b.number :=
  pairwise_sortBy (key := DirEntry.number) _

/-! ### Freeing an entry (R344) -/

/-- The entry is marked with the handle of the STORE_DELETE that waits for it. -/
def markDeleted (s : State) (k h : Nat) : State :=
  onDisk s fun d => { d with dir := SMap.modify d.dir k fun e => { e with deleter := some h } }

theorem entryRead_eq_false {s : State} {k : Nat} (h : ∀ c ∈ s.pcie.store.cmds, c.entry = k → c.write = true) :
    entryRead s k = false := by
  simpa [entryRead] using h

theorem retireEntry_of_unread {s : State} {k h : Nat} {e : DirEntry} (hr : entryRead s k = false)
    (he : SMap.get? s.pcie.store.dir k = some e) (hd : e.deleter = some h) : retireEntry s k = complete (freeEntry s k) h 0 := by
  simp only [retireEntry, hr, he, hd, Bool.false_eq_true, if_false]

/-- A deletion that no LOAD_MODEL holds up frees the entry and completes. -/
theorem retireEntry_markDeleted {s : State} {k : Nat} {e : DirEntry} (h : Nat)
    (hr : ∀ c ∈ s.pcie.store.cmds, c.entry = k → c.write = true) (he : SMap.get? s.pcie.store.dir k = some e) :
    retireEntry (markDeleted s k h) k = complete (freeEntry (markDeleted s k h) k) h 0 :=
  retireEntry_of_unread (entryRead_eq_false hr) (SMap.get?_modify_same _ he) rfl

/-! ### The accepted requests -/

/-- What STORE_DELETE does once accepted. -/
def deleteBy (s : State) (h : Nat) (a : List Byte) : State :=
  if !storeHere s then complete s h 0x0017
  else match imageEntry s (arg a 0 4) with
  | none => complete s h 0x001C
  | some (k, _) => retireEntry (markDeleted s k h) k

/-- What STORE_LIST does once accepted. -/
def listBy (s : State) (h : Nat) (a : List Byte) : State :=
  if !storeHere s then complete s h 0x0017
  else complete (keepOuts s h (reportTiles 4096 (((imagesFrom s (arg a 0 4)).take (arg a 4 4)).flatMap dirBytes))) h 0
    ((imagesFrom s (arg a 0 4)).take (arg a 4 4)).length (storedImages s).length

/-- What STORE_FORMAT does once accepted. -/
def formatBy (s : State) (h : Nat) : State :=
  if !driveHere s || storeBusy s then complete s h 0x0017
  else complete (onDisk s fun d => { d with formatted := true, serial := s.board.serial, dir := [], bytes := [] }) h 0
    s.pcie.store.blocks

section
variable {rq : Request} {s t : State} {h p : Nat}

theorem execStoreDelete_of_accepted (ha : Accepted 0x09 rq s t h p) : execStoreDelete rq s = .next (deleteBy t h rq.args) :=
  congrArg Host.Outcome.next (onRequest_of_accepted ha _)

theorem execStoreList_of_accepted (ha : Accepted 0x0A rq s t h p) : execStoreList rq s = .next (listBy t h rq.args) :=
  congrArg Host.Outcome.next (onRequest_of_accepted ha _)

theorem execStoreFormat_of_accepted (ha : Accepted 0x0B rq s t h p) : execStoreFormat rq s = .next (formatBy t h) :=
  congrArg Host.Outcome.next (onRequest_of_accepted ha _)

end

section
variable {s : State} {h : Nat} {a : List Byte}

theorem deleteBy_of_no_store (hs : storeHere s = false) : deleteBy s h a = complete s h 0x0017 := by
  simp only [deleteBy, hs, Bool.not_false, if_true]

theorem deleteBy_of_unknown (hs : storeHere s = true) (hi : imageEntry s (arg a 0 4) = none) :
    deleteBy s h a = complete s h 0x001C := by
  simp only [deleteBy, hs, hi, Bool.not_true, Bool.false_eq_true, if_false]

theorem deleteBy_of_image {k : Nat} {e : DirEntry} (hs : storeHere s = true) (hi : imageEntry s (arg a 0 4) = some (k, e)) :
    deleteBy s h a = retireEntry (markDeleted s k h) k := by
  simp only [deleteBy, hs, hi, Bool.not_true, Bool.false_eq_true, if_false]

theorem formatBy_of_unfit (hu : driveHere s = false ∨ storeBusy s = true) : formatBy s h = complete s h 0x0017 :=
  if_pos (by simpa using hu)

theorem formatBy_of_fit (hd : driveHere s = true) (hb : storeBusy s = false) : formatBy s h =
    complete (onDisk s fun d => { d with formatted := true, serial := s.board.serial, dir := [], bytes := [] }) h 0
      s.pcie.store.blocks :=
  if_neg (by simp [hd, hb])

end

/-- Settles O27: each request reaches its meaning by `onRequest_of_accepted`; a deletion goes by `retireEntry`, and the list is
the first part of `imagesFrom`. -/
theorem storeRequestsDeleteListAndFormat : Obligations.StoreRequestsDeleteListAndFormat := by
  unfold Obligations.StoreRequestsDeleteListAndFormat
  intro rq s t h p a
  refine ⟨?delete, ?list, ?format⟩
  case delete =>
    intro ha
    have he : execStoreDelete rq s = .next (deleteBy t h a) := execStoreDelete_of_accepted ha
    refine ⟨fun hs => he.trans (congrArg _ (deleteBy_of_no_store hs)),
      fun hs hi => he.trans (congrArg _ (deleteBy_of_unknown hs hi)), ?_⟩
    intro k e hs hi u
    have hd : execStoreDelete rq s = .next (retireEntry u k) := he.trans (congrArg _ (deleteBy_of_image hs hi))
    exact ⟨hd, fun hr hk => hd.trans (congrArg _ (retireEntry_markDeleted h hr hk))⟩
  case list =>
    intro ha
    have he : execStoreList rq s = .next (listBy t h a) := execStoreList_of_accepted ha
    refine ⟨fun hs => he.trans (congrArg _ (if_pos (by rw [hs]; rfl))), ?_⟩
    intro hs images asked sent
    have hsent : sent.Sublist asked := List.take_sublist _ _
    refine ⟨he.trans (congrArg _ (if_neg (by rw [hs]; decide))), hsent, (pairwise_imagesFrom t _).sublist hsent,
      fun e hmem => of_mem_imagesFrom (hsent.subset hmem), ?_⟩
    exact length_flatMap_dirBytes sent
  case format =>
    intro ha
    have he : execStoreFormat rq s = .next (formatBy t h) := execStoreFormat_of_accepted ha
    exact ⟨fun hu => he.trans (congrArg _ (formatBy_of_unfit hu)),
      fun hd hb => he.trans (congrArg _ (formatBy_of_fit hd hb))⟩

end Sys2Proof.Machine

/-! The image requests (R260, R265, R280, R282, R284, R342 to R345): LOAD_MODEL, LOAD_DATA, STORE_IMAGE and UNLOAD_MODEL, once
accepted, and the events that end an opening request. -/

namespace Sys2Proof.Machine

/-! ### Opening a load or a store (R343) -/

/-- What LOAD_MODEL does once accepted. -/
def loadBy (s : State) (h p : Nat) (a head : List Byte) (ts : List Tile) : State :=
  if arg a 0 4 = 0xFFFFFFFF then
    openTiles s { handle := h, store := false, part := p, args := a, head := head, n := arg a 24 4, model := freeModel s p } ts
  else openStored s h p a

/-- What STORE_IMAGE does once accepted. -/
def storeBy (s : State) (h : Nat) (a head : List Byte) (ts : List Tile) : State :=
  if !storeHere s then complete s h 0x0017
  else openTiles s { handle := h, store := true, part := 0, args := a, head := head, n := arg a 4 4 } ts

theorem openStored_of_no_image {s : State} {h p : Nat} {a : List Byte}
    (hn : storeHere s = false ∨ imageEntry s (arg a 0 4) = none) : openStored s h p a = complete s h 0x001C := by
  have hi : (if storeHere s then imageEntry s (arg a 0 4) else none) = none := by
    rcases hn with hs | hi
    · exact if_neg (ne_true_of_eq_false hs)
    · rw [hi, ite_self]
  simp only [openStored, hi]

/-! ### LOAD_DATA (R343) -/

/-- What LOAD_DATA leaves of an open load or store whose tiles are good. -/
def tilesArrived (s : State) (h first : Nat) (ts : List Tile) (o : Opening) : State :=
  let u := storeTiles s o.handle first ts
  let left := (openingOf u o.handle).elim 0 missing
  afterTiles (complete u h 0 (missing o - left) left) o.handle (SMap.get? o.tiles 0).isSome

/-- What LOAD_DATA does with an open load or store. -/
def dataFor (s : State) (h first : Nat) (ts : List Tile) (o : Opening) : State :=
  if o.n < first + ts.length then complete s h 0x001D
  else withTiles s h ts 2 first isImageTile fun s => tilesArrived s h first ts o

/-- What LOAD_DATA does once accepted. -/
def dataBy (s : State) (h p : Nat) (a : List Byte) (ts : List Tile) : State :=
  match openFor s (arg a 0 4) p with
  | none => complete s h 0x001C
  | some o => dataFor s h (arg a 4 4) ts o

theorem withTiles_of_bad {s : State} {ts : List Tile} {origin first i : Nat} {r : List Nat} {fmt : Nat → Bool} (h : Nat)
    (go : State → State) (hb : badTiles ts origin first fmt = i :: r) : withTiles s h ts origin first fmt go =
      complete (rcount s (hostRegBase + 0x110) (r.length + 1)) h 0x0013 (first + i) := by
  simp only [withTiles, hb]

section
variable {s : State} {h p first : Nat} {a : List Byte} {ts : List Tile} {o : Opening}

theorem dataBy_of_none (ho : openFor s (arg a 0 4) p = none) : dataBy s h p a ts = complete s h 0x001C := by
  simp only [dataBy, ho]

theorem dataBy_of_open (ho : openFor s (arg a 0 4) p = some o) : dataBy s h p a ts = dataFor s h (arg a 4 4) ts o := by
  simp only [dataBy, ho]

theorem dataFor_of_beyond (hn : o.n < first + ts.length) : dataFor s h first ts o = complete s h 0x001D := if_pos hn

section
variable (hn : first + ts.length ≤ o.n)
include hn

theorem dataFor_of_bad {i : Nat} {r : List Nat} (hb : badTiles ts 2 first isImageTile = i :: r) : dataFor s h first ts o =
    complete (rcount s (hostRegBase + 0x110) (r.length + 1)) h 0x0013 (first + i) :=
  (if_neg (Nat.not_lt_of_le hn)).trans (withTiles_of_bad h _ hb)

theorem dataFor_of_good (hg : badTiles ts 2 first isImageTile = []) : dataFor s h first ts o = tilesArrived s h first ts o :=
  (if_neg (Nat.not_lt_of_le hn)).trans (withTiles_of_good h _ hg)

end

end

/-! ### UNLOAD_MODEL (R260, R265) -/

/-- What UNLOAD_MODEL does once accepted. -/
def unloadBy (s : State) (h m : Nat) : State :=
  match modelAt s m with
  | none => complete s h 0x001C
  | some x =>
    if x.unload.isSome then complete s h 0x001C
    else sweepModels (modModel s m fun x => { x with unload := some h })

section
variable {s : State} {h m : Nat}

theorem unloadBy_of_not_found (hn : modelAt s m = none ∨ (modelAt s m).any (fun x => x.unload.isSome) = true) :
    unloadBy s h m = complete s h 0x001C := by
  unfold unloadBy
  cases hm : modelAt s m with
  | none => rfl
  | some x =>
    rw [hm] at hn
    exact if_pos (hn.resolve_left (by simp))

theorem unloadBy_of_live {x : Model} (hm : modelAt s m = some x) (hu : x.unload = none) :
    unloadBy s h m = sweepModels (modModel s m fun x => { x with unload := some h }) := by
  simp only [unloadBy, hm, hu, Option.isSome_none, Bool.false_eq_true, if_false]

end

/-! ### The accepted requests -/

section
variable {rq : Request} {head : List Byte} {s t : State} {h p : Nat}

theorem execLoadModel_of_accepted (ha : Accepted 0x01 rq s t h p) :
    execLoadModel rq head s = .next (loadBy t h p rq.args head rq.tiles) :=
  congrArg Host.Outcome.next (onRequest_of_accepted ha _)

theorem execStoreImage_of_accepted (ha : Accepted 0x08 rq s t h p) :
    execStoreImage rq head s = .next (storeBy t h rq.args head rq.tiles) :=
  congrArg Host.Outcome.next (onRequest_of_accepted ha _)

theorem execLoadData_of_accepted (ha : Accepted 0x07 rq s t h p) :
    execLoadData rq s = .next (dataBy t h p rq.args rq.tiles) :=
  congrArg Host.Outcome.next (onRequest_of_accepted ha _)

theorem execUnloadModel_of_accepted (ha : Accepted 0x02 rq s t h p) :
    execUnloadModel rq s = .next (unloadBy t h (modelKey p (arg rq.args 0 2))) :=
  congrArg Host.Outcome.next (onRequest_of_accepted ha _)

end

/-! ### LOAD_IMAGE_TIMEOUT (R343) -/

section
variable {s : State} {id : Nat} {o : Opening}

theorem execLoadImageTimeout_of_none (ho : openingOf s id = none) : execLoadImageTimeout id s = .next s := by
  simp only [execLoadImageTimeout, ho]

theorem execLoadImageTimeout_of_open (ho : openingOf s id = some o) : execLoadImageTimeout id s = .next
    (if o.image = 0xFFFFFFFF ∧ o.writing = false ∧ o.lastTile + 60 * ticksPerSecond ≤ s.tick then failOpening s o 0x0010
      else s) := by
  simp only [execLoadImageTimeout, ho, Bool.not_eq_true']

end

/-! ### NVME_COMMAND_COMPLETE (R280, R282, R344) -/

/-- A failed command is sent again. -/
def resent (s : State) (id : Nat) : State :=
  onDisk s fun d => { d with cmds := d.cmds.map fun x => if x.id = id then { x with fails := x.fails + 1 } else x }

/-- A command is over. -/
def dropCmd (s : State) (id : Nat) : State := onDisk s fun d => { d with cmds := d.cmds.filter fun x => x.id != id }

/-- What the end of a command does to the request that it serves. -/
def cmdEnded (s : State) (c : NvmeCmd) (ok : Bool) : State :=
  match openingOf s c.handle with
  | none => sweepEntries s
  | some o =>
    if !ok then sweepEntries (failOpening (if c.write then freeEntry s c.entry else s) o 0x0013)
    else if c.write then writeEnded s o c.entry
    else sweepEntries (readEnded s o c.entry)

section
variable {s : State} {id : Nat} {c : NvmeCmd}

theorem execNvmeCommandComplete_of_none (ok : Bool) (hc : (s.pcie.store.cmds.find? fun c => c.id == id) = none) :
    execNvmeCommandComplete id ok s = .next s := by
  simp only [execNvmeCommandComplete, hc]

section
variable (hc : (s.pcie.store.cmds.find? fun c => c.id == id) = some c)
include hc

theorem execNvmeCommandComplete_of_found (ok : Bool) : execNvmeCommandComplete id ok s = .next
    (if !ok && decide (c.fails + 1 < nvmeTries c) then resent s id else cmdEnded (dropCmd s id) c ok) := by
  simp only [execNvmeCommandComplete, hc]
  rfl

theorem execNvmeCommandComplete_of_retry (hf : c.fails + 1 < nvmeTries c) :
    execNvmeCommandComplete id false s = .next (resent s id) := by
  rw [execNvmeCommandComplete_of_found hc, if_pos (by simpa using hf)]

theorem execNvmeCommandComplete_of_well : execNvmeCommandComplete id true s = .next (cmdEnded (dropCmd s id) c true) :=
  execNvmeCommandComplete_of_found hc true

theorem execNvmeCommandComplete_of_given_up (hf : nvmeTries c ≤ c.fails + 1) :
    execNvmeCommandComplete id false s = .next (cmdEnded (dropCmd s id) c false) := by
  rw [execNvmeCommandComplete_of_found hc, if_neg (by simpa using hf)]

end

theorem cmdEnded_of_no_opening (ok : Bool) (ho : openingOf s c.handle = none) : cmdEnded s c ok = sweepEntries s := by
  simp only [cmdEnded, ho]

section
variable {o : Opening} (ho : openingOf s c.handle = some o)
include ho

theorem cmdEnded_of_write (hw : c.write = true) : cmdEnded s c true = writeEnded s o c.entry := by
  simp only [cmdEnded, ho, hw, Bool.not_true, Bool.false_eq_true, if_false, if_true]

theorem cmdEnded_of_read (hw : c.write = false) : cmdEnded s c true = sweepEntries (readEnded s o c.entry) := by
  simp only [cmdEnded, ho, hw, Bool.not_true, Bool.false_eq_true, if_false]

theorem cmdEnded_of_failure : cmdEnded s c false =
    sweepEntries (failOpening (if c.write then freeEntry s c.entry else s) o 0x0013) := by
  simp only [cmdEnded, ho, Bool.not_false, if_true]

end

end

/-- Settles O26: each request reaches its meaning by `onRequest_of_accepted`; a timeout asks the opening request of its handle,
and an NVMe command is sent again, or is over and goes on by `cmdEnded`. -/
theorem imagesAreLoadedStoredAndUnloaded : Obligations.ImagesAreLoadedStoredAndUnloaded := by
  unfold Obligations.ImagesAreLoadedStoredAndUnloaded
  intro rq head s t h p id ok a
  refine ⟨?load, ?store, ?data, ?unload, ?timeout, execLoadImageTimeout_of_none, execNvmeCommandComplete_of_none ok, ?nvme⟩
  case load =>
    intro ha
    have he : execLoadModel rq head s = .next (loadBy t h p a head rq.tiles) := execLoadModel_of_accepted ha
    exact ⟨fun hi => he.trans (congrArg _ (if_pos hi)),
      fun hi => ⟨he.trans (congrArg _ (if_neg hi)), openStored_of_no_image⟩⟩
  case store =>
    intro ha
    have he : execStoreImage rq head s = .next (storeBy t h a head rq.tiles) := execStoreImage_of_accepted ha
    exact ⟨fun hs => he.trans (congrArg _ (if_pos (by rw [hs]; rfl))),
      fun hs => he.trans (congrArg _ (if_neg (by rw [hs]; decide)))⟩
  case data =>
    intro ha
    have he : execLoadData rq s = .next (dataBy t h p a rq.tiles) := execLoadData_of_accepted ha
    refine ⟨fun ho => he.trans (congrArg _ (dataBy_of_none ho)), fun o ho => ?_⟩
    have hf : execLoadData rq s = .next (dataFor t h (arg a 4 4) rq.tiles o) := he.trans (congrArg _ (dataBy_of_open ho))
    exact ⟨fun hn => hf.trans (congrArg _ (dataFor_of_beyond hn)), fun hn =>
      ⟨fun i r hb => hf.trans (congrArg _ (dataFor_of_bad hn hb)), fun hg => hf.trans (congrArg _ (dataFor_of_good hn hg))⟩⟩
  case unload =>
    intro ha m
    have he : execUnloadModel rq s = .next (unloadBy t h m) := execUnloadModel_of_accepted ha
    exact ⟨fun hn => he.trans (congrArg _ (unloadBy_of_not_found hn)),
      fun x hm hu => he.trans (congrArg _ (unloadBy_of_live hm hu))⟩
  case timeout =>
    intro o ho
    have he : execLoadImageTimeout id s = _ := execLoadImageTimeout_of_open ho
    refine ⟨fun hi hw ht => he.trans (congrArg _ (if_pos ⟨hi, hw, ht⟩)), fun hn => he.trans (congrArg _ (if_neg ?_))⟩
    rintro ⟨hi, hw, ht⟩
    rcases hn with hn | hn | hn
    · exact hn hi
    · exact absurd (hw.symm.trans hn) (by decide)
    · exact Nat.not_lt_of_le ht hn
  case nvme =>
    intro c hc
    have hwell : execNvmeCommandComplete id true s = _ := execNvmeCommandComplete_of_well hc
    exact ⟨execNvmeCommandComplete_of_retry hc,
      fun ho => hwell.trans (congrArg _ (cmdEnded_of_no_opening true ho)), fun o ho =>
      ⟨fun hw => hwell.trans (congrArg _ (cmdEnded_of_write ho hw)), fun hw => hwell.trans (congrArg _ (cmdEnded_of_read ho hw)),
        fun hf => (execNvmeCommandComplete_of_given_up hc hf).trans (congrArg _ (cmdEnded_of_failure ho))⟩⟩

end Sys2Proof.Machine

/-! What a stopped command, a reset and a record in the logbook leave of the integrity block and of the memory manager. -/

namespace Sys2Proof.Machine

/-! ### The end of a command (R25, R98, R135) -/

@[simp] theorem hwWrite_ras (s : State) (by_ : Req) (m : Nat) (ws : List Word) : (hwWrite s by_ m ws).ras = s.ras := by
  obtain ⟨b, q, h⟩ := onlyMailboxes_hwWrite s by_ m ws
  rw [h]

theorem sendReport_ras (s : State) (n : Nat) : (sendReport s n).ras = s.ras := by
  unfold sendReport
  split
  · rfl
  · exact hwWrite_ras s _ _ _

theorem finish_ras (s : State) (n : Nat) : (finish s n).ras = s.ras := by
  unfold finish
  dsimp only
  split
  · exact sendReport_ras s n
  · rfl

theorem stopCore_ras (s : State) (n : Nat) : (stopCore s n).ras = s.ras := by
  unfold stopCore
  dsimp only
  split
  · exact finish_ras _ n
  · rfl

theorem stopRun_ras (s : State) (c : Nat) : (stopRun s c).ras = s.ras := stopCore_ras _ c

theorem stopRuns_ras (s : State) (f : Run → Bool) : (stopRuns s f).ras = s.ras :=
  foldl_keeps (α := Nat × Run) State.ras (fun s r => stopRun_ras s r.1) _ s

/-! ### Teardown, records and partition reset (R221, R316, R318, R505) -/

theorem queueReplay_ras (s : State) (q steps : Nat) : (queueReplay s q steps).ras = s.ras := by
  unfold queueReplay
  dsimp only
  split
  · rfl
  · split
    · rfl
    · rfl

theorem restoreRows_ras (s : State) (q : Nat) : (restoreRows s q).ras = s.ras := by
  unfold restoreRows
  dsimp only
  split
  · rfl
  · split
    · rfl
    · split
      · rfl
      · exact queueReplay_ras _ q _

theorem zeroWays_ras (s : State) (p : Nat) : (zeroWays s p).ras = s.ras := by
  refine foldl_keeps State.ras (fun s w => ?_) _ s
  split
  · rfl
  · rfl

/-- A record of the logbook touches the logbook alone. -/
theorem logAppend_eq (s : State) (type part : Nat) (args : List Nat) : ∃ l, logAppend s type part args = { s with log := l } := by
  unfold logAppend
  dsimp only
  generalize (if (s.log.second == s.tick / ticksPerSecond) = true then s.log.inSecond else 0) = n
  split
  · exact ⟨_, rfl⟩
  · exact ⟨_, rfl⟩

@[simp] theorem logAppend_ras (s : State) (type part : Nat) (args : List Nat) : (logAppend s type part args).ras = s.ras := by
  obtain ⟨l, h⟩ := logAppend_eq s type part args
  rw [h]

@[simp] theorem logAppend_mm (s : State) (type part : Nat) (args : List Nat) : (logAppend s type part args).mm = s.mm := by
  obtain ⟨l, h⟩ := logAppend_eq s type part args
  rw [h]

@[simp] theorem rcount_ras (s : State) (a n : Nat) : (rcount s a n).ras = s.ras := rfl

theorem teardown_ras (s : State) (q : Nat) : (teardown s q).ras = s.ras :=
  (restoreRows_ras _ q).trans (stopRuns_ras s _)

theorem clearCores_ras (s : State) (p : Nat) (l : List Nat) :
    (l.foldl (fun s c => if coreOfPart s p c then clearCore s c else s) s).ras = s.ras := by
  refine foldl_keeps State.ras (fun s c => ?_) l s
  split
  · rfl
  · rfl

theorem partitionReset_ras (s : State) (p cause : Nat) : (partitionReset s p cause).ras = s.ras := by
  unfold partitionReset
  dsimp only
  rw [logAppend_ras, rcount_ras, foldl_keeps State.ras fun s (q : Nat × Queue) => restoreRows_ras s q.1, zeroWays_ras,
    clearCores_ras]
  exact stopRuns_ras s _

theorem unbounded_ras (s : State) (p : Nat) : (unbounded s p).ras = s.ras := by
  unfold unbounded
  split
  · exact partitionReset_ras s p 0
  · exact foldl_keeps State.ras teardown_ras _ s

end Sys2Proof.Machine

/-! Retired frames of HBM (R472): what a retirement records and keeps, and that no allocation takes a retired frame. -/

namespace Sys2Proof.Machine

/-! ### The contents of a retired frame -/

theorem relinkTable_mm (s : State) (v : Session) : (relinkTable s v).mm = s.mm := by
  unfold relinkTable
  split
  · rfl
  · split
    · rfl
    · exact foldl_keeps State.mm (fun s _ => writeMem_mm s _ _) _ s

theorem syncPage_mm (s : State) (k : Nat) : (syncPage s k).mm = s.mm := by
  unfold syncPage
  split
  · split
    · rfl
    · exact writeMem_mm s k _
  · rfl

/-- A move of frames changes no record of a retired frame. -/
theorem applyMoves_retired (s : State) (l : List (Nat × Nat)) : (applyMoves s l).mm.retired = s.mm.retired := by
  unfold applyMoves
  split
  · rfl
  · dsimp only
    rw [foldl_keeps State.mm fun s (g : Nat × Page) => syncPage_mm s g.1,
      foldl_keeps State.mm fun s (v : Nat × Session) => relinkTable_mm s v.2]
    rfl

theorem moveOut_retired (s : State) (p : Nat) (f : Nat → Bool) (us : List Nat) :
    ((moveOut s p f us).getD s).mm.retired = s.mm.retired := by
  unfold moveOut
  cases planMoves s p us (groupsIn s p f) with
  | none => rfl
  | some l => exact applyMoves_retired s l

theorem refill_mm (s : State) (i : Item) : (refill s i).mm = s.mm := by
  unfold refill
  split
  · split
    · split
      · exact writeObj_mm s _ _ _
      · rfl
    · rfl
  · rfl

theorem demote_retired (s : State) (i : Item) : (demote s i).mm.retired = s.mm.retired := by
  have hst : (setItemSt s i .demoting).mm.retired = s.mm.retired := by
    cases i with
    | obj p n => rfl
    | page a => rfl
  unfold demote
  dsimp only
  split
  · exact hst
  · exact hst

theorem vacate_retired (s : State) (f : Nat) : (vacate s f).mm.retired = s.mm.retired := by
  unfold vacate
  dsimp only
  split
  · split
    · exact demote_retired s _
    · exact (congrArg Mem.retired (refill_mm _ _)).trans (moveOut_retired s _ _ _)
  · exact moveOut_retired s _ _ _

/-! ### Retiring a frame -/

section
variable {s : State} {f : Nat}

theorem retireFrame_of_retired (h : (SMap.get? s.mm.retired f).isSome = true) : retireFrame s f = s := if_pos h

section
variable (h : (SMap.get? s.mm.retired f).isSome = false)
include h

theorem retireFrame_of_full (hm : 4096 ≤ retiredIn s (stackOf f)) : retireFrame s f =
    raiseEvent (logAppend s 0x10 (SMap.getD s.own.hbm (f / framesPerUnit) 0) [1, f, stackOf f]) 0x0302 0xFFFF (stackOf f) :=
  (if_neg (ne_true_of_eq_false h)).trans (if_pos hm)

theorem retired_retireFrame_of_room (hm : retiredIn s (stackOf f) < 4096) :
    (retireFrame s f).mm.retired = SMap.set s.mm.retired f () := by
  have he : retireFrame s f = vacate (logAppend { s with mm := { s.mm with retired := SMap.set s.mm.retired f () } } 0x04
      (SMap.getD s.own.hbm (f / framesPerUnit) 0) [2, f]) f :=
    (if_neg (ne_true_of_eq_false h)).trans (if_neg (Nat.not_le_of_lt hm))
  rw [he, vacate_retired, logAppend_mm]

end

/-- A retirement records the frame or changes no record of a retired frame. -/
theorem retired_retireFrame_cases (s : State) (f : Nat) : (retireFrame s f).mm.retired = s.mm.retired ∨
    (retireFrame s f).mm.retired = SMap.set s.mm.retired f () := by
  cases h : (SMap.get? s.mm.retired f).isSome with
  | true => exact Or.inl (by rw [retireFrame_of_retired h])
  | false =>
    rcases Nat.lt_or_ge (retiredIn s (stackOf f)) 4096 with hm | hm
    · exact Or.inr (retired_retireFrame_of_room h hm)
    · exact Or.inl (by rw [retireFrame_of_full h hm, raiseEvent_mm, logAppend_mm])

theorem isSome_get?_set_self (m : SMap Unit) (k : Nat) : (SMap.get? (SMap.set m k ()) k).isSome = true :=
  Option.isSome_of_eq_some (SMap.get?_set_same m k ())

theorem retired_retireFrame (hm : retiredIn s (stackOf f) < 4096) :
    (SMap.get? (retireFrame s f).mm.retired f).isSome = true := by
  cases h : (SMap.get? s.mm.retired f).isSome with
  | true => rw [retireFrame_of_retired h, h]
  | false => rw [retired_retireFrame_of_room h hm, isSome_get?_set_self]

theorem retired_of_retired {x : Nat} (f : Nat) (hx : (SMap.get? s.mm.retired x).isSome = true) :
    (SMap.get? (retireFrame s f).mm.retired x).isSome = true := by
  rcases retired_retireFrame_cases s f with he | he
  · rw [he, hx]
  · rw [he]
    rcases Decidable.em (x = f) with rfl | hne
    · exact isSome_get?_set_self _ x
    · rw [SMap.get?_set_other _ _ hne, hx]

end

/-! ### Errors in a frame -/

/-- An error is the second within 24 h if there was one before it. -/
theorem two_le_length_append_singleton {α : Type} {l : List α} {x : α} : 2 ≤ (l ++ [x]).length ↔ l ≠ [] := by
  rw [List.length_append, List.length_singleton, ← List.length_pos_iff]
  omega

/-- A corrected error at address a is recorded for its frame and counted. -/
def corrSeen (s : State) (a : Nat) : State :=
  countCorr { s with mm := { s.mm with
    frameErrs := SMap.set s.mm.frameErrs (a / 0x10000)
      (within s.tick (SMap.getD s.mm.frameErrs (a / 0x10000) []) ++ [s.tick]) } } (5 + stackOf (a / 0x10000)) 1

section
variable {s : State} {a : Nat}

theorem frameCorr_of_first (h : within s.tick (SMap.getD s.mm.frameErrs (a / 0x10000) []) = []) :
    frameCorr s a = corrSeen s a :=
  if_neg fun h2 => two_le_length_append_singleton.1 h2 h

theorem frameCorr_of_second (h : within s.tick (SMap.getD s.mm.frameErrs (a / 0x10000) []) ≠ []) :
    frameCorr s a = retireFrame (corrSeen s a) (a / 0x10000) :=
  if_pos (two_le_length_append_singleton.2 h)

end

/-! ### Allocation -/

section
variable {s : State} {x k : Nat}

theorem retired_of_unused (h : frameUsed s x = false) : SMap.get? s.mm.retired x = none := by
  simp only [frameUsed, Bool.or_eq_false_iff, Option.isSome_eq_false_iff, Option.isNone_iff_eq_none] at h
  obtain ⟨⟨⟨⟨-, hr⟩, -⟩, -⟩, -⟩ := h
  exact hr

theorem unused_of_freeFrameFrom : ∀ {n f : Nat}, freeFrameFrom s f n = some x → frameUsed s x = false
  | 0, _, h => nomatch h
  | n + 1, f, h => by
    unfold freeFrameFrom at h
    split at h
    next => exact unused_of_freeFrameFrom h
    next hf =>
      obtain rfl := Option.some.inj h
      exact eq_false_of_ne_true hf

theorem unused_of_freeFrameIn : ∀ {us : List Nat}, freeFrameIn s us = some x → frameUsed s x = false
  | [], h => nomatch h
  | u :: r, h => by
    unfold freeFrameIn at h
    split at h
    next f hf =>
      obtain rfl := Option.some.inj h
      exact unused_of_freeFrameFrom hf
    next => exact unused_of_freeFrameIn h

theorem unused_of_runFree : ∀ {k f : Nat}, runFree s f k = true → ∀ x ∈ span f k, frameUsed s x = false
  | 0, _, _, _, hx => nomatch hx
  | k + 1, f, h, x, hx => by
    simp only [runFree, Bool.and_eq_true, Bool.not_eq_true'] at h
    rcases List.mem_cons.1 hx with rfl | hx
    · exact h.1
    · exact unused_of_runFree h.2 x hx

theorem runFree_of_runFrom : ∀ {n f : Nat}, runFrom s k f n = some x → runFree s x k = true
  | 0, _, h => nomatch h
  | n + 1, f, h => by
    unfold runFrom at h
    split at h
    next hf =>
      obtain rfl := Option.some.inj h
      exact hf
    next => exact runFree_of_runFrom h

theorem runFree_of_runIn : ∀ {us : List Nat}, runIn s k us = some x → runFree s x k = true
  | [], h => nomatch h
  | u :: r, h => by
    unfold runIn at h
    split at h
    next f hf =>
      obtain rfl := Option.some.inj h
      exact runFree_of_runFrom hf
    next => exact runFree_of_runIn h

/-- The frames of a run that is allocated were free. -/
theorem unused_of_allocRun {p : Nat} {t : State} {fs : List Nat} (h : allocRun s p k = some (t, fs)) :
    ∀ x ∈ fs, frameUsed s x = false := by
  obtain ⟨f, hf, he⟩ := Option.map_eq_some_iff.1 h
  cases he
  exact unused_of_runFree (runFree_of_runIn hf)

end

end Sys2Proof.Machine

/-! The scrubs (R250, R259, R263, R315, R470, R472, R475, R479, R481 to R484): patrols, relocation of deep blocks, SRAM errors,
faulty ways, MRAM wear, calibration and the trims of monitors. -/

namespace Sys2Proof.Machine

/-! ### Patrols (R481, R482) -/

section
variable {s : State}

/-- A patrol of a memory stays away: scrubbing is off, the memory is not trained, or the mode is BUOY or BEACON. -/
theorem patrolOff_iff {trained : Bool} :
    (!scrubEn s || !trained || s.aon.mode == .buoy || s.aon.mode == .beacon) = true ↔
      (scrubEn s = false ∨ s.aon.mode = .buoy ∨ s.aon.mode = .beacon) ∨ trained = false := by
  simp only [Bool.or_eq_true, Bool.not_eq_true', beq_iff_eq, or_assoc, or_comm (b := trained = false)]

theorem not_patrolOff {trained : Bool} (hn : ¬ (scrubEn s = false ∨ s.aon.mode = .buoy ∨ s.aon.mode = .beacon))
    (ht : trained = true) : ¬ (!scrubEn s || !trained || s.aon.mode == .buoy || s.aon.mode == .beacon) = true := by
  rw [patrolOff_iff, ht]
  rintro (h | h)
  · exact hn h
  · cases h

/-- SCRUB_LATE (R481): nothing while scrubbing is off, the memory is not trained or the pass has been told. -/
theorem scrubLate_stays {late trained : Bool} (h : late = true ∨ trained = false) :
    (!scrubEn s || (late || !trained)) = true := by
  rcases h with h | h <;> simp [h]

end

/-! ### Deep blocks (R259, R263, R268, R483) -/

/-- The gap that is taken lies clear of every block of the list, which is sorted by granule. -/
theorem gapFrom_clear {limit n q : Nat} : ∀ {l : List DeepBlk} {g : Nat}, l.Pairwise (fun a b => a.granule ≤ b.granule) →
    gapFrom limit n g l = some q → g ≤ q ∧ ∀ y ∈ l, q + n ≤ y.granule ∨ y.granule + y.count ≤ q
  | [], g, _, h => by
    unfold gapFrom at h
    split at h
    next =>
      obtain rfl := Option.some.inj h
      exact ⟨Nat.le_refl _, fun _ hy => nomatch hy⟩
    next => cases h
  | b :: r, g, hs, h => by
    obtain ⟨hb, hr⟩ := List.pairwise_cons.1 hs
    unfold gapFrom at h
    split at h
    next hle =>
      obtain rfl := Option.some.inj h
      exact ⟨Nat.le_refl _, List.forall_mem_cons.2 ⟨Or.inl hle, fun y hy => Or.inl (Nat.le_trans hle (hb y hy))⟩⟩
    next =>
      obtain ⟨hq, hc⟩ := gapFrom_clear hr h
      obtain ⟨hg, hbq⟩ := Nat.max_le.1 hq
      exact ⟨hg, List.forall_mem_cons.2 ⟨Or.inr hbq, hc⟩⟩

theorem pairwise_onChannel (l : List DeepBlk) (c : Nat) : (onChannel l c).Pairwise fun a b => a.granule ≤ b.granule :=
  pairwise_sortBy (key := DeepBlk.granule) _

theorem mem_onChannel {l : List DeepBlk} {c : Nat} {y : DeepBlk} : y ∈ onChannel l c ↔ y ∈ l ∧ y.channel = c := by
  rw [onChannel, mem_sortBy, List.mem_filter, beq_iff_eq]

/-- A block that is relocated takes granules of its channel that no block holds, its own included. -/
theorem relocate_of_moved {s : State} {i : Item} {k : Nat} {d : DeepCopy} {b : DeepBlk} (hd : itemDeep s i = some d)
    (hb : d.blocks[k]? = some b) (hne : relocate s i k ≠ s) : ∃ q, relocate s i k = setDeep s i (some { d with
        blocks := setAt d.blocks k { b with granule := q, gen := SMap.getD s.mm.keyGen (itemPart s i) 0 } }) ∧
      ∀ y ∈ deepBlocks s, y.channel = b.channel → q + b.count ≤ y.granule ∨ y.granule + y.count ≤ q := by
  unfold relocate at hne ⊢
  simp only [hd, hb] at hne ⊢
  cases hg : gapFrom (granulesPer s) b.count 0 (onChannel (deepBlocks s) b.channel) with
  | none =>
    rw [hg] at hne
    exact absurd rfl hne
  | some q =>
    obtain ⟨-, hclear⟩ := gapFrom_clear (pairwise_onChannel _ _) hg
    exact ⟨q, rfl, fun y hy hc => hclear y (mem_onChannel.2 ⟨hy, hc⟩)⟩

/-! ### Errors in SRAM (R315, R470, R475, R479) -/

theorem sramError_of_corrected {s : State} {e : SramPlace × Bool} (hr : ∀ c, e.1 ≠ .rows c) (he : e.2 = false) :
    sramError s e = countCorr s (sramSource e.1) 1 := by
  obtain ⟨x, u⟩ := e
  obtain rfl : u = false := he
  cases x with
  | rows c => exact absurd rfl (hr c)
  | _ => rfl

theorem sramError_of_semaphore {s : State} {n : Fin 1024} {m : Sem} (hm : SMap.get? s.sems n.val = some m) :
    sramError s (.semaphore n, true) =
      if m.part = 0 then teardown (countUncorr s 0 1) m.ownerQueue else partitionReset (countUncorr s 0 1) m.part 0 := by
  simp only [sramError, hm]

/-- An unbounded fault of a way is noted, and the way held for the check. -/
def wayNoted (s : State) (w : Nat) : State :=
  onRas s fun r => { r with
    wayFaults := SMap.set r.wayFaults w (within s.tick (SMap.getD s.ras.wayFaults w []) ++ [s.tick])
    wayHold := SMap.set r.wayHold w () }

theorem waysRetired_retireWay (s : State) (w : Nat) : (retireWay s w).ras.waysRetired = SMap.set s.ras.waysRetired w () := by
  simp only [retireWay, raiseEvent_ras, logAppend_ras, onRas_ras]

section
variable {s : State} {w : Nat}

theorem wayFault_of_first (h : within s.tick (SMap.getD s.ras.wayFaults w []) = []) :
    wayFault s w = unbounded (wayNoted s w) (SMap.getD s.own.ssr w 0) :=
  if_neg fun h2 => two_le_length_append_singleton.1 h2 h

theorem wayFault_of_second (h : within s.tick (SMap.getD s.ras.wayFaults w []) ≠ []) :
    wayFault s w = retireWay (unbounded (wayNoted s w) (SMap.getD s.own.ssr w 0)) w :=
  if_pos (two_le_length_append_singleton.2 h)

theorem held_of_first_wayFault (h : within s.tick (SMap.getD s.ras.wayFaults w []) = []) :
    (SMap.get? (wayFault s w).ras.wayHold w).isSome = true := by
  rw [wayFault_of_first h, unbounded_ras]
  exact isSome_get?_set_self _ w

theorem retired_of_second_wayFault (h : within s.tick (SMap.getD s.ras.wayFaults w []) ≠ []) :
    (SMap.get? (wayFault s w).ras.waysRetired w).isSome = true := by
  rw [wayFault_of_second h, waysRetired_retireWay, isSome_get?_set_self]

end

/-! ### MRAM wear (R250, R496) -/

/-- The lowest block of the reserve that stands for no other block. -/
def freeReserve (s : State) : Option Nat :=
  (span reserveFirst (mramBlocks - reserveFirst)).find? fun b => !(s.ras.remap.map Prod.snd).contains b

section
variable {s : State}

theorem freeReserve_eq_some {b : Nat} (hlo : 0x470 ≤ b) (hhi : b < 0x800) (hb : b ∉ s.ras.remap.map Prod.snd)
    (hbelow : ∀ c, 0x470 ≤ c → c < b → c ∈ s.ras.remap.map Prod.snd) : freeReserve s = some b := by
  rw [freeReserve, span_eq_range', List.find?_range'_eq_some]
  refine ⟨by simpa using hb, List.mem_range'_1.2 ⟨hlo, hhi⟩, fun c hc hcb => ?_⟩
  simpa using hbelow c hc hcb

theorem freeReserve_eq_none (h : ∀ b, 0x470 ≤ b → b < 0x800 → b ∈ s.ras.remap.map Prod.snd) : freeReserve s = none := by
  refine List.find?_eq_none.2 fun b hb => ?_
  obtain ⟨hlo, hhi⟩ := (mem_span_iff _ _ _).1 hb
  simpa using h b hlo hhi

theorem execMramWearRemap_of_reserve {block : Fin 2048} (h : 0x470 ≤ block.val) : execMramWearRemap block s = .next s :=
  congrArg _ (if_pos h)

theorem execMramWearRemap_of_free {block : Fin 2048} {b : Nat} (h : block.val < 0x470) (hb : freeReserve s = some b) :
    execMramWearRemap block s = .next (onRas s fun r => { r with remap := SMap.set r.remap block.val b }) := by
  refine congrArg _ ((if_neg (Nat.not_le_of_lt h)).trans ?_)
  rw [← freeReserve, hb]

theorem execMramWearRemap_of_full {block : Fin 2048} (h : block.val < 0x470) (hb : freeReserve s = none) :
    execMramWearRemap block s = .next s := by
  refine congrArg _ ((if_neg (Nat.not_le_of_lt h)).trans ?_)
  rw [← freeReserve, hb]

end

/-! ### The trims of monitors (R484, R509) -/

/-- Is it a trim of a monitor: in the slots 16 to 39, of four bytes? -/
def monitorTrim (t : Nat × List Byte) : Bool := decide (16 ≤ t.1) && decide (t.1 < 40) && t.2.length == 4

/-- The trims in force once new ones have come. -/
def trimmed (m : SMap (List Byte)) (ts : List (Nat × List Byte)) : SMap (List Byte) :=
  (ts.filter monitorTrim).foldl (fun m t => SMap.set m t.1 t.2) m

theorem trimmed_append (m : SMap (List Byte)) (ts us : List (Nat × List Byte)) :
    trimmed m (ts ++ us) = trimmed (trimmed m ts) us := by
  rw [trimmed, List.filter_append, List.foldl_append]
  rfl

theorem trimmed_of_monitor {t : Nat × List Byte} (m : SMap (List Byte)) (h : monitorTrim t = true) :
    trimmed m [t] = SMap.set m t.1 t.2 := by
  rw [trimmed, List.filter_cons_of_pos h]
  rfl

theorem trimmed_of_other {t : Nat × List Byte} (m : SMap (List Byte)) (h : ¬ monitorTrim t = true) : trimmed m [t] = m := by
  rw [trimmed, List.filter_cons_of_neg h]
  rfl

/-- The state with other trims in force. -/
def withTrims (s : State) (m : SMap (List Byte)) : State := onRas s fun r => { r with trims := m }

section
variable {s : State} (h : s.power.mainReset = false)
include h

theorem execMonitorRecalibration_of_released (ts : List (Nat × List Byte)) :
    execMonitorRecalibration ts s = .next (withTrims s (trimmed s.ras.trims ts)) :=
  congrArg _ (if_neg (ne_true_of_eq_false h))

theorem execMonitorRecalibration_of_monitor {k : Nat} {d : List Byte} (ht : monitorTrim (k, d) = true) :
    execMonitorRecalibration [(k, d)] s = .next (withTrims s (SMap.set s.ras.trims k d)) := by
  rw [execMonitorRecalibration_of_released h, trimmed_of_monitor _ ht]

theorem execMonitorRecalibration_of_other {k : Nat} {d : List Byte} (ht : ¬ monitorTrim (k, d) = true) :
    execMonitorRecalibration [(k, d)] s = .next s := by
  rw [execMonitorRecalibration_of_released h, trimmed_of_other _ ht]
  rfl

/-- Two recalibrations one after the other are that of both lists. -/
theorem execMonitorRecalibration_append {t : State} {ts us : List (Nat × List Byte)}
    (ht : execMonitorRecalibration ts s = .next t) :
    execMonitorRecalibration us t = execMonitorRecalibration (ts ++ us) s := by
  rw [execMonitorRecalibration_of_released h] at ht
  obtain rfl := Host.Outcome.next.inj ht
  have hr : (withTrims s (trimmed s.ras.trims ts)).power.mainReset = false := h
  rw [execMonitorRecalibration_of_released hr, execMonitorRecalibration_of_released h, trimmed_append]
  rfl

end

/-- Settles O45: patrols and scrubs are folds over the errors of frames, blocks and places; a retirement keeps every retired frame
by `retired_retireFrame_cases`, a relocation is clear of all blocks by `gapFrom_clear`, and the teardown of a faulty way's
partition keeps the marks of ways by `unbounded_ras`. -/
theorem scrubsCountRetireAndRelocate : Obligations.ScrubsCountRetireAndRelocate := by
  unfold Obligations.ScrubsCountRetireAndRelocate
  intro corr uncorr done a f n p item reads found deep block ifc temp trims more s off g owner mine bad moved
  refine ⟨fun h => congrArg _ (if_pos (patrolOff_iff.2 h)), fun hn ht => congrArg _ (if_neg (not_patrolOff hn ht)),
    ⟨frameCorr_of_first, frameCorr_of_second, rfl, isSome_get?_set_self _ _⟩, retireFrame_of_retired, retireFrame_of_full,
    retired_retireFrame, fun x => retired_of_retired f, fun x us hx => retired_of_unused (unused_of_freeFrameIn hx),
    fun t fs ha x hx => retired_of_unused (unused_of_allocRun ha x hx),
    fun h => congrArg _ (if_pos (patrolOff_iff.2 h)), fun hn ht => congrArg _ (if_neg (not_patrolOff hn ht)),
    fun d b => relocate_of_moved, fun h => congrArg _ (if_pos h), fun h => congrArg _ (if_neg (ne_true_of_eq_false h)), ?sram,
    fun w => ⟨held_of_first_wayFault, retired_of_second_wayFault⟩, ?off, ?hbmTold, ?deepTold, ?hbmLate, ?deepLate,
    execMramWearRemap_of_reserve, ?mram, ?calibration, fun h => congrArg _ (if_pos h), ?monitors⟩
  case sram =>
    rintro ⟨x, u⟩
    refine ⟨sramError_of_corrected, ?_, ?_, ?_, ?_⟩
    · rintro w ⟨rfl, rfl⟩
      rfl
    · rintro (⟨rfl, rfl⟩ | ⟨rfl, rfl⟩)
      · rfl
      · rfl
    · rintro ⟨rfl, rfl⟩
      rfl
    · rintro k m ⟨rfl, rfl⟩
      exact sramError_of_semaphore
  case off => exact fun h => congrArg _ (if_pos (by rw [h]; rfl))
  case hbmTold => exact fun h => congrArg _ (if_pos (scrubLate_stays h))
  case deepTold => exact fun h => congrArg _ (if_pos (scrubLate_stays h))
  case hbmLate => exact fun he hl ht => congrArg _ (if_neg (by simp [he, hl, ht]))
  case deepLate => exact fun he hl ht => congrArg _ (if_neg (by simp [he, hl, ht]))
  case mram =>
    intro used hb
    exact ⟨fun b hlo hhi hu hbelow => execMramWearRemap_of_free hb (freeReserve_eq_some hlo hhi hu hbelow),
      fun h => execMramWearRemap_of_full hb (freeReserve_eq_none h)⟩
  case calibration =>
    exact ⟨fun h => congrArg _ (if_pos h), fun h => congrArg _ (if_neg (ne_true_of_eq_false h))⟩
  case monitors =>
    intro hr
    refine ⟨execMonitorRecalibration_of_released hr [], fun k d hlo hhi hd => execMonitorRecalibration_of_monitor hr ?_,
      fun k d hn => execMonitorRecalibration_of_other hr ?_, fun t => execMonitorRecalibration_append hr⟩
    · simp [monitorTrim, hlo, hhi, hd]
    · simp only [monitorTrim, Bool.and_eq_true, decide_eq_true_eq, beq_iff_eq]
      omega

end Sys2Proof.Machine

/-! INVOKE and the entry of its job in the queue's ring (R296). -/

namespace Sys2Proof.Machine

/-! ### The stored job -/

/-- A job takes the entry of its queue's ring at the write pointer (R296). -/
def inRing (s : State) (x : Job) : Job := { x with ring := (queueAt s x.queue).map Queue.wptr }

theorem get?_jobs_putJob (s : State) (x : Job) : SMap.get? (putJob s x).k.jobs s.k.jobNext = some (inRing s x) := by
  unfold putJob
  split
  · exact SMap.get?_set_same _ _ _
  · exact SMap.get?_set_same _ _ _

/-- On a queue that exists, the stored job is another than one that is in no ring. -/
theorem get?_jobs_putJob_ne {s : State} {x : Job} {v : Queue} (hv : queueAt s x.queue = some v) (hx : x.ring = none) :
    SMap.get? (putJob s x).k.jobs s.k.jobNext ≠ some x := by
  rw [get?_jobs_putJob]
  intro h
  have hring : (inRing s x).ring = x.ring := congrArg Job.ring (Option.some.inj h)
  rw [inRing, hv, hx] at hring
  cases hring

/-! ### An INVOKE that is admitted -/

/-- The one command of the model's one job kind. -/
def onlyCommand : GCmd := { id := 0, program := 0, budget := 1 }

/-- A model of the system partition whose job kind 1 is `onlyCommand`. -/
def oneKindModel : Model := { part := 0, graphs := [(1, [onlyCommand])] }

/-- A queue of model 3 with an empty ring. -/
def emptyQueue : Queue := { part := 0, model := 3 }

/-- Reset with association 1 of the system principal, `oneKindModel` as model 3, and `emptyQueue` as queue 16. -/
def invokable : State := { State.reset with k := {
  assocs := [(1, { principal := 0, port := 0 })], models := [(3, oneKindModel)], queues := [(16, emptyQueue)] } }

/-- INVOKE of kind 1 on queue 16, with no session and no tiles. -/
def plainInvoke : Request :=
  { assoc := 1, args := leBytes 2 16 ++ leBytes 2 1 ++ leBytes 4 0xFFFFFFFF ++ List.replicate 68 0 }

/-- `invokable` once `plainInvoke` has handle 1 and its reply ACCEPTED. -/
def invokableTaken : State :=
  replyTo (onK invokable fun k => { k with
    handles := [(0, { gen := 1, st := .opened, principal := 0, part := 0, assoc := 1, code := 0x13, tickAccept := 0 })] }) 1 0 0 1 []

/-- The job that O29 has `plainInvoke` append. -/
def plainJob : Job :=
  { handle := 1, part := 0, queue := 16, model := 3, kind := 1, args := List.replicate 60 0, cmds := [{ g := onlyCommand }] }

theorem accepted_plainInvoke : Accepted 0x13 plainInvoke invokable invokableTaken 1 0 where
  offered := rfl
  allowed := rfl
  args := rfl

theorem exec_plainInvoke : exec (.invoke plainInvoke) invokable = .next (putJob (repoint invokableTaken 16) plainJob) := rfl

/-- Refutes O29: INVOKE stores its job with its entry of the queue's ring (R296, `get?_jobs_putJob`), and the job that the
statement names is in no ring, as its field `ring` is left at `none`. `plainInvoke` passes every check on `invokable`, so the
statement has it append `plainJob`. -/
theorem not_jobsAreInvokedCancelledAndRead : ¬ Obligations.JobsAreInvokedCancelledAndRead := by
  unfold Obligations.JobsAreInvokedCancelledAndRead
  intro hall
  obtain ⟨-, -, hqueue⟩ := (hall plainInvoke invokable invokableTaken 1 0).1 accepted_plainInvoke
  obtain ⟨-, hmodel⟩ := (hqueue emptyQueue (by decide) rfl).2 rfl rfl
  obtain ⟨-, hkind⟩ := hmodel oneKindModel rfl
  obtain ⟨-, htiles⟩ := hkind [onlyCommand] rfl rfl none (.inl ⟨rfl, rfl⟩)
  obtain ⟨-, -, -, hroom⟩ := htiles rfl
  obtain ⟨-, happend⟩ := hroom (by decide) rfl rfl
  obtain ⟨w, hw, hjob, -⟩ := happend rfl
  obtain rfl := Host.Outcome.next.inj (exec_plainInvoke.symm.trans hw)
  exact get?_jobs_putJob_ne (v := emptyQueue) rfl rfl hjob

end Sys2Proof.Machine

/-! READ_RECORDS, the calibration requests, ATTEST, TELEMETRY_SET and LOGBOOK_DROP_SUMMARY (R453, R504 to R510). -/

namespace Sys2Proof.Machine

/-! ### The logbook (R505, R506, R508) -/

@[simp] theorem length_logBytes (r : LogRec) : (logBytes r).length = 64 := by
  simp [logBytes, span]

theorem length_flatMap_logBytes (l : List LogRec) : (l.flatMap logBytes).length = 64 * l.length := by
  simp [List.length_flatMap, Nat.mul_comm]

/-- The logbook's records, their sequence numbers rising. -/
def sortedRecords (s : State) : List LogRec := sortBy (fun a b => decide (a.seq ≤ b.seq)) (s.log.recs.map Prod.snd)

theorem recordsFor_sublist (s : State) (p first count : Nat) : (recordsFor s p first count).Sublist (sortedRecords s) := by
  unfold recordsFor
  refine (List.take_sublist _ _).trans (List.filter_sublist.trans ?_)
  split
  · exact List.filter_sublist
  · exact List.Sublist.refl _

section
variable {s : State} {p first count : Nat}

theorem length_recordsFor_le : (recordsFor s p first count).length ≤ count := List.length_take_le _ _

theorem pairwise_recordsFor : (recordsFor s p first count).Pairwise fun a b => a.seq ≤ b.seq :=
  (pairwise_sortBy (key := LogRec.seq) _).sublist (recordsFor_sublist s p first count)

variable {r : LogRec}

theorem own_or_system_of_mem_recordsFor (h : r ∈ recordsFor s p first count) : p = 0 ∨ r.part = p := by
  have ho : (p == 0 || r.part == p) = true := (List.mem_filter.1 (List.mem_of_mem_take h)).2
  simpa using ho

theorem mem_log_of_mem_recordsFor (h : r ∈ recordsFor s p first count) : ∃ k, (k, r) ∈ s.log.recs := by
  obtain ⟨⟨k, _⟩, hk, rfl⟩ := List.mem_map.1 (mem_sortBy.1 ((recordsFor_sublist s p first count).subset h))
  exact ⟨k, hk⟩

end

/-- The first record of a second is never dropped. -/
theorem logAppend_of_new_second {s : State} (h : s.tick / ticksPerSecond ≠ s.log.second) (type part : Nat) (args : List Nat) :
    logAppend s type part args = { s with log := { s.log with
      recs := SMap.set s.log.recs (s.log.next % 65536)
        { seq := s.log.next, tick := s.tick, boot := s.boot.bootCount, type := type, part := part, args := args }
      next := s.log.next + 1, second := s.tick / ticksPerSecond, inSecond := 1 } } := by
  have hn : (s.log.second == s.tick / ticksPerSecond) = false := beq_false_of_ne (Ne.symm h)
  simp [logAppend, hn]

/-! ### The accepted requests -/

/-- What READ_RECORDS does once accepted. -/
def readRecordsBy (s : State) (h p : Nat) (a : List Byte) : State :=
  if arg a 0 4 = 0xFFFFFFFF ∧ arg a 4 4 = 1 then
    complete (returnTiles { s with freeCtr := s.freeCtr + 2 } h (reportTiles 4096 (bootBytes s))) h 0
      (Config.freeNat s.freeCtr) (Config.freeNat (s.freeCtr + 1))
  else
    complete (returnTiles s h (reportTiles 4096 ((recordsFor s p (arg a 0 4) (arg a 4 4)).flatMap logBytes))) h 0
      (recordsFor s p (arg a 0 4) (arg a 4 4)).length ((recordsFor s p (arg a 0 4) (arg a 4 4)).head?.elim 0 LogRec.seq)

/-- What the three calibration requests do once accepted, by the flags. -/
def calibrateBy (s : State) (h : Nat) (a : List Byte) : State :=
  let k := (calSlot (arg a 0 2)).getD 0
  if bitOf (arg a 2 1) 1 then
    complete (returnTiles s h [reportTile 0 (calBytes (arg a 0 2) (SMap.get? s.boot.cal k))]) h 0
  else if bitOf (arg a 2 1) 0 then calWrite s h (arg a 0 2) k a []
  else calWrite s h (arg a 0 2) k a (part a 4 (arg a 3 1))

/-- The signed quote that ATTEST returns, and the certificate; the token nonce of the quote is kept. -/
def attestWith (s : State) (h : Nat) (a key cert : List Byte) : State :=
  let q := quoteHead s (part a 0 32) (freshNonce s) (arg a 32 4)
  complete (returnTiles { s with freeCtr := s.freeCtr + 8, sec := { s.sec with nonce := some (freshNonce s, s.tick) } } h
    [reportTile 0 (q ++ leBytes 512 (Config.sign key q).toNat), reportTile 1 cert]) h 0 2

section
variable {rq : Request} {s t : State} {h p : Nat}

theorem execReadRecords_of_accepted (ha : Accepted 0x23 rq s t h p) :
    execReadRecords rq s = .next (readRecordsBy t h p rq.args) :=
  congrArg Host.Outcome.next (onRequest_of_accepted ha _)

theorem calRequest_of_accepted (ha : Accepted 0x24 rq s t h p) : calRequest s rq = calibrateBy t h rq.args :=
  onRequest_of_accepted ha _

/-- WRITE, ERASE and READ are one request, told apart by its flags. -/
theorem eq_calibrateBy_of_mem_rows (ha : Accepted 0x24 rq s t h p) {row : Host.Outcome State Fault Refusal}
    (hr : row ∈ [exec (.calibrationWrite rq) s, exec (.calibrationErase rq) s, exec (.calibrationRead rq) s]) :
    row = .next (calibrateBy t h rq.args) := by
  rw [← calRequest_of_accepted ha]
  exact List.eq_of_mem_replicate (n := 3) hr

theorem execAttest_of_no_identity (ha : Accepted 0x26 rq s t h p) (hn : t.secStore.deviceKey = none ∨ t.secStore.cert = none) :
    execAttest rq s = .next (complete t h 0x001C) := by
  refine congrArg Host.Outcome.next ((onRequest_of_accepted ha _).trans ?_)
  split
  next hk hc =>
    rcases hn with hn | hn
    · exact absurd (hn.symm.trans hk) nofun
    · exact absurd (hn.symm.trans hc) nofun
  next => rfl

theorem execAttest_of_identity (ha : Accepted 0x26 rq s t h p) {key cert : List Byte} (hk : t.secStore.deviceKey = some key)
    (hc : t.secStore.cert = some cert) : execAttest rq s = .next (attestWith t h rq.args key cert) := by
  refine congrArg Host.Outcome.next ((onRequest_of_accepted ha _).trans ?_)
  simp only [hk, hc]
  rfl

theorem execTelemetrySet_of_accepted (ha : Accepted 0x27 rq s t h p) : execTelemetrySet rq s =
    .next (complete (onK t fun k => { k with principals := SMap.modify k.principals p fun y =>
      { y with telemetryMs := arg rq.args 0 4, telemetryMask := arg rq.args 4 4 } }) h 0) :=
  congrArg Host.Outcome.next (onRequest_of_accepted ha _)

end

section
variable {s : State} {h : Nat} {a : List Byte}

theorem calibrateBy_of_read (hr : bitOf (arg a 2 1) 1 = true) : calibrateBy s h a =
    complete (returnTiles s h
      [reportTile 0 (calBytes (arg a 0 2) (SMap.get? s.boot.cal ((calSlot (arg a 0 2)).getD 0)))]) h 0 :=
  if_pos hr

theorem calibrateBy_of_erase (hr : bitOf (arg a 2 1) 1 = false) (he : bitOf (arg a 2 1) 0 = true) :
    calibrateBy s h a = calWrite s h (arg a 0 2) ((calSlot (arg a 0 2)).getD 0) a [] := by
  simp only [calibrateBy, hr, he, Bool.false_eq_true, if_false, if_true]

theorem calibrateBy_of_write (hr : bitOf (arg a 2 1) 1 = false) (he : bitOf (arg a 2 1) 0 = false) :
    calibrateBy s h a = calWrite s h (arg a 0 2) ((calSlot (arg a 0 2)).getD 0) a (part a 4 (arg a 3 1)) := by
  simp only [calibrateBy, hr, he, Bool.false_eq_true, if_false]

end

theorem execLogbookDropSummary_of_drops {s : State} (hd : s.log.dropped ≠ 0) (hs : s.tick / ticksPerSecond ≠ s.log.second) :
    execLogbookDropSummary s =
      .next (logAppend { s with log := { s.log with dropped := 0 } } 0x11 0xFF [s.log.dropped]) :=
  congrArg Host.Outcome.next (if_neg (not_or.2 ⟨hd, hs⟩))

/-- Settles O32: each request reaches its meaning by `onRequest_of_accepted`. The records sent are a part of the sorted logbook
(`recordsFor_sublist`), the three calibration rows are `calibrateBy`, and a new second has room for the record of the drops. -/
theorem recordsCalibrationAttestationAndTelemetryAnswer : Obligations.RecordsCalibrationAttestationAndTelemetryAnswer := by
  unfold Obligations.RecordsCalibrationAttestationAndTelemetryAnswer
  intro rq s t h p a
  refine ⟨?records, ?calibration, ?attest, ?telemetry, ?quiet, ?drops⟩
  case records =>
    intro ha
    have he : exec (.readRecords rq) s = .next (readRecordsBy t h p a) := execReadRecords_of_accepted ha
    refine ⟨fun hb => he.trans (congrArg _ (if_pos hb)), fun hb => ?_⟩
    intro rs
    exact ⟨he.trans (congrArg _ (if_neg hb)), length_recordsFor_le, fun _ => own_or_system_of_mem_recordsFor,
      pairwise_recordsFor, fun _ => mem_log_of_mem_recordsFor, length_flatMap_logBytes rs⟩
  case calibration =>
    intro ha id k old put row hrow
    have he : row = .next (calibrateBy t h a) := eq_calibrateBy_of_mem_rows ha hrow
    exact ⟨fun hr => he.trans (congrArg _ (calibrateBy_of_read hr)),
      fun hr hw => he.trans (congrArg _ (calibrateBy_of_erase hr hw)),
      fun hr hw => he.trans (congrArg _ (calibrateBy_of_write hr hw))⟩
  case attest =>
    intro ha
    exact ⟨execAttest_of_no_identity ha, fun _ _ hk hc => execAttest_of_identity ha hk hc⟩
  case telemetry => exact execTelemetrySet_of_accepted
  case quiet => exact fun hq => congrArg Host.Outcome.next (if_pos hq)
  case drops =>
    intro hd hs
    exact (execLogbookDropSummary_of_drops hd hs).trans
      (congrArg _ (logAppend_of_new_second (s := { s with log := { s.log with dropped := 0 } }) hs _ _ _))

end Sys2Proof.Machine

/-! MEMBER_LEAVE that the fabric does not allow (R379). -/

namespace Sys2Proof.Machine

/-- R379: may this device take a member out and have `repl` replace it? -/
def mayLeave (s : State) (addr repl : Nat) : Prop :=
  fabricHead s = true ∧ (repl = 0 ∨ (memberAt s repl = true ∧ repl ≠ addr))

/-- A MEMBER_LEAVE that is not sent to the fabric head, or names a replacement that is no other member, completes
BAD_REQUEST. -/
theorem execMemberLeave_of_not_mayLeave {rq : Request} {s t : State} {h p : Nat} (ha : Accepted 0x29 rq s t h p)
    (hn : ¬ mayLeave t (arg rq.args 0 2) (arg rq.args 2 2)) : execMemberLeave rq s = .next (complete t h 0x001D) := by
  refine congrArg Host.Outcome.next ((onRequest_of_accepted ha _).trans (if_pos ?_))
  rw [mayLeave, not_and_or, not_or, not_and_or, not_not] at hn
  simpa using hn

/-! ### The record of a completed request (R347, R351) -/

theorem handles_emit (s : State) (n : Nat) (f : TctFrame) : (emit s n f).k.handles = s.k.handles := by
  unfold emit
  split
  · rfl
  · rfl

theorem handles_emitAll (n : Nat) : ∀ (l : List TctFrame) (s : State), (emitAll s n l).k.handles = s.k.handles
  | [], _ => rfl
  | f :: r, s => (handles_emitAll n r (emit s n f)).trans (handles_emit s n f)

theorem handles_pump (s : State) (n : Nat) : (pump s n).k.handles = s.k.handles := by
  unfold pump
  split
  · rfl
  · split
    · rfl
    · exact handles_emitAll n _ _

/-- A message to a host changes no handle. -/
theorem handles_sendMsg (s : State) (n type : Nat) (payload : List Byte) (hs : List Nat) :
    (sendMsg s n type payload hs).k.handles = s.k.handles := by
  unfold sendMsg
  split
  · rfl
  · exact handles_pump _ n

theorem handleOf_congr {s t : State} (hh : t.k.handles = s.k.handles) (h : Nat) : handleOf t h = handleOf s h := by
  rw [handleOf, hh, handleOf]

theorem handleOf_onK {s : State} {f : Keeper → Keeper} (h : Nat) (hf : ∀ k, (f k).handles = k.handles) :
    handleOf (onK s f) h = handleOf s h :=
  handleOf_congr (hf s.k) h

theorem handleOf_modHandle_same {s : State} {h : Nat} {x : Handle} {f : Handle → Handle} (hx : handleOf s h = some x)
    (hf : (f x).gen = x.gen) : handleOf (modHandle s h f) h = some (f x) := by
  unfold handleOf at hx
  split at hx
  next y hy =>
    split at hx
    next hg =>
      obtain rfl := Option.some.inj hx
      have hm : SMap.get? (modHandle s h f).k.handles (slotOf h) = some (f y) := SMap.get?_modify_same f hy
      simp only [handleOf, hm, hf, hg, if_true]
    next => cases hx
  next => cases hx

theorem record_modHandle {s : State} {h : Nat} {x : Handle} {r : Record} {f : Handle → Handle} (hx : handleOf s h = some x)
    (hg : (f x).gen = x.gen) (hr : (f x).record = some r) : (handleOf (modHandle s h f) h).bind Handle.record = some r := by
  rw [handleOf_modHandle_same hx hg, Option.bind_some, hr]

/-- A delivered record stays with its handle, whether it is sent or held. -/
theorem record_deliver {s : State} {r : Record} {x : Handle} (hx : handleOf s r.handle = some x) :
    (handleOf (deliver s r x) r.handle).bind Handle.record = some r := by
  unfold deliver
  split
  next =>
    rw [handleOf_congr (handles_sendMsg ..)]
    exact record_modHandle hx rfl rfl
  next =>
    rw [handleOf_onK]
    · exact record_modHandle hx rfl rfl
    · exact fun _ => rfl

/-- A request completes with its status in the record. -/
theorem record_complete {s : State} {h : Nat} {x : Handle} (hx : handleOf s h = some x) (ho : x.st = .opened)
    (hr : x.record = none) (status : Nat) :
    (handleOf (complete s h status) h).bind Handle.record = some (recordOf s h x status 0 0 0) := by
  have hc : complete s h status = deliver s (recordOf s h x status 0 0 0) x := by simp [complete, hx, ho, hr]
  rw [hc]
  exact record_deliver (r := recordOf s h x status 0 0 0) hx

/-- Completions of an open request with different statuses lead to different states. -/
theorem complete_ne_complete {s : State} {h : Nat} {x : Handle} (hx : handleOf s h = some x) (ho : x.st = .opened)
    (hr : x.record = none) {a b : Nat} (hab : a ≠ b) : complete s h a ≠ complete s h b := by
  intro he
  have hs : some (recordOf s h x a 0 0 0) = some (recordOf s h x b 0 0 0) := by
    rw [← record_complete hx ho hr a, he, record_complete hx ho hr b]
  exact hab (congrArg Record.status (Option.some.inj hs))

/-! ### The refutation -/

/-- Reset with association 1 of the system principal: the device's address is 0, so it is no fabric head. -/
def notHead : State := { State.reset with k := { assocs := [(1, { principal := 0, port := 0 })] } }

/-- MEMBER_LEAVE of address 2 without a replacement. -/
def plainLeave : Request := { assoc := 1, args := leBytes 2 2 ++ List.replicate 74 0 }

/-- The handle that `plainLeave` gets. -/
def leaveHandle : Handle := { gen := 1, st := .opened, principal := 0, part := 0, assoc := 1, code := 0x29, tickAccept := 0 }

/-- `notHead` once `plainLeave` has handle 1 and its reply ACCEPTED. -/
def notHeadTaken : State := replyTo (onK notHead fun k => { k with handles := [(0, leaveHandle)] }) 1 0 0 1 []

theorem accepted_plainLeave : Accepted 0x29 plainLeave notHead notHeadTaken 1 0 where
  offered := rfl
  allowed := rfl
  args := rfl

theorem fabricHead_notHeadTaken : fabricHead notHeadTaken = false := rfl

theorem handleOf_notHeadTaken : handleOf notHeadTaken 1 = some leaveHandle := rfl

/-- Refutes O34: on a device that is not the fabric head MEMBER_LEAVE completes BAD_REQUEST (0x001D), where the statement has
NOT_FOUND (0x001C). `plainLeave` is taken on `notHead`, whose address is 0, and its record tells the two statuses apart. -/
theorem not_placementsAndLeavesStart : ¬ Obligations.PlacementsAndLeavesStart := by
  unfold Obligations.PlacementsAndLeavesStart
  intro hall
  obtain ⟨hleave, -⟩ := (hall plainLeave notHead notHeadTaken 1 0).2 accepted_plainLeave
  have hnot : ¬ mayLeave notHeadTaken (arg plainLeave.args 0 2) (arg plainLeave.args 2 2) := fun ⟨hhead, _⟩ =>
    Bool.false_ne_true (fabricHead_notHeadTaken.symm.trans hhead)
  have hbad : exec (.memberLeave plainLeave) notHead = .next (complete notHeadTaken 1 0x001D) :=
    execMemberLeave_of_not_mayLeave accepted_plainLeave hnot
  have heq : complete notHeadTaken 1 0x001C = complete notHeadTaken 1 0x001D :=
    Host.Outcome.next.inj ((hleave (.inl hnot)).symm.trans hbad)
  exact complete_ne_complete handleOf_notHeadTaken rfl rfl (by decide) heq

end Sys2Proof.Machine

/-! What one step does (log 13), what reset gives, and the life cycle, which fuses alone decide (R438 to R440, R447). -/

namespace Sys2Proof.Machine

/-! ### Steps and reset -/

/-- Settles O1: with a command in front, a step is that command's meaning. -/
theorem stepRunsTheFrontCommand : Obligations.StepRunsTheFrontCommand := by
  unfold Obligations.StepRunsTheFrontCommand
  exact fun _ _ => step_of_pending_cons rfl

theorem countCycles_eq (c : Core) : countCycles c = if c.st = .running ∨ c.st = .stopping then
    { c with cycTotal := BitVec.ofNat 32 (min (c.cycTotal.toNat + 3) 0xFFFFFFFF) } else c := by
  simp only [countCycles, Bool.or_eq_true, beq_iff_eq]
  rfl

/-- Settles O2: without a frame of its own a device tick is `tickOn`, which counts the cycles of each core. -/
theorem emptyQueueStepIsOneTick : Obligations.EmptyQueueStepIsOneTick := by
  unfold Obligations.EmptyQueueStepIsOneTick
  intro s hp hq
  rw [step_of_pending_nil hp, idle, if_pos hq, tickOn, funext fun e : Nat × Core => congrArg (Prod.mk e.1) (countCycles_eq e.2)]

theorem inv_reset : Inv State.reset := rfl

/-- Settles O56: nothing waits and nothing is listed after reset, and a step keeps the invariant. -/
theorem resetMeetsTheInvariant : Obligations.ResetMeetsTheInvariant := by
  unfold Obligations.ResetMeetsTheInvariant
  have hs : step State.reset = .next (idle State.reset) := step_of_pending_nil rfl
  exact ⟨inv_reset, rfl, rfl, _, hs, (step_keeps hs).memory inv_reset⟩

/-! ### Fuses and the life cycle (R438 to R440, R447) -/

/-- A group of fuses that counts as blown stays so as more of its fuses blow. -/
theorem blown_of_and_eq {a b : BitVec 8} (hab : a &&& b = a) (ha : blown a = true) : blown b = true := by
  have hbit : ∀ k, a.toNat.testBit k = true → b.toNat.testBit k = true := fun k hk => by
    rw [← hab, BitVec.toNat_and, Nat.testBit_and, Bool.and_eq_true] at hk
    exact hk.2
  have hle : popcount 8 a.toNat ≤ popcount 8 b.toNat := (List.monotone_filter_right _ hbit).length_le
  exact decide_eq_true (Nat.le_trans (of_decide_eq_true ha) hle)

theorem lifeRank_lifeCycle (s : State) : lifeRank (lifeCycle s) = if blown s.otp.lcRetired then 3
    else if blown s.otp.lcField then 2 else if blown s.otp.lcProvision then 1 else 0 := by
  unfold lifeCycle
  dsimp only
  split
  · rfl
  · split
    · split <;> rfl
    · split <;> rfl

theorem lifeCycle_eq_retired_iff (s : State) : lifeCycle s = 4 ↔ blown s.otp.lcRetired = true := by
  unfold lifeCycle
  dsimp only
  split
  · next h => exact iff_of_true rfl h
  · next h =>
    refine iff_of_false ?_ h
    repeat' split
    all_goals decide

section
variable {s t : State}

theorem lifeRank_le_of_fusesGrow (h : FusesGrow s.otp t.otp) : lifeRank (lifeCycle s) ≤ lifeRank (lifeCycle t) := by
  have hr := blown_of_and_eq h.retired
  have hf := blown_of_and_eq h.field
  have hp := blown_of_and_eq h.provision
  rw [lifeRank_lifeCycle, lifeRank_lifeCycle]
  grind

theorem lifeCycle_retired_of_fusesGrow (h : FusesGrow s.otp t.otp) (hs : lifeCycle s = 4) : lifeCycle t = 4 :=
  (lifeCycle_eq_retired_iff t).2 (blown_of_and_eq h.retired ((lifeCycle_eq_retired_iff s).1 hs))

theorem rootRevoked_of_fusesGrow (h : FusesGrow s.otp t.otp) {k : Nat} (hs : rootRevoked s k = true) :
    rootRevoked t k = true := by
  unfold rootRevoked at hs ⊢
  split at hs
  · next hk => exact blown_of_and_eq (by simpa [hk] using h.revoked0) hs
  · next hk => exact blown_of_and_eq (by simpa [hk] using h.revoked1) hs

theorem rootDigest_of_fusesGrow (h : FusesGrow s.otp t.otp) {k : Nat} {d : BitVec 512} (hs : rootDigest s k = some d) :
    rootDigest t k = some d := by
  unfold rootDigest at hs ⊢
  split at hs
  · next hk => rw [if_pos hk, h.root0 (by simp [hs]), hs]
  · next hk =>
    split at hs
    · next hk1 => rw [if_neg hk, if_pos hk1, h.root1 (by simp [hs]), hs]
    · cases hs

end

/-! ### Resets blow no fuse -/

@[simp] theorem logAppend_otp (s : State) (type part : Nat) (args : List Nat) : (logAppend s type part args).otp = s.otp := by
  obtain ⟨l, hl⟩ := logAppend_eq s type part args
  rw [hl]

theorem stepUp_otp (s : State) (m : Mode) : (stepUp s m).otp = s.otp := by
  unfold stepUp
  dsimp only
  split <;> rfl

theorem askUp_otp (s : State) (m : Mode) (cause : Nat) : (askUp s m cause).otp = s.otp := by
  unfold askUp
  dsimp only
  split
  · split
    · rfl
    · split
      · exact stepUp_otp _ _
      · rfl
  · split
    · exact stepUp_otp _ _
    · rfl

theorem mainReset_otp (s : State) : (mainReset s).otp = s.otp := rfl

theorem releaseMain_otp (s : State) : (releaseMain s).otp = s.otp := by
  unfold releaseMain
  split <;> rfl

theorem revertSlot_otp (s : State) (cls : Nat) : (revertSlot s cls).otp = s.otp := logAppend_otp _ _ _ _

theorem trialFault_otp (s : State) (cls : Nat) : (trialFault s cls).otp = s.otp := by
  unfold trialFault
  split
  · exact revertSlot_otp s cls
  · rfl

/-- The rows by which the device or its main domain is reset (R392, R480, R498, R528 to R532). -/
def resetRows : List Instr :=
  [.aonReset, .mainPgRise, .mainPgFall, .mainPgTimeout, .mainEnRetry, .porstNAssert, .porstNRelease, .bootWatchdog]

section
variable (s : State)

theorem answers_mainPgRise_otp : Answers .mainPgRise s fun t => t.otp = s.otp := by
  refine ⟨_, rfl, ?_⟩
  split
  · rfl
  · exact releaseMain_otp _

theorem answers_mainPgTimeout_otp : Answers .mainPgTimeout s fun t => t.otp = s.otp := by
  refine ⟨_, rfl, ?_⟩
  split
  · rfl
  · dsimp only
    split <;> rfl

theorem answers_porstNAssert_otp : Answers .porstNAssert s fun t => t.otp = s.otp := by
  refine ⟨_, rfl, ?_⟩
  split
  · rfl
  · split <;> rfl

theorem answers_porstNRelease_otp : Answers .porstNRelease s fun t => t.otp = s.otp := by
  refine ⟨_, rfl, ?_⟩
  split
  · rfl
  · split
    · rfl
    · exact releaseMain_otp _

theorem answers_bootWatchdog_otp : Answers .bootWatchdog s fun t => t.otp = s.otp := by
  refine ⟨_, rfl, ?_⟩
  split
  · rfl
  · rw [releaseMain_otp]
    dsimp only
    rw [mainReset_otp]
    exact foldl_keeps State.otp trialFault_otp (span 0 4) s

theorem answers_reset_otp {i : Instr} (hi : i ∈ resetRows) : Answers i s fun t => t.otp = s.otp := by
  simp only [resetRows, List.mem_cons, List.not_mem_nil, or_false] at hi
  rcases hi with rfl | rfl | rfl | rfl | rfl | rfl | rfl | rfl
  · exact ⟨_, rfl, askUp_otp _ _ _⟩
  · exact answers_mainPgRise_otp s
  · exact ⟨_, rfl, by split <;> rfl⟩
  · exact answers_mainPgTimeout_otp s
  · exact ⟨_, rfl, by split <;> rfl⟩
  · exact answers_porstNAssert_otp s
  · exact answers_porstNRelease_otp s
  · exact answers_bootWatchdog_otp s

end

/-- Settles O59: by `keeps_exec` every command lets fuses only be blown, and the claims follow from the fuses; a reset blows
none. -/
theorem theLifeCycleNeverGoesBack : Obligations.TheLifeCycleNeverGoesBack := by
  unfold Obligations.TheLifeCycleNeverGoesBack
  intro i s t h
  have hg : FusesGrow s.otp t.otp := ((keeps_exec i s).all t h).fuses
  refine ⟨lifeRank_le_of_fusesGrow hg, lifeCycle_retired_of_fusesGrow hg, fun _ => rootRevoked_of_fusesGrow hg,
    fun _ _ => rootDigest_of_fusesGrow hg, fun hs => ?_, fun hi => ?_⟩
  · exact Bool.eq_false_iff.2 fun ht => Bool.false_ne_true (hs.symm.trans (hg.secret ht))
  · obtain ⟨u, hu, ho⟩ := answers_reset_otp s hi
    obtain rfl : u = t := Host.Outcome.next.inj (hu.symm.trans h)
    exact ⟨by unfold lifeCycle; rw [ho], fun _ _ => by rw [ho]⟩

end Sys2Proof.Machine

/-! The end of a firmware trial (R513, R517) and the contents that a self-test slice leaves (R486): two claims that the model
does not meet. -/

namespace Sys2Proof.Machine

/-! ### A trial that commits -/

theorem fwOf_modFw_same (s : State) (cls : Nat) (f : Firmware → Firmware) :
    fwOf (modFw s cls f) cls = { f (fwOf s cls) with seq := ((fwOf s cls).seq + 1) % 2 ^ 32 } :=
  SMap.getD_set_same _ _ _ _

@[simp] theorem logAppend_boot (s : State) (type part : Nat) (args : List Nat) :
    (logAppend s type part args).boot = s.boot := by
  obtain ⟨l, hl⟩ := logAppend_eq s type part args
  rw [hl]

/-- R513: the metadata that a commit writes has the next sequence number. -/
theorem fwOf_commitTrial (s : State) (cls : Nat) : fwOf (commitTrial s cls) cls =
    { fwOf s cls with state := 0, autoCommit := false, seq := ((fwOf s cls).seq + 1) % 2 ^ 32 } := by
  have hb : (commitTrial s cls).boot = (modFw s cls fun v => { v with state := 0, autoCommit := false }).boot :=
    logAppend_boot _ _ _ _
  have hf : fwOf (commitTrial s cls) cls = fwOf (modFw s cls fun v => { v with state := 0, autoCommit := false }) cls := by
    unfold fwOf
    rw [hb]
  rw [hf, fwOf_modFw_same]

/-- SEC's firmware in a trial with auto-commit that began at tick 0, one minute later. -/
def trialOver : State := { State.reset with
  tick := 60 * ticksPerSecond, boot := { fw := [(0, { state := 1, autoCommit := true })] } }

theorem exec_updateAutoCommit_trialOver : exec (.updateAutoCommit 0) trialOver = .next (commitTrial trialOver 0) := rfl

/-- Refutes O47: a commit is a change of the class's metadata and takes the next sequence number (R513), which the statement
has unchanged: in `trialOver` it goes from 0 to 1. -/
theorem not_startsRunTheirStepsAndTrialsEnd : ¬ Obligations.StartsRunTheirStepsAndTrialsEnd := by
  unfold Obligations.StartsRunTheirStepsAndTrialsEnd
  intro hall
  obtain ⟨-, -, -, -, -, -, -, -, -, -, -, -, -, hcommit, -⟩ := hall {} true 0 trialOver
  obtain ⟨t, ht, hfw, -⟩ := (hcommit rfl rfl).2 (Nat.le_refl (60 * ticksPerSecond))
  obtain rfl : commitTrial trialOver 0 = t := Host.Outcome.next.inj (exec_updateAutoCommit_trialOver.symm.trans ht)
  have hseq : (1 : Nat) = 0 := congrArg Firmware.seq ((fwOf_commitTrial trialOver 0).symm.trans hfw)
  exact absurd hseq Nat.one_ne_zero

/-! ### A slice of accumulator rows -/

/-- A core as after reset but for accumulator row 0. -/
def oneRow : Core := { acc := [(0, { acc := List.replicate 128 1, ext := List.replicate 128 0 })] }

/-- Core 0 listed twice, which the canonical form of the map of cores excludes. -/
def listedTwice : State := { State.reset with cores := [(0, oneRow), (0, oneRow)] }

/-- The wiped core is as after reset, so its entry leaves the map and the second one shows. -/
theorem bistWipe_listedTwice : bistWipe listedTwice (.accQuarter 0 0) = { State.reset with cores := [(0, oneRow)] } := rfl

/-- Refutes O46: the statement asks the canonical form of a core's accumulator rows, not that of the map of cores; after the
slice of quarter 0 on `listedTwice` row 0 still reads what it did. -/
theorem not_selfTestSlicesRunOrAreDeferred : ¬ Obligations.SelfTestSlicesRunOrAreDeferred := by
  unfold Obligations.SelfTestSlicesRunOrAreDeferred
  intro hall
  obtain ⟨-, -, -, -, -, -, -, -, hacc, -⟩ := hall (.accQuarter 0 0) 760 true listedTwice
  have hdead := (hacc 0 0 rfl rfl 0).1 ⟨rfl, rfl⟩
  rw [bistWipe_listedTwice] at hdead
  exact absurd hdead (Option.some_ne_none _)

end Sys2Proof.Machine

/-! Recording (R394 to R403, R416): who writes the AON registers, when a run is accepted, and the frame that goes into the
ring. -/

namespace Sys2Proof.Machine

/-! ### Who reaches the AON registers (R19, R416) -/

theorem reaches_aonRegs_iff (by_ : Req) (wr : Bool) : reaches by_ wr .aonRegs = true ↔ isKeeper by_ = true ∨ by_ = .dsp := by
  cases by_ <;> simp [reaches, isKeeper]

theorem ne_dsp_of_keeper {by_ : Req} (h : isKeeper by_ = true) : by_ ≠ .dsp := by
  rintro rfl
  cases h

section
variable {by_ : Req} {s : State}

theorem aonWrite_of_keeper (h : isKeeper by_ = true) (dsp : Bool) (f : State → State) :
    aonWrite s by_ true dsp f = busOk (f s) := by
  have hr : reaches by_ true .aonRegs = true := (reaches_aonRegs_iff by_ true).2 (.inl h)
  simp [aonWrite, hr, ne_dsp_of_keeper h]

theorem aonWrite_of_dsp (keeper : Bool) (f : State → State) : aonWrite s .dsp keeper false f = busOk s := rfl

theorem aonWrite_of_both (h : isKeeper by_ = true ∨ by_ = .dsp) (f : State → State) :
    aonWrite s by_ true true f = busOk (f s) := by
  have hr : reaches by_ true .aonRegs = true := (reaches_aonRegs_iff by_ true).2 h
  simp [aonWrite, hr]

theorem aonWrite_of_other (hk : isKeeper by_ = false) (hd : by_ ≠ .dsp) (keeper dsp : Bool) (f : State → State) :
    aonWrite s by_ keeper dsp f = busError s := by
  have hr : ¬ reaches by_ true .aonRegs = true := by simp [reaches_aonRegs_iff, hk, hd]
  simp [aonWrite, hr]

theorem execAonPosLowRead_of_other (hk : isKeeper by_ = false) (hd : by_ ≠ .dsp) (k : Fin 7) :
    execAonPosLowRead by_ k s = .next (busError s) := by
  have hr : ¬ reaches by_ false .aonRegs = true := by simp [reaches_aonRegs_iff, hk, hd]
  simp [execAonPosLowRead, hr]

theorem execAonPosLowRead_of_reached (h : isKeeper by_ = true ∨ by_ = .dsp) (k : Fin 7) : execAonPosLowRead by_ k s =
    .next (busData (onAon s fun a => { a with hi := SMap.put a.hi k.val (word (aonLong s.aon k.val / 2 ^ 32)) 0 })
      (word (aonLong s.aon k.val))) := by
  have hr : reaches by_ false .aonRegs = true := (reaches_aonRegs_iff by_ false).2 h
  simp [execAonPosLowRead, hr]

end

/-! ### Starting and stopping (R402) -/

theorem runOk_iff (a : Aon) : runOk a = true ↔ clocksOk a = true ∧
    bits a.ringSize.toNat 10 0 + bits a.ringSize.toNat 26 16 ≤ 1536 ∧ 0 < frameBytes a ∧
    8 * outRate a ≤ bits a.ringSize.toNat 26 16 * 4096 / frameBytes a := by
  simp only [runOk, Bool.and_eq_true, decide_eq_true_eq, and_assoc]
  rfl

section
variable {s : State}

theorem runStart_of_running (h : s.aon.run = true) : runStart s = s := if_pos h

theorem runStart_of_good (h : s.aon.run = false) (ho : runOk s.aon = true) :
    runStart s = onAon s fun a => { a with run := true, runPos := a.pos } := by
  simp [runStart, h, ho]

theorem runStart_of_bad (h : s.aon.run = false) (ho : runOk s.aon = false) :
    runStart s = onAon s fun a => { a with ringCfgErr := true } := by
  simp [runStart, h, ho]

theorem writeTrims_of_none_due (h : s.aon.trimDue = []) : writeTrims s = s := by
  have hs : (onAon s fun a => { a with trimDue := [] }) = s := by
    unfold onAon
    rw [← h]
  simp only [writeTrims, h, List.foldl_nil, hs]

/-! ### Configuration (R400) -/

theorem onAon_congr {f g : Aon → Aon} (h : f s.aon = g s.aon) : onAon s f = onAon s g :=
  congrArg (fun a => { s with aon := a }) h

theorem aonConfigWrite_of_running (h : s.aon.run = true) (reg : AonReg) (v : Word) :
    aonConfigWrite s reg v = onAon s fun a => { a with cfgWhileBusy := true } :=
  onAon_congr (if_pos h)

theorem aonConfigWrite_of_stopped (h : s.aon.run = false) (reg : AonReg) (v : Word) :
    aonConfigWrite s reg v = onAon s fun a => aonConfig a reg v :=
  onAon_congr (if_neg (Bool.eq_false_iff.1 h))

/-! ### The DSP's reset (R394) -/

theorem dspReset_of_candidate (h : s.aon.candOpen = true) (v : Bool) :
    dspReset s v = onAon s fun a => { a with cfgWhileBusy := true } := if_pos h

theorem dspReset_of_no_candidate (h : s.aon.candOpen = false) (v : Bool) :
    dspReset s v = onAon (if v then clearDspSram s else s) fun a => { a with dspReset := v } := by
  simp [dspReset, h]

end

theorem SMap.get?_filter {α : Type} {f : Nat × α → Bool} {g : Nat → Bool} (hf : ∀ e, f e = g e.1) (k : Nat) :
    ∀ {m : SMap α} {lo : Nat}, SMap.sortedFrom lo m = true →
      SMap.get? (m.filter f) k = if g k then SMap.get? m k else none
  | [], _, _ => by simp [SMap.get?]
  | (j, v) :: r, lo, hs => by
    simp only [SMap.sortedFrom, Bool.and_eq_true, decide_eq_true_eq] at hs
    have ih := SMap.get?_filter hf k hs.2
    by_cases hj : g j = true
    · rw [List.filter_cons_of_pos (by rw [hf]; exact hj)]
      by_cases hk : k = j
      · simp [SMap.get?, hk, hj]
      · simp only [SMap.get?, if_neg hk, ih]
        split <;> simp
    · rw [List.filter_cons_of_neg (by rw [hf]; exact hj), ih]
      by_cases hk : k = j
      · simp [hk, hj]
      · simp only [SMap.get?, if_neg hk]
        by_cases hlt : k < j
        · simp [hlt, SMap.get?_below hs.2 (Nat.lt_succ_of_lt hlt)]
        · rw [if_neg hlt]

theorem Memory.read_clear {m : Memory} (h : Memory.wf m = true) (lo hi x : Nat) :
    Memory.read (Memory.clear m lo hi) x = if lo ≤ x ∧ x < hi then 0 else Memory.read m x := by
  have hg := SMap.get?_filter (g := fun k => !(decide (lo ≤ k) && decide (k < hi))) (f := fun c : Host.Cell =>
    !(decide (lo ≤ c.1) && decide (c.1 < hi))) (fun _ => rfl) x (Memory.wf_iff.1 h).1
  unfold Memory.read SMap.getD
  rw [Memory.clear, hg]
  by_cases hx : lo ≤ x ∧ x < hi
  · simp [hx, unlistedByte]
  · rw [if_neg hx, if_pos (by rwa [← Bool.decide_and, Bool.not_eq_true', decide_eq_false_iff_not])]

/-! ### The frame (R397, R401) -/

theorem length_channels (a : Aon) : (channels a).length = popcount 16 (chMask a) := rfl

@[simp] theorem length_sampleOf (a : Aon) (y : Int) : (sampleOf a y).length = sampleBytes a := by
  unfold sampleOf sampleBytes
  split <;> simp

theorem sampleOf_zero (a : Aon) : ∀ b ∈ sampleOf a 0, b = 0 := by
  unfold sampleOf
  split <;> decide

@[simp] theorem length_span (lo n : Nat) : (span lo n).length = n := by simp [span_eq_range']

theorem length_frameOf (a : Aon) (samples : List Int) : (frameOf a samples).length = frameBytes a := by
  simp [frameOf, frameBytes, List.length_flatten, List.map_map, Function.comp_def, length_channels]

theorem frameOf_of_warmup {a : Aon} (h : a.pos < a.runPos + 64) (samples : List Int) : ∀ b ∈ frameOf a samples, b = 0 := by
  intro b hb
  have hz (y : Int) : (if a.pos < a.runPos + warmupSamples then 0 else y) = 0 := if_pos h
  simp only [frameOf, hz, List.mem_flatten, List.mem_map] at hb
  obtain ⟨_, ⟨_, _, rfl⟩, hb⟩ := hb
  exact sampleOf_zero a b hb

/-- The frame at the ring position lies inside the ring. -/
theorem frame_inside {a : Aon} (h : 0 < ringFrames a) : a.pos % ringFrames a * frameBytes a + frameBytes a ≤ ringLen a :=
  calc a.pos % ringFrames a * frameBytes a + frameBytes a
      = (a.pos % ringFrames a + 1) * frameBytes a := (Nat.succ_mul _ _).symm
    _ ≤ ringFrames a * frameBytes a := Nat.mul_le_mul_right _ (Nat.mod_lt _ h)
    _ ≤ ringLen a := Nat.div_mul_le_self _ _

/-! ### The rows -/

section
variable {by_ : Req} {s : State}

theorem answers_dspResetAssert (hk : isKeeper by_ = true) (hc : s.aon.candOpen = false) :
    Answers (.dspResetAssert by_) s fun t =>
      t = { s with aon := { s.aon with dspReset := true }, mem := t.mem, resp := .ok } ∧
      (Memory.wf s.mem = true → ∀ x, Memory.read t.mem x = if (aonSramBase ≤ x ∧ x < aonSramBase + ringBase s.aon) ∨
        (aonSramBase + ringBase s.aon + ringLen s.aon ≤ x ∧ x < aonSramBase + aonSramSize) then 0
        else Memory.read s.mem x) := by
  refine ⟨busOk (onAon (clearDspSram s) fun a => { a with dspReset := true }), ?_, rfl, fun hw x => ?_⟩
  · simp only [exec_dspResetAssert, execDspResetAssert, aonWrite_of_keeper hk, dspReset_of_no_candidate hc, if_true]
  · simp only [busOk_mem, onAon_mem, clearDspSram, Memory.read_clear (Memory.wf_clear hw _ _), Memory.read_clear hw]
    by_cases h1 : aonSramBase + ringBase s.aon + ringLen s.aon ≤ x ∧ x < aonSramBase + aonSramSize
    · rw [if_pos h1, if_pos (.inr h1)]
    · simp only [h1, or_false, if_false]

theorem exec_ringFrameRecord_of_running (h : s.aon.run = true) (samples : List Int) : exec (.ringFrameRecord samples) s =
    .next { s with
      mem := Memory.writeBytes s.mem (aonSramBase + ringBase s.aon + (s.aon.pos % ringFrames s.aon) * frameBytes s.aon)
        (frameOf s.aon samples)
      aon := { s.aon with pos := (s.aon.pos + 1) % 2 ^ 64 } } := by
  simp only [exec_ringFrameRecord, execRingFrameRecord, h, Bool.not_true, Bool.false_eq_true, if_false]

theorem exec_ringFrameRecord_of_stopped (h : s.aon.run = false) (samples : List Int) :
    exec (.ringFrameRecord samples) s = .next s := by
  simp only [exec_ringFrameRecord, execRingFrameRecord, h, Bool.not_false, if_true]

end

/-- Settles O40: `aonWrite` decides by the requester; a run, a reset of the DSP and a configuration write act by the state of
the recording, and a frame has the bytes of its channels and stays inside the ring. -/
theorem recordingWritesTheRingInOrder : Obligations.RecordingWritesTheRingInOrder := by
  unfold Obligations.RecordingWritesTheRingInOrder
  intro by_ samples reg v k s
  refine ⟨runOk_iff _, fun hk => ⟨fun hr => ?_, fun hr ho => ?_, fun hr ho => ?_, ?_, fun hd => writeTrims_of_none_due hd,
    fun hc => ⟨?_, ?_⟩, fun hc => ⟨?_, answers_dspResetAssert hk hc⟩⟩, ?_, fun hb => ⟨?_, fun hr => ?_, fun hr => ?_, ?_⟩,
    fun hk hd => ?_, fun hr => exec_ringFrameRecord_of_stopped hr samples, fun hr =>
    ⟨exec_ringFrameRecord_of_running hr samples, length_frameOf _ _, fun hw => frameOf_of_warmup hw samples, fun hf => ?_⟩⟩
  · simp only [exec_aonRunStart, execAonRunStart, aonWrite_of_keeper hk, runStart_of_running hr]
    rfl
  · simp only [exec_aonRunStart, execAonRunStart, aonWrite_of_keeper hk, runStart_of_good hr ho]
    rfl
  · simp only [exec_aonRunStart, execAonRunStart, aonWrite_of_keeper hk, runStart_of_bad hr ho]
    rfl
  · simp only [exec_aonRunStop, execAonRunStop, aonWrite_of_keeper hk]
    rfl
  · simp only [exec_dspResetAssert, execDspResetAssert, aonWrite_of_keeper hk, dspReset_of_candidate hc]
    rfl
  · simp only [exec_dspResetRelease, execDspResetRelease, aonWrite_of_keeper hk, dspReset_of_candidate hc]
    rfl
  · simp only [exec_dspResetRelease, execDspResetRelease, aonWrite_of_keeper hk, dspReset_of_no_candidate hc]
    rfl
  · rintro rfl
    simp only [List.forall_mem_cons, exec_aonRunStart, execAonRunStart, exec_aonRunStop, execAonRunStop,
      exec_dspResetAssert, execDspResetAssert, exec_dspResetRelease, execDspResetRelease, aonWrite_of_dsp]
    exact ⟨rfl, rfl, rfl, rfl, fun _ h => absurd h List.not_mem_nil⟩
  · simp only [exec_aonLatch, execAonLatch, aonWrite_of_both hb]
    rfl
  · simp only [exec_aonConfigWrite, execAonConfigWrite, aonWrite_of_both hb, aonConfigWrite_of_running hr]
    rfl
  · refine ⟨aonConfig s.aon reg v, ?_, ?_, ?_, ?_, ?_, ?_⟩
    · simp only [exec_aonConfigWrite, execAonConfigWrite, aonWrite_of_both hb, aonConfigWrite_of_stopped hr]
      rfl
    all_goals
      intros
      subst reg
      rfl
  · simp only [exec_aonPosLowRead, execAonPosLowRead_of_reached hb]
    rfl
  · simp only [List.forall_mem_cons, exec_aonRunStart, execAonRunStart, exec_aonRunStop, execAonRunStop, exec_aonLatch,
      execAonLatch, exec_dspResetAssert, execDspResetAssert, exec_dspResetRelease, execDspResetRelease, exec_aonConfigWrite,
      execAonConfigWrite, exec_aonPosLowRead, aonWrite_of_other hk hd, execAonPosLowRead_of_other hk hd]
    exact ⟨rfl, rfl, rfl, rfl, rfl, rfl, rfl, fun _ h => absurd h List.not_mem_nil⟩
  · rw [length_frameOf, Nat.add_assoc]
    exact Nat.add_le_add_left (frame_inside hf) _

end Sys2Proof.Machine

/-! Camera contexts, ports and buffers (R424, R429 to R433, R436, R437): what a change of a context or a port leaves, what the
end of a frame stores, the boundary of a context, and the register writes. -/

namespace Sys2Proof.Machine

/-! ### Contexts and ports -/

section
variable {s t : State} {x y p q : Nat}

theorem ctxOf_congr (h : t.cam.ctxs = s.cam.ctxs) (y : Nat) : ctxOf t y = ctxOf s y := by
  unfold ctxOf
  rw [h]

@[simp] theorem ctxOf_modCtx_same (s : State) (x : Nat) (f : CamCtx → CamCtx) : ctxOf (modCtx s x f) x = f (ctxOf s x) :=
  SMap.getD_set_same _ _ _ _

theorem ctxOf_modCtx_other (f : CamCtx → CamCtx) (h : y ≠ x) : ctxOf (modCtx s x f) y = ctxOf s y :=
  SMap.getD_set_other _ _ _ h

@[simp] theorem camPort_modCamPort_same (s : State) (p : Nat) (f : CamPort → CamPort) :
    camPort (modCamPort s p f) p = f (camPort s p) :=
  SMap.getD_set_same _ _ _ _

theorem camPort_modCamPort_other (f : CamPort → CamPort) (h : q ≠ p) : camPort (modCamPort s p f) q = camPort s q :=
  SMap.getD_set_other _ _ _ h

@[simp] theorem modCtx_tick (s : State) (x : Nat) (f : CamCtx → CamCtx) : (modCtx s x f).tick = s.tick := rfl

@[simp] theorem modCtx_mem (s : State) (x : Nat) (f : CamCtx → CamCtx) : (modCtx s x f).mem = s.mem := rfl

@[simp] theorem writeMem_tick (s : State) (a : Nat) (bs : List Byte) : (writeMem s a bs).tick = s.tick := rfl

@[simp] theorem writeMem_mem (s : State) (a : Nat) (bs : List Byte) :
    (writeMem s a bs).mem = Memory.writeBytes s.mem a bs := rfl

@[simp] theorem writeMem_cam (s : State) (a : Nat) (bs : List Byte) : (writeMem s a bs).cam = s.cam := rfl

@[simp] theorem ctxOf_busOk (s : State) (x : Nat) : ctxOf (busOk s) x = ctxOf s x := rfl

@[simp] theorem camPort_busOk (s : State) (p : Nat) : camPort (busOk s) p = camPort s p := rfl

end

/-! ### What the ISP stores (R428, R429, R431) -/

/-- t is s but for memory, which keeps its canonical form, poison and the free values used. -/
structure Stores (s t : State) : Prop where
  fields : t = { s with mem := t.mem, poison := t.poison, freeCtr := t.freeCtr }
  wf : Memory.wf s.mem = true → Memory.wf t.mem = true

namespace Stores
variable {s t u : State}

theorem refl (s : State) : Stores s s := ⟨rfl, id⟩

theorem trans (h1 : Stores s t) (h2 : Stores t u) : Stores s u := by
  refine ⟨?_, h2.wf ∘ h1.wf⟩
  have h := h2.fields
  rw [h1.fields] at h
  exact h

theorem cam (h : Stores s t) : t.cam = s.cam := by rw [h.fields]

theorem tick (h : Stores s t) : t.tick = s.tick := by rw [h.fields]

theorem foldl {α : Type} {f : State → α → State} (hf : ∀ s a, Stores s (f s a)) :
    ∀ (l : List α) (s : State), Stores s (l.foldl f s)
  | [], s => refl s
  | a :: r, s => (hf s a).trans (foldl hf r (f s a))

end Stores

theorem stores_writeMem (s : State) (a : Nat) (bs : List Byte) : Stores s (writeMem s a bs) :=
  ⟨rfl, fun h => Memory.wf_writeBytes h a bs⟩

theorem stores_nextFree (s : State) : Stores s (nextFree s) := ⟨rfl, id⟩

theorem stores_writeTile (s : State) (a tag : Nat) (payload : List Byte) (format origin originId index : Nat) :
    Stores s (writeTile s a tag payload format origin originId index) :=
  (stores_writeMem _ _ _).trans (stores_writeMem _ _ _)

theorem stores_writeLines (s : State) (w : SMap Word) (f : CamFrame) (a b : Nat) : Stores s (writeLines s w f a b) :=
  Stores.foldl (fun s _ => stores_writeMem s _ _) _ s

/-! ### The end of a frame (R431) -/

section
variable {s : State} {x : Nat}

theorem endFrame_of_none (cause st : Nat) (h : (ctxOf s x).frame = none) : endFrame s x cause st = s := by
  simp only [endFrame, h]

/-- The record of an ended frame. -/
def endRecord (s : State) (x cause : Nat) (f : CamFrame) : List Byte :=
  camRecord s x (ctxOf s x) f cause (validLines (ctxOf s x).win f.lines.length)

/-- The address of an ended frame's record. -/
def recordAddr (s : State) (x : Nat) (f : CamFrame) : Nat := pfield (ctxOf s x).win 0x78 8 + 32 * f.buf

/-- A context after the end of frame f. -/
def endedCtx (c : CamCtx) (f : CamFrame) (st : Nat) : CamCtx := { c with frame := none, st := st, ended := c.ended ++ [f.buf] }

/-- Lines, tags and flags are stored first, the record after them; then the context ends its frame. -/
theorem endFrame_of_some {f : CamFrame} (cause st : Nat) (h : (ctxOf s x).frame = some f) : ∃ u, Stores s u ∧
    endFrame s x cause st =
      modCtx (writeMem u (recordAddr s x f) (endRecord s x cause f)) x fun c => endedCtx c f st := by
  simp only [endFrame, h]
  refine ⟨_, ?_, rfl⟩
  refine Stores.trans ?_ (stores_writeTile _ _ _ _ _ _ _ _)
  refine Stores.trans ?_ (Stores.foldl (fun s _ => stores_writeMem s _ _) _ _)
  exact ((stores_writeLines s _ f _ _).trans (stores_nextFree _)).trans (stores_writeMem _ _ _)

theorem ctxOf_endFrame_same {f : CamFrame} (cause st : Nat) (h : (ctxOf s x).frame = some f) :
    ctxOf (endFrame s x cause st) x = endedCtx (ctxOf s x) f st := by
  obtain ⟨u, hu, he⟩ := endFrame_of_some cause st h
  have hc : (writeMem u (recordAddr s x f) (endRecord s x cause f)).cam = s.cam := (writeMem_cam _ _ _).trans hu.cam
  rw [he, ctxOf_modCtx_same, ctxOf_congr (congrArg Cam.ctxs hc)]

theorem ctxOf_endFrame_other {y : Nat} (cause st : Nat) (h : y ≠ x) : ctxOf (endFrame s x cause st) y = ctxOf s y := by
  cases hf : (ctxOf s x).frame with
  | none => rw [endFrame_of_none cause st hf]
  | some f =>
    obtain ⟨u, hu, he⟩ := endFrame_of_some cause st hf
    have hc : (writeMem u (recordAddr s x f) (endRecord s x cause f)).cam = s.cam := (writeMem_cam _ _ _).trans hu.cam
    rw [he, ctxOf_modCtx_other _ h, ctxOf_congr (congrArg Cam.ctxs hc)]

theorem frame_endFrame (cause st : Nat) : (ctxOf (endFrame s x cause st) x).frame = none := by
  cases hf : (ctxOf s x).frame with
  | none => rw [endFrame_of_none cause st hf, hf]
  | some f => rw [ctxOf_endFrame_same cause st hf]; rfl

end

/-! ### The boundary of a context (R433) -/

section
variable {s : State} {x : Nat}

theorem camBoundary_of_kept (h : (ctxOf s x).hold = true ∨ (ctxOf s x).shadow = (ctxOf s x).win) : camBoundary s x = s := by
  simp [camBoundary, h]

section
variable (hh : (ctxOf s x).hold = false) (hs : (ctxOf s x).shadow ≠ (ctxOf s x).win)
include hh hs

theorem camBoundary_of_good (hr : rangesOk (ctxOf s x).shadow = true)
    (ha : addressesOk s (ctxOf s x).part (ctxOf s x).shadow = true) :
    camBoundary s x = modCtx s x fun c => { c with win := c.shadow } := by
  simp [camBoundary, hh, hs, hr, ha]

theorem camBoundary_of_bad (h : rangesOk (ctxOf s x).shadow = false ∨
      addressesOk s (ctxOf s x).part (ctxOf s x).shadow = false) :
    camBoundary s x = onCam s fun b => { b with cfgErr := true } := by
  have hb : ¬ (rangesOk (ctxOf s x).shadow && addressesOk s (ctxOf s x).part (ctxOf s x).shadow) = true := by
    rcases h with h | h <;> simp [h]
  simp [camBoundary, hh, hs, hb]

end

/-- A boundary changes nothing, the window of its context, or the error bit. -/
theorem camBoundary_cases (s : State) (x : Nat) : camBoundary s x = s ∨
    camBoundary s x = modCtx s x (fun c => { c with win := c.shadow }) ∨
    camBoundary s x = onCam s fun b => { b with cfgErr := true } := by
  unfold camBoundary
  dsimp only
  split
  · exact .inl rfl
  · split
    · exact .inr (.inl rfl)
    · exact .inr (.inr rfl)

/-- Only the window of the context can differ after its boundary. -/
theorem ctxOf_camBoundary (s : State) (x : Nat) :
    ctxOf (camBoundary s x) x = { ctxOf s x with win := (ctxOf (camBoundary s x) x).win } := by
  rcases camBoundary_cases s x with h | h | h
  · rw [h]
  · rw [h, ctxOf_modCtx_same]
  · rw [h]
    rfl

theorem lowRate_camBoundary (s : State) (x : Nat) : (camBoundary s x).cam.lowRate = s.cam.lowRate := by
  rcases camBoundary_cases s x with h | h | h <;> rw [h] <;> rfl

theorem own_camBoundary (s : State) (x : Nat) : (camBoundary s x).own = s.own := by
  rcases camBoundary_cases s x with h | h | h <;> rw [h] <;> rfl

end

/-! ### Buffers (R430) -/

/-- The mask that `maskOf` builds from bit lo on, above the bits already there. -/
theorem testBit_foldl_mask (f : Nat → Bool) {k : Nat} : ∀ (n lo acc : Nat), acc < 2 ^ lo →
    ((span lo n).foldl (fun acc j => if f j then acc + 2 ^ j else acc) acc).testBit k =
      if k < lo then acc.testBit k else decide (k < lo + n) && f k
  | 0, lo, acc, h => by
    by_cases hk : k < lo
    · simp [span, hk]
    · have hlt : acc < 2 ^ k := Nat.lt_of_lt_of_le h (Nat.pow_le_pow_right (by decide) (by omega))
      have hb : acc.testBit k = false := Nat.testBit_lt_two_pow hlt
      simp [span, hk, hb]
  | n + 1, lo, acc, h => by
    have hp : 2 ^ (lo + 1) = 2 ^ lo + 2 ^ lo := Nat.two_pow_succ lo
    have hacc : (if f lo then acc + 2 ^ lo else acc) < 2 ^ (lo + 1) := by split <;> omega
    rw [span, List.foldl_cons, testBit_foldl_mask f n (lo + 1) _ hacc]
    rcases Nat.lt_trichotomy k lo with hk | rfl | hk
    · rw [if_pos (by omega), if_pos hk]
      split
      · rw [Nat.add_comm, Nat.testBit_two_pow_add_gt hk]
      · rfl
    · rw [if_pos (Nat.lt_succ_self k), if_neg (Nat.lt_irrefl k)]
      split
      · next hf => simp [Nat.add_comm acc, Nat.testBit_two_pow_add_eq, Nat.testBit_lt_two_pow h, hf]
      · next hf => simp [Nat.testBit_lt_two_pow h, hf]
    · rw [if_neg (by omega), if_neg (by omega), Nat.add_right_comm, Nat.add_assoc]

theorem bitOf_maskOf {n k : Nat} (f : Nat → Bool) (h : k < n) : bitOf (maskOf n f) k = f k := by
  have hm := testBit_foldl_mask f (k := k) n 0 0 Nat.one_pos
  rw [if_neg (Nat.not_lt_zero k), Nat.zero_add] at hm
  simpa [bitOf, maskOf, h] using hm

/-! ### Register writes: Keeper alone (R19) -/

theorem reaches_camRegs (by_ : Req) : reaches by_ true .camRegs = isKeeper by_ := by
  cases by_ <;> rfl

section
variable {by_ : Req} {s : State}

theorem mayWrite_camRegs_of_keeper (f : State → State) (h : isKeeper by_ = true) : mayWrite s by_ .camRegs f = busOk (f s) :=
  if_pos ((reaches_camRegs by_).trans h)

theorem mayWrite_camRegs_of_other (f : State → State) (h : isKeeper by_ = false) : mayWrite s by_ .camRegs f = busError s :=
  if_neg (by rw [reaches_camRegs, h]; exact Bool.false_ne_true)

variable (hk : isKeeper by_ = true)
include hk

theorem exec_camBufferRelease_of_keeper (ctx : Fin 16) (mask : BitVec 16) :
    exec (.camBufferRelease by_ ctx mask) s = .next (busOk (bufRelease s ctx.val mask)) :=
  congrArg _ (mayWrite_camRegs_of_keeper _ hk)

theorem exec_camContextEnable_true (ctx : Fin 16) :
    exec (.camContextEnable by_ ctx true) s = .next (busOk (camEnable s ctx.val)) :=
  congrArg _ (mayWrite_camRegs_of_keeper _ hk)

theorem exec_camContextEnable_false (ctx : Fin 16) :
    exec (.camContextEnable by_ ctx false) s = .next (busOk (camDisable s ctx.val)) :=
  congrArg _ (mayWrite_camRegs_of_keeper _ hk)

theorem exec_camParamHold_of_keeper (ctx : Fin 16) (v : Bool) :
    exec (.camParamHold by_ ctx v) s = .next (busOk (modCtx s ctx.val fun c => { c with hold := v })) :=
  congrArg _ (mayWrite_camRegs_of_keeper _ hk)

theorem exec_camLowRate_of_keeper (v : Bool) : exec (.camLowRate by_ v) s = .next (busOk (setLowRate s v)) :=
  congrArg _ (mayWrite_camRegs_of_keeper _ hk)

theorem exec_camPortEnable_of_keeper (port : Fin 4) (v : Bool) :
    exec (.camPortEnable by_ port v) s = .next (busOk (camPortEnable s port.val v)) :=
  congrArg _ (mayWrite_camRegs_of_keeper _ hk)

end

/-! ### Enables (R424, R429, R433, R436, R437) -/

section
variable {s : State} {x p : Nat}

/-- R429, R433: context x, past its boundary, has good parameters and addresses, and its port's owner is its partition. -/
def CtxGood (s : State) (x : Nat) : Prop :=
  rangesOk (ctxOf (camBoundary s x) x).win = true ∧
  addressesOk (camBoundary s x) (ctxOf s x).part (ctxOf (camBoundary s x) x).win = true ∧
  SMap.getD s.own.cam (pfield (ctxOf (camBoundary s x) x).win 4 1) 0 = (ctxOf s x).part

theorem en_camBoundary (s : State) (x : Nat) : (ctxOf (camBoundary s x) x).en = (ctxOf s x).en := by
  rw [ctxOf_camBoundary]

theorem part_camBoundary (s : State) (x : Nat) : (ctxOf (camBoundary s x) x).part = (ctxOf s x).part := by
  rw [ctxOf_camBoundary]

theorem camEnable_of_enabled (h : (ctxOf s x).en = true) : camEnable s x = s := if_pos ((en_camBoundary s x).trans h)

section
variable (he : (ctxOf s x).en = false)
include he

theorem camEnable_of_good (hl : s.cam.lowRate = false ∨ (ctxsEnabled (camBoundary s x)).length < 4) (hg : CtxGood s x) :
    camEnable s x = modCtx (camBoundary s x) x fun c => { c with en := true, st := 1, seq := 0, skip := 0 } := by
  obtain ⟨hr, ha, ho⟩ := hg
  have hlow : (s.cam.lowRate && decide (4 ≤ (ctxsEnabled (camBoundary s x)).length)) = false := by
    rcases hl with hl | hl
    · simp [hl]
    · simp [Nat.not_le.2 hl]
  simp only [camEnable, en_camBoundary, part_camBoundary, he, lowRate_camBoundary, own_camBoundary, hlow, hr, ha, ho,
    bne_self_eq_false, Bool.not_true, Bool.or_self, Bool.false_eq_true, if_false]

theorem camEnable_of_bad (h : (s.cam.lowRate = true ∧ 4 ≤ (ctxsEnabled (camBoundary s x)).length) ∨ ¬ CtxGood s x) :
    camEnable s x = onCam (camBoundary s x) fun b => { b with cfgErr := true } := by
  have hbad : (s.cam.lowRate && decide (4 ≤ (ctxsEnabled (camBoundary s x)).length) || !rangesOk (ctxOf (camBoundary s x) x).win
      || !addressesOk (camBoundary s x) (ctxOf s x).part (ctxOf (camBoundary s x) x).win
      || SMap.getD s.own.cam (pfield (ctxOf (camBoundary s x) x).win 4 1) 0 != (ctxOf s x).part) = true := by
    simp only [Bool.or_eq_true, Bool.and_eq_true, decide_eq_true_eq, Bool.not_eq_true', bne_iff_ne]
    by_contra hn
    simp only [not_or, Bool.not_eq_false, not_not] at hn
    obtain ⟨⟨⟨hn, hr⟩, ha⟩, ho⟩ := hn
    exact h.elim hn fun hg => hg ⟨hr, ha, ho⟩
  simp only [camEnable, en_camBoundary, part_camBoundary, he, lowRate_camBoundary, own_camBoundary, hbad, if_true,
    Bool.false_eq_true, if_false]

end

theorem ctxOf_camDisable_same (s : State) (x : Nat) :
    ctxOf (camDisable s x) x = { ctxOf (endFrame s x 4 0) x with en := false, st := 0 } := ctxOf_modCtx_same _ _ _

theorem ctxOf_camDisable_other {y : Nat} (h : y ≠ x) : ctxOf (camDisable s x) y = ctxOf s y :=
  (ctxOf_modCtx_other _ h).trans (ctxOf_endFrame_other 4 0 h)

theorem setLowRate_of_allowed {v : Bool} (h : v = false ∨ s.cam.lowRate = true ∨ (ctxsEnabled s).length ≤ 4) :
    setLowRate s v = onCam s fun c => { c with lowRate := v } := by
  refine if_neg ?_
  simp only [Bool.and_eq_true, Bool.not_eq_true', decide_eq_true_eq]
  rintro ⟨⟨rfl, hl⟩, hn⟩
  rcases h with h | h | h
  · cases h
  · exact Bool.false_ne_true (hl.symm.trans h)
  · omega

theorem setLowRate_of_refused (hl : s.cam.lowRate = false) (hn : 4 < (ctxsEnabled s).length) :
    setLowRate s true = onCam s fun c => { c with cfgErr := true } := by
  simp [setLowRate, hl, hn]

theorem camPortEnable_false (s : State) (p : Nat) :
    camPortEnable s p false = modCamPort s p fun x => { x with en := false, state := 0, lanesOk := 0 } := rfl

theorem camPortEnable_of_enabled (h : (camPort s p).en = true) : camPortEnable s p true = s := by
  simp [camPortEnable, h]

theorem camPortEnable_of_disabled (h : (camPort s p).en = false) : camPortEnable s p true =
    modCamPort (rboundary s (camPortCfg p)) p fun x => { x with en := true, state := 1, lanesOk := 0, sync := true } := by
  simp [camPortEnable, h]

end

/-! ### What the rows leave -/

section
variable {by_ : Req} {s : State} {ctx : Fin 16} {port : Fin 4}

theorem execCamFrameTimeout_of_none (h : (ctxOf s ctx.val).frame = none) : execCamFrameTimeout ctx s = .next s := by
  simp only [execCamFrameTimeout, h]

theorem execCamFrameTimeout_of_some {f : CamFrame} (h : (ctxOf s ctx.val).frame = some f) : execCamFrameTimeout ctx s =
    .next (if f.tickFs + pfield (ctxOf s ctx.val).win 0x58 4 * ticksPerUs ≤ s.tick then endFrame s ctx.val 3 3 else s) := by
  simp only [execCamFrameTimeout, h]

theorem execCamFrameDone_of_nil (h : (ctxOf s ctx.val).ended = []) : execCamFrameDone ctx s = .next s := by
  simp only [execCamFrameDone, h]

/-- The oldest ended frame of context x is acknowledged; r are the others. -/
def frameAcked (s : State) (x : Nat) (r : List Nat) : State :=
  { onCam (modCtx s x fun c => { c with ended := r, seq := (c.seq + 1) % 2 ^ 32 }) fun c =>
      { c with frameDone := setBits c.frameDone x x 1 } with
    irqs := (if s.cam.irq then [.camera] else []) ++ s.irqs }

theorem ctxOf_frameAcked (s : State) (x y : Nat) (r : List Nat) : ctxOf (frameAcked s x r) y =
    ctxOf (modCtx s x fun c => { c with ended := r, seq := (c.seq + 1) % 2 ^ 32 }) y := rfl

theorem execCamFrameDone_of_cons {k : Nat} {r : List Nat} (h : (ctxOf s ctx.val).ended = k :: r) :
    execCamFrameDone ctx s = .next (frameAcked s ctx.val r) := by
  simp only [execCamFrameDone, h, frameAcked]
  split <;> rfl

theorem answers_camBufferRelease (hk : isKeeper by_ = true) (mask : BitVec 16) :
    Answers (.camBufferRelease by_ ctx mask) s fun t =>
      ctxOf t ctx.val = { ctxOf s ctx.val with free := (ctxOf t ctx.val).free } ∧
      (∀ k < 16, bitOf (ctxOf t ctx.val).free k = true ↔
        bitOf (ctxOf s ctx.val).free k = true ∨ (mask.getLsbD k = true ∧ bufBusy (ctxOf s ctx.val) k = false)) ∧
      ∀ y, y ≠ ctx.val → ctxOf t y = ctxOf s y := by
  refine ⟨_, exec_camBufferRelease_of_keeper hk ctx mask, ?_⟩
  have hx : ctxOf (bufRelease s ctx.val mask) ctx.val = { ctxOf s ctx.val with
      free := maskOf 16 fun k => bitOf (ctxOf s ctx.val).free k || (mask.getLsbD k && !bufBusy (ctxOf s ctx.val) k) } :=
    ctxOf_modCtx_same _ _ _
  simp only [ctxOf_busOk]
  refine ⟨by rw [hx], fun k hlt => ?_, fun y hy => ctxOf_modCtx_other _ hy⟩
  rw [hx, bitOf_maskOf _ hlt]
  simp

theorem answers_camDisable (hk : isKeeper by_ = true) : Answers (.camContextEnable by_ ctx false) s fun t =>
    (ctxOf t ctx.val).en = false ∧ (ctxOf t ctx.val).st = 0 ∧ (ctxOf t ctx.val).frame = none ∧
    ((ctxOf s ctx.val).frame = none → t.mem = s.mem) ∧ ∀ y, y ≠ ctx.val → ctxOf t y = ctxOf s y := by
  refine ⟨_, exec_camContextEnable_false hk ctx, ?_⟩
  have hx := ctxOf_camDisable_same s ctx.val
  simp only [ctxOf_busOk]
  refine ⟨by rw [hx], by rw [hx], ?_, fun hf => ?_, fun y hy => ctxOf_camDisable_other hy⟩
  · rw [hx]
    exact frame_endFrame 4 0
  · rw [camDisable, endFrame_of_none 4 0 hf]
    rfl

theorem answers_camPortEnable (hk : isKeeper by_ = true) (he : (camPort s port.val).en = false) :
    Answers (.camPortEnable by_ port true) s fun t =>
      camPort t port.val = { camPort s port.val with en := true, state := 1, lanesOk := 0, sync := true } ∧
      t = { rboundary s (camPortCfg port.val) with cam := t.cam, resp := .ok } ∧
      ∀ q, q ≠ port.val → camPort t q = camPort s q := by
  refine ⟨_, exec_camPortEnable_of_keeper hk port true, ?_⟩
  simp only [camPortEnable_of_disabled he, camPort_busOk]
  exact ⟨camPort_modCamPort_same _ _ _, rfl, fun q hq => camPort_modCamPort_other _ hq⟩

theorem answers_camPortDisable (hk : isKeeper by_ = true) : Answers (.camPortEnable by_ port false) s fun t =>
    camPort t port.val = { camPort s port.val with en := false, state := 0, lanesOk := 0 } ∧
    t = { s with cam := t.cam, resp := .ok } ∧ ∀ q, q ≠ port.val → camPort t q = camPort s q := by
  refine ⟨_, exec_camPortEnable_of_keeper hk port false, ?_⟩
  simp only [camPortEnable_false, camPort_busOk]
  exact ⟨camPort_modCamPort_same _ _ _, rfl, fun _ hq => camPort_modCamPort_other _ hq⟩

theorem execCsiLaneStateChange_of_off (st : Fin 4) (lanes : Fin 16) (h : (camPort s port.val).en = false) :
    execCsiLaneStateChange port st lanes s = .next s := by
  simp [execCsiLaneStateChange, h]

theorem execCsiLaneStateChange_of_on (st : Fin 4) (lanes : Fin 16) (h : (camPort s port.val).en = true) :
    execCsiLaneStateChange port st lanes s = .next (modCamPort s port.val fun x =>
      { x with state := st.val + 1, lanesOk := lanes.val, sync := x.sync || st.val == 1 }) := by
  simp [execCsiLaneStateChange, h]

end

/-- Settles O49: an enable is decided past the context's boundary, whose cases are `camBoundary`'s; a frame ends by `endFrame`,
and a register write is Keeper's. -/
theorem cameraContextsPortsAndBuffersFollowTheirRegisters :
    Obligations.CameraContextsPortsAndBuffersFollowTheirRegisters := by
  unfold Obligations.CameraContextsPortsAndBuffersFollowTheirRegisters
  intro by_ ctx mask v port st lanes s
  refine ⟨fun hk => ?_, execCamFrameTimeout_of_none, fun f hf => ⟨fun hd => ?_, fun hd => ?_⟩, execCamFrameDone_of_nil,
    fun k r he => ⟨_, execCamFrameDone_of_cons he,
      (ctxOf_frameAcked _ _ _ _).trans (ctxOf_modCtx_same _ _ _),
      fun y hy => (ctxOf_frameAcked _ _ _ _).trans (ctxOf_modCtx_other _ hy), rfl, rfl, rfl⟩,
    fun hk => ⟨answers_camBufferRelease hk mask, exec_camParamHold_of_keeper hk ctx v, fun he => ?_,
      fun he hl hg => ?_, fun he hbad => ?_, answers_camDisable hk, fun hl => ?_, fun hl hn => ?_, fun he => ?_,
      answers_camPortEnable hk, answers_camPortDisable hk⟩,
    camBoundary_of_kept, fun hh hs => ⟨camBoundary_of_good hh hs, camBoundary_of_bad hh hs⟩,
    execCsiLaneStateChange_of_off st lanes, fun he =>
    ⟨_, execCsiLaneStateChange_of_on st lanes he, camPort_modCamPort_same _ _ _, rfl⟩⟩
  · simp only [List.forall_mem_cons, exec_camBufferRelease, execCamBufferRelease, exec_camContextEnable,
      execCamContextEnable, exec_camParamHold, execCamParamHold, exec_camLowRate, execCamLowRate, exec_camPortEnable,
      execCamPortEnable, mayWrite_camRegs_of_other _ hk]
    exact ⟨rfl, rfl, rfl, rfl, rfl, fun _ h => absurd h List.not_mem_nil⟩
  · exact (execCamFrameTimeout_of_some hf).trans (congrArg _ (if_pos hd))
  · exact (execCamFrameTimeout_of_some hf).trans (congrArg _ (if_neg hd))
  · rw [exec_camContextEnable_true hk, camEnable_of_enabled he]
    rfl
  · rw [exec_camContextEnable_true hk, camEnable_of_good he hl hg]
    rfl
  · rw [exec_camContextEnable_true hk, camEnable_of_bad he hbad]
    rfl
  · rw [exec_camLowRate_of_keeper hk, setLowRate_of_allowed hl]
    rfl
  · rw [exec_camLowRate_of_keeper hk, setLowRate_of_refused hl hn]
    rfl
  · rw [exec_camPortEnable_of_keeper hk, camPortEnable_of_enabled he]
    rfl

end Sys2Proof.Machine

/-! CSI-2 packets (R422 to R432): which packets pass a receiver, what a header error does, how a Frame Start takes a buffer, what
a line and a Frame End do, and the record of an ended frame. -/

namespace Sys2Proof.Machine

/-! ### Packets and their headers (R432) -/

/-- R422, R432: port p hears packets: it is on, synchronised and not faulty, and the ISP runs. -/
def Hears (s : State) (p : Nat) : Prop :=
  (camPort s p).en = true ∧ (camPort s p).sync = true ∧ (camPort s p).faulty = false ∧ s.cam.en = true

@[simp] theorem ctxOf_camCount (s : State) (k p x : Nat) : ctxOf (camCount s k p) x = ctxOf s x := rfl

theorem hears_camCount {s : State} {p : Nat} (k q : Nat) (h : Hears s p) : Hears (camCount s k q) p := h

section
variable {s : State} {p : Nat} (go : State → State)

theorem onPacket_of_deaf (h : ¬ Hears s p) (hdr : Nat) : onPacket s p hdr go = s := by
  refine if_pos ?_
  by_contra hn
  simp only [Bool.or_eq_true, Bool.not_eq_true', not_or, Bool.not_eq_false, Bool.not_eq_true] at hn
  obtain ⟨⟨⟨he, hs⟩, hc⟩, hf⟩ := hn
  exact h ⟨he, hs, hf, hc⟩

section
variable (h : Hears s p)
include h

theorem onPacket_of_heard (hdr : Nat) : onPacket s p hdr go =
    if hdr = 2 then headerBad s p else go (if hdr = 1 then camCount s 0 p else s) := by
  obtain ⟨he, hs, hf, hc⟩ := h
  simp [onPacket, he, hs, hf, hc]

theorem onPacket_good : onPacket s p 0 go = go s := onPacket_of_heard go h 0

theorem onPacket_corrected : onPacket s p 1 go = onPacket (camCount s 0 p) p 0 go :=
  (onPacket_of_heard go h 1).trans (onPacket_good go (hears_camCount 0 p h)).symm

theorem onPacket_uncorrectable : onPacket s p 2 go = headerBad s p := onPacket_of_heard go h 2

end
end

/-- Frames that end one after another leave no frame in their contexts, and none where there was none. -/
theorem frame_foldl_endFrame (cause st : Nat) {y : Nat} : ∀ (l : List Nat) (s : State),
    y ∈ l ∨ (ctxOf s y).frame = none → (ctxOf (l.foldl (fun s x => endFrame s x cause st) s) y).frame = none
  | [], _, h => h.resolve_left List.not_mem_nil
  | a :: r, s, h => by
    refine frame_foldl_endFrame cause st r (endFrame s a cause st) ?_
    by_cases hy : y = a
    · exact .inr (hy ▸ frame_endFrame cause st)
    · rw [ctxOf_endFrame_other cause st hy]
      exact h.imp_left fun hm => (List.mem_cons.1 hm).resolve_left hy

/-- The contexts of port p with an open frame. -/
def openOn (s : State) (p : Nat) : List Nat :=
  (span 0 16).filter fun x => (ctxOf s x).frame.isSome && pfield (ctxOf s x).win 4 1 == p

theorem headerBad_eq (s : State) (p : Nat) : headerBad s p =
    modCamPort ((openOn s p).foldl (fun s x => endFrame s x 1 3) (camCount s 1 p)) p fun v => { v with sync := false } := rfl

theorem sync_headerBad (s : State) (p : Nat) : (camPort (headerBad s p) p).sync = false := by
  rw [headerBad_eq, camPort_modCamPort_same]

theorem frame_headerBad {s : State} {p y : Nat} (hy : y < 16) (hp : pfield (ctxOf s y).win 4 1 = p) :
    (ctxOf (headerBad s p) y).frame = none := by
  refine frame_foldl_endFrame 1 3 (openOn s p) (camCount s 1 p) ?_
  cases hf : (ctxOf s y).frame with
  | none => exact .inr hf
  | some f => exact .inl (List.mem_filter.2 ⟨(mem_span_iff 0 16 y).2 ⟨Nat.zero_le y, by omega⟩, by simp [hf, hp]⟩)

/-! ### Buffers (R430) -/

/-- The first buffer that `nextBuf` looks at. -/
def firstBuf (c : CamCtx) : Nat := if c.used then (c.buf + 1) % nbufOf c.win else 0

theorem firstBuf_lt {c : CamCtx} (h : 0 < nbufOf c.win) : firstBuf c < nbufOf c.win := by
  unfold firstBuf
  split
  · exact Nat.mod_lt _ h
  · exact h

theorem findSome?_ite {α β : Type} (p : α → Bool) (g : α → β) (l : List α) :
    l.findSome? (fun k => if p k then some (g k) else none) = (l.find? p).map g := by
  induction l with
  | nil => rfl
  | cons a r ih => cases h : p a <;> simp [h, ih]

theorem nextBuf_eq (c : CamCtx) : nextBuf c =
    ((List.range (nbufOf c.win)).find? fun i => bitOf c.free ((firstBuf c + i) % nbufOf c.win)).map
      fun i => (firstBuf c + i) % nbufOf c.win := by
  rw [← findSome?_ite, List.range_eq_range', ← span_eq_range']
  rfl

/-- How far buffer k lies past buffer a of n, going round, and back. -/
theorem add_distance_mod {n a k : Nat} (ha : a < n) (hk : k < n) : (a + (k + n - a) % n) % n = k := by
  rcases Nat.lt_or_ge k a with h | h
  · rw [Nat.mod_eq_of_lt (show k + n - a < n by omega), show a + (k + n - a) = k + n by omega, Nat.add_mod_right,
      Nat.mod_eq_of_lt hk]
  · rw [show k + n - a = k - a + n by omega, Nat.add_mod_right, Nat.mod_eq_of_lt (show k - a < n by omega),
      Nat.add_sub_cancel' h, Nat.mod_eq_of_lt hk]

theorem distance_add_mod {n a i : Nat} (ha : a < n) (hi : i < n) : ((a + i) % n + n - a) % n = i := by
  rcases Nat.lt_or_ge (a + i) n with h | h
  · rw [Nat.mod_eq_of_lt h, show a + i + n - a = i + n by omega, Nat.add_mod_right, Nat.mod_eq_of_lt hi]
  · rw [Nat.mod_eq_sub_mod h, Nat.mod_eq_of_lt (show a + i - n < n by omega), show a + i - n + n - a = i by omega,
      Nat.mod_eq_of_lt hi]

theorem nextBuf_some {c : CamCtx} {k : Nat} (h : nextBuf c = some k) : k < nbufOf c.win ∧ bitOf c.free k = true ∧
    ∀ j < (k + nbufOf c.win - firstBuf c) % nbufOf c.win, bitOf c.free ((firstBuf c + j) % nbufOf c.win) = false := by
  rw [nextBuf_eq, Option.map_eq_some_iff] at h
  obtain ⟨i, hi, rfl⟩ := h
  obtain ⟨hfree, hmem, hbefore⟩ := List.find?_range_eq_some.1 hi
  have hn : 0 < nbufOf c.win := Nat.lt_of_le_of_lt (Nat.zero_le i) (List.mem_range.1 hmem)
  refine ⟨Nat.mod_lt _ hn, hfree, ?_⟩
  rw [distance_add_mod (firstBuf_lt hn) (List.mem_range.1 hmem)]
  simpa using hbefore

theorem nextBuf_none {c : CamCtx} (h : nextBuf c = none) {k : Nat} (hk : k < nbufOf c.win) : bitOf c.free k = false := by
  rw [nextBuf_eq, Option.map_eq_none_iff, List.find?_range_eq_none] at h
  have hn : 0 < nbufOf c.win := Nat.lt_of_le_of_lt (Nat.zero_le k) hk
  have hi := h _ (Nat.mod_lt (k + nbufOf c.win - firstBuf c) hn)
  rw [add_distance_mod (firstBuf_lt hn) hk] at hi
  simpa using hi

/-! ### Frame Start (R425, R430, R433) -/

section
variable {s : State} {x : Nat}

theorem tick_endFrame (s : State) (x cause st : Nat) : (endFrame s x cause st).tick = s.tick := by
  cases hf : (ctxOf s x).frame with
  | none => rw [endFrame_of_none cause st hf]
  | some f =>
    obtain ⟨u, hu, he⟩ := endFrame_of_some cause st hf
    rw [he, modCtx_tick, writeMem_tick, hu.tick]

/-- An open frame is cut before the start is taken. -/
theorem takeStart_endFrame (s : State) (p vc num x : Nat) : takeStart (endFrame s x 4 3) p vc num x = takeStart s p vc num x := by
  simp only [takeStart, endFrame_of_none 4 3 (frame_endFrame 4 3), tick_endFrame]

section
variable {p vc : Nat} (num : Nat) (hf : (ctxOf s x).frame = none) (hw : (ctxOf s x).shadow = (ctxOf s x).win)
  (hp : pfield (ctxOf s x).win 4 1 = p) (hv : pfield (ctxOf s x).win 5 1 = vc)
include hf hw hp hv

theorem takeStart_of_skip (h : (ctxOf s x).skip ≠ 0) : takeStart s p vc num x =
    modCtx s x fun _ => { ctxOf s x with skip := (ctxOf s x).skip - 1, st := 3 } := by
  simp only [takeStart, endFrame_of_none 4 3 hf, camBoundary_of_kept (.inr hw), hp, hv, ne_eq, not_true_eq_false, or_self,
    if_false, if_pos h]
  rfl

theorem takeStart_of_full (h : (ctxOf s x).skip = 0) (hb : nextBuf (ctxOf s x) = none) : takeStart s p vc num x =
    modCtx s x fun _ => { ctxOf s x with dropped := satAdd (ctxOf s x).dropped 1, st := 3 } := by
  simp only [takeStart, endFrame_of_none 4 3 hf, camBoundary_of_kept (.inr hw), hp, hv, ne_eq, not_true_eq_false, or_self,
    if_false, if_neg (not_not_intro h), hb]
  rfl

theorem takeStart_of_free (h : (ctxOf s x).skip = 0) {k : Nat} (hb : nextBuf (ctxOf s x) = some k) : takeStart s p vc num x =
    modCtx s x fun _ => { ctxOf s x with
      free := setBits (ctxOf s x).free k k 0
      buf := k
      used := true
      st := 2
      skip := pfield (ctxOf s x).win 0x54 1
      frame := some { buf := k, csi := num, tickFs := s.tick } } := by
  simp only [takeStart, endFrame_of_none 4 3 hf, camBoundary_of_kept (.inr hw), hp, hv, ne_eq, not_true_eq_false, or_self,
    if_false, if_neg (not_not_intro h), hb]
  rfl

end
end

/-! ### Lines (R426, R432) -/

section
variable (s : State) (w : SMap Word) (y : Nat) (px : List Nat)

theorem length_fitLine : (fitLine s w y px).length = inWidth w * comps w := by
  simp [fitLine]

theorem getElem?_fitLine_of_missing (hr : rawBits (camType w) ≠ 0) {i : Nat} (hp : px.length ≤ i)
    (hi : i < (fitLine s w y px).length) : (fitLine s w y px)[i]? = some (pfield w (0x20 + 2 * cfaPos i y) 2) := by
  rw [length_fitLine] at hi
  have hc : comps w = 1 := if_neg hr
  have hs : (span 0 (inWidth w * comps w))[i]? = some i := by
    rw [span_eq_range', List.getElem?_range' (by simpa using hi)]
    simp
  rw [fitLine, List.getElem?_map, hs]
  simp [hc, Nat.not_lt.2 hp]

end

section
variable {s : State} {p x : Nat} {px : List Nat} {f : CamFrame}

/-- The frame with one more line. -/
def withLine (s : State) (w : SMap Word) (f : CamFrame) (px : List Nat) (crcBad : Bool) : CamFrame :=
  { f with lines := f.lines ++ [fitLine s w f.lines.length px]
           flags := f.flags ++ [crcBad || px.length != inWidth w * comps w] }

theorem takeLine_of_full (crcBad : Bool) (hf : (ctxOf s x).frame = some f) :
    takeLine s p x px crcBad true = endFrame s x 2 3 := by
  simp [takeLine, hf]

theorem takeLine_of_beyond (crcBad : Bool) (hf : (ctxOf s x).frame = some f) (hn : inHeight (ctxOf s x).win ≤ f.lines.length) :
    takeLine s p x px crcBad false = camCount s 4 p := by
  simp [takeLine, hf, hn]

/-- The output lines that are valid now are stored; the frame has the line. -/
theorem takeLine_of_inside (crcBad : Bool) (hf : (ctxOf s x).frame = some f) (hn : f.lines.length < inHeight (ctxOf s x).win) :
    ∃ u n, Stores s u ∧ takeLine s p x px crcBad false =
      modCtx u x (fun c => { c with frame := some { withLine s (ctxOf s x).win f px crcBad with written := n } }) ∧
      f.written ≤ n ∧ (f.lines.length + 1 = inHeight (ctxOf s x).win → outH (ctxOf s x).win ≤ n) := by
  simp only [takeLine, hf, Bool.false_eq_true, if_false, if_neg (Nat.not_le.2 hn)]
  refine ⟨_, _, (stores_writeLines s _ _ _ _).trans (stores_nextFree _), rfl, Nat.le_max_left _ _, fun hl => ?_⟩
  rw [if_pos (by simpa using hl)]
  exact Nat.le_max_right _ _

end

/-- What an ISP that hears it does with a line. -/
def passLine (s : State) (p vc dt : Nat) (px : List Nat) (crcBad full : Bool) : State :=
  let here := ctxsOn s p vc
  let mine := here.filter fun x => camType (ctxOf s x).win == dt
  let open_ := mine.filter fun x => (ctxOf s x).frame.isSome
  if here ≠ [] ∧ dt = 0x12 then s
  else if mine = [] then camCount s 4 p
  else if open_ = [] then (if mine.any fun x => (ctxOf s x).st == 3 then s else camCount s 4 p)
  else open_.foldl (fun s x => takeLine s p x px crcBad full)
    (if full then camCount s 3 p else if crcBad then camCount s 2 p else s)

theorem execCsiLinePacket_eq (port vc : Fin 4) (hdr : Fin 3) (dt : Fin 64) (px : List Nat) (crcBad full : Bool) (s : State) :
    execCsiLinePacket port vc hdr dt px crcBad full s =
      .next (onPacket s port.val hdr.val fun s => passLine s port.val vc.val dt.val px crcBad full) := rfl

section
variable {s : State} {p vc dt x : Nat} {px : List Nat} {crcBad full : Bool}

/-- The contexts on a port and virtual channel that take a data type. -/
def takers (s : State) (p vc dt : Nat) : List Nat := (ctxsOn s p vc).filter fun y => camType (ctxOf s y).win == dt

/-- s with a line of a bad payload counted. -/
def crcCounted (s : State) (p : Nat) (crcBad : Bool) : State := if crcBad then camCount s 2 p else s

theorem ctxOf_crcCounted (y : Nat) : ctxOf (crcCounted s p crcBad) y = ctxOf s y := by
  unfold crcCounted
  split <;> rfl

theorem withLine_crcCounted (w : SMap Word) (f : CamFrame) :
    withLine (crcCounted s p crcBad) w f px crcBad = withLine s w f px crcBad := by
  unfold crcCounted
  split <;> rfl

theorem passLine_of_embedded (hh : ctxsOn s p vc ≠ []) (hd : dt = 0x12) : passLine s p vc dt px crcBad full = s :=
  if_pos ⟨hh, hd⟩

section
variable (hn : ctxsOn s p vc = [] ∨ dt ≠ 0x12)
include hn

theorem passLine_of_image : passLine s p vc dt px crcBad full =
    if takers s p vc dt = [] then camCount s 4 p
    else if (takers s p vc dt).filter (fun x => (ctxOf s x).frame.isSome) = [] then
      (if (takers s p vc dt).any fun x => (ctxOf s x).st == 3 then s else camCount s 4 p)
    else ((takers s p vc dt).filter fun x => (ctxOf s x).frame.isSome).foldl (fun s x => takeLine s p x px crcBad full)
      (if full then camCount s 3 p else if crcBad then camCount s 2 p else s) :=
  if_neg fun h => hn.elim h.1 fun hd => hd h.2

theorem passLine_of_no_taker (hm : takers s p vc dt = []) : passLine s p vc dt px crcBad full = camCount s 4 p := by
  rw [passLine_of_image hn, if_pos hm]

theorem passLine_of_no_frame (hm : takers s p vc dt ≠ []) (hf : ∀ y ∈ takers s p vc dt, (ctxOf s y).frame = none) :
    passLine s p vc dt px crcBad full =
      if (takers s p vc dt).any fun x => (ctxOf s x).st == 3 then s else camCount s 4 p := by
  rw [passLine_of_image hn, if_neg hm, if_pos (List.filter_eq_nil_iff.2 fun y hy => by simp [hf y hy])]

theorem passLine_of_frame {f : CamFrame} (hm : takers s p vc dt = [x]) (hf : (ctxOf s x).frame = some f) :
    passLine s p vc dt px crcBad full =
      takeLine (if full then camCount s 3 p else crcCounted s p crcBad) p x px crcBad full := by
  rw [passLine_of_image hn, hm]
  simp [hf, crcCounted]

variable {f : CamFrame} (hm : takers s p vc dt = [x]) (hf : (ctxOf s x).frame = some f)
include hm hf

theorem passLine_of_full : passLine s p vc dt px crcBad true = endFrame (camCount s 3 p) x 2 3 := by
  rw [passLine_of_frame hn hm hf, if_pos rfl, takeLine_of_full crcBad ((congrArg _ (ctxOf_camCount s 3 p x)).trans hf)]

theorem passLine_of_beyond (hl : inHeight (ctxOf s x).win ≤ f.lines.length) :
    passLine s p vc dt px crcBad false = camCount (crcCounted s p crcBad) 4 p := by
  rw [passLine_of_frame hn hm hf, if_neg Bool.false_ne_true]
  exact takeLine_of_beyond (f := f) crcBad (by rwa [ctxOf_crcCounted]) (by rwa [ctxOf_crcCounted])

theorem passLine_of_inside (hl : f.lines.length < inHeight (ctxOf s x).win) : ∃ n,
    (ctxOf (passLine s p vc dt px crcBad false) x).frame =
      some { withLine s (ctxOf s x).win f px crcBad with written := n } ∧
    f.written ≤ n ∧ (f.lines.length + 1 = inHeight (ctxOf s x).win → outH (ctxOf s x).win ≤ n) ∧
    ∀ y, y ≠ x → ctxOf (passLine s p vc dt px crcBad false) y = ctxOf s y := by
  rw [passLine_of_frame hn hm hf, if_neg Bool.false_ne_true]
  obtain ⟨u, n, hu, ht, hw, ho⟩ := takeLine_of_inside (s := crcCounted s p crcBad) (p := p) (px := px) crcBad
    (by rwa [ctxOf_crcCounted]) (by rwa [ctxOf_crcCounted])
  rw [ctxOf_crcCounted] at ho ht
  rw [withLine_crcCounted] at ht
  refine ⟨n, ?_, hw, ho, fun y hy => ?_⟩
  · rw [ht, ctxOf_modCtx_same]
  · rw [ht, ctxOf_modCtx_other _ hy, ctxOf_congr (congrArg Cam.ctxs hu.cam), ctxOf_crcCounted]

end
end

/-! ### The record of an ended frame (R431) -/

theorem Memory.readBytes_writeBytes : ∀ {m : Memory} (_ : Memory.wf m = true) (a : Nat) (bs : List Byte),
    Memory.readBytes (Memory.writeBytes m a bs) a bs.length = bs
  | _, _, _, [] => rfl
  | m, h, a, b :: r => by
    have hb : Memory.read (Memory.writeBytes m a (b :: r)) a = b := Memory.read_writeBytes_same h a (b :: r) 0 (Nat.succ_pos _)
    have hr := Memory.readBytes_writeBytes (Memory.wf_write h a b) (a + 1) r
    exact congrArg₂ List.cons hb hr

theorem length_camRecord (s : State) (x : Nat) (c : CamCtx) (f : CamFrame) (cause valid : Nat) :
    (camRecord s x c f cause valid).length = 32 := by
  simp [camRecord]

theorem readMem_endFrame {s : State} {x : Nat} {f : CamFrame} (cause st : Nat) (hf : (ctxOf s x).frame = some f)
    (hw : Memory.wf s.mem = true) : readMem (endFrame s x cause st) (recordAddr s x f) 32 = endRecord s x cause f := by
  obtain ⟨u, hu, he⟩ := endFrame_of_some cause st hf
  have hr := Memory.readBytes_writeBytes (hu.wf hw) (recordAddr s x f) (endRecord s x cause f)
  rw [show (endRecord s x cause f).length = 32 from length_camRecord _ _ _ _ _ _] at hr
  rw [he, readMem, modCtx_mem, writeMem_mem, hr]

/-! ### The rows -/

section
variable {s : State} {port vc : Fin 4}

/-- What an ISP that hears it does with a Frame End in context x. -/
def passEnd (s : State) (x : Nat) : State :=
  match (ctxOf s x).frame with
  | none => s
  | some f => if f.lines.length < inHeight (ctxOf s x).win then endFrame s x 5 3 else endFrame s x 0 1

theorem passEnd_of_none {x : Nat} (h : (ctxOf s x).frame = none) : passEnd s x = s := by
  simp only [passEnd, h]

theorem passEnd_of_some {x : Nat} {f : CamFrame} (h : (ctxOf s x).frame = some f) : passEnd s x =
    if f.lines.length < inHeight (ctxOf s x).win then endFrame s x 5 3 else endFrame s x 0 1 := by
  simp only [passEnd, h]

theorem execCsiFrameStart_eq (hdr : Fin 3) (num : BitVec 16) : execCsiFrameStart port vc hdr num s =
    .next (onPacket s port.val hdr.val fun s =>
      (ctxsOn s port.val vc.val).foldl (fun s x => takeStart s port.val vc.val num.toNat x) s) := rfl

theorem execCsiFrameEnd_eq (hdr : Fin 3) : execCsiFrameEnd port vc hdr s =
    .next (onPacket s port.val hdr.val fun s => (ctxsOn s port.val vc.val).foldl passEnd s) := rfl

theorem execCsiShortPacketIgnored_eq (hdr : Fin 2) :
    execCsiShortPacketIgnored port hdr s = .next (onPacket s port.val hdr.val id) := rfl

end

section
variable {s : State} {port vc : Fin 4} (h : Hears s port.val)
include h

theorem exec_csiFrameEnd_of_heard :
    exec (.csiFrameEnd port vc 0) s = .next ((ctxsOn s port.val vc.val).foldl passEnd s) := by
  rw [exec_csiFrameEnd, execCsiFrameEnd_eq]
  exact congrArg Host.Outcome.next (onPacket_good _ h)

theorem exec_csiLinePacket_of_heard (dt : Fin 64) (px : List Nat) (crcBad full : Bool) :
    exec (.csiLinePacket port vc 0 dt px crcBad full) s =
      .next (passLine s port.val vc.val dt.val px crcBad full) := by
  rw [exec_csiLinePacket, execCsiLinePacket_eq]
  exact congrArg Host.Outcome.next (onPacket_good _ h)

end

/-- Settles O48: `onPacket` decides by the receiver and the header; a start is taken by `takeStart`, a line by `passLine`, an end
by `passEnd`, and a frame that ends leaves what `endFrame_of_some` says. -/
theorem cameraPacketsBuildFrames : Obligations.CameraPacketsBuildFrames := by
  unfold Obligations.CameraPacketsBuildFrames
  intro port vc hdr num dt px crcBad full ctx cause st s
  refine ⟨fun hn => ?_, fun h => ⟨?_, ?_, ?_, ?_, ?_, ?_, ?_, fun hh => ?_, fun hh => ⟨fun hf => ?_, fun f hf => ?_⟩,
    fun hh hd => ?_, fun hn => ⟨fun hm => ?_, fun hm hf => ⟨fun hd => ?_, fun hd => ?_⟩, fun hm f hf =>
      ⟨fun hfull => ?_, fun hfull hl => ?_, fun hfull hl => ?_⟩⟩⟩,
    ⟨sync_headerBad s _, fun y hy hp => frame_headerBad hy hp⟩, fun f _ => (takeStart_endFrame s _ _ _ _).symm,
    fun hf hw hp hv => ⟨takeStart_of_skip _ hf hw hp hv, takeStart_of_full _ hf hw hp hv,
      fun k hs hb => takeStart_of_free _ hf hw hp hv hs hb⟩,
    ⟨fun k hb => nextBuf_some hb, fun hb k hk => nextBuf_none hb hk⟩, endFrame_of_none cause st,
    fun f hf => ⟨ctxOf_endFrame_same cause st hf, fun y hy => ctxOf_endFrame_other cause st hy, length_camRecord _ _ _ _ _ _,
      readMem_endFrame cause st hf⟩,
    length_fitLine _ _ _ _, fun hr i hp hi => getElem?_fitLine_of_missing _ _ _ _ hr hp hi⟩
  · simp only [List.cons_append, List.nil_append, List.forall_mem_cons, exec_csiFrameStart, exec_csiFrameEnd,
      exec_csiLinePacket, exec_csiShortPacketIgnored, execCsiFrameStart_eq, execCsiFrameEnd_eq, execCsiLinePacket_eq,
      execCsiShortPacketIgnored_eq, onPacket_of_deaf _ hn, List.not_mem_nil, false_imp_iff, implies_true, and_self]
  · simp only [List.forall_mem_cons, exec_csiFrameStart, exec_csiFrameEnd, exec_csiLinePacket, execCsiFrameStart_eq,
      execCsiFrameEnd_eq, execCsiLinePacket_eq]
    exact ⟨congrArg _ (onPacket_uncorrectable _ h), congrArg _ (onPacket_uncorrectable _ h),
      congrArg _ (onPacket_uncorrectable _ h), fun _ h => absurd h List.not_mem_nil⟩
  · simp only [exec_csiFrameStart, execCsiFrameStart_eq]
    exact congrArg Host.Outcome.next (onPacket_corrected _ h)
  · simp only [exec_csiFrameEnd, execCsiFrameEnd_eq]
    exact congrArg Host.Outcome.next (onPacket_corrected _ h)
  · simp only [exec_csiLinePacket, execCsiLinePacket_eq]
    exact congrArg Host.Outcome.next (onPacket_corrected _ h)
  · exact congrArg Host.Outcome.next (onPacket_good id h)
  · exact congrArg Host.Outcome.next ((onPacket_corrected id h).trans (onPacket_good id (hears_camCount 0 _ h)))
  · simp only [exec_csiFrameStart, execCsiFrameStart_eq]
    exact congrArg Host.Outcome.next (onPacket_good _ h)
  · exact (exec_csiFrameEnd_of_heard h).trans (by rw [hh]; rfl)
  · rw [exec_csiFrameEnd_of_heard h, hh, List.foldl_cons, passEnd_of_none hf]
    rfl
  · rw [exec_csiFrameEnd_of_heard h, hh, List.foldl_cons, passEnd_of_some hf]
    rfl
  · rw [exec_csiLinePacket_of_heard h, passLine_of_embedded hh hd]
  · rw [exec_csiLinePacket_of_heard h, passLine_of_no_taker hn hm]
  · obtain ⟨y, hy, hst⟩ := hd
    have ha : (takers s port.val vc.val dt.val).any (fun x => (ctxOf s x).st == 3) = true :=
      List.any_eq_true.2 ⟨y, hy, beq_iff_eq.2 hst⟩
    rw [exec_csiLinePacket_of_heard h, passLine_of_no_frame hn hm hf, if_pos ha]
  · rw [exec_csiLinePacket_of_heard h, passLine_of_no_frame hn hm hf]
    refine congrArg _ (if_neg fun ha => ?_)
    obtain ⟨y, hy, hst⟩ := List.any_eq_true.1 ha
    exact hd y hy (beq_iff_eq.1 hst)
  · rw [hfull, exec_csiLinePacket_of_heard h, passLine_of_full hn hm hf]
  · rw [hfull, exec_csiLinePacket_of_heard h, passLine_of_beyond hn hm hf hl]
    rfl
  · exact ⟨_, exec_csiLinePacket_of_heard h dt px crcBad false, passLine_of_inside hn hm hf hl⟩

end Sys2Proof.Machine

/-! The mailboxes (R22 to R25, R464, R465): why a write is refused and what it leaves, whom a message rings, a read of word 7, and
the messages that hardware senders hold. -/

namespace Sys2Proof.Machine

/-! ### Writes of a word (R23, R464) -/

section
variable {b : Mbx} {by_ : Req} {m w : Nat}

theorem mbxRefusal_of_masked (h : mbxAllows b m by_ = false) : mbxRefusal b by_ m w = some 1 := if_pos (by rw [h]; rfl)

theorem maskBit_of_allowed (h : mbxAllows b m by_ = true) : maskBit by_ ≠ none := by
  intro hn
  simp [mbxAllows, hn] at h

theorem not_allowed_of_no_sender (h : maskBit by_ = none) : mbxAllows b m by_ = false := by
  simp only [mbxAllows, h]

section
variable (ha : mbxAllows b m by_ = true)
include ha

theorem mbxRefusal_of_no_receiver (hr : mbxReceiver b m = 0xFF) : mbxRefusal b by_ m 7 = some 3 := by
  simp [mbxRefusal, ha, hr]

theorem mbxRefusal_of_full (hw : ¬ (w = 7 ∧ mbxReceiver b m = 0xFF)) (hf : mbxFull b m = true) :
    mbxRefusal b by_ m w = some 0 := by
  simp [mbxRefusal, ha, hw, hf]

theorem mbxRefusal_of_free (hw : ¬ (w = 7 ∧ mbxReceiver b m = 0xFF)) (hf : mbxFull b m = false) :
    mbxRefusal b by_ m w = none := by
  simp [mbxRefusal, ha, hw, hf]

end

end

/-- The row that writes word k of a mailbox: a write of words 0 to 6, or the post. -/
def wordWrite (by_ : Req) (m : Fin 128) (v : Word) (k : Nat) : Instr :=
  if h : k < 7 then .mailboxWordWrite by_ m ⟨k, h⟩ v else .mailboxPost by_ m v

section
variable {by_ : Req} {m : Fin 128} {v : Word} {s : State} {k : Nat}

theorem exec_wordWrite (hk : k ≤ 7) : exec (wordWrite by_ m v k) s = .next (mbxWrite s by_ m.val k v) := by
  unfold wordWrite
  split
  · rfl
  · obtain rfl : k = 7 := by omega
    rfl

theorem exec_wordWrite_of_no_sender (hk : k ≤ 7) (h : maskBit by_ = none) :
    exec (wordWrite by_ m v k) s = .next (busError s) := by
  simp only [exec_wordWrite hk, mbxWrite, mbxRefusal_of_masked (not_allowed_of_no_sender h), h, Option.isSome_none,
    Bool.false_eq_true, if_false]

theorem exec_wordWrite_of_accepted (hk : k ≤ 7) (h : mbxRefusal s.mbx by_ m.val k = none) :
    exec (wordWrite by_ m v k) s = .next (busOk (if k = 7 then mbxPostNow s by_ m.val v else mbxStore s m.val k v)) := by
  simp only [exec_wordWrite hk, mbxWrite, h]

theorem exec_wordWrite_of_refused {cause : Nat} (hk : k ≤ 7) (hs : maskBit by_ ≠ none)
    (h : mbxRefusal s.mbx by_ m.val k = some cause) :
    exec (wordWrite by_ m v k) s = .next (busError (senderFault s cause (senderId by_) m.val k)) := by
  simp only [exec_wordWrite hk, mbxWrite, h, Option.isSome_iff_ne_none.2 hs, if_true]

end

section
variable {s : State} {cause sender m w : Nat}

theorem senderFault_of_recorded (h : bitOf s.mbx.fault.toNat 31 = true) : senderFault s cause sender m w =
    { s with mbx := { s.mbx with faultCount := satAdd s.mbx.faultCount 1 } } := if_pos h

theorem senderFault_of_no_record (h : bitOf s.mbx.fault.toNat 31 = false) : senderFault s cause sender m w = { s with
    mbx := { s.mbx with
      faultCount := satAdd s.mbx.faultCount 1
      fault := word (2 ^ 31 + cause * 2 ^ 24 + sender * 2 ^ 16 + m * 2 ^ 8 + w) }
    irqs := .senderFault :: s.irqs } := if_neg (ne_true_of_eq_false h)

end

/-- A refused write counts, records the first refusal alone, and leaves all words and FULL bits. -/
theorem wordWrite_refused {by_ : Req} {m : Fin 128} {v : Word} {s : State} {k cause : Nat} (hk : k ≤ 7) (hs : maskBit by_ ≠ none)
    (h : mbxRefusal s.mbx by_ m.val k = some cause) :
    (bitOf s.mbx.fault.toNat 31 = true → exec (wordWrite by_ m v k) s =
      .next (busError { s with mbx := { s.mbx with faultCount := satAdd s.mbx.faultCount 1 } })) ∧
    (bitOf s.mbx.fault.toNat 31 = false → exec (wordWrite by_ m v k) s = .next (busError { s with
      mbx := { s.mbx with
        faultCount := satAdd s.mbx.faultCount 1
        fault := word (2 ^ 31 + cause * 2 ^ 24 + senderId by_ * 2 ^ 16 + m.val * 2 ^ 8 + k) }
      irqs := .senderFault :: s.irqs })) := by
  rw [exec_wordWrite_of_refused hk hs h]
  exact ⟨fun hf => by rw [senderFault_of_recorded hf], fun hf => by rw [senderFault_of_no_record hf]⟩

/-- A post that stamps word 0 by f. -/
def postStamped (s : State) (m : Nat) (v : Word) (f : Word → Word) : State :=
  let s1 := mbxStore s m 7 v
  let s2 := mbxStore s1 m 0 (f (mbxWord s1.mbx m 0))
  { s2 with mbx := { s2.mbx with full := s2.mbx.full ||| (1#128 <<< m) }, irqs := doorbells s2.mbx m ++ s2.irqs }

/-- The stamp of a sender over bits [31:24] of word 0 (R23). -/
def senderStamp (by_ : Req) (w : Word) : Word := word (bits w.toNat 23 0 + senderId by_ * 2 ^ 24)

theorem mbxPostNow_eq_postStamped (s : State) (by_ : Req) (m : Nat) (v : Word) :
    mbxPostNow s by_ m v = postStamped s m v (senderStamp by_) := rfl

/-- What a post leaves: the word stored, word 0 stamped, FULL set and the receiver rung. -/
theorem postStamped_eq (s : State) (m : Nat) (v : Word) (f : Word → Word) : postStamped s m v f =
    let ws := SMap.put s.mbx.words (8 * m + 7) v 0
    { s with
      mbx := { s.mbx with words := SMap.put ws (8 * m) (f (SMap.getD ws (8 * m) 0)) 0, full := s.mbx.full ||| (1#128 <<< m) }
      irqs := doorbells s.mbx m ++ s.irqs } := rfl

/-! ### Doorbells (R23) -/

section
variable {b : Mbx} {m : Nat}

theorem mem_doorbells_keeper (h : mbxReceiver b m = 0) (n : Fin 4) :
    Irq.doorbell (.keeper n) m ∈ doorbells b m ↔ bitOf (mbxRecv b m) (12 + n.val) = true := by
  have hbit : bitOf (bits (mbxRecv b m) 15 12) n.val = bitOf (mbxRecv b m) (12 + n.val) := by
    have hn : n.val < 15 + 1 - 12 := n.isLt
    simp only [bitOf, bits, Nat.testBit_mod_two_pow, Nat.testBit_shiftRight, hn, decide_true, Bool.true_and]
  have hall : ∀ n : Fin 4, n ∈ ([0, 1, 2, 3] : List (Fin 4)) := by decide
  simp only [doorbells, h, if_true, List.mem_filterMap, Option.ite_none_right_eq_some, Option.some.injEq, Irq.doorbell.injEq,
    Req.keeper.injEq, and_true]
  constructor
  · rintro ⟨x, -, hx, rfl⟩
    exact hbit ▸ hx
  · exact fun hb => ⟨n, hall n, hbit.trans hb, rfl⟩

theorem doorbells_sec (h : mbxReceiver b m = 0x08) : doorbells b m = [.doorbell .sec m] := by simp [doorbells, h]

theorem doorbells_dsp (h : mbxReceiver b m = 0x10) : doorbells b m = [.doorbell .dsp m] := by simp [doorbells, h]

theorem doorbells_hardware (h : 0x20 ≤ mbxReceiver b m) : doorbells b m = [] := by
  have h0 : mbxReceiver b m ≠ 0 := by omega
  have h8 : mbxReceiver b m ≠ 0x08 := by omega
  have h16 : mbxReceiver b m ≠ 0x10 := by omega
  simp only [doorbells, h0, h8, h16, if_false]

end

/-- Settles O20: the order of the refusals is that of `mbxRefusal`, and a refused write leaves what `wordWrite_refused` says. -/
theorem mailboxWritesPostOrRecordTheRefusal : Obligations.MailboxWritesPostOrRecordTheRefusal := by
  unfold Obligations.MailboxWritesPostOrRecordTheRefusal
  intro by_ m w v s b write refused
  have h7 : w.val ≤ 7 := Nat.le_of_lt w.isLt
  have hw : ∀ p : Prop, ¬ (w.val = 7 ∧ p) := fun p h => Nat.ne_of_lt w.isLt h.1
  refine ⟨fun hm hs => ⟨wordWrite_refused h7 hs (mbxRefusal_of_masked hm),
      wordWrite_refused (Nat.le_refl 7) hs (mbxRefusal_of_masked hm)⟩,
    fun hn => ⟨exec_wordWrite_of_no_sender h7 hn, exec_wordWrite_of_no_sender (Nat.le_refl 7) hn⟩, fun ha => ?allowed,
    mem_doorbells_keeper, doorbells_sec, doorbells_dsp, doorbells_hardware⟩
  have hs := maskBit_of_allowed ha
  refine ⟨fun hr => wordWrite_refused (Nat.le_refl 7) hs (mbxRefusal_of_no_receiver ha hr),
    fun hr hf => wordWrite_refused (Nat.le_refl 7) hs (mbxRefusal_of_full ha (fun h => hr h.2) hf),
    fun hf => wordWrite_refused h7 hs (mbxRefusal_of_full ha (hw _) hf), fun hf => ⟨?store, fun hr => ?post⟩⟩
  case store =>
    refine (exec_wordWrite_of_accepted h7 (mbxRefusal_of_free ha (hw _) hf)).trans ?_
    rw [if_neg (Nat.ne_of_lt w.isLt)]
    rfl
  case post =>
    refine (exec_wordWrite_of_accepted (Nat.le_refl 7) (mbxRefusal_of_free ha (fun h => hr h.2) hf)).trans ?_
    rw [if_pos rfl, mbxPostNow_eq_postStamped, postStamped_eq]
    rfl

/-! ### A read of word 7 (R24) -/

/-- Who may take the message of mailbox m: its receiver and the Keeper harts. -/
def MayTake (b : Mbx) (by_ : Req) (m : Nat) : Prop := isKeeper by_ = true ∨ receiverCode by_ = some (mbxReceiver b m)

section
variable {s : State} {by_ : Req} {m : Nat}

theorem mbxTake_of_taker (h : MayTake s.mbx by_ m) : mbxTake s by_ m =
    busData (if mbxFull s.mbx m then mbxClear s m else s) (mbxWord s.mbx m 7) := by
  refine if_pos ?_
  rw [Bool.or_eq_true, beq_iff_eq]
  exact h

theorem mbxTake_of_other (h : ¬ MayTake s.mbx by_ m) : mbxTake s by_ m = busError s := by
  refine if_neg ?_
  rw [Bool.or_eq_true, beq_iff_eq]
  exact h

theorem mbxTake_of_empty (h : MayTake s.mbx by_ m) (hf : mbxFull s.mbx m = false) :
    mbxTake s by_ m = busData s (mbxWord s.mbx m 7) := by
  rw [mbxTake_of_taker h, if_neg (ne_true_of_eq_false hf)]

theorem mbxTake_of_full (h : MayTake s.mbx by_ m) (hf : mbxFull s.mbx m = true) :
    mbxTake s by_ m = busData (mbxClear s m) (mbxWord s.mbx m 7) := by
  rw [mbxTake_of_taker h, if_pos hf]

end

theorem takenIrq_keeper (h : Fin 4) (m : Nat) : takenIrq (1 + h.val) m = [.taken (.keeper h) m] := by
  have hid : 1 ≤ 1 + h.val ∧ 1 + h.val ≤ 4 := by omega
  have hh : (⟨(1 + h.val - 1) % 4, Nat.mod_lt _ (by decide)⟩ : Fin 4) = h := Fin.ext (by simp only; omega)
  rw [takenIrq, if_pos hid, hh]

theorem takenIrq_of_hardware {k : Nat} (h : 0x10 < k) (m : Nat) : takenIrq k m = [] := by
  have hk : ¬ (1 ≤ k ∧ k ≤ 4) := by omega
  have h8 : k ≠ 0x08 := by omega
  have h16 : k ≠ 0x10 := by omega
  simp only [takenIrq, hk, h8, h16, if_false]

/-! ### Held messages (R25, R135) -/

theorem hwWrite_eq (s : State) (by_ : Req) (m : Nat) (ws : List Word) : hwWrite s by_ m ws =
    if mbxAllows s.mbx m by_ = false then senderFault s 1 (senderId by_) m 0
    else if mbxReceiver s.mbx m = 0xFF then senderFault (mbxWords s m 0 (ws.take 7)) 3 (senderId by_) m 7
    else mbxPostNow (mbxWords s m 0 (ws.take 7)) by_ m (ws.getD 7 0) := by
  simp only [hwWrite, Bool.not_eq_true']

/-- What the requester goes on with once its held message has left: a core goes on from its end report. -/
def afterRelease (by_ : Req) (s : State) : State :=
  match by_ with
  | .coreSeq n => coreRest s n.val
  | _ => s

theorem afterRelease_of_other {by_ : Req} (h : ∀ n, by_ ≠ .coreSeq n) (s : State) : afterRelease by_ s = s := by
  cases by_ with
  | coreSeq n => exact absurd rfl (h n)
  | _ => rfl

section
variable {s : State} {by_ : Req} {h : HeldMsg}

theorem execHeldMessagePost_of_none (hn : (s.mbx.held.find? fun x => x.sender == senderId by_) = none) :
    execHeldMessagePost by_ s = .next s := by
  simp only [execHeldMessagePost, heldReady, hn]

section
variable (hh : (s.mbx.held.find? fun x => x.sender == senderId by_) = some h)
include hh

theorem execHeldMessagePost_of_full (hf : mbxFull s.mbx h.mailbox = true) : execHeldMessagePost by_ s = .next s := by
  simp only [execHeldMessagePost, heldReady, hh, hf, if_true]

theorem execHeldMessagePost_of_free (hf : mbxFull s.mbx h.mailbox = false) : execHeldMessagePost by_ s =
    .next (afterRelease by_ (hwWrite { s with mbx := { s.mbx with held := s.mbx.held.erase h } } by_ h.mailbox h.words)) := by
  have hr : heldReady s (senderId by_) = some h := by simp only [heldReady, hh, hf, Bool.false_eq_true, if_false]
  simp only [execHeldMessagePost, releaseHeld, hr]
  rfl

end

end

/-- Settles O21: a read of word 7 by `mbxTake_of_full` and its neighbours, a held message by `execHeldMessagePost_of_free`. -/
theorem takingFreesTheMailboxAndHeldMessagesFollow : Obligations.TakingFreesTheMailboxAndHeldMessagesFollow := by
  unfold Obligations.TakingFreesTheMailboxAndHeldMessagesFollow
  intro by_ m i v s b mine id
  refine ⟨fun h => congrArg _ (mbxTake_of_other h), fun h hf => congrArg _ (mbxTake_of_empty h hf),
    fun h hf => congrArg _ (mbxTake_of_full h hf), fun h => takenIrq_keeper h m.val, rfl, rfl,
    fun k hk => takenIrq_of_hardware hk m.val, fun h => congrArg _ (if_pos h), fun h => congrArg _ (if_neg h),
    fun h hh => ⟨execHeldMessagePost_of_full hh, fun hf => ?held⟩, execHeldMessagePost_of_none⟩
  case held =>
    have hp := execHeldMessagePost_of_free hh hf
    rw [hwWrite_eq] at hp
    refine ⟨?_, fun hn => hp.trans (congrArg _ (afterRelease_of_other hn _))⟩
    rintro n rfl
    exact hp

end Sys2Proof.Machine

/-! Device memory and sparse maps (R19, log 4), and the values that reset leaves (R31, R392): two canonical maps that read alike
are one list. -/

namespace Sys2Proof.Machine

/-! ### One list per content (log 4) -/

section
variable {α : Type}

theorem SMap.get?_head {k : Nat} {v : α} (r : SMap α) : SMap.get? ((k, v) :: r) k = some v := if_pos rfl

/-- Beyond the head, a list reads as its tail does. -/
theorem SMap.get?_tail {k x : Nat} {v : α} {r : SMap α} (hs : SMap.sortedFrom (k + 1) r = true) (h : x ≠ k) :
    SMap.get? ((k, v) :: r) x = SMap.get? r x := by
  simp only [SMap.get?, h, if_false]
  split
  · exact (SMap.get?_below hs (by omega)).symm
  · rfl

/-- The least key of a canonical map is no greater than that of a map which reads alike. -/
theorem SMap.head_le {i j : Nat} {v w : α} {m n : SMap α} (hn : SMap.sortedFrom (j + 1) n = true)
    (h : ∀ k, SMap.get? ((i, v) :: m) k = SMap.get? ((j, w) :: n) k) : j ≤ i := by
  refine Nat.le_of_not_lt fun hij => ?_
  have hi := h i
  rw [SMap.get?_head, SMap.get?_tail hn (Nat.ne_of_lt hij), SMap.get?_below hn (Nat.lt_succ_of_lt hij)] at hi
  cases hi

/-- Two canonical maps with the same values are the same list: their least keys agree, and so do their tails. -/
theorem SMap.eq_of_get?_eq : ∀ {m n : SMap α} {lo : Nat}, SMap.sortedFrom lo m = true → SMap.sortedFrom lo n = true →
    (∀ k, SMap.get? m k = SMap.get? n k) → m = n
  | [], [], _, _, _, _ => rfl
  | [], (j, w) :: r, _, _, _, h => by
    have hj := h j
    rw [SMap.get?_head] at hj
    cases hj
  | (j, w) :: r, [], _, _, _, h => by
    have hj := h j
    rw [SMap.get?_head] at hj
    cases hj
  | (i, v) :: m, (j, w) :: n, lo, hm, hn, h => by
    simp only [SMap.sortedFrom, Bool.and_eq_true, decide_eq_true_eq] at hm hn
    obtain rfl : i = j := Nat.le_antisymm (SMap.head_le hm.2 fun k => (h k).symm) (SMap.head_le hn.2 h)
    have hv := h i
    rw [SMap.get?_head, SMap.get?_head] at hv
    obtain rfl := Option.some.inj hv
    have hr : m = n := SMap.eq_of_get?_eq hm.2 hn.2 fun k => by
      by_cases hk : k = i
      · rw [hk, SMap.get?_below hm.2 (Nat.lt_succ_self i), SMap.get?_below hn.2 (Nat.lt_succ_self i)]
      · rw [← SMap.get?_tail hm.2 hk, h k, SMap.get?_tail hn.2 hk]
    rw [hr]

end

theorem SMap.mem_of_get?_eq_some {α : Type} : ∀ {m : SMap α} {k : Nat} {v : α}, SMap.get? m k = some v → (k, v) ∈ m
  | [], _, _, h => nomatch h
  | (j, w) :: r, k, v, h => by
    unfold SMap.get? at h
    split at h
    next hk =>
      obtain rfl := Option.some.inj h
      exact hk ▸ List.mem_cons_self
    next =>
      split at h
      · cases h
      · exact List.mem_cons_of_mem _ (SMap.mem_of_get?_eq_some h)

/-- In canonical memory a byte is listed iff it is not what an unlisted one reads as. -/
theorem Memory.get?_eq_of_wf {m : Memory} (h : Memory.wf m = true) (a : Nat) :
    SMap.get? m a = if Memory.read m a = unlistedByte then none else some (Memory.read m a) := by
  unfold Memory.read SMap.getD
  cases hg : SMap.get? m a with
  | none => rfl
  | some b => exact (if_neg ((Memory.wf_iff.1 h).2 _ (SMap.mem_of_get?_eq_some hg))).symm

theorem Memory.eq_of_read_eq {m n : Memory} (hm : Memory.wf m = true) (hn : Memory.wf n = true)
    (h : ∀ a, Memory.read m a = Memory.read n a) : m = n :=
  SMap.eq_of_get?_eq (Memory.wf_iff.1 hm).1 (Memory.wf_iff.1 hn).1 fun a => by
    rw [Memory.get?_eq_of_wf hm, Memory.get?_eq_of_wf hn, h a]

/-- Settles O60: the laws of memory and of sparse maps, and `Memory.eq_of_read_eq` for the one list per content. -/
theorem memoryReadsBackWhatWasWritten : Obligations.MemoryReadsBackWhatWasWritten := by
  unfold Obligations.MemoryReadsBackWhatWasWritten
  refine ⟨fun m a c b bs lo hi h => ⟨Memory.read_write_same h a b, Memory.read_write_other h b,
      Memory.readBytes_writeBytes h a bs, Memory.read_writeBytes_other h a bs, Memory.read_clear h lo hi c,
      Memory.wf_write h a b, Memory.wf_writeBytes h a bs, Memory.wf_clear h lo hi⟩,
    fun m n hm hn => Memory.eq_of_read_eq hm hn,
    fun m k j v => ⟨SMap.get?_set_same m k v, SMap.get?_set_other m v⟩⟩

/-! ### Reset (R31, R392) -/

/-- Settles O57: each field of the reset state is written out in the model, and a register without an entry reads its tabled value. -/
theorem resetLeavesTheTabledValues : Obligations.ResetLeavesTheTabledValues := by
  unfold Obligations.ResetLeavesTheTabledValues
  have hctx : ∀ x : Fin 16, (ctxOf State.reset x.val).free = 0xFFFF ∧ (ctxOf State.reset x.val).en = false := fun _ => ⟨rfl, rfl⟩
  have hcam : ∀ p : Fin 4, rget State.reset (camPortCfg p.val) = 0xE40A := by decide
  exact ⟨rfl, rfl, rfl, rfl, rfl, rfl, rfl, rfl, rfl, rfl, rfl, rfl, rfl, rfl, fun _ => rfl, by decide, by decide, by decide, hcam,
    by decide, rfl, fun _ => rfl, fun _ => rfl, hctx, rfl, rfl, rfl, fun _ => rfl, rfl, rfl, rfl, rfl⟩

end Sys2Proof.Machine

/-! The flash controller (R548, R549): PERI_OSPI_GO, reads of the flash window, and the end of a command. -/

namespace Sys2Proof.Machine

/-! ### Who reaches the block and the window (R19) -/

/-- R19: Keeper alone reaches the PERI block. -/
theorem reaches_periRegs (by_ : Req) (wr : Bool) : reaches by_ wr .periRegs = isKeeper by_ := by
  cases by_ <;> rfl

theorem reaches_flash_iff (by_ : Req) : reaches by_ false .flash = true ↔ isKeeper by_ = true ∨ by_ = .sec := by
  cases by_ <;> simp [reaches, isKeeper]

section
variable {by_ : Req} {s : State}

theorem periWrite_of_keeper (h : isKeeper by_ = true) (f : State → State) : periWrite s by_ f = busOk (f s) :=
  if_pos ((reaches_periRegs by_ true).trans h)

theorem periWrite_of_other (h : isKeeper by_ = false) (f : State → State) : periWrite s by_ f = busError s :=
  if_neg (ne_true_of_eq_false ((reaches_periRegs by_ true).trans h))

theorem periRead_of_keeper (h : isKeeper by_ = true) (f : State → State × Word) : periRead s by_ f = busData (f s).1 (f s).2 :=
  if_pos ((reaches_periRegs by_ false).trans h)

theorem periRead_of_other (h : isKeeper by_ = false) (f : State → State × Word) : periRead s by_ f = busError s :=
  if_neg (ne_true_of_eq_false ((reaches_periRegs by_ false).trans h))

/-! ### GO (R549) -/

theorem ospiGo_of_refused {v : Word} (h : s.peri.ospi.busy = true ∨ 256 < bits v.toNat 8 0) : ospiGo s v = s :=
  congrArg (fun o => { s with peri := { s.peri with ospi := o } }) (if_pos h)

theorem ospiGo_of_started {v : Word} (hb : s.peri.ospi.busy = false) (hn : bits v.toNat 8 0 ≤ 256) :
    ospiGo s v = onOspi s fun o => { o with busy := true, len := bits v.toNat 8 0 } := by
  refine congrArg (fun o => { s with peri := { s.peri with ospi := o } }) (if_neg ?_)
  rintro (h | h)
  · exact ne_true_of_eq_false hb h
  · exact Nat.not_le_of_lt h hn

/-! ### Reads of the window (R19, R549) -/

theorem execOspiWindowRead_of_refused {off : BitVec 28} (h : ¬ (isKeeper by_ = true ∨ by_ = .sec) ∨ off.toNat % 4 ≠ 0) :
    execOspiWindowRead by_ off s = .next (busError s) := by
  refine congrArg _ (if_pos ?_)
  rw [← reaches_flash_iff, Bool.not_eq_true] at h
  simpa using h

section
variable {off : BitVec 28} (hr : isKeeper by_ = true ∨ by_ = .sec) (ha : off.toNat % 4 = 0)
include hr ha

theorem execOspiWindowRead_of_reader : execOspiWindowRead by_ off s = .next (if s.peri.ospi.busy then
      onOspi s fun o => { o with waits := o.waits ++ [{ by_ := by_, addr := flashWindow + off.toNat }] }
    else flashAnswer s (flashWindow + off.toNat)) := by
  refine congrArg _ (if_neg ?_)
  simp [(reaches_flash_iff by_).2 hr, ha]

theorem execOspiWindowRead_of_idle (hb : s.peri.ospi.busy = false) :
    execOspiWindowRead by_ off s = .next (flashAnswer s (flashWindow + off.toNat)) := by
  rw [execOspiWindowRead_of_reader hr ha, if_neg (ne_true_of_eq_false hb)]

theorem execOspiWindowRead_of_busy (hb : s.peri.ospi.busy = true) : execOspiWindowRead by_ off s = .next
    (onOspi s fun o => { o with waits := o.waits ++ [{ by_ := by_, addr := flashWindow + off.toNat }] }) := by
  rw [execOspiWindowRead_of_reader hr ha, if_pos hb]

end

end

/-! ### The end of a command (R549) -/

/-- Answers to waiting reads change the bus response alone. -/
theorem foldl_flashAnswer (ws : List FlashRead) (s : State) :
    ws.foldl (fun s r => flashAnswer s r.addr) s = { s with resp := (ws.foldl (fun s r => flashAnswer s r.addr) s).resp } := by
  induction ws generalizing s with
  | nil => rfl
  | cons w ws ih => exact ih (flashAnswer s w.addr)

section
variable (s : State)

theorem flashWaits_eq : flashWaits s = { onOspi s (fun o => { o with waits := [] }) with resp := (flashWaits s).resp } :=
  foldl_flashAnswer _ _

theorem flashWaits_peri : (flashWaits s).peri = { s.peri with ospi := { s.peri.ospi with waits := [] } } := by rw [flashWaits_eq]; rfl

theorem flashWaits_mem : (flashWaits s).mem = s.mem := by rw [flashWaits_eq]; rfl

variable {s}

theorem flashWaits_of_none (h : s.peri.ospi.waits = []) : flashWaits s = s := by
  rw [flashWaits, h, List.foldl_nil]
  exact congrArg (fun ws => onOspi s fun o => { o with waits := ws }) h.symm

/-- The last of the waiting reads answers last. -/
theorem flashWaits_resp {r : List FlashRead} {w : FlashRead} (h : s.peri.ospi.waits = r ++ [w]) :
    (flashWaits s).resp = .data (word (Memory.le s.mem w.addr 4)) := by
  rw [flashWaits, h, List.foldl_append, List.foldl_cons, List.foldl_nil, foldl_flashAnswer]
  rfl

end

section
variable {o : Ospi} {data : List Byte}

theorem ospiFill_of_no_read (h : ospiDir o ≠ 2) : ospiFill o data = o.buf := if_neg h

/-- The bytes read stand in the buffer from its first byte. -/
theorem getD_ospiFill (h : ospiDir o = 2) (hw : SMap.wf o.buf = true) (k : Nat) : SMap.getD (ospiFill o data) k 0 =
    if k < o.len ∧ k < data.length then data.getD k 0 else SMap.getD o.buf k 0 := by
  have hf : ospiFill o data =
      (span 0 (min o.len data.length)).foldl (putIf (fun _ => true) (fun k => data.getD k 0) 0) o.buf := if_pos h
  rw [hf, getD_foldl_putIf k _ hw]
  simp only [mem_span_iff, Nat.zero_le, true_and, Nat.zero_add, Nat.lt_min, and_true]

end

/-- Cells that are written elsewhere leave a byte as it is. -/
theorem Memory.read_writeCells_other : ∀ {m : Memory} (_ : Memory.wf m = true) (cs : List Host.Cell) {x : Nat},
    (∀ c ∈ cs, x ≠ c.1) → Memory.read (Memory.writeCells m cs) x = Memory.read m x
  | _, _, [], _, _ => rfl
  | _, h, (a, b) :: r, _, hx => by
    obtain ⟨ha, hr⟩ := List.forall_mem_cons.1 hx
    exact (Memory.read_writeCells_other (Memory.wf_write h a b) r hr).trans (Memory.read_write_other h b ha)

section
variable {s : State}

theorem read_flashChange_outside (hm : Memory.wf s.mem = true) (ch : List Host.Cell) {a : Nat}
    (ha : a < flashWindow ∨ flashWindow + 0x10000000 ≤ a) : Memory.read (flashChange s ch).mem a = Memory.read s.mem a := by
  refine Memory.read_writeCells_other hm _ fun c hc => ?_
  obtain ⟨d, hd, rfl⟩ := List.mem_map.1 hc
  have hlt : d.1 < 0x10000000 := of_decide_eq_true (List.mem_filter.1 hd).2
  dsimp only
  omega

theorem read_flashChange_byte (hm : Memory.wf s.mem = true) {k : Nat} (b : Byte) (hk : k < 0x10000000) :
    Memory.read (flashChange s [(k, b)]).mem (flashWindow + k) = b := by
  have hf : [(k, b)].filter (fun c : Host.Cell => decide (c.1 < flashSize)) = [(k, b)] :=
    List.filter_cons_of_pos (decide_eq_true hk)
  simp only [flashChange, hf, List.map_cons, List.map_nil, Memory.writeCells]
  exact Memory.read_write_same hm _ b

theorem execOspiCommandTimeout_of_busy (h : s.peri.ospi.busy = true) : execOspiCommandTimeout s =
    .next (flashWaits (onOspi s fun o => { o with busy := false, err := true })) := by
  simp only [execOspiCommandTimeout, h, Bool.not_true, Bool.false_eq_true, if_false]

theorem execOspiCommandDone_of_busy (h : s.peri.ospi.busy = true) (data : List Byte) (ch : List (Nat × Byte)) :
    execOspiCommandDone data ch s =
      .next (flashWaits (onOspi (flashChange s ch) fun o => { o with busy := false, buf := ospiFill o data })) := by
  simp only [execOspiCommandDone, h, Bool.not_true, Bool.false_eq_true, if_false]

theorem ospi_end_of_idle (h : s.peri.ospi.busy = false) (data : List Byte) (ch : List (Nat × Byte)) :
    execOspiCommandDone data ch s = .next s ∧ execOspiCommandTimeout s = .next s := by
  simp only [execOspiCommandDone, execOspiCommandTimeout, h, Bool.not_false, if_true, and_self]

end

/-- Settles O53: GO by `ospiGo_of_started`, a window read by who reaches it, and the end of a command by what `flashWaits` leaves. -/
theorem theFlashControllerRunsCommandsAndAnswersReads : Obligations.TheFlashControllerRunsCommandsAndAnswersReads := by
  unfold Obligations.TheFlashControllerRunsCommandsAndAnswersReads
  intro by_ v off data ch s o n set word_ reader
  refine ⟨fun h => congrArg _ (periWrite_of_other h _), fun hk => ?go, execOspiWindowRead_of_refused,
    fun hr ha => ⟨execOspiWindowRead_of_idle hr ha, execOspiWindowRead_of_busy hr ha⟩, fun h => ospi_end_of_idle h data ch,
    fun hb => ⟨⟨_, execOspiCommandTimeout_of_busy hb, ?timeout⟩, ⟨_, execOspiCommandDone_of_busy hb data ch, ?done⟩⟩⟩
  case go =>
    have hw : exec (.periOspiGo by_ v) s = .next (busOk (ospiGo s v)) := congrArg _ (periWrite_of_keeper hk _)
    exact ⟨fun h => by rw [hw, ospiGo_of_refused h]; rfl, fun hb hn => by rw [hw, ospiGo_of_started hb hn]; rfl⟩
  case timeout =>
    refine ⟨by rw [flashWaits_peri]; rfl, flashWaits_mem _, fun h => ?_, fun r w h => flashWaits_resp h⟩
    refine flashWaits_of_none ?_
    exact h
  case done =>
    refine ⟨by rw [flashWaits_peri]; rfl, fun h => ?_, fun h hw k => ?_, fun r w h => ?_, fun hm a ha => ?_, ?_⟩
    · rw [flashWaits_peri]
      exact ospiFill_of_no_read h
    · rw [flashWaits_peri]
      exact getD_ospiFill h hw k
    · rw [flashWaits_mem]
      exact flashWaits_resp h
    · rw [flashWaits_mem]
      exact read_flashChange_outside hm ch ha
    · rintro hm k b rfl hk
      rw [flashWaits_mem]
      exact read_flashChange_byte hm b hk

end Sys2Proof.Machine

/-! I2C, SPI, GPIO and the UART (R548, R550, R551, R552): transfers and their FIFOs, pin interrupts and the console. -/

namespace Sys2Proof.Machine

/-! ### Bytes and FIFOs -/

/-- A FIFO of n bytes that takes one more: a full one stays as it is. -/
theorem take_append_singleton {α : Type} (l : List α) (x : α) (n : Nat) :
    (l ++ [x]).take n = if l.length < n then l ++ [x] else l.take n := by
  split
  next h => exact List.take_of_length_le (by rw [List.length_append, List.length_singleton]; omega)
  next h => exact List.take_append_of_le_length (Nat.le_of_not_lt h)

theorem fifoFront_of_cons (s : State) {q : List Byte} {y : Byte} {r : List Byte} (h : q = y :: r) :
    fifoFront s q = word y.toNat := by
  subst h
  rfl

theorem toNat_word_byte (y : Byte) : (word y.toNat).toNat = y.toNat := by
  have hy := y.isLt
  simp only [word, BitVec.toNat_ofNat]
  omega

/-- What a FIFO answers is a byte. -/
theorem fifoFront_lt (s : State) (q : List Byte) : (fifoFront s q).toNat < 256 := by
  cases q with
  | nil =>
    rw [fifoFront, BitVec.toNat_and]
    exact Nat.and_lt_two_pow (n := 8) _ (by decide)
  | cons y r =>
    rw [fifoFront_of_cons s rfl, toNat_word_byte]
    exact y.isLt

/-! ### The controllers -/

section
variable {s : State}

theorem modI2c_congr {b : Nat} {f g : I2c → I2c} (h : f (i2cOf s b) = g (i2cOf s b)) : modI2c s b f = modI2c s b g := by
  unfold modI2c
  rw [h]

theorem modSpi_congr {b : Nat} {f g : Spi → Spi} (h : f (spiOf s b) = g (spiOf s b)) : modSpi s b f = modSpi s b g := by
  unfold modSpi
  rw [h]

end

section
variable {c : I2c} {v : Word}

theorem i2cCommand_of_busy (h : c.busy = true) : i2cCommand c v = c := if_pos h

theorem i2cCommand_of_fields (h : c.busy = false) (hg : bitOf v.toNat 31 = false) :
    i2cCommand c v = { c with cmd := v &&& 0x73FF001F } :=
  (if_neg (ne_true_of_eq_false h)).trans (if_neg (ne_true_of_eq_false hg))

theorem i2cCommand_of_go (h : c.busy = false) (hg : bitOf v.toNat 31 = true) :
    i2cCommand c v = { c with cmd := v &&& 0x73FF001F, busy := true, repeated := c.held } :=
  (if_neg (ne_true_of_eq_false h)).trans (if_pos hg)

end

section
variable {d : Spi} {v : Word}

theorem spiCommand_of_busy (h : d.busy = true) : spiCommand d v = d := if_pos h

theorem spiCommand_of_fields (h : d.busy = false) (hg : bitOf v.toNat 31 = false) :
    spiCommand d v = { d with hold := bitOf v.toNat 8, len := bits v.toNat 5 0 } :=
  (if_neg (ne_true_of_eq_false h)).trans (if_neg (ne_true_of_eq_false hg))

theorem spiCommand_of_go (h : d.busy = false) (hg : bitOf v.toNat 31 = true) : spiCommand d v =
    { d with hold := bitOf v.toNat 8, len := bits v.toNat 5 0, busy := true, cs := some (bits d.cfg.toNat 1 0) } :=
  (if_neg (ne_true_of_eq_false h)).trans (if_pos hg)

end

/-! ### Rows that Keeper alone makes (R19) -/

section
variable {by_ : Req} {s : State}

theorem serial_rows_of_other (h : isKeeper by_ = false) (b : Fin 4) (c2 : Fin 2) (v : Word) (x : Byte) :
    ∀ i ∈ [Instr.i2cTransfer by_ b v, .i2cFifoWrite by_ b x, .i2cFifoRead by_ b, .spiTransfer by_ c2 v,
      .spiFifoWrite by_ c2 x, .spiFifoRead by_ c2, .uartDataWrite by_ x, .uartDataRead by_],
      exec i s = .next (busError s) := by
  have hw (f : State → State) : Host.Outcome.next (periWrite s by_ f) = (.next (busError s) : Host.Outcome State Fault Refusal) :=
    congrArg _ (periWrite_of_other h f)
  have hr (f : State → State × Word) :
      Host.Outcome.next (periRead s by_ f) = (.next (busError s) : Host.Outcome State Fault Refusal) :=
    congrArg _ (periRead_of_other h f)
  simp only [List.forall_mem_cons, List.not_mem_nil, false_implies, implies_true, and_true]
  exact ⟨hw _, hw _, hr _, hw _, hw _, hr _, hw _, hr _⟩

section
variable (hk : isKeeper by_ = true)
include hk

theorem exec_i2cTransfer_of_keeper (b : Fin 4) {v : Word} {c : I2c} (h : i2cCommand (i2cOf s b.val) v = c) :
    exec (.i2cTransfer by_ b v) s = .next (busOk (modI2c s b.val fun _ => c)) :=
  congrArg _ ((periWrite_of_keeper hk _).trans (congrArg busOk (modI2c_congr h)))

theorem exec_spiTransfer_of_keeper (b : Fin 2) {v : Word} {d : Spi} (h : spiCommand (spiOf s b.val) v = d) :
    exec (.spiTransfer by_ b v) s = .next (busOk (modSpi s b.val fun _ => d)) :=
  congrArg _ ((periWrite_of_keeper hk _).trans (congrArg busOk (modSpi_congr h)))

theorem exec_i2cFifoWrite_of_keeper (b : Fin 4) (x : Byte) : exec (.i2cFifoWrite by_ b x) s = .next (busOk
    (modI2c s b.val fun _ => { i2cOf s b.val with
      tx := if (i2cOf s b.val).tx.length < 32 then (i2cOf s b.val).tx ++ [x] else (i2cOf s b.val).tx.take 32 })) := by
  rw [← take_append_singleton]
  exact congrArg _ (periWrite_of_keeper hk _)

theorem exec_spiFifoWrite_of_keeper (b : Fin 2) (x : Byte) : exec (.spiFifoWrite by_ b x) s = .next (busOk
    (modSpi s b.val fun _ => { spiOf s b.val with
      tx := if (spiOf s b.val).tx.length < 64 then (spiOf s b.val).tx ++ [x] else (spiOf s b.val).tx.take 64 })) := by
  rw [← take_append_singleton]
  exact congrArg _ (periWrite_of_keeper hk _)

theorem exec_uartDataWrite_of_keeper (x : Byte) : exec (.uartDataWrite by_ x) s = .next (busOk
    (onPeri s fun p => { p with uartTx := if p.uartTx.length < 64 then p.uartTx ++ [x] else p.uartTx.take 64 })) := by
  simp only [← take_append_singleton]
  exact congrArg _ (periWrite_of_keeper hk _)

end

end

/-! ### The end of a transfer (R550, R551) -/

section
variable {s : State}

theorem i2c_end_of_idle {b : Fin 4} (h : (i2cOf s b.val).busy = false) (sent : Nat) (data : List Byte) (nack lost : Bool) :
    execI2cTransferDone b sent data nack lost s = .next s ∧ execI2cStretchTimeout b sent data s = .next s := by
  simp only [execI2cTransferDone, execI2cStretchTimeout, h, Bool.not_false, if_true, and_self]

theorem execI2cTransferDone_of_busy {b : Fin 4} (h : (i2cOf s b.val).busy = true) (sent : Nat) (data : List Byte)
    (nack lost : Bool) : execI2cTransferDone b sent data nack lost s = .next (i2cEnd s b.val fun c => { i2cMove c sent data with
      nack := c.nack || nack, arbLost := c.arbLost || lost, held := !i2cStops c && !lost }) := by
  simp only [execI2cTransferDone, h, Bool.not_true, Bool.false_eq_true, if_false]

theorem execI2cStretchTimeout_of_busy {b : Fin 4} (h : (i2cOf s b.val).busy = true) (sent : Nat) (data : List Byte) :
    execI2cStretchTimeout b sent data s =
      .next (i2cEnd s b.val fun c => { i2cMove c sent data with timeout := true, held := false }) := by
  simp only [execI2cStretchTimeout, h, Bool.not_true, Bool.false_eq_true, if_false]

theorem execSpiTransferDone_of_idle {b : Fin 2} (h : (spiOf s b.val).busy = false) (data : List Byte) :
    execSpiTransferDone b data s = .next s := by
  simp only [execSpiTransferDone, h, Bool.not_false, if_true]

theorem execSpiTransferDone_of_busy {b : Fin 2} (h : (spiOf s b.val).busy = true) (data : List Byte) :
    execSpiTransferDone b data s = .next { modSpi s b.val fun c => { c with
      busy := false, done := true, tx := c.tx.drop (spiCount c), rx := (c.rx ++ data.take (spiCount c)).take 64,
      cs := if c.hold then c.cs else none } with irqs := .spi b.val :: s.irqs } := by
  simp only [execSpiTransferDone, h, Bool.not_true, Bool.false_eq_true, if_false]
  rfl

end

/-! ### GPIO (R552) -/

/-- A change of level matches a pin's type: rising, falling, either, or low. -/
def PinHit (type : Nat) (was level : Bool) : Prop :=
  (type = 0 ∧ was = false ∧ level = true) ∨ (type = 1 ∧ was = true ∧ level = false) ∨ (type = 2 ∧ was ≠ level) ∨
    (type = 3 ∧ level = false)

theorem gpioMatch_iff {type : Nat} (h : type < 4) (was level : Bool) : gpioMatch type was level = true ↔ PinHit type was level := by
  match type, h with
  | 0, _ => simp [gpioMatch, PinHit]
  | 1, _ => simp [gpioMatch, PinHit]
  | 2, _ => simp [gpioMatch, PinHit]
  | 3, _ => simp [gpioMatch, PinHit]

theorem gpioType_lt (n k : Nat) : bits n (2 * k + 1) (2 * k) < 4 := by
  have h : 2 * k + 1 + 1 - 2 * k = 2 := by omega
  rw [bits, h]
  exact Nat.mod_lt _ (by decide)

section
variable {s : State} {pin : Fin 16} {level : Bool}

theorem gpioHit_iff : (bitOf s.peri.gpioEn pin.val && gpioMatch (bits s.peri.gpioType (2 * pin.val + 1) (2 * pin.val))
      (bitOf s.peri.gpioIn pin.val) level) = true ↔
    bitOf s.peri.gpioEn pin.val = true ∧
      PinHit (bits s.peri.gpioType (2 * pin.val + 1) (2 * pin.val)) (bitOf s.peri.gpioIn pin.val) level := by
  rw [Bool.and_eq_true, gpioMatch_iff (gpioType_lt _ _)]

end

/-! ### The UART (R552) -/

section
variable {s : State}

theorem uart_rows_of_off (h : ¬ bitOf s.peri.uartCfg.toNat 16 = true) (x : Byte) :
    execUartRxByte x s = .next s ∧ execUartTxByteDone s = .next s := by
  have hu : uartOn s = false := Bool.eq_false_iff.2 h
  simp only [execUartRxByte, execUartTxByteDone, hu, Bool.not_false, if_true, and_self]

section
variable (h : bitOf s.peri.uartCfg.toNat 16 = true)
include h

theorem execUartRxByte_of_on (x : Byte) : execUartRxByte x s = .next (onPeri s fun p =>
    if p.uartRx.length < 64 then { p with uartRx := p.uartRx ++ [x] } else { p with uartOverrun := true }) := by
  have hu : uartOn s = true := h
  simp only [execUartRxByte, hu, Bool.not_true, Bool.false_eq_true, if_false]

theorem execUartTxByteDone_of_on : execUartTxByteDone s = .next (onPeri s fun p =>
    { p with uartTx := p.uartTx.drop 1, uartSent := p.uartTx.take 1 ++ p.uartSent }) := by
  have hu : uartOn s = true := h
  simp only [execUartTxByteDone, hu, Bool.not_true, Bool.false_eq_true, if_false]

theorem execUartRxByte_of_room (x : Byte) (hn : s.peri.uartRx.length < 64) :
    execUartRxByte x s = .next { s with peri := { s.peri with uartRx := s.peri.uartRx ++ [x] } } := by
  rw [execUartRxByte_of_on h, onPeri, if_pos hn]

theorem execUartRxByte_of_full (x : Byte) (hn : 64 ≤ s.peri.uartRx.length) :
    execUartRxByte x s = .next { s with peri := { s.peri with uartOverrun := true } } := by
  rw [execUartRxByte_of_on h, onPeri, if_neg (Nat.not_lt_of_le hn)]

theorem execUartTxByteDone_of_empty (hn : s.peri.uartTx = []) : execUartTxByteDone s = .next s := by
  rw [execUartTxByteDone_of_on h, onPeri, hn, List.drop_nil, List.take_nil, List.nil_append, ← hn]

theorem execUartTxByteDone_of_cons {y : Byte} {r : List Byte} (hn : s.peri.uartTx = y :: r) : execUartTxByteDone s =
    .next { s with peri := { s.peri with uartTx := r, uartSent := y :: s.peri.uartSent } } := by
  rw [execUartTxByteDone_of_on h, onPeri, hn]
  rfl

end

end

/-- Settles O54: the register rows by who reaches them, transfers and their ends by controller, pins by `gpioHit_iff`. -/
theorem serialBusesPinsAndTheConsoleMoveTheirBytes : Obligations.SerialBusesPinsAndTheConsoleMoveTheirBytes := by
  unfold Obligations.SerialBusesPinsAndTheConsoleMoveTheirBytes
  intro by_ b c2 v x sent data nack lost level pin s c d pr ok fields sfields n moved ended m k was type seen hit on
  refine ⟨fun h => serial_rows_of_other h b c2 v x, fun hk => ?keeper, fun h => i2c_end_of_idle h sent data nack lost,
    fun h => ⟨execI2cTransferDone_of_busy h sent data nack lost, execI2cStretchTimeout_of_busy h sent data⟩,
    fun h => execSpiTransferDone_of_idle h data, fun h => execSpiTransferDone_of_busy h data,
    fun h => congrArg _ (if_neg (mt gpioHit_iff.1 h)), fun h => congrArg _ (if_pos (gpioHit_iff.2 h)),
    fun h => uart_rows_of_off h x, fun h => ⟨execUartRxByte_of_room h x, execUartRxByte_of_full h x,
      execUartTxByteDone_of_empty h, fun y r => execUartTxByteDone_of_cons h⟩⟩
  case keeper =>
    exact ⟨fun h => exec_i2cTransfer_of_keeper hk b (i2cCommand_of_busy h),
      fun h hg => exec_i2cTransfer_of_keeper hk b (i2cCommand_of_fields h hg),
      fun h hg => exec_i2cTransfer_of_keeper hk b (i2cCommand_of_go h hg), exec_i2cFifoWrite_of_keeper hk b x,
      congrArg _ (periRead_of_keeper hk _), fun h => exec_spiTransfer_of_keeper hk c2 (spiCommand_of_busy h),
      fun h hg => exec_spiTransfer_of_keeper hk c2 (spiCommand_of_fields h hg),
      fun h hg => exec_spiTransfer_of_keeper hk c2 (spiCommand_of_go h hg), exec_spiFifoWrite_of_keeper hk c2 x,
      ⟨fifoFront s d.rx, congrArg _ (periRead_of_keeper hk _), fun y r => fifoFront_of_cons s, fifoFront_lt s _⟩,
      exec_uartDataWrite_of_keeper hk x,
      ⟨fifoFront s pr.uartRx, congrArg _ (periRead_of_keeper hk _), fun y r => fifoFront_of_cons s, fifoFront_lt s _⟩⟩

end Sys2Proof.Machine

/-! What keeps the mode and the kind of the last start (R29, R503): messages, dispatch, cameras, sessions and firmware. -/

namespace Sys2Proof.Machine

/-- The always-on domain, and the kind of the last start. -/
def aonKind (s : State) : Aon × Nat := (s.aon, s.boot.kind)

/-! ### Messages to mailboxes, hosts and members -/

theorem aonKind_of_onlyMailboxes {s t : State} (h : OnlyMailboxes s t) : aonKind t = aonKind s := by
  obtain ⟨b, q, rfl⟩ := h
  rfl

theorem aonKind_senderFault (s : State) (cause sender m w : Nat) : aonKind (senderFault s cause sender m w) = aonKind s :=
  aonKind_of_onlyMailboxes (onlyMailboxes_senderFault s cause sender m w)

theorem aonKind_mbxPostNow (s : State) (by_ : Req) (m : Nat) (v : Word) : aonKind (mbxPostNow s by_ m v) = aonKind s :=
  aonKind_of_onlyMailboxes (onlyMailboxes_mbxPostNow s by_ m v)

theorem aonKind_busOk (s : State) : aonKind (busOk s) = aonKind s := rfl

theorem aonKind_busError (s : State) : aonKind (busError s) = aonKind s := rfl

theorem aonKind_mbxWrite (s : State) (by_ : Req) (m w : Nat) (v : Word) : aonKind (mbxWrite s by_ m w v) = aonKind s := by
  unfold mbxWrite
  split
  · rw [aonKind_busError]
    split
    · exact aonKind_senderFault s _ _ _ _
    · rfl
  · rw [aonKind_busOk]
    split
    · exact aonKind_mbxPostNow s by_ m v
    · rfl

theorem aonKind_keeperPost (s : State) (m : Nat) (ws : List Word) : aonKind (keeperPost s m ws) = aonKind s :=
  foldl_keeps aonKind (fun s w => aonKind_mbxWrite s _ m w _) _ s

theorem aonKind_sectorMsg (s : State) (type p ix queue t reason : Nat) :
    aonKind (sectorMsg s type p ix queue t reason) = aonKind s := by
  unfold sectorMsg
  split
  · exact aonKind_of_onlyMailboxes (onlyMailboxes_hwPost s _ _ _)
  · rfl

theorem aonKind_emit (s : State) (n : Nat) (f : TctFrame) : aonKind (emit s n f) = aonKind s := by
  unfold emit
  split
  · rfl
  · rfl

theorem aonKind_emitAll (n : Nat) : ∀ (l : List TctFrame) (s : State), aonKind (emitAll s n l) = aonKind s
  | [], _ => rfl
  | f :: r, s => (aonKind_emitAll n r (emit s n f)).trans (aonKind_emit s n f)

theorem aonKind_pump (s : State) (n : Nat) : aonKind (pump s n) = aonKind s := by
  unfold pump
  split
  · rfl
  · split
    · rfl
    · exact aonKind_emitAll n _ _

theorem aonKind_sendMsg (s : State) (n type : Nat) (payload : List Byte) (hs : List Nat) :
    aonKind (sendMsg s n type payload hs) = aonKind s := by
  unfold sendMsg
  split
  · rfl
  · exact aonKind_pump _ n

theorem aonKind_deliver (s : State) (r : Record) (x : Handle) : aonKind (deliver s r x) = aonKind s := by
  unfold deliver
  split
  · exact aonKind_sendMsg _ _ _ _ _
  · rfl

theorem aonKind_complete (s : State) (h status r0 r1 detail : Nat) :
    aonKind (complete s h status r0 r1 detail) = aonKind s := by
  unfold complete
  split
  · split
    · exact aonKind_deliver s _ _
    · rfl
  · rfl

theorem aonKind_linkSend (s : State) (p : Nat) (f : FabFrame) : aonKind (linkSend s p f) = aonKind s := by
  unfold linkSend
  split
  · rfl
  · split
    · rfl
    · rfl

theorem aonKind_fabSend (s : State) (f : FabFrame) : aonKind (fabSend s f) = aonKind s := by
  unfold fabSend
  split
  · rfl
  · split
    · exact aonKind_linkSend s _ f
    · rfl

theorem aonKind_placeSend (s : State) (dest : Nat) (m : FabMsg) (answer : Bool) :
    aonKind (placeSend s dest m answer) = aonKind s := by
  unfold placeSend
  dsimp only
  split
  · exact aonKind_fabSend s _
  · exact aonKind_fabSend s _

/-! ### Dispatch (R296, R308, R312) -/

theorem aonKind_startSems (s : State) (x : Job) : aonKind (startSems s x) = aonKind s := by
  refine foldl_keeps aonKind (fun s d => ?_) _ s
  split
  · rfl
  · rfl

theorem aonKind_tellStages (s : State) (j : Nat) (x : Job) : aonKind (tellStages s j x) = aonKind s := by
  unfold tellStages
  split
  · rfl
  · exact foldl_keeps aonKind (fun s i => aonKind_placeSend s _ _ _) _ s

theorem aonKind_startJob (s : State) (j : Nat) (x : Job) : aonKind (startJob s j x) = aonKind s :=
  (aonKind_tellStages _ j x).trans (aonKind_startSems s x)

theorem aonKind_restoreNow (s : State) (q : Nat) : aonKind (restoreNow s q) = aonKind s := by
  unfold restoreNow
  split
  · rfl
  · split
    · rfl
    · refine foldl_keeps aonKind (fun s e => ?_) _ s
      rfl

theorem aonKind_allocFixed {part : Nat} : ∀ {k : Nat} {s t : State} {fs : List Nat}, allocFixed s part k = some (t, fs) →
    aonKind t = aonKind s
  | 0, s, t, fs, h => by
    obtain ⟨rfl, rfl⟩ := Prod.mk.inj (Option.some.inj h)
    rfl
  | k + 1, s, t, fs, h => by
    unfold allocFixed at h
    split at h
    · cases h
    · split at h
      next ha =>
        obtain ⟨rfl, rfl⟩ := Prod.mk.inj (Option.some.inj h)
        exact (aonKind_allocFixed ha).trans rfl
      next => cases h

theorem aonKind_launchArea {s t : State} {p a : Nat} (h : launchArea s p = some (t, a)) : aonKind t = aonKind s := by
  unfold launchArea at h
  split at h
  · obtain ⟨rfl, rfl⟩ := Prod.mk.inj (Option.some.inj h)
    rfl
  · split at h
    next ha =>
      obtain ⟨rfl, rfl⟩ := Prod.mk.inj (Option.some.inj h)
      have hu := aonKind_allocFixed ha
      exact hu
    next => cases h

theorem aonKind_launchOne (s : State) (p : Nat) (w : Work) (cmd : JCmd) (c : Nat) :
    aonKind (launchOne s p w cmd c) = aonKind s := by
  unfold launchOne
  split
  next x s1 area hx ha =>
    have h1 : aonKind s1 = aonKind s := (aonKind_launchArea ha).trans (aonKind_restoreNow s _)
    have h2 : aonKind (if x.started then s1 else startJob s1 w.job x) = aonKind s1 := by
      split
      · rfl
      · exact aonKind_startJob s1 _ x
    dsimp only
    generalize (if x.started then s1 else startJob s1 w.job x) = s2 at h2
    have h4 (ws : List Word) : aonKind (keeperPost (writeMem s2 (area + 512 * c) (launchBlock s2 x cmd)) (32 + c) ws) =
        aonKind s2 := aonKind_keeperPost _ _ _
    generalize hk : keeperPost (writeMem s2 (area + 512 * c) (launchBlock s2 x cmd)) (32 + c) _ = s4
    exact (hk ▸ h4 _ : aonKind s4 = aonKind s2).trans (h2.trans h1)
  next => rfl

theorem aonKind_launchAll (s : State) (p : Nat) (w : Work) (cores : List Nat) :
    aonKind (launchAll s p w cores) = aonKind s := by
  unfold launchAll
  rw [foldl_keeps aonKind (f := fun s (x : JCmd × Nat) => launchOne s p w x.1 x.2) fun s x => aonKind_launchOne s p w x.1 x.2]
  unfold noteFirst
  split
  · rfl
  · rfl

theorem aonKind_placeAll (p : Nat) : ∀ (l : List Work) (s : State) (held : List Nat), aonKind (placeAll s p held l) = aonKind s
  | [], _, _ => rfl
  | w :: r, s, held => by
    unfold placeAll
    split
    · split
      · exact (aonKind_placeAll p r _ _).trans (aonKind_launchAll s p w _)
      · exact aonKind_placeAll p r s _
    · exact aonKind_placeAll p r s _

theorem aonKind_dispatchPart (s : State) (p : Nat) : aonKind (dispatchPart s p) = aonKind s := by
  unfold dispatchPart
  split
  · rfl
  · exact aonKind_placeAll p _ _ _

theorem aonKind_closeIdle (s : State) (p : Nat) : aonKind (closeIdle s p) = aonKind s := by
  refine foldl_keeps aonKind (fun s o => ?_) _ s
  dsimp only
  split
  · exact aonKind_sectorMsg _ _ _ _ _ _ _
  · rfl

theorem aonKind_reschedule (s : State) (p : Nat) : aonKind (reschedule s p) = aonKind s :=
  (aonKind_dispatchPart _ p).trans (aonKind_closeIdle _ p)

theorem aonKind_rescheduleAll (s : State) : aonKind (rescheduleAll s) = aonKind s :=
  foldl_keeps aonKind aonKind_reschedule _ s

/-! ### Sessions and the store (R33, R275) -/

theorem aonKind_noteLoss (s : State) (n pos : Nat) : aonKind (noteLoss s n pos) = aonKind s := by
  unfold noteLoss
  split
  · exact aonKind_placeSend _ _ _ _
  · split
    · rfl
    · rfl

theorem aonKind_dropPage (s : State) (key : Nat) : aonKind (dropPage s key) = aonKind s := by
  unfold dropPage
  split
  · rfl
  · dsimp only
    split
    · rfl
    · rfl

theorem aonKind_goCold (s : State) (n : Nat) : aonKind (goCold s n) = aonKind s := by
  unfold goCold
  split
  · rfl
  · split
    · rfl
    · exact (aonKind_noteLoss _ n 0).trans (foldl_keeps aonKind (fun s (g : Nat × Page) => aonKind_dropPage s g.1) _ s)

theorem aonKind_freeOldLogs (s : State) : aonKind (freeOldLogs s) = aonKind s := by
  refine foldl_keeps aonKind (fun s v => ?_) _ s
  rfl

theorem aonKind_newEntry {s t : State} {e : DirEntry} {bytes : List Byte} {k : Nat} (h : newEntry s e bytes = some (t, k)) :
    aonKind t = aonKind s := by
  unfold newEntry at h
  dsimp only at h
  split at h
  · obtain ⟨rfl, rfl⟩ := Prod.mk.inj (Option.some.inj h)
    rfl
  · cases h

theorem aonKind_saveLog {s t : State} {n : Nat} {v : Session} {x : SavedSession} (h : saveLog s n v = some (t, x)) :
    aonKind t = aonKind s := by
  obtain ⟨⟨u, k⟩, hu, he⟩ := Option.map_eq_some_iff.1 h
  obtain ⟨rfl, rfl⟩ := Prod.mk.inj he
  exact aonKind_newEntry hu

theorem aonKind_saveLogs : ∀ {l : List (Nat × Session)} {s t : State} {xs : List SavedSession},
    saveLogs s l = some (t, xs) → aonKind t = aonKind s
  | [], s, t, xs, h => by
    obtain ⟨rfl, rfl⟩ := Prod.mk.inj (Option.some.inj h)
    rfl
  | (n, v) :: r, s, t, xs, h => by
    unfold saveLogs at h
    split at h
    · cases h
    next u x hu =>
      obtain ⟨⟨w, ys⟩, hw, he⟩ := Option.map_eq_some_iff.1 h
      obtain ⟨rfl, rfl⟩ := Prod.mk.inj he
      exact (aonKind_saveLogs hw).trans (aonKind_saveLog hu)

theorem aonKind_buoyWork {s t : State} (h : buoyWork s = some t) : aonKind t = aonKind s := by
  unfold buoyWork at h
  split at h
  · cases h
  · obtain ⟨⟨u, xs⟩, hu, rfl⟩ := Option.map_eq_some_iff.1 h
    have hl := aonKind_saveLogs hu
    exact hl.trans ((aonKind_freeOldLogs _).trans (foldl_keeps aonKind aonKind_goCold _ s))

/-! ### What a mode powers (R27, R412, R414, R436) -/

theorem aonKind_endFrame (s : State) (x cause st : Nat) : aonKind (endFrame s x cause st) = aonKind s := by
  cases h : (ctxOf s x).frame with
  | none => rw [endFrame_of_none cause st h]
  | some f =>
    obtain ⟨u, hu, he⟩ := endFrame_of_some cause st h
    rw [he, hu.fields]
    rfl

theorem aonKind_camDisable (s : State) (x : Nat) : aonKind (camDisable s x) = aonKind s := aonKind_endFrame s x 4 0

theorem aonKind_setLowRate (s : State) (v : Bool) : aonKind (setLowRate s v) = aonKind s := by
  unfold setLowRate
  split
  · rfl
  · rfl

theorem aonKind_camToBeacon (s : State) : aonKind (camToBeacon s) = aonKind s :=
  (aonKind_setLowRate _ true).trans (foldl_keeps aonKind aonKind_camDisable _ s)

theorem aonKind_camEnable (s : State) (x : Nat) : aonKind (camEnable s x) = aonKind s := by
  have hb : aonKind (camBoundary s x) = aonKind s := by
    unfold camBoundary
    dsimp only
    split
    · rfl
    · split
      · rfl
      · rfl
  unfold camEnable
  dsimp only
  split
  · rfl
  · split
    · exact hb
    · exact hb

theorem aonKind_camToLantern (s : State) : aonKind (camToLantern s) = aonKind s :=
  (foldl_keeps aonKind aonKind_camEnable _ _).trans (aonKind_setLowRate s false)

theorem aonKind_agconIdle (s : State) (idle : Bool) : aonKind (agconIdle s idle) = aonKind s := by
  refine foldl_keeps aonKind (fun s p => ?_) _ s
  rfl

theorem aonKind_pcieUp (s : State) : aonKind (pcieUp s) = aonKind s := by
  unfold pcieUp
  split
  · rfl
  · rfl

theorem aonKind_queueReplay (s : State) (q steps : Nat) : aonKind (queueReplay s q steps) = aonKind s := by
  unfold queueReplay
  split
  · rfl
  · dsimp only
    split
    · rfl
    · rfl

theorem aonKind_restoreRows (s : State) (q : Nat) : aonKind (restoreRows s q) = aonKind s := by
  unfold restoreRows
  split
  · rfl
  · dsimp only
    split
    · rfl
    · split
      · rfl
      · exact aonKind_queueReplay _ q _

theorem aonKind_coreOff (s : State) (c : Nat) : aonKind (coreOff s c) = aonKind s :=
  foldl_keeps aonKind aonKind_restoreRows _ _

theorem aonKind_powerUp (s : State) (m : Mode) : aonKind (powerUp s m) = aonKind s := by
  have hc : aonKind ((coresUp s m).foldl powerCore s) = aonKind s := foldl_keeps aonKind (f := powerCore) (fun _ _ => rfl) _ s
  unfold powerUp
  dsimp only
  split
  · exact (aonKind_agconIdle _ false).trans ((aonKind_pcieUp _).trans ((aonKind_camToLantern _).trans hc))
  · split
    · exact (aonKind_camToBeacon _).trans hc
    · exact hc

theorem aonKind_powerDown (s : State) (m : Mode) : aonKind (powerDown s m) = aonKind s := by
  have hc : aonKind ((waysOfMode m).foldl wayOff ((coresDown s m).foldl coreOff s)) = aonKind s :=
    (foldl_keeps aonKind (f := wayOff) (fun _ _ => rfl) _ _).trans (foldl_keeps aonKind aonKind_coreOff _ s)
  unfold powerDown
  dsimp only
  split
  · exact (aonKind_agconIdle _ true).trans ((aonKind_camToBeacon _).trans hc)
  · exact hc

theorem aonKind_enterBuoy (s : State) : aonKind (enterBuoy s) = aonKind s := by
  unfold enterBuoy
  dsimp only
  split
  · rfl
  · rfl

/-! ### Mode requests (R30, R32, R33, R409, R410) -/

/-- The mode, and the kind of the last start. -/
def modeKind (s : State) : Mode × Nat := (s.aon.mode, s.boot.kind)

theorem modeKind_of_aonKind {s t : State} (h : aonKind t = aonKind s) : modeKind t = modeKind s :=
  congrArg (fun x : Aon × Nat => (x.1.mode, x.2)) h

theorem modeKind_endSetMode (s : State) (status : Nat) : modeKind (endSetMode s status) = modeKind s := by
  unfold endSetMode
  split
  · rfl
  · exact modeKind_of_aonKind (aonKind_complete _ _ _ _ _ _)

theorem modeKind_checkSetMode (s : State) : modeKind (checkSetMode s) = modeKind s := by
  unfold checkSetMode
  split
  · rfl
  · dsimp only
    split
    · exact modeKind_endSetMode s _
    · split
      · rfl
      · exact modeKind_endSetMode s _

theorem modeKind_stepUp (s : State) (m : Mode) : modeKind (stepUp s m) = modeKind s := by
  unfold stepUp
  dsimp only
  split
  · rfl
  · rfl

theorem modeKind_askUp (s : State) (m : Mode) (cause : Nat) : modeKind (askUp s m cause) = modeKind s := by
  unfold askUp
  dsimp only
  split
  · split
    · rfl
    · split
      · exact modeKind_stepUp _ m
      · rfl
  · split
    · exact modeKind_stepUp _ m
    · rfl

theorem modeKind_sleepRequests (s : State) : modeKind (sleepRequests s) = modeKind s := by
  refine foldl_keeps modeKind (fun s p => ?_) _ s
  split
  · rfl
  · rfl

theorem modeKind_floorBeacon (s : State) : modeKind (floorBeacon s) = modeKind s := modeKind_endSetMode _ 0

theorem modeKind_stepDown (s : State) (goal : Mode) : modeKind (stepDown s goal) = modeKind s := by
  unfold stepDown
  dsimp only
  split
  · split
    · exact modeKind_floorBeacon s
    · split
      · exact modeKind_floorBeacon s
      next ht => exact (modeKind_sleepRequests _).trans (modeKind_of_aonKind (aonKind_buoyWork ht))
  · rfl

theorem modeKind_modeReq (s : State) (m : Mode) : modeKind (modeReq s m) = modeKind s := by
  unfold modeReq
  dsimp only
  split
  · split
    · rfl
    · exact modeKind_askUp s m 4
  · split
    · exact modeKind_askUp s m 4
    · unfold startDown
      split
      · rfl
      · exact modeKind_stepDown s m

theorem modeKind_takeWanted (s : State) : modeKind (takeWanted s) = modeKind s := by
  unfold takeWanted
  split
  · rfl
  · exact modeKind_modeReq _ _

theorem modeKind_askForJobs (s : State) : modeKind (askForJobs s) = modeKind s := by
  unfold askForJobs
  split
  · rfl
  · dsimp only
    split
    · exact modeKind_askUp s _ 4
    · rfl

/-! ### Firmware that waits to start (R515, R518) -/

theorem modeKind_modPort (s : State) (p : Nat) (f : HostPort → HostPort) : modeKind (modPort s p f) = modeKind s := by
  unfold modPort
  split
  · rfl
  · rfl

theorem modeKind_restartPhys (s : State) : modeKind (restartPhys s) = modeKind s := by
  have hf : modeKind (fabPorts.foldl (fun s p => if fabUp s p then linkRestart s p else s) s) = modeKind s := by
    refine foldl_keeps modeKind (fun s p => ?_) _ s
    split
    · rfl
    · rfl
  unfold restartPhys
  dsimp only
  generalize fabPorts.foldl _ s = t at hf
  exact (modeKind_modPort t _ _).trans hf

theorem modeKind_extend (s : State) (i : Nat) (event : List Byte) : modeKind (extend s i event) = modeKind s := rfl

theorem modeKind_loadKeeper (s : State) (slot bank : Nat) : modeKind (loadKeeper s slot bank) = modeKind s := by
  simp only [modeKind, loadKeeper, onBoot]

theorem modeKind_loadDsp (s : State) (slot : Nat) : modeKind (loadDsp s slot) = modeKind s := by
  simp only [modeKind, loadDsp, onAon, clearDspSram]

theorem modeKind_startFrom (s : State) (cls slot : Nat) : modeKind (startFrom s cls slot) = modeKind s := by
  unfold startFrom
  split
  · rfl
  · exact (modeKind_extend _ 1 _).trans (modeKind_loadKeeper s slot _)
  · exact (modeKind_extend _ 2 _).trans (modeKind_loadDsp s slot)
  · exact (modeKind_extend _ 3 _).trans (modeKind_restartPhys s)

theorem modeKind_doHandover (s : State) (x : Handover) : modeKind (doHandover s x) = modeKind s := by
  have hs := modeKind_startFrom (onK s fun k => { k with handovers := k.handovers.erase x }) x.cls (fwOf s x.cls).active
  unfold doHandover
  dsimp only
  generalize startFrom _ _ _ = t at hs
  have h3 (v : Firmware) (f : Firmware → Firmware) : modeKind (if v.state = 1 then raiseEvent (modFw t x.cls f) 0x0402 0xFFFF x.cls
      else modFw t x.cls f) = modeKind s := by
    split
    · exact hs
    · exact hs
  split
  · exact (modeKind_of_aonKind (aonKind_complete _ _ _ _ _ _)).trans (h3 _ _)
  · exact h3 _ _

theorem modeKind_tryHandovers (s : State) : modeKind (tryHandovers s) = modeKind s := by
  refine foldl_keeps modeKind (fun s x => ?_) _ s
  split
  · exact modeKind_doHandover s x
  · rfl


/-! ### The end of a transition (R411 to R414) -/

theorem stepReady_beacon {s : State} : stepReady s .beacon = true ↔ s.power.mainReset = false ∧ s.power.started = true := by
  simp only [stepReady, Bool.and_eq_true, Bool.not_eq_true']

theorem stepReady_lantern {s : State} :
    stepReady s .lantern = true ↔ s.mm.hbmTrained = true ∧ (s.mm.lpTrained = true ∨ s.mm.noDeep = true) := by
  simp only [stepReady, Bool.and_eq_true, Bool.or_eq_true]

theorem downReady_beacon {s : State} : downReady s .beacon = true ↔ s.runs = [] := List.isEmpty_iff

/-- Once the mode is set to the target, nothing that follows changes it. -/
theorem modeKind_upDone (s : State) : modeKind (upDone s) = (s.aon.target, s.boot.kind) := by
  have hp := aonKind_powerUp s s.aon.target
  unfold upDone
  dsimp only
  generalize powerUp s s.aon.target = u at hp
  have hu : modeKind (latch (onAon u fun a => { a with mode := a.target })) = (s.aon.target, s.boot.kind) :=
    congrArg (fun x : Aon × Nat => (x.1.target, x.2)) hp
  generalize latch _ = v at hu
  split
  · refine (modeKind_of_aonKind (aonKind_rescheduleAll _)).trans ((modeKind_checkSetMode _).trans ?_)
    exact (modeKind_stepUp v _).trans hu
  · refine (modeKind_of_aonKind (aonKind_rescheduleAll _)).trans ((modeKind_askForJobs _).trans ((modeKind_checkSetMode _).trans ?_))
    exact (modeKind_takeWanted _).trans ((modeKind_checkSetMode _).trans hu)

theorem modeKind_downDone (s : State) : modeKind (downDone s) = (s.aon.target, s.boot.kind) := by
  have hp := aonKind_powerDown s s.aon.mode
  unfold downDone
  dsimp only
  generalize powerDown s s.aon.mode = u at hp
  have hu : modeKind (onAon u fun a => { a with mode := a.target }) = (s.aon.target, s.boot.kind) :=
    congrArg (fun x : Aon × Nat => (x.1.target, x.2)) hp
  generalize onAon u _ = v at hu
  split
  · exact (modeKind_takeWanted _).trans ((modeKind_of_aonKind (aonKind_enterBuoy _)).trans ((modeKind_checkSetMode _).trans hu))
  · split
    · exact (modeKind_takeWanted _).trans hu
    · split
      · exact (modeKind_stepDown v _).trans hu
      · refine (modeKind_of_aonKind (aonKind_rescheduleAll _)).trans ((modeKind_askForJobs _).trans ?_)
        exact (modeKind_checkSetMode _).trans hu

section
variable {s : State}

theorem tryHandovers_of_none (h : s.k.handovers = []) : tryHandovers s = s := by
  rw [tryHandovers, h, List.foldl_nil]

theorem endTransition_of_rest (h : s.k.handovers = []) (hb : s.aon.busy = false) : endTransition s = s := by
  simp only [endTransition, hb, Bool.not_false, if_true, tryHandovers_of_none h]

theorem endTransition_of_waiting_up (h : s.k.handovers = []) (hb : s.aon.busy = true) (hu : s.aon.up = true)
    (hr : stepReady s s.aon.target = false) : endTransition s = s := by
  simp only [endTransition, hb, hu, hr, Bool.not_true, Bool.false_eq_true, if_false, if_true, tryHandovers_of_none h]

theorem endTransition_of_waiting_down (h : s.k.handovers = []) (hb : s.aon.busy = true) (hu : s.aon.up = false)
    (hr : downReady s s.aon.mode = false) : endTransition s = s := by
  simp only [endTransition, hb, hu, hr, Bool.not_true, Bool.false_eq_true, if_false, tryHandovers_of_none h]

theorem modeKind_endTransition (hb : s.aon.busy = true)
    (hr : (if s.aon.up then stepReady s s.aon.target else downReady s s.aon.mode) = true) :
    modeKind (endTransition s) = (s.aon.target, s.boot.kind) := by
  unfold endTransition
  rw [modeKind_tryHandovers, hb, if_neg (by decide)]
  cases hu : s.aon.up with
  | true =>
    rw [hu, if_pos rfl] at hr
    rw [if_pos rfl, if_pos hr, modeKind_upDone]
  | false =>
    rw [hu, if_neg (by decide)] at hr
    rw [if_neg (by decide), if_pos hr, modeKind_downDone]

/-- With no warm start to go on with, the row is the end of the transition. -/
theorem execModeTransitionComplete_of_cold (h : (endTransition s).boot.kind ≠ 1) :
    execModeTransitionComplete s = .next (endTransition s) := congrArg _ (if_pos (Or.inl h))

theorem execModeTransitionComplete_of_same (h : endTransition s = s) (hk : s.boot.kind ≠ 1) :
    execModeTransitionComplete s = .next s := by
  rw [execModeTransitionComplete_of_cold (by rw [h]; exact hk), h]

theorem answers_modeTransitionComplete (hb : s.aon.busy = true)
    (hr : (if s.aon.up then stepReady s s.aon.target else downReady s s.aon.mode) = true) (hk : s.boot.kind ≠ 1) :
    Answers .modeTransitionComplete s fun u => u.aon.mode = s.aon.target := by
  obtain ⟨hm, hkind⟩ := Prod.mk.inj (modeKind_endTransition hb hr)
  exact ⟨_, execModeTransitionComplete_of_cold (by rw [hkind]; exact hk), hm⟩

end

end Sys2Proof.Machine

/-! Mode requests, idle holds, deferred requests, SET_MODE and wake-ups (R29, R30, R32, R330, R342, R409, R410). -/

namespace Sys2Proof.Machine

/-! ### Requests for a mode (R30, R409, R410) -/

section
variable {s : State} {m : Mode}

theorem modeReq_of_lower_goal (hb : s.aon.busy = true) (h : modeNo m < modeNo s.aon.goal) :
    modeReq s m = onAon s fun a => { a with wanted := some m, deferred := none } :=
  (if_pos hb).trans (if_pos h)

theorem modeReq_of_goal (hb : s.aon.busy = true) (h : modeNo s.aon.goal ≤ modeNo m) : modeReq s m = askUp s m 4 :=
  (if_pos hb).trans (if_neg (Nat.not_lt_of_le h))

theorem modeReq_of_up (hb : s.aon.busy = false) (h : modeNo s.aon.mode ≤ modeNo m) : modeReq s m = askUp s m 4 :=
  (if_neg (ne_true_of_eq_false hb)).trans (if_pos h)

theorem modeReq_of_down (hb : s.aon.busy = false) (h : modeNo m < modeNo s.aon.mode) : modeReq s m = startDown s m :=
  (if_neg (ne_true_of_eq_false hb)).trans (if_neg (Nat.not_le_of_lt h))

theorem startDown_of_candidate (h : s.aon.candOpen = true) :
    startDown s m = onAon s fun a => { a with deferred := some m, deferredAt := s.tick } := if_pos h

theorem startDown_of_no_candidate (h : s.aon.candOpen = false) : startDown s m = stepDown s m :=
  if_neg (ne_true_of_eq_false h)

theorem stepDown_of_above_beacon (h : s.aon.mode ≠ .beacon) : stepDown s m = onAon s fun a => { a with
    target := modeOf (modeNo a.mode - 1), goal := m, busy := true, up := false, wanted := none, deferred := none } := if_neg h

theorem askUp_of_above (cause : Nat) (hb : s.aon.busy = false) (h : modeNo s.aon.mode < modeNo m) :
    askUp s m cause = stepUp (onAon s fun a => { a with cause := cause }) m :=
  (if_neg (ne_true_of_eq_false hb)).trans (if_pos h)

/-- An upward step goes to the next mode, and out of BUOY by MAIN_EN. -/
theorem stepUp_of_above (h : modeNo s.aon.mode < modeNo m) : stepUp s m =
    let u := onAon s fun a => { a with
      target := modeOf (modeNo a.mode + 1), goal := m, busy := true, up := true, wanted := none, deferred := none }
    if s.aon.mode = .buoy ∧ s.power.mainEn = false then leaveBuoy u else u := by
  have hmin : min (modeNo s.aon.mode + 1) (modeNo m) = modeNo s.aon.mode + 1 := Nat.min_eq_left h
  simp only [stepUp, hmin, Bool.not_eq_true']
  rfl

theorem askUp_of_reached (cause : Nat) (hb : s.aon.busy = false) (h : modeNo m ≤ modeNo s.aon.mode) :
    ∃ d, askUp s m cause = onAon s fun a => { a with deferred := d } :=
  ⟨_, (if_neg (ne_true_of_eq_false hb)).trans (if_neg (Nat.not_lt_of_le h))⟩

/-! ### Idle holds and deferred requests (R32, R410) -/

/-- What keeps IDLE_HOLD_EXPIRY from acting. -/
theorem idleHoldStays_iff : (s.aon.busy || s.aon.mode == .buoy || s.aon.deferred.isSome || !s.power.started
      || holdOf s.k s.aon.mode == 0xFFFFFFFF || s.k.lowering.isSome || modeNeeded s) = true ↔
    s.aon.busy = true ∨ s.aon.mode = .buoy ∨ s.aon.deferred.isSome = true ∨ s.power.started = false ∨
      holdOf s.k s.aon.mode = 0xFFFFFFFF ∨ s.k.lowering.isSome = true ∨ modeNeeded s = true := by
  simp only [Bool.or_eq_true, beq_iff_eq, Bool.not_eq_true', or_assoc]

theorem execIdleHoldExpiry_of_due (hb : s.aon.busy = false) (hm : s.aon.mode ≠ .buoy) (hd : s.aon.deferred = none)
    (hs : s.power.started = true) (hh : holdOf s.k s.aon.mode ≠ 0xFFFFFFFF) (hl : s.k.lowering = none)
    (hn : modeNeeded s = false) : execIdleHoldExpiry s = .next (lowerTo s (modeOf (modeNo s.aon.mode - 1))) := by
  refine congrArg _ (if_neg (mt idleHoldStays_iff.1 ?_))
  simp [hb, hm, hd, hs, hh, hl, hn]

theorem execDeferredDownTimeout_of_none (h : s.aon.deferred = none) : execDeferredDownTimeout s = .next s := by
  simp only [execDeferredDownTimeout, h]

theorem execDeferredDownTimeout_of_some {d : Mode} (h : s.aon.deferred = some d) : execDeferredDownTimeout s =
    .next (if s.aon.deferredAt + 1500 * ticksPerMs ≤ s.tick then
      checkSetMode (stepDown (onAon s fun a => { a with deferred := none }) d) else s) := by
  simp only [execDeferredDownTimeout, h]

/-! ### The training in the background (R503) -/

theorem trainingWaits_iff : (!s.power.started || s.boot.kind != 1) = true ↔ s.power.started = false ∨ s.boot.kind ≠ 1 := by
  simp only [Bool.or_eq_true, Bool.not_eq_true', bne_iff_ne]

theorem not_trainingWaits_of_warm (hs : s.power.started = true) (hk : s.boot.kind = 1) :
    ¬ (!s.power.started || s.boot.kind != 1) = true := by
  rw [trainingWaits_iff, hs, hk]
  decide

end

/-! ### SET_MODE (R342, R409) -/

/-- The holds that SET_MODE leaves: 0 keeps one. -/
def withHolds (t : State) (x : List Byte) : State :=
  let pick (n old : Nat) : Nat := if n = 0 then old else n
  onK t fun k => { k with
    holdBeacon := pick (arg x 4 4) k.holdBeacon
    holdLantern := pick (arg x 8 4) k.holdLantern
    holdLighthouse := pick (arg x 12 4) k.holdLighthouse }

/-- SET_MODE supersedes the one that waits. -/
def supersede (t : State) (h : Nat) (goal : Mode) : State :=
  onK (endSetMode t 0x0010) fun k => { k with setMode := some (h, goal), lowering := none }

section
variable {rq : Request} {s t : State} {h p : Nat} (ha : Accepted 0x22 rq s t h p)
include ha

theorem execSetMode_of_accepted : execSetMode rq s = .next
    (if arg rq.args 0 1 = 0xFF then complete (withHolds t rq.args) h 0 (modeNo t.aon.mode)
    else
      let goal := modeOf (arg rq.args 0 1)
      let t3 := supersede (withHolds t rq.args) h goal
      if modeNo goal < modeNo t3.aon.mode ∧ !t3.aon.busy then checkSetMode (lowerTo t3 goal)
      else checkSetMode (modeReq t3 goal)) :=
  congrArg _ (onRequest_of_accepted ha _)

theorem execSetMode_of_holds_only (hf : arg rq.args 0 1 = 0xFF) :
    execSetMode rq s = .next (complete (withHolds t rq.args) h 0 (modeNo t.aon.mode)) :=
  (execSetMode_of_accepted ha).trans (congrArg _ (if_pos hf))

section
variable (hf : arg rq.args 0 1 ≠ 0xFF)
include hf

theorem execSetMode_of_lower (hm : modeNo (modeOf (arg rq.args 0 1)) <
      modeNo (supersede (withHolds t rq.args) h (modeOf (arg rq.args 0 1))).aon.mode)
    (hb : (supersede (withHolds t rq.args) h (modeOf (arg rq.args 0 1))).aon.busy = false) : execSetMode rq s =
    .next (checkSetMode (lowerTo (supersede (withHolds t rq.args) h (modeOf (arg rq.args 0 1))) (modeOf (arg rq.args 0 1)))) :=
  (execSetMode_of_accepted ha).trans (congrArg _ ((if_neg hf).trans (if_pos ⟨hm, by rw [hb]; rfl⟩)))

theorem execSetMode_of_request (hm : modeNo (supersede (withHolds t rq.args) h (modeOf (arg rq.args 0 1))).aon.mode ≤
      modeNo (modeOf (arg rq.args 0 1)) ∨
      (supersede (withHolds t rq.args) h (modeOf (arg rq.args 0 1))).aon.busy = true) : execSetMode rq s =
    .next (checkSetMode (modeReq (supersede (withHolds t rq.args) h (modeOf (arg rq.args 0 1))) (modeOf (arg rq.args 0 1)))) := by
  refine (execSetMode_of_accepted ha).trans (congrArg _ ((if_neg hf).trans (if_neg ?_)))
  rintro ⟨hlt, hb⟩
  rcases hm with hm | hm
  · exact Nat.not_lt_of_le hm hlt
  · rw [hm] at hb
    cases hb

end

end

/-! ### TC10_WAKEUP (R330) -/

section
variable {s : State} {port : Fin 2}

theorem tc10Wakes_iff : (s.aon.mode == .buoy && bitOf s.power.tc10 port.val) = true ↔
    s.aon.mode = .buoy ∧ bitOf s.power.tc10 port.val = true := by
  rw [Bool.and_eq_true, beq_iff_eq]

theorem tc10Sleeps_iff : (!s.power.mainReset && (portOf s port.val).state == 3) = true ↔
    s.power.mainReset = false ∧ (portOf s port.val).state = 3 := by
  rw [Bool.and_eq_true, beq_iff_eq, Bool.not_eq_true']

theorem execTc10Wakeup_of_no_wake (h : s.aon.mode ≠ .buoy ∨ bitOf s.power.tc10 port.val = false) : execTc10Wakeup port s = .next
    (if !s.power.mainReset && (portOf s port.val).state == 3 then modPort s port.val fun x => { x with state := 1 } else s) := by
  refine congrArg _ (if_neg (mt tc10Wakes_iff.1 ?_))
  rw [not_and_or, Bool.not_eq_true]
  exact h

end

/-- Settles O42: requests by the branch of `modeReq` they take, transitions by `modeKind_endTransition`, SET_MODE by what stands
once its request is accepted. -/
theorem modesClimbAndFallAsRequested : Obligations.ModesClimbAndFallAsRequested := by
  unfold Obligations.ModesClimbAndFallAsRequested
  intro by_ m port rq s t h p a x base
  refine ⟨fun hk => congrArg _ (aonWrite_of_keeper hk false _), ?dsp, modeReq_of_lower_goal, modeReq_of_goal, modeReq_of_up,
    fun hb hm => ⟨fun hc => (modeReq_of_down hb hm).trans (startDown_of_candidate hc), fun hc hn =>
      (modeReq_of_down hb hm).trans ((startDown_of_no_candidate hc).trans (stepDown_of_above_beacon hn))⟩,
    fun cause hb hm => (askUp_of_above cause hb hm).trans (stepUp_of_above hm), fun cause hb hm => askUp_of_reached cause hb hm,
    ?rest, fun hb hu hr hh hk => execModeTransitionComplete_of_same (endTransition_of_waiting_up hh hb hu hr) hk,
    fun hb hu hr hh hk => execModeTransitionComplete_of_same (endTransition_of_waiting_down hh hb hu hr) hk,
    fun hb hr _ hk => answers_modeTransitionComplete hb hr hk, stepReady_lantern, stepReady_beacon, downReady_beacon,
    fun hn => congrArg _ (if_pos (trainingWaits_iff.2 hn)),
    fun hs hk => congrArg _ (if_neg (not_trainingWaits_of_warm hs hk)),
    fun hn => congrArg _ (if_pos (idleHoldStays_iff.2 hn)), execIdleHoldExpiry_of_due, execDeferredDownTimeout_of_none,
    fun d hd => ?deferred, fun ha => ⟨execSetMode_of_holds_only ha, fun hf =>
      ⟨execSetMode_of_lower ha hf, execSetMode_of_request ha hf⟩⟩,
    fun hm hb => congrArg _ (if_pos (tc10Wakes_iff.2 ⟨hm, hb⟩)), fun hn => ?link⟩
  case dsp =>
    rintro rfl
    rfl
  case rest =>
    refine ⟨_, rfl, fun hb hh hk => ?_⟩
    exact Host.Outcome.next.inj (execModeTransitionComplete_of_same (endTransition_of_rest hh hb) hk)
  case deferred =>
    exact ⟨fun hlt => (execDeferredDownTimeout_of_some hd).trans (congrArg _ (if_neg (Nat.not_le_of_lt hlt))),
      fun hle => (execDeferredDownTimeout_of_some hd).trans (congrArg _ (if_pos hle))⟩
  case link =>
    refine ⟨fun hr hs => (execTc10Wakeup_of_no_wake hn).trans (congrArg _ (if_pos (tc10Sleeps_iff.2 ⟨hr, hs⟩))),
      fun hs => (execTc10Wakeup_of_no_wake hn).trans (congrArg _ (if_neg (mt tc10Sleeps_iff.1 ?_)))⟩
    rintro ⟨hr, h3⟩
    rcases hs with hs | hs
    · exact absurd (hs.symm.trans hr) (by decide)
    · exact hs h3

end Sys2Proof.Machine

/-! Main reset, power good, the reset pins, the thermal trip, the power cap and the tick (R31, R392, R480, R524, R528, R530 to R538,
R545). -/

namespace Sys2Proof.Machine

/-! ### Main reset (R31, R480) -/

theorem getLsbD_mailbox {m : Nat} (hm : m < 128) (k : Nat) : (1#128 <<< m).getLsbD k = (k == m) := by
  by_cases hk : k = m
  · subst hk
    simp [hm]
  · have h0 : m ≤ k → ¬ k - m = 0 := by omega
    have hf : (k == m) = false := beq_eq_false_iff_ne.2 hk
    simpa [hf] using fun _ => h0

theorem mbxFull_mainReset (s : State) (k : Nat) : mbxFull (mainReset s).mbx k = (mbxFull s.mbx k && k == 16) :=
  (BitVec.getLsbD_and).trans (congrArg (s.mbx.full.getLsbD k && ·) (getLsbD_mailbox (by decide) k))

/-- PSRAM, AON SRAM, MRAM and flash keep their bytes, and every other byte reads 0. -/
theorem read_mainReset {s : State} (h : Memory.wf s.mem = true) (a : Nat) :
    Memory.read (mainReset s).mem a = if keepsMain a = true then Memory.read s.mem a else 0 := by
  have hg : SMap.get? (mainReset s).mem a = if keepsMain a then SMap.get? s.mem a else none :=
    SMap.get?_filter (g := keepsMain) (fun _ => rfl) a (Memory.wf_iff.1 h).1
  unfold Memory.read SMap.getD
  rw [hg]
  split
  · rfl
  · rfl

/-! ### The release of main reset (R524, R528) -/

/-- What a release needs. -/
def Free (s : State) : Prop :=
  s.power.mainPg = true ∧ s.power.porstLow = false ∧ s.power.tripped = false ∧ s.boot.halted = none

theorem free_iff (s : State) :
    (s.power.mainPg && !s.power.porstLow && !s.power.tripped && s.boot.halted.isNone) = true ↔ Free s := by
  simp only [Free, Bool.and_eq_true, Bool.not_eq_true', Option.isNone_iff_eq_none, and_assoc]

theorem releaseMain_of_free {s : State} (h : Free s) :
    releaseMain s = { s with tick := 0, power := { s.power with mainReset := false } } := if_pos ((free_iff s).2 h)

theorem releaseMain_of_not_free {s : State} (h : ¬ Free s) : releaseMain s = s := if_neg (mt (free_iff s).1 h)

/-! ### Power good and the pins (R528 to R532) -/

section
variable {s : State}

theorem not_rising_iff : (!s.power.mainEn || s.power.mainPg) = true ↔ s.power.mainEn = false ∨ s.power.mainPg = true := by
  rw [Bool.or_eq_true, Bool.not_eq_true']

theorem not_rising_of_rising (he : s.power.mainEn = true) (hp : s.power.mainPg = false) :
    ¬ (!s.power.mainEn || s.power.mainPg) = true := by
  rw [he, hp]
  decide

theorem not_good_of_low (h : s.power.mainEn = false ∨ s.power.mainPg = false) : ¬ (s.power.mainEn && s.power.mainPg) = true := by
  rw [Bool.and_eq_true]
  rintro ⟨he, hp⟩
  rcases h with h | h
  · exact absurd (h.symm.trans he) (by decide)
  · exact absurd (h.symm.trans hp) (by decide)

section
variable (he : s.power.mainEn = true) (hp : s.power.mainPg = false)
include he hp

theorem execMainPgTimeout_of_first (ht : s.power.pgTries = 0) : execMainPgTimeout s =
    .next { powerLost s true with power := { (powerLost s true).power with pgTries := 1 } } := by
  simp only [execMainPgTimeout, if_neg (not_rising_of_rising he hp), ht, Nat.zero_add, Nat.one_lt_two, decide_true, if_true]

theorem execMainPgTimeout_of_second (ht : 1 ≤ s.power.pgTries) : execMainPgTimeout s = .next (staysBuoy
    { powerLost s false with power := { (powerLost s false).power with pgTries := s.power.pgTries + 1 } }) := by
  have hn : ¬ s.power.pgTries + 1 < 2 := by omega
  simp only [execMainPgTimeout, if_neg (not_rising_of_rising he hp), hn, decide_false, if_false]

end

theorem execPorstNAssert_of_on (he : s.power.mainEn = true) : execPorstNAssert s = .next (if s.power.mainPg then
      { mainReset s with power := { (mainReset s).power with porstLow := true, resetCause := 2 } }
    else { s with power := { s.power with porstLow := true } }) := by
  simp only [execPorstNAssert, he, Bool.not_true, Bool.false_eq_true, if_false]

theorem execPorstNRelease_of_low (hl : s.power.porstLow = true) : execPorstNRelease s = .next
    (if !s.power.mainEn then { s with power := { s.power with porstLow := false } }
    else releaseMain { s with
      aon := { s.aon with busy := false, up := false, goal := .lighthouse, target := s.aon.mode, wanted := none, deferred := none }
      power := { s.power with porstLow := false, cold := true } }) := by
  simp only [execPorstNRelease, hl, Bool.not_true, Bool.false_eq_true, if_false]
  rfl

/-! ### THROTTLE_N and the trip (R534, R538) -/

theorem throttleTold_iff : (true && !s.power.throttleLow && !s.power.mainReset) = true ↔
    s.power.throttleLow = false ∧ s.power.mainReset = false := by
  rw [Bool.true_and, Bool.and_eq_true, Bool.not_eq_true', Bool.not_eq_true']

theorem noTrip_iff : (!s.power.mainPg || s.power.tripped) = true ↔ s.power.mainPg = false ∨ s.power.tripped = true := by
  rw [Bool.or_eq_true, Bool.not_eq_true']

/-! ### The tick (R524) -/

/-- R19: Keeper alone reaches the SYS block. -/
theorem reaches_sysRegs (by_ : Req) (wr : Bool) : reaches by_ wr .sysRegs = isKeeper by_ := by
  cases by_ <;> rfl

end

/-! ### The power cap (R533 to R537) -/

section
variable {d c x : Nat}

theorem nextDuty_of_above (h : 970 * c < x) : nextDuty d c x = d * (970 * c) / x := if_pos h

theorem nextDuty_of_below (h : x ≤ 970 * c) (hx : x < 950 * c) : nextDuty d c x = min (d + 8) 0xFF :=
  (if_neg (Nat.not_lt_of_le h)).trans (if_pos hx)

theorem nextDuty_of_between (h : 950 * c ≤ x) (hx : x ≤ 970 * c) : nextDuty d c x = d :=
  (if_neg (Nat.not_lt_of_le hx)).trans (if_neg (Nat.not_lt_of_le h))

theorem nextDuty_le (h : d ≤ 0xFF) : nextDuty d c x ≤ 0xFF := by
  rcases Nat.lt_or_ge (970 * c) x with hx | hx
  · rw [nextDuty_of_above hx]
    exact (Nat.div_le_of_le_mul (by rw [Nat.mul_comm x]; exact Nat.mul_le_mul_left d (Nat.le_of_lt hx))).trans h
  · rcases Nat.lt_or_ge x (950 * c) with hb | hb
    · rw [nextDuty_of_below hx hb]
      exact Nat.min_le_right _ _
    · rw [nextDuty_of_between hb hx]
      exact h

end

section
variable (s : State)

theorem effectiveCap_le : effectiveCap s ≤ min (capW s) (thermalCap (hottest s)) := by
  unfold effectiveCap
  dsimp only
  split
  · exact Nat.min_le_left _ _
  · exact Nat.le_refl _

variable {s}

theorem effectiveCap_le_extCap (h : s.power.throttleLow = true) : effectiveCap s ≤ extCapW s := by
  unfold effectiveCap
  rw [if_pos h]
  exact Nat.min_le_right _ _

end

/-- From s to t only the power block, the logbook and the events have changed, and of the power block neither duty nor readings. -/
def NotesThermal (s t : State) : Prop :=
  (∃ p l e, t = { s with power := p, log := l, events := e }) ∧ t.power.duty = s.power.duty ∧ t.power.temps = s.power.temps ∧
    t.power.powerMw = s.power.powerMw

theorem notesThermal_noteThermal (s : State) : NotesThermal s (noteThermal s) := by
  unfold noteThermal
  dsimp only
  split
  · exact ⟨⟨_, _, _, rfl⟩, rfl, rfl, rfl⟩
  · split
    · obtain ⟨l, h⟩ := logAppend_eq { s with power := { s.power with limited := decide (thermalCap (hottest s) < capW s) } } 0x05 0
        [0, unsigned 32 (hottest s)]
      rw [h]
      exact ⟨⟨_, _, _, rfl⟩, rfl, rfl, rfl⟩
    · exact ⟨⟨_, _, _, rfl⟩, rfl, rfl, rfl⟩

theorem SMap.get?_map {α β : Type} (f : α → β) (k : Nat) : ∀ m : SMap α,
    SMap.get? (m.map fun e => (e.1, f e.2)) k = (SMap.get? m k).map f
  | [] => rfl
  | (j, v) :: r => by
    simp only [List.map_cons, SMap.get?, SMap.get?_map f k r]
    split
    · rfl
    · split
      · rfl
      · rfl

/-- A new duty stands in every powered core. -/
theorem duty_dutyCores {s : State} {n : Nat} (d : Nat) (h : (coreOf s n).st ≠ .off) :
    (coreOf (dutyCores s d) n).duty = word d := by
  have hg := SMap.get?_map (fun c : Core => if c.st = .off then c else { c with duty := word d }) n s.cores
  unfold coreOf SMap.getD at h ⊢
  cases hc : SMap.get? s.cores n with
  | none =>
    rw [hc] at h
    exact absurd rfl h
  | some c =>
    rw [hc, Option.getD_some] at h
    rw [hc] at hg
    rw [dutyCores, hg, Option.map_some, Option.getD_some, if_neg h]

/-- What POWER_CAP_STEP measures: the readings by sensor, and the power. -/
def measured (s : State) (power : Word) (temps : List Int) : State := { s with
  power := { s.power with
    temps := (span 0 (min 18 temps.length)).map fun k => (k, temps.getD k 0)
    powerMw := power.toNat } }

/-- The new duty of the control step acts. -/
def controlled (s : State) (power : Word) (d : Nat) : State :=
  dutyCores { s with power := { s.power with
    duty := d
    unmet := s.power.unmet && d == 0 && decide (effectiveCap s * 1000 < power.toNat) } } d

theorem execPowerCapStep_of_released {s : State} (h : s.power.mainReset = false) (power : Word) (temps : List Int) :
    execPowerCapStep power temps s = .next (noteThermal (controlled (measured s power temps) power
      (nextDuty s.power.duty (effectiveCap (measured s power temps)) power.toNat))) :=
  congrArg Host.Outcome.next (if_neg (ne_true_of_eq_false h))

theorem answers_powerCapStep {s : State} (h : s.power.mainReset = false) (power : Word) (temps : List Int) :
    Answers (.powerCapStep power temps) s fun u =>
      u.power.duty = nextDuty s.power.duty (effectiveCap (measured s power temps)) power.toNat ∧
      u.power.temps = (measured s power temps).power.temps ∧ u.power.powerMw = power.toNat ∧
      u = { s with cores := u.cores, power := u.power, log := u.log, events := u.events } ∧
      (∀ n, (coreOf s n).st ≠ .off → (coreOf u n).duty = word u.power.duty) ∧ (s.power.duty ≤ 0xFF → u.power.duty ≤ 0xFF) := by
  refine ⟨_, execPowerCapStep_of_released h power temps, ?_⟩
  generalize hd : nextDuty s.power.duty (effectiveCap (measured s power temps)) power.toNat = d
  have hle : s.power.duty ≤ 0xFF → d ≤ 0xFF := fun hs => hd ▸ nextDuty_le hs
  obtain ⟨⟨p, l, e, ht⟩, hduty, htemps, hpower⟩ := notesThermal_noteThermal (controlled (measured s power temps) power d)
  have hcores : (noteThermal (controlled (measured s power temps) power d)).cores = (dutyCores s d).cores := by rw [ht]; rfl
  refine ⟨hduty, htemps, hpower, by rw [ht]; rfl, fun n hn => ?_, fun hs => hduty ▸ hle hs⟩
  have hc : coreOf (noteThermal (controlled (measured s power temps) power d)) n = coreOf (dutyCores s d) n := by
    rw [coreOf, hcores, coreOf]
  rw [hc, duty_dutyCores d hn, hduty]
  rfl

/-- Settles O43: a main reset field by field, each pin's row by its branches, and the control step by what `noteThermal` leaves. -/
theorem powerRailsResetsAndTripsTakeEffect : Obligations.PowerRailsResetsAndTripsTakeEffect := by
  unfold Obligations.PowerRailsResetsAndTripsTakeEffect
  intro by_ power temps s t w off lost set free
  refine ⟨⟨rfl, rfl, rfl, rfl, rfl, rfl, rfl, rfl, rfl, mbxFull_mainReset s, fun _ => rfl, rfl, rfl, rfl, rfl, rfl, rfl, rfl, rfl,
      rfl, rfl, read_mainReset⟩, fun u => releaseMain_of_free, fun u => releaseMain_of_not_free,
    fun h => congrArg _ (if_pos (not_rising_iff.2 h)), fun he hp => congrArg _ (if_neg (not_rising_of_rising he hp)),
    fun he hp => congrArg _ (if_pos (by rw [Bool.and_eq_true]; exact ⟨he, hp⟩)), fun h => congrArg _ (if_neg (not_good_of_low h)),
    fun h => congrArg _ (if_pos (not_rising_iff.2 h)), fun he hp => ⟨execMainPgTimeout_of_first he hp, fun ht =>
      ⟨_, execMainPgTimeout_of_second he hp ht, rfl⟩⟩, rfl, fun he => congrArg _ (if_pos (by rw [he]; rfl)),
    fun he hp => (execPorstNAssert_of_on he).trans (congrArg _ (if_neg (ne_true_of_eq_false hp))),
    fun he hp => (execPorstNAssert_of_on he).trans (congrArg _ (if_pos hp)),
    fun hl => congrArg _ (if_pos (by rw [hl]; rfl)),
    fun hl he => (execPorstNRelease_of_low hl).trans (congrArg _ (if_pos (by rw [he]; rfl))),
    fun hl he => (execPorstNRelease_of_low hl).trans (congrArg _ (if_neg (by rw [he]; decide))), rfl, ?throttled,
    fun hl hr => congrArg _ (if_pos (throttleTold_iff.2 ⟨hl, hr⟩)), fun h => congrArg _ (if_pos (noTrip_iff.2 h)), ?trip,
    fun h => ⟨congrArg _ (if_neg (ne_true_of_eq_false h)), congrArg _ (if_neg (ne_true_of_eq_false h))⟩,
    fun h => ⟨congrArg _ (if_pos h), congrArg _ (if_pos h)⟩, ⟨rfl, rfl, rfl, rfl, rfl⟩,
    fun hk => congrArg _ (if_pos ((reaches_sysRegs by_ false).trans hk)),
    fun hk => congrArg _ (if_neg (ne_true_of_eq_false ((reaches_sysRegs by_ false).trans hk))), fun h => congrArg _ (if_pos h),
    fun h => answers_powerCapStep h power temps,
    fun d c x => ⟨nextDuty_of_above, fun h hx => nextDuty_of_below h hx, fun h hx => nextDuty_of_between h hx⟩,
    ⟨(effectiveCap_le s).trans (Nat.min_le_left _ _), (effectiveCap_le s).trans (Nat.min_le_right _ _), effectiveCap_le_extCap⟩,
    fun hd hc hr => congrArg _ (if_pos ⟨hd, hc, hr⟩), fun h => congrArg _ (if_neg ?met)⟩
  case throttled =>
    refine fun h => congrArg _ (if_neg (mt throttleTold_iff.1 ?_))
    rintro ⟨hl, hr⟩
    rcases h with h | h
    · exact absurd (h.symm.trans hl) (by decide)
    · exact absurd (h.symm.trans hr) (by decide)
  case trip =>
    refine fun hp ht => congrArg _ (if_neg (mt noTrip_iff.1 ?_))
    rintro (h | h)
    · exact absurd (h.symm.trans hp) (by decide)
    · exact absurd (h.symm.trans ht) (by decide)
  case met =>
    rintro ⟨hd, hc, hr⟩
    rcases h with h | h | h
    · exact h hd
    · exact Nat.not_lt_of_le h hc
    · exact absurd (h.symm.trans hr) (by decide)

end Sys2Proof.Machine

/-! SEC's rows, the messages of SEC and the DSP, the health monitor, Keeper's restart and the alarm path (R26, R452, R458, R466, R467,
R480, R489, R490, R493). -/

namespace Sys2Proof.Machine

/-! ### SEC's rows (R452, R458, R466, R467) -/

section
variable {by_ : Req} {s : State}

theorem secWrite_of_other (h : by_ ≠ .sec) (f : State → State) : secWrite s by_ f = busError s := if_neg h

theorem sec_rows_of_other (h : by_ ≠ .sec) (v : Bool) :
    ∀ i ∈ [Instr.secZeroiseAll by_, .secOwnerUnlock by_ v], exec i s = .next (busError s) := by
  simp only [List.forall_mem_cons, List.not_mem_nil, false_implies, implies_true, and_true]
  exact ⟨congrArg _ (secWrite_of_other h _), congrArg _ (secWrite_of_other h _)⟩

end

/-- A trial that ends by a fault changes firmware metadata, the logbook and the events alone. -/
theorem trialFault_eq (s : State) (cls : Nat) : ∃ fw l e,
    trialFault s cls = { s with boot := { s.boot with fw := fw }, log := l, events := e } := by
  unfold trialFault
  split
  · unfold revertSlot
    dsimp only
    generalize [cls, 2, _, _, 3] = args
    obtain ⟨l, h⟩ := logAppend_eq (modFw s cls fun v => { v with state := 0, active := 1 - (fwOf s cls).active, autoCommit := false })
      0x0D 0 args
    rw [h]
    exact ⟨_, l, _, rfl⟩
  · exact ⟨_, _, _, rfl⟩

theorem meas_extend_same (s : State) (i : Nat) (event : List Byte) :
    meas (extend s i event) i = Config.sha512 (digestBytes (meas s i) ++ digestBytes (Config.sha512 event)) :=
  SMap.getD_set_same _ _ _ _

theorem meas_extend_other (s : State) {i k : Nat} (event : List Byte) (h : k ≠ i) : meas (extend s i event) k = meas s k :=
  SMap.getD_set_other _ _ _ h

theorem answers_secRestart (header : List Byte) (s : State) : Answers (.secRestart header) s fun t =>
    t.sec.slots = s.secStore.keys ∧ t.sec.engines = s.sec.engines ∧ t.sec.nonce = none ∧ t.sec.ready = true ∧
      t.sec.restarting = false ∧ (∀ i, i ≠ 0 → meas t i = meas s i) ∧
      meas t 0 = Config.sha512 (digestBytes (meas s 0) ++ digestBytes (Config.sha512 header)) := by
  refine ⟨_, rfl, ?_⟩
  obtain ⟨fw, l, e, h⟩ := trialFault_eq s 0
  rw [h]
  exact ⟨rfl, rfl, rfl, rfl, rfl, fun i hi => meas_extend_other _ header hi, meas_extend_same _ 0 header⟩

/-! ### Messages to and from SEC (R458) -/

section
variable {s : State}

theorem execSecRequest_of_full (hf : mbxFull s.mbx 11 = true) : execSecRequest s = .next (mbxTake s .sec 11) :=
  congrArg Host.Outcome.next (if_pos hf)

theorem mayTake_sec_iff (m : Nat) : MayTake s.mbx .sec m ↔ mbxReceiver s.mbx m = 0x08 := by
  simp only [MayTake, isKeeper, Bool.false_eq_true, false_or, receiverCode, Option.some.injEq]
  exact eq_comm

theorem execSecResult_of_full (hf : mbxFull s.mbx 10 = true) :
    execSecResult s = .next (busData (mbxClear s 10) (mbxWord s.mbx 10 7)) :=
  congrArg Host.Outcome.next ((if_pos hf).trans (mbxTake_of_full (.inl rfl) hf))

/-! ### DSP_PING (R489) -/

theorem noPing_iff : (s.power.mainReset || !s.power.started || mbxFull s.mbx 17) = true ↔
    s.power.mainReset = true ∨ s.power.started = false ∨ mbxFull s.mbx 17 = true := by
  simp only [Bool.or_eq_true, Bool.not_eq_true', or_assoc]

end

/-- Dropping a greater key leaves a listed value, in a list in any order. -/
theorem SMap.get?_erase_of_lt {α : Type} {k x : Nat} {v : α} (hx : k < x) : ∀ {m : SMap α}, SMap.get? m k = some v →
    SMap.get? (SMap.erase m x) k = some v
  | [], h => nomatch h
  | (j, w) :: r, h => by
    have hj : j ≤ k := by
      refine Nat.le_of_not_lt fun hlt => ?_
      rw [SMap.get?, if_neg (Nat.ne_of_lt hlt), if_pos hlt] at h
      cases h
    have h1 : ¬ x < j := by omega
    have h2 : ¬ x = j := by omega
    rw [SMap.erase, if_neg h1, if_neg h2]
    rw [SMap.get?] at h ⊢
    by_cases hk : k = j
    · rwa [if_pos hk] at h ⊢
    · have h3 : ¬ k < j := by omega
      rw [if_neg hk, if_neg h3] at h ⊢
      exact SMap.get?_erase_of_lt hx h

section
variable {s : State} {by_ : Req} {m : Nat} (ha : mbxAllows s.mbx m by_ = true) (hf : mbxFull s.mbx m = false)
include ha hf

theorem mbxWrite_of_open {w : Nat} (hw : w ≠ 7) (v : Word) : mbxWrite s by_ m w v = busOk (mbxStore s m w v) := by
  simp only [mbxWrite, mbxRefusal_of_free ha (fun h => hw h.1) hf, hw, if_false]

theorem mbxWrite_post (hr : mbxReceiver s.mbx m ≠ 0xFF) (v : Word) : mbxWrite s by_ m 7 v = busOk (mbxPostNow s by_ m v) := by
  simp only [mbxWrite, mbxRefusal_of_free ha (fun h => hr h.2) hf, if_true]

end

theorem doorbells_withWords (b : Mbx) (ws : SMap Word) (m : Nat) : doorbells { b with words := ws } m = doorbells b m := rfl

/-- Word 0 of DSP_PING's message. -/
def pingWord : Word := word (0x12 * 2 ^ 16)

/-- Between the writes of the message: words of mailboxes alone have changed, and word 0 of mailbox 17 is that of the message. -/
def Pinging (s t : State) : Prop :=
  ∃ ws r, t = { s with mbx := { s.mbx with words := ws }, resp := r } ∧ SMap.get? ws (8 * 17) = some pingWord

section
variable {s t : State} (ha : mbxAllows s.mbx 17 (.keeper 3) = true) (hf : mbxFull s.mbx 17 = false)
include ha hf

theorem pinging_first : Pinging s (mbxWrite s (.keeper 3) 17 0 pingWord) := by
  rw [mbxWrite_of_open ha hf (by decide)]
  have hp : SMap.put s.mbx.words (8 * 17 + 0) pingWord 0 = SMap.set s.mbx.words (8 * 17) pingWord := if_neg (by decide)
  exact ⟨_, _, rfl, by rw [hp]; exact SMap.get?_set_same _ _ _⟩

theorem pinging_next {w : Nat} (hw : 0 < w) (h7 : w ≠ 7) (h : Pinging s t) : Pinging s (mbxWrite t (.keeper 3) 17 w 0) := by
  obtain ⟨ws, r, rfl, hg⟩ := h
  rw [mbxWrite_of_open (by_ := .keeper 3) (m := 17) (s := { s with mbx := { s.mbx with words := ws }, resp := r }) ha hf h7]
  have hp : SMap.put ws (8 * 17 + w) (0 : Word) 0 = SMap.erase ws (8 * 17 + w) := if_pos rfl
  exact ⟨_, _, rfl, by rw [hp]; exact SMap.get?_erase_of_lt (Nat.lt_add_of_pos_right hw) hg⟩

theorem pinging_rest (l : List Nat) (hl : ∀ w ∈ l, 0 < w ∧ w ≠ 7) (h : Pinging s t) :
    Pinging s (l.foldl (fun u w => mbxWrite u (.keeper 3) 17 w 0) t) := by
  induction l generalizing t with
  | nil => exact h
  | cons w l ih =>
    obtain ⟨⟨h0, h7⟩, hl⟩ := List.forall_mem_cons.1 hl
    exact ih hl (pinging_next ha hf h0 h7 h)

/-- The post of the message: FULL, the sender over word 0, and the DSP's doorbell. -/
theorem pinged (hr : mbxReceiver s.mbx 17 = 0x10) (h : Pinging s t) :
    let u := mbxWrite t (.keeper 3) 17 7 0
    u.mbx.full = s.mbx.full ||| (1#128 <<< 17) ∧ mbxWord u.mbx 17 0 = 0x04120000 ∧ u.irqs = .doorbell .dsp 17 :: s.irqs := by
  obtain ⟨ws, r, rfl, hg⟩ := h
  have hn : mbxReceiver s.mbx 17 ≠ 0xFF := by rw [hr]; decide
  intro u
  have hu : u = busOk (postStamped { s with mbx := { s.mbx with words := ws }, resp := r } 17 0 (senderStamp (.keeper 3))) := by
    rw [← mbxPostNow_eq_postStamped]
    exact mbxWrite_post (by_ := .keeper 3) (m := 17) (s := { s with mbx := { s.mbx with words := ws }, resp := r }) ha hf hn 0
  have hw : SMap.getD (SMap.put ws (8 * 17 + 7) (0 : Word) 0) (8 * 17) 0 = pingWord := by
    have hp : SMap.put ws (8 * 17 + 7) (0 : Word) 0 = SMap.erase ws (8 * 17 + 7) := if_pos rfl
    rw [hp, SMap.getD, SMap.get?_erase_of_lt (by decide) hg]
    rfl
  have hstamp : senderStamp (.keeper 3) pingWord = 0x04120000 := by decide
  have hd : doorbells { s.mbx with words := ws } 17 = [.doorbell .dsp 17] := (doorbells_withWords _ _ _).trans (doorbells_dsp hr)
  rw [hu, postStamped_eq]
  refine ⟨rfl, ?_, ?_⟩
  · have hput (x : SMap Word) : SMap.put x (8 * 17) (0x04120000 : Word) 0 = SMap.set x (8 * 17) 0x04120000 := if_neg (by decide)
    simp only [busOk, mbxWord, hw, hstamp, hput]
    exact SMap.getD_set_same _ _ _ _
  · simp only [busOk, hd, List.singleton_append]

theorem answers_dspPing (hr : mbxReceiver s.mbx 17 = 0x10) (h0 : s.power.mainReset = false) (hs : s.power.started = true) :
    Answers .dspPing s fun t => t.mbx.full = s.mbx.full ||| (1#128 <<< 17) ∧ mbxWord t.mbx 17 0 = 0x04120000 ∧
      t.irqs = .doorbell .dsp 17 :: s.irqs := by
  have hn : ¬ (s.power.mainReset || !s.power.started || mbxFull s.mbx 17) = true := by
    rw [h0, hs, hf]
    decide
  refine ⟨_, congrArg Host.Outcome.next (if_neg hn), ?_⟩
  exact pinged ha hf hr (pinging_rest ha hf (span 1 6) (by decide) (pinging_first ha hf))

end

/-! ### The health monitor (R490) -/

section
variable {s : State} {m : Nat}

theorem notSampled_iff : (s.power.mainReset || !s.power.started) = true ↔ s.power.mainReset = true ∨ s.power.started = false := by
  rw [Bool.or_eq_true, Bool.not_eq_true']

theorem execHealthMonitorSample_of_started (h0 : s.power.mainReset = false) (hs : s.power.started = true) :
    execHealthMonitorSample s = .next ((span 0 128).foldl monitorMail s) := by
  refine congrArg _ (if_neg ?_)
  rw [h0, hs]
  decide

theorem monitorMail_of_empty (h : mbxFull s.mbx m = false) :
    monitorMail s m = onRas s fun r => { r with mailSince := SMap.erase r.mailSince m } := by
  rw [monitorMail, h]
  rfl

section
variable (h : mbxFull s.mbx m = true)
include h

theorem monitorMail_of_new (hn : SMap.get? s.ras.mailSince m = none) :
    monitorMail s m = onRas s fun r => { r with mailSince := SMap.set r.mailSince m s.tick } := by
  simp only [monitorMail, h, hn, Bool.not_true, Bool.false_eq_true, if_false]

theorem monitorMail_of_seen {t : Nat} (ht : SMap.get? s.ras.mailSince m = some t) : monitorMail s m =
    if (mailLimit s m).any fun n => decide (t + n < s.tick) then
      onRas (logAppend (deadReceiver s m) 0x0F 0 [mbxReceiver s.mbx m, m]) fun r => { r with mailSince := SMap.erase r.mailSince m }
    else s := by
  simp only [monitorMail, h, ht, Bool.not_true, Bool.false_eq_true, if_false]

theorem monitorMail_of_in_time {t : Nat} (ht : SMap.get? s.ras.mailSince m = some t)
    (hl : (mailLimit s m).all (fun n => decide (s.tick ≤ t + n)) = true) : monitorMail s m = s := by
  rw [monitorMail_of_seen h ht, if_neg]
  cases hm : mailLimit s m with
  | none => exact Bool.false_ne_true
  | some n =>
    rw [hm] at hl
    simpa using hl

end

/-- The monitor over mailboxes that are not FULL forgets each of them and changes nothing else. -/
theorem foldl_monitorMail_of_empty (he : s.mbx.full = 0) (l : List Nat) : l.foldl monitorMail s =
    { s with ras := { s.ras with mailSince := l.foldl SMap.erase s.ras.mailSince } } := by
  induction l generalizing s with
  | nil => rfl
  | cons m l ih =>
    have hm : mbxFull s.mbx m = false := by rw [mbxFull, he]; exact BitVec.getLsbD_zero
    rw [List.foldl_cons, monitorMail_of_empty hm, ih (s := onRas s _) he]
    rfl

end

/-- Keys that are dropped one after the other read nothing. -/
theorem get?_foldl_erase {α : Type} {k : Nat} : ∀ (l : List Nat) {x : SMap α}, SMap.wf x = true → k ∈ l ∨ SMap.get? x k = none →
    SMap.get? (l.foldl SMap.erase x) k = none
  | [], _, _, h => h.resolve_left List.not_mem_nil
  | m :: l, x, hw, h => by
    refine get?_foldl_erase l (SMap.wf_erase hw) ?_
    by_cases hm : k = m
    · subst hm
      exact Or.inr (SMap.get?_erase_same k hw)
    · rcases h with h | h
      · exact Or.inl ((List.mem_cons.1 h).resolve_left hm)
      · exact Or.inr (((SMap.get?_erase_other x hm).resolve_right (ne_false_of_eq_true hw)).trans h)

/-- With no mailbox FULL the monitor changes the ages alone, and no age is left. -/
theorem answers_healthMonitorSample_of_empty {s : State} (h0 : s.power.mainReset = false) (hs : s.power.started = true)
    (he : s.mbx.full = 0) : Answers .healthMonitorSample s fun t =>
      t = { s with ras := { s.ras with mailSince := t.ras.mailSince } } ∧
        (SMap.wf s.ras.mailSince = true → ∀ m < 128, SMap.get? t.ras.mailSince m = none) := by
  have hgone (hw : SMap.wf s.ras.mailSince = true) (m : Nat) (hm : m < 128) :
      SMap.get? ((span 0 128).foldl SMap.erase s.ras.mailSince) m = none :=
    get?_foldl_erase _ hw (Or.inl ((mem_span_iff 0 128 m).2 ⟨Nat.zero_le m, hm⟩))
  refine ⟨_, execHealthMonitorSample_of_started h0 hs, ?_⟩
  rw [foldl_monitorMail_of_empty he]
  generalize (span 0 128).foldl SMap.erase s.ras.mailSince = ages at hgone
  exact ⟨rfl, hgone⟩

/-! ### The alarm path (R480, R493) -/

/-- What the alarm path leaves: the cause in RAS_ALARM and in SYS_RESET_CAUSE, a main reset, and the memory that lasts. -/
def Alarmed (s t : State) (r : Word) : Prop :=
  t.ras.alarm = r ∧ t.power.resetCause = 8 ∧ t.power.cold = true ∧ t.power.started = false ∧ t.runs = [] ∧
    t.ras.coresRetired = s.ras.coresRetired ∧ t.otp = s.otp ∧
    (t.power.mainReset = false ↔ s.power.mainPg = true ∧ s.power.porstLow = false ∧ s.power.tripped = false ∧
      s.boot.halted = none) ∧
    (Memory.wf s.mem = true → ∀ a, Memory.read t.mem a = if keepsMain a then Memory.read s.mem a else 0)

/-- Main reset on the alarm path, before its release. -/
def alarmReset (s : State) : State :=
  { mainReset s with power := { (mainReset s).power with cold := true, resetCause := 8 } }

theorem alarmPath_eq (s : State) (f : Ras → Ras) : alarmPath s f = releaseMain (alarmReset (onRas s f)) := rfl

theorem alarmed_release (s : State) : Alarmed s (releaseMain (alarmReset s)) s.ras.alarm := by
  by_cases h : Free (alarmReset s)
  · rw [releaseMain_of_free h]
    exact ⟨rfl, rfl, rfl, rfl, rfl, rfl, rfl, ⟨fun _ => h, fun _ => rfl⟩, read_mainReset⟩
  · rw [releaseMain_of_not_free h]
    exact ⟨rfl, rfl, rfl, rfl, rfl, rfl, rfl, ⟨fun hr => Bool.noConfusion hr, fun hr => absurd hr h⟩, read_mainReset⟩

theorem alarmForced_release (s : State) : (releaseMain (alarmReset s)).ras.alarmForced = s.ras.alarmForced := by
  by_cases h : Free (alarmReset s)
  · rw [releaseMain_of_free h]
    rfl
  · rw [releaseMain_of_not_free h]
    rfl

theorem alarmN_of_forced {s : State} (h : s.ras.alarmForced = true) : alarmN s = true := by
  simp only [alarmN, h, Bool.or_true, Bool.true_or]

/-! ### Keeper's restart (R480) -/

/-- The failed restarts of the last hour. -/
def recentFailures (s : State) : List Nat := s.ras.keeperRestarts.filter fun t => decide (s.tick < t + hourTicks)

/-- Keeper's trial has ended by a fault, and this failure is counted. -/
def restartFailed (s : State) : State :=
  onRas (trialFault s 1) fun r => { r with keeperRestarts := recentFailures s ++ [s.tick] }

section
variable {s : State}

theorem execKeeperRestart_of_reset (ok : Bool) (h : s.power.mainReset = true) : execKeeperRestart ok s = .next s :=
  congrArg Host.Outcome.next (if_pos h)

theorem execAlarmPath_of_reset (cause : AlarmCause) (h : s.power.mainReset = true) : execAlarmPath cause s = .next s := by
  simp only [execAlarmPath, h, Bool.true_or, if_true]

section
variable (h : s.power.mainReset = false)
include h

theorem execKeeperRestart_of_success : execKeeperRestart true s =
    .next (raiseEvent (logAppend (keeperAgain s) 0x01 0xFF [2, s.ras.alarm.toNat]) 0x030B) :=
  congrArg Host.Outcome.next (if_neg (ne_true_of_eq_false h))

theorem execKeeperRestart_of_failure : execKeeperRestart false s = .next (if 2 ≤ (recentFailures s ++ [s.tick]).length then
      alarmPath (restartFailed s) fun r => { r with alarm := r.alarm ||| 1 } else restartFailed s) :=
  congrArg Host.Outcome.next (if_neg (ne_true_of_eq_false h))

theorem answers_keeperRestart_of_first (hr : recentFailures s = []) : Answers (.keeperRestart false) s fun t =>
    t.ras = { s.ras with keeperRestarts := [s.tick] } ∧ t.power = s.power ∧ t.mem = s.mem := by
  refine ⟨restartFailed s, ?_, ?_⟩
  · refine (execKeeperRestart_of_failure h).trans (congrArg _ (if_neg ?_))
    rw [hr]
    exact Nat.not_le_of_lt Nat.one_lt_two
  · obtain ⟨fw, l, e, he⟩ := trialFault_eq s 1
    rw [restartFailed, he, hr]
    exact ⟨rfl, rfl, rfl⟩

theorem alarmed_keeperRestart_of_second (hr : recentFailures s ≠ []) :
    Answers (.keeperRestart false) s fun t => Alarmed s t (s.ras.alarm ||| 1) := by
  refine ⟨_, (execKeeperRestart_of_failure h).trans (congrArg _ (if_pos (two_le_length_append_singleton.2 hr))), ?_⟩
  obtain ⟨fw, l, e, he⟩ := trialFault_eq s 1
  rw [restartFailed, he, alarmPath_eq]
  exact alarmed_release _

theorem execAlarmPath_of_released (cause : AlarmCause) : execAlarmPath cause s = .next
    (if cause = .keeper ∧ (recentFailures s).length < 2 then s
    else alarmPath s fun r => { r with alarm := r.alarm ||| alarmBit cause }) := by
  simp only [execAlarmPath, h, Bool.false_or, Bool.and_eq_true, beq_iff_eq, decide_eq_true_eq]
  rfl

theorem alarmed_alarmPath {cause : AlarmCause} (hc : cause ≠ .keeper ∨ 2 ≤ (recentFailures s).length) :
    Answers (.alarmPath cause) s fun t => Alarmed s t (s.ras.alarm ||| alarmBit cause) := by
  refine ⟨_, (execAlarmPath_of_released h cause).trans (congrArg _ (if_neg ?_)), ?_⟩
  · rintro ⟨hk, hlt⟩
    rcases hc with hc | hc
    · exact hc hk
    · exact Nat.not_lt_of_le hc hlt
  · rw [alarmPath_eq]
    exact alarmed_release _

end

/-! ### ALARM_FORCE (R493) -/

/-- R19: Keeper alone reaches the RAS block. -/
theorem reaches_rasRegs (by_ : Req) (wr : Bool) : reaches by_ wr .rasRegs = isKeeper by_ := by
  cases by_ <;> rfl

variable {by_ : Req} {w : Word}

theorem execAlarmForce_of_other (hk : isKeeper by_ = false) : execAlarmForce by_ w s = .next (busError s) :=
  congrArg Host.Outcome.next (if_neg (ne_true_of_eq_false ((reaches_rasRegs by_ true).trans hk)))

section
variable (hk : isKeeper by_ = true)
include hk

theorem execAlarmForce_of_keeper : execAlarmForce by_ w s = .next (busOk (rasCtrl s w)) :=
  congrArg Host.Outcome.next (if_pos ((reaches_rasRegs by_ true).trans hk))

theorem execAlarmForce_of_forced (hb : bitOf w.toNat 2 = true) (hl : lifeCycle s = 3) : execAlarmForce by_ w s = .next
    (busOk (releaseMain (alarmReset (onRas (rset s (rasRegBase + 4) (w &&& 3)) fun r => { r with alarmForced := true })))) :=
  (execAlarmForce_of_keeper hk).trans (congrArg (fun t => Host.Outcome.next (busOk t)) (if_pos ⟨hb, hl⟩))

theorem execAlarmForce_of_not_forced (h : bitOf w.toNat 2 = false ∨ lifeCycle s ≠ 3) :
    execAlarmForce by_ w s = .next (busOk (rset s (rasRegBase + 4) (w &&& 3))) := by
  refine (execAlarmForce_of_keeper hk).trans (congrArg (fun t => Host.Outcome.next (busOk t)) (if_neg ?_))
  rintro ⟨hb, hl⟩
  rcases h with h | h
  · exact ne_true_of_eq_false h hb
  · exact h hl

theorem alarmed_alarmForce (hb : bitOf w.toNat 2 = true) (hl : lifeCycle s = 3) :
    (Answers (.alarmForce by_ w) s fun t => Alarmed s t s.ras.alarm) ∧
      Answers (.alarmForce by_ w) s fun t => t.ras.alarmForced = true ∧ alarmN t = true := by
  have he := execAlarmForce_of_forced (s := s) hk hb hl
  refine ⟨⟨_, he, alarmed_release (onRas (rset s (rasRegBase + 4) (w &&& 3)) _)⟩, ⟨_, he, ?_⟩⟩
  have hf := alarmForced_release (onRas (rset s (rasRegBase + 4) (w &&& 3)) fun r => { r with alarmForced := true })
  exact ⟨hf, alarmN_of_forced hf⟩

end

end

/-- Settles O44: SEC's rows by who makes them, the monitor mailbox by mailbox, and every way into the alarm path by
`alarmed_release`. -/
theorem secAlarmsAndTheHealthMonitorAct : Obligations.SecAlarmsAndTheHealthMonitorAct := by
  unfold Obligations.SecAlarmsAndTheHealthMonitorAct
  intro by_ v w header cause s x b u recent alarmed
  refine ⟨rfl, rfl, fun h => sec_rows_of_other h v, rfl, answers_secRestart header s, fun h => congrArg _ (if_pos h),
    fun h => congrArg _ (if_neg (ne_true_of_eq_false h)), fun h => congrArg _ (if_neg (ne_true_of_eq_false h)),
    fun h => congrArg _ (if_neg (ne_true_of_eq_false h)), fun hf => ?request, execSecResult_of_full,
    fun h => congrArg _ (if_pos (noPing_iff.2 h)), fun h0 hs hf ha hr => answers_dspPing ha hf hr h0 hs,
    fun h => congrArg _ (if_pos (notSampled_iff.2 h)),
    fun h0 hs => ⟨execHealthMonitorSample_of_started h0 hs, answers_healthMonitorSample_of_empty h0 hs⟩,
    fun m hm => ⟨monitorMail_of_new hm, fun t ht => ⟨monitorMail_of_in_time hm ht, fun hl => ?late⟩⟩,
    fun h => ⟨execKeeperRestart_of_reset v h, execAlarmPath_of_reset cause h⟩,
    fun h => ⟨execKeeperRestart_of_success h, answers_keeperRestart_of_first h, alarmed_keeperRestart_of_second h,
      alarmed_alarmPath h, fun hlt => (execAlarmPath_of_released h .keeper).trans (congrArg _ (if_pos ⟨rfl, hlt⟩))⟩,
    fun hk => ⟨alarmed_alarmForce hk, execAlarmForce_of_not_forced hk⟩, execAlarmForce_of_other⟩
  case request =>
    exact ⟨fun hr => (execSecRequest_of_full hf).trans (congrArg _ (mbxTake_of_full ((mayTake_sec_iff 11).2 hr) hf)),
      fun hr => (execSecRequest_of_full hf).trans (congrArg _ (mbxTake_of_other (mt (mayTake_sec_iff 11).1 hr)))⟩
  case late => exact (monitorMail_of_seen hm ht).trans (if_pos hl)

end Sys2Proof.Machine

/-! Agcon links: arrivals, acknowledgements and resends, epochs, training and authentication, loss and restart (R362, R365 to R369,
R380, R388, R467). -/

namespace Sys2Proof.Machine

/-! ### The record of a port -/

/-- A port in a state other than down is listed, in a map in any order. -/
theorem fabPort_modFabPort_same {s : State} {p : Nat} {g : FabPort → FabPort} (h : (g (fabPort s p)).state ≠ 0) :
    fabPort (modFabPort s p g) p = g (fabPort s p) := by
  have hne : g (fabPort s p) ≠ {} := ne_of_apply_ne FabPort.state h
  have hput : SMap.put s.fab.ports p (g (fabPort s p)) {} = SMap.set s.fab.ports p (g (fabPort s p)) := if_neg hne
  change SMap.getD (SMap.put s.fab.ports p (g (fabPort s p)) {}) p {} = _
  rw [hput]
  exact SMap.getD_set_same _ _ _ _

theorem fabPort_modFabPort_of_wf {s : State} (h : SMap.wf s.fab.ports = true) (p : Nat) (g : FabPort → FabPort) :
    fabPort (modFabPort s p g) p = g (fabPort s p) := SMap.getD_put_same h _ _ _

theorem fabPort_of_ports {s t : State} (h : t.fab.ports = s.fab.ports) (p : Nat) : fabPort t p = fabPort s p := by
  rw [fabPort, fabPort, h]

/-! ### Arrivals (R365) -/

/-- The rows by which a frame arrives that concerns its link or brings credits. -/
def linkRows (port : Fin 4) (f : FabFrame) (n : Nat) : List Instr :=
  [.idle port f, .key port f, .linkAck port f n, .linkNak port f n, .credit port f]

theorem exec_of_linkRows {port : Fin 4} {f : FabFrame} {n : Nat} {i : Instr} (hi : i ∈ linkRows port f n) (s : State) :
    ∃ type go, exec i s = .next (onLink s port.val { f with type := type } go) := by
  simp only [linkRows, List.mem_cons, List.not_mem_nil, or_false] at hi
  rcases hi with rfl | rfl | rfl | rfl | rfl
  case inl | inr.inl => exact ⟨f.type, _, rfl⟩
  all_goals exact ⟨_, _, rfl⟩

section
variable {port : Fin 4} {f : FabFrame} {n : Nat} {s : State}

theorem exec_linkRows_of_down (h : ¬ (s.fab.en = true ∧ (fabPort s port.val).state = 3)) :
    ∀ i ∈ linkRows port f n, exec i s = .next s := by
  intro i hi
  obtain ⟨type, go, he⟩ := exec_of_linkRows hi s
  rw [he, onLink_of_down _ _ h]

theorem exec_linkRows_of_wrong_counter (h : s.fab.en = true ∧ (fabPort s port.val).state = 3)
    (hc : counterOk (fabPort s port.val) f = false) : ∀ i ∈ linkRows port f n,
      exec i s = .next (linkNak (fabCount (fabCount s 0x204 1) 0x20C 1) port.val) := by
  intro i hi
  obtain ⟨type, go, he⟩ := exec_of_linkRows hi s
  rw [he, onLink_of_wrong_counter (f := { f with type := type }) go h.1 h.2 hc]

variable (h : Arrives s port.val f)
include h

theorem exec_idle_of_arrives : exec (.idle port f) s = .next (accepted s port.val f.type f) :=
  congrArg Host.Outcome.next (onLink_of_arrives f.type _ h)

theorem exec_key_of_arrives : exec (.key port f) s =
    .next (modFabPort (accepted s port.val f.type f) port.val fun x => { x with rxKey := true }) :=
  congrArg Host.Outcome.next (onLink_of_arrives f.type _ h)

theorem exec_linkAck_of_arrives : exec (.linkAck port f n) s = .next (takeLinkAck (accepted s port.val 0x04 f) port.val n) :=
  congrArg Host.Outcome.next (onLink_of_arrives 0x04 _ h)

theorem exec_linkNak_of_arrives : exec (.linkNak port f n) s =
    let u := takeLinkAck (accepted s port.val 0x04 f) port.val n
    .next (if 8 ≤ (fabPort u port.val).resends then linkRestart u port.val else resendFrom u port.val n) :=
  congrArg Host.Outcome.next (onLink_of_arrives 0x04 _ h)

theorem exec_credit_of_arrives : exec (.credit port f) s =
    let u := accepted s port.val 0x02 f
    .next (if f.dest = u.fab.addr then u else fabSend u { f with type := 0x02 }) :=
  congrArg Host.Outcome.next (onLink_of_arrives 0x02 _ h)

end

/-- R171: a frame of DATA brings credits to the first route of its queue toward the source. -/
theorem giveCredits_of_route {s : State} {f : FabFrame} {r : Nat} {d : Route} (hd : f.dest = s.fab.addr) (hc : f.creditReturn ≠ 0)
    (ht : f.type = 0x01) (hr : s.routes.find? (fun r => r.1 / 16 == f.creditQueue && r.2.dest == f.src) = some (r, d)) :
    giveCredits s f = { s with routes := SMap.set s.routes r { d with credits := min d.total (d.credits + f.creditReturn) } } := by
  have hn : ¬ (f.creditReturn = 0 ∨ f.dest ≠ s.fab.addr) := fun h => h.elim hc fun h => h hd
  have hany : (f.type != 0x02) = true := by
    rw [ht]
    rfl
  simp only [giveCredits, if_neg hn, hany, Bool.true_or, Bool.and_true, hr]

/-! ### Acknowledgements, epochs and resends (R365, R367) -/

/-- The port's record once the frames before counter n are acknowledged. -/
def dropAcked (n : Nat) (x : FabPort) : FabPort :=
  let rest := x.unacked.filter fun f => decide (n ≤ f.counter)
  { x with unacked := rest, resends := if rest.length < x.unacked.length then 0 else x.resends }

section
variable {s : State} {p n : Nat}

theorem takeLinkAck_eq : takeLinkAck s p n =
    match (fabPort s p).rekey with
    | some k => if k < n then newEpoch (modFabPort s p (dropAcked n)) p else modFabPort s p (dropAcked n)
    | none => linkPump (modFabPort s p (dropAcked n)) p (fabPort s p).waiting.length := rfl

theorem takeLinkAck_of_no_key (h : (fabPort s p).rekey = none) (hw : (fabPort s p).waiting = []) :
    takeLinkAck s p n = modFabPort s p (dropAcked n) := by
  rw [takeLinkAck_eq, h, hw]
  rfl

theorem takeLinkAck_of_key {k : Nat} (h : (fabPort s p).rekey = some k) : takeLinkAck s p n =
    if k < n then newEpoch (modFabPort s p (dropAcked n)) p else modFabPort s p (dropAcked n) := by
  rw [takeLinkAck_eq, h]

theorem newEpoch_of_none_waiting (h : (fabPort s p).waiting = []) : newEpoch s p = fabCount (modFabPort s p fun x =>
    { x with epoch := x.epoch + 1, txNext := 0, unacked := [], resends := 0, rekey := none, epochAt := s.tick }) 0x218 1 := by
  rw [newEpoch, h]
  rfl

theorem fabPort_resendFrom (h : SMap.wf s.fab.ports = true) :
    fabPort (resendFrom s p n) p = { fabPort s p with resends := (fabPort s p).resends + 1 } := by
  have hp : (resendFrom s p n).fab.ports = (modFabPort s p fun x => { x with resends := x.resends + 1 }).fab.ports := rfl
  rw [fabPort_of_ports hp, fabPort_modFabPort_of_wf h]

end

/-! ### A link that comes up (R366) -/

/-- A port just authenticated with a peer, whatever it has sent since. -/
structure Linked (peer : Nat) (x : FabPort) : Prop where
  state : x.state = 3
  peer : x.peer = peer
  epoch : x.epoch = 1
  rxEpoch : x.rxEpoch = 1
  rxNext : x.rxNext = 0
  rekey : x.rekey = none
  downAt : x.downAt = none

/-- Frames under the counters from 0 of the first epoch. -/
def numbered (fs : List FabFrame) : List FabFrame := fs.mapIdx fun i f => { f with epoch := 1, counter := i, retrans := false }

/-- The port has sent just these frames in the first epoch. -/
structure Sent (fs : List FabFrame) (x : FabPort) : Prop where
  unacked : x.unacked = numbered fs
  txNext : x.txNext = fs.length

theorem numbered_append_singleton (fs : List FabFrame) (f : FabFrame) :
    numbered (fs ++ [f]) = numbered fs ++ [{ f with epoch := 1, counter := fs.length, retrans := false }] := List.mapIdx_concat

theorem length_numbered (fs : List FabFrame) : (numbered fs).length = fs.length := List.length_mapIdx

/-- Numbering changes epoch, counter and retransmission flag alone. -/
theorem map_numbered {α : Type} {g : FabFrame → α}
    (hg : ∀ (f : FabFrame) (i : Nat), g { f with epoch := 1, counter := i, retrans := false } = g f) (fs : List FabFrame) :
    (numbered fs).map g = fs.map g := by
  refine List.ext_getElem? fun i => ?_
  rw [List.getElem?_map, numbered, List.getElem?_mapIdx, Option.map_map, List.getElem?_map]
  exact congrArg (Option.map · fs[i]?) (funext fun f => hg f i)

theorem epoch_counter_of_numbered {fs : List FabFrame} {i : Nat} {g : FabFrame} (h : (numbered fs)[i]? = some g) :
    g.epoch = 1 ∧ g.counter = i := by
  rw [numbered, List.getElem?_mapIdx, Option.map_eq_some_iff] at h
  obtain ⟨f, -, rfl⟩ := h
  exact ⟨rfl, rfl⟩

section
variable {s : State} {p : Nat}

/-- The record after frame f has left under its next counter. -/
def emitted (f : FabFrame) (x : FabPort) : FabPort :=
  { x with
    txNext := x.txNext + 1
    unacked := x.unacked ++ [{ f with epoch := x.epoch, counter := x.txNext, retrans := false }] }

theorem fabPort_linkEmit {f : FabFrame} (h : (fabPort s p).state ≠ 0) :
    fabPort (linkEmit s p f) p = emitted f (fabPort s p) := by
  have hp : (linkEmit s p f).fab.ports = (modFabPort s p (emitted f)).fab.ports := rfl
  rw [fabPort_of_ports hp, fabPort_modFabPort_same h]

theorem fabUp_iff : fabUp s p = true ↔ (fabPort s p).state = 3 := beq_iff_eq

theorem linkSend_of_up {f : FabFrame} (h : (fabPort s p).state = 3) : linkSend s p f =
    if linkOpen (fabPort s p) f.type then linkEmit s p f else modFabPort s p fun x => { x with waiting := x.waiting ++ [f] } := by
  rw [linkSend, fabUp_iff.2 h]
  rfl

variable {peer : Nat}

theorem Linked.linkSend (h : Linked peer (fabPort s p)) (f : FabFrame) : Linked peer (fabPort (linkSend s p f) p) := by
  have h0 : (fabPort s p).state ≠ 0 := by
    rw [h.state]
    decide
  rw [linkSend_of_up h.state]
  split
  · rw [fabPort_linkEmit h0]
    exact ⟨h.state, h.peer, h.epoch, h.rxEpoch, h.rxNext, h.rekey, h.downAt⟩
  · rw [fabPort_modFabPort_same h0]
    exact ⟨h.state, h.peer, h.epoch, h.rxEpoch, h.rxNext, h.rekey, h.downAt⟩

theorem Linked.linkSendAll (h : Linked peer (fabPort s p)) (fs : List FabFrame) :
    Linked peer (fabPort (linkSendAll s p fs) p) := by
  induction fs generalizing s with
  | nil => exact h
  | cons f r ih => exact ih (h.linkSend f)

/-- Within the window a frame leaves at once. -/
theorem Sent.linkSend {fs : List FabFrame} (hx : Linked peer (fabPort s p)) (h : Sent fs (fabPort s p)) (hl : fs.length < 64)
    (f : FabFrame) : Sent (fs ++ [f]) (fabPort (linkSend s p f) p) := by
  have h0 : (fabPort s p).state ≠ 0 := by
    rw [hx.state]
    decide
  have ho : linkOpen (fabPort s p) f.type = true := by
    simp only [linkOpen, linkWindow, h.unacked, length_numbered, hl, hx.rekey, decide_true, Option.isNone_none, Bool.and_self,
      Bool.or_true]
  rw [linkSend_of_up hx.state, if_pos ho, fabPort_linkEmit h0]
  refine ⟨?_, ?_⟩
  · rw [numbered_append_singleton]
    simp only [emitted, h.unacked, hx.epoch, h.txNext]
  · rw [List.length_append]
    exact congrArg (· + 1) h.txNext

theorem Sent.linkSendAll {fs : List FabFrame} (hx : Linked peer (fabPort s p)) (h : Sent fs (fabPort s p)) (r : List FabFrame)
    (hl : fs.length + r.length ≤ 64) : Sent (fs ++ r) (fabPort (linkSendAll s p r) p) := by
  induction r generalizing s fs with
  | nil => rwa [List.append_nil]
  | cons f r ih =>
    rw [List.length_cons] at hl
    rw [List.append_cons]
    refine ih (hx.linkSend f) (h.linkSend hx (by omega) f) ?_
    rw [List.length_append, List.length_singleton]
    omega

/-- The port's record as the link comes up. -/
def freshLink (peer tick : Nat) (x : FabPort) : FabPort :=
  { x with state := 3, peer := peer, epoch := 1, txNext := 0, rxEpoch := 1, rxNext := 0, unacked := [], waiting := [],
           resends := 0, rekey := none, rxKey := false, epochAt := tick, downAt := none }

/-- The frames that go again under the new key. -/
def sentAgain (x : FabPort) : List FabFrame :=
  x.unacked.filter (fun f => f.type != 0x04 && f.type != 0x03 && f.type != 0x11) ++ x.waiting

theorem linkUp_eq (s : State) (p peer : Nat) :
    linkUp s p peer = linkSendAll (modFabPort s p (freshLink peer s.tick)) p (sentAgain (fabPort s p)) := rfl

theorem fabPort_freshLink (s : State) (p peer : Nat) :
    fabPort (modFabPort s p (freshLink peer s.tick)) p = freshLink peer s.tick (fabPort s p) :=
  fabPort_modFabPort_same (g := freshLink peer s.tick) (Nat.succ_ne_zero 2)

theorem linked_freshLink (s : State) (p peer : Nat) : Linked peer (fabPort (modFabPort s p (freshLink peer s.tick)) p) := by
  rw [fabPort_freshLink]
  exact ⟨rfl, rfl, rfl, rfl, rfl, rfl, rfl⟩

theorem linked_linkUp (s : State) (p peer : Nat) : Linked peer (fabPort (linkUp s p peer) p) :=
  (linked_freshLink s p peer).linkSendAll _

theorem sent_linkUp (peer : Nat) (h : (sentAgain (fabPort s p)).length ≤ 64) :
    Sent (sentAgain (fabPort s p)) (fabPort (linkUp s p peer) p) := by
  have hs : Sent [] (fabPort (modFabPort s p (freshLink peer s.tick)) p) := by
    rw [fabPort_freshLink]
    exact ⟨rfl, rfl⟩
  exact hs.linkSendAll (linked_freshLink s p peer) _ (by rwa [List.length_nil, Nat.zero_add])

end

/-! ### Training and authentication (R361, R362, R366) -/

section
variable {port : Fin 4} {lanes : Fin 16} {s : State}

theorem notTraining_iff {p : Nat} :
    (!s.fab.en || fabRole s p == 0 || (fabPort s p).faulty || decide (1 < (fabPort s p).state)) = true ↔
      s.fab.en = false ∨ fabRole s p = 0 ∨ (fabPort s p).faulty = true ∨ 1 < (fabPort s p).state := by
  simp only [Bool.or_eq_true, Bool.not_eq_true', beq_iff_eq, decide_eq_true_eq, or_assoc]

theorem exec_agconLinkTrained_of_off (h : s.fab.en = false ∨ fabRole s port.val = 0 ∨ (fabPort s port.val).faulty = true ∨
    1 < (fabPort s port.val).state) : exec (.agconLinkTrained port lanes) s = .next s :=
  congrArg Host.Outcome.next (if_pos (notTraining_iff.2 h))

section
variable (h : ¬ (s.fab.en = false ∨ fabRole s port.val = 0 ∨ (fabPort s port.val).faulty = true ∨
  1 < (fabPort s port.val).state))
include h

theorem exec_agconLinkTrained_of_lanes_missing (hl : lanes.val ≠ 15) : exec (.agconLinkTrained port lanes) s =
    .next (tokenLost (modFabPort s port.val fun x => { x with state := 0, lanes := lanes.val }) port.val) :=
  congrArg Host.Outcome.next ((if_neg (mt notTraining_iff.1 h)).trans (if_neg hl))

theorem answers_agconLinkTrained : Answers (.agconLinkTrained port 15) s fun t =>
    (fabPort t port.val).state = 2 ∧ (fabPort t port.val).lanes = 15 ∧
      t.fab.wire = (port.val, { type := 0x10, src := s.fab.addr }) :: s.fab.wire := by
  refine ⟨_, congrArg Host.Outcome.next ((if_neg (mt notTraining_iff.1 h)).trans (if_pos rfl)), ?_⟩
  have hp : fabPort (modFabPort s port.val fun x => { x with state := 2, lanes := 15 }) port.val =
      { fabPort s port.val with state := 2, lanes := 15 } := fabPort_modFabPort_same (Nat.succ_ne_zero 1)
  exact ⟨congrArg FabPort.state hp, congrArg FabPort.lanes hp, rfl⟩

end

/-- R362: the role of the peer does not fit the port's, or a cross port leads back into the own segment. -/
def BadCable (s : State) (p : Nat) (role : Fin 4) (peer : BitVec 16) : Prop :=
  rolesOk (fabRole s p) role.val = false ∨
    (fabRole s p = 3 ∧ peer.toNat ≠ 0 ∧ s.fab.addr ≠ 0 ∧ segOf peer.toNat = segOf s.fab.addr)

theorem badCable_iff {p : Nat} {role : Fin 4} {peer : BitVec 16} :
    (!rolesOk (fabRole s p) role.val ||
      (fabRole s p == 3 && peer != 0 && s.fab.addr != 0 && segOf peer.toNat == segOf s.fab.addr)) = true ↔
      BadCable s p role peer := by
  have h0 : peer ≠ 0 ↔ peer.toNat ≠ 0 := not_congr BitVec.toNat_inj.symm
  rw [BadCable, ← h0]
  simp only [Bool.or_eq_true, Bool.and_eq_true, Bool.not_eq_true', beq_iff_eq, bne_iff_ne, and_assoc]

variable {root : Fin 2} {good : Bool} {role : Fin 4} {peer : BitVec 16}

theorem exec_auth_of_off (h : s.fab.en = false ∨ (fabPort s port.val).state ≠ 2) :
    exec (.auth port root good role peer) s = .next s := by
  refine congrArg Host.Outcome.next (if_pos ?_)
  rwa [Bool.or_eq_true, Bool.not_eq_true', bne_iff_ne]

section
variable (he : s.fab.en = true) (hs : (fabPort s port.val).state = 2)
include he hs

theorem exec_auth_of_trained : exec (.auth port root good role peer) s =
    let p := port.val
    let u := fabCount s 0x204 1
    .next (if !good || !rootLive s root.val then
        tokenLost (raiseEvent (logAppend (fabCount (modFabPort u p fun x => { x with state := 5 }) 0x210 1) 0x0C 0 [2])
          0x0205 0xFFFF peer.toNat) p
      else if !rolesOk (fabRole s p) role.val
          || (fabRole s p == 3 && peer != 0 && s.fab.addr != 0 && segOf peer.toNat == segOf s.fab.addr) then
        tokenLost (cablingFault u p) p
      else portReady (linkUp u p peer.toNat) p) := by
  refine congrArg Host.Outcome.next (if_neg ?_)
  rw [he, hs]
  decide

theorem exec_auth_of_refused (h : good = false ∨ rootLive s root.val = false) : exec (.auth port root good role peer) s =
    .next (tokenLost (raiseEvent (logAppend (fabCount (modFabPort (fabCount s 0x204 1) port.val fun x => { x with state := 5 })
      0x210 1) 0x0C 0 [2]) 0x0205 0xFFFF peer.toNat) port.val) := by
  refine (exec_auth_of_trained he hs).trans (congrArg Host.Outcome.next (if_pos ?_))
  rwa [Bool.or_eq_true, Bool.not_eq_true', Bool.not_eq_true']

variable (hg : good = true) (hr : rootLive s root.val = true)
include hg hr

theorem exec_auth_of_verified : exec (.auth port root good role peer) s =
    let p := port.val
    let u := fabCount s 0x204 1
    .next (if !rolesOk (fabRole s p) role.val
          || (fabRole s p == 3 && peer != 0 && s.fab.addr != 0 && segOf peer.toNat == segOf s.fab.addr) then
        tokenLost (cablingFault u p) p
      else portReady (linkUp u p peer.toNat) p) := by
  refine (exec_auth_of_trained he hs).trans (congrArg Host.Outcome.next (if_neg ?_))
  rw [hg, hr]
  decide

theorem exec_auth_of_badCable (h : BadCable s port.val role peer) : exec (.auth port root good role peer) s =
    .next (tokenLost (cablingFault (fabCount s 0x204 1) port.val) port.val) :=
  (exec_auth_of_verified he hs hg hr).trans (congrArg Host.Outcome.next (if_pos (badCable_iff.2 h)))

theorem exec_auth_of_goodCable (h : ¬ BadCable s port.val role peer) : exec (.auth port root good role peer) s =
    .next (portReady (linkUp (fabCount s 0x204 1) port.val peer.toNat) port.val) :=
  (exec_auth_of_verified he hs hg hr).trans (congrArg Host.Outcome.next (if_neg (mt badCable_iff.1 h)))

end

end

/-! ### Rekeying (R367, R467) -/

/-- Port p sends a fresh key now: its epoch ends, none is under way, and one can be made. -/
def SendsKey (s : State) (p : Nat) : Prop :=
  (fabPort s p).state = 3 ∧
    (2 ^ 40 ≤ (fabPort s p).txNext ∨ (fabPort s p).epochAt + 3600 * ticksPerSecond ≤ s.tick) ∧
    (fabPort s p).rekey = none ∧ s.sec.trngFail = false

section
variable {port : Fin 4} {s : State}

theorem sendsKey_iff {p : Nat} :
    (fabUp s p && epochEnds s (fabPort s p) && (fabPort s p).rekey.isNone && !s.sec.trngFail) = true ↔ SendsKey s p := by
  simp only [SendsKey, epochEnds, Bool.and_eq_true, fabUp_iff, Bool.or_eq_true, decide_eq_true_eq, Option.isNone_iff_eq_none,
    Bool.not_eq_true', and_assoc]

theorem exec_agconRekey_of_not (h : ¬ SendsKey s port.val) : exec (.agconRekey port) s = .next s :=
  congrArg Host.Outcome.next (if_neg (mt sendsKey_iff.1 h))

theorem answers_agconRekey (h : SendsKey s port.val) : Answers (.agconRekey port) s fun t =>
    (fabPort t port.val).rekey = some (fabPort s port.val).txNext ∧
      t.fab.wire = (port.val, { type := 0x11, src := s.fab.addr, epoch := (fabPort s port.val).epoch
                                counter := (fabPort s port.val).txNext }) :: s.fab.wire := by
  have h0 : (fabPort s port.val).state ≠ 0 := by
    rw [h.1]
    decide
  have hp : fabPort (modFabPort s port.val fun x => { x with rekey := some x.txNext }) port.val =
      { fabPort s port.val with rekey := some (fabPort s port.val).txNext } := fabPort_modFabPort_same h0
  refine ⟨_, congrArg Host.Outcome.next (if_pos (sendsKey_iff.2 h)), ?_, ?_⟩
  · rw [fabPort_linkEmit (by rwa [hp]), hp]
    rfl
  · rw [linkEmit, hp]
    rfl

/-! ### Loss and restart (R369, R380) -/

theorem exec_agconLinkDown_of_down (h : (fabPort s port.val).state = 0 ∨ (fabPort s port.val).state = 5) :
    exec (.agconLinkDown port) s = .next s := congrArg Host.Outcome.next (if_pos h)

theorem exec_agconLinkDown_of_not_down (h0 : (fabPort s port.val).state ≠ 0) (h5 : (fabPort s port.val).state ≠ 5) :
    exec (.agconLinkDown port) s = .next (tokenLost (modFabPort s port.val fun x =>
      { x with state := 0, lanes := 0, epoch := 0, rekey := none, downAt := x.downAt.or (some s.tick) }) port.val) := by
  refine congrArg Host.Outcome.next ((if_neg (not_or_intro h0 h5)).trans (congrArg (tokenLost · port.val) ?_))
  exact congrArg (modFabPort s port.val) (funext fun x => by cases x.downAt <;> rfl)

theorem linkRestart_eq (s : State) (p : Nat) : linkRestart s p =
    modFabPort (rboundary s (fabPortCfg p)) p fun x => { x with
      state := if fabRole (rboundary s (fabPortCfg p)) p = 0 ∨ x.faulty = true then 0 else 1
      lanes := 0
      epoch := 0
      rekey := none
      rxKey := false
      downAt := x.downAt.or (some s.tick) } := by
  unfold linkRestart
  exact congrArg (modFabPort _ p) (funext fun x => by cases x.downAt <;> rfl)

theorem exec_agconFrameRejected_of_down (cause : Fin 4) (h : (fabPort s port.val).state ≠ 3) :
    exec (.agconFrameRejected port cause) s = .next s := congrArg Host.Outcome.next (if_neg (mt fabUp_iff.1 h))

theorem exec_agconFrameRejected_of_up (cause : Fin 4) (h : (fabPort s port.val).state = 3) :
    exec (.agconFrameRejected port cause) s =
      .next (linkNak (fabCount (fabCount s 0x204 1) (if cause.val = 2 then 0x210 else 0x20C) 1) port.val) :=
  congrArg Host.Outcome.next (if_pos (fabUp_iff.2 h))

/-- R26: the proxy of a port takes a message that its mailbox holds for it. -/
theorem exec_fabricControlSend_eq_ite (f : FabFrame) : exec (.fabricControlSend port f) s = .next
    (if mbxFull s.mbx (112 + port.val) = true ∧ mbxReceiver s.mbx (112 + port.val) = 0x41 + port.val then
      linkSend (busData (mbxClear s (112 + port.val)) (mbxWord s.mbx (112 + port.val) 7)) port.val f
    else s) := by
  refine congrArg Host.Outcome.next ?_
  simp only [Bool.and_eq_true, beq_iff_eq]
  refine if_ctx_congr Iff.rfl (fun h => ?_) fun _ => rfl
  have ht : MayTake s.mbx (.proxy port) (112 + port.val) := Or.inr (congrArg some h.2.symm)
  rw [mbxTake_of_full ht h.1]

/-- What is due at a tick and what is not yet. -/
theorem not_due_of_all_later {o : Option Nat} {n now : Nat} (h : o.all (fun t => decide (now < t + n)) = true) :
    ¬ (o.any fun t => decide (t + n ≤ now)) = true := by
  cases o with
  | none => exact Bool.false_ne_true
  | some t => simpa using h

theorem exec_peerLost_of_not_due
    (h : (fabPort s port.val).downAt.all (fun t => decide (s.tick < t + 50 * ticksPerMs)) = true) :
    exec (.peerLost port) s = .next s := congrArg Host.Outcome.next (if_neg (not_due_of_all_later h))

theorem exec_peerLost_of_due
    (h : (fabPort s port.val).downAt.any (fun t => decide (t + 50 * ticksPerMs ≤ s.tick)) = true) :
    exec (.peerLost port) s = .next (drainOwn (loseMember s (fabPort s port.val).peer)) :=
  congrArg Host.Outcome.next (if_pos h)

theorem exec_placeTimeout_of_not_due {peer : BitVec 16}
    (h : (SMap.get? s.fab.asked peer.toNat).all (fun t => decide (s.tick < t + 50 * ticksPerMs)) = true) :
    exec (.placeTimeout peer) s = .next s := congrArg Host.Outcome.next (if_neg (not_due_of_all_later h))

theorem exec_placeTimeout_of_due {peer : BitVec 16}
    (h : (SMap.get? s.fab.asked peer.toNat).any (fun t => decide (t + 50 * ticksPerMs ≤ s.tick)) = true) :
    exec (.placeTimeout peer) s = .next (drainOwn
      (loseMember { s with fab := { s.fab with asked := SMap.erase s.fab.asked peer.toNat } } peer.toNat)) :=
  congrArg Host.Outcome.next (if_pos h)

/-- No address, the device's own, and one that is no member in the light list are not lost. -/
theorem loseMember_of_not_member {a : Nat} (h : a = 0 ∨ a = s.fab.addr ∨
    (lightOf s a).all (fun e => e.state != 1 && e.state != 2) = true) : loseMember s a = s := by
  refine if_pos (h.imp_right (Or.imp_right fun hl => ?_))
  cases he : lightOf s a with
  | none => rfl
  | some e =>
    rw [he] at hl
    simpa [bne] using hl

end

/-- Settles O50: arrivals by `Arrives`, the first epoch of a link by `Linked` and `Sent`, the other rows by their conditions. -/
theorem agconLinksTrainAuthenticateAndRekey : Obligations.AgconLinksTrainAuthenticateAndRekey := by
  unfold Obligations.AgconLinksTrainAuthenticateAndRekey
  intro port f n lanes mask root good role peer cause by_ s p x up set
  refine ⟨exec_linkRows_of_down, exec_linkRows_of_wrong_counter, fun h => ⟨?same, exec_linkAck_of_arrives h, ?nak, ?credit⟩,
    fun r d => giveCredits_of_route, ⟨takeLinkAck_of_no_key, ?keyed, ?acked⟩, newEpoch_of_none_waiting,
    ⟨rfl, fabPort_resendFrom⟩, ?linkUp,
    ⟨exec_agconLinkTrained_of_off, exec_agconLinkTrained_of_lanes_missing, answers_agconLinkTrained⟩, exec_auth_of_off,
    fun he hs => ⟨exec_auth_of_refused he hs, exec_auth_of_badCable he hs, exec_auth_of_goodCable he hs⟩,
    ⟨exec_agconRekey_of_not, answers_agconRekey⟩, exec_agconLinkDown_of_down, exec_agconLinkDown_of_not_down,
    fun h => congrArg Host.Outcome.next (mayWrite_fabRegs_of_other s _ h),
    fun h => congrArg Host.Outcome.next (mayWrite_fabRegs_of_keeper s _ h), linkRestart_eq s p,
    exec_agconFrameRejected_of_down cause, exec_agconFrameRejected_of_up cause, ?send,
    exec_peerLost_of_not_due, exec_peerLost_of_due, ⟨exec_placeTimeout_of_not_due, exec_placeTimeout_of_due⟩,
    fun a => loseMember_of_not_member⟩
  case same =>
    rintro k rfl
    exact ⟨exec_idle_of_arrives h, exec_key_of_arrives h⟩
  case nak =>
    exact ⟨fun hl => (exec_linkNak_of_arrives h).trans (congrArg Host.Outcome.next (if_neg (Nat.not_le_of_lt hl))),
      fun hl => (exec_linkNak_of_arrives h).trans (congrArg Host.Outcome.next (if_pos hl))⟩
  case credit =>
    exact ⟨fun hd => (exec_credit_of_arrives h).trans (congrArg Host.Outcome.next (if_pos hd)),
      fun hd => (exec_credit_of_arrives h).trans (congrArg Host.Outcome.next (if_neg hd))⟩
  case keyed => exact fun k hk hn => (takeLinkAck_of_key hk).trans (if_neg (Nat.not_lt_of_le hn))
  case acked => exact fun k hk hn => (takeLinkAck_of_key hk).trans (if_pos hn)
  case linkUp =>
    intro t again plain
    have h : Linked peer.toNat (fabPort t p) := linked_linkUp s p peer.toNat
    refine ⟨h.state, h.peer, h.epoch, h.rxEpoch, h.rxNext, h.rekey, h.downAt, fun hl => ?_⟩
    have hs : (fabPort t p).unacked = numbered again := (sent_linkUp peer.toNat hl).unacked
    rw [hs]
    exact ⟨map_numbered (fun _ _ => rfl) again, fun i g => epoch_counter_of_numbered⟩
  case send =>
    exact ⟨fun hm => (exec_fabricControlSend_eq_ite f).trans (congrArg Host.Outcome.next (if_neg hm)),
      fun hm => (exec_fabricControlSend_eq_ite f).trans (congrArg Host.Outcome.next (if_pos hm))⟩

end Sys2Proof.Machine
